-- ==== Sys2Proof/Word.lean ====
section
/-! DEFINITION. Word types of the Cyelle 9400 and their plainest arithmetic (R6, R9, R38). -/

namespace Sys2Proof

abbrev Byte := BitVec 8
/-- A 32-bit vector register or instruction word. -/
abbrev Word := BitVec 32
/-- A 64-bit scalar register or vector pair. -/
abbrev DWord := BitVec 64
/-- A 48-bit virtual address (R12, R324). -/
abbrev Addr := BitVec 48
/-- A set of lanes: bit i is lane i. -/
abbrev LaneSet := BitVec 64
/-- Vector register field (R40). -/
abbrev VReg := BitVec 7
/-- Scalar register field (R40). -/
abbrev SReg := BitVec 6
/-- Predicate field (R40). -/
abbrev PReg := BitVec 6
/-- Rejoin-mask field (R40). -/
abbrev MReg := BitVec 4
/-- Token field (R40): 15 names no token. -/
abbrev Tok := BitVec 4

end Sys2Proof
end

