-- ==== Sys2Proof/Syntax.lean ====
section
/-! DEFINITION. The steps of the Cyelle 9400 as one inductive: the 270 instruction words (R38-R54), with
their fields as the words hold them, and the 76 steps of the device that have no word (95), each with the
inputs that come from outside the machine or name the thing that moves. -/

namespace Sys2Proof

/-- A Clerestory message from the host (R343): the header's fields and the payload. -/
structure HostMsg where
  type    : BitVec 8
  ctx     : BitVec 6
  space   : BitVec 2
  seq     : BitVec 16
  len     : BitVec 32
  arg     : DWord
  payload : List Byte
  deriving DecidableEq, Repr

/-- A remote device's access through one of its apertures (R353): the context named by RCTX, the virtual
address, the bytes written, or how many are read. -/
structure RemoteReq where
  fid   : BitVec 12
  rctx  : BitVec 6
  va    : Addr
  write : Bool
  bytes : List Byte
  size  : Nat
  deriving DecidableEq, Repr

/-- A target's answer on one aperture page (R354). -/
inductive TargetAnswer where
  | allowed
  | notMapped
  | denied
  deriving DecidableEq, Repr

/-- A peer's part of a collective (R355, R356): its rank, its parameters, its elements, and which of them are poisoned. -/
structure PeerData where
  cid   : DWord
  rank  : Nat
  op    : BitVec 8
  type  : BitVec 8
  red   : BitVec 8
  e     : Nat
  n     : Nat
  elems : List DWord
  bad   : List Nat
  deriving DecidableEq, Repr

/-- What a scrub found in one line of a row (R273, R276). -/
inductive ErrKind where
  | oneSymbol
  | oneDevice
  | uncorrectable
  deriving DecidableEq, Repr

/-- What a detected fault writes into the fault log (R367): unit code, die, and the unit's cycle count. -/
structure FaultLog where
  unitCode : BitVec 16
  die      : BitVec 8
  cycles   : DWord
  deriving DecidableEq, Repr

/-- One finding of a controller in a line it reads: the frame, by congruence group and number, the line of its 64 KiB,
what was found, and the entry of the fault log. -/
structure RowFinding where
  group : Nat
  frame : Nat
  line  : Nat
  err   : ErrKind
  log   : FaultLog
  deriving DecidableEq, Repr

/-- What a swap unit reads: the held pages of a congruence group, and what the controller finds in their lines (R269, R273). -/
structure GroupRead where
  group : Nat
  finds : List RowFinding := []
  deriving DecidableEq, Repr

/-- An activation counter as it is read at precharge (R279): good, saturated, or with a parity error, which is a fault to log. -/
inductive CounterRead where
  | good
  | saturated
  | parityBad (f : FaultLog)
  deriving DecidableEq, Repr

/-- An access of memory by firmware, at a physical address (R365). -/
inductive FirmwareAct where
  | read (pa n : Nat)
  | write (pa : Nat) (bytes : List Byte)
  deriving DecidableEq, Repr

/-- Cycles of the management controller, with the accesses of memory that its firmware makes in them, in order (R365). -/
structure FirmwareRun where
  cycles : Nat
  acts   : List FirmwareAct := []
  deriving DecidableEq, Repr

/-- The data that a fault struck beyond correction (R246, R250, R258, R273): nothing, the unit at a location of a
scratchpad, the Cupola or DRAM, a word of a lane's slice, or bytes of a tile register of a team. -/
inductive Struck where
  | nothing
  | memory (loc : Nat)
  | lane (core slot lane word : Nat)
  | tile (team core n byte : Nat)
  deriving DecidableEq, Repr

/-- A detected fault (R367): its log entry, and the data it struck. -/
structure FaultReport where
  log    : FaultLog
  struck : Struck
  deriving DecidableEq, Repr

inductive Instr where
  /-- IADD (R80). Adds va and vb modulo 2^32 in each active lane. -/
  | iadd (u : Bool) (d : VReg) (a : VReg) (b : VReg)
  /-- ISUB (R80). Subtracts vb from va modulo 2^32 in each active lane. -/
  | isub (u : Bool) (d : VReg) (a : VReg) (b : VReg)
  /-- IMUL (R80). Writes the low 32 bits of va times vb. -/
  | imul (u : Bool) (d : VReg) (a : VReg) (b : VReg)
  /-- IMULH (R80). Writes the high 32 bits of the signed product of va and vb. -/
  | imulh (u : Bool) (d : VReg) (a : VReg) (b : VReg)
  /-- IMULHZ (R80). Writes the high 32 bits of the unsigned product of va and vb. -/
  | imulhz (u : Bool) (d : VReg) (a : VReg) (b : VReg)
  /-- IMIN (R80). Writes the signed minimum of va and vb. -/
  | imin (u : Bool) (d : VReg) (a : VReg) (b : VReg)
  /-- IMAX (R80). Writes the signed maximum of va and vb. -/
  | imax (u : Bool) (d : VReg) (a : VReg) (b : VReg)
  /-- IMINZ (R80). Writes the unsigned minimum of va and vb. -/
  | iminz (u : Bool) (d : VReg) (a : VReg) (b : VReg)
  /-- IMAXZ (R80). Writes the unsigned maximum of va and vb. -/
  | imaxz (u : Bool) (d : VReg) (a : VReg) (b : VReg)
  /-- IABS (R80). Writes the absolute value of va, with IABS(0x8000_0000) unchanged. -/
  | iabs (u : Bool) (d : VReg) (a : VReg)
  /-- AND (R80). Writes va AND vb. -/
  | and (u : Bool) (d : VReg) (a : VReg) (b : VReg)
  /-- OR (R80). Writes va OR vb. -/
  | or (u : Bool) (d : VReg) (a : VReg) (b : VReg)
  /-- XOR (R80). Writes va XOR vb. -/
  | xor (u : Bool) (d : VReg) (a : VReg) (b : VReg)
  /-- ANDN (R80). Writes va AND NOT vb. -/
  | andn (u : Bool) (d : VReg) (a : VReg) (b : VReg)
  /-- SHL (R81). Shifts va left by vb AND 0xFF, giving 0 at 32 or more. -/
  | shl (u : Bool) (d : VReg) (a : VReg) (b : VReg)
  /-- SHR (R81). Shifts va right with zero fill. -/
  | shr (u : Bool) (d : VReg) (a : VReg) (b : VReg)
  /-- SAR (R81). Shifts va right with sign fill. -/
  | sar (u : Bool) (d : VReg) (a : VReg) (b : VReg)
  /-- ROTL (R81). Rotates va left by the amount mod 32. -/
  | rotl (u : Bool) (d : VReg) (a : VReg) (b : VReg)
  /-- POPC (R81). Counts the one bits of va. -/
  | popc (u : Bool) (d : VReg) (a : VReg)
  /-- CLZ (R81). Counts the leading zeros of va. -/
  | clz (u : Bool) (d : VReg) (a : VReg)
  /-- CTZ (R81). Counts the trailing zeros of va. -/
  | ctz (u : Bool) (d : VReg) (a : VReg)
  /-- BREV (R81). Reverses the bits of va. -/
  | brev (u : Bool) (d : VReg) (a : VReg)
  /-- BSWAP (R81). Reverses the bytes of va. -/
  | bswap (u : Bool) (d : VReg) (a : VReg)
  /-- IMAD (R81). Adds the low 32 bits of va times vb to vd. -/
  | imad (u : Bool) (d : VReg) (a : VReg) (b : VReg)
  /-- BFX (R82). Extracts a bit field of va described by vb, optionally sign-extended. -/
  | bfx (u : Bool) (d : VReg) (a : VReg) (b : VReg)
  /-- BFI (R82). Inserts va into a bit field of vd described by vb. -/
  | bfi (u : Bool) (d : VReg) (a : VReg) (b : VReg)
  /-- IADD64 (R83). Adds two 64-bit register pairs. -/
  | iadd64 (u : Bool) (d : VReg) (a : VReg) (b : VReg)
  /-- ISUB64 (R83). Subtracts two 64-bit register pairs. -/
  | isub64 (u : Bool) (d : VReg) (a : VReg) (b : VReg)
  /-- IMULW (R83). Writes the full signed 64-bit product of va and vb to a pair. -/
  | imulw (u : Bool) (d : VReg) (a : VReg) (b : VReg)
  /-- MOV (R81). Copies va to vd. -/
  | mov (u : Bool) (d : VReg) (a : VReg)
  /-- IADDI (R84). Adds a sign-extended immediate to va. -/
  | iaddi (u : Bool) (d : VReg) (a : VReg) (i : BitVec 11)
  /-- ANDI (R84). ANDs va with a sign-extended immediate. -/
  | andi (u : Bool) (d : VReg) (a : VReg) (i : BitVec 11)
  /-- ORI (R84). ORs va with a sign-extended immediate. -/
  | ori (u : Bool) (d : VReg) (a : VReg) (i : BitVec 11)
  /-- XORI (R84). XORs va with a sign-extended immediate. -/
  | xori (u : Bool) (d : VReg) (a : VReg) (i : BitVec 11)
  /-- SHLI (R84). Shifts va left by an immediate amount. -/
  | shli (u : Bool) (d : VReg) (a : VReg) (n : BitVec 5)
  /-- SHRI (R84). Shifts va right with zero fill by an immediate amount. -/
  | shri (u : Bool) (d : VReg) (a : VReg) (n : BitVec 5)
  /-- SARI (R84). Shifts va right with sign fill by an immediate amount. -/
  | sari (u : Bool) (d : VReg) (a : VReg) (n : BitVec 5)
  /-- ROTLI (R84). Rotates va left by an immediate amount. -/
  | rotli (u : Bool) (d : VReg) (a : VReg) (n : BitVec 5)
  /-- MOVI (R84). Writes an 18-bit sign-extended immediate to vd. -/
  | movi (u : Bool) (d : VReg) (i : BitVec 18)
  /-- ICMP (R85). Compares va with vb by the condition and writes or ANDs the result into pd. -/
  | icmp (u : Bool) (c : BitVec 4) (p : PReg) (a : VReg) (b : VReg) (n : BitVec 1)
  /-- FCMP (R124). Compares two FP32 registers by an ordered or unordered condition into pd. -/
  | fcmp (u : Bool) (c : BitVec 3) (p : PReg) (a : VReg) (b : VReg) (n : BitVec 1)
  /-- DCMP (R124). Compares two FP64 pairs by an ordered or unordered condition into pd. -/
  | dcmp (u : Bool) (c : BitVec 3) (p : PReg) (a : VReg) (b : VReg) (n : BitVec 1)
  /-- SEL (R86). Copies va into vd where predicate p holds. -/
  | sel (u : Bool) (d : VReg) (a : VReg) (p : PReg)
  /-- PSET (R86). Sets predicate p to va not equal to zero. -/
  | pset (u : Bool) (a : VReg) (p : PReg)
  /-- PTEST (R86). Writes 1 or 0 into vd from predicate p. -/
  | ptest (u : Bool) (d : VReg) (p : PReg)
  /-- PAND (R87). Writes pa AND pb into pd. -/
  | pand (u : Bool) (p : PReg) (q : PReg) (r : PReg)
  /-- POR (R87). Writes pa OR pb into pd. -/
  | por (u : Bool) (p : PReg) (q : PReg) (r : PReg)
  /-- PXOR (R87). Writes pa XOR pb into pd. -/
  | pxor (u : Bool) (p : PReg) (q : PReg) (r : PReg)
  /-- PANDN (R87). Writes pa AND NOT pb into pd. -/
  | pandn (u : Bool) (p : PReg) (q : PReg) (r : PReg)
  /-- PNOT (R87). Writes NOT pa into pd. -/
  | pnot (u : Bool) (p : PReg) (q : PReg)
  /-- PMOV (R87). Copies pa into pd. -/
  | pmov (u : Bool) (p : PReg) (q : PReg)
  /-- FADD (R120). Adds two FP32 values, rounded once. -/
  | fadd (u : Bool) (d : VReg) (a : VReg) (b : VReg)
  /-- FSUB (R120). Subtracts two FP32 values, rounded once. -/
  | fsub (u : Bool) (d : VReg) (a : VReg) (b : VReg)
  /-- FMUL (R120). Multiplies two FP32 values, rounded once. -/
  | fmul (u : Bool) (d : VReg) (a : VReg) (b : VReg)
  /-- FFMA (R120). Computes va times vb plus vd in FP32, fused. -/
  | ffma (u : Bool) (d : VReg) (a : VReg) (b : VReg)
  /-- FFMS (R120). Computes vd minus va times vb in FP32, fused. -/
  | ffms (u : Bool) (d : VReg) (a : VReg) (b : VReg)
  /-- FMIN (R105). Writes the FP32 minimum of va and vb. -/
  | fmin (u : Bool) (d : VReg) (a : VReg) (b : VReg)
  /-- FMAX (R105). Writes the FP32 maximum of va and vb. -/
  | fmax (u : Bool) (d : VReg) (a : VReg) (b : VReg)
  /-- FABS (R120). Clears the sign of an FP32 value. -/
  | fabs (u : Bool) (d : VReg) (a : VReg)
  /-- FNEG (R120). Inverts the sign of an FP32 value. -/
  | fneg (u : Bool) (d : VReg) (a : VReg)
  /-- FCPS (R120). Writes va with the sign bit of vb. -/
  | fcps (u : Bool) (d : VReg) (a : VReg) (b : VReg)
  /-- FRND (R121). Rounds an FP32 value to an integral value by the selected mode. -/
  | frnd (u : Bool) (d : VReg) (a : VReg) (r : BitVec 3)
  /-- FCLASS (R122). Writes a one-hot class mask of an FP32 value. -/
  | fclass (u : Bool) (d : VReg) (a : VReg)
  /-- DADD (R120). Adds two FP64 pairs, rounded once. -/
  | dadd (u : Bool) (d : VReg) (a : VReg) (b : VReg)
  /-- DSUB (R120). Subtracts two FP64 pairs, rounded once. -/
  | dsub (u : Bool) (d : VReg) (a : VReg) (b : VReg)
  /-- DMUL (R120). Multiplies two FP64 pairs, rounded once. -/
  | dmul (u : Bool) (d : VReg) (a : VReg) (b : VReg)
  /-- DFMA (R120). Computes va times vb plus vd in FP64, fused. -/
  | dfma (u : Bool) (d : VReg) (a : VReg) (b : VReg)
  /-- DFMS (R120). Computes vd minus va times vb in FP64, fused. -/
  | dfms (u : Bool) (d : VReg) (a : VReg) (b : VReg)
  /-- DMIN (R105). Writes the FP64 minimum of two pairs. -/
  | dmin (u : Bool) (d : VReg) (a : VReg) (b : VReg)
  /-- DMAX (R105). Writes the FP64 maximum of two pairs. -/
  | dmax (u : Bool) (d : VReg) (a : VReg) (b : VReg)
  /-- DABS (R120). Clears the sign of an FP64 pair. -/
  | dabs (u : Bool) (d : VReg) (a : VReg)
  /-- DNEG (R120). Inverts the sign of an FP64 pair. -/
  | dneg (u : Bool) (d : VReg) (a : VReg)
  /-- DRND (R121). Rounds an FP64 value to an integral value by the selected mode. -/
  | drnd (u : Bool) (d : VReg) (a : VReg) (r : BitVec 3)
  /-- DCLASS (R122). Writes the class mask of an FP64 value into the even register and 0 into the odd. -/
  | dclass (u : Bool) (d : VReg) (a : VReg)
  /-- HADD2 (R123). Adds packed FP16 pairs element by element. -/
  | hadd2 (u : Bool) (d : VReg) (a : VReg) (b : VReg)
  /-- HMUL2 (R123). Multiplies packed FP16 pairs. -/
  | hmul2 (u : Bool) (d : VReg) (a : VReg) (b : VReg)
  /-- HFMA2 (R123). Fused multiply-add of packed FP16 pairs. -/
  | hfma2 (u : Bool) (d : VReg) (a : VReg) (b : VReg)
  /-- HMIN2 (R123). Minimum of packed FP16 pairs. -/
  | hmin2 (u : Bool) (d : VReg) (a : VReg) (b : VReg)
  /-- HMAX2 (R123). Maximum of packed FP16 pairs. -/
  | hmax2 (u : Bool) (d : VReg) (a : VReg) (b : VReg)
  /-- BADD2 (R123). Adds packed BF16 pairs. -/
  | badd2 (u : Bool) (d : VReg) (a : VReg) (b : VReg)
  /-- BMUL2 (R123). Multiplies packed BF16 pairs. -/
  | bmul2 (u : Bool) (d : VReg) (a : VReg) (b : VReg)
  /-- BFMA2 (R123). Fused multiply-add of packed BF16 pairs. -/
  | bfma2 (u : Bool) (d : VReg) (a : VReg) (b : VReg)
  /-- BMIN2 (R123). Minimum of packed BF16 pairs. -/
  | bmin2 (u : Bool) (d : VReg) (a : VReg) (b : VReg)
  /-- BMAX2 (R123). Maximum of packed BF16 pairs. -/
  | bmax2 (u : Bool) (d : VReg) (a : VReg) (b : VReg)
  /-- FRCP (R125). Starts a correctly rounded FP32 reciprocal, tracked on a token. -/
  | frcp (u : Bool) (d : VReg) (a : VReg) (k : Tok)
  /-- FRSQ (R125). Starts a correctly rounded FP32 reciprocal square root. -/
  | frsq (u : Bool) (d : VReg) (a : VReg) (k : Tok)
  /-- FSQRT (R125). Starts a correctly rounded FP32 square root. -/
  | fsqrt (u : Bool) (d : VReg) (a : VReg) (k : Tok)
  /-- FEXP2 (R125). Starts a correctly rounded FP32 base-2 exponential. -/
  | fexp2 (u : Bool) (d : VReg) (a : VReg) (k : Tok)
  /-- FLOG2 (R125). Starts a correctly rounded FP32 base-2 logarithm. -/
  | flog2 (u : Bool) (d : VReg) (a : VReg) (k : Tok)
  /-- FSINP (R125). Starts a correctly rounded sin(pi x). -/
  | fsinp (u : Bool) (d : VReg) (a : VReg) (k : Tok)
  /-- FCOSP (R125). Starts a correctly rounded cos(pi x). -/
  | fcosp (u : Bool) (d : VReg) (a : VReg) (k : Tok)
  /-- DRCP (R125). Starts a correctly rounded FP64 reciprocal. -/
  | drcp (u : Bool) (d : VReg) (a : VReg) (k : Tok)
  /-- DRSQ (R125). Starts a correctly rounded FP64 reciprocal square root. -/
  | drsq (u : Bool) (d : VReg) (a : VReg) (k : Tok)
  /-- DSQRT (R125). Starts a correctly rounded FP64 square root. -/
  | dsqrt (u : Bool) (d : VReg) (a : VReg) (k : Tok)
  /-- CVT (R128). Converts between the format pair selected by fn with the given rounding and pack position, advancing DPH for dither. -/
  | cvt (u : Bool) (f : BitVec 4) (d : VReg) (a : VReg) (r : BitVec 3) (p : BitVec 4)
  /-- LDL_B32 (R158). Loads a word from the lane-private slice. -/
  | ldlB32 (d : VReg) (a : VReg) (k : Tok) (s : BitVec 3)
  /-- LDL_B64 (R158). Loads a doubleword from the lane-private slice into a pair. -/
  | ldlB64 (d : VReg) (a : VReg) (k : Tok) (s : BitVec 3)
  /-- STL_B32 (R158). Stores a word to the lane-private slice. -/
  | stlB32 (d : VReg) (a : VReg) (k : Tok) (s : BitVec 3)
  /-- STL_B64 (R158). Stores a pair to the lane-private slice. -/
  | stlB64 (d : VReg) (a : VReg) (k : Tok) (s : BitVec 3)
  /-- LDS_S8 (R159). Loads a sign-extended scratchpad byte, parking on an absent line. -/
  | ldsS8 (u : Bool) (d : VReg) (a : VReg) (k : Tok) (s : BitVec 3)
  /-- LDS_Z8 (R159). Loads a zero-extended scratchpad byte. -/
  | ldsZ8 (u : Bool) (d : VReg) (a : VReg) (k : Tok) (s : BitVec 3)
  /-- LDS_S16 (R159). Loads a sign-extended scratchpad halfword. -/
  | ldsS16 (u : Bool) (d : VReg) (a : VReg) (k : Tok) (s : BitVec 3)
  /-- LDS_Z16 (R159). Loads a zero-extended scratchpad halfword. -/
  | ldsZ16 (u : Bool) (d : VReg) (a : VReg) (k : Tok) (s : BitVec 3)
  /-- LDS_B32 (R159). Loads a scratchpad word. -/
  | ldsB32 (u : Bool) (d : VReg) (a : VReg) (k : Tok) (s : BitVec 3)
  /-- LDS_B64 (R159). Loads a scratchpad doubleword into a pair. -/
  | ldsB64 (u : Bool) (d : VReg) (a : VReg) (k : Tok) (s : BitVec 3)
  /-- LDS_B128 (R159). Loads 16 scratchpad bytes into a quad. -/
  | ldsB128 (u : Bool) (d : VReg) (a : VReg) (k : Tok) (s : BitVec 3)
  /-- STS_B8 (R159). Appends a scratchpad byte store to the store queue. -/
  | stsB8 (d : VReg) (a : VReg) (k : Tok) (s : BitVec 3)
  /-- STS_B16 (R159). Stores a scratchpad halfword. -/
  | stsB16 (d : VReg) (a : VReg) (k : Tok) (s : BitVec 3)
  /-- STS_B32 (R159). Stores a scratchpad word. -/
  | stsB32 (d : VReg) (a : VReg) (k : Tok) (s : BitVec 3)
  /-- STS_B64 (R159). Stores a pair to the scratchpad. -/
  | stsB64 (d : VReg) (a : VReg) (k : Tok) (s : BitVec 3)
  /-- STS_B128 (R159). Stores a quad to the scratchpad. -/
  | stsB128 (d : VReg) (a : VReg) (k : Tok) (s : BitVec 3)
  /-- LDC_B32 (R162). Loads a Cupola word through the window. -/
  | ldcB32 (u : Bool) (d : VReg) (a : VReg) (k : Tok) (s : BitVec 3)
  /-- LDC_B64 (R162). Loads a Cupola doubleword into a pair. -/
  | ldcB64 (u : Bool) (d : VReg) (a : VReg) (k : Tok) (s : BitVec 3)
  /-- LDC_B128 (R162). Loads 16 Cupola bytes into a quad. -/
  | ldcB128 (u : Bool) (d : VReg) (a : VReg) (k : Tok) (s : BitVec 3)
  /-- STC_B32 (R162). Stores a Cupola word. -/
  | stcB32 (d : VReg) (a : VReg) (k : Tok) (s : BitVec 3)
  /-- STC_B64 (R162). Stores a pair to the Cupola. -/
  | stcB64 (d : VReg) (a : VReg) (k : Tok) (s : BitVec 3)
  /-- STC_B128 (R162). Stores a quad to the Cupola. -/
  | stcB128 (d : VReg) (a : VReg) (k : Tok) (s : BitVec 3)
  /-- LDC_ACQ_B32 (R162). Loads a Cupola word, then acquires at device scope. -/
  | ldcAcqB32 (d : VReg) (a : VReg) (k : Tok) (s : BitVec 3)
  /-- LDC_ACQ_B64 (R162). Loads a Cupola doubleword, then acquires at device scope. -/
  | ldcAcqB64 (d : VReg) (a : VReg) (k : Tok) (s : BitVec 3)
  /-- STC_REL_B32 (R162). Stores a Cupola word as a device-scope release entry. -/
  | stcRelB32 (d : VReg) (a : VReg) (k : Tok) (s : BitVec 3)
  /-- STC_REL_B64 (R162). Stores a Cupola pair as a device-scope release entry. -/
  | stcRelB64 (d : VReg) (a : VReg) (k : Tok) (s : BitVec 3)
  /-- PRS (R163). Reads the presence bit of a scratchpad line. -/
  | prs (d : VReg) (a : VReg) (k : Tok) (s : BitVec 3)
  /-- ATOMS_ADD (R164). Atomically adds to a scratchpad word and returns the old value. -/
  | atomsAdd (d : VReg) (a : VReg) (k : Tok) (s : BitVec 3)
  /-- ATOMS_MIN (R164). Atomic signed minimum on a scratchpad word. -/
  | atomsMin (d : VReg) (a : VReg) (k : Tok) (s : BitVec 3)
  /-- ATOMS_MAX (R164). Atomic signed maximum on a scratchpad word. -/
  | atomsMax (d : VReg) (a : VReg) (k : Tok) (s : BitVec 3)
  /-- ATOMS_MINZ (R164). Atomic unsigned minimum on a scratchpad word. -/
  | atomsMinz (d : VReg) (a : VReg) (k : Tok) (s : BitVec 3)
  /-- ATOMS_MAXZ (R164). Atomic unsigned maximum on a scratchpad word. -/
  | atomsMaxz (d : VReg) (a : VReg) (k : Tok) (s : BitVec 3)
  /-- ATOMS_AND (R164). Atomic AND on a scratchpad word. -/
  | atomsAnd (d : VReg) (a : VReg) (k : Tok) (s : BitVec 3)
  /-- ATOMS_OR (R164). Atomic OR on a scratchpad word. -/
  | atomsOr (d : VReg) (a : VReg) (k : Tok) (s : BitVec 3)
  /-- ATOMS_XOR (R164). Atomic XOR on a scratchpad word. -/
  | atomsXor (d : VReg) (a : VReg) (k : Tok) (s : BitVec 3)
  /-- ATOMS_XCHG (R164). Atomic exchange on a scratchpad word. -/
  | atomsXchg (d : VReg) (a : VReg) (k : Tok) (s : BitVec 3)
  /-- ATOMS_CAS (R164). Atomic compare-and-swap on a scratchpad word. -/
  | atomsCas (d : VReg) (a : VReg) (k : Tok) (s : BitVec 3)
  /-- ATOMS_FADD (R165). Atomic FP32 add in RNE on a scratchpad word. -/
  | atomsFadd (d : VReg) (a : VReg) (k : Tok) (s : BitVec 3)
  /-- ATOMS_ADD64 (R164). Atomic 64-bit add on a scratchpad doubleword. -/
  | atomsAdd64 (d : VReg) (a : VReg) (k : Tok) (s : BitVec 3)
  /-- ATOMC_ADD (R164). Atomically adds to a Cupola word at the bank. -/
  | atomcAdd (d : VReg) (a : VReg) (k : Tok) (s : BitVec 3)
  /-- ATOMC_MIN (R164). Atomic signed minimum on a Cupola word. -/
  | atomcMin (d : VReg) (a : VReg) (k : Tok) (s : BitVec 3)
  /-- ATOMC_MAX (R164). Atomic signed maximum on a Cupola word. -/
  | atomcMax (d : VReg) (a : VReg) (k : Tok) (s : BitVec 3)
  /-- ATOMC_MINZ (R164). Atomic unsigned minimum on a Cupola word. -/
  | atomcMinz (d : VReg) (a : VReg) (k : Tok) (s : BitVec 3)
  /-- ATOMC_MAXZ (R164). Atomic unsigned maximum on a Cupola word. -/
  | atomcMaxz (d : VReg) (a : VReg) (k : Tok) (s : BitVec 3)
  /-- ATOMC_AND (R164). Atomic AND on a Cupola word. -/
  | atomcAnd (d : VReg) (a : VReg) (k : Tok) (s : BitVec 3)
  /-- ATOMC_OR (R164). Atomic OR on a Cupola word. -/
  | atomcOr (d : VReg) (a : VReg) (k : Tok) (s : BitVec 3)
  /-- ATOMC_XOR (R164). Atomic XOR on a Cupola word. -/
  | atomcXor (d : VReg) (a : VReg) (k : Tok) (s : BitVec 3)
  /-- ATOMC_XCHG (R164). Atomic exchange on a Cupola word. -/
  | atomcXchg (d : VReg) (a : VReg) (k : Tok) (s : BitVec 3)
  /-- ATOMC_CAS (R164). Atomic compare-and-swap on a Cupola word. -/
  | atomcCas (d : VReg) (a : VReg) (k : Tok) (s : BitVec 3)
  /-- ATOMC_FADD (R165). Atomic FP32 add in RNE on a Cupola word. -/
  | atomcFadd (d : VReg) (a : VReg) (k : Tok) (s : BitVec 3)
  /-- ATOMC_DADD (R165). Atomic FP64 add in RNE on a Cupola doubleword. -/
  | atomcDadd (d : VReg) (a : VReg) (k : Tok) (s : BitVec 3)
  /-- ATOMC_ADD64 (R164). Atomic 64-bit add on a Cupola doubleword. -/
  | atomcAdd64 (d : VReg) (a : VReg) (k : Tok) (s : BitVec 3)
  /-- ATOMC_MAXLOC (R166). Keeps the index and value pair with the larger maximum order key. -/
  | atomcMaxloc (d : VReg) (a : VReg) (k : Tok) (s : BitVec 3)
  /-- ATOMC_MINLOC (R166). Keeps the index and value pair with the larger minimum order key. -/
  | atomcMinloc (d : VReg) (a : VReg) (k : Tok) (s : BitVec 3)
  /-- GATH_B32 (R225). Loads a word per lane from a global address held in a pair, optionally split. -/
  | gathB32 (d : VReg) (a : VReg) (k : Tok) (s : BitVec 1)
  /-- GATH_B64 (R225). Loads a doubleword per lane from a global address, optionally split. -/
  | gathB64 (d : VReg) (a : VReg) (k : Tok) (s : BitVec 1)
  /-- SCAT_B32 (R225). Stores a word per lane to a global address. -/
  | scatB32 (d : VReg) (a : VReg) (k : Tok)
  /-- SCAT_B64 (R225). Stores a pair per lane to a global address. -/
  | scatB64 (d : VReg) (a : VReg) (k : Tok)
  /-- XCH_PICK (R175). Gives each participant va of the lane named by its vd. -/
  | xchPick (d : VReg) (a : VReg) (m : MReg)
  /-- XCH_MOVE (R175). Gives each participant va of the lane at a signed distance. -/
  | xchMove (d : VReg) (a : VReg) (m : MReg) (e : BitVec 3)
  /-- XCH_FLIP (R175). Gives each participant va of the lane whose index differs by XOR d. -/
  | xchFlip (d : VReg) (a : VReg) (m : MReg) (e : BitVec 3)
  /-- XCH_EDGE (R175). Gives every participant va of the lowest or highest contributor. -/
  | xchEdge (d : VReg) (a : VReg) (m : MReg) (e : BitVec 3)
  /-- QRY_CNT (R176). Counts contributors whose flag holds. -/
  | qryCnt (d : VReg) (a : VReg) (m : MReg)
  /-- QRY_EVERY (R176). Tests whether every contributor's flag holds. -/
  | qryEvery (d : VReg) (a : VReg) (m : MReg)
  /-- QRY_BITS (R176). Returns the contributors' flags as a bit mask. -/
  | qryBits (d : VReg) (a : VReg) (m : MReg) (e : BitVec 3)
  /-- RED_IADD (R177). Integer sum of contributors by the fixed tree. -/
  | redIadd (d : VReg) (a : VReg) (m : MReg)
  /-- RED_IMIN (R177). Signed minimum of contributors. -/
  | redImin (d : VReg) (a : VReg) (m : MReg)
  /-- RED_IMAX (R177). Signed maximum of contributors. -/
  | redImax (d : VReg) (a : VReg) (m : MReg)
  /-- RED_FADD (R177). FP32 sum of contributors by the fixed tree. -/
  | redFadd (d : VReg) (a : VReg) (m : MReg)
  /-- RED_FMIN (R177). FP32 minimum of contributors. -/
  | redFmin (d : VReg) (a : VReg) (m : MReg)
  /-- RED_FMAX (R177). FP32 maximum of contributors. -/
  | redFmax (d : VReg) (a : VReg) (m : MReg)
  /-- SCAN_IADD (R177). Inclusive or exclusive integer prefix sum. -/
  | scanIadd (d : VReg) (a : VReg) (m : MReg) (e : BitVec 3)
  /-- SCAN_FADD (R177). Inclusive or exclusive FP32 prefix sum. -/
  | scanFadd (d : VReg) (a : VReg) (m : MReg) (e : BitVec 3)
  /-- MAXLOC (R178). Selects the contributor with the largest or smallest order key. -/
  | maxloc (d : VReg) (a : VReg) (m : MReg) (e : BitVec 3)
  /-- SEGRED_IADD (R179). Integer sum per segment. -/
  | segredIadd (d : VReg) (a : VReg) (m : MReg)
  /-- SEGRED_FADD (R179). FP32 sum per segment. -/
  | segredFadd (d : VReg) (a : VReg) (m : MReg)
  /-- SEGSCAN_FADD (R179). FP32 prefix sum per segment. -/
  | segscanFadd (d : VReg) (a : VReg) (m : MReg)
  /-- MATCH (R180). Returns the mask of contributors whose va equals the lane's. -/
  | matchLanes (d : VReg) (a : VReg) (m : MReg) (e : BitVec 3)
  /-- COMPACT (R181). Compacts flagged contributors' vd or returns their rank. -/
  | compact (d : VReg) (a : VReg) (m : MReg) (e : BitVec 3)
  /-- LSORT (R182). Sorts contributors by va, stable, returning values or lane indices. -/
  | lsort (d : VReg) (a : VReg) (m : MReg) (e : BitVec 3)
  /-- BRA (R61). Branches the active lanes where the predicate holds, speculatively when a token is named. -/
  | bra (p : PReg) (n : BitVec 1) (k : Tok) (s : BitVec 14)
  /-- RJM (R68). Writes the bundle's active lanes into a rejoin mask. -/
  | rjm (m : MReg)
  /-- RJADD (R68). ORs the bundle's active lanes into a rejoin mask. -/
  | rjadd (m : MReg)
  /-- JOIN (R69). Parks the lane and extends the requirement of a rejoin mask. -/
  | join (m : MReg)
  /-- EXIT (R72). Retires the active lanes, retiring the group with its last lane. -/
  | exit
  /-- EXITS (R73). Parks the lane for a restart of the group at a successor entry. -/
  | exits (a : SReg) (n : BitVec 8)
  /-- REGROUP (R74). Parks the lane at a team-collective repacking of surviving lanes. -/
  | regroup (p : PReg) (n : BitVec 5)
  /-- YIELD (R75). Withholds the PC from the next issue cycle and settles. -/
  | yield
  /-- DLY (R76). Counts as n instructions with no other effect. -/
  | dly (n : BitVec 5)
  /-- WAITK (R77). Holds the lanes until the token count is at most t. -/
  | waitk (k : Tok) (t : BitVec 4)
  /-- GUARD (R50). Makes the next L-set word active only where the predicate holds or fails. -/
  | guard (p : PReg) (n : BitVec 1)
  /-- BKPT (R78). Raises the breakpoint trap at 0x480. -/
  | bkpt
  /-- TRAP (R78). Raises the trap at 0x500 with a 16-bit code. -/
  | trap (c : BitVec 16)
  /-- NOP (R76). Counts as one instruction with no effect. -/
  | nop
  /-- KACC (R187). Finds or allocates each lane's key in the keyed store and combines its value, applying the full policy. -/
  | kacc (d : VReg) (a : VReg) (b : VReg) (k : Tok)
  /-- KFIND (R192). Reads a selected field of a keyed-store entry. -/
  | kfind (d : VReg) (a : VReg) (s : BitVec 7) (k : Tok)
  /-- RNG_B32 (R133). Draws 32 random bits and advances the lane's draw counter. -/
  | rngB32 (d : VReg) (k : Tok)
  /-- RNG_F32 (R133). Draws a uniform FP32 value in [0,1). -/
  | rngF32 (d : VReg) (k : Tok)
  /-- RDSPEC (R243). Reads SPECM or SPECR into every active lane. -/
  | rdspec (d : VReg) (s : BitVec 7) (k : Tok)
  /-- CYCLE (R134). Reads the low 32 bits of the core cycle count. -/
  | cycle (d : VReg) (k : Tok)
  /-- MXGO (R213). Checks the format word and parameter block and enqueues one matrix operation. -/
  | mxgo (a : VReg) (s : SReg) (k : Tok)
  /-- SADD (R88). Adds two scalars. -/
  | sadd (d : SReg) (a : SReg) (b : SReg)
  /-- SSUB (R88). Subtracts two scalars. -/
  | ssub (d : SReg) (a : SReg) (b : SReg)
  /-- SMUL (R88). Multiplies two scalars, low 64 bits. -/
  | smul (d : SReg) (a : SReg) (b : SReg)
  /-- SMULH (R88). Signed high 64 bits of a scalar product. -/
  | smulh (d : SReg) (a : SReg) (b : SReg)
  /-- SAND (R88). Scalar AND. -/
  | sand (d : SReg) (a : SReg) (b : SReg)
  /-- SOR (R88). Scalar OR. -/
  | sor (d : SReg) (a : SReg) (b : SReg)
  /-- SXOR (R88). Scalar XOR. -/
  | sxor (d : SReg) (a : SReg) (b : SReg)
  /-- SANDN (R88). Scalar AND NOT. -/
  | sandn (d : SReg) (a : SReg) (b : SReg)
  /-- SSHL (R88). Scalar shift left. -/
  | sshl (d : SReg) (a : SReg) (b : SReg)
  /-- SSHR (R88). Scalar logical shift right. -/
  | sshr (d : SReg) (a : SReg) (b : SReg)
  /-- SSAR (R88). Scalar arithmetic shift right. -/
  | ssar (d : SReg) (a : SReg) (b : SReg)
  /-- SMIN (R88). Scalar signed minimum. -/
  | smin (d : SReg) (a : SReg) (b : SReg)
  /-- SMAX (R88). Scalar signed maximum. -/
  | smax (d : SReg) (a : SReg) (b : SReg)
  /-- SMINZ (R88). Scalar unsigned minimum. -/
  | sminz (d : SReg) (a : SReg) (b : SReg)
  /-- SMAXZ (R88). Scalar unsigned maximum. -/
  | smaxz (d : SReg) (a : SReg) (b : SReg)
  /-- SMOV (R88). Copies a scalar. -/
  | smov (d : SReg) (a : SReg)
  /-- SADDI (R89). Adds a sign-extended immediate to a scalar. -/
  | saddi (d : SReg) (a : SReg) (i : BitVec 13)
  /-- SANDI (R89). ANDs a scalar with an immediate. -/
  | sandi (d : SReg) (a : SReg) (i : BitVec 13)
  /-- SORI (R89). ORs a scalar with an immediate. -/
  | sori (d : SReg) (a : SReg) (i : BitVec 13)
  /-- SSHLI (R89). Shifts a scalar left by an immediate. -/
  | sshli (d : SReg) (a : SReg) (n : BitVec 6)
  /-- SSHRI (R89). Shifts a scalar right logically by an immediate. -/
  | sshri (d : SReg) (a : SReg) (n : BitVec 6)
  /-- SSARI (R89). Shifts a scalar right arithmetically by an immediate. -/
  | ssari (d : SReg) (a : SReg) (n : BitVec 6)
  /-- SMOVI (R89). Writes a 19-bit sign-extended immediate to a scalar. -/
  | smovi (d : SReg) (i : BitVec 19)
  /-- SCMP (R90). Compares two scalars and writes 1 or 0. -/
  | scmp (c : BitVec 4) (d : SReg) (a : SReg) (b : SReg)
  /-- SBR (R64). Branches the whole group on a condition of a scalar. -/
  | sbr (c : BitVec 4) (a : SReg) (s : BitVec 15)
  /-- JMP (R64). Moves the whole group to the target. -/
  | jmp (i : BitVec 25)
  /-- CALL (R65). Writes the return address to s63, raises CDEPTH and jumps. -/
  | call (i : BitVec 25)
  /-- RET (R65). Returns through a scalar, or at depth zero exits the group or retires the lantern, checking token leaks. -/
  | ret (a : SReg)
  /-- PFX (R49). Supplies 25 high bits to the immediate of the following word. -/
  | pfx (p : BitVec 25)
  /-- VBCAST (R91). Broadcasts the low or high half of a scalar into a vector register of every live lane. -/
  | vbcast (v : VReg) (s : SReg) (i : BitVec 8)
  /-- VREAD (R91). Reads one lane's vector register into a scalar. -/
  | vread (v : VReg) (s : SReg) (i : BitVec 8)
  /-- MREAD (R91). Reads a rejoin mask into a scalar. -/
  | mread (s : SReg) (i : BitVec 8)
  /-- MWRITE (R91). Writes a rejoin mask from a scalar, limited to live lanes. -/
  | mwrite (s : SReg) (i : BitVec 8)
  /-- PREAD (R91). Reads a predicate of every live lane into a scalar. -/
  | pread (s : SReg) (i : BitVec 8)
  /-- KREAD (R91). Reads a token's outstanding count into a scalar. -/
  | kread (s : SReg) (i : BitVec 8)
  /-- SLD_B32 (R168). Scalar load of a scratchpad word. -/
  | sldB32 (a : SReg) (b : SReg) (k : Tok) (i : BitVec 5)
  /-- SLD_B64 (R168). Scalar load of a scratchpad doubleword. -/
  | sldB64 (a : SReg) (b : SReg) (k : Tok) (i : BitVec 5)
  /-- SST_B32 (R168). Scalar store of a scratchpad word. -/
  | sstB32 (a : SReg) (b : SReg) (k : Tok) (i : BitVec 5)
  /-- SST_B64 (R168). Scalar store of a scratchpad doubleword. -/
  | sstB64 (a : SReg) (b : SReg) (k : Tok) (i : BitVec 5)
  /-- SLDC_B64 (R168). Scalar load of a Cupola doubleword. -/
  | sldcB64 (a : SReg) (b : SReg) (k : Tok) (i : BitVec 5)
  /-- SSTC_B64 (R168). Scalar store of a Cupola doubleword. -/
  | sstcB64 (a : SReg) (b : SReg) (k : Tok) (i : BitVec 5)
  /-- TLD (R204). Enqueues a tile load from the scratchpad row by row. -/
  | tld (a : SReg) (b : SReg) (k : Tok) (n : BitVec 5)
  /-- TST (R204). Enqueues a tile store to the scratchpad. -/
  | tst (a : SReg) (b : SReg) (k : Tok) (n : BitVec 5)
  /-- TZERO (R205). Enqueues zeroing of a tile. -/
  | tzero (k : Tok) (n : BitVec 5)
  /-- ACCLD (R206). Enqueues an accumulator block load from the scratchpad. -/
  | accld (a : SReg) (b : SReg) (k : Tok) (n : BitVec 5)
  /-- ACCST (R206). Enqueues an accumulator block store to the scratchpad. -/
  | accst (a : SReg) (b : SReg) (k : Tok) (n : BitVec 5)
  /-- ACCZ (R205). Enqueues zeroing of an accumulator or pair. -/
  | accz (k : Tok) (n : BitVec 5)
  /-- MOVSH (R205). Enqueues a write of a shape register. -/
  | movsh (a : SReg) (k : Tok) (n : BitVec 5)
  /-- TCVT (R208). Enqueues conversion of a tile or accumulator into a dense tile. -/
  | tcvt (a : SReg) (k : Tok) (n : BitVec 5)
  /-- TSPK (R210). Enqueues packing of a dense tile into bitmap-sparse form. -/
  | tspk (a : SReg) (k : Tok) (n : BitVec 5)
  /-- TQLD (R204). Enqueues a load of a tile's companion area. -/
  | tqld (a : SReg) (k : Tok) (n : BitVec 5)
  /-- CPY_IN (R220). Supplies the group's slice of a team copy from global memory to the scratchpad. -/
  | cpyIn (a : SReg) (b : SReg) (k : Tok)
  /-- CPY_OUT (R220). Supplies a slice copying the scratchpad to global memory. -/
  | cpyOut (a : SReg) (b : SReg) (k : Tok)
  /-- CPY_CC (R220). Supplies a slice copying between two virtual addresses. -/
  | cpyCc (a : SReg) (b : SReg) (k : Tok)
  /-- CUPOP (R224). Starts an element-wise operation at the Cupola banks. -/
  | cupop (a : SReg) (b : SReg) (k : Tok) (o : BitVec 5)
  /-- KCFG (R185). Configures the keyed-store partition and stream, discarding its entries. -/
  | kcfg (a : SReg) (b : SReg) (k : Tok)
  /-- KCFG_STREAM (R185). Replaces the partition's eviction stream only. -/
  | kcfgStream (b : SReg) (k : Tok)
  /-- KDRAIN (R193). Writes every partition entry as a record and empties the partition. -/
  | kdrain (a : SReg) (b : SReg) (k : Tok) (i : BitVec 5)
  /-- KCLR (R194). Discards every entry of the partition. -/
  | kclr (k : Tok)
  /-- KSTAT (R194). Reads occupancy, sequence or configuration of the partition. -/
  | kstat (a : SReg) (k : Tok) (i : BitVec 5)
  /-- POST (R233). Posts a task record into a free slot of the context. -/
  | post (a : SReg) (b : SReg) (k : Tok) (i : BitVec 5)
  /-- ARRIVE (R234). Subtracts a count from a task's dependence counter. -/
  | arrive (a : SReg) (b : SReg) (k : Tok)
  /-- APPEND (R235). Appends a tile record to a ragged task and raises its count. -/
  | append (a : SReg) (b : SReg) (k : Tok) (i : BitVec 5)
  /-- SEAL (R235). Closes a ragged task to further records. -/
  | seal (a : SReg) (k : Tok)
  /-- WAITBM (R236). Parks the group until a completion-bitmap bit is set. -/
  | waitbm (a : SReg) (b : SReg)
  /-- TBAR (R237). Arrives at a team barrier with team-scope release. -/
  | tbar
  /-- PBAR (R237). Arrives at a team barrier with pair-scope release. -/
  | pbar
  /-- DQPUSH (R238). Lantern appends an entry to the decision queue. -/
  | dqpush (a : SReg) (k : Tok)
  /-- DQPOP (R238). Group removes the head of the decision queue. -/
  | dqpop (a : SReg) (k : Tok)
  /-- GETC (R239). Reads a control register into a scalar. -/
  | getc (d : SReg) (b : BitVec 6)
  /-- SETC (R239). Writes a control register from a scalar as an F4 write. -/
  | setc (d : BitVec 6) (a : SReg)
  /-- ERET (R313). Returns the handler's split to EPC, restoring s60 to s63. -/
  | eret
  /-- FENCE (R169). Releases and then acquires at the named scope. -/
  | fence (d : BitVec 6)
  /-- SYNCE (R242). Waits for every long-latency operation of the group, then acquires. -/
  | synce
  /-- ISSUE_CYCLE (R295). Each bay chooses a ready group and issues up to two bundles by PC selection. -/
  | issueCycle (core : Nat)
  /-- PC_AGED (R59). A ready PC unselected for 64 issue cycles becomes aged. -/
  | pcAged (core slot : Nat) (pc : Addr)
  /-- LONG_LATENCY_COMPLETE (R31). A long-latency result lands and the last landing decrements the token. -/
  | longLatencyComplete (core slot op lane : Nat)
  /-- SPECULATION_RESOLVE (R34). When the token count reaches 0 the speculative branch resolves, undoing wrongly included lanes. -/
  | speculationResolve (core slot : Nat)
  /-- JOIN_RELEASE (R69). Lanes parked at a JOIN are released once every live lane of the requirement has arrived. -/
  | joinRelease (core slot : Nat) (m : MReg)
  /-- EXITS_RESTART (R73). After the group's operations complete, every lane restarts at the successor. -/
  | exitsRestart (core slot : Nat)
  /-- REGROUP_PACK (R74). After operations complete, surviving lanes are packed into the team's groups. -/
  | regroupPack (team : Nat)
  /-- BARRIER_COMPLETE (R237). A team barrier completes once every live group has arrived. -/
  | barrierComplete (team : Nat)
  /-- DQPOP_DELIVER (R36). A parked or held DQPOP receives its queue entry. -/
  | dqpopDeliver (team : Nat)
  /-- WAITBM_PROCEED (R236). A group parked on a bitmap bit proceeds with an acquire once the bit is set. -/
  | waitbmProceed (core slot : Nat)
  /-- SYNCE_PROCEED (R242). A waiting SYNCE proceeds once the group's operations have completed. -/
  | synceProceed (core slot : Nat)
  /-- RANGE_LOCK_GRANT (R253). An operation waiting for range-lock entries takes them all in one step and issues. -/
  | rangeLockGrant (core slot : Nat)
  /-- TRAP_ENTRY (R310). A trap split waits for its operations, writes its side-buffer record and enters its handler. -/
  | trapEntry (core slot : Nat)
  /-- SQ_ENTRY_LEAVE (R139). The oldest store-queue entry moves into the scratchpad view or the outbound channel. -/
  | sqEntryLeave (core slot : Nat)
  /-- OUTBOUND_TO_MEMORY (R142). An outbound-channel entry reaches memory and updates the local stale copy. -/
  | outboundToMemory (core n : Nat)
  /-- STALE_COPY_INSTALL (R141). The machine installs a copy of a line in a core's stale copies. -/
  | staleCopyInstall (core ctx : Nat) (va : Addr)
  /-- STALE_COPY_DISCARD (R141). The machine discards a stale copy. -/
  | staleCopyDiscard (core line : Nat)
  /-- AGENT_STEP (R149). An engine agent reads or writes its part of one 64-byte line. -/
  | agentStep (agent n : Nat)
  /-- CPY_INSTANCE_START (R220). When the last group supplies its slice the instance registers its ranges and clears presence. -/
  | cpyInstanceStart (team : Nat)
  /-- CPY_INSTANCE_COMPLETE (R222). When every slice is written the tokens fall, ranges release and ARRIVEs are made. -/
  | cpyInstanceComplete (agent : Nat)
  /-- AGENT_COMPLETE (R148). An engine agent completes, releasing its writes and range locks. -/
  | agentComplete (agent : Nat)
  /-- TILE_COMMAND_COMPLETE (R216). A tile-queue command completes in queue order, decrementing its token and performing an enabled ARRIVE. -/
  | tileCommandComplete (team half : Nat)
  /-- GROUP_SLOT_FREE (R72). A retired group's slot is freed once its operations have completed. -/
  | groupSlotFree (core slot : Nat)
  /-- DISTRIBUTOR_DECISION (R288). The distributor takes the first fitting task in dispatch order and places its next team. -/
  | distributorDecision (dt : Nat)
  /-- GANG_RESERVATION_RELEASE (R291). A gang's reservations are released in the step after a higher-priority task becomes ready. -/
  | gangReservationRelease
  /-- TASK_BLOCKING (R288). A first task skipped for 2^SKIP scheduler cycles becomes blocking. -/
  | taskBlocking (slot : Nat)
  /-- TEAM_WRITE_BACK_START (R289). When the team's last group has retired, out-region write-back agents start. -/
  | teamWriteBackStart (team : Nat)
  /-- TEAM_RETIREMENT (R289). When write-back completes the team releases, sets its bitmap bit and frees its resources. -/
  | teamRetirement (team : Nat)
  /-- PREEMPT_DEADLINE_EXPIRY (R300). An incomplete pre-emption after 2^DLX cycles escalates to a forced reset. -/
  | preemptDeadlineExpiry (n : Nat)
  /-- CONTEXT_SAVE_COMPLETE (R318). Once the context has drained, its image is written and its tasks parked. -/
  | contextSaveComplete (ctx : Nat)
  /-- HOST_POST (R346). A host posting message allocates a slot and writes a task record. -/
  | hostPost (m : HostMsg)
  /-- HOST_ARRIVE (R346). A host message subtracts a count from a task's counter. -/
  | hostArrive (m : HostMsg)
  /-- HOST_WRITE (R347). A host write is checked and entered in the host queue. -/
  | hostWrite (m : HostMsg)
  /-- HOST_WRITE_APPLY (R347). The oldest host write moves from the host queue into memory. -/
  | hostWriteApply
  /-- HOST_READ (R347). A host read is checked and answered from memory once older writes have landed. -/
  | hostRead (m : HostMsg)
  /-- HOST_INV (R331). An invalidation message removes translations of a context. -/
  | hostInv (m : HostMsg)
  /-- INVALIDATION_COMPLETE (R331). Once engines and outbound entries using removed translations are done, INVDONE is sent. -/
  | invalidationComplete
  /-- HOST_PREEMPT (R298). A pre-emption request moves named tasks to PREEMPTING and starts the deadline. -/
  | hostPreempt (m : HostMsg)
  /-- HOST_RESUME (R301). Parked tasks return to their resume states and the journal is replayed. -/
  | hostResume (m : HostMsg)
  /-- HOST_SAVE (R318). A save request stops the context and begins draining it. -/
  | hostSave (m : HostMsg)
  /-- HOST_RESTORE (R320). A context image is checked, placed and restored exactly. -/
  | hostRestore (m : HostMsg)
  /-- HOST_RESET (R321). A host reset request forcibly resets a context. -/
  | hostReset (m : HostMsg)
  /-- REMOTE_ACCESS_REQUEST (R353). A remote device's access through an aperture arrives and is translated in RCTX. -/
  | remoteAccessRequest (r : RemoteReq)
  /-- TARGET_CHECK_ANSWER (R354). A target's answer on an aperture page releases a waiting slice or lane. -/
  | targetCheckAnswer (ctx : Nat) (page : Addr) (ans : TargetAnswer)
  /-- FABRIC_UNREACHABLE (R354). A target silent for 2^20 fabric cycles is found unreachable. -/
  | fabricUnreachable (fid dt : Nat)
  /-- COLLECTIVE_DATA_ARRIVAL (R356). A peer's collective data arrives and is held for the rank-ordered fold. -/
  | collectiveDataArrival (d : PeerData)
  /-- COLLECTIVE_COMPLETE (R357). A collective writes its destination and completion word and its task completes. -/
  | collectiveComplete (slot : Nat)
  /-- COLLECTIVE_ABORT_RECEIVE (R322). An abort completes a collective instance at once with aborted status. -/
  | collectiveAbortReceive (cid : DWord)
  /-- SWAP_READ (R269). The swap unit reads both held pages into its buffer, and finds what it finds in their lines. -/
  | swapRead (r : GroupRead)
  /-- SWAP_WRITE (R269). The swap unit writes each page into its new frame. -/
  | swapWrite (group : Nat)
  /-- SWAP_COMMIT (R269). The new MAP or spare map is written through to the table. -/
  | swapCommit (group : Nat)
  /-- SWAP_RELEASE (R269). The hold clears and waiting writes are performed in order. -/
  | swapRelease (group : Nat)
  /-- PATROL_SCRUB_STEP (R275). A timed patrol or hot-list scrub reads and corrects a row. -/
  | patrolScrubStep (domain : Nat) (finds : List RowFinding)
  /-- SCRUB_PASS_END (R276). At the end of a pass every score is halved and zero entries freed. -/
  | scrubPassEnd (domain : Nat)
  /-- PRECHARGE (R279). At precharge the activation counter is read and neighbour refresh performed when due. -/
  | precharge (stack row activations : Nat) (read : CounterRead)
  /-- FAULT_DETECTED (R367). A detected fault is masked or reported and logged. -/
  | faultDetected (f : FaultReport)
  /-- POWER_ON (R362). Power-on begins a cold start at stage 0. -/
  | powerOn
  /-- RSTC_WARM (R369). A write of WARM to RSTC starts a warm reset. -/
  | rstcWarm
  /-- RSTC_COLD (R368). A write of COLD to RSTC starts a cold reset losing all state. -/
  | rstcCold
  /-- ATTC_QUOTE (R366). An ATTC write of 1 starts a signed quote over the nonce and log. -/
  | attcQuote
  /-- QUOTE_READY (R366). The quote is written and ATTC reads 0. -/
  | quoteReady
  /-- ATTC_VERIFY (R363). An ATTC write of 2 makes the ROM verify the firmware image and lock the fences. -/
  | attcVerify
  /-- ATTC_REVOKE_KEY (R364). An ATTC write of 3 sets KREV bits in stage 0. -/
  | attcRevokeKey (bits : BitVec 4)
  /-- ATTC_RAISE_SVNMIN (R364). An ATTC write of 4 raises SVNMIN to the value in ATTN. -/
  | attcRaiseSvnmin
  /-- STAGE_ADVANCE (R362). Training done, the device advances to the next start stage. -/
  | stageAdvance (failCode : BitVec 8)
  /-- WDOG_WRITE (R365). Firmware refreshes the watchdog. -/
  | wdogWrite (v : DWord)
  /-- WATCHDOG_EXPIRY (R365). Cycles of the management controller pass: an unrefreshed watchdog resets it alone. -/
  | watchdogExpiry (r : FirmwareRun)
  /-- PTROOT_WRITE (R325). A write of PTROOT acts as a whole-context invalidation. -/
  | ptrootWrite (ctx : Nat) (v : DWord)
  /-- DBGC_WRITE (R315). A management write of DBGC takes effect at each split's next unit boundary. -/
  | dbgcWrite (core slot : Nat) (v : Word)
  /-- TSWS_READ (R268). A read of TSWS returns and clears the swap count. -/
  | tswsRead (seq : BitVec 16)
  /-- MGMT_REGISTER_WRITE (R359). A window write to a register with no behaviour of its own. -/
  | mgmtRegisterWrite (off : BitVec 41) (v : DWord)
  /-- POWER_CLAMP (R370). The power clamp lowers clocks to hold the 1 ms average at the TDP. -/
  | powerClamp
  /-- THERMAL_CLAMP (R370). A junction sensor at 105 C lowers clocks. -/
  | thermalClamp
  /-- THERMAL_SHUTDOWN (R370). A junction sensor at 115 C removes power. -/
  | thermalShutdown
  /-- MALFORMED_MESSAGE (R344). A Clerestory message with a reserved TYPE is discarded and EVENT code 9 is sent, with no completion. -/
  | malformedMessage (m : HostMsg)
  /-- POWER_LOSS (R364). Supply is lost, and a fuse write in progress leaves the fuse at either its old or its new value. -/
  | powerLoss (landed : Bool)
  deriving DecidableEq, Repr

end Sys2Proof
end

