-- ==== Sys2Proof/Code.lean ====
section
/-! DEFINITION. The two instruction sets (R38) as types of their own: the L-set and the U-set words of Instr. Everything
that a word decides (its encoding, the registers it names, its legality) is said of these. -/

namespace Sys2Proof

/-- The L-set words (R52), named as in Instr. -/
inductive LInstr where
  | iadd (u : Bool) (d : VReg) (a : VReg) (b : VReg)
  | isub (u : Bool) (d : VReg) (a : VReg) (b : VReg)
  | imul (u : Bool) (d : VReg) (a : VReg) (b : VReg)
  | imulh (u : Bool) (d : VReg) (a : VReg) (b : VReg)
  | imulhz (u : Bool) (d : VReg) (a : VReg) (b : VReg)
  | imin (u : Bool) (d : VReg) (a : VReg) (b : VReg)
  | imax (u : Bool) (d : VReg) (a : VReg) (b : VReg)
  | iminz (u : Bool) (d : VReg) (a : VReg) (b : VReg)
  | imaxz (u : Bool) (d : VReg) (a : VReg) (b : VReg)
  | iabs (u : Bool) (d : VReg) (a : VReg)
  | and (u : Bool) (d : VReg) (a : VReg) (b : VReg)
  | or (u : Bool) (d : VReg) (a : VReg) (b : VReg)
  | xor (u : Bool) (d : VReg) (a : VReg) (b : VReg)
  | andn (u : Bool) (d : VReg) (a : VReg) (b : VReg)
  | shl (u : Bool) (d : VReg) (a : VReg) (b : VReg)
  | shr (u : Bool) (d : VReg) (a : VReg) (b : VReg)
  | sar (u : Bool) (d : VReg) (a : VReg) (b : VReg)
  | rotl (u : Bool) (d : VReg) (a : VReg) (b : VReg)
  | popc (u : Bool) (d : VReg) (a : VReg)
  | clz (u : Bool) (d : VReg) (a : VReg)
  | ctz (u : Bool) (d : VReg) (a : VReg)
  | brev (u : Bool) (d : VReg) (a : VReg)
  | bswap (u : Bool) (d : VReg) (a : VReg)
  | imad (u : Bool) (d : VReg) (a : VReg) (b : VReg)
  | bfx (u : Bool) (d : VReg) (a : VReg) (b : VReg)
  | bfi (u : Bool) (d : VReg) (a : VReg) (b : VReg)
  | iadd64 (u : Bool) (d : VReg) (a : VReg) (b : VReg)
  | isub64 (u : Bool) (d : VReg) (a : VReg) (b : VReg)
  | imulw (u : Bool) (d : VReg) (a : VReg) (b : VReg)
  | mov (u : Bool) (d : VReg) (a : VReg)
  | iaddi (u : Bool) (d : VReg) (a : VReg) (i : BitVec 11)
  | andi (u : Bool) (d : VReg) (a : VReg) (i : BitVec 11)
  | ori (u : Bool) (d : VReg) (a : VReg) (i : BitVec 11)
  | xori (u : Bool) (d : VReg) (a : VReg) (i : BitVec 11)
  | shli (u : Bool) (d : VReg) (a : VReg) (n : BitVec 5)
  | shri (u : Bool) (d : VReg) (a : VReg) (n : BitVec 5)
  | sari (u : Bool) (d : VReg) (a : VReg) (n : BitVec 5)
  | rotli (u : Bool) (d : VReg) (a : VReg) (n : BitVec 5)
  | movi (u : Bool) (d : VReg) (i : BitVec 18)
  | icmp (u : Bool) (c : BitVec 4) (p : PReg) (a : VReg) (b : VReg) (n : BitVec 1)
  | fcmp (u : Bool) (c : BitVec 3) (p : PReg) (a : VReg) (b : VReg) (n : BitVec 1)
  | dcmp (u : Bool) (c : BitVec 3) (p : PReg) (a : VReg) (b : VReg) (n : BitVec 1)
  | sel (u : Bool) (d : VReg) (a : VReg) (p : PReg)
  | pset (u : Bool) (a : VReg) (p : PReg)
  | ptest (u : Bool) (d : VReg) (p : PReg)
  | pand (u : Bool) (p : PReg) (q : PReg) (r : PReg)
  | por (u : Bool) (p : PReg) (q : PReg) (r : PReg)
  | pxor (u : Bool) (p : PReg) (q : PReg) (r : PReg)
  | pandn (u : Bool) (p : PReg) (q : PReg) (r : PReg)
  | pnot (u : Bool) (p : PReg) (q : PReg)
  | pmov (u : Bool) (p : PReg) (q : PReg)
  | fadd (u : Bool) (d : VReg) (a : VReg) (b : VReg)
  | fsub (u : Bool) (d : VReg) (a : VReg) (b : VReg)
  | fmul (u : Bool) (d : VReg) (a : VReg) (b : VReg)
  | ffma (u : Bool) (d : VReg) (a : VReg) (b : VReg)
  | ffms (u : Bool) (d : VReg) (a : VReg) (b : VReg)
  | fmin (u : Bool) (d : VReg) (a : VReg) (b : VReg)
  | fmax (u : Bool) (d : VReg) (a : VReg) (b : VReg)
  | fabs (u : Bool) (d : VReg) (a : VReg)
  | fneg (u : Bool) (d : VReg) (a : VReg)
  | fcps (u : Bool) (d : VReg) (a : VReg) (b : VReg)
  | frnd (u : Bool) (d : VReg) (a : VReg) (r : BitVec 3)
  | fclass (u : Bool) (d : VReg) (a : VReg)
  | dadd (u : Bool) (d : VReg) (a : VReg) (b : VReg)
  | dsub (u : Bool) (d : VReg) (a : VReg) (b : VReg)
  | dmul (u : Bool) (d : VReg) (a : VReg) (b : VReg)
  | dfma (u : Bool) (d : VReg) (a : VReg) (b : VReg)
  | dfms (u : Bool) (d : VReg) (a : VReg) (b : VReg)
  | dmin (u : Bool) (d : VReg) (a : VReg) (b : VReg)
  | dmax (u : Bool) (d : VReg) (a : VReg) (b : VReg)
  | dabs (u : Bool) (d : VReg) (a : VReg)
  | dneg (u : Bool) (d : VReg) (a : VReg)
  | drnd (u : Bool) (d : VReg) (a : VReg) (r : BitVec 3)
  | dclass (u : Bool) (d : VReg) (a : VReg)
  | hadd2 (u : Bool) (d : VReg) (a : VReg) (b : VReg)
  | hmul2 (u : Bool) (d : VReg) (a : VReg) (b : VReg)
  | hfma2 (u : Bool) (d : VReg) (a : VReg) (b : VReg)
  | hmin2 (u : Bool) (d : VReg) (a : VReg) (b : VReg)
  | hmax2 (u : Bool) (d : VReg) (a : VReg) (b : VReg)
  | badd2 (u : Bool) (d : VReg) (a : VReg) (b : VReg)
  | bmul2 (u : Bool) (d : VReg) (a : VReg) (b : VReg)
  | bfma2 (u : Bool) (d : VReg) (a : VReg) (b : VReg)
  | bmin2 (u : Bool) (d : VReg) (a : VReg) (b : VReg)
  | bmax2 (u : Bool) (d : VReg) (a : VReg) (b : VReg)
  | frcp (u : Bool) (d : VReg) (a : VReg) (k : Tok)
  | frsq (u : Bool) (d : VReg) (a : VReg) (k : Tok)
  | fsqrt (u : Bool) (d : VReg) (a : VReg) (k : Tok)
  | fexp2 (u : Bool) (d : VReg) (a : VReg) (k : Tok)
  | flog2 (u : Bool) (d : VReg) (a : VReg) (k : Tok)
  | fsinp (u : Bool) (d : VReg) (a : VReg) (k : Tok)
  | fcosp (u : Bool) (d : VReg) (a : VReg) (k : Tok)
  | drcp (u : Bool) (d : VReg) (a : VReg) (k : Tok)
  | drsq (u : Bool) (d : VReg) (a : VReg) (k : Tok)
  | dsqrt (u : Bool) (d : VReg) (a : VReg) (k : Tok)
  | cvt (u : Bool) (f : BitVec 4) (d : VReg) (a : VReg) (r : BitVec 3) (p : BitVec 4)
  | ldlB32 (d : VReg) (a : VReg) (k : Tok) (s : BitVec 3)
  | ldlB64 (d : VReg) (a : VReg) (k : Tok) (s : BitVec 3)
  | stlB32 (d : VReg) (a : VReg) (k : Tok) (s : BitVec 3)
  | stlB64 (d : VReg) (a : VReg) (k : Tok) (s : BitVec 3)
  | ldsS8 (u : Bool) (d : VReg) (a : VReg) (k : Tok) (s : BitVec 3)
  | ldsZ8 (u : Bool) (d : VReg) (a : VReg) (k : Tok) (s : BitVec 3)
  | ldsS16 (u : Bool) (d : VReg) (a : VReg) (k : Tok) (s : BitVec 3)
  | ldsZ16 (u : Bool) (d : VReg) (a : VReg) (k : Tok) (s : BitVec 3)
  | ldsB32 (u : Bool) (d : VReg) (a : VReg) (k : Tok) (s : BitVec 3)
  | ldsB64 (u : Bool) (d : VReg) (a : VReg) (k : Tok) (s : BitVec 3)
  | ldsB128 (u : Bool) (d : VReg) (a : VReg) (k : Tok) (s : BitVec 3)
  | stsB8 (d : VReg) (a : VReg) (k : Tok) (s : BitVec 3)
  | stsB16 (d : VReg) (a : VReg) (k : Tok) (s : BitVec 3)
  | stsB32 (d : VReg) (a : VReg) (k : Tok) (s : BitVec 3)
  | stsB64 (d : VReg) (a : VReg) (k : Tok) (s : BitVec 3)
  | stsB128 (d : VReg) (a : VReg) (k : Tok) (s : BitVec 3)
  | ldcB32 (u : Bool) (d : VReg) (a : VReg) (k : Tok) (s : BitVec 3)
  | ldcB64 (u : Bool) (d : VReg) (a : VReg) (k : Tok) (s : BitVec 3)
  | ldcB128 (u : Bool) (d : VReg) (a : VReg) (k : Tok) (s : BitVec 3)
  | stcB32 (d : VReg) (a : VReg) (k : Tok) (s : BitVec 3)
  | stcB64 (d : VReg) (a : VReg) (k : Tok) (s : BitVec 3)
  | stcB128 (d : VReg) (a : VReg) (k : Tok) (s : BitVec 3)
  | ldcAcqB32 (d : VReg) (a : VReg) (k : Tok) (s : BitVec 3)
  | ldcAcqB64 (d : VReg) (a : VReg) (k : Tok) (s : BitVec 3)
  | stcRelB32 (d : VReg) (a : VReg) (k : Tok) (s : BitVec 3)
  | stcRelB64 (d : VReg) (a : VReg) (k : Tok) (s : BitVec 3)
  | prs (d : VReg) (a : VReg) (k : Tok) (s : BitVec 3)
  | atomsAdd (d : VReg) (a : VReg) (k : Tok) (s : BitVec 3)
  | atomsMin (d : VReg) (a : VReg) (k : Tok) (s : BitVec 3)
  | atomsMax (d : VReg) (a : VReg) (k : Tok) (s : BitVec 3)
  | atomsMinz (d : VReg) (a : VReg) (k : Tok) (s : BitVec 3)
  | atomsMaxz (d : VReg) (a : VReg) (k : Tok) (s : BitVec 3)
  | atomsAnd (d : VReg) (a : VReg) (k : Tok) (s : BitVec 3)
  | atomsOr (d : VReg) (a : VReg) (k : Tok) (s : BitVec 3)
  | atomsXor (d : VReg) (a : VReg) (k : Tok) (s : BitVec 3)
  | atomsXchg (d : VReg) (a : VReg) (k : Tok) (s : BitVec 3)
  | atomsCas (d : VReg) (a : VReg) (k : Tok) (s : BitVec 3)
  | atomsFadd (d : VReg) (a : VReg) (k : Tok) (s : BitVec 3)
  | atomsAdd64 (d : VReg) (a : VReg) (k : Tok) (s : BitVec 3)
  | atomcAdd (d : VReg) (a : VReg) (k : Tok) (s : BitVec 3)
  | atomcMin (d : VReg) (a : VReg) (k : Tok) (s : BitVec 3)
  | atomcMax (d : VReg) (a : VReg) (k : Tok) (s : BitVec 3)
  | atomcMinz (d : VReg) (a : VReg) (k : Tok) (s : BitVec 3)
  | atomcMaxz (d : VReg) (a : VReg) (k : Tok) (s : BitVec 3)
  | atomcAnd (d : VReg) (a : VReg) (k : Tok) (s : BitVec 3)
  | atomcOr (d : VReg) (a : VReg) (k : Tok) (s : BitVec 3)
  | atomcXor (d : VReg) (a : VReg) (k : Tok) (s : BitVec 3)
  | atomcXchg (d : VReg) (a : VReg) (k : Tok) (s : BitVec 3)
  | atomcCas (d : VReg) (a : VReg) (k : Tok) (s : BitVec 3)
  | atomcFadd (d : VReg) (a : VReg) (k : Tok) (s : BitVec 3)
  | atomcDadd (d : VReg) (a : VReg) (k : Tok) (s : BitVec 3)
  | atomcAdd64 (d : VReg) (a : VReg) (k : Tok) (s : BitVec 3)
  | atomcMaxloc (d : VReg) (a : VReg) (k : Tok) (s : BitVec 3)
  | atomcMinloc (d : VReg) (a : VReg) (k : Tok) (s : BitVec 3)
  | gathB32 (d : VReg) (a : VReg) (k : Tok) (s : BitVec 1)
  | gathB64 (d : VReg) (a : VReg) (k : Tok) (s : BitVec 1)
  | scatB32 (d : VReg) (a : VReg) (k : Tok)
  | scatB64 (d : VReg) (a : VReg) (k : Tok)
  | xchPick (d : VReg) (a : VReg) (m : MReg)
  | xchMove (d : VReg) (a : VReg) (m : MReg) (e : BitVec 3)
  | xchFlip (d : VReg) (a : VReg) (m : MReg) (e : BitVec 3)
  | xchEdge (d : VReg) (a : VReg) (m : MReg) (e : BitVec 3)
  | qryCnt (d : VReg) (a : VReg) (m : MReg)
  | qryEvery (d : VReg) (a : VReg) (m : MReg)
  | qryBits (d : VReg) (a : VReg) (m : MReg) (e : BitVec 3)
  | redIadd (d : VReg) (a : VReg) (m : MReg)
  | redImin (d : VReg) (a : VReg) (m : MReg)
  | redImax (d : VReg) (a : VReg) (m : MReg)
  | redFadd (d : VReg) (a : VReg) (m : MReg)
  | redFmin (d : VReg) (a : VReg) (m : MReg)
  | redFmax (d : VReg) (a : VReg) (m : MReg)
  | scanIadd (d : VReg) (a : VReg) (m : MReg) (e : BitVec 3)
  | scanFadd (d : VReg) (a : VReg) (m : MReg) (e : BitVec 3)
  | maxloc (d : VReg) (a : VReg) (m : MReg) (e : BitVec 3)
  | segredIadd (d : VReg) (a : VReg) (m : MReg)
  | segredFadd (d : VReg) (a : VReg) (m : MReg)
  | segscanFadd (d : VReg) (a : VReg) (m : MReg)
  | matchLanes (d : VReg) (a : VReg) (m : MReg) (e : BitVec 3)
  | compact (d : VReg) (a : VReg) (m : MReg) (e : BitVec 3)
  | lsort (d : VReg) (a : VReg) (m : MReg) (e : BitVec 3)
  | bra (p : PReg) (n : BitVec 1) (k : Tok) (s : BitVec 14)
  | rjm (m : MReg)
  | rjadd (m : MReg)
  | join (m : MReg)
  | exit
  | exits (a : SReg) (n : BitVec 8)
  | regroup (p : PReg) (n : BitVec 5)
  | yield
  | dly (n : BitVec 5)
  | waitk (k : Tok) (t : BitVec 4)
  | guard (p : PReg) (n : BitVec 1)
  | bkpt
  | trap (c : BitVec 16)
  | nop
  | kacc (d : VReg) (a : VReg) (b : VReg) (k : Tok)
  | kfind (d : VReg) (a : VReg) (s : BitVec 7) (k : Tok)
  | rngB32 (d : VReg) (k : Tok)
  | rngF32 (d : VReg) (k : Tok)
  | rdspec (d : VReg) (s : BitVec 7) (k : Tok)
  | cycle (d : VReg) (k : Tok)
  | mxgo (a : VReg) (s : SReg) (k : Tok)
  deriving DecidableEq, Repr

/-- The U-set words (R54), named as in Instr. -/
inductive UInstr where
  | sadd (d : SReg) (a : SReg) (b : SReg)
  | ssub (d : SReg) (a : SReg) (b : SReg)
  | smul (d : SReg) (a : SReg) (b : SReg)
  | smulh (d : SReg) (a : SReg) (b : SReg)
  | sand (d : SReg) (a : SReg) (b : SReg)
  | sor (d : SReg) (a : SReg) (b : SReg)
  | sxor (d : SReg) (a : SReg) (b : SReg)
  | sandn (d : SReg) (a : SReg) (b : SReg)
  | sshl (d : SReg) (a : SReg) (b : SReg)
  | sshr (d : SReg) (a : SReg) (b : SReg)
  | ssar (d : SReg) (a : SReg) (b : SReg)
  | smin (d : SReg) (a : SReg) (b : SReg)
  | smax (d : SReg) (a : SReg) (b : SReg)
  | sminz (d : SReg) (a : SReg) (b : SReg)
  | smaxz (d : SReg) (a : SReg) (b : SReg)
  | smov (d : SReg) (a : SReg)
  | saddi (d : SReg) (a : SReg) (i : BitVec 13)
  | sandi (d : SReg) (a : SReg) (i : BitVec 13)
  | sori (d : SReg) (a : SReg) (i : BitVec 13)
  | sshli (d : SReg) (a : SReg) (n : BitVec 6)
  | sshri (d : SReg) (a : SReg) (n : BitVec 6)
  | ssari (d : SReg) (a : SReg) (n : BitVec 6)
  | smovi (d : SReg) (i : BitVec 19)
  | scmp (c : BitVec 4) (d : SReg) (a : SReg) (b : SReg)
  | sbr (c : BitVec 4) (a : SReg) (s : BitVec 15)
  | jmp (i : BitVec 25)
  | call (i : BitVec 25)
  | ret (a : SReg)
  | pfx (p : BitVec 25)
  | vbcast (v : VReg) (s : SReg) (i : BitVec 8)
  | vread (v : VReg) (s : SReg) (i : BitVec 8)
  | mread (s : SReg) (i : BitVec 8)
  | mwrite (s : SReg) (i : BitVec 8)
  | pread (s : SReg) (i : BitVec 8)
  | kread (s : SReg) (i : BitVec 8)
  | sldB32 (a : SReg) (b : SReg) (k : Tok) (i : BitVec 5)
  | sldB64 (a : SReg) (b : SReg) (k : Tok) (i : BitVec 5)
  | sstB32 (a : SReg) (b : SReg) (k : Tok) (i : BitVec 5)
  | sstB64 (a : SReg) (b : SReg) (k : Tok) (i : BitVec 5)
  | sldcB64 (a : SReg) (b : SReg) (k : Tok) (i : BitVec 5)
  | sstcB64 (a : SReg) (b : SReg) (k : Tok) (i : BitVec 5)
  | tld (a : SReg) (b : SReg) (k : Tok) (n : BitVec 5)
  | tst (a : SReg) (b : SReg) (k : Tok) (n : BitVec 5)
  | tzero (k : Tok) (n : BitVec 5)
  | accld (a : SReg) (b : SReg) (k : Tok) (n : BitVec 5)
  | accst (a : SReg) (b : SReg) (k : Tok) (n : BitVec 5)
  | accz (k : Tok) (n : BitVec 5)
  | movsh (a : SReg) (k : Tok) (n : BitVec 5)
  | tcvt (a : SReg) (k : Tok) (n : BitVec 5)
  | tspk (a : SReg) (k : Tok) (n : BitVec 5)
  | tqld (a : SReg) (k : Tok) (n : BitVec 5)
  | cpyIn (a : SReg) (b : SReg) (k : Tok)
  | cpyOut (a : SReg) (b : SReg) (k : Tok)
  | cpyCc (a : SReg) (b : SReg) (k : Tok)
  | cupop (a : SReg) (b : SReg) (k : Tok) (o : BitVec 5)
  | kcfg (a : SReg) (b : SReg) (k : Tok)
  | kcfgStream (b : SReg) (k : Tok)
  | kdrain (a : SReg) (b : SReg) (k : Tok) (i : BitVec 5)
  | kclr (k : Tok)
  | kstat (a : SReg) (k : Tok) (i : BitVec 5)
  | post (a : SReg) (b : SReg) (k : Tok) (i : BitVec 5)
  | arrive (a : SReg) (b : SReg) (k : Tok)
  | append (a : SReg) (b : SReg) (k : Tok) (i : BitVec 5)
  | seal (a : SReg) (k : Tok)
  | waitbm (a : SReg) (b : SReg)
  | tbar
  | pbar
  | dqpush (a : SReg) (k : Tok)
  | dqpop (a : SReg) (k : Tok)
  | getc (d : SReg) (b : BitVec 6)
  | setc (d : BitVec 6) (a : SReg)
  | eret
  | fence (d : BitVec 6)
  | synce
  deriving DecidableEq, Repr

/-- An instruction word of either set (R38). -/
inductive Code where
  | l (i : LInstr)
  | u (i : UInstr)
  deriving DecidableEq, Repr

/-- A word of the L-set as an instruction. -/
noncomputable def LInstr.instr : LInstr → Instr
  | .iadd u d a b => .iadd u d a b
  | .isub u d a b => .isub u d a b
  | .imul u d a b => .imul u d a b
  | .imulh u d a b => .imulh u d a b
  | .imulhz u d a b => .imulhz u d a b
  | .imin u d a b => .imin u d a b
  | .imax u d a b => .imax u d a b
  | .iminz u d a b => .iminz u d a b
  | .imaxz u d a b => .imaxz u d a b
  | .iabs u d a => .iabs u d a
  | .and u d a b => .and u d a b
  | .or u d a b => .or u d a b
  | .xor u d a b => .xor u d a b
  | .andn u d a b => .andn u d a b
  | .shl u d a b => .shl u d a b
  | .shr u d a b => .shr u d a b
  | .sar u d a b => .sar u d a b
  | .rotl u d a b => .rotl u d a b
  | .popc u d a => .popc u d a
  | .clz u d a => .clz u d a
  | .ctz u d a => .ctz u d a
  | .brev u d a => .brev u d a
  | .bswap u d a => .bswap u d a
  | .imad u d a b => .imad u d a b
  | .bfx u d a b => .bfx u d a b
  | .bfi u d a b => .bfi u d a b
  | .iadd64 u d a b => .iadd64 u d a b
  | .isub64 u d a b => .isub64 u d a b
  | .imulw u d a b => .imulw u d a b
  | .mov u d a => .mov u d a
  | .iaddi u d a i => .iaddi u d a i
  | .andi u d a i => .andi u d a i
  | .ori u d a i => .ori u d a i
  | .xori u d a i => .xori u d a i
  | .shli u d a n => .shli u d a n
  | .shri u d a n => .shri u d a n
  | .sari u d a n => .sari u d a n
  | .rotli u d a n => .rotli u d a n
  | .movi u d i => .movi u d i
  | .icmp u c p a b n => .icmp u c p a b n
  | .fcmp u c p a b n => .fcmp u c p a b n
  | .dcmp u c p a b n => .dcmp u c p a b n
  | .sel u d a p => .sel u d a p
  | .pset u a p => .pset u a p
  | .ptest u d p => .ptest u d p
  | .pand u p q r => .pand u p q r
  | .por u p q r => .por u p q r
  | .pxor u p q r => .pxor u p q r
  | .pandn u p q r => .pandn u p q r
  | .pnot u p q => .pnot u p q
  | .pmov u p q => .pmov u p q
  | .fadd u d a b => .fadd u d a b
  | .fsub u d a b => .fsub u d a b
  | .fmul u d a b => .fmul u d a b
  | .ffma u d a b => .ffma u d a b
  | .ffms u d a b => .ffms u d a b
  | .fmin u d a b => .fmin u d a b
  | .fmax u d a b => .fmax u d a b
  | .fabs u d a => .fabs u d a
  | .fneg u d a => .fneg u d a
  | .fcps u d a b => .fcps u d a b
  | .frnd u d a r => .frnd u d a r
  | .fclass u d a => .fclass u d a
  | .dadd u d a b => .dadd u d a b
  | .dsub u d a b => .dsub u d a b
  | .dmul u d a b => .dmul u d a b
  | .dfma u d a b => .dfma u d a b
  | .dfms u d a b => .dfms u d a b
  | .dmin u d a b => .dmin u d a b
  | .dmax u d a b => .dmax u d a b
  | .dabs u d a => .dabs u d a
  | .dneg u d a => .dneg u d a
  | .drnd u d a r => .drnd u d a r
  | .dclass u d a => .dclass u d a
  | .hadd2 u d a b => .hadd2 u d a b
  | .hmul2 u d a b => .hmul2 u d a b
  | .hfma2 u d a b => .hfma2 u d a b
  | .hmin2 u d a b => .hmin2 u d a b
  | .hmax2 u d a b => .hmax2 u d a b
  | .badd2 u d a b => .badd2 u d a b
  | .bmul2 u d a b => .bmul2 u d a b
  | .bfma2 u d a b => .bfma2 u d a b
  | .bmin2 u d a b => .bmin2 u d a b
  | .bmax2 u d a b => .bmax2 u d a b
  | .frcp u d a k => .frcp u d a k
  | .frsq u d a k => .frsq u d a k
  | .fsqrt u d a k => .fsqrt u d a k
  | .fexp2 u d a k => .fexp2 u d a k
  | .flog2 u d a k => .flog2 u d a k
  | .fsinp u d a k => .fsinp u d a k
  | .fcosp u d a k => .fcosp u d a k
  | .drcp u d a k => .drcp u d a k
  | .drsq u d a k => .drsq u d a k
  | .dsqrt u d a k => .dsqrt u d a k
  | .cvt u f d a r p => .cvt u f d a r p
  | .ldlB32 d a k s => .ldlB32 d a k s
  | .ldlB64 d a k s => .ldlB64 d a k s
  | .stlB32 d a k s => .stlB32 d a k s
  | .stlB64 d a k s => .stlB64 d a k s
  | .ldsS8 u d a k s => .ldsS8 u d a k s
  | .ldsZ8 u d a k s => .ldsZ8 u d a k s
  | .ldsS16 u d a k s => .ldsS16 u d a k s
  | .ldsZ16 u d a k s => .ldsZ16 u d a k s
  | .ldsB32 u d a k s => .ldsB32 u d a k s
  | .ldsB64 u d a k s => .ldsB64 u d a k s
  | .ldsB128 u d a k s => .ldsB128 u d a k s
  | .stsB8 d a k s => .stsB8 d a k s
  | .stsB16 d a k s => .stsB16 d a k s
  | .stsB32 d a k s => .stsB32 d a k s
  | .stsB64 d a k s => .stsB64 d a k s
  | .stsB128 d a k s => .stsB128 d a k s
  | .ldcB32 u d a k s => .ldcB32 u d a k s
  | .ldcB64 u d a k s => .ldcB64 u d a k s
  | .ldcB128 u d a k s => .ldcB128 u d a k s
  | .stcB32 d a k s => .stcB32 d a k s
  | .stcB64 d a k s => .stcB64 d a k s
  | .stcB128 d a k s => .stcB128 d a k s
  | .ldcAcqB32 d a k s => .ldcAcqB32 d a k s
  | .ldcAcqB64 d a k s => .ldcAcqB64 d a k s
  | .stcRelB32 d a k s => .stcRelB32 d a k s
  | .stcRelB64 d a k s => .stcRelB64 d a k s
  | .prs d a k s => .prs d a k s
  | .atomsAdd d a k s => .atomsAdd d a k s
  | .atomsMin d a k s => .atomsMin d a k s
  | .atomsMax d a k s => .atomsMax d a k s
  | .atomsMinz d a k s => .atomsMinz d a k s
  | .atomsMaxz d a k s => .atomsMaxz d a k s
  | .atomsAnd d a k s => .atomsAnd d a k s
  | .atomsOr d a k s => .atomsOr d a k s
  | .atomsXor d a k s => .atomsXor d a k s
  | .atomsXchg d a k s => .atomsXchg d a k s
  | .atomsCas d a k s => .atomsCas d a k s
  | .atomsFadd d a k s => .atomsFadd d a k s
  | .atomsAdd64 d a k s => .atomsAdd64 d a k s
  | .atomcAdd d a k s => .atomcAdd d a k s
  | .atomcMin d a k s => .atomcMin d a k s
  | .atomcMax d a k s => .atomcMax d a k s
  | .atomcMinz d a k s => .atomcMinz d a k s
  | .atomcMaxz d a k s => .atomcMaxz d a k s
  | .atomcAnd d a k s => .atomcAnd d a k s
  | .atomcOr d a k s => .atomcOr d a k s
  | .atomcXor d a k s => .atomcXor d a k s
  | .atomcXchg d a k s => .atomcXchg d a k s
  | .atomcCas d a k s => .atomcCas d a k s
  | .atomcFadd d a k s => .atomcFadd d a k s
  | .atomcDadd d a k s => .atomcDadd d a k s
  | .atomcAdd64 d a k s => .atomcAdd64 d a k s
  | .atomcMaxloc d a k s => .atomcMaxloc d a k s
  | .atomcMinloc d a k s => .atomcMinloc d a k s
  | .gathB32 d a k s => .gathB32 d a k s
  | .gathB64 d a k s => .gathB64 d a k s
  | .scatB32 d a k => .scatB32 d a k
  | .scatB64 d a k => .scatB64 d a k
  | .xchPick d a m => .xchPick d a m
  | .xchMove d a m e => .xchMove d a m e
  | .xchFlip d a m e => .xchFlip d a m e
  | .xchEdge d a m e => .xchEdge d a m e
  | .qryCnt d a m => .qryCnt d a m
  | .qryEvery d a m => .qryEvery d a m
  | .qryBits d a m e => .qryBits d a m e
  | .redIadd d a m => .redIadd d a m
  | .redImin d a m => .redImin d a m
  | .redImax d a m => .redImax d a m
  | .redFadd d a m => .redFadd d a m
  | .redFmin d a m => .redFmin d a m
  | .redFmax d a m => .redFmax d a m
  | .scanIadd d a m e => .scanIadd d a m e
  | .scanFadd d a m e => .scanFadd d a m e
  | .maxloc d a m e => .maxloc d a m e
  | .segredIadd d a m => .segredIadd d a m
  | .segredFadd d a m => .segredFadd d a m
  | .segscanFadd d a m => .segscanFadd d a m
  | .matchLanes d a m e => .matchLanes d a m e
  | .compact d a m e => .compact d a m e
  | .lsort d a m e => .lsort d a m e
  | .bra p n k s => .bra p n k s
  | .rjm m => .rjm m
  | .rjadd m => .rjadd m
  | .join m => .join m
  | .exit => .exit
  | .exits a n => .exits a n
  | .regroup p n => .regroup p n
  | .yield => .yield
  | .dly n => .dly n
  | .waitk k t => .waitk k t
  | .guard p n => .guard p n
  | .bkpt => .bkpt
  | .trap c => .trap c
  | .nop => .nop
  | .kacc d a b k => .kacc d a b k
  | .kfind d a s k => .kfind d a s k
  | .rngB32 d k => .rngB32 d k
  | .rngF32 d k => .rngF32 d k
  | .rdspec d s k => .rdspec d s k
  | .cycle d k => .cycle d k
  | .mxgo a s k => .mxgo a s k

/-- A word of the U-set as an instruction. -/
noncomputable def UInstr.instr : UInstr → Instr
  | .sadd d a b => .sadd d a b
  | .ssub d a b => .ssub d a b
  | .smul d a b => .smul d a b
  | .smulh d a b => .smulh d a b
  | .sand d a b => .sand d a b
  | .sor d a b => .sor d a b
  | .sxor d a b => .sxor d a b
  | .sandn d a b => .sandn d a b
  | .sshl d a b => .sshl d a b
  | .sshr d a b => .sshr d a b
  | .ssar d a b => .ssar d a b
  | .smin d a b => .smin d a b
  | .smax d a b => .smax d a b
  | .sminz d a b => .sminz d a b
  | .smaxz d a b => .smaxz d a b
  | .smov d a => .smov d a
  | .saddi d a i => .saddi d a i
  | .sandi d a i => .sandi d a i
  | .sori d a i => .sori d a i
  | .sshli d a n => .sshli d a n
  | .sshri d a n => .sshri d a n
  | .ssari d a n => .ssari d a n
  | .smovi d i => .smovi d i
  | .scmp c d a b => .scmp c d a b
  | .sbr c a s => .sbr c a s
  | .jmp i => .jmp i
  | .call i => .call i
  | .ret a => .ret a
  | .pfx p => .pfx p
  | .vbcast v s i => .vbcast v s i
  | .vread v s i => .vread v s i
  | .mread s i => .mread s i
  | .mwrite s i => .mwrite s i
  | .pread s i => .pread s i
  | .kread s i => .kread s i
  | .sldB32 a b k i => .sldB32 a b k i
  | .sldB64 a b k i => .sldB64 a b k i
  | .sstB32 a b k i => .sstB32 a b k i
  | .sstB64 a b k i => .sstB64 a b k i
  | .sldcB64 a b k i => .sldcB64 a b k i
  | .sstcB64 a b k i => .sstcB64 a b k i
  | .tld a b k n => .tld a b k n
  | .tst a b k n => .tst a b k n
  | .tzero k n => .tzero k n
  | .accld a b k n => .accld a b k n
  | .accst a b k n => .accst a b k n
  | .accz k n => .accz k n
  | .movsh a k n => .movsh a k n
  | .tcvt a k n => .tcvt a k n
  | .tspk a k n => .tspk a k n
  | .tqld a k n => .tqld a k n
  | .cpyIn a b k => .cpyIn a b k
  | .cpyOut a b k => .cpyOut a b k
  | .cpyCc a b k => .cpyCc a b k
  | .cupop a b k o => .cupop a b k o
  | .kcfg a b k => .kcfg a b k
  | .kcfgStream b k => .kcfgStream b k
  | .kdrain a b k i => .kdrain a b k i
  | .kclr k => .kclr k
  | .kstat a k i => .kstat a k i
  | .post a b k i => .post a b k i
  | .arrive a b k => .arrive a b k
  | .append a b k i => .append a b k i
  | .seal a k => .seal a k
  | .waitbm a b => .waitbm a b
  | .tbar => .tbar
  | .pbar => .pbar
  | .dqpush a k => .dqpush a k
  | .dqpop a k => .dqpop a k
  | .getc d b => .getc d b
  | .setc d a => .setc d a
  | .eret => .eret
  | .fence d => .fence d
  | .synce => .synce

/-- A word as an instruction. -/
noncomputable def Code.instr : Code → Instr
  | .l i => i.instr
  | .u i => i.instr

/-- The word an instruction is; none for a step of the device, which has no word (95). -/
def Instr.code : Instr → Option Code
  | .iadd u d a b => some (.l (.iadd u d a b))
  | .isub u d a b => some (.l (.isub u d a b))
  | .imul u d a b => some (.l (.imul u d a b))
  | .imulh u d a b => some (.l (.imulh u d a b))
  | .imulhz u d a b => some (.l (.imulhz u d a b))
  | .imin u d a b => some (.l (.imin u d a b))
  | .imax u d a b => some (.l (.imax u d a b))
  | .iminz u d a b => some (.l (.iminz u d a b))
  | .imaxz u d a b => some (.l (.imaxz u d a b))
  | .iabs u d a => some (.l (.iabs u d a))
  | .and u d a b => some (.l (.and u d a b))
  | .or u d a b => some (.l (.or u d a b))
  | .xor u d a b => some (.l (.xor u d a b))
  | .andn u d a b => some (.l (.andn u d a b))
  | .shl u d a b => some (.l (.shl u d a b))
  | .shr u d a b => some (.l (.shr u d a b))
  | .sar u d a b => some (.l (.sar u d a b))
  | .rotl u d a b => some (.l (.rotl u d a b))
  | .popc u d a => some (.l (.popc u d a))
  | .clz u d a => some (.l (.clz u d a))
  | .ctz u d a => some (.l (.ctz u d a))
  | .brev u d a => some (.l (.brev u d a))
  | .bswap u d a => some (.l (.bswap u d a))
  | .imad u d a b => some (.l (.imad u d a b))
  | .bfx u d a b => some (.l (.bfx u d a b))
  | .bfi u d a b => some (.l (.bfi u d a b))
  | .iadd64 u d a b => some (.l (.iadd64 u d a b))
  | .isub64 u d a b => some (.l (.isub64 u d a b))
  | .imulw u d a b => some (.l (.imulw u d a b))
  | .mov u d a => some (.l (.mov u d a))
  | .iaddi u d a i => some (.l (.iaddi u d a i))
  | .andi u d a i => some (.l (.andi u d a i))
  | .ori u d a i => some (.l (.ori u d a i))
  | .xori u d a i => some (.l (.xori u d a i))
  | .shli u d a n => some (.l (.shli u d a n))
  | .shri u d a n => some (.l (.shri u d a n))
  | .sari u d a n => some (.l (.sari u d a n))
  | .rotli u d a n => some (.l (.rotli u d a n))
  | .movi u d i => some (.l (.movi u d i))
  | .icmp u c p a b n => some (.l (.icmp u c p a b n))
  | .fcmp u c p a b n => some (.l (.fcmp u c p a b n))
  | .dcmp u c p a b n => some (.l (.dcmp u c p a b n))
  | .sel u d a p => some (.l (.sel u d a p))
  | .pset u a p => some (.l (.pset u a p))
  | .ptest u d p => some (.l (.ptest u d p))
  | .pand u p q r => some (.l (.pand u p q r))
  | .por u p q r => some (.l (.por u p q r))
  | .pxor u p q r => some (.l (.pxor u p q r))
  | .pandn u p q r => some (.l (.pandn u p q r))
  | .pnot u p q => some (.l (.pnot u p q))
  | .pmov u p q => some (.l (.pmov u p q))
  | .fadd u d a b => some (.l (.fadd u d a b))
  | .fsub u d a b => some (.l (.fsub u d a b))
  | .fmul u d a b => some (.l (.fmul u d a b))
  | .ffma u d a b => some (.l (.ffma u d a b))
  | .ffms u d a b => some (.l (.ffms u d a b))
  | .fmin u d a b => some (.l (.fmin u d a b))
  | .fmax u d a b => some (.l (.fmax u d a b))
  | .fabs u d a => some (.l (.fabs u d a))
  | .fneg u d a => some (.l (.fneg u d a))
  | .fcps u d a b => some (.l (.fcps u d a b))
  | .frnd u d a r => some (.l (.frnd u d a r))
  | .fclass u d a => some (.l (.fclass u d a))
  | .dadd u d a b => some (.l (.dadd u d a b))
  | .dsub u d a b => some (.l (.dsub u d a b))
  | .dmul u d a b => some (.l (.dmul u d a b))
  | .dfma u d a b => some (.l (.dfma u d a b))
  | .dfms u d a b => some (.l (.dfms u d a b))
  | .dmin u d a b => some (.l (.dmin u d a b))
  | .dmax u d a b => some (.l (.dmax u d a b))
  | .dabs u d a => some (.l (.dabs u d a))
  | .dneg u d a => some (.l (.dneg u d a))
  | .drnd u d a r => some (.l (.drnd u d a r))
  | .dclass u d a => some (.l (.dclass u d a))
  | .hadd2 u d a b => some (.l (.hadd2 u d a b))
  | .hmul2 u d a b => some (.l (.hmul2 u d a b))
  | .hfma2 u d a b => some (.l (.hfma2 u d a b))
  | .hmin2 u d a b => some (.l (.hmin2 u d a b))
  | .hmax2 u d a b => some (.l (.hmax2 u d a b))
  | .badd2 u d a b => some (.l (.badd2 u d a b))
  | .bmul2 u d a b => some (.l (.bmul2 u d a b))
  | .bfma2 u d a b => some (.l (.bfma2 u d a b))
  | .bmin2 u d a b => some (.l (.bmin2 u d a b))
  | .bmax2 u d a b => some (.l (.bmax2 u d a b))
  | .frcp u d a k => some (.l (.frcp u d a k))
  | .frsq u d a k => some (.l (.frsq u d a k))
  | .fsqrt u d a k => some (.l (.fsqrt u d a k))
  | .fexp2 u d a k => some (.l (.fexp2 u d a k))
  | .flog2 u d a k => some (.l (.flog2 u d a k))
  | .fsinp u d a k => some (.l (.fsinp u d a k))
  | .fcosp u d a k => some (.l (.fcosp u d a k))
  | .drcp u d a k => some (.l (.drcp u d a k))
  | .drsq u d a k => some (.l (.drsq u d a k))
  | .dsqrt u d a k => some (.l (.dsqrt u d a k))
  | .cvt u f d a r p => some (.l (.cvt u f d a r p))
  | .ldlB32 d a k s => some (.l (.ldlB32 d a k s))
  | .ldlB64 d a k s => some (.l (.ldlB64 d a k s))
  | .stlB32 d a k s => some (.l (.stlB32 d a k s))
  | .stlB64 d a k s => some (.l (.stlB64 d a k s))
  | .ldsS8 u d a k s => some (.l (.ldsS8 u d a k s))
  | .ldsZ8 u d a k s => some (.l (.ldsZ8 u d a k s))
  | .ldsS16 u d a k s => some (.l (.ldsS16 u d a k s))
  | .ldsZ16 u d a k s => some (.l (.ldsZ16 u d a k s))
  | .ldsB32 u d a k s => some (.l (.ldsB32 u d a k s))
  | .ldsB64 u d a k s => some (.l (.ldsB64 u d a k s))
  | .ldsB128 u d a k s => some (.l (.ldsB128 u d a k s))
  | .stsB8 d a k s => some (.l (.stsB8 d a k s))
  | .stsB16 d a k s => some (.l (.stsB16 d a k s))
  | .stsB32 d a k s => some (.l (.stsB32 d a k s))
  | .stsB64 d a k s => some (.l (.stsB64 d a k s))
  | .stsB128 d a k s => some (.l (.stsB128 d a k s))
  | .ldcB32 u d a k s => some (.l (.ldcB32 u d a k s))
  | .ldcB64 u d a k s => some (.l (.ldcB64 u d a k s))
  | .ldcB128 u d a k s => some (.l (.ldcB128 u d a k s))
  | .stcB32 d a k s => some (.l (.stcB32 d a k s))
  | .stcB64 d a k s => some (.l (.stcB64 d a k s))
  | .stcB128 d a k s => some (.l (.stcB128 d a k s))
  | .ldcAcqB32 d a k s => some (.l (.ldcAcqB32 d a k s))
  | .ldcAcqB64 d a k s => some (.l (.ldcAcqB64 d a k s))
  | .stcRelB32 d a k s => some (.l (.stcRelB32 d a k s))
  | .stcRelB64 d a k s => some (.l (.stcRelB64 d a k s))
  | .prs d a k s => some (.l (.prs d a k s))
  | .atomsAdd d a k s => some (.l (.atomsAdd d a k s))
  | .atomsMin d a k s => some (.l (.atomsMin d a k s))
  | .atomsMax d a k s => some (.l (.atomsMax d a k s))
  | .atomsMinz d a k s => some (.l (.atomsMinz d a k s))
  | .atomsMaxz d a k s => some (.l (.atomsMaxz d a k s))
  | .atomsAnd d a k s => some (.l (.atomsAnd d a k s))
  | .atomsOr d a k s => some (.l (.atomsOr d a k s))
  | .atomsXor d a k s => some (.l (.atomsXor d a k s))
  | .atomsXchg d a k s => some (.l (.atomsXchg d a k s))
  | .atomsCas d a k s => some (.l (.atomsCas d a k s))
  | .atomsFadd d a k s => some (.l (.atomsFadd d a k s))
  | .atomsAdd64 d a k s => some (.l (.atomsAdd64 d a k s))
  | .atomcAdd d a k s => some (.l (.atomcAdd d a k s))
  | .atomcMin d a k s => some (.l (.atomcMin d a k s))
  | .atomcMax d a k s => some (.l (.atomcMax d a k s))
  | .atomcMinz d a k s => some (.l (.atomcMinz d a k s))
  | .atomcMaxz d a k s => some (.l (.atomcMaxz d a k s))
  | .atomcAnd d a k s => some (.l (.atomcAnd d a k s))
  | .atomcOr d a k s => some (.l (.atomcOr d a k s))
  | .atomcXor d a k s => some (.l (.atomcXor d a k s))
  | .atomcXchg d a k s => some (.l (.atomcXchg d a k s))
  | .atomcCas d a k s => some (.l (.atomcCas d a k s))
  | .atomcFadd d a k s => some (.l (.atomcFadd d a k s))
  | .atomcDadd d a k s => some (.l (.atomcDadd d a k s))
  | .atomcAdd64 d a k s => some (.l (.atomcAdd64 d a k s))
  | .atomcMaxloc d a k s => some (.l (.atomcMaxloc d a k s))
  | .atomcMinloc d a k s => some (.l (.atomcMinloc d a k s))
  | .gathB32 d a k s => some (.l (.gathB32 d a k s))
  | .gathB64 d a k s => some (.l (.gathB64 d a k s))
  | .scatB32 d a k => some (.l (.scatB32 d a k))
  | .scatB64 d a k => some (.l (.scatB64 d a k))
  | .xchPick d a m => some (.l (.xchPick d a m))
  | .xchMove d a m e => some (.l (.xchMove d a m e))
  | .xchFlip d a m e => some (.l (.xchFlip d a m e))
  | .xchEdge d a m e => some (.l (.xchEdge d a m e))
  | .qryCnt d a m => some (.l (.qryCnt d a m))
  | .qryEvery d a m => some (.l (.qryEvery d a m))
  | .qryBits d a m e => some (.l (.qryBits d a m e))
  | .redIadd d a m => some (.l (.redIadd d a m))
  | .redImin d a m => some (.l (.redImin d a m))
  | .redImax d a m => some (.l (.redImax d a m))
  | .redFadd d a m => some (.l (.redFadd d a m))
  | .redFmin d a m => some (.l (.redFmin d a m))
  | .redFmax d a m => some (.l (.redFmax d a m))
  | .scanIadd d a m e => some (.l (.scanIadd d a m e))
  | .scanFadd d a m e => some (.l (.scanFadd d a m e))
  | .maxloc d a m e => some (.l (.maxloc d a m e))
  | .segredIadd d a m => some (.l (.segredIadd d a m))
  | .segredFadd d a m => some (.l (.segredFadd d a m))
  | .segscanFadd d a m => some (.l (.segscanFadd d a m))
  | .matchLanes d a m e => some (.l (.matchLanes d a m e))
  | .compact d a m e => some (.l (.compact d a m e))
  | .lsort d a m e => some (.l (.lsort d a m e))
  | .bra p n k s => some (.l (.bra p n k s))
  | .rjm m => some (.l (.rjm m))
  | .rjadd m => some (.l (.rjadd m))
  | .join m => some (.l (.join m))
  | .exit => some (.l (.exit))
  | .exits a n => some (.l (.exits a n))
  | .regroup p n => some (.l (.regroup p n))
  | .yield => some (.l (.yield))
  | .dly n => some (.l (.dly n))
  | .waitk k t => some (.l (.waitk k t))
  | .guard p n => some (.l (.guard p n))
  | .bkpt => some (.l (.bkpt))
  | .trap c => some (.l (.trap c))
  | .nop => some (.l (.nop))
  | .kacc d a b k => some (.l (.kacc d a b k))
  | .kfind d a s k => some (.l (.kfind d a s k))
  | .rngB32 d k => some (.l (.rngB32 d k))
  | .rngF32 d k => some (.l (.rngF32 d k))
  | .rdspec d s k => some (.l (.rdspec d s k))
  | .cycle d k => some (.l (.cycle d k))
  | .mxgo a s k => some (.l (.mxgo a s k))
  | .sadd d a b => some (.u (.sadd d a b))
  | .ssub d a b => some (.u (.ssub d a b))
  | .smul d a b => some (.u (.smul d a b))
  | .smulh d a b => some (.u (.smulh d a b))
  | .sand d a b => some (.u (.sand d a b))
  | .sor d a b => some (.u (.sor d a b))
  | .sxor d a b => some (.u (.sxor d a b))
  | .sandn d a b => some (.u (.sandn d a b))
  | .sshl d a b => some (.u (.sshl d a b))
  | .sshr d a b => some (.u (.sshr d a b))
  | .ssar d a b => some (.u (.ssar d a b))
  | .smin d a b => some (.u (.smin d a b))
  | .smax d a b => some (.u (.smax d a b))
  | .sminz d a b => some (.u (.sminz d a b))
  | .smaxz d a b => some (.u (.smaxz d a b))
  | .smov d a => some (.u (.smov d a))
  | .saddi d a i => some (.u (.saddi d a i))
  | .sandi d a i => some (.u (.sandi d a i))
  | .sori d a i => some (.u (.sori d a i))
  | .sshli d a n => some (.u (.sshli d a n))
  | .sshri d a n => some (.u (.sshri d a n))
  | .ssari d a n => some (.u (.ssari d a n))
  | .smovi d i => some (.u (.smovi d i))
  | .scmp c d a b => some (.u (.scmp c d a b))
  | .sbr c a s => some (.u (.sbr c a s))
  | .jmp i => some (.u (.jmp i))
  | .call i => some (.u (.call i))
  | .ret a => some (.u (.ret a))
  | .pfx p => some (.u (.pfx p))
  | .vbcast v s i => some (.u (.vbcast v s i))
  | .vread v s i => some (.u (.vread v s i))
  | .mread s i => some (.u (.mread s i))
  | .mwrite s i => some (.u (.mwrite s i))
  | .pread s i => some (.u (.pread s i))
  | .kread s i => some (.u (.kread s i))
  | .sldB32 a b k i => some (.u (.sldB32 a b k i))
  | .sldB64 a b k i => some (.u (.sldB64 a b k i))
  | .sstB32 a b k i => some (.u (.sstB32 a b k i))
  | .sstB64 a b k i => some (.u (.sstB64 a b k i))
  | .sldcB64 a b k i => some (.u (.sldcB64 a b k i))
  | .sstcB64 a b k i => some (.u (.sstcB64 a b k i))
  | .tld a b k n => some (.u (.tld a b k n))
  | .tst a b k n => some (.u (.tst a b k n))
  | .tzero k n => some (.u (.tzero k n))
  | .accld a b k n => some (.u (.accld a b k n))
  | .accst a b k n => some (.u (.accst a b k n))
  | .accz k n => some (.u (.accz k n))
  | .movsh a k n => some (.u (.movsh a k n))
  | .tcvt a k n => some (.u (.tcvt a k n))
  | .tspk a k n => some (.u (.tspk a k n))
  | .tqld a k n => some (.u (.tqld a k n))
  | .cpyIn a b k => some (.u (.cpyIn a b k))
  | .cpyOut a b k => some (.u (.cpyOut a b k))
  | .cpyCc a b k => some (.u (.cpyCc a b k))
  | .cupop a b k o => some (.u (.cupop a b k o))
  | .kcfg a b k => some (.u (.kcfg a b k))
  | .kcfgStream b k => some (.u (.kcfgStream b k))
  | .kdrain a b k i => some (.u (.kdrain a b k i))
  | .kclr k => some (.u (.kclr k))
  | .kstat a k i => some (.u (.kstat a k i))
  | .post a b k i => some (.u (.post a b k i))
  | .arrive a b k => some (.u (.arrive a b k))
  | .append a b k i => some (.u (.append a b k i))
  | .seal a k => some (.u (.seal a k))
  | .waitbm a b => some (.u (.waitbm a b))
  | .tbar => some (.u (.tbar))
  | .pbar => some (.u (.pbar))
  | .dqpush a k => some (.u (.dqpush a k))
  | .dqpop a k => some (.u (.dqpop a k))
  | .getc d b => some (.u (.getc d b))
  | .setc d a => some (.u (.setc d a))
  | .eret => some (.u (.eret))
  | .fence d => some (.u (.fence d))
  | .synce => some (.u (.synce))
  | .issueCycle _ => none
  | .pcAged _ _ _ => none
  | .longLatencyComplete _ _ _ _ => none
  | .speculationResolve _ _ => none
  | .joinRelease _ _ _ => none
  | .exitsRestart _ _ => none
  | .regroupPack _ => none
  | .barrierComplete _ => none
  | .dqpopDeliver _ => none
  | .waitbmProceed _ _ => none
  | .synceProceed _ _ => none
  | .rangeLockGrant _ _ => none
  | .trapEntry _ _ => none
  | .sqEntryLeave _ _ => none
  | .outboundToMemory _ _ => none
  | .staleCopyInstall _ _ _ => none
  | .staleCopyDiscard _ _ => none
  | .agentStep _ _ => none
  | .cpyInstanceStart _ => none
  | .cpyInstanceComplete _ => none
  | .agentComplete _ => none
  | .tileCommandComplete _ _ => none
  | .groupSlotFree _ _ => none
  | .distributorDecision _ => none
  | .gangReservationRelease => none
  | .taskBlocking _ => none
  | .teamWriteBackStart _ => none
  | .teamRetirement _ => none
  | .preemptDeadlineExpiry _ => none
  | .contextSaveComplete _ => none
  | .hostPost _ => none
  | .hostArrive _ => none
  | .hostWrite _ => none
  | .hostWriteApply => none
  | .hostRead _ => none
  | .hostInv _ => none
  | .invalidationComplete => none
  | .hostPreempt _ => none
  | .hostResume _ => none
  | .hostSave _ => none
  | .hostRestore _ => none
  | .hostReset _ => none
  | .remoteAccessRequest _ => none
  | .targetCheckAnswer _ _ _ => none
  | .fabricUnreachable _ _ => none
  | .collectiveDataArrival _ => none
  | .collectiveComplete _ => none
  | .collectiveAbortReceive _ => none
  | .swapRead _ => none
  | .swapWrite _ => none
  | .swapCommit _ => none
  | .swapRelease _ => none
  | .patrolScrubStep _ _ => none
  | .scrubPassEnd _ => none
  | .precharge _ _ _ _ => none
  | .faultDetected _ => none
  | .powerOn => none
  | .rstcWarm => none
  | .rstcCold => none
  | .attcQuote => none
  | .quoteReady => none
  | .attcVerify => none
  | .attcRevokeKey _ => none
  | .attcRaiseSvnmin => none
  | .stageAdvance _ => none
  | .wdogWrite _ => none
  | .watchdogExpiry _ => none
  | .ptrootWrite _ _ => none
  | .dbgcWrite _ _ _ => none
  | .tswsRead _ => none
  | .mgmtRegisterWrite _ _ => none
  | .powerClamp => none
  | .thermalClamp => none
  | .thermalShutdown => none
  | .malformedMessage _ => none
  | .powerLoss _ => none

end Sys2Proof
end

