-- ==== Sys2Proof/WellFormed.lean ====
section
/-! DEFINITION. What each instruction reads and writes, and the legality rules that a word's own fields decide
(R39-R55). The rules that need the team's counts are in Machine/Operands.lean. -/

namespace Sys2Proof

/-- The registers an instruction names (R39-R41): vector registers with the number of consecutive registers,
predicates, the token, and whether the word asserts uniform operands. -/
structure Use where
  src  : List (VReg × Nat) := []
  dst  : List (VReg × Nat) := []
  psrc : List PReg := []
  pdst : List PReg := []
  tok  : Option Tok := none
  u    : Bool := false
  ssrc : List SReg := []
  sdst : List SReg := []
  deriving DecidableEq, Repr

/-- Registers of a word that computes vd from va and vb, each `n` registers wide. -/
def Use.bin (u : Bool) (d a b : VReg) (n : Nat := 1) : Use :=
  { src := [(a, n), (b, n)], dst := [(d, n)], u := u }

/-- Registers of a word that also reads its destination. -/
def Use.tri (u : Bool) (d a b : VReg) (n : Nat := 1) : Use :=
  { src := [(a, n), (b, n), (d, n)], dst := [(d, n)], u := u }

def Use.un (u : Bool) (d a : VReg) (n : Nat := 1) : Use :=
  { src := [(a, n)], dst := [(d, n)], u := u }

/-- A compare into a predicate, which it reads when A = 1 (R43, R85, R124). -/
def Use.cmp (u : Bool) (p : PReg) (a b : VReg) (and : BitVec 1) (n : Nat := 1) : Use :=
  { src := [(a, n), (b, n)], pdst := [p], psrc := if and = 1#1 then [p] else [], u := u }

def Use.pp (u : Bool) (p q r : PReg) : Use := { psrc := [q, r], pdst := [p], u := u }

/-- A token-class unary word (R125). -/
def Use.sfu (u : Bool) (d a : VReg) (k : Tok) (n : Nat := 1) : Use :=
  { src := [(a, n)], dst := [(d, n)], tok := some k, u := u }

/-- A load: address register of `an` registers, destination of `n` (R41, R155). -/
def Use.load (u : Bool) (d a : VReg) (k : Tok) (n : Nat := 1) (an : Nat := 1) : Use :=
  { src := [(a, an)], dst := [(d, n)], tok := some k, u := u }

def Use.store (d a : VReg) (k : Tok) (n : Nat := 1) (an : Nat := 1) : Use :=
  { src := [(a, an), (d, n)], tok := some k }

/-- An atomic: operand of `n` registers, result of `r` (R164). -/
def Use.atom (d a : VReg) (k : Tok) (n : Nat := 1) (r : Nat := 1) : Use :=
  { src := [(a, 1), (d, n)], dst := [(d, r)], tok := some k }

/-- Which of CVT's sides are 64 bits wide: source, destination (R53). -/
def cvtPairs (f : BitVec 4) : Nat × Nat :=
  if f = 0 then (2, 1) else if f = 1 then (1, 2) else if 14 ≤ f.toNat then (2, 2) else (1, 1)

/-- CVT packs its result into part of vd, which it reads, for fn 2, 4, 6 and 7 (R128). -/
def cvtPacks (f : BitVec 4) : Bool := f = 2 || f = 4 || f = 6 || f = 7

/-- What an L-set word names (R39-R43). KACC's second registers depend on the configuration (R187) and are checked when it
runs. -/
def LInstr.use : LInstr → Use
  | .iadd u d a b | .isub u d a b | .imul u d a b | .imulh u d a b | .imulhz u d a b | .imin u d a b
  | .imax u d a b | .iminz u d a b | .imaxz u d a b | .and u d a b | .or u d a b | .xor u d a b | .andn u d a b
  | .shl u d a b | .shr u d a b | .sar u d a b | .rotl u d a b | .bfx u d a b
  | .fadd u d a b | .fsub u d a b | .fmul u d a b | .fmin u d a b | .fmax u d a b | .fcps u d a b
  | .hadd2 u d a b | .hmul2 u d a b | .hmin2 u d a b | .hmax2 u d a b
  | .badd2 u d a b | .bmul2 u d a b | .bmin2 u d a b | .bmax2 u d a b => Use.bin u d a b
  | .imad u d a b | .bfi u d a b | .ffma u d a b | .ffms u d a b | .hfma2 u d a b | .bfma2 u d a b => Use.tri u d a b
  | .iadd64 u d a b | .isub64 u d a b | .dadd u d a b | .dsub u d a b | .dmul u d a b | .dmin u d a b
  | .dmax u d a b => Use.bin u d a b 2
  | .dfma u d a b | .dfms u d a b => Use.tri u d a b 2
  | .imulw u d a b => { src := [(a, 1), (b, 1)], dst := [(d, 2)], u := u }
  | .iabs u d a | .popc u d a | .clz u d a | .ctz u d a | .brev u d a | .bswap u d a | .mov u d a
  | .fabs u d a | .fneg u d a | .fclass u d a => Use.un u d a
  | .iaddi u d a _ | .andi u d a _ | .ori u d a _ | .xori u d a _ | .shli u d a _ | .shri u d a _
  | .sari u d a _ | .rotli u d a _ | .frnd u d a _ => Use.un u d a
  | .dabs u d a | .dneg u d a | .dclass u d a => Use.un u d a 2
  | .drnd u d a _ => Use.un u d a 2
  | .movi u d _ => { dst := [(d, 1)], u := u }
  | .icmp u _ p a b n | .fcmp u _ p a b n => Use.cmp u p a b n
  | .dcmp u _ p a b n => Use.cmp u p a b n 2
  | .sel u d a p => { src := [(a, 1), (d, 1)], dst := [(d, 1)], psrc := [p], u := u }
  | .pset u a p => { src := [(a, 1)], pdst := [p], u := u }
  | .ptest u d p => { dst := [(d, 1)], psrc := [p], u := u }
  | .pand u p q r | .por u p q r | .pxor u p q r | .pandn u p q r => Use.pp u p q r
  | .pnot u p q | .pmov u p q => { psrc := [q], pdst := [p], u := u }
  | .frcp u d a k | .frsq u d a k | .fsqrt u d a k | .fexp2 u d a k | .flog2 u d a k | .fsinp u d a k
  | .fcosp u d a k => Use.sfu u d a k
  | .drcp u d a k | .drsq u d a k | .dsqrt u d a k => Use.sfu u d a k 2
  | .cvt u f d a _ _ =>
      { src := [(a, (cvtPairs f).1)] ++ (if cvtPacks f then [(d, 1)] else []), dst := [(d, (cvtPairs f).2)], u := u }
  | .ldlB32 d a k _ | .prs d a k _ | .ldcAcqB32 d a k _ => Use.load false d a k
  | .ldlB64 d a k _ | .ldcAcqB64 d a k _ => Use.load false d a k 2
  | .stlB32 d a k _ | .stsB8 d a k _ | .stsB16 d a k _ | .stsB32 d a k _ | .stcB32 d a k _ | .stcRelB32 d a k _ => Use.store d a k
  | .stlB64 d a k _ | .stsB64 d a k _ | .stcB64 d a k _ | .stcRelB64 d a k _ => Use.store d a k 2
  | .stsB128 d a k _ | .stcB128 d a k _ => Use.store d a k 4
  | .ldsS8 u d a k _ | .ldsZ8 u d a k _ | .ldsS16 u d a k _ | .ldsZ16 u d a k _ | .ldsB32 u d a k _
  | .ldcB32 u d a k _ => Use.load u d a k
  | .ldsB64 u d a k _ | .ldcB64 u d a k _ => Use.load u d a k 2
  | .ldsB128 u d a k _ | .ldcB128 u d a k _ => Use.load u d a k 4
  | .atomsAdd d a k _ | .atomsMin d a k _ | .atomsMax d a k _ | .atomsMinz d a k _ | .atomsMaxz d a k _
  | .atomsAnd d a k _ | .atomsOr d a k _ | .atomsXor d a k _ | .atomsXchg d a k _ | .atomsFadd d a k _
  | .atomcAdd d a k _ | .atomcMin d a k _ | .atomcMax d a k _ | .atomcMinz d a k _ | .atomcMaxz d a k _
  | .atomcAnd d a k _ | .atomcOr d a k _ | .atomcXor d a k _ | .atomcXchg d a k _ | .atomcFadd d a k _ => Use.atom d a k
  | .atomsCas d a k _ | .atomcCas d a k _ => Use.atom d a k 2 1
  | .atomsAdd64 d a k _ | .atomcDadd d a k _ | .atomcAdd64 d a k _ | .atomcMaxloc d a k _ | .atomcMinloc d a k _ => Use.atom d a k 2 2
  | .gathB32 d a k _ => Use.load false d a k 1 2
  | .gathB64 d a k _ => Use.load false d a k 2 2
  | .scatB32 d a k => Use.store d a k 1 2
  | .scatB64 d a k => Use.store d a k 2 2
  | .xchPick d a _ | .segredIadd d a _ | .segredFadd d a _ | .segscanFadd d a _ => { src := [(a, 1), (d, 1)], dst := [(d, 1)] }
  | .xchMove d a _ _ | .xchFlip d a _ _ | .compact d a _ _ => { src := [(a, 1), (d, 1)], dst := [(d, 1)] }
  | .xchEdge d a _ _ | .qryBits d a _ _ | .scanIadd d a _ _ | .scanFadd d a _ _ | .maxloc d a _ _
  | .matchLanes d a _ _ | .lsort d a _ _ => Use.un false d a
  | .qryCnt d a _ | .qryEvery d a _ | .redIadd d a _ | .redImin d a _ | .redImax d a _ | .redFadd d a _
  | .redFmin d a _ | .redFmax d a _ => Use.un false d a
  | .bra p _ _ _ => { psrc := [p] }
  | .regroup p _ => { psrc := [p] }
  | .guard p _ => { psrc := [p] }
  | .kacc d a b k => { src := [(a, 1), (b, 1)], dst := [(d, 1)], tok := some k }
  | .kfind d a _ k => { src := [(a, 1)], dst := [(d, 1)], tok := some k }
  | .rngB32 d k | .rngF32 d k | .cycle d k => { dst := [(d, 1)], tok := some k }
  | .rdspec d _ k => { dst := [(d, 1)], tok := some k }
  | .mxgo a r k => { src := [(a, 1)], tok := some k, ssrc := [r] }
  | .exits a _ => { ssrc := [a] }
  | _ => {}

/-- The scalars `n`, `n + 1` and on from a scalar. -/
def scalarsFrom (a : SReg) (n : Nat) : List SReg := (List.range n).map (fun j => a + BitVec.ofNat 6 j)

/-- What a U-set word names (R44-R48). -/
def UInstr.use : UInstr → Use
  | .sadd d a b | .ssub d a b | .smul d a b | .smulh d a b | .sand d a b | .sor d a b | .sxor d a b | .sandn d a b
  | .sshl d a b | .sshr d a b | .ssar d a b | .smin d a b | .smax d a b | .sminz d a b | .smaxz d a b
  | .scmp _ d a b => { ssrc := [a, b], sdst := [d] }
  | .smov d a | .saddi d a _ | .sandi d a _ | .sori d a _ | .sshli d a _ | .sshri d a _ | .ssari d a _ =>
      { ssrc := [a], sdst := [d] }
  | .smovi d _ | .getc d _ | .mread d _ | .pread d _ | .kread d _ => { sdst := [d] }
  | .sbr _ a _ | .ret a | .setc _ a | .mwrite a _ => { ssrc := [a] }
  | .call _ => { sdst := [63#6] }
  | .vbcast v r _ => { dst := [(v, 1)], ssrc := [r] }
  | .vread v r _ => { src := [(v, 1)], sdst := [r] }
  | .sldB32 a b k _ | .sldB64 a b k _ | .sldcB64 a b k _ => { tok := some k, ssrc := [b], sdst := [a] }
  | .sstB32 a b k _ | .sstB64 a b k _ | .sstcB64 a b k _ | .tld a b k _ | .tst a b k _ | .accld a b k _ | .accst a b k _
  | .kcfg a b k | .kdrain a b k _ | .post a b k _ | .arrive a b k | .append a b k _ => { tok := some k, ssrc := [a, b] }
  | .tzero k _ | .accz k _ | .kclr k => { tok := some k }
  | .movsh a k _ | .tcvt a k _ | .tspk a k _ | .tqld a k _ | .seal a k | .dqpush a k => { tok := some k, ssrc := [a] }
  | .kstat a k _ | .dqpop a k => { tok := some k, sdst := [a] }
  | .cpyIn a b k | .cpyOut a b k | .cpyCc a b k | .cupop a b k _ => { tok := some k, ssrc := scalarsFrom a 3 ++ [b] }
  | .kcfgStream b k => { tok := some k, ssrc := [b] }
  | .waitbm a b => { ssrc := [a, b] }
  | .jmp _ | .pfx _ | .tbar | .pbar | .eret | .fence _ | .synce => {}

def Code.use : Code → Use
  | .l i => i.use
  | .u i => i.use

/-- A pair position holds an even number and a quad position a multiple of four (R41). -/
def aligned (r : VReg × Nat) : Bool :=
  if r.2 = 2 then r.1.toNat % 2 = 0 else if r.2 = 4 then r.1.toNat % 4 = 0 else true

/-- Registers that SETC may name: FPC, DPH, SPECM, SPECR and EPC (R240). -/
def setcWritable (n : BitVec 6) : Bool := n = 0 || n = 1 || n = 3 || n = 4 || n = 6

/-- Legal CVT rounding and pack position for each fn (R128). -/
def cvtControl (f : BitVec 4) (r : BitVec 3) (p : BitVec 4) : Bool :=
  let narrow := f = 0 || cvtPacks f
  let rndOk := if narrow then r.toNat ≤ 5 else r.toNat ≤ 3 || r = 5
  let maxPos : Nat := if f = 2 || f = 3 || f = 4 || f = 5 then 1 else if f = 6 || f = 7 || f = 8 || f = 9 then 3 else 0
  rndOk && decide (p.toNat ≤ maxPos)

/-- Legal modifier of a cross-lane word (R174). -/
def subLimit : LInstr → Option (Nat × BitVec 3)
  | .xchMove _ _ _ e => some (2, e)
  | .xchFlip _ _ _ e => some (6, e)
  | .xchEdge _ _ _ e | .qryBits _ _ _ e | .scanIadd _ _ _ e | .scanFadd _ _ _ e
  | .matchLanes _ _ _ e | .compact _ _ _ e => some (1, e)
  | _ => none

/-- An operand value outside the range its format states (R55, cause 10), decided by the word alone. -/
def LInstr.outOfRange : LInstr → Bool
  | .dly n => n = 0
  | .regroup _ n => decide (16 < n.toNat)
  | .frnd _ _ _ r | .drnd _ _ _ r => !(decide (r.toNat ≤ 3) || r = 5)
  | .cvt _ f _ _ r p => !cvtControl f r p
  | .maxloc _ _ _ e => e.toNat % 4 = 3
  | .kfind _ _ s _ => decide (3 < s.toNat)
  | .rdspec _ s _ => decide (1 < s.toNat)
  | i => match subLimit i with
         | some (lim, e) => decide (lim < e.toNat)
         | none => false

def UInstr.outOfRange : UInstr → Bool
  | .vbcast _ _ i => decide (1 < i.toNat)
  | .mread _ i | .mwrite _ i => decide (15 < i.toNat)
  | .pread _ i => decide (47 < i.toNat)
  | .kread _ i => decide (14 < i.toNat)
  | .cpyIn a _ _ | .cpyOut a _ _ | .cpyCc a _ _ => decide (61 < a.toNat)
  | .cupop a _ _ o => decide (61 < a.toNat) || decide (9 < o.toNat)
  | .kdrain _ _ _ i | .post _ _ _ i | .append _ _ _ i => decide (1 < i.toNat)
  | .kstat _ _ i => decide (2 < i.toNat)
  | .getc _ b => decide (16 < b.toNat)
  | .setc d _ => !setcWritable d
  | .fence d => decide (5 < d.toNat)
  | _ => false

def Code.outOfRange : Code → Bool
  | .l i => i.outOfRange
  | .u i => i.outOfRange

/-- The cause codes of R55 that a word's own fields meet. -/
def staticCauses (i : Code) : List Nat :=
  let u := i.use
  (match i with
   | .l (.icmp _ c _ _ _ _) | .u (.scmp c _ _ _) => if 10 ≤ c.toNat then [2] else []
   | .u (.sbr c _ _) => if 6 ≤ c.toNat then [2] else []
   | _ => []) ++
  (match i with
   | .l (.waitk k _) => if k = 15 then [4] else []
   | _ => []) ++
  (match i with
   | .u (.accld _ _ _ n) | .u (.accst _ _ _ n) | .u (.accz _ n) => if n.toNat / 16 = 1 && n.toNat % 2 = 1 then [5] else []
   | _ => if (u.src ++ u.dst).all aligned then [] else [5]) ++
  (if (u.psrc ++ u.pdst).any (fun p => 48 ≤ p.toNat) then [6] else []) ++
  (if i.outOfRange then [10] else [])

/-- A word whose fields break no rule of R55 that the word alone decides. -/
abbrev Code.wf (i : Code) : Prop := staticCauses i = []

/-- An instruction is well formed when its word is; a step of the device has no word. -/
abbrev Instr.wf (i : Instr) : Prop := (match i.code with | some c => staticCauses c | none => []) = []

/-- Instructions that are steps of the device and have no word (95). -/
def Instr.isEvent (i : Instr) : Bool := i.code.isNone

end Sys2Proof
end

