-- ==== Sys2Proof/Decode.lean ====
section
/-! DEFINITION. Decoding, total on any bytes, and the encoder, both from the encoding tables of R38-R54
(spec/opcode_table.json); then the causes of R55 a word meets. -/

namespace Sys2Proof

/-- The field of `n` bits from bit `lo` of a word (R6). -/
def fld (w : Word) (lo n : Nat) : BitVec n := w.extractLsb' lo n

/-- What a word's major and fn select: an instruction with its fields, or no instruction, with the cause of R55. -/
inductive Raw where
  | instr (i : Code)
  | illegal (cause : Nat)
  deriving DecidableEq, Repr

/-- L-set major 0x00 (R52). -/
def decodeL00 (w : Word) : Raw :=
  let u := fld w 30 1 = 1
  match (fld w 21 4).toNat with
  | 0 => .instr (.l (.iadd u (fld w 14 7) (fld w 7 7) (fld w 0 7)))
  | 1 => .instr (.l (.isub u (fld w 14 7) (fld w 7 7) (fld w 0 7)))
  | 2 => .instr (.l (.imul u (fld w 14 7) (fld w 7 7) (fld w 0 7)))
  | 3 => .instr (.l (.imulh u (fld w 14 7) (fld w 7 7) (fld w 0 7)))
  | 4 => .instr (.l (.imulhz u (fld w 14 7) (fld w 7 7) (fld w 0 7)))
  | 5 => .instr (.l (.imin u (fld w 14 7) (fld w 7 7) (fld w 0 7)))
  | 6 => .instr (.l (.imax u (fld w 14 7) (fld w 7 7) (fld w 0 7)))
  | 7 => .instr (.l (.iminz u (fld w 14 7) (fld w 7 7) (fld w 0 7)))
  | 8 => .instr (.l (.imaxz u (fld w 14 7) (fld w 7 7) (fld w 0 7)))
  | 9 => .instr (.l (.iabs u (fld w 14 7) (fld w 7 7)))
  | 10 => .instr (.l (.and u (fld w 14 7) (fld w 7 7) (fld w 0 7)))
  | 11 => .instr (.l (.or u (fld w 14 7) (fld w 7 7) (fld w 0 7)))
  | 12 => .instr (.l (.xor u (fld w 14 7) (fld w 7 7) (fld w 0 7)))
  | 13 => .instr (.l (.andn u (fld w 14 7) (fld w 7 7) (fld w 0 7)))
  | _ => .illegal 2

/-- L-set major 0x01 (R52). -/
def decodeL01 (w : Word) : Raw :=
  let u := fld w 30 1 = 1
  match (fld w 21 4).toNat with
  | 0 => .instr (.l (.shl u (fld w 14 7) (fld w 7 7) (fld w 0 7)))
  | 1 => .instr (.l (.shr u (fld w 14 7) (fld w 7 7) (fld w 0 7)))
  | 2 => .instr (.l (.sar u (fld w 14 7) (fld w 7 7) (fld w 0 7)))
  | 3 => .instr (.l (.rotl u (fld w 14 7) (fld w 7 7) (fld w 0 7)))
  | 4 => .instr (.l (.popc u (fld w 14 7) (fld w 7 7)))
  | 5 => .instr (.l (.clz u (fld w 14 7) (fld w 7 7)))
  | 6 => .instr (.l (.ctz u (fld w 14 7) (fld w 7 7)))
  | 7 => .instr (.l (.brev u (fld w 14 7) (fld w 7 7)))
  | 8 => .instr (.l (.bswap u (fld w 14 7) (fld w 7 7)))
  | 9 => .instr (.l (.imad u (fld w 14 7) (fld w 7 7) (fld w 0 7)))
  | 10 => .instr (.l (.bfx u (fld w 14 7) (fld w 7 7) (fld w 0 7)))
  | 11 => .instr (.l (.bfi u (fld w 14 7) (fld w 7 7) (fld w 0 7)))
  | 12 => .instr (.l (.iadd64 u (fld w 14 7) (fld w 7 7) (fld w 0 7)))
  | 13 => .instr (.l (.isub64 u (fld w 14 7) (fld w 7 7) (fld w 0 7)))
  | 14 => .instr (.l (.imulw u (fld w 14 7) (fld w 7 7) (fld w 0 7)))
  | _ => .instr (.l (.mov u (fld w 14 7) (fld w 7 7)))

/-- L-set major 0x02 (R52). -/
def decodeL02 (w : Word) : Raw :=
  let u := fld w 30 1 = 1
  .instr (.l (.iaddi u (fld w 18 7) (fld w 11 7) (fld w 0 11)))

/-- L-set major 0x03 (R52). -/
def decodeL03 (w : Word) : Raw :=
  let u := fld w 30 1 = 1
  .instr (.l (.andi u (fld w 18 7) (fld w 11 7) (fld w 0 11)))

/-- L-set major 0x04 (R52). -/
def decodeL04 (w : Word) : Raw :=
  let u := fld w 30 1 = 1
  .instr (.l (.ori u (fld w 18 7) (fld w 11 7) (fld w 0 11)))

/-- L-set major 0x05 (R52). -/
def decodeL05 (w : Word) : Raw :=
  let u := fld w 30 1 = 1
  .instr (.l (.xori u (fld w 18 7) (fld w 11 7) (fld w 0 11)))

/-- L-set major 0x06 (R52). -/
def decodeL06 (w : Word) : Raw :=
  let u := fld w 30 1 = 1
  match (fld w 5 2).toNat with
  | 0 => .instr (.l (.shli u (fld w 18 7) (fld w 11 7) (fld w 0 5)))
  | 1 => .instr (.l (.shri u (fld w 18 7) (fld w 11 7) (fld w 0 5)))
  | 2 => .instr (.l (.sari u (fld w 18 7) (fld w 11 7) (fld w 0 5)))
  | _ => .instr (.l (.rotli u (fld w 18 7) (fld w 11 7) (fld w 0 5)))

/-- L-set major 0x07 (R52). -/
def decodeL07 (w : Word) : Raw :=
  let u := fld w 30 1 = 1
  .instr (.l (.movi u (fld w 18 7) (fld w 0 18)))

/-- L-set major 0x08 (R52). -/
def decodeL08 (w : Word) : Raw :=
  let u := fld w 30 1 = 1
  .instr (.l (.icmp u (fld w 21 4) (fld w 15 6) (fld w 8 7) (fld w 1 7) (fld w 0 1)))

/-- L-set major 0x09 (R52). -/
def decodeL09 (w : Word) : Raw :=
  let u := fld w 30 1 = 1
  if fld w 24 1 = 0 then .instr (.l (.fcmp u (fld w 21 3) (fld w 15 6) (fld w 8 7) (fld w 1 7) (fld w 0 1)))
  else .instr (.l (.dcmp u (fld w 21 3) (fld w 15 6) (fld w 8 7) (fld w 1 7) (fld w 0 1)))

/-- L-set major 0x0A (R52). -/
def decodeL0A (w : Word) : Raw :=
  let u := fld w 30 1 = 1
  match (fld w 21 4).toNat with
  | 0 => .instr (.l (.sel u (fld w 14 7) (fld w 7 7) (fld w 1 6)))
  | 1 => .instr (.l (.pset u (fld w 7 7) (fld w 1 6)))
  | 2 => .instr (.l (.ptest u (fld w 14 7) (fld w 1 6)))
  | _ => .illegal 2

/-- L-set major 0x0B (R52). -/
def decodeL0B (w : Word) : Raw :=
  let u := fld w 30 1 = 1
  match (fld w 21 4).toNat with
  | 0 => .instr (.l (.pand u (fld w 15 6) (fld w 9 6) (fld w 3 6)))
  | 1 => .instr (.l (.por u (fld w 15 6) (fld w 9 6) (fld w 3 6)))
  | 2 => .instr (.l (.pxor u (fld w 15 6) (fld w 9 6) (fld w 3 6)))
  | 3 => .instr (.l (.pandn u (fld w 15 6) (fld w 9 6) (fld w 3 6)))
  | 4 => .instr (.l (.pnot u (fld w 15 6) (fld w 9 6)))
  | 5 => .instr (.l (.pmov u (fld w 15 6) (fld w 9 6)))
  | _ => .illegal 2

/-- L-set major 0x0C (R52). -/
def decodeL0C (w : Word) : Raw :=
  let u := fld w 30 1 = 1
  match (fld w 21 4).toNat with
  | 0 => .instr (.l (.fadd u (fld w 14 7) (fld w 7 7) (fld w 0 7)))
  | 1 => .instr (.l (.fsub u (fld w 14 7) (fld w 7 7) (fld w 0 7)))
  | 2 => .instr (.l (.fmul u (fld w 14 7) (fld w 7 7) (fld w 0 7)))
  | 3 => .instr (.l (.ffma u (fld w 14 7) (fld w 7 7) (fld w 0 7)))
  | 4 => .instr (.l (.ffms u (fld w 14 7) (fld w 7 7) (fld w 0 7)))
  | 5 => .instr (.l (.fmin u (fld w 14 7) (fld w 7 7) (fld w 0 7)))
  | 6 => .instr (.l (.fmax u (fld w 14 7) (fld w 7 7) (fld w 0 7)))
  | 7 => .instr (.l (.fabs u (fld w 14 7) (fld w 7 7)))
  | 8 => .instr (.l (.fneg u (fld w 14 7) (fld w 7 7)))
  | 9 => .instr (.l (.fcps u (fld w 14 7) (fld w 7 7) (fld w 0 7)))
  | 10 => .instr (.l (.frnd u (fld w 14 7) (fld w 7 7) (fld w 4 3)))
  | 11 => .instr (.l (.fclass u (fld w 14 7) (fld w 7 7)))
  | _ => .illegal 2

/-- L-set major 0x0D (R52). -/
def decodeL0D (w : Word) : Raw :=
  let u := fld w 30 1 = 1
  match (fld w 21 4).toNat with
  | 0 => .instr (.l (.dadd u (fld w 14 7) (fld w 7 7) (fld w 0 7)))
  | 1 => .instr (.l (.dsub u (fld w 14 7) (fld w 7 7) (fld w 0 7)))
  | 2 => .instr (.l (.dmul u (fld w 14 7) (fld w 7 7) (fld w 0 7)))
  | 3 => .instr (.l (.dfma u (fld w 14 7) (fld w 7 7) (fld w 0 7)))
  | 4 => .instr (.l (.dfms u (fld w 14 7) (fld w 7 7) (fld w 0 7)))
  | 5 => .instr (.l (.dmin u (fld w 14 7) (fld w 7 7) (fld w 0 7)))
  | 6 => .instr (.l (.dmax u (fld w 14 7) (fld w 7 7) (fld w 0 7)))
  | 7 => .instr (.l (.dabs u (fld w 14 7) (fld w 7 7)))
  | 8 => .instr (.l (.dneg u (fld w 14 7) (fld w 7 7)))
  | 9 => .instr (.l (.drnd u (fld w 14 7) (fld w 7 7) (fld w 4 3)))
  | 10 => .instr (.l (.dclass u (fld w 14 7) (fld w 7 7)))
  | _ => .illegal 2

/-- L-set major 0x0E (R52). -/
def decodeL0E (w : Word) : Raw :=
  let u := fld w 30 1 = 1
  match (fld w 21 4).toNat with
  | 0 => .instr (.l (.hadd2 u (fld w 14 7) (fld w 7 7) (fld w 0 7)))
  | 1 => .instr (.l (.hmul2 u (fld w 14 7) (fld w 7 7) (fld w 0 7)))
  | 2 => .instr (.l (.hfma2 u (fld w 14 7) (fld w 7 7) (fld w 0 7)))
  | 3 => .instr (.l (.hmin2 u (fld w 14 7) (fld w 7 7) (fld w 0 7)))
  | 4 => .instr (.l (.hmax2 u (fld w 14 7) (fld w 7 7) (fld w 0 7)))
  | 5 => .instr (.l (.badd2 u (fld w 14 7) (fld w 7 7) (fld w 0 7)))
  | 6 => .instr (.l (.bmul2 u (fld w 14 7) (fld w 7 7) (fld w 0 7)))
  | 7 => .instr (.l (.bfma2 u (fld w 14 7) (fld w 7 7) (fld w 0 7)))
  | 8 => .instr (.l (.bmin2 u (fld w 14 7) (fld w 7 7) (fld w 0 7)))
  | 9 => .instr (.l (.bmax2 u (fld w 14 7) (fld w 7 7) (fld w 0 7)))
  | _ => .illegal 2

/-- L-set major 0x0F (R52). -/
def decodeL0F (w : Word) : Raw :=
  let u := fld w 30 1 = 1
  match (fld w 21 4).toNat with
  | 0 => .instr (.l (.frcp u (fld w 14 7) (fld w 7 7) (fld w 3 4)))
  | 1 => .instr (.l (.frsq u (fld w 14 7) (fld w 7 7) (fld w 3 4)))
  | 2 => .instr (.l (.fsqrt u (fld w 14 7) (fld w 7 7) (fld w 3 4)))
  | 3 => .instr (.l (.fexp2 u (fld w 14 7) (fld w 7 7) (fld w 3 4)))
  | 4 => .instr (.l (.flog2 u (fld w 14 7) (fld w 7 7) (fld w 3 4)))
  | 5 => .instr (.l (.fsinp u (fld w 14 7) (fld w 7 7) (fld w 3 4)))
  | 6 => .instr (.l (.fcosp u (fld w 14 7) (fld w 7 7) (fld w 3 4)))
  | 7 => .instr (.l (.drcp u (fld w 14 7) (fld w 7 7) (fld w 3 4)))
  | 8 => .instr (.l (.drsq u (fld w 14 7) (fld w 7 7) (fld w 3 4)))
  | 9 => .instr (.l (.dsqrt u (fld w 14 7) (fld w 7 7) (fld w 3 4)))
  | _ => .illegal 2

/-- L-set major 0x10 (R52). -/
def decodeL10 (w : Word) : Raw :=
  let u := fld w 30 1 = 1
  .instr (.l (.cvt u (fld w 21 4) (fld w 14 7) (fld w 7 7) (fld w 4 3) (fld w 0 4)))

/-- L-set major 0x11 (R52). -/
def decodeL11 (w : Word) : Raw :=
  let u := fld w 30 1 = 1
  match (fld w 21 4).toNat with
  | 0 => .instr (.l (.ldlB32 (fld w 14 7) (fld w 7 7) (fld w 3 4) (fld w 0 3)))
  | 1 => .instr (.l (.ldlB64 (fld w 14 7) (fld w 7 7) (fld w 3 4) (fld w 0 3)))
  | 2 => .instr (.l (.stlB32 (fld w 14 7) (fld w 7 7) (fld w 3 4) (fld w 0 3)))
  | 3 => .instr (.l (.stlB64 (fld w 14 7) (fld w 7 7) (fld w 3 4) (fld w 0 3)))
  | 4 => .instr (.l (.ldsS8 u (fld w 14 7) (fld w 7 7) (fld w 3 4) (fld w 0 3)))
  | 5 => .instr (.l (.ldsZ8 u (fld w 14 7) (fld w 7 7) (fld w 3 4) (fld w 0 3)))
  | 6 => .instr (.l (.ldsS16 u (fld w 14 7) (fld w 7 7) (fld w 3 4) (fld w 0 3)))
  | 7 => .instr (.l (.ldsZ16 u (fld w 14 7) (fld w 7 7) (fld w 3 4) (fld w 0 3)))
  | 8 => .instr (.l (.ldsB32 u (fld w 14 7) (fld w 7 7) (fld w 3 4) (fld w 0 3)))
  | 9 => .instr (.l (.ldsB64 u (fld w 14 7) (fld w 7 7) (fld w 3 4) (fld w 0 3)))
  | 10 => .instr (.l (.ldsB128 u (fld w 14 7) (fld w 7 7) (fld w 3 4) (fld w 0 3)))
  | 11 => .instr (.l (.stsB8 (fld w 14 7) (fld w 7 7) (fld w 3 4) (fld w 0 3)))
  | 12 => .instr (.l (.stsB16 (fld w 14 7) (fld w 7 7) (fld w 3 4) (fld w 0 3)))
  | 13 => .instr (.l (.stsB32 (fld w 14 7) (fld w 7 7) (fld w 3 4) (fld w 0 3)))
  | 14 => .instr (.l (.stsB64 (fld w 14 7) (fld w 7 7) (fld w 3 4) (fld w 0 3)))
  | _ => .instr (.l (.stsB128 (fld w 14 7) (fld w 7 7) (fld w 3 4) (fld w 0 3)))

/-- L-set major 0x12 (R52). -/
def decodeL12 (w : Word) : Raw :=
  let u := fld w 30 1 = 1
  match (fld w 21 4).toNat with
  | 0 => .instr (.l (.ldcB32 u (fld w 14 7) (fld w 7 7) (fld w 3 4) (fld w 0 3)))
  | 1 => .instr (.l (.ldcB64 u (fld w 14 7) (fld w 7 7) (fld w 3 4) (fld w 0 3)))
  | 2 => .instr (.l (.ldcB128 u (fld w 14 7) (fld w 7 7) (fld w 3 4) (fld w 0 3)))
  | 3 => .instr (.l (.stcB32 (fld w 14 7) (fld w 7 7) (fld w 3 4) (fld w 0 3)))
  | 4 => .instr (.l (.stcB64 (fld w 14 7) (fld w 7 7) (fld w 3 4) (fld w 0 3)))
  | 5 => .instr (.l (.stcB128 (fld w 14 7) (fld w 7 7) (fld w 3 4) (fld w 0 3)))
  | 6 => .instr (.l (.ldcAcqB32 (fld w 14 7) (fld w 7 7) (fld w 3 4) (fld w 0 3)))
  | 7 => .instr (.l (.ldcAcqB64 (fld w 14 7) (fld w 7 7) (fld w 3 4) (fld w 0 3)))
  | 8 => .instr (.l (.stcRelB32 (fld w 14 7) (fld w 7 7) (fld w 3 4) (fld w 0 3)))
  | 9 => .instr (.l (.stcRelB64 (fld w 14 7) (fld w 7 7) (fld w 3 4) (fld w 0 3)))
  | 10 => .instr (.l (.prs (fld w 14 7) (fld w 7 7) (fld w 3 4) (fld w 0 3)))
  | _ => .illegal 2

/-- L-set major 0x13 (R52). -/
def decodeL13 (w : Word) : Raw :=
  match (fld w 21 4).toNat with
  | 0 => .instr (.l (.atomsAdd (fld w 14 7) (fld w 7 7) (fld w 3 4) (fld w 0 3)))
  | 1 => .instr (.l (.atomsMin (fld w 14 7) (fld w 7 7) (fld w 3 4) (fld w 0 3)))
  | 2 => .instr (.l (.atomsMax (fld w 14 7) (fld w 7 7) (fld w 3 4) (fld w 0 3)))
  | 3 => .instr (.l (.atomsMinz (fld w 14 7) (fld w 7 7) (fld w 3 4) (fld w 0 3)))
  | 4 => .instr (.l (.atomsMaxz (fld w 14 7) (fld w 7 7) (fld w 3 4) (fld w 0 3)))
  | 5 => .instr (.l (.atomsAnd (fld w 14 7) (fld w 7 7) (fld w 3 4) (fld w 0 3)))
  | 6 => .instr (.l (.atomsOr (fld w 14 7) (fld w 7 7) (fld w 3 4) (fld w 0 3)))
  | 7 => .instr (.l (.atomsXor (fld w 14 7) (fld w 7 7) (fld w 3 4) (fld w 0 3)))
  | 8 => .instr (.l (.atomsXchg (fld w 14 7) (fld w 7 7) (fld w 3 4) (fld w 0 3)))
  | 9 => .instr (.l (.atomsCas (fld w 14 7) (fld w 7 7) (fld w 3 4) (fld w 0 3)))
  | 10 => .instr (.l (.atomsFadd (fld w 14 7) (fld w 7 7) (fld w 3 4) (fld w 0 3)))
  | 11 => .instr (.l (.atomsAdd64 (fld w 14 7) (fld w 7 7) (fld w 3 4) (fld w 0 3)))
  | _ => .illegal 2

/-- L-set major 0x14 (R52). -/
def decodeL14 (w : Word) : Raw :=
  match (fld w 21 4).toNat with
  | 0 => .instr (.l (.atomcAdd (fld w 14 7) (fld w 7 7) (fld w 3 4) (fld w 0 3)))
  | 1 => .instr (.l (.atomcMin (fld w 14 7) (fld w 7 7) (fld w 3 4) (fld w 0 3)))
  | 2 => .instr (.l (.atomcMax (fld w 14 7) (fld w 7 7) (fld w 3 4) (fld w 0 3)))
  | 3 => .instr (.l (.atomcMinz (fld w 14 7) (fld w 7 7) (fld w 3 4) (fld w 0 3)))
  | 4 => .instr (.l (.atomcMaxz (fld w 14 7) (fld w 7 7) (fld w 3 4) (fld w 0 3)))
  | 5 => .instr (.l (.atomcAnd (fld w 14 7) (fld w 7 7) (fld w 3 4) (fld w 0 3)))
  | 6 => .instr (.l (.atomcOr (fld w 14 7) (fld w 7 7) (fld w 3 4) (fld w 0 3)))
  | 7 => .instr (.l (.atomcXor (fld w 14 7) (fld w 7 7) (fld w 3 4) (fld w 0 3)))
  | 8 => .instr (.l (.atomcXchg (fld w 14 7) (fld w 7 7) (fld w 3 4) (fld w 0 3)))
  | 9 => .instr (.l (.atomcCas (fld w 14 7) (fld w 7 7) (fld w 3 4) (fld w 0 3)))
  | 10 => .instr (.l (.atomcFadd (fld w 14 7) (fld w 7 7) (fld w 3 4) (fld w 0 3)))
  | 11 => .instr (.l (.atomcDadd (fld w 14 7) (fld w 7 7) (fld w 3 4) (fld w 0 3)))
  | 12 => .instr (.l (.atomcAdd64 (fld w 14 7) (fld w 7 7) (fld w 3 4) (fld w 0 3)))
  | 13 => .instr (.l (.atomcMaxloc (fld w 14 7) (fld w 7 7) (fld w 3 4) (fld w 0 3)))
  | 14 => .instr (.l (.atomcMinloc (fld w 14 7) (fld w 7 7) (fld w 3 4) (fld w 0 3)))
  | _ => .illegal 2

/-- L-set major 0x15 (R52). -/
def decodeL15 (w : Word) : Raw :=
  match (fld w 21 4).toNat with
  | 0 => .instr (.l (.gathB32 (fld w 14 7) (fld w 7 7) (fld w 3 4) (fld w 0 1)))
  | 1 => .instr (.l (.gathB64 (fld w 14 7) (fld w 7 7) (fld w 3 4) (fld w 0 1)))
  | 2 => .instr (.l (.scatB32 (fld w 14 7) (fld w 7 7) (fld w 3 4)))
  | 3 => .instr (.l (.scatB64 (fld w 14 7) (fld w 7 7) (fld w 3 4)))
  | _ => .illegal 2

/-- L-set major 0x16 (R52). -/
def decodeL16 (w : Word) : Raw :=
  match (fld w 21 4).toNat with
  | 0 => .instr (.l (.xchPick (fld w 14 7) (fld w 7 7) (fld w 3 4)))
  | 1 => .instr (.l (.xchMove (fld w 14 7) (fld w 7 7) (fld w 3 4) (fld w 0 3)))
  | 2 => .instr (.l (.xchFlip (fld w 14 7) (fld w 7 7) (fld w 3 4) (fld w 0 3)))
  | 3 => .instr (.l (.xchEdge (fld w 14 7) (fld w 7 7) (fld w 3 4) (fld w 0 3)))
  | 4 => .instr (.l (.qryCnt (fld w 14 7) (fld w 7 7) (fld w 3 4)))
  | 5 => .instr (.l (.qryEvery (fld w 14 7) (fld w 7 7) (fld w 3 4)))
  | 6 => .instr (.l (.qryBits (fld w 14 7) (fld w 7 7) (fld w 3 4) (fld w 0 3)))
  | 7 => .instr (.l (.redIadd (fld w 14 7) (fld w 7 7) (fld w 3 4)))
  | 8 => .instr (.l (.redImin (fld w 14 7) (fld w 7 7) (fld w 3 4)))
  | 9 => .instr (.l (.redImax (fld w 14 7) (fld w 7 7) (fld w 3 4)))
  | 10 => .instr (.l (.redFadd (fld w 14 7) (fld w 7 7) (fld w 3 4)))
  | 11 => .instr (.l (.redFmin (fld w 14 7) (fld w 7 7) (fld w 3 4)))
  | 12 => .instr (.l (.redFmax (fld w 14 7) (fld w 7 7) (fld w 3 4)))
  | 13 => .instr (.l (.scanIadd (fld w 14 7) (fld w 7 7) (fld w 3 4) (fld w 0 3)))
  | 14 => .instr (.l (.scanFadd (fld w 14 7) (fld w 7 7) (fld w 3 4) (fld w 0 3)))
  | _ => .instr (.l (.maxloc (fld w 14 7) (fld w 7 7) (fld w 3 4) (fld w 0 3)))

/-- L-set major 0x17 (R52). -/
def decodeL17 (w : Word) : Raw :=
  match (fld w 21 4).toNat with
  | 0 => .instr (.l (.segredIadd (fld w 14 7) (fld w 7 7) (fld w 3 4)))
  | 1 => .instr (.l (.segredFadd (fld w 14 7) (fld w 7 7) (fld w 3 4)))
  | 2 => .instr (.l (.segscanFadd (fld w 14 7) (fld w 7 7) (fld w 3 4)))
  | 3 => .instr (.l (.matchLanes (fld w 14 7) (fld w 7 7) (fld w 3 4) (fld w 0 3)))
  | 4 => .instr (.l (.compact (fld w 14 7) (fld w 7 7) (fld w 3 4) (fld w 0 3)))
  | 5 => .instr (.l (.lsort (fld w 14 7) (fld w 7 7) (fld w 3 4) (fld w 0 3)))
  | _ => .illegal 2

/-- L-set major 0x18 (R52). -/
def decodeL18 (w : Word) : Raw :=
  .instr (.l (.bra (fld w 19 6) (fld w 18 1) (fld w 14 4) (fld w 0 14)))

/-- L-set major 0x19 (R52). -/
def decodeL19 (w : Word) : Raw :=
  match (fld w 21 4).toNat with
  | 0 => .instr (.l (.rjm (fld w 17 4)))
  | 1 => .instr (.l (.rjadd (fld w 17 4)))
  | 2 => .instr (.l (.join (fld w 17 4)))
  | 3 => .instr (.l .exit)
  | 4 => .instr (.l (.exits (fld w 15 6) (fld w 7 8)))
  | 5 => .instr (.l (.regroup (fld w 15 6) (fld w 10 5)))
  | 6 => .instr (.l .yield)
  | 7 => .instr (.l (.dly (fld w 0 5)))
  | 8 => .instr (.l (.waitk (fld w 17 4) (fld w 13 4)))
  | 9 => .instr (.l (.guard (fld w 15 6) (fld w 14 1)))
  | 10 => .instr (.l .bkpt)
  | 11 => .instr (.l (.trap (fld w 0 16)))
  | 12 => .instr (.l .nop)
  | _ => .illegal 2

/-- L-set major 0x1A (R52). -/
def decodeL1A (w : Word) : Raw :=
  .instr (.l (.kacc (fld w 18 7) (fld w 11 7) (fld w 4 7) (fld w 0 4)))

/-- L-set major 0x1B (R52). -/
def decodeL1B (w : Word) : Raw :=
  .instr (.l (.kfind (fld w 18 7) (fld w 11 7) (fld w 4 7) (fld w 0 4)))

/-- L-set major 0x1C (R52). -/
def decodeL1C (w : Word) : Raw :=
  match (fld w 21 4).toNat with
  | 0 => .instr (.l (.rngB32 (fld w 14 7) (fld w 3 4)))
  | 1 => .instr (.l (.rngF32 (fld w 14 7) (fld w 3 4)))
  | 2 => .instr (.l (.rdspec (fld w 14 7) (fld w 7 7) (fld w 3 4)))
  | 3 => .instr (.l (.cycle (fld w 14 7) (fld w 3 4)))
  | _ => .illegal 2

/-- L-set major 0x1D (R52). -/
def decodeL1D (w : Word) : Raw :=
  .instr (.l (.mxgo (fld w 18 7) (fld w 12 6) (fld w 8 4)))

/-- U-set major 0x00 (R54). -/
def decodeU00 (w : Word) : Raw :=
  match (fld w 21 4).toNat with
  | 0 => .instr (.u (.sadd (fld w 15 6) (fld w 9 6) (fld w 3 6)))
  | 1 => .instr (.u (.ssub (fld w 15 6) (fld w 9 6) (fld w 3 6)))
  | 2 => .instr (.u (.smul (fld w 15 6) (fld w 9 6) (fld w 3 6)))
  | 3 => .instr (.u (.smulh (fld w 15 6) (fld w 9 6) (fld w 3 6)))
  | 4 => .instr (.u (.sand (fld w 15 6) (fld w 9 6) (fld w 3 6)))
  | 5 => .instr (.u (.sor (fld w 15 6) (fld w 9 6) (fld w 3 6)))
  | 6 => .instr (.u (.sxor (fld w 15 6) (fld w 9 6) (fld w 3 6)))
  | 7 => .instr (.u (.sandn (fld w 15 6) (fld w 9 6) (fld w 3 6)))
  | 8 => .instr (.u (.sshl (fld w 15 6) (fld w 9 6) (fld w 3 6)))
  | 9 => .instr (.u (.sshr (fld w 15 6) (fld w 9 6) (fld w 3 6)))
  | 10 => .instr (.u (.ssar (fld w 15 6) (fld w 9 6) (fld w 3 6)))
  | 11 => .instr (.u (.smin (fld w 15 6) (fld w 9 6) (fld w 3 6)))
  | 12 => .instr (.u (.smax (fld w 15 6) (fld w 9 6) (fld w 3 6)))
  | 13 => .instr (.u (.sminz (fld w 15 6) (fld w 9 6) (fld w 3 6)))
  | 14 => .instr (.u (.smaxz (fld w 15 6) (fld w 9 6) (fld w 3 6)))
  | _ => .instr (.u (.smov (fld w 15 6) (fld w 9 6)))

/-- U-set major 0x01 (R54). -/
def decodeU01 (w : Word) : Raw :=
  .instr (.u (.saddi (fld w 19 6) (fld w 13 6) (fld w 0 13)))

/-- U-set major 0x02 (R54). -/
def decodeU02 (w : Word) : Raw :=
  .instr (.u (.sandi (fld w 19 6) (fld w 13 6) (fld w 0 13)))

/-- U-set major 0x03 (R54). -/
def decodeU03 (w : Word) : Raw :=
  .instr (.u (.sori (fld w 19 6) (fld w 13 6) (fld w 0 13)))

/-- U-set major 0x04 (R54). -/
def decodeU04 (w : Word) : Raw :=
  match (fld w 6 2).toNat with
  | 0 => .instr (.u (.sshli (fld w 19 6) (fld w 13 6) (fld w 0 6)))
  | 1 => .instr (.u (.sshri (fld w 19 6) (fld w 13 6) (fld w 0 6)))
  | 2 => .instr (.u (.ssari (fld w 19 6) (fld w 13 6) (fld w 0 6)))
  | _ => .illegal (if fld w 8 5 = 0 then 10 else 3)

/-- U-set major 0x05 (R54). -/
def decodeU05 (w : Word) : Raw :=
  .instr (.u (.smovi (fld w 19 6) (fld w 0 19)))

/-- U-set major 0x06 (R54). -/
def decodeU06 (w : Word) : Raw :=
  .instr (.u (.scmp (fld w 21 4) (fld w 15 6) (fld w 9 6) (fld w 3 6)))

/-- U-set major 0x07 (R54). -/
def decodeU07 (w : Word) : Raw :=
  .instr (.u (.sbr (fld w 21 4) (fld w 15 6) (fld w 0 15)))

/-- U-set major 0x08 (R54). -/
def decodeU08 (w : Word) : Raw :=
  .instr (.u (.jmp (fld w 0 25)))

/-- U-set major 0x09 (R54). -/
def decodeU09 (w : Word) : Raw :=
  .instr (.u (.call (fld w 0 25)))

/-- U-set major 0x0A (R54). -/
def decodeU0A (w : Word) : Raw :=
  match (fld w 21 4).toNat with
  | 0 => .instr (.u (.ret (fld w 9 6)))
  | _ => .illegal 2

/-- U-set major 0x0B (R54). -/
def decodeU0B (w : Word) : Raw :=
  .instr (.u (.pfx (fld w 0 25)))

/-- U-set major 0x0C (R54). -/
def decodeU0C (w : Word) : Raw :=
  match (fld w 21 4).toNat with
  | 0 => .instr (.u (.vbcast (fld w 14 7) (fld w 8 6) (fld w 0 8)))
  | 1 => .instr (.u (.vread (fld w 14 7) (fld w 8 6) (fld w 0 8)))
  | 2 => .instr (.u (.mread (fld w 8 6) (fld w 0 8)))
  | 3 => .instr (.u (.mwrite (fld w 8 6) (fld w 0 8)))
  | 4 => .instr (.u (.pread (fld w 8 6) (fld w 0 8)))
  | 5 => .instr (.u (.kread (fld w 8 6) (fld w 0 8)))
  | _ => .illegal 2

/-- U-set major 0x0D (R54). -/
def decodeU0D (w : Word) : Raw :=
  match (fld w 21 4).toNat with
  | 0 => .instr (.u (.sldB32 (fld w 15 6) (fld w 9 6) (fld w 5 4) (fld w 0 5)))
  | 1 => .instr (.u (.sldB64 (fld w 15 6) (fld w 9 6) (fld w 5 4) (fld w 0 5)))
  | 2 => .instr (.u (.sstB32 (fld w 15 6) (fld w 9 6) (fld w 5 4) (fld w 0 5)))
  | 3 => .instr (.u (.sstB64 (fld w 15 6) (fld w 9 6) (fld w 5 4) (fld w 0 5)))
  | 4 => .instr (.u (.sldcB64 (fld w 15 6) (fld w 9 6) (fld w 5 4) (fld w 0 5)))
  | 5 => .instr (.u (.sstcB64 (fld w 15 6) (fld w 9 6) (fld w 5 4) (fld w 0 5)))
  | _ => .illegal 2

/-- U-set major 0x0E (R54). -/
def decodeU0E (w : Word) : Raw :=
  match (fld w 21 4).toNat with
  | 0 => .instr (.u (.tld (fld w 15 6) (fld w 9 6) (fld w 5 4) (fld w 0 5)))
  | 1 => .instr (.u (.tst (fld w 15 6) (fld w 9 6) (fld w 5 4) (fld w 0 5)))
  | 2 => .instr (.u (.tzero (fld w 5 4) (fld w 0 5)))
  | 3 => .instr (.u (.accld (fld w 15 6) (fld w 9 6) (fld w 5 4) (fld w 0 5)))
  | 4 => .instr (.u (.accst (fld w 15 6) (fld w 9 6) (fld w 5 4) (fld w 0 5)))
  | 5 => .instr (.u (.accz (fld w 5 4) (fld w 0 5)))
  | 6 => .instr (.u (.movsh (fld w 15 6) (fld w 5 4) (fld w 0 5)))
  | 7 => .instr (.u (.tcvt (fld w 15 6) (fld w 5 4) (fld w 0 5)))
  | 8 => .instr (.u (.tspk (fld w 15 6) (fld w 5 4) (fld w 0 5)))
  | 9 => .instr (.u (.tqld (fld w 15 6) (fld w 5 4) (fld w 0 5)))
  | _ => .illegal 2

/-- U-set major 0x0F (R54). -/
def decodeU0F (w : Word) : Raw :=
  match (fld w 21 4).toNat with
  | 0 => .instr (.u (.cpyIn (fld w 15 6) (fld w 9 6) (fld w 5 4)))
  | 1 => .instr (.u (.cpyOut (fld w 15 6) (fld w 9 6) (fld w 5 4)))
  | 2 => .instr (.u (.cpyCc (fld w 15 6) (fld w 9 6) (fld w 5 4)))
  | 3 => .instr (.u (.cupop (fld w 15 6) (fld w 9 6) (fld w 5 4) (fld w 0 5)))
  | 4 => if fld w 0 5 = 1 then .instr (.u (.kcfgStream (fld w 9 6) (fld w 5 4))) else .instr (.u (.kcfg (fld w 15 6) (fld w 9 6) (fld w 5 4)))
  | 5 => .instr (.u (.kdrain (fld w 15 6) (fld w 9 6) (fld w 5 4) (fld w 0 5)))
  | 6 => .instr (.u (.kclr (fld w 5 4)))
  | 7 => .instr (.u (.kstat (fld w 15 6) (fld w 5 4) (fld w 0 5)))
  | _ => .illegal 2

/-- U-set major 0x10 (R54). -/
def decodeU10 (w : Word) : Raw :=
  match (fld w 21 4).toNat with
  | 0 => .instr (.u (.post (fld w 15 6) (fld w 9 6) (fld w 5 4) (fld w 0 5)))
  | 1 => .instr (.u (.arrive (fld w 15 6) (fld w 9 6) (fld w 5 4)))
  | 2 => .instr (.u (.append (fld w 15 6) (fld w 9 6) (fld w 5 4) (fld w 0 5)))
  | 3 => .instr (.u (.seal (fld w 15 6) (fld w 5 4)))
  | 4 => .instr (.u (.waitbm (fld w 15 6) (fld w 9 6)))
  | 5 => .instr (.u .tbar)
  | 6 => .instr (.u .pbar)
  | 7 => .instr (.u (.dqpush (fld w 15 6) (fld w 5 4)))
  | 8 => .instr (.u (.dqpop (fld w 15 6) (fld w 5 4)))
  | _ => .illegal 2

/-- U-set major 0x11 (R54). -/
def decodeU11 (w : Word) : Raw :=
  match (fld w 21 4).toNat with
  | 0 => .instr (.u (.getc (fld w 15 6) (fld w 3 6)))
  | 1 => .instr (.u (.setc (fld w 15 6) (fld w 9 6)))
  | 2 => .instr (.u .eret)
  | 3 => .instr (.u (.fence (fld w 15 6)))
  | 4 => .instr (.u .synce)
  | _ => .illegal 2

/-- The instruction a word selects by its set, major and fn (R38, R52-R54). -/
def rawDecode (w : Word) : Raw :=
  if fld w 31 1 = 0 then
    match (fld w 25 5).toNat with
    | 0 => decodeL00 w
    | 1 => decodeL01 w
    | 2 => decodeL02 w
    | 3 => decodeL03 w
    | 4 => decodeL04 w
    | 5 => decodeL05 w
    | 6 => decodeL06 w
    | 7 => decodeL07 w
    | 8 => decodeL08 w
    | 9 => decodeL09 w
    | 10 => decodeL0A w
    | 11 => decodeL0B w
    | 12 => decodeL0C w
    | 13 => decodeL0D w
    | 14 => decodeL0E w
    | 15 => decodeL0F w
    | 16 => decodeL10 w
    | 17 => decodeL11 w
    | 18 => decodeL12 w
    | 19 => decodeL13 w
    | 20 => decodeL14 w
    | 21 => decodeL15 w
    | 22 => decodeL16 w
    | 23 => decodeL17 w
    | 24 => decodeL18 w
    | 25 => decodeL19 w
    | 26 => decodeL1A w
    | 27 => decodeL1B w
    | 28 => decodeL1C w
    | 29 => decodeL1D w
    | _ => .illegal 1
  else
    match (fld w 25 6).toNat with
    | 0 => decodeU00 w
    | 1 => decodeU01 w
    | 2 => decodeU02 w
    | 3 => decodeU03 w
    | 4 => decodeU04 w
    | 5 => decodeU05 w
    | 6 => decodeU06 w
    | 7 => decodeU07 w
    | 8 => decodeU08 w
    | 9 => decodeU09 w
    | 10 => decodeU0A w
    | 11 => decodeU0B w
    | 12 => decodeU0C w
    | 13 => decodeU0D w
    | 14 => decodeU0E w
    | 15 => decodeU0F w
    | 16 => decodeU10 w
    | 17 => decodeU11 w
    | _ => .illegal 1

/-- The word of an L-set instruction, laid out high field to low (R42). -/
def LInstr.encode : LInstr → Word
  | .iadd u d a b => 0#1 ++ BitVec.ofBool u ++ 0#9 ++ d ++ a ++ b
  | .isub u d a b => 0#1 ++ BitVec.ofBool u ++ 1#9 ++ d ++ a ++ b
  | .imul u d a b => 0#1 ++ BitVec.ofBool u ++ 2#9 ++ d ++ a ++ b
  | .imulh u d a b => 0#1 ++ BitVec.ofBool u ++ 3#9 ++ d ++ a ++ b
  | .imulhz u d a b => 0#1 ++ BitVec.ofBool u ++ 4#9 ++ d ++ a ++ b
  | .imin u d a b => 0#1 ++ BitVec.ofBool u ++ 5#9 ++ d ++ a ++ b
  | .imax u d a b => 0#1 ++ BitVec.ofBool u ++ 6#9 ++ d ++ a ++ b
  | .iminz u d a b => 0#1 ++ BitVec.ofBool u ++ 7#9 ++ d ++ a ++ b
  | .imaxz u d a b => 0#1 ++ BitVec.ofBool u ++ 8#9 ++ d ++ a ++ b
  | .iabs u d a => 0#1 ++ BitVec.ofBool u ++ 9#9 ++ d ++ a ++ 0#7
  | .and u d a b => 0#1 ++ BitVec.ofBool u ++ 10#9 ++ d ++ a ++ b
  | .or u d a b => 0#1 ++ BitVec.ofBool u ++ 11#9 ++ d ++ a ++ b
  | .xor u d a b => 0#1 ++ BitVec.ofBool u ++ 12#9 ++ d ++ a ++ b
  | .andn u d a b => 0#1 ++ BitVec.ofBool u ++ 13#9 ++ d ++ a ++ b
  | .shl u d a b => 0#1 ++ BitVec.ofBool u ++ 16#9 ++ d ++ a ++ b
  | .shr u d a b => 0#1 ++ BitVec.ofBool u ++ 17#9 ++ d ++ a ++ b
  | .sar u d a b => 0#1 ++ BitVec.ofBool u ++ 18#9 ++ d ++ a ++ b
  | .rotl u d a b => 0#1 ++ BitVec.ofBool u ++ 19#9 ++ d ++ a ++ b
  | .popc u d a => 0#1 ++ BitVec.ofBool u ++ 20#9 ++ d ++ a ++ 0#7
  | .clz u d a => 0#1 ++ BitVec.ofBool u ++ 21#9 ++ d ++ a ++ 0#7
  | .ctz u d a => 0#1 ++ BitVec.ofBool u ++ 22#9 ++ d ++ a ++ 0#7
  | .brev u d a => 0#1 ++ BitVec.ofBool u ++ 23#9 ++ d ++ a ++ 0#7
  | .bswap u d a => 0#1 ++ BitVec.ofBool u ++ 24#9 ++ d ++ a ++ 0#7
  | .imad u d a b => 0#1 ++ BitVec.ofBool u ++ 25#9 ++ d ++ a ++ b
  | .bfx u d a b => 0#1 ++ BitVec.ofBool u ++ 26#9 ++ d ++ a ++ b
  | .bfi u d a b => 0#1 ++ BitVec.ofBool u ++ 27#9 ++ d ++ a ++ b
  | .iadd64 u d a b => 0#1 ++ BitVec.ofBool u ++ 28#9 ++ d ++ a ++ b
  | .isub64 u d a b => 0#1 ++ BitVec.ofBool u ++ 29#9 ++ d ++ a ++ b
  | .imulw u d a b => 0#1 ++ BitVec.ofBool u ++ 30#9 ++ d ++ a ++ b
  | .mov u d a => 0#1 ++ BitVec.ofBool u ++ 31#9 ++ d ++ a ++ 0#7
  | .iaddi u d a i => 0#1 ++ BitVec.ofBool u ++ 2#5 ++ d ++ a ++ i
  | .andi u d a i => 0#1 ++ BitVec.ofBool u ++ 3#5 ++ d ++ a ++ i
  | .ori u d a i => 0#1 ++ BitVec.ofBool u ++ 4#5 ++ d ++ a ++ i
  | .xori u d a i => 0#1 ++ BitVec.ofBool u ++ 5#5 ++ d ++ a ++ i
  | .shli u d a n => 0#1 ++ BitVec.ofBool u ++ 6#5 ++ d ++ a ++ 0#6 ++ n
  | .shri u d a n => 0#1 ++ BitVec.ofBool u ++ 6#5 ++ d ++ a ++ 1#6 ++ n
  | .sari u d a n => 0#1 ++ BitVec.ofBool u ++ 6#5 ++ d ++ a ++ 2#6 ++ n
  | .rotli u d a n => 0#1 ++ BitVec.ofBool u ++ 6#5 ++ d ++ a ++ 3#6 ++ n
  | .movi u d i => 0#1 ++ BitVec.ofBool u ++ 7#5 ++ d ++ i
  | .icmp u c p a b n => 0#1 ++ BitVec.ofBool u ++ 8#5 ++ c ++ p ++ a ++ b ++ n
  | .fcmp u c p a b n => 0#1 ++ BitVec.ofBool u ++ 18#6 ++ c ++ p ++ a ++ b ++ n
  | .dcmp u c p a b n => 0#1 ++ BitVec.ofBool u ++ 19#6 ++ c ++ p ++ a ++ b ++ n
  | .sel u d a p => 0#1 ++ BitVec.ofBool u ++ 160#9 ++ d ++ a ++ p ++ 0#1
  | .pset u a p => 0#1 ++ BitVec.ofBool u ++ 20608#16 ++ a ++ p ++ 0#1
  | .ptest u d p => 0#1 ++ BitVec.ofBool u ++ 162#9 ++ d ++ 0#7 ++ p ++ 0#1
  | .pand u p q r => 0#1 ++ BitVec.ofBool u ++ 176#9 ++ p ++ q ++ r ++ 0#3
  | .por u p q r => 0#1 ++ BitVec.ofBool u ++ 177#9 ++ p ++ q ++ r ++ 0#3
  | .pxor u p q r => 0#1 ++ BitVec.ofBool u ++ 178#9 ++ p ++ q ++ r ++ 0#3
  | .pandn u p q r => 0#1 ++ BitVec.ofBool u ++ 179#9 ++ p ++ q ++ r ++ 0#3
  | .pnot u p q => 0#1 ++ BitVec.ofBool u ++ 180#9 ++ p ++ q ++ 0#9
  | .pmov u p q => 0#1 ++ BitVec.ofBool u ++ 181#9 ++ p ++ q ++ 0#9
  | .fadd u d a b => 0#1 ++ BitVec.ofBool u ++ 192#9 ++ d ++ a ++ b
  | .fsub u d a b => 0#1 ++ BitVec.ofBool u ++ 193#9 ++ d ++ a ++ b
  | .fmul u d a b => 0#1 ++ BitVec.ofBool u ++ 194#9 ++ d ++ a ++ b
  | .ffma u d a b => 0#1 ++ BitVec.ofBool u ++ 195#9 ++ d ++ a ++ b
  | .ffms u d a b => 0#1 ++ BitVec.ofBool u ++ 196#9 ++ d ++ a ++ b
  | .fmin u d a b => 0#1 ++ BitVec.ofBool u ++ 197#9 ++ d ++ a ++ b
  | .fmax u d a b => 0#1 ++ BitVec.ofBool u ++ 198#9 ++ d ++ a ++ b
  | .fabs u d a => 0#1 ++ BitVec.ofBool u ++ 199#9 ++ d ++ a ++ 0#7
  | .fneg u d a => 0#1 ++ BitVec.ofBool u ++ 200#9 ++ d ++ a ++ 0#7
  | .fcps u d a b => 0#1 ++ BitVec.ofBool u ++ 201#9 ++ d ++ a ++ b
  | .frnd u d a r => 0#1 ++ BitVec.ofBool u ++ 202#9 ++ d ++ a ++ r ++ 0#4
  | .fclass u d a => 0#1 ++ BitVec.ofBool u ++ 203#9 ++ d ++ a ++ 0#7
  | .dadd u d a b => 0#1 ++ BitVec.ofBool u ++ 208#9 ++ d ++ a ++ b
  | .dsub u d a b => 0#1 ++ BitVec.ofBool u ++ 209#9 ++ d ++ a ++ b
  | .dmul u d a b => 0#1 ++ BitVec.ofBool u ++ 210#9 ++ d ++ a ++ b
  | .dfma u d a b => 0#1 ++ BitVec.ofBool u ++ 211#9 ++ d ++ a ++ b
  | .dfms u d a b => 0#1 ++ BitVec.ofBool u ++ 212#9 ++ d ++ a ++ b
  | .dmin u d a b => 0#1 ++ BitVec.ofBool u ++ 213#9 ++ d ++ a ++ b
  | .dmax u d a b => 0#1 ++ BitVec.ofBool u ++ 214#9 ++ d ++ a ++ b
  | .dabs u d a => 0#1 ++ BitVec.ofBool u ++ 215#9 ++ d ++ a ++ 0#7
  | .dneg u d a => 0#1 ++ BitVec.ofBool u ++ 216#9 ++ d ++ a ++ 0#7
  | .drnd u d a r => 0#1 ++ BitVec.ofBool u ++ 217#9 ++ d ++ a ++ r ++ 0#4
  | .dclass u d a => 0#1 ++ BitVec.ofBool u ++ 218#9 ++ d ++ a ++ 0#7
  | .hadd2 u d a b => 0#1 ++ BitVec.ofBool u ++ 224#9 ++ d ++ a ++ b
  | .hmul2 u d a b => 0#1 ++ BitVec.ofBool u ++ 225#9 ++ d ++ a ++ b
  | .hfma2 u d a b => 0#1 ++ BitVec.ofBool u ++ 226#9 ++ d ++ a ++ b
  | .hmin2 u d a b => 0#1 ++ BitVec.ofBool u ++ 227#9 ++ d ++ a ++ b
  | .hmax2 u d a b => 0#1 ++ BitVec.ofBool u ++ 228#9 ++ d ++ a ++ b
  | .badd2 u d a b => 0#1 ++ BitVec.ofBool u ++ 229#9 ++ d ++ a ++ b
  | .bmul2 u d a b => 0#1 ++ BitVec.ofBool u ++ 230#9 ++ d ++ a ++ b
  | .bfma2 u d a b => 0#1 ++ BitVec.ofBool u ++ 231#9 ++ d ++ a ++ b
  | .bmin2 u d a b => 0#1 ++ BitVec.ofBool u ++ 232#9 ++ d ++ a ++ b
  | .bmax2 u d a b => 0#1 ++ BitVec.ofBool u ++ 233#9 ++ d ++ a ++ b
  | .frcp u d a k => 0#1 ++ BitVec.ofBool u ++ 240#9 ++ d ++ a ++ k ++ 0#3
  | .frsq u d a k => 0#1 ++ BitVec.ofBool u ++ 241#9 ++ d ++ a ++ k ++ 0#3
  | .fsqrt u d a k => 0#1 ++ BitVec.ofBool u ++ 242#9 ++ d ++ a ++ k ++ 0#3
  | .fexp2 u d a k => 0#1 ++ BitVec.ofBool u ++ 243#9 ++ d ++ a ++ k ++ 0#3
  | .flog2 u d a k => 0#1 ++ BitVec.ofBool u ++ 244#9 ++ d ++ a ++ k ++ 0#3
  | .fsinp u d a k => 0#1 ++ BitVec.ofBool u ++ 245#9 ++ d ++ a ++ k ++ 0#3
  | .fcosp u d a k => 0#1 ++ BitVec.ofBool u ++ 246#9 ++ d ++ a ++ k ++ 0#3
  | .drcp u d a k => 0#1 ++ BitVec.ofBool u ++ 247#9 ++ d ++ a ++ k ++ 0#3
  | .drsq u d a k => 0#1 ++ BitVec.ofBool u ++ 248#9 ++ d ++ a ++ k ++ 0#3
  | .dsqrt u d a k => 0#1 ++ BitVec.ofBool u ++ 249#9 ++ d ++ a ++ k ++ 0#3
  | .cvt u f d a r p => 0#1 ++ BitVec.ofBool u ++ 16#5 ++ f ++ d ++ a ++ r ++ p
  | .ldlB32 d a k s => 272#11 ++ d ++ a ++ k ++ s
  | .ldlB64 d a k s => 273#11 ++ d ++ a ++ k ++ s
  | .stlB32 d a k s => 274#11 ++ d ++ a ++ k ++ s
  | .stlB64 d a k s => 275#11 ++ d ++ a ++ k ++ s
  | .ldsS8 u d a k s => 0#1 ++ BitVec.ofBool u ++ 276#9 ++ d ++ a ++ k ++ s
  | .ldsZ8 u d a k s => 0#1 ++ BitVec.ofBool u ++ 277#9 ++ d ++ a ++ k ++ s
  | .ldsS16 u d a k s => 0#1 ++ BitVec.ofBool u ++ 278#9 ++ d ++ a ++ k ++ s
  | .ldsZ16 u d a k s => 0#1 ++ BitVec.ofBool u ++ 279#9 ++ d ++ a ++ k ++ s
  | .ldsB32 u d a k s => 0#1 ++ BitVec.ofBool u ++ 280#9 ++ d ++ a ++ k ++ s
  | .ldsB64 u d a k s => 0#1 ++ BitVec.ofBool u ++ 281#9 ++ d ++ a ++ k ++ s
  | .ldsB128 u d a k s => 0#1 ++ BitVec.ofBool u ++ 282#9 ++ d ++ a ++ k ++ s
  | .stsB8 d a k s => 283#11 ++ d ++ a ++ k ++ s
  | .stsB16 d a k s => 284#11 ++ d ++ a ++ k ++ s
  | .stsB32 d a k s => 285#11 ++ d ++ a ++ k ++ s
  | .stsB64 d a k s => 286#11 ++ d ++ a ++ k ++ s
  | .stsB128 d a k s => 287#11 ++ d ++ a ++ k ++ s
  | .ldcB32 u d a k s => 0#1 ++ BitVec.ofBool u ++ 288#9 ++ d ++ a ++ k ++ s
  | .ldcB64 u d a k s => 0#1 ++ BitVec.ofBool u ++ 289#9 ++ d ++ a ++ k ++ s
  | .ldcB128 u d a k s => 0#1 ++ BitVec.ofBool u ++ 290#9 ++ d ++ a ++ k ++ s
  | .stcB32 d a k s => 291#11 ++ d ++ a ++ k ++ s
  | .stcB64 d a k s => 292#11 ++ d ++ a ++ k ++ s
  | .stcB128 d a k s => 293#11 ++ d ++ a ++ k ++ s
  | .ldcAcqB32 d a k s => 294#11 ++ d ++ a ++ k ++ s
  | .ldcAcqB64 d a k s => 295#11 ++ d ++ a ++ k ++ s
  | .stcRelB32 d a k s => 296#11 ++ d ++ a ++ k ++ s
  | .stcRelB64 d a k s => 297#11 ++ d ++ a ++ k ++ s
  | .prs d a k s => 298#11 ++ d ++ a ++ k ++ s
  | .atomsAdd d a k s => 304#11 ++ d ++ a ++ k ++ s
  | .atomsMin d a k s => 305#11 ++ d ++ a ++ k ++ s
  | .atomsMax d a k s => 306#11 ++ d ++ a ++ k ++ s
  | .atomsMinz d a k s => 307#11 ++ d ++ a ++ k ++ s
  | .atomsMaxz d a k s => 308#11 ++ d ++ a ++ k ++ s
  | .atomsAnd d a k s => 309#11 ++ d ++ a ++ k ++ s
  | .atomsOr d a k s => 310#11 ++ d ++ a ++ k ++ s
  | .atomsXor d a k s => 311#11 ++ d ++ a ++ k ++ s
  | .atomsXchg d a k s => 312#11 ++ d ++ a ++ k ++ s
  | .atomsCas d a k s => 313#11 ++ d ++ a ++ k ++ s
  | .atomsFadd d a k s => 314#11 ++ d ++ a ++ k ++ s
  | .atomsAdd64 d a k s => 315#11 ++ d ++ a ++ k ++ s
  | .atomcAdd d a k s => 320#11 ++ d ++ a ++ k ++ s
  | .atomcMin d a k s => 321#11 ++ d ++ a ++ k ++ s
  | .atomcMax d a k s => 322#11 ++ d ++ a ++ k ++ s
  | .atomcMinz d a k s => 323#11 ++ d ++ a ++ k ++ s
  | .atomcMaxz d a k s => 324#11 ++ d ++ a ++ k ++ s
  | .atomcAnd d a k s => 325#11 ++ d ++ a ++ k ++ s
  | .atomcOr d a k s => 326#11 ++ d ++ a ++ k ++ s
  | .atomcXor d a k s => 327#11 ++ d ++ a ++ k ++ s
  | .atomcXchg d a k s => 328#11 ++ d ++ a ++ k ++ s
  | .atomcCas d a k s => 329#11 ++ d ++ a ++ k ++ s
  | .atomcFadd d a k s => 330#11 ++ d ++ a ++ k ++ s
  | .atomcDadd d a k s => 331#11 ++ d ++ a ++ k ++ s
  | .atomcAdd64 d a k s => 332#11 ++ d ++ a ++ k ++ s
  | .atomcMaxloc d a k s => 333#11 ++ d ++ a ++ k ++ s
  | .atomcMinloc d a k s => 334#11 ++ d ++ a ++ k ++ s
  | .gathB32 d a k s => 336#11 ++ d ++ a ++ k ++ 0#2 ++ s
  | .gathB64 d a k s => 337#11 ++ d ++ a ++ k ++ 0#2 ++ s
  | .scatB32 d a k => 338#11 ++ d ++ a ++ k ++ 0#3
  | .scatB64 d a k => 339#11 ++ d ++ a ++ k ++ 0#3
  | .xchPick d a m => 352#11 ++ d ++ a ++ m ++ 0#3
  | .xchMove d a m e => 353#11 ++ d ++ a ++ m ++ e
  | .xchFlip d a m e => 354#11 ++ d ++ a ++ m ++ e
  | .xchEdge d a m e => 355#11 ++ d ++ a ++ m ++ e
  | .qryCnt d a m => 356#11 ++ d ++ a ++ m ++ 0#3
  | .qryEvery d a m => 357#11 ++ d ++ a ++ m ++ 0#3
  | .qryBits d a m e => 358#11 ++ d ++ a ++ m ++ e
  | .redIadd d a m => 359#11 ++ d ++ a ++ m ++ 0#3
  | .redImin d a m => 360#11 ++ d ++ a ++ m ++ 0#3
  | .redImax d a m => 361#11 ++ d ++ a ++ m ++ 0#3
  | .redFadd d a m => 362#11 ++ d ++ a ++ m ++ 0#3
  | .redFmin d a m => 363#11 ++ d ++ a ++ m ++ 0#3
  | .redFmax d a m => 364#11 ++ d ++ a ++ m ++ 0#3
  | .scanIadd d a m e => 365#11 ++ d ++ a ++ m ++ e
  | .scanFadd d a m e => 366#11 ++ d ++ a ++ m ++ e
  | .maxloc d a m e => 367#11 ++ d ++ a ++ m ++ e
  | .segredIadd d a m => 368#11 ++ d ++ a ++ m ++ 0#3
  | .segredFadd d a m => 369#11 ++ d ++ a ++ m ++ 0#3
  | .segscanFadd d a m => 370#11 ++ d ++ a ++ m ++ 0#3
  | .matchLanes d a m e => 371#11 ++ d ++ a ++ m ++ e
  | .compact d a m e => 372#11 ++ d ++ a ++ m ++ e
  | .lsort d a m e => 373#11 ++ d ++ a ++ m ++ e
  | .bra p n k s => 24#7 ++ p ++ n ++ k ++ s
  | .rjm m => 400#11 ++ m ++ 0#17
  | .rjadd m => 401#11 ++ m ++ 0#17
  | .join m => 402#11 ++ m ++ 0#17
  | .exit => 845152256#32
  | .exits a n => 404#11 ++ a ++ n ++ 0#7
  | .regroup p n => 405#11 ++ p ++ n ++ 0#10
  | .yield => 851443712#32
  | .dly n => 26673152#27 ++ n
  | .waitk k t => 408#11 ++ k ++ t ++ 0#13
  | .guard p n => 409#11 ++ p ++ n ++ 0#14
  | .bkpt => 859832320#32
  | .trap c => 13152#16 ++ c
  | .nop => 864026624#32
  | .kacc d a b k => 26#7 ++ d ++ a ++ b ++ k
  | .kfind d a s k => 27#7 ++ d ++ a ++ s ++ k
  | .rngB32 d k => 448#11 ++ d ++ 0#7 ++ k ++ 0#3
  | .rngF32 d k => 449#11 ++ d ++ 0#7 ++ k ++ 0#3
  | .rdspec d s k => 450#11 ++ d ++ s ++ k ++ 0#3
  | .cycle d k => 451#11 ++ d ++ 0#7 ++ k ++ 0#3
  | .mxgo a s k => 29#7 ++ a ++ s ++ k ++ 0#8

/-- The word of a U-set instruction (R46). -/
def UInstr.encode : UInstr → Word
  | .sadd d a b => 1024#11 ++ d ++ a ++ b ++ 0#3
  | .ssub d a b => 1025#11 ++ d ++ a ++ b ++ 0#3
  | .smul d a b => 1026#11 ++ d ++ a ++ b ++ 0#3
  | .smulh d a b => 1027#11 ++ d ++ a ++ b ++ 0#3
  | .sand d a b => 1028#11 ++ d ++ a ++ b ++ 0#3
  | .sor d a b => 1029#11 ++ d ++ a ++ b ++ 0#3
  | .sxor d a b => 1030#11 ++ d ++ a ++ b ++ 0#3
  | .sandn d a b => 1031#11 ++ d ++ a ++ b ++ 0#3
  | .sshl d a b => 1032#11 ++ d ++ a ++ b ++ 0#3
  | .sshr d a b => 1033#11 ++ d ++ a ++ b ++ 0#3
  | .ssar d a b => 1034#11 ++ d ++ a ++ b ++ 0#3
  | .smin d a b => 1035#11 ++ d ++ a ++ b ++ 0#3
  | .smax d a b => 1036#11 ++ d ++ a ++ b ++ 0#3
  | .sminz d a b => 1037#11 ++ d ++ a ++ b ++ 0#3
  | .smaxz d a b => 1038#11 ++ d ++ a ++ b ++ 0#3
  | .smov d a => 1039#11 ++ d ++ a ++ 0#9
  | .saddi d a i => 65#7 ++ d ++ a ++ i
  | .sandi d a i => 66#7 ++ d ++ a ++ i
  | .sori d a i => 67#7 ++ d ++ a ++ i
  | .sshli d a n => 68#7 ++ d ++ a ++ 0#7 ++ n
  | .sshri d a n => 68#7 ++ d ++ a ++ 1#7 ++ n
  | .ssari d a n => 68#7 ++ d ++ a ++ 2#7 ++ n
  | .smovi d i => 69#7 ++ d ++ i
  | .scmp c d a b => 70#7 ++ c ++ d ++ a ++ b ++ 0#3
  | .sbr c a s => 71#7 ++ c ++ a ++ s
  | .jmp i => 72#7 ++ i
  | .call i => 73#7 ++ i
  | .ret a => 75776#17 ++ a ++ 0#9
  | .pfx p => 75#7 ++ p
  | .vbcast v s i => 1216#11 ++ v ++ s ++ i
  | .vread v s i => 1217#11 ++ v ++ s ++ i
  | .mread s i => 155904#18 ++ s ++ i
  | .mwrite s i => 156032#18 ++ s ++ i
  | .pread s i => 156160#18 ++ s ++ i
  | .kread s i => 156288#18 ++ s ++ i
  | .sldB32 a b k i => 1232#11 ++ a ++ b ++ k ++ i
  | .sldB64 a b k i => 1233#11 ++ a ++ b ++ k ++ i
  | .sstB32 a b k i => 1234#11 ++ a ++ b ++ k ++ i
  | .sstB64 a b k i => 1235#11 ++ a ++ b ++ k ++ i
  | .sldcB64 a b k i => 1236#11 ++ a ++ b ++ k ++ i
  | .sstcB64 a b k i => 1237#11 ++ a ++ b ++ k ++ i
  | .tld a b k n => 1248#11 ++ a ++ b ++ k ++ n
  | .tst a b k n => 1249#11 ++ a ++ b ++ k ++ n
  | .tzero k n => 5120000#23 ++ k ++ n
  | .accld a b k n => 1251#11 ++ a ++ b ++ k ++ n
  | .accst a b k n => 1252#11 ++ a ++ b ++ k ++ n
  | .accz k n => 5132288#23 ++ k ++ n
  | .movsh a k n => 1254#11 ++ a ++ 0#6 ++ k ++ n
  | .tcvt a k n => 1255#11 ++ a ++ 0#6 ++ k ++ n
  | .tspk a k n => 1256#11 ++ a ++ 0#6 ++ k ++ n
  | .tqld a k n => 1257#11 ++ a ++ 0#6 ++ k ++ n
  | .cpyIn a b k => 1264#11 ++ a ++ b ++ k ++ 0#5
  | .cpyOut a b k => 1265#11 ++ a ++ b ++ k ++ 0#5
  | .cpyCc a b k => 1266#11 ++ a ++ b ++ k ++ 0#5
  | .cupop a b k o => 1267#11 ++ a ++ b ++ k ++ o
  | .kcfg a b k => 1268#11 ++ a ++ b ++ k ++ 0#5
  | .kcfgStream b k => 81152#17 ++ b ++ k ++ 1#5
  | .kdrain a b k i => 1269#11 ++ a ++ b ++ k ++ i
  | .kclr k => 5201920#23 ++ k ++ 0#5
  | .kstat a k i => 1271#11 ++ a ++ 0#6 ++ k ++ i
  | .post a b k i => 1280#11 ++ a ++ b ++ k ++ i
  | .arrive a b k => 1281#11 ++ a ++ b ++ k ++ 0#5
  | .append a b k i => 1282#11 ++ a ++ b ++ k ++ i
  | .seal a k => 1283#11 ++ a ++ 0#6 ++ k ++ 0#5
  | .waitbm a b => 1284#11 ++ a ++ b ++ 480#9
  | .tbar => 2694840800#32
  | .pbar => 2696937952#32
  | .dqpush a k => 1287#11 ++ a ++ 0#6 ++ k ++ 0#5
  | .dqpop a k => 1288#11 ++ a ++ 0#6 ++ k ++ 0#5
  | .getc d b => 1296#11 ++ d ++ 0#6 ++ b ++ 0#3
  | .setc d a => 1297#11 ++ d ++ a ++ 0#9
  | .eret => 2722103296#32
  | .fence d => 1299#11 ++ d ++ 0#15
  | .synce => 2726297600#32

def Code.encode : Code → Word
  | .l i => i.encode
  | .u i => i.encode

/-- The word of an instruction; none for a step that has no word. -/
def encode (i : Instr) : Option Word := i.code.map Code.encode

/-- Bits in which a word differs from the encoding of the instruction it selects are reserved bits (R55, cause 3),
the U bit of a word that forbids it (8), a token field that must be 15 (4), a modifier or imm5 out of range (10). -/
def diffCauses (i : Code) (w : Word) : List Nat :=
  let x := w ^^^ i.encode
  let u : List Nat := if fld x 30 1 = 1 ∧ fld w 31 1 = 0 then [8] else []
  let low := x &&& 0x3FFFFFFF#32
  let rest : List Nat :=
    match i with
    | .l (.xchPick _ _ _) | .l (.qryCnt _ _ _) | .l (.qryEvery _ _ _) | .l (.redIadd _ _ _) | .l (.redImin _ _ _)
    | .l (.redImax _ _ _) | .l (.redFadd _ _ _) | .l (.redFmin _ _ _) | .l (.redFmax _ _ _) | .l (.segredIadd _ _ _)
    | .l (.segredFadd _ _ _) | .l (.segscanFadd _ _ _) => if low = 0 then [] else [10]
    | .l (.scatB32 _ _ _) | .l (.scatB64 _ _ _) =>
        (if fld low 1 2 = 0 then [] else [3]) ++ (if fld low 0 1 = 0 then [] else [10])
    | .u .tbar | .u .pbar | .u (.waitbm _ _) =>
        (if fld low 5 4 = 0 then [] else [4]) ++ (if low &&& 0xFFFFFE1F#32 = 0 then [] else [3])
    | .u (.kcfg _ _ _) => if low = 0 then [] else [10]
    | _ => if low = 0 then [] else [3]
  u ++ rest

/-- The lowest cause of a list (R55). -/
def lowestCause (cs : List Nat) : Option Nat :=
  cs.foldl (fun m c => match m with | none => some c | some x => some (min x c)) none

/-- Why bytes are no instruction. -/
inductive Reject where
  /-- Fewer than four bytes. -/
  | truncated
  /-- An illegal word, with the lowest cause code of R55 that the word alone decides. -/
  | illegal (cause : Nat)
  deriving DecidableEq, Repr

/-- Decode one word: the word of a set, or the lowest cause that makes it illegal whatever the team's counts (R55). -/
def decodeCode (w : Word) : Except Reject Code :=
  match rawDecode w with
  | .illegal c => .error (.illegal c)
  | .instr i =>
    match lowestCause (diffCauses i w ++ staticCauses i) with
    | none => .ok i
    | some c => .error (.illegal c)

/-- Decode one word to an instruction. -/
noncomputable def decodeWord (w : Word) : Except Reject Instr :=
  match decodeCode w with
  | .ok c => .ok c.instr
  | .error r => .error r

/-- A little-endian word from its bytes (R9, R38). -/
def wordOfBytes (b0 b1 b2 b3 : Byte) : Word := b3 ++ b2 ++ b1 ++ b0

/-- Decode the bytes at the start of a list (R9, R38), with what is left of them. -/
noncomputable def decodeBytes : List Byte → Except Reject (Instr × List Byte)
  | b0 :: b1 :: b2 :: b3 :: rest =>
    match decodeWord (wordOfBytes b0 b1 b2 b3) with
    | .ok i => .ok (i, rest)
    | .error e => .error e
  | _ => .error .truncated

/-- The bytes of a word as memory holds them (R9). -/
def bytesOfWord (w : Word) : List Byte := [fld w 0 8, fld w 8 8, fld w 16 8, fld w 24 8]

/-- The instruction the decoder reads from the bits of a table row, bit 0 the least significant of the word (R38).
Every instruction is one 32-bit word, so a row shorter than a word has zeros above it. -/
noncomputable def decodeTableWord (nbits w : Nat) : Option Instr :=
  match decodeBytes (bytesOfWord (BitVec.ofNat 32 (w % 2 ^ min nbits 32))) with
  | .ok (i, _) => some i
  | .error _ => none

end Sys2Proof
end

