-- ==== Sys2Proof/Config.lean ====
section
/-! DEFINITION. What the manual fixes for every Cyelle 9400, and what it leaves open. -/

namespace Sys2Proof.Config

/-- Cores of a device (R5). -/
def cores : Nat := 256
/-- Group slots of a core (R287). -/
def groupSlots : Nat := 128
/-- Threads a bay holds (R287). -/
def bayThreads : Nat := 512
/-- Bytes of vector registers a bay holds (R287). -/
def bayVregBytes : Nat := 192 * 1024
/-- 64-byte lines of a core's scratchpad (R5, R287). -/
def scratchLines : Nat := 24576
/-- Bytes of lane-private SRAM of one physical lane (R245). -/
def laneBytes : Nat := 8192
/-- Range-lock entries of a core, and of the Belfry (R251). -/
def coreLocks : Nat := 64
def belfryLocks : Nat := 256
/-- Journal entries (R317). -/
def journalEntries : Nat := 8192
/-- Task-table slots (R282). -/
def taskSlots : Nat := 8192
/-- Contexts (R26). -/
def contexts : Nat := 64
/-- Lantern contexts of a core (R5). -/
def lanternContexts : Nat := 4
/-- Keyed entries of a core (R183). -/
def keyedEntries : Nat := 4096
/-- Bytes of the Cupola window (R162, R324). -/
def windowBytes : Nat := 0x20000000
/-- First virtual address of the Cupola window (R324). -/
def windowBase : Nat := 0x7E0000000000
/-- First offset of the partner half of a pair team's scratchpad window (R160). -/
def partnerBase : Nat := 0x180000
/-- Congruence groups, and the first reserved one (R261). -/
def congruenceGroups : Nat := 0x800000
def firstReservedGroup : Nat := 0x7FE000
/-- Spare frames of a stack and of a capacity channel group (R262). -/
def stackSpares : Nat := 944
def channelSpares : Nat := 3056
/-- Ikixel architecture version (R26). -/
def archv : Word := 1

/-- The bytes of the stage-0 ROM, whose digest is the first measurement (R366): the manual does not give them (log 8). -/
opaque romImage : List Byte
/-- The repair maps that stage 2 applies, whose digest is the last measurement (R366): the manual gives no form (log 8). -/
opaque repairMaps : List Byte
/-- Where the 1,024 lines of a fast frame lie, counted through its rows (R262): the manual leaves the order open (log 97). -/
opaque linePlace : Equiv.Perm (Fin 1024)
/-- The pseudo-channel of its stack in which a line of a fast frame lies: 1 KiB of the frame in each (R262). -/
def pseudoChannelOf (line : Nat) : Nat := (linePlace (Fin.ofNat 1024 line)).val / 16
/-- The channel in which a line of a capacity frame lies, with the number of channels of a channel group (R262): the manual leaves
them open (log 97). -/
opaque channelOf : (line : Nat) → Nat
opaque capacityChannels : Nat
/-- Whether TSPK takes 8-bit elements for q8 codes, by its word and the companion of its source (R210): no operand says so (log
48). -/
opaque packsCodes : (word : BitVec 64) → (companion : List (Nat × BitVec 8)) → Bool
/-- The code of R100 for the size of the groups in which TSPK then takes their zero points: no operand names it (log 48). -/
opaque packsGroup : (word : BitVec 64) → (companion : List (Nat × BitVec 8)) → Fin 3
/-- The first window offset after those of R359, and the doublewords from there to the window's end. -/
def viewBase : Nat := 0x200800000
def viewDwords : Nat := 2 ^ 38 - viewBase / 8
/-- Which of the doublewords that R360 adds stands in which place of the window: the manual gives it no offsets (log 110). -/
opaque viewPlace : Equiv.Perm (Fin viewDwords)
/-- A bit the manual leaves open, by the number of such bits already taken (log 3). -/
opaque freeBit : Nat → Bool

end Sys2Proof.Config
end

