-- ==== Sys2Proof/Machine/State.lean ====
section
/-! DEFINITION. The state of the Cyelle 9400 as plain data (R12-R37, R136, R228-R303, R317, R359-R370),
and the state right after reset. -/

namespace Sys2Proof.Machine

/-- Why the machine stops. -/
inductive Fault where
  /-- Raised by the meaning of an instruction word executed in a state in which no bundle of a resident group or
  lantern is issuing it (R59). No step of a run does that: a step decodes the word of the bundle that issues. Safe:
  the machine stops where the hardware executes nothing. -/
  | notIssuing
  deriving DecidableEq, Repr

/-- Why a meaning is refused. -/
inductive Refusal where
  /-- Raised by an arm of exec whose instruction has no meaning yet. Safe. -/
  | notModelled (mnemonic : String)
  deriving DecidableEq, Repr

/-- Bytes by location, in one canonical form: locations strictly rising, no zero byte listed (an unlisted location
reads as zero, log 5). -/
abbrev Memory := List Host.Cell

/-- The park states of a lane (R12, R319). -/
inductive Park where
  | none | join | presence | queue | bitmap | splitGather | trap | wait
  deriving DecidableEq, Repr

/-- What a lane parked at a join waits for (R67, R69, R73, R74, R172, R336). `act` says whether the lane's GUARD left it
active in the cross-lane word. -/
inductive Gather where
  | none
  | join (m : MReg)
  | uset
  | cross (m : MReg) (act : Bool)
  | exits (succ : DWord) (keep : Nat)
  | regroup (p : PReg) (keep : Nat)
  deriving DecidableEq, Repr

/-- Where a register write goes: a vector register, a predicate, or a scalar register. -/
inductive Dest where
  | v (r : Nat)
  | p (r : Nat)
  | s (r : Nat)
  deriving DecidableEq, Repr

/-- A fixed-latency write that has not landed: it lands when `left` more instructions have issued (R28). -/
structure Pend where
  dst  : Dest
  val  : DWord
  left : Nat
  /-- Number of the speculated unit that issued it; 0 outside speculation (R33). -/
  spec : Nat := 0
  deriving DecidableEq, Repr

/-- Registers of a group that a lane sees with a delay of its own (R28, R68, R239). -/
inductive GReg where
  | mask (m : Nat)
  | scalar (r : Nat)
  | fpc | dph | specm | specr
  deriving DecidableEq, Repr

/-- A value of a group register that a lane still sees, for `left` more instructions. -/
structure Old where
  reg  : GReg
  val  : DWord
  left : Nat
  deriving DecidableEq, Repr

/-- An entry of an undo log: what a register held, and the number of the unit that wrote it (R33). -/
structure Undo where
  dst  : Dest
  val  : DWord
  unit : Nat
  deriving DecidableEq, Repr

/-- A trap that a speculated lane has met and not taken (R34): vector, cause, the word and its prefix, the
address it presented, and the poison report that it takes (R217). -/
structure Deferred where
  vec   : Nat
  cause : Nat
  unit  : Addr
  word  : Word
  pfx   : Option (BitVec 25)
  addr  : DWord
  tcode : Word
  next  : Bool
  report : Option (Nat × DWord) := none
  deriving DecidableEq, Repr

/-- What the speculation record holds for one lane (R33): predicted outcome (none for a held lane), units executed,
undo log (newest first), shadow flags, deferred trap. -/
structure SpecLane where
  taken    : Option Bool
  count    : Nat := 0
  undo     : List Undo := []
  flags    : BitVec 5 := 0
  deferred : Option Deferred := none
  deriving DecidableEq, Repr

/-- What kind of access a lane waits to perform. -/
inductive WantKind where
  | load (sign : Bool)
  | gath (split : Bool)
  | scat (data : List Byte)
  | mxgo
  deriving DecidableEq, Repr

/-- An access that a lane waits to perform: a scratchpad load whose line is absent (R161), an MXGO whose block is
(R213), or a GATH or SCAT element whose target has not answered (R354). `addr` is a location, or a virtual address. -/
structure Want where
  kind : WantKind
  addr : Nat
  n    : Nat
  reg  : Nat := 0
  tok  : Tok := 15
  unit : Addr
  word : Word
  pfx  : Option (BitVec 25) := none
  uni  : Bool := false
  off  : DWord := 0
  /-- The operation of the GATH or SCAT that the element belongs to (R226). -/
  op   : Nat := 0
  deriving DecidableEq, Repr

/-- One lane (R12). -/
structure Lane where
  pc      : Addr := 0
  live    : Bool := true
  park    : Park := .none
  gather  : Gather := .none
  next    : Addr := 0
  v       : List Word := []
  p       : BitVec 48 := 1
  slice   : Memory := []
  bad     : List Nat := []
  draws   : DWord := 0
  rng     : DWord := 0
  pend    : List Pend := []
  olds    : List Old := []
  waited  : Bool := false
  spec    : Option SpecLane := none
  handler : Bool := false
  want    : Option Want := none
  /-- The number under which the lane waits for range-lock entries (R253). -/
  ticket  : Option Nat := none
  deriving DecidableEq, Repr

/-- The result of a long-latency instruction in one lane, on its way (R31). -/
structure Land where
  lane   : Nat
  writes : List (Dest × DWord)
  /-- The lane is parked on a split gather until this lands (R227). -/
  split  : Bool := false
  /-- Number of the speculated unit that issued it; 0 outside speculation (R33). -/
  spec   : Nat := 0
  /-- Remote device the value comes from, with the unit that asked and the address it presented, for R354. -/
  fid    : Option Nat := none
  unit   : Addr := 0
  word   : Word := 0
  addr   : DWord := 0
  deriving DecidableEq, Repr

/-- A long-latency instruction in flight (R31): results that have not landed, store entries still in the queue,
and whether an agent, a tile command or another unit still owes its completion. -/
structure LongOp where
  id    : Nat
  tok   : Tok
  inH   : Bool := false
  lanes : LaneSet := 0
  lands : List Land := []
  sq    : Nat := 0
  owed  : Bool := false
  scope : Nat := 0
  spec  : Bool := false
  /-- The scalar that the result still owed will go to (R32). -/
  dst   : List Dest := []
  deriving DecidableEq, Repr

/-- A store entry (R136). `loc` is the location of its first byte, `rel` marks a release entry, `va` and `ctx` the
translation it used (none for a scratchpad entry). -/
structure Entry where
  loc   : Nat
  bytes : List Byte
  rel   : Bool := false
  tso   : Bool := false
  op    : Nat := 0
  ctx   : Nat := 0
  va    : Option Addr := none
  slot  : Nat := 0
  deriving DecidableEq, Repr

/-- A trap split that waits to enter its handler (R308-R310). -/
structure TrapSplit where
  lanes  : LaneSet
  vec    : Nat
  causes : List (Nat × Nat)
  unit   : Addr
  epc    : Addr
  word   : Word
  pfx    : Option (BitVec 25) := none
  wide   : Bool := false
  tcode  : Word := 0
  addr   : DWord := 0
  marks  : Nat := 0
  ops    : List Nat := []
  /-- A single-step stop: it names no unit to perform again. -/
  step   : Bool := false
  /-- The split stops the others of its group until its handler ends (R316). -/
  stops  : Bool := false
  /-- The poison reports that it takes, by elected lane, with the MXGO's address (R217, R318). -/
  reports : List (Nat × DWord) := []
  deriving DecidableEq, Repr

/-- What a group and a lantern context have in common (R15, R35, R65, R240, R312): scalars, token counts, the
handler's token counts, store queue, operations in flight, call depth, EPC, ECAUSE, and the scopes of completed
operations that an acquire still has to cover, by token (R147). -/
structure Front where
  s       : List DWord := List.replicate 64 0
  tok     : List Nat := List.replicate 15 0
  hk      : List Nat := List.replicate 15 0
  sq      : List Entry := []
  ops     : List LongOp := []
  cdepth  : Word := 0
  epc     : Addr := 0
  ecause  : Word := 0
  handler : Bool := false
  acqs    : List (Tok × Nat) := []
  deriving DecidableEq, Repr

/-- The speculation record of a group (R33). -/
structure SpecRec where
  pc   : Addr
  tok  : Tok
  p    : PReg
  neg  : Bool
  disp : Addr
  incs : List Nat
  deriving DecidableEq, Repr

/-- A write of a rejoin mask in the present issue cycle (R17): mask, lanes, whether it was an RJM, old value, and the lanes
that passed its unit (R68). -/
structure MaskWrite where
  m     : Nat
  lanes : LaneSet
  through : LaneSet := 0
  rjm   : Bool
  old   : LaneSet
  deriving DecidableEq, Repr

/-- How long a ready PC has gone unselected, and when it was last selected (R59). -/
structure PcAge where
  pc     : Addr
  missed : Nat
  last   : Nat
  aged   : Bool
  deriving DecidableEq, Repr

/-- What a group or lantern waits for at its unit (R236, R237, R242, R253, R397). -/
inductive Waiting where
  | none
  | bitmap (off : Nat) (bit : Nat)
  | barrier (scope : Nat)
  | synce
  | lock (ticket : Nat)
  | target
  | queue (sa : SReg)
  | push (v : DWord)
  | load (loc n : Nat) (sa : SReg) (tok : Tok) (off : DWord) (word : Word) (pfx : Option (BitVec 25))
  deriving DecidableEq, Repr

/-- One resident group (R15). -/
structure Group where
  core    : Nat
  slot    : Nat
  team    : Nat
  index   : Nat
  bay     : Nat := 0
  half    : Nat := 0
  width   : Nat
  fe      : Front := {}
  m       : List LaneSet := List.replicate 16 0
  q       : List LaneSet := List.replicate 16 0
  x       : List LaneSet := List.replicate 16 0
  fpc     : Word := 0
  dph     : Word := 0
  dbgc    : Word := 0
  specm   : Word := 0
  specr   : Word := 0
  spec    : Option SpecRec := none
  lanes   : List Lane
  traps   : List TrapSplit := []
  /-- Poisoned MXGO results to report: the elected lane, and the MXGO's address (R217). -/
  poison  : List (Nat × DWord) := []
  ages    : List PcAge := []
  issues  : Nat := 0
  withheld : List Addr := []
  cyc     : List MaskWrite := []
  waiting : Waiting := .none
  /-- The unit of an ordered keyed turn that is not at its end, and the lanes that still perform it (R188, R190). -/
  replay  : Option (Addr × LaneSet) := none
  cpys    : Nat := 0
  stopped : Bool := false
  lastIssue : Nat := 0
  retired : Bool := false
  deriving DecidableEq, Repr

/-- A lantern context in use (R35). -/
structure Lantern where
  core    : Nat
  slot    : Nat
  team    : Nat
  fe      : Front := {}
  pc      : Addr := 0
  park    : Park := .none
  next    : Addr := 0
  pend    : List Pend := []
  waiting : Waiting := .none
  traps   : List TrapSplit := []
  cpys    : Nat := 0
  /-- The word that the lantern stands at again has counted already (R28). -/
  counted : Bool := false
  stopped : Bool := false
  retired : Bool := false
  deriving DecidableEq, Repr

/-- One entry of the keyed accumulator store (R183, R189). -/
structure KeyedEntry where
  key   : DWord
  val   : DWord
  count : Word
  aux   : Word
  seqNo : Word
  deriving DecidableEq, Repr

/-- The keyed partition of a team on one core (R183-R185). -/
structure Keyed where
  configured : Bool := false
  cfg        : DWord := 0
  entries    : List KeyedEntry := []
  next       : Word := 0
  base       : DWord := 0
  len        : DWord := 0
  pos        : DWord := 0
  deriving DecidableEq, Repr

/-- Bytes of a register that carries poison (R217): contents and the numbers of its poisoned units. -/
structure Block where
  data   : Memory := []
  poison : List Nat := []
  deriving DecidableEq, Repr

/-- A command of the matrix unit or an engine in a team's tile queue on one core (R201): its word, the scalars it
took at issue (its format word too, for an MXGO), who issued it and the long-latency operation whose token it holds, the
agent that moves its bytes, an MXGO's block, the dither phase, FPC.RM, elected lane and address taken at issue. -/
structure TileCmd where
  id    : Nat
  word  : Word
  kind  : Nat
  a     : DWord := 0
  b     : DWord := 0
  n     : Nat := 0
  slot  : Nat
  op    : Nat
  agent : Option Nat := none
  block : List Byte := []
  phi   : Nat := 0
  rnd   : Nat := 0
  lane  : Nat := 0
  addr  : DWord := 0
  /-- A store has taken the bytes of its register: its steps may begin. -/
  primed : Bool := false
  deriving DecidableEq, Repr

/-- What a team holds on one core (R21, R22, R24). -/
structure Side where
  core      : Nat
  base      : Nat := 0
  tiles     : List Block := []
  comps     : List Block := []
  shapes    : List Word := []
  accs      : List Block := []
  keyed     : Keyed := {}
  turnstile : Nat := 0
  queue     : List TileCmd := []
  started   : Nat := 0
  deriving DecidableEq, Repr

/-- A token-form queue operation that has issued and not taken effect (R238). -/
structure HeldOp where
  push  : Bool
  slot  : Nat
  core  : Nat
  sa    : SReg
  tok   : Tok
  op    : Nat
  value : DWord := 0
  deriving DecidableEq, Repr

/-- One step an agent still owes (R137, R149): a read or a write of the part of one line inside its range, or one
element of a CUPOP (R224), whose source bytes lie at `off` in the agent's buffer. `off` is the place of the bytes in the
agent's transfer. -/
inductive AStep where
  | read (loc len off : Nat) (tso : Bool)
  | write (loc len off : Nat) (tso : Bool)
  | elem (dst off e op : Nat) (c : DWord) (tso : Bool)
  deriving DecidableEq, Repr

/-- One slice of a team copy (R219, R220), as its checks found it: its steps, scope, pages and range-lock entries
(destination, space, base, length). `again` marks one that a restore has brought back, whose pages are checked again when its
instance starts (R320, R329). -/
structure Slice where
  fn    : Nat := 0
  a     : DWord := 0
  b     : DWord := 0
  len   : DWord := 0
  desc  : DWord := 0
  core  : Nat := 0
  slot  : Nat := 0
  grp   : Nat := 0
  op    : Nat := 0
  steps : List AStep := []
  scope : Nat := 1
  pages : List Addr := []
  locks : List (Bool × Nat × Nat × Nat) := []
  whole : Bool := false
  again : Bool := false
  deriving DecidableEq, Repr

/-- A copy instance that has not started: its number and the slices supplied (R220). -/
structure CpyInst where
  number : Nat
  slices : List Slice
  /-- The number under which the instance waits for range-lock entries, once every slice is there (R253). -/
  ticket : Option Nat := none
  deriving DecidableEq, Repr

/-- A region entry as read at placement (R229), with the steps of its write-back and the pages whose translations it
took at placement (R329). -/
structure Region where
  va    : DWord
  len   : Nat
  off   : Nat
  dir   : Nat
  steps : List AStep := []
  pages : List Addr := []
  scope : Nat := 4
  deriving DecidableEq, Repr

/-- One resident team (R21, R289). `index` is its index, or its ordinal in a ragged task. -/
structure Team where
  id      : Nat
  slot    : Nat
  ctx     : Nat
  index   : Nat := 0
  recIdx  : Nat := 0
  tileIdx : Nat := 0
  core    : Nat
  pair    : Bool := false
  lines   : Nat := 0
  laneb   : Nat := 0
  vregs   : Nat := 1
  tiles   : Nat := 0
  accs    : Nat := 0
  kas     : Nat := 0
  width   : Nat := 16
  gpt     : Nat := 1
  bayOff  : Nat := 0
  det     : Bool := false
  idem    : Bool := false
  lantern : Bool := false
  lanternRetired : Bool := false
  sides   : List Side := []
  dq      : List DWord := []
  held    : List HeldOp := []
  rot     : Nat := 0
  standing : Bool := true
  regions : List Region := []
  insts   : List CpyInst := []
  instNo  : Nat := 0
  writingBack : Bool := false
  /-- The number under which the write-back waits for range-lock entries (R253). -/
  ticket : Option Nat := none
  deriving DecidableEq, Repr

/-- States of a task slot (R282). -/
inductive TaskState where
  | free | waiting | ready | active | closing | preempting | parked
  deriving DecidableEq, Repr

/-- A task-table slot that is not FREE (R282, R303). -/
structure Task where
  slot    : Nat
  ctx     : Nat
  state   : TaskState
  record  : List Byte
  counter : Word := 0
  next    : Nat := 0
  recIdx  : Nat := 0
  tileIdx : Nat := 0
  /-- The rows of the record whose teams are being placed, as it was read (R292). -/
  rows    : Option Nat := none
  placed  : Bool := false
  overrun : Bool := false
  blocking : Bool := false
  sealed  : Bool := false
  flt     : Bool := false
  readyAt : Nat := 0
  skipped : Option Nat := none
  resume  : TaskState := .waiting
  flushed : List (Nat × Nat × Nat) := []
  started : Bool := false
  /-- The number under which the task's next team, its copy or its collective waits for range-lock entries, and the core of the
  table; 256 for the Belfry's (R253). -/
  ticket  : Option (Nat × Nat) := none
  deriving DecidableEq, Repr

/-- Where a team goes: its core (the even one of a pair), its bay offset, and its scratchpad base on each core (R244,
R248, R287). -/
structure Spot where
  core : Nat
  bay  : Nat
  base : Nat
  base2 : Nat := 0
  deriving DecidableEq, Repr

/-- A gang's reservation (R290): the places taken so far, whether placement has begun, and whether a task of higher priority
has become READY meanwhile (R291). -/
structure Gang where
  slot    : Nat
  cores   : List Spot
  placing : Bool
  broken  : Bool := false
  deriving DecidableEq, Repr

/-- What completing an agent does. -/
inductive AgentEnd where
  | cpy (ops : List (Nat × Nat × Nat)) (arrives : List (Nat × Word))
  | op (core slot op : Nat)
  | post (core slot op : Nat) (sd : SReg)
  | tile
  | staging
  | writeBack
  | copyTask (slot : Nat)
  | collective (slot : Nat)
  deriving DecidableEq, Repr

/-- An engine operation in flight (R136, R148-R150). -/
structure Agent where
  id     : Nat
  kind   : Nat
  ctx    : Nat
  task   : Nat
  team   : Option Nat := none
  core   : Nat := 0
  slot   : Nat := 0
  scope  : Nat := 1
  steps  : List AStep := []
  buf    : Memory := []
  bad    : List Nat := []
  whole  : Bool := false
  lines  : List Nat := []
  pages  : List Addr := []
  fin    : AgentEnd
  deriving DecidableEq, Repr

/-- A range-lock entry (R251); `core` 256 is the Belfry's table, `agent` the operation that holds it. -/
structure RangeLock where
  core  : Nat
  dst   : Bool
  sp    : Nat
  ctx   : Nat
  kind  : Nat
  base  : Nat
  len   : Nat
  owner : Nat
  team  : Nat
  agent : Nat
  deriving DecidableEq, Repr

/-- An entry of the issue journal (R317), with the operation whose agent it names and whether it is discarded. -/
structure JournalEntry where
  kind  : Nat
  ctx   : Nat
  slot  : Nat
  fn    : Nat
  grp   : Nat
  team  : Nat
  src   : DWord
  dst   : DWord
  len   : DWord
  arv   : DWord
  inst  : DWord
  agent : Nat
  teamId : Option Nat
  op : Nat := 0
  discarded : Bool := false
  /-- The number under which its replay waits for range-lock entries (R253). -/
  ticket : Option Nat := none
  deriving DecidableEq, Repr

/-- A context's registers (R26, R240, R284, R325, R352). -/
structure Context where
  hbase  : DWord := 0
  sideb  : DWord := 0
  ctxc   : Word := 0xE
  ptroot : DWord := 0
  cslot  : Word := 0x38000000
  laps   : List (DWord × DWord) := List.replicate 8 (0, 0)
  /-- Leaves that a TLB still holds although a table write may have changed them (R330): virtual page, size, entry. -/
  tlb    : List (Nat × Nat × DWord) := []
  deriving DecidableEq, Repr

/-- What a core keeps for its bays (R295, R297) and its cycle count (R134). -/
structure CoreState where
  core   : Nat
  cycles : DWord := 0
  ages   : List (List Nat) := []
  busy   : List Bool := []
  lastClass : Nat := 0
  deriving DecidableEq, Repr

/-- A pre-emption request with the Belfry cycle in which it came, and the status it reports (R298, R300, R344). -/
structure Preempt where
  ctx   : Nat
  slots : List Nat
  seqNo : BitVec 16
  start : Nat
  status : Nat := 0
  deriving DecidableEq, Repr

/-- A context save in progress (R318). `gone` holds the answer of one that has ended without an image, by a forced reset or
by a refusal, and whose SAVEDONE waits for those of earlier requests (R345). -/
structure Saving where
  ctx   : Nat
  seqNo : BitVec 16
  va    : DWord
  gone  : Option DWord := none
  deriving DecidableEq, Repr

/-- An invalidation in progress (R331): the range, or all of the context, the agents, teams and operations of copies not started
that held a translation it removed, the new root that a PTROOT write brings (R325), and the status that INVDONE reports. -/
structure Invalidation where
  ctx   : Nat
  seqNo : BitVec 16
  base  : Nat
  pages : Nat
  all   : Bool
  agents : List Nat := []
  teams : List Nat := []
  ops : List Nat := []
  newRoot : Option DWord := none
  status : Nat := 0
  deriving DecidableEq, Repr

/-- A collective in flight (R355-R358): its agent, the writes of its destination as translated at its start (R329), whether it
writes it, and the participants that it read then. -/
structure Collective where
  slot    : Nat
  ctx     : Nat
  cid     : DWord
  agent   : Nat
  dst     : List AStep := []
  writing : Bool := false
  parts   : List Nat := []
  deriving DecidableEq, Repr

/-- The fabric as this device sees it (R322, R342, R354-R358): collectives in flight, held peer data, aborts received
before their instance started, collectives that have completed here or were reset, aborts and elements sent, target
checks answered, unreachable targets, devices that accept no NBV 1, answers to remote devices, and remote writes not yet done. -/
structure Fabric where
  insts   : List Collective := []
  held    : List PeerData := []
  aborts  : List DWord := []
  finished : List DWord := []
  sent    : List (Nat × DWord) := []
  outData : List (Nat × PeerData) := []
  answers : List (Nat × Addr × TargetAnswer) := []
  dead    : List Nat := []
  refusers : List Nat := []
  remoteOut : List (Nat × Nat × List Byte) := []
  /-- Remote writes with parts that wait for a held page: number, device, parts left (R270). -/
  pending : List (Nat × Nat × Nat) := []
  deriving DecidableEq, Repr

/-- A write waiting for a held page (R269): an outbound entry of a core, a step of an agent, the head of the host
queue, a part of a remote write with the number of its request (none for a write of a killed context), the places of its poisoned
bytes (R274), and the context and the pages of the translation it used (R331), or a remote read that follows such a write, with the
same. The entry or step stays where it stands until the release performs it. -/
inductive Waiter where
  | out (core : Nat) (entry : Entry)
  | agent (id : Nat) (step : AStep)
  | host
  | remote (loc : Nat) (bytes : List Byte) (req : Option Nat) (bad : List Nat) (used : Option (Nat × List Addr))
  | remoteRead (fid : Nat) (parts : List (Nat × Nat × Nat)) (used : Nat × List Addr)
  deriving DecidableEq, Repr

/-- Phases of a tier swap or retirement (R269). -/
inductive SwapPhase where
  | hold | read | write | commit
  deriving DecidableEq, Repr

/-- A swap or retirement in progress (R267, R269, R277). `frame` is the frame retired, or the capacity frame swapped
with frame 0; `spare` the spare frame of a retirement; `memA` the member held in `frame`, `memB` the one in frame 0; `domain` and
`row` name the row for which a frame is retired. -/
structure Swap where
  group  : Nat
  retire : Bool
  frame  : Nat
  spare  : Nat := 0
  memA   : Nat
  memB   : Nat := 0
  phase  : SwapPhase := .hold
  bufA   : Block := {}
  bufB   : Block := {}
  waits  : List Waiter := []
  domain : Nat := 0
  row    : Nat := 0
  deriving DecidableEq, Repr

/-- A retirement that waits (R271): of the frame in which a member of a group lies, for a row of a domain that has reached the
threshold; `spare` says that the row is one of a spare frame (R277). -/
structure Due where
  group  : Nat
  member : Nat
  domain : Nat
  row    : Nat
  spare  : Bool := false
  deriving DecidableEq, Repr

/-- A remap entry (R264), with the spares of its replaced frames, the one in use before those that it has replaced itself (R277). -/
structure Remap where
  group  : Nat
  cnt    : List Nat := [0, 0, 0, 0]
  bad    : BitVec 4 := 0
  map    : BitVec 8 := 0xE4
  spares : List (Nat × Nat) := []
  deriving DecidableEq, Repr

/-- A row of a care domain with a score (R276): its number in the domain, its frame, score, order of entry. -/
structure Score where
  row   : Nat
  group : Nat
  frame : Nat
  score : Nat
  born  : Nat
  deriving DecidableEq, Repr

/-- A care domain (R275-R279): MCARE, its score table, its hot list in order of entry, how many score entries have been
made, and the rows that a scrub has skipped and still owes (R271). -/
structure Domain where
  mcare  : Word := 0x0020401B
  scores : List Score := []
  hot    : List Nat := []
  skipped : List Nat := []
  born   : Nat := 0
  deriving DecidableEq, Repr

/-- DRAM care (R260-R280): remap entries that differ from their reset value, swaps and retirements in progress, TSWC,
TSWS, the domains, retirements that wait (R271), activation counters (stack, row, count), and the rows
that the last neighbour refresh covered. -/
structure Care where
  remaps  : List Remap := []
  swaps   : List Swap := []
  tswc    : Word := 0x80000000 ||| 0x1000 ||| 0x80 ||| 0x4
  swapsDone : Word := 0
  retired : Word := 0
  domains : List Domain := List.replicate 16 {}
  due     : List Due := []
  acts    : List (Nat × Nat × Nat) := []
  refreshed : List (Nat × Int) := []
  deriving DecidableEq, Repr

/-- The platform and its trust state (R359-R370). -/
structure Plat where
  stage   : BitVec 2 := 0
  fail    : BitVec 8 := 0
  warm    : Bool := false
  lock    : Bool := false
  wdogV   : DWord := 0
  wdog    : Nat := 0
  fwopen  : List DWord := [0, 0]
  hwf     : List DWord := [0, 0, 0, 0]
  fid     : BitVec 12 := 0
  bcfg    : Word := 0xC00C
  attn    : List Byte := List.replicate 32 0
  attc    : DWord := 0
  mlog    : List (BitVec 512) := [0, 0, 0, 0]
  quote   : List Byte := List.replicate 128 0
  quoting : Bool := false
  keyh    : List (BitVec 256) := [0, 0, 0, 0]
  krev    : BitVec 4 := 0
  svnmin  : Word := 0
  idkey   : BitVec 256 := 0
  fuseWas : Option (BitVec 4 × Word) := none
  fwbuf   : Memory := []
  flog    : List (BitVec 128) := []
  flogp   : Word := 0
  powered : Bool := true
  clockLow : Bool := false
  thermalLow : Bool := false
  restarting : Bool := false
  /-- What the last read of memory by firmware returned (R365); the model's own (log 112). -/
  fwRead  : List Byte := []
  deriving DecidableEq, Repr

/-- What a context save holds of one team that the image of R319 has no place for (log 51): the team, its groups and its
lantern as they stood, and the team's image, by which a restore finds it. -/
structure Kept where
  ctx      : Nat
  image    : List Byte
  team     : Team
  groups   : List Group
  lanterns : List Lantern
  deriving DecidableEq, Repr

/-- A host write in the host queue (R347). -/
structure HostWr where
  space : BitVec 2
  ctx   : BitVec 6
  va    : DWord
  bytes : List Byte
  deriving DecidableEq, Repr

/-- A message sent to the host (R343, R344). -/
structure OutMsg where
  type    : BitVec 8
  ctx     : BitVec 8
  seqNo   : BitVec 16
  arg     : DWord
  payload : List Byte := []
  deriving DecidableEq, Repr

/-- A stale copy of one line (R136). -/
structure Stale where
  core  : Nat
  line  : Nat
  bytes : List Byte
  deriving DecidableEq, Repr

/-- An entry of an outbound channel (R136). -/
structure Out where
  core  : Nat
  entry : Entry
  deriving DecidableEq, Repr

/-- A check that one lane fails: vector, cause, the address the lane presented, and the poison report that it takes (R217). -/
structure Hit where
  lane  : Nat
  vec   : Nat
  cause : Nat
  addr  : DWord := 0
  report : Option (Nat × DWord) := none
  deriving DecidableEq, Repr

/-- What a bundle's turn does: it issues a word, performs for some lanes the accesses for which they have waited, or the scalar load
for which its issuer has (R137, R138, R161, R354). -/
inductive Duty where
  | word | lanes | scalar
  deriving DecidableEq, Repr

/-- The bundle that a core's front end issues, at one word of its unit (R51, R59). Slots from 128 up are lantern
contexts. `gathered` marks lanes whose implicit join is complete. A vector access may be performed in parts, each some of
its lanes (R137, R138): `more` says that another part follows this one, `op` is the operation that the parts share, `hits` are the
checks that lanes have failed so far, `earlier` are the lanes of the parts before, and `pages` the 64 KiB pages that they have
looked up (R330). -/
structure Bundle where
  core  : Nat
  slot  : Nat
  lanes : LaneSet := 0
  unit  : Addr
  pos   : Addr
  guard : Option (PReg × Bool) := none
  pfx   : Option (BitVec 25) := none
  gathered : Bool := false
  more  : Bool := false
  op    : Option Nat := none
  hits  : List Hit := []
  earlier : LaneSet := 0
  pages : List Nat := []
  duty  : Duty := .word
  deriving DecidableEq, Repr

/-- A step to come (log 2): a step of the device, the next word of the first bundle of a core's slot, or that word for its
lowest `n` lanes (R138). -/
inductive Turn where
  | event (i : Instr)
  | word (core slot : Nat)
  | part (core slot n : Nat)
  deriving DecidableEq, Repr

/-- The whole machine. `moduleM` says that the ordering code is CY9400-M (R1). The last four fields are the model's
own (logs 2 and 3): the bundles being issued, the steps to come, the choices the manual leaves free, the count
of free bits taken, and the numbers given to operations. -/
structure State where
  moduleM  : Bool
  plat     : Plat
  care     : Care
  mem      : Memory
  poison   : List Nat
  absent   : List Nat
  ctxs     : List Context
  tasks    : List Task
  now      : Nat
  readies  : Nat
  gang     : Option Gang
  preempts : List Preempt
  saves    : List Saving
  kept     : List Kept
  invs     : List Invalidation
  teams    : List Team
  groups   : List Group
  lanterns : List Lantern
  cores    : List CoreState
  outb     : List Out
  stale    : List Stale
  agents   : List Agent
  locks    : List RangeLock
  journal  : List JournalEntry
  hostq    : List HostWr
  outbox   : List OutMsg
  fabric   : Fabric
  issue    : List Bundle
  agenda   : List Turn
  choices  : List Nat
  freeBits : Nat
  ids      : Nat
  turn     : Nat
  deriving DecidableEq, Repr

/-- The canonical form of a memory: locations strictly rising, and no zero byte. -/
def Memory.wf : Memory → Bool
  | [] => true
  | [(_, b)] => b != 0
  | (a, b) :: (a', b') :: rest => (b != 0) && decide (a < a') && Memory.wf ((a', b') :: rest)

/-- The machine right after a cold reset: stage 0 of the start, nothing posted, nothing resident (R362). -/
def State.reset : State where
  moduleM := true
  plat := {}
  care := {}
  mem := []
  poison := []
  absent := []
  ctxs := List.replicate 64 {}
  tasks := []
  now := 0
  readies := 0
  gang := none
  preempts := []
  saves := []
  kept := []
  invs := []
  teams := []
  groups := []
  lanterns := []
  cores := []
  outb := []
  stale := []
  agents := []
  locks := []
  journal := []
  hostq := []
  outbox := []
  fabric := {}
  issue := []
  agenda := []
  choices := []
  freeBits := 0
  ids := 0
  turn := 0

end Sys2Proof.Machine
end

