-- ==== Sys2Proof/Machine/Mem.lean ====
section
/-! DEFINITION. Bytes and memory: little-endian values (R9), the canonical memory, poison (R250, R258, R274), the
frames behind physical addresses (R261-R270), events to the host (R350), and reads and writes of M. -/

namespace Sys2Proof.Machine

/-- `n` bytes of a number, lowest first (R9). -/
def bytesOf : Nat → Nat → List Byte
  | 0, _ => []
  | n + 1, v => BitVec.ofNat 8 v :: bytesOf n (v / 256)

/-- The number that bytes hold, lowest first (R9). -/
def natOf : List Byte → Nat
  | [] => 0
  | b :: bs => b.toNat + 256 * natOf bs

/-- The byte at a location; an unlisted location reads zero (log 5). -/
def Memory.get : Memory → Nat → Byte
  | [], _ => 0
  | (a, b) :: rest, x => if a = x then b else Memory.get rest x

/-- Put one byte, keeping the canonical form. -/
def Memory.set : Memory → Nat → Byte → Memory
  | [], x, v => if v = 0 then [] else [(x, v)]
  | (a, b) :: rest, x, v =>
    if x < a then (if v = 0 then (a, b) :: rest else (x, v) :: (a, b) :: rest)
    else if x = a then (if v = 0 then rest else (a, v) :: rest)
    else (a, b) :: Memory.set rest x v

/-- `n` bytes from a location upwards. -/
def Memory.read (m : Memory) : Nat → Nat → List Byte
  | _, 0 => []
  | a, n + 1 => m.get a :: Memory.read m (a + 1) n

/-- Put bytes from a location upwards. -/
def Memory.write (m : Memory) : Nat → List Byte → Memory
  | _, [] => m
  | a, b :: bs => Memory.write (m.set a b) (a + 1) bs

/-- Remove every byte at locations `a` to `a + n - 1` (they read zero after). -/
def Memory.clear (m : Memory) (a n : Nat) : Memory := m.filter (fun c => c.1 < a || a + n ≤ c.1)

/-- Insert into a strictly rising list of numbers. -/
def insertNat (x : Nat) : List Nat → List Nat
  | [] => [x]
  | y :: ys => if x < y then x :: y :: ys else if x = y then y :: ys else y :: insertNat x ys

/-- The numbers `a`, `a + 1`, and so on, `n` of them. -/
def upFrom (a : Nat) : Nat → List Nat
  | 0 => []
  | n + 1 => a :: upFrom (a + 1) n

/-- Locations: DRAM by physical address (R261), then spare frames, the Cupola, the scratchpads, host memory and
remote memory. -/
def dramTop : Nat := 0x20000000000
def cupolaBase : Nat := 0x40000000000
def scratchBase : Nat := 0x80000000000
def hostBase : Nat := 0x4000000000000
def remoteBase : Nat := 0x10000000000000000000

def cupolaLoc (p : Nat) : Nat := cupolaBase + p
def scratchLoc (core off : Nat) : Nat := scratchBase + core * 0x200000 + off
def hostLoc (va : Nat) : Nat := hostBase + va
def remoteLoc (fid rctx va : Nat) : Nat := remoteBase + (fid * 64 + rctx) * 0x1000000000000 + va

def isDram (loc : Nat) : Bool := loc < dramTop
def isCupola (loc : Nat) : Bool := cupolaBase ≤ loc && loc < scratchBase
def isScratch (loc : Nat) : Bool := scratchBase ≤ loc && loc < hostBase
def isOutside (loc : Nat) : Bool := hostBase ≤ loc

/-- The device whose memory a location lies in (R353), and whether it is unreachable (R354). -/
def fidOf (loc : Nat) : Option Nat :=
  if remoteBase ≤ loc then some ((loc - remoteBase) / 0x1000000000000 / 64) else none

def State.deadLoc (s : State) (loc : Nat) : Bool :=
  match fidOf loc with
  | some f => s.fabric.dead.contains f
  | none => false

/-- The scope that covers a location (R144, R148): team for the scratchpad, device for Cupola and DRAM, else system. -/
def scopeOf (loc : Nat) : Nat := if isScratch loc then 1 else if isOutside loc then 5 else 4

/-- Parts of a physical address (R261). -/
def paGroup (pa : Nat) : Nat := pa / 0x10000 % 0x800000
def paMember (pa : Nat) : Nat := pa / 0x8000000000

/-- Whether a physical address is installed (R2, R261, R263). -/
def installed (s : State) (pa : Nat) : Bool :=
  pa < dramTop && paGroup pa < Config.firstReservedGroup && (s.moduleM || paMember pa = 0)

/-- The remap entry of a group; one that is not listed holds its reset value (R264). -/
def remapOf (c : Care) (g : Nat) : Remap :=
  match c.remaps.find? (fun r => r.group = g) with
  | some r => r
  | none => { group := g }

/-- Insert or replace a remap entry, by group number; an entry at its reset value is not listed. -/
def putRemapIn (r : Remap) : List Remap → List Remap
  | [] => [r]
  | x :: xs => if r.group < x.group then r :: x :: xs else if x.group = r.group then r :: xs else x :: putRemapIn r xs

def putRemap (c : Care) (r : Remap) : Care :=
  { c with remaps := (putRemapIn r c.remaps).filter (fun x => x ≠ { group := x.group }) }

/-- The frame of a member (R264). -/
def frameOf (r : Remap) (member : Nat) : Nat := r.map.toNat / 4 ^ member % 4

/-- The member that lies in a frame. -/
def memberIn (r : Remap) (frame : Nat) : Nat :=
  match (upFrom 0 4).find? (fun i => frameOf r i = frame) with
  | some i => i
  | none => 0

/-- Where a frame's bytes are stored. -/
def frameBase (group frame : Nat) : Nat := frame * 0x8000000000 + group * 0x10000

/-- The frame of a reserved group that a spare is (R262): a stack's spares follow the 80 frames of its remap table slice
and care area, a channel group's follow the 16 of its care area. 4,096 numbers are set aside for each domain (log 63). -/
def spareFrame (n : Nat) : Nat × Nat :=
  let e := n / 4096
  let k := n % 4096
  if e < 8 then (Config.firstReservedGroup + 8 * (80 + k) + e, 0)
  else (Config.firstReservedGroup + 8 * ((16 + k) / 3) + (e - 8), 1 + (16 + k) % 3)

def spareLoc (n : Nat) : Nat := frameBase (spareFrame n).1 (spareFrame n).2

/-- The frame that serves a frame of a group: itself, or the spare that replaces it (R264, R277). -/
def realFrame (r : Remap) (frame : Nat) : Nat × Nat :=
  match r.spares.find? (fun x => x.1 = frame) with
  | some (_, n) => spareFrame n
  | none => (r.group, frame)

/-- Where the bytes of a frame lie: in the frame, or in the spare that replaces it (R264, R277). -/
def frameLoc (r : Remap) (frame off : Nat) : Nat := frameBase (realFrame r frame).1 (realFrame r frame).2 + off

/-- Where a location's byte is stored: through the remap entry for DRAM (R264, R265). -/
def storeLoc (c : Care) (loc : Nat) : Nat :=
  if isDram loc then
    let r := remapOf c (paGroup loc)
    frameLoc r (frameOf r (paMember loc)) (loc % 0x10000)
  else loc

/-- The swap or retirement that holds the page of a location (R269). -/
def holder (c : Care) (loc : Nat) : Option Swap :=
  if isDram loc then
    c.swaps.find? (fun w => w.group = paGroup loc &&
      (w.memA = paMember loc || (!w.retire && w.memB = paMember loc)))
  else none

def held (c : Care) (loc : Nat) : Bool := (holder c loc).isSome

/-- The buffer that serves reads of a held page from WRITE to RELEASE (R269). -/
def swapBuffer (c : Care) (loc : Nat) : Option Block :=
  match holder c loc with
  | some w =>
    match w.phase with
    | .write | .commit => some (if w.memA = paMember loc then w.bufA else w.bufB)
    | _ => none
  | none => none

/-- One byte of M or of a scratchpad view, as it stands. -/
def State.byte (s : State) (loc : Nat) : Byte :=
  match swapBuffer s.care loc with
  | some b => b.data.get (loc % 0x10000)
  | none => s.mem.get (storeLoc s.care loc)

/-- Bytes of M or of a scratchpad view. -/
def State.bytes (s : State) : Nat → Nat → List Byte
  | _, 0 => []
  | a, n + 1 => s.byte a :: State.bytes s (a + 1) n

/-- Size of a poisoned unit: 8 bytes in a scratchpad or the Cupola, a line elsewhere (R250, R258, R274). -/
def unitSize (loc : Nat) : Nat := if isScratch loc || isCupola loc then 8 else 64

def unitOf (loc : Nat) : Nat := loc - loc % unitSize loc

/-- The units that `n` bytes from a location touch. -/
def unitsOf (loc n : Nat) : List Nat :=
  if n = 0 then []
  else
    let u := unitSize loc
    (upFrom 0 ((loc + n - 1) / u - loc / u + 1)).map (fun i => unitOf loc + i * u)

/-- Whether a unit is poisoned. -/
def State.poisoned (s : State) (unit : Nat) : Bool :=
  match swapBuffer s.care unit with
  | some b => b.poison.contains (unit % 0x10000)
  | none => s.poison.contains (storeLoc s.care unit)

/-- Whether any of `n` bytes is poisoned. -/
def State.anyPoison (s : State) (loc n : Nat) : Bool := (unitsOf loc n).any s.poisoned

/-- Send a message to the host (R343, R344). -/
def State.send (s : State) (m : OutMsg) : State := { s with outbox := s.outbox ++ [m] }

/-- An EVENT message with the payload of R350. -/
def eventMsg (code ctx slot : Nat) (phys domain row detail : Nat) : OutMsg :=
  { type := 0x8F, ctx := BitVec.ofNat 8 ctx, seqNo := 0, arg := BitVec.ofNat 64 code
    payload := bytesOf 2 code ++ bytesOf 1 ctx ++ bytesOf 1 0 ++ bytesOf 4 slot ++ bytesOf 8 phys
      ++ bytesOf 4 domain ++ bytesOf 4 row ++ bytesOf 8 detail }

/-- No context, no slot (R350). -/
def noCtx : Nat := 0xFF
def noSlot : Nat := 0xFFFFFFFF

def State.event (s : State) (code : Nat) (ctx : Nat := noCtx) (slot : Nat := noSlot) (phys : Nat := 0)
    (domain : Nat := 0) (row : Nat := 0) (detail : Nat := 0) : State :=
  s.send (eventMsg code ctx slot phys domain row detail)

/-- The care domain of a frame (R262, R275). -/
def frameDomain (group frame : Nat) : Nat := if frame = 0 then group % 8 else 8 + group % 8

/-- The row of a frame that holds one of its lines, numbered in the frame's care domain (R262): a fast frame has one row in
each of 64 pseudo-channels, of 16 lines, a capacity frame one in each channel. Which lines lie in which is free (log 97), and so is the
number of channels. -/
def rowNumber (group frame line : Nat) : Nat :=
  if frame = 0 then group / 8 * 64 + Config.pseudoChannelOf line
  else
    let n := max 1 Config.capacityChannels
    (group / 8 * 3 + (frame - 1)) * n + Config.channelOf line % n

/-- The frame that serves a DRAM location. -/
def frameServing (c : Care) (loc : Nat) : Nat × Nat :=
  let r := remapOf c (paGroup loc)
  realFrame r (frameOf r (paMember loc))

/-- The physical page of a member. -/
def pageOf (group member : Nat) : Nat := member * 0x8000000000 + group * 0x10000

/-- The group and frame that a spare frame serves in place of (R277). -/
def replacedBy (c : Care) (f : Nat × Nat) : Option (Remap × Nat) :=
  c.remaps.findSome? (fun r =>
    ((upFrom 0 4).find? (fun k => r.spares.any (fun x => x.1 = k) && realFrame r k = f)).map (fun k => (r, k)))

/-- The physical page that a frame serves (R280); a frame that serves none stands for itself. -/
def pageIn (c : Care) (group frame : Nat) : Nat :=
  if group < Config.firstReservedGroup then
    let r := remapOf c group
    if r.spares.any (fun x => x.1 = frame) then frameBase group frame else pageOf group (memberIn r frame)
  else
    match replacedBy c (group, frame) with
    | some (r, f) => pageOf r.group (memberIn r f)
    | none => frameBase group frame

/-- Event code 1: data loss in a line of a frame (R273, R274, R280, R350). -/
def State.lineLoss (s : State) (group frame line : Nat) : State :=
  s.event 1 (phys := pageIn s.care group frame) (domain := frameDomain group frame) (row := rowNumber group frame line)

/-- Event code 1: data loss at a location. -/
def State.dataLoss (s : State) (loc : Nat) : State :=
  if isDram loc then
    let f := frameServing s.care loc
    s.lineLoss f.1 f.2 (loc % 0x10000 / 64)
  else s.event 1 (phys := loc)

/-- Mark a unit as poisoned. -/
def State.poison1 (s : State) (unit : Nat) : State := { s with poison := insertNat (storeLoc s.care unit) s.poison }

/-- The part of a write that falls into one unit: a whole unit is written and its poison goes; part of a poisoned
unit is discarded, with a data-loss event in DRAM (R250, R258, R274). -/
def State.write1 (s : State) (loc : Nat) (bs : List Byte) : State :=
  let u := unitOf loc
  let su := storeLoc s.care u
  if bs.length = unitSize loc then
    { s with mem := s.mem.write (storeLoc s.care loc) bs, poison := s.poison.filter (· ≠ su) }
  else if s.poison.contains su then (if isDram loc then s.dataLoss loc else s)
  else { s with mem := s.mem.write (storeLoc s.care loc) bs }

/-- The pieces of a run of bytes, cut at multiples of `u`; `fuel` bounds the number of pieces. -/
def cut (u : Nat) : Nat → Nat → List Byte → List (Nat × List Byte)
  | 0, _, _ => []
  | _, _, [] => []
  | fuel + 1, loc, bs =>
    let n := u - loc % u
    (loc, bs.take n) :: cut u fuel (loc + n) (bs.drop n)

/-- Write bytes into M or a scratchpad view. -/
def State.store (s : State) (loc : Nat) (bs : List Byte) : State :=
  (cut (unitSize loc) (bs.length + 1) loc bs).foldl (fun s p => s.write1 p.1 p.2) s

/-- Halve all four counts when one reaches 15 (R266). -/
def bumpCnt (cnt : List Nat) (member : Nat) : List Nat :=
  let c := cnt.set member (cnt.getD member 0 + 1)
  if 15 ≤ c.getD member 0 then c.map (· / 2) else c

/-- TSWC fields (R268). -/
def tswcEn (w : Word) : Bool := w.getLsbD 31
def tswcSlots (w : Word) : Nat :=
  let n := (w.extractLsb' 8 7).toNat
  if n = 0 then 1 else if 64 < n then 64 else n
def tswcMin (w : Word) : Nat := (w.extractLsb' 4 4).toNat
def tswcMargin (w : Word) : Nat := let n := (w.extractLsb' 0 4).toNat; if n = 0 then 1 else n

/-- Count one DRAM request and start a swap when R267 says so (R266, R267). DESIGN CHOICE (log 98): a CY9400-P counts too;
its disabled swap unit (R263) makes no swap. -/
def State.countReq (s : State) (loc : Nat) : State :=
  if isDram loc then
    let g := paGroup loc
    let m := paMember loc
    let r := remapOf s.care g
    let r' := { r with cnt := bumpCnt r.cnt m }
    let care := putRemap s.care r'
    let f := frameOf r m
    let fast := memberIn r 0
    let cm := r'.cnt.getD m 0
    let go := f ≠ 0 && s.moduleM && tswcEn care.tswc && tswcMin care.tswc ≤ cm
      && r'.cnt.getD fast 0 + tswcMargin care.tswc ≤ cm
      && care.swaps.length < tswcSlots care.tswc
      && !(care.swaps.any (fun w => w.group = g)) && !(care.due.any (fun d => d.group = g))
      && g < Config.firstReservedGroup
    { s with care := if go then { care with swaps := care.swaps ++ [{ group := g, retire := false, frame := f, memA := m, memB := fast }] }
                     else care }
  else s

/-- One request of an agent, the host, a walker or a remote device that reads M: counted, and its bytes. -/
def State.request (s : State) (loc n : Nat) : State × List Byte := (s.countReq loc, s.bytes loc n)

/-- One request that writes M (R266). -/
def State.put (s : State) (loc : Nat) (bs : List Byte) : State := (s.countReq loc).store loc bs

/-- The line of a location. -/
def lineOf (loc : Nat) : Nat := loc - loc % 64

/-- The copy of a line in a core's stale copies takes new bytes (R141, R143). -/
def Stale.take (c : Stale) (loc : Nat) (bs : List Byte) : Stale :=
  { c with bytes := (upFrom 0 64).map (fun i =>
      if loc ≤ c.line + i ∧ c.line + i < loc + bs.length then bs.getD (c.line + i - loc) 0 else c.bytes.getD i 0) }

def State.refreshStale (s : State) (core loc : Nat) (bs : List Byte) : State :=
  { s with stale := s.stale.map (fun c => if c.core = core ∧ c.line = lineOf loc then c.take loc bs else c) }

/-- Whether an entry holds a byte. -/
def Entry.holds (e : Entry) (loc : Nat) : Bool := e.loc ≤ loc && loc < e.loc + e.bytes.length

/-- The youngest entry of a queue (oldest first) that holds a byte. -/
def youngest (q : List Entry) (loc : Nat) : Option Byte :=
  (q.filter (fun e => e.holds loc)).getLast?.map (fun e => e.bytes.getD (loc - e.loc) 0)

def overlaps (a n b m : Nat) : Bool := a < b + m && b < a + n

/-- The entries of a core's outbound channel, oldest first. -/
def State.channel (s : State) (core : Nat) : List Entry := (s.outb.filter (fun o => o.core = core)).map (·.entry)

/-- The byte a load of a core takes through a store queue: from the queue, the view, the outbound channel, the stale
copies, or M (R140). -/
def State.loadByte (s : State) (core : Nat) (sq : List Entry) (loc : Nat) : Byte :=
  match youngest sq loc with
  | some b => b
  | none =>
    if isScratch loc then s.byte loc
    else
      match youngest (s.channel core) loc with
      | some b => b
      | none =>
        match s.stale.find? (fun c => c.core = core && c.line = lineOf loc) with
        | some c => c.bytes.getD (loc - c.line) 0
        | none => s.byte loc

def State.loadBytes (s : State) (core : Nat) (sq : List Entry) : Nat → Nat → List Byte
  | _, 0 => []
  | a, n + 1 => s.loadByte core sq a :: State.loadBytes s core sq (a + 1) n

end Sys2Proof.Machine
end

