-- ==== Sys2Proof/Machine/Operands.lean ====
section
/-! DEFINITION. Operand forms: immediates and displacements with and without PFX (R48, R49), register pairs (R9, R13),
per-lane offsets (R155), and the legality rules that depend on the team or on who issues (R55). -/

namespace Sys2Proof.Machine

/-- A sign-extended immediate, joined to a PFX payload when one precedes the word (R48). -/
def immS {n : Nat} (f : BitVec n) (pfx : Option (BitVec 25)) : DWord :=
  match pfx with
  | some p => (p ++ f).signExtend 64
  | none => f.signExtend 64

/-- A zero-extended displacement, joined to a PFX payload (R48). -/
def immZ {n : Nat} (f : BitVec n) (pfx : Option (BitVec 25)) : DWord :=
  match pfx with
  | some p => (p ++ f).setWidth 64
  | none => f.setWidth 64

/-- An address from 64 bits: the low 48 (R12). -/
def addrOf (x : DWord) : Addr := x.setWidth 48

/-- A branch target: the word's own address plus 4 plus 4 times the displacement, in 48 bits (R48, R61). -/
def target {n : Nat} (pos : Addr) (d : BitVec n) (pfx : Option (BitVec 25)) : Addr :=
  pos + 4 + 4 * addrOf (immS d pfx)

/-- An address held in a register: bits 47:2 (R65, R73, R313). -/
def codeAddr (x : DWord) : Addr := addrOf (x &&& 0x0000FFFFFFFFFFFC#64)

/-- Words that a PFX may precede, by their major (R48, R49). -/
def pfxAdmits (w : Word) : Bool :=
  if w.getLsbD 31 then [1, 2, 3, 5, 7, 8, 9, 13].contains (fld w 25 6).toNat
  else [2, 3, 4, 5, 7, 17, 18, 19, 20, 24].contains (fld w 25 5).toNat

/-- A vector register of a lane; one beyond the kernel's count is never read by a legal word (R13). -/
def Lane.reg (l : Lane) (r : Nat) : Word := l.v.getD r 0

/-- The value of a pair: the even register holds bits 31:0 (R9). -/
def Lane.pair (l : Lane) (r : Nat) : DWord := l.reg (r + 1) ++ l.reg r

/-- A predicate of a lane; p0 reads 1 (R12). -/
def Lane.pred (l : Lane) (r : Nat) : Bool := r = 0 || l.p.getLsbD r

/-- The writes of a 32-bit result. -/
def w32 (d : VReg) (x : Word) : List (Dest × DWord) := [(.v d.toNat, x.setWidth 64)]

/-- The writes of a 64-bit result to a pair. -/
def w64 (d : VReg) (x : DWord) : List (Dest × DWord) :=
  [(.v d.toNat, (x.extractLsb' 0 32).setWidth 64), (.v (d.toNat + 1), (x.extractLsb' 32 32).setWidth 64)]

/-- The write of a predicate. -/
def wp (p : PReg) (b : Bool) : List (Dest × DWord) := [(.p p.toNat, if b then 1 else 0)]

/-- The writes of bytes loaded into consecutive registers, lowest first (R159). -/
def wBytes (r : Nat) : List Byte → List (Dest × DWord)
  | b0 :: b1 :: b2 :: b3 :: rest => (.v r, (b3 ++ b2 ++ b1 ++ b0 : Word).setWidth 64) :: wBytes (r + 1) rest
  | _ => []

/-- Bytes of `n` consecutive registers, lowest first. -/
def Lane.regBytes (l : Lane) (r : Nat) : Nat → List Byte
  | 0 => []
  | n + 1 => bytesOf 4 (l.reg r).toNat ++ Lane.regBytes l (r + 1) n

/-- A per-lane offset: va plus the displacement times the width, mod 2^32 (R155). -/
def Lane.offset (l : Lane) (a : VReg) (sc : BitVec 3) (pfx : Option (BitVec 25)) (w : Nat) : Word :=
  l.reg a.toNat + (immZ sc pfx).setWidth 32 * BitVec.ofNat 32 w

/-- L-set words: bit 31 clear (R38). -/
def isLset (w : Word) : Bool := !w.getLsbD 31

/-- Whether every register of a use lies below the kernel's count (R13). -/
def usesWithin (u : Use) (n : Nat) : Bool := (u.src ++ u.dst).all (fun r => r.1.toNat + r.2 ≤ n)

/-- The accumulators a number with its W bit names (R203). -/
def accTop (n : BitVec 5) : Nat := n.toNat % 16 + n.toNat / 16

/-- Causes of R55 that depend on the team's counts, on the group's width or on who issues the word: registers beyond
`.vregs` (6), tiles and accumulators (7), values out of range (10), an L-set word in the lantern (11). -/
def dynCauses (t : Team) (lantern inHandler : Bool) (i : Code) (w : Word) : List Nat :=
  (if lantern && isLset w then [11] else []) ++
  (if usesWithin i.use t.vregs then [] else [6]) ++
  (match i with
   | .u (.tld _ _ _ n) | .u (.tst _ _ _ n) | .u (.tzero _ n) | .u (.movsh _ _ n) | .u (.tcvt _ _ n)
   | .u (.tspk _ _ n) | .u (.tqld _ _ n) =>
       if t.tiles ≤ n.toNat then [7] else []
   | .u (.accld _ _ _ n) | .u (.accst _ _ _ n) | .u (.accz _ n) => if t.accs ≤ accTop n then [7] else []
   | .l (.exits _ n) => if t.vregs < n.toNat then [10] else []
   | .u (.vread _ _ i) => if t.width ≤ i.toNat then [10] else []
   | .u .tbar | .u .pbar | .u (.dqpop _ _) => if lantern then [10] else []
   | .u (.dqpush _ _) => if lantern then [] else [10]
   | .u .eret => if inHandler then [] else [10]
   | .u (.setc d _) => if d = 6 && !inHandler then [10] else []
   | _ => [])

/-- Fields of the keyed store's configuration word: key width and combine (R184). -/
def kWide (c : DWord) : Bool := c.getLsbD 13
def kOp (c : DWord) : Nat := (c.extractLsb' 16 4).toNat

/-- The 64-bit combines (R186). -/
def kPair (c : DWord) : Bool := kOp c = 1 || kOp c = 3 || kOp c = 8 || kOp c = 9

/-- The register positions that a configured partition makes pairs (R187, R192). -/
def keyedPairs (k : Keyed) : Code → List VReg
  | .l (.kacc d a b _) =>
      (if kWide k.cfg then [a] else []) ++ (if kPair k.cfg then [b, d] else [])
  | .l (.kfind _ a _ _) => if kWide k.cfg then [a] else []
  | _ => []

/-- Causes of R55 that depend on the configuration of the partition (R41, R187): odd pairs, and pairs beyond `.vregs`. -/
def keyedCauses (k : Keyed) (t : Team) (i : Code) : List Nat :=
  if !k.configured then []
  else
    (if (keyedPairs k i).any (fun r => r.toNat % 2 = 1) then [5] else []) ++
    (if (keyedPairs k i).any (fun r => t.vregs ≤ r.toNat + 1) then [6] else [])

/-- Every cause of R55 an instruction meets when it runs. -/
def legality (t : Team) (lantern inHandler : Bool) (i : Code) (w : Word) : Option Nat :=
  lowestCause (staticCauses i ++ dynCauses t lantern inHandler i w)

end Sys2Proof.Machine
end

