-- ==== Sys2Proof/Machine/Flags.lean ====
section
/-! DEFINITION. Floating-point values and every flag computation (R95-R110, R118-R130, R165, R166): exact values, one
rounding, overflow, underflow after rounding, zero signs, NaNs, minimum and maximum, order keys, conversions and the
special functions. -/

namespace Sys2Proof.Machine

/-- A binary format (R95): exponent and fraction widths, bias; E4M3 has no infinities. -/
structure Fmt where
  eb   : Nat
  fb   : Nat
  bias : Nat
  e4m3 : Bool := false
  deriving DecidableEq, Repr

def fp64 : Fmt := { eb := 11, fb := 52, bias := 1023 }
def fp32 : Fmt := { eb := 8, fb := 23, bias := 127 }
def fp16 : Fmt := { eb := 5, fb := 10, bias := 15 }
def bf16 : Fmt := { eb := 8, fb := 7, bias := 127 }
def e5m2 : Fmt := { eb := 5, fb := 2, bias := 15 }
def e4m3 : Fmt := { eb := 4, fb := 3, bias := 7, e4m3 := true }

/-- The five flags, NV in bit 0, then DZ, OF, UF, NX (R18, R307). -/
abbrev Flags := BitVec 5
def flagNV : Flags := 1
def flagDZ : Flags := 2
def flagOF : Flags := 4
def flagUF : Flags := 8
def flagNX : Flags := 16

/-- A value (R96): NaN, an infinity, or sign, integer magnitude and power of two. -/
inductive Fv where
  | nan (sig : Bool)
  | inf (neg : Bool)
  | fin (neg : Bool) (m : Nat) (e : Int)
  deriving DecidableEq, Repr

/-- The value of a pattern (R96, R97). -/
def decodeF (f : Fmt) (x : Nat) : Fv :=
  let fr := x % 2 ^ f.fb
  let ex := x / 2 ^ f.fb % 2 ^ f.eb
  let neg := x / 2 ^ (f.fb + f.eb) % 2 = 1
  if ex = 0 then .fin neg fr (1 - (f.bias : Int) - f.fb)
  else if ex = 2 ^ f.eb - 1 ∧ !f.e4m3 then
    if fr = 0 then .inf neg else .nan (fr / 2 ^ (f.fb - 1) = 0)
  else if f.e4m3 ∧ ex = 2 ^ f.eb - 1 ∧ fr = 2 ^ f.fb - 1 then .nan false
  else .fin neg (2 ^ f.fb + fr) ((ex : Int) - f.bias - f.fb)

def signBit (f : Fmt) (neg : Bool) : Nat := if neg then 2 ^ (f.fb + f.eb) else 0

/-- The canonical NaN (R95, R97). -/
def qnan (f : Fmt) : Nat := if f.e4m3 then 0x7F else (2 ^ f.eb - 1) * 2 ^ f.fb + 2 ^ (f.fb - 1)

/-- An infinity; E4M3 saturates (R97, R102). -/
def infOf (f : Fmt) (neg : Bool) : Nat := signBit f neg + (if f.e4m3 then 0x7E else (2 ^ f.eb - 1) * 2 ^ f.fb)

/-- The largest finite pattern (R95). -/
def maxFinite (f : Fmt) (neg : Bool) : Nat :=
  signBit f neg + (if f.e4m3 then 0x7E else (2 ^ f.eb - 1) * 2 ^ f.fb - 1)

def zeroOf (f : Fmt) (neg : Bool) : Nat := signBit f neg

/-- Rounding modes (R101); a dithered conversion carries its threshold (R108). -/
inductive Rnd where
  | rne | rz | rup | rdn
  | dither (t : Nat)
  deriving DecidableEq, Repr

/-- The mode of FPC.RM (R18). -/
def rndOf (m : BitVec 2) : Rnd := if m = 0 then .rne else if m = 1 then .rz else if m = 2 then .rup else .rdn

/-- Number of bits of a magnitude. -/
def bitLen (m : Nat) : Nat := if m = 0 then 0 else Nat.log2 m + 1

/-- Round a magnitude to an integer count of units of 2^q: the count, and whether it is inexact. The magnitude is
m * 2^e, or lies strictly between it and (m + 1) * 2^e when `sticky` holds (R101, R108). -/
def roundAt (r : Rnd) (neg : Bool) (m : Nat) (e : Int) (sticky : Bool) (q : Int) : Nat × Bool :=
  if q ≤ e then (m * 2 ^ (e - q).toNat, sticky)
  else
    let d := (q - e).toNat
    let n := m / 2 ^ d
    let rest := m % 2 ^ d
    let inexact := rest ≠ 0 || sticky
    let up := match r with
      | .rne => 2 ^ d < 2 * rest || (2 * rest = 2 ^ d && (sticky || n % 2 = 1))
      | .rz => false
      | .rup => !neg && inexact
      | .rdn => neg && inexact
      | .dither t => 128 * 2 ^ d ≤ rest * 128 + (2 * t + 1) * 2 ^ d
    (if up then n + 1 else n, inexact)

/-- A rounded count of units as a pattern. -/
def packF (f : Fmt) (neg : Bool) (n : Nat) (q : Int) : Nat :=
  if n < 2 ^ f.fb then signBit f neg + n
  else if n = 2 ^ (f.fb + 1) then signBit f neg + (q + 1 + f.fb + f.bias).toNat * 2 ^ f.fb
  else signBit f neg + (q + f.fb + f.bias).toNat * 2 ^ f.fb + (n - 2 ^ f.fb)

/-- Round a nonzero magnitude into a format, with OF, UF after rounding, and NX (R101-R103, R108). -/
def roundF (f : Fmt) (r : Rnd) (neg : Bool) (m : Nat) (e : Int) (sticky : Bool := false) : Nat × Flags :=
  if m = 0 ∧ !sticky then (zeroOf f neg, 0)
  else
    let emin : Int := 1 - (f.bias : Int)
    let top : Int := (bitLen m : Int) - 1 + e
    let q : Int := max (top - f.fb) (emin - f.fb)
    let (n, inexact) := roundAt r neg m e sticky q
    let emax : Int := if f.e4m3 then 8 else (2 ^ f.eb - 2 : Nat) - (f.bias : Int)
    let most : Nat := if f.e4m3 then 2 ^ (f.fb + 1) - 2 else 2 ^ (f.fb + 1) - 1
    let big : Bool := emax - f.fb < q || (q = emax - f.fb && most < n)
    if big then
      let v := if f.e4m3 then maxFinite f neg
        else match r with
          | .rne | .dither _ => infOf f neg
          | .rz => maxFinite f neg
          | .rup => if neg then maxFinite f neg else infOf f neg
          | .rdn => if neg then infOf f neg else maxFinite f neg
      (v, flagOF ||| flagNX)
    else
      let q2 : Int := top - f.fb
      let (n2, _) := roundAt r neg m e sticky q2
      let tiny : Bool := if q2 ≤ emin then n2 < 2 ^ (emin - q2).toNat else false
      (packF f neg n q, if inexact then (if tiny then flagNX ||| flagUF else flagNX) else 0)

/-- Flag NV of a signalling operand (R97). -/
def sigOf : Fv → Flags
  | .nan true => flagNV
  | _ => 0

def isNan : Fv → Bool
  | .nan _ => true
  | _ => false

def negOf : Fv → Bool
  | .fin n _ _ => n
  | .inf n => n
  | .nan _ => false

def isZero : Fv → Bool
  | .fin _ m _ => m = 0
  | _ => false

def isInf : Fv → Bool
  | .inf _ => true
  | _ => false

def flipSign : Fv → Fv
  | .fin n m e => .fin (!n) m e
  | .inf n => .inf (!n)
  | .nan s => .nan s

/-- The signed integer of a finite value at exponent `e0`, which is at most its own. -/
def scaled (neg : Bool) (m : Nat) (e e0 : Int) : Int :=
  let v : Int := (m * 2 ^ (e - e0).toNat : Nat)
  if neg then -v else v

/-- The sign of an exact zero sum (R104). -/
def zeroSum (r : Rnd) (n1 n2 : Bool) : Bool := if n1 = n2 then n1 else r = .rdn

/-- The exact sum of two finite values, rounded once (R101, R104). -/
def addFin (f : Fmt) (r : Rnd) (n1 : Bool) (m1 : Nat) (e1 : Int) (n2 : Bool) (m2 : Nat) (e2 : Int) : Nat × Flags :=
  if m1 = 0 ∧ m2 = 0 then (zeroOf f (zeroSum r n1 n2), 0)
  else
    let e0 := if m1 = 0 then e2 else if m2 = 0 then e1 else min e1 e2
    let v := (if m1 = 0 then 0 else scaled n1 m1 e1 e0) + (if m2 = 0 then 0 else scaled n2 m2 e2 e0)
    if v = 0 then (zeroOf f (r = .rdn), 0) else roundF f r (v < 0) v.natAbs e0

/-- Add two values (R97, R118). -/
def addV (f : Fmt) (r : Rnd) (a b : Fv) : Nat × Flags :=
  let s := sigOf a ||| sigOf b
  match a, b with
  | .nan _, _ | _, .nan _ => (qnan f, s)
  | .inf x, .inf y => if x = y then (infOf f x, s) else (qnan f, s ||| flagNV)
  | .inf x, _ => (infOf f x, s)
  | _, .inf y => (infOf f y, s)
  | .fin n1 m1 e1, .fin n2 m2 e2 => addFin f r n1 m1 e1 n2 m2 e2

/-- The exact product; none for zero times infinity. -/
def mulV : Fv → Fv → Option Fv
  | .nan s, _ => some (.nan s)
  | _, .nan s => some (.nan s)
  | .inf x, .inf y => some (.inf (x != y))
  | .inf x, .fin n m _ => if m = 0 then none else some (.inf (x != n))
  | .fin n m _, .inf y => if m = 0 then none else some (.inf (n != y))
  | .fin n1 m1 e1, .fin n2 m2 e2 => some (.fin (n1 != n2) (m1 * m2) (e1 + e2))

def fmulV (f : Fmt) (r : Rnd) (a b : Fv) : Nat × Flags :=
  let s := sigOf a ||| sigOf b
  match mulV a b with
  | none => (qnan f, s ||| flagNV)
  | some (.nan _) => (qnan f, s)
  | some (.inf n) => (infOf f n, s)
  | some (.fin n m e) => if m = 0 then (zeroOf f n, 0) else roundF f r n m e

/-- Fused multiply-add, rounded once; zero times infinity raises NV whatever the addend (R120). -/
def fmaV (f : Fmt) (r : Rnd) (a b c : Fv) : Nat × Flags :=
  let s := sigOf a ||| sigOf b ||| sigOf c
  match mulV a b with
  | none => (qnan f, s ||| flagNV)
  | some p =>
    if isNan p || isNan c then (qnan f, s)
    else addV f r p c

/-- Two-operand arithmetic on patterns of a format (R120, R123). -/
def fAdd (f : Fmt) (r : Rnd) (x y : Nat) : Nat × Flags := addV f r (decodeF f x) (decodeF f y)
def fSub (f : Fmt) (r : Rnd) (x y : Nat) : Nat × Flags := addV f r (decodeF f x) (flipSign (decodeF f y))
def fMul (f : Fmt) (r : Rnd) (x y : Nat) : Nat × Flags := fmulV f r (decodeF f x) (decodeF f y)
/-- x * y + z, and z - x * y. -/
def fFma (f : Fmt) (r : Rnd) (x y z : Nat) : Nat × Flags := fmaV f r (decodeF f x) (decodeF f y) (decodeF f z)
def fFms (f : Fmt) (r : Rnd) (x y z : Nat) : Nat × Flags := fmaV f r (flipSign (decodeF f x)) (decodeF f y) (decodeF f z)

/-- A key that rises with the value, -0 below +0 (R105, R106). -/
def orderBits (w x : Nat) : Nat := if x / 2 ^ (w - 1) % 2 = 0 then x + 2 ^ (w - 1) else 2 ^ w - 1 - x

def fwidth (f : Fmt) : Nat := 1 + f.eb + f.fb

/-- Minimum or maximum (R105). -/
def fMinMax (f : Fmt) (wantMax : Bool) (x y : Nat) : Nat × Flags :=
  let a := decodeF f x
  let b := decodeF f y
  let s := sigOf a ||| sigOf b
  if isNan a && isNan b then (qnan f, s)
  else if isNan a then (y, s)
  else if isNan b then (x, s)
  else
    let lt := orderBits (fwidth f) x < orderBits (fwidth f) y
    (if wantMax then (if lt then y else x) else (if lt then x else y), s)

/-- The order keys of R106 at width w, in a format. -/
def ordkey (f : Fmt) (x : Nat) : Nat := if isNan (decodeF f x) then 0 else orderBits (fwidth f) x
def minkey (f : Fmt) (x : Nat) : Nat := if isNan (decodeF f x) then 0 else 2 ^ fwidth f - 1 - ordkey f x
def packedKey (key index : Nat) : Nat := key * 2 ^ 32 + (0xFFFFFFFF - index % 2 ^ 32)

/-- Whether the second candidate of a maxloc or minloc displaces the first (R106, R166). -/
def locWins (wantMax : Bool) (i x j y : Nat) : Bool :=
  let k (v : Nat) : Nat := if wantMax then ordkey fp32 v else minkey fp32 v
  packedKey (k x) i < packedKey (k y) j

/-- The pair stored by maxloc or minloc (R166): index in bits 31:0, value in bits 63:32, a NaN canonical. -/
def locCombine (wantMax : Bool) (old new : DWord) : DWord :=
  let i := (old.extractLsb' 0 32).toNat
  let x := (old.extractLsb' 32 32).toNat
  let j := (new.extractLsb' 0 32).toNat
  let y := (new.extractLsb' 32 32).toNat
  let (i, x) := if locWins wantMax i x j y then (j, y) else (i, x)
  let x := if isNan (decodeF fp32 x) then 0x7FC00000 else x
  BitVec.ofNat 64 (x * 2 ^ 32 + i)

/-- Exact comparison of two values that are not NaN: below, equal, above. -/
def cmpV (a b : Fv) : Ordering :=
  match a, b with
  | .inf x, .inf y => if x = y then .eq else if x then .lt else .gt
  | .inf x, _ => if x then .lt else .gt
  | _, .inf y => if y then .gt else .lt
  | .fin n1 m1 e1, .fin n2 m2 e2 =>
    let e0 := min e1 e2
    compare (scaled n1 m1 e1 e0) (scaled n2 m2 e2 e0)
  | _, _ => .eq

/-- The conditions of R124, with NV for a signalling NaN. -/
def fcmpHolds (f : Fmt) (c : BitVec 3) (x y : Nat) : Bool × Flags :=
  let a := decodeF f x
  let b := decodeF f y
  let n := isNan a || isNan b
  let o := cmpV a b
  (match c.toNat with
   | 0 => !n && o = .eq
   | 1 => !n && o ≠ .eq
   | 2 => !n && o = .lt
   | 3 => !n && o ≠ .gt
   | 4 => !n && o = .gt
   | 5 => !n && o ≠ .lt
   | 6 => n
   | _ => !n, sigOf a ||| sigOf b)

/-- Sign operations (R120): exact, but a NaN in va gives the canonical NaN and a signalling NaN raises NV. -/
def fSign (f : Fmt) (x : Nat) (neg : Bool) (extra : Flags := 0) : Nat × Flags :=
  let a := decodeF f x
  if isNan a then (qnan f, sigOf a ||| extra) else (x % 2 ^ (fwidth f - 1) + signBit f neg, extra)

def fAbs (f : Fmt) (x : Nat) : Nat × Flags := fSign f x false
def fNeg (f : Fmt) (x : Nat) : Nat × Flags := fSign f x (x / 2 ^ (fwidth f - 1) % 2 = 0)
def fCps (f : Fmt) (x y : Nat) : Nat × Flags := fSign f x (y / 2 ^ (fwidth f - 1) % 2 = 1) (sigOf (decodeF f y))

/-- Round to an integral value (R121). -/
def fRound (f : Fmt) (r : Rnd) (x : Nat) : Nat × Flags :=
  match decodeF f x with
  | .nan s => (qnan f, if s then flagNV else 0)
  | .inf _ => (x, 0)
  | .fin n m e =>
    if m = 0 ∨ 0 ≤ e then (x, 0)
    else
      let (k, _) := roundAt r n m e false 0
      if k = 0 then (zeroOf f n, 0) else ((roundF f .rz n k 0).1, 0)

/-- The class mask of R122. -/
def fClass (f : Fmt) (x : Nat) : Nat :=
  match decodeF f x with
  | .nan true => 256
  | .nan false => 512
  | .inf true => 1
  | .inf false => 128
  | .fin n m _ =>
    if m = 0 then (if n then 8 else 16)
    else if m < 2 ^ f.fb then (if n then 4 else 32)
    else (if n then 2 else 64)

/-- Convert between floating-point formats (R128, R129). -/
def fConvert (src dst : Fmt) (r : Rnd) (x : Nat) : Nat × Flags :=
  match decodeF src x with
  | .nan s => (qnan dst, if s then flagNV else 0)
  | .inf n => if dst.e4m3 then (qnan dst, flagNV) else (infOf dst n, 0)
  | .fin n m e => if m = 0 then (zeroOf dst n, 0) else roundF dst r n m e

/-- Convert to an integer of a range (R130), as a signed integer. -/
def fToInt (f : Fmt) (r : Rnd) (lo hi : Int) (x : Nat) : Int × Flags :=
  match decodeF f x with
  | .nan _ => (0, flagNV)
  | .inf n => (if n then lo else hi, flagNV)
  | .fin n m e =>
    let (k, inexact) := roundAt r n m e false 0
    let v : Int := if n then -(k : Int) else k
    if v < lo then (lo, flagNV) else if hi < v then (hi, flagNV) else (v, if inexact then flagNX else 0)

/-- Convert from an integer (R128). -/
def fFromInt (f : Fmt) (r : Rnd) (v : Int) : Nat × Flags :=
  if v = 0 then (0, 0) else roundF f r (v < 0) v.natAbs 0

/-! ### Special functions (R125, R126): every result is the exact value rounded once under RNE -/

/-- The largest r below 2^bits with r * r at most n. -/
def isqrtFrom (n : Nat) : Nat → Nat → Nat
  | 0, r => r
  | k + 1, r => let t := r + 2 ^ k; if t * t ≤ n then isqrtFrom n k t else isqrtFrom n k r

def isqrt (n : Nat) : Nat := isqrtFrom n (bitLen n / 2 + 1) 0

/-- 1/x of a nonzero finite magnitude: quotient bits and exponent, with a sticky bit. -/
def recip (f : Fmt) (n : Bool) (m : Nat) (e : Int) : Nat × Flags :=
  let k := bitLen m + f.fb + 8
  roundF f .rne n (2 ^ k / m) (-(k : Int) - e) (2 ^ k % m ≠ 0)

/-- A magnitude with an even exponent. -/
def evenExp (m : Nat) (e : Int) : Nat × Int := if e % 2 = 0 then (m, e) else (2 * m, e - 1)

def sqrtF (f : Fmt) (m : Nat) (e : Int) : Nat × Flags :=
  let (m, e) := evenExp m e
  let k := f.fb + 8
  let n := m * 2 ^ (2 * k)
  let r := isqrt n
  roundF f .rne false r (e / 2 - k) (r * r ≠ n)

def rsqrtF (f : Fmt) (m : Nat) (e : Int) : Nat × Flags :=
  let (m, e) := evenExp m e
  let k := bitLen m + f.fb + 8
  let q := 2 ^ (2 * k) / m
  let r := isqrt q
  roundF f .rne false r (-(k : Int) - e / 2) (r * r * m ≠ 2 ^ (2 * k))

def fRcp (f : Fmt) (x : Nat) : Nat × Flags :=
  match decodeF f x with
  | .nan s => (qnan f, if s then flagNV else 0)
  | .inf n => (zeroOf f n, 0)
  | .fin n m e => if m = 0 then (infOf f n, flagDZ) else recip f n m e

def fRsq (f : Fmt) (x : Nat) : Nat × Flags :=
  match decodeF f x with
  | .nan s => (qnan f, if s then flagNV else 0)
  | .inf n => if n then (qnan f, flagNV) else (zeroOf f false, 0)
  | .fin n m e => if m = 0 then (infOf f n, flagDZ) else if n then (qnan f, flagNV) else rsqrtF f m e

def fSqrt (f : Fmt) (x : Nat) : Nat × Flags :=
  match decodeF f x with
  | .nan s => (qnan f, if s then flagNV else 0)
  | .inf n => if n then (qnan f, flagNV) else (infOf f false, 0)
  | .fin n m e => if m = 0 then (zeroOf f n, 0) else if n then (qnan f, flagNV) else sqrtF f m e

/-- pi and ln 2 with 256 fraction bits (log 15). -/
def piFixed : Nat := 0x3243f6a8885a308d313198a2e03707344a4093822299f31d0082efa98ec4e6c89
def ln2Fixed : Nat := 0xb17217f7d1cf79abc9e3b39803f2f6af40f343267298b62d8a0d175b8baafa2b

/-- The sum of a power series whose term k is the term before times `t` over `den k`, with 256 fraction bits;
`alt` makes the signs alternate. Gives the positive and the negative part. -/
def series (t : Nat) (den : Nat → Nat) (alt : Bool) : Nat → Nat → Nat → Nat → Nat → Nat × Nat
  | 0, _, _, p, n => (p, n)
  | fuel + 1, k, term, p, n =>
    let (p, n) := if alt && k % 2 = 1 then (p, n + term) else (p + term, n)
    series t den alt fuel (k + 1) (term * t / 2 ^ 256 / den (k + 1)) p n

/-- exp of t with 256 fraction bits, t below 1. -/
def expFixed (t : Nat) : Nat := (series t (fun k => k) false 64 0 (2 ^ 256) 0 0).1

/-- sin of t with 256 fraction bits, t at most pi/2. -/
def sinFixed (t : Nat) : Nat :=
  let (p, n) := series (t * t / 2 ^ 256) (fun k => 2 * k * (2 * k + 1)) true 48 0 t 0 0
  p - n

/-- The fraction of a finite value below 1 with 256 bits, and its floor. -/
def floorFrac (neg : Bool) (m : Nat) (e : Int) : Int × Nat :=
  let v : Int := if 0 ≤ e + 256 then scaled neg m (e + 256) 0 else if neg then -1 else 0
  (v / (2 ^ 256 : Nat), (v % (2 ^ 256 : Nat)).toNat)

def fExp2 (x : Nat) : Nat × Flags :=
  match decodeF fp32 x with
  | .nan s => (qnan fp32, if s then flagNV else 0)
  | .inf n => if n then (0, 0) else (infOf fp32 false, 0)
  | .fin n m e =>
    if m = 0 then (0x3F800000, 0)
    else
      let (i, fr) := floorFrac n m e
      if 200 < i then roundF fp32 .rne false 1 200
      else if i < -400 then roundF fp32 .rne false 1 (-400)
      else if fr = 0 then roundF fp32 .rne false 1 i
      else roundF fp32 .rne false (expFixed (fr * ln2Fixed / 2 ^ 256)) (i - 256) true

/-- Binary digits of log2 of y in [1, 2), y with 320 fraction bits, most significant first (R125). -/
def log2Digits : Nat → Nat → Nat → Nat
  | 0, _, acc => acc
  | k + 1, y, acc =>
    let z := y * y / 2 ^ 320
    if 2 ^ 321 ≤ z then log2Digits k (z / 2) (2 * acc + 1) else log2Digits k z (2 * acc)

def fLog2 (x : Nat) : Nat × Flags :=
  match decodeF fp32 x with
  | .nan s => (qnan fp32, if s then flagNV else 0)
  | .inf n => if n then (qnan fp32, flagNV) else (infOf fp32 false, 0)
  | .fin n m e =>
    if m = 0 then (infOf fp32 true, flagDZ)
    else if n then (qnan fp32, flagNV)
    else
      let top : Int := (bitLen m : Int) - 1
      let i := top + e
      if m = 2 ^ top.toNat then fFromInt fp32 .rne i
      else
        let d := log2Digits 128 (m * 2 ^ (320 - top.toNat)) 0
        let v : Int := i * (2 ^ 128 : Nat) + d
        if 0 ≤ v then roundF fp32 .rne false v.toNat (-128) true
        else roundF fp32 .rne true (-(v + 1)).toNat (-128) true

/-- sin of pi r for r in [0, 1/2] with 256 fraction bits, rounded with a sign; r = 1/2 is exactly 1. -/
def sinPart (neg : Bool) (r : Nat) : Nat × Flags :=
  if r = 2 ^ 255 then roundF fp32 .rne neg 1 0
  else roundF fp32 .rne neg (sinFixed (r * piFixed / 2 ^ 256)) (-256) true

/-- A finite value modulo 2 with 256 fraction bits, by magnitude. -/
def mod2 (m : Nat) (e : Int) : Nat :=
  if 0 ≤ e + 256 then (m * 2 ^ (e + 256).toNat) % 2 ^ 257 else 0

def fSinp (x : Nat) : Nat × Flags :=
  match decodeF fp32 x with
  | .nan s => (qnan fp32, if s then flagNV else 0)
  | .inf _ => (qnan fp32, flagNV)
  | .fin n m e =>
    if m = 0 then (zeroOf fp32 n, 0)
    else
      let r := mod2 m e
      if r % 2 ^ 256 = 0 then (zeroOf fp32 n, 0)
      else
        let neg := n != (2 ^ 256 < r)
        let a := r % 2 ^ 256
        sinPart neg (if 2 ^ 255 < a then 2 ^ 256 - a else a)

def fCosp (x : Nat) : Nat × Flags :=
  match decodeF fp32 x with
  | .nan s => (qnan fp32, if s then flagNV else 0)
  | .inf _ => (qnan fp32, flagNV)
  | .fin _ m e =>
    if m = 0 then (0x3F800000, 0)
    else
      let r := mod2 m e
      let a := if 2 ^ 256 < r then 2 ^ 257 - r else r
      if a = 2 ^ 255 then (0, 0)
      else if a < 2 ^ 255 then sinPart false (2 ^ 255 - a)
      else sinPart true (a - 2 ^ 255)

/-! ### Dither (R108-R110) -/

/-- The ordered-dither matrix, row-major (R109). -/
def ditherB : List Nat :=
  [0, 32, 8, 40, 2, 34, 10, 42, 48, 16, 56, 24, 50, 18, 58, 26] ++
  [12, 44, 4, 36, 14, 46, 6, 38, 60, 28, 52, 20, 62, 30, 54, 22] ++
  [3, 35, 11, 43, 1, 33, 9, 41, 51, 19, 59, 27, 49, 17, 57, 25] ++
  [15, 47, 7, 39, 13, 45, 5, 37, 63, 31, 55, 23, 61, 29, 53, 21]

/-- The threshold of a position and a phase (R108). -/
def ditherT (pos phase : Nat) : Nat := ditherB.getD ((pos + 37 * phase) % 64) 0

/-! ### Bank arithmetic (R165, R224, R257) -/

/-- The value of a CUPOP element from the constant, the destination and the source (R224). -/
def cupElem (op : Nat) (c d s : DWord) : DWord :=
  let lo (x : DWord) : Nat := (x.extractLsb' 0 32).toNat
  match op with
  | 0 => (c.extractLsb' 0 32).setWidth 64
  | 1 => c
  | 2 => BitVec.ofNat 64 (fMul fp32 .rne (lo c) (lo s)).1
  | 3 => ((d.extractLsb' 0 32) + (s.extractLsb' 0 32)).setWidth 64
  | 4 => BitVec.ofNat 64 (fAdd fp32 .rne (lo d) (lo s)).1
  | 5 => BitVec.ofNat 64 (fAdd fp64 .rne d.toNat s.toNat).1
  | 6 => BitVec.ofNat 64 (fFma fp32 .rne (lo c) (lo s) (lo d)).1
  | 7 => BitVec.ofNat 64 (fFma fp64 .rne c.toNat s.toNat d.toNat).1
  | 8 => BitVec.ofNat 64 (fMinMax fp32 true (lo d) (lo s)).1
  | _ => BitVec.ofNat 64 (fMinMax fp32 false (lo d) (lo s)).1

end Sys2Proof.Machine
end

