-- ==== Sys2Proof/Machine/Translate.lean ====
section
/-! DEFINITION. Address translation: page tables, walks, cached leaves, permissions and apertures
(R324-R332, R352, R353). -/

namespace Sys2Proof.Machine

/-- A valid leaf: where its page lies, the virtual page, and its attributes (R327). `c` marks a Cupola page, whose
`base` is a Cupola physical offset. -/
structure Leaf where
  base : Nat
  va   : Nat
  size : Nat
  c    : Bool
  t    : Bool
  w    : Bool
  r    : Bool
  deriving DecidableEq, Repr

/-- What a walk ends in (R328): the entry of a leaf with its virtual page and size, nothing mapped, or a malformed
entry with its address. -/
inductive Walk where
  | leaf (entry : DWord) (va size : Nat)
  | none
  | malformed (entry : Nat)
  deriving DecidableEq, Repr

/-- The context with a number. -/
def State.ctx (s : State) (c : Nat) : Context := s.ctxs.getD c {}

def State.setCtx (s : State) (c : Nat) (x : Context) : State := { s with ctxs := s.ctxs.set c x }

/-- A page-table entry's address field, bits 40:8 (R327). -/
def pteAddr (e : DWord) : Nat := (e.extractLsb' 8 33).toNat * 256

def windowTop : Nat := Config.windowBase + Config.windowBytes

/-- The leaf an entry describes. -/
def leafOf (e : DWord) (va size : Nat) : Leaf :=
  { base := pteAddr e, va := va, size := size, c := e.getLsbD 5, t := e.getLsbD 4, w := e.getLsbD 3, r := e.getLsbD 2 }

/-- Whether an entry is malformed as a leaf at a level (R328). -/
def badLeaf (s : State) (level : Nat) (e : DWord) (va size : Nat) : Bool :=
  let a := pteAddr e
  level = 1 || a % size ≠ 0 ||
    (if e.getLsbD 5 then
       level = 2 || Config.windowBytes < a + size || !(Config.windowBase ≤ va && va + size ≤ windowTop)
     else !(installed s a && installed s (a + size - 1)) || overlaps va size Config.windowBase Config.windowBytes)

/-- Whether an entry is malformed as a pointer to a table of `align` bytes (R326, R328). -/
def badPointer (s : State) (level : Nat) (e : DWord) (align : Nat) : Bool :=
  level = 4 || pteAddr e % align ≠ 0 || !installed s (pteAddr e)

/-- The entry at an address, read from M (R330). -/
def pteAt (s : State) (a : Nat) : DWord := BitVec.ofNat 64 (natOf (s.bytes a 8))

/-- The levels from `level` down: index shift, entries, alignment of the next table (R326). -/
def levelShift (level : Nat) : Nat := if level = 1 then 39 else if level = 2 then 30 else if level = 3 then 21 else 16
def levelEntries (level : Nat) : Nat := if level = 4 then 32 else 512
def nextAlign (level : Nat) : Nat := if level = 3 then 256 else 4096

/-- Walk from a table at level `4 - fuel + 1` downwards, with the addresses of the entries read. -/
def walkFrom (s : State) (va : Nat) : Nat → Nat → Nat → List Nat × Walk
  | 0, _, _ => ([], .none)
  | fuel + 1, level, table =>
    let sh := levelShift level
    let size := 2 ^ sh
    let ea := table + 8 * (va / size % levelEntries level)
    let e := pteAt s ea
    if s.poisoned (unitOf ea) then ([ea], .none)
    else if !e.getLsbD 0 then ([ea], .none)
    else if e.extractLsb' 41 23 ≠ 0 || e.extractLsb' 6 2 ≠ 0 then ([ea], .malformed ea)
    else if e.getLsbD 1 then
      let page := va - va % size
      ([ea], if badLeaf s level e page size then .malformed ea else .leaf e page size)
    else if badPointer s level e (nextAlign level) then ([ea], .malformed ea)
    else
      let (as, w) := walkFrom s va fuel (level + 1) (pteAddr e)
      (ea :: as, w)

/-- Bits 40:12 of PTROOT (R325). -/
def rootOf (x : DWord) : Nat := (x.extractLsb' 12 29).toNat * 4096

/-- A walk of the tables of a context (R325, R326). -/
def walk (s : State) (c va : Nat) : List Nat × Walk :=
  let x := (s.ctx c).ptroot
  if x.getLsbD 0 then walkFrom s va 4 1 (rootOf x) else ([], .none)

/-- The leaf that a translation uses: one the device still caches, or the result of a walk (R330, R332; log 16). -/
def leafFor (s : State) (c va : Nat) : Walk :=
  match (s.ctx c).tlb.find? (fun t => t.1 ≤ va && va < t.1 + t.2.1) with
  | some (p, n, e) => .leaf e p n
  | none => (walk s c va).2

/-- Fill the cache, count the walk's reads and report a malformed entry, when a page is translated (R266, R328, R330). -/
def State.touch (s : State) (c va : Nat) : State :=
  if (s.ctx c).tlb.any (fun t => t.1 ≤ va && va < t.1 + t.2.1) then s
  else
    let (reads, w) := walk s c va
    let s := reads.foldl (fun s a => s.countReq a) s
    match w with
    | .leaf e p n => s.setCtx c { s.ctx c with tlb := (s.ctx c).tlb ++ [(p, n, e)] }
    | .none => s
    | .malformed ea => s.event 5 (ctx := c) (detail := ea)

/-- Aperture fields (R352). -/
def lapValid (l : DWord × DWord) : Bool := l.1.getLsbD 63
def lapHost (l : DWord × DWord) : Bool := l.1.getLsbD 62
def lapBase (l : DWord × DWord) : Nat := (l.1.extractLsb' 16 32).toNat * 0x10000
def lapBytes (l : DWord × DWord) : Nat := (l.2.extractLsb' 0 32).toNat * 0x10000
def lapDev (l : DWord × DWord) : Nat := (l.2.extractLsb' 52 12).toNat
def lapRctx (l : DWord × DWord) : Nat := (l.2.extractLsb' 46 6).toNat

def lapHolds (l : DWord × DWord) (va : Nat) : Bool := lapValid l && lapBase l ≤ va && va < lapBase l + lapBytes l

/-- The aperture of a context that an address lies in. -/
def lapOf (s : State) (c va : Nat) : Option (DWord × DWord) := (s.ctx c).laps.find? (fun l => lapHolds l va)

/-- A translated address: the location, the page's permissions and TSO attribute, and whether it lies in an aperture. -/
structure Page where
  loc : Nat
  r   : Bool
  w   : Bool
  t   : Bool
  lap : Bool := false
  deriving DecidableEq, Repr

/-- A translation's outcome: a page, or cause 3 (R328). -/
inductive Xl where
  | ok (p : Page)
  | fault (cause : Nat)
  deriving DecidableEq, Repr

/-- Translate a 48-bit virtual address of a context (R324, R328, R353). -/
def xlate (s : State) (c va : Nat) : Xl :=
  match leafFor s c va with
  | .leaf e p n =>
    let l := leafOf e p n
    match lapOf s c va with
    | some lap =>
      if l.c then .fault 3
      else .ok { loc := if lapHost lap then hostLoc va else remoteLoc (lapDev lap) (lapRctx lap) va
                 r := l.r, w := l.w, t := l.t, lap := true }
    | none =>
      if l.c then .ok { loc := cupolaLoc (l.base + (va - p)), r := l.r, w := l.w, t := l.t }
      else .ok { loc := l.base + (va - p), r := l.r, w := l.w, t := l.t }
  | _ => .fault 3

/-- What an access needs of its page (R328). -/
inductive Need where
  | read | write | both
  deriving DecidableEq, Repr

def Page.allows (p : Page) : Need → Bool
  | .read => p.r
  | .write => p.w
  | .both => p.r && p.w

/-- Translate and check permission: cause 3 or 4 (R328). -/
def xlateFor (s : State) (c va : Nat) (n : Need) : Xl :=
  match xlate s c va with
  | .ok p => if p.allows n then .ok p else .fault 4
  | .fault k => .fault k

/-- A window byte for the Belfry or a thread: the page, which must be a Cupola page inside the window (R324). -/
def windowPage (s : State) (c off : Nat) (n : Need) : Xl := xlateFor s c (Config.windowBase + off) n

/-- The 64 KiB pages that a range touches. -/
def pagesOf (va n : Nat) : List Nat :=
  if n = 0 then [] else (upFrom 0 ((va + n - 1) / 0x10000 - va / 0x10000 + 1)).map (fun i => (va / 0x10000 + i) * 0x10000)

/-- What the target said of an aperture page (R354). -/
def answerFor (s : State) (c page : Nat) : Option TargetAnswer :=
  (s.fabric.answers.find? (fun a => a.1 = c && a.2.1.toNat = page)).map (fun a => a.2.2)

/-- Whether a page lies in an aperture whose target has not answered yet, and is not known to be unreachable (R354). -/
def unanswered (s : State) (c va : Nat) : Bool :=
  match xlate s c va with
  | .ok p => p.lap && (answerFor s c (va - va % 0x10000)).isNone && !s.deadLoc p.loc
  | .fault _ => false

/-- As `xlateFor`, with the target's answer for a page in an aperture: cause 3 or 4 (R354). -/
def xlateGlobal (s : State) (c va : Nat) (n : Need) : Xl :=
  match xlateFor s c va n with
  | .ok p =>
    if p.lap then
      match answerFor s c (va - va % 0x10000) with
      | some .notMapped => .fault 3
      | some .denied => .fault 4
      | _ => .ok p
    else .ok p
  | .fault k => .fault k

/-- The first failure of the pages of a range, or none (check 3 of R221, R329). -/
def rangeFault (s : State) (c va n : Nat) (need : Need) : Option Nat :=
  (pagesOf va n).foldl (fun r p =>
    match r with
    | some k => some k
    | none => match xlateGlobal s c (max p va) need with
              | .ok _ => none
              | .fault k => some k) none

def rangeUnanswered (s : State) (c va n : Nat) : Bool := (pagesOf va n).any (fun p => unanswered s c (max p va))

def State.touchRange (s : State) (c va n : Nat) : State := (pagesOf va n).foldl (fun s p => s.touch c p) s

/-- The translations of a window access that the Belfry or a trap entry makes (R328, R329, R330). -/
def State.windowTouch (s : State) (c off n : Nat) : State :=
  if Config.windowBytes < off + n then s else s.touchRange c (Config.windowBase + off) n

/-- Bytes of a window range of a context read by the Belfry from M; none when a page fails or a unit is poisoned
(R229, R329). Offsets at or beyond 0x2000_0000 fail. -/
def windowBytes (s : State) (c off n : Nat) : Option (List Byte) :=
  if Config.windowBytes < off + n then none
  else (upFrom 0 n).foldr (fun i acc =>
    match acc with
    | none => none
    | some bs =>
      match windowPage s c (off + i) .read with
      | .ok p => if s.poisoned (unitOf p.loc) then none else some (s.byte p.loc :: bs)
      | .fault _ => none) (some [])

/-- Write bytes through the window of a context into M, one by one checked; none when a page fails (R329). -/
def windowWrite (s : State) (c off : Nat) (bs : List Byte) : Option State :=
  if Config.windowBytes < off + bs.length then none
  else
    if (pagesOf (Config.windowBase + off) bs.length).all (fun p =>
        match windowPage s c (max p (Config.windowBase + off) - Config.windowBase) .write with
        | .ok _ => true | .fault _ => false) then
      some ((cut 0x10000 (bs.length + 1) (Config.windowBase + off) bs).foldl (fun s q =>
        match xlate s c q.1 with
        | .ok p => s.store p.loc q.2
        | .fault _ => s) s)
    else none

end Sys2Proof.Machine
end

