-- ==== Sys2Proof/Machine/Engine.lean ====
section
/-! DEFINITION. Engine agents, range locks and presence bits (R148-R151, R220-R224, R249-R254), the outbound channel
and the scopes of releases and acquires (R139-R147). -/

namespace Sys2Proof.Machine

/-! ### Presence -/

/-- Whether the line of a scratchpad location is absent (R249). -/
def State.lineAbsent (s : State) (loc : Nat) : Bool := s.absent.contains (lineOf loc)

def linesOf (loc n : Nat) : List Nat :=
  if n = 0 then [] else (upFrom 0 ((loc + n - 1) / 64 - loc / 64 + 1)).map (fun i => lineOf loc + 64 * i)

def State.clearPresence (s : State) (lines : List Nat) : State :=
  { s with absent := lines.foldl (fun a l => insertNat l a) s.absent }

/-- Set the bits of lines that no outstanding operation registers any more (R150). -/
def State.setPresence (s : State) (lines : List Nat) : State :=
  { s with absent := s.absent.filter (fun l => !(lines.contains l && !s.agents.any (fun a => a.lines.contains l))) }

/-! ### Range locks -/

/-- The entries of a core's table, or of the Belfry's for 256 (R251). -/
def State.locksOf (s : State) (core : Nat) : List RangeLock := s.locks.filter (fun l => l.core = core)

def lockRoom (core : Nat) : Nat := if core = 256 then Config.belfryLocks else Config.coreLocks

/-- Whether a table has room for more entries (R253). -/
def State.lockFree (s : State) (core n : Nat) : Bool := (s.locksOf core).length + n ≤ lockRoom core

/-- What a thread access meets in the range-lock tables (R151, R254). -/
inductive LockHit where
  | clear
  | park
  | trap
  deriving DecidableEq, Repr

/-- The address in which an entry is compared: window ranges as virtual addresses (R254). -/
def RangeLock.virt (l : RangeLock) : Nat := if l.sp = 2 then Config.windowBase + l.base else l.base

/-- The scratchpad location at which an entry of a team begins: on its own core, or on the partner's (R251). -/
def RangeLock.scratch (s : State) (l : RangeLock) : Nat :=
  match s.teams.find? (fun t => t.id = l.team) with
  | some t =>
    let core := if l.sp = 1 then (if l.core % 2 = 0 then l.core + 1 else l.core - 1) else l.core
    match t.sides.find? (fun d => d.core = core) with
    | some d => scratchLoc core (d.base * 64 + l.base)
    | none => 0
  | none => 0

/-- Compare a scratchpad access with the entries of its team (R254). -/
def lockScratch (s : State) (team loc n : Nat) (load : Bool) : LockHit :=
  let hit := s.locks.filter (fun l => l.sp ≤ 1 && l.team = team && overlaps loc n (l.scratch s) l.len)
  if hit = [] then .clear
  else if load then
    (if hit.any (fun l => l.dst) then .park else .clear)
  else .trap

/-- Compare a window or global access of a context with its entries on every core and in the Belfry (R254). -/
def lockVirtual (s : State) (ctx va n : Nat) (load : Bool) : LockHit :=
  let hit := s.locks.filter (fun l => 2 ≤ l.sp && l.ctx = ctx && overlaps va n l.virt l.len)
  if hit = [] then .clear
  else if load && !(hit.any (fun l => l.dst)) then .clear
  else .trap

/-! ### Steps of agents -/

/-- The part of a range that each 64-byte line holds (R137): location, length, place in the transfer. -/
def lineParts : Nat → Nat → Nat → Nat → List (Nat × Nat × Nat)
  | 0, _, _, _ => []
  | fuel + 1, loc, n, off =>
    if n = 0 then []
    else
      let k := min n (64 - loc % 64)
      (loc, k, off) :: lineParts fuel (loc + k) (n - k) (off + k)

/-- The parts of a virtual range, page by page, line by line, where each lies, and whether the page is TSO. -/
def virtParts (s : State) (ctx va n off : Nat) : List (Nat × Nat × Nat × Bool) :=
  (lineParts (n / 64 + 2) va n off).map (fun p =>
    match xlate s ctx p.1 with
    | .ok q => (q.loc, p.2.1, p.2.2, q.t)
    | .fault _ => (remoteBase - 1, p.2.1, p.2.2, false))

def AStep.reads : AStep → Bool
  | .read _ _ _ _ => true
  | _ => false

def AStep.tsoRead : AStep → Bool
  | .read _ _ _ t => t
  | _ => false

def AStep.tsoWrite : AStep → Bool
  | .write _ _ _ t => t
  | .elem _ _ _ _ _ t => t
  | _ => false

def AStep.overlapsRead (off len : Nat) : AStep → Bool
  | .read _ n o _ => overlaps o n off len
  | _ => false

def AStep.writesLine (line : Nat) : AStep → Bool
  | .write loc _ _ _ => lineOf loc = line
  | .elem _ _ _ _ _ _ => false
  | .read _ _ _ _ => false

/-- Whether the n-th step of an agent may be taken (R149, R153): a write needs its bytes read, and every source byte
of an operation whose source and destination overlap; TSO parts go in address order; a held page delays a write. -/
def Agent.stepReady (a : Agent) (n : Nat) : Bool :=
  match a.steps[n]? with
  | none => false
  | some st =>
    let before := a.steps.take n
    match st with
    | .read _ _ _ t => !(t && before.any AStep.tsoRead)
    | .write _ len off t =>
      !(a.steps.any (fun x => x.overlapsRead off len)) && !(a.whole && a.steps.any AStep.reads)
        && !(t && before.any AStep.tsoWrite)
    | .elem _ off e _ _ t =>
      !(a.steps.any (fun x => x.overlapsRead off e)) && !(a.whole && a.steps.any AStep.reads)
        && !(t && before.any AStep.tsoWrite)

/-- The offsets in `len` bytes that lie in poisoned units. -/
def State.badOffsets (s : State) (loc len : Nat) : List Nat :=
  if s.deadLoc loc then upFrom 0 len else (upFrom 0 len).filter (fun i => s.poisoned (unitOf (loc + i)))

/-- Mark as poisoned the units of a write that bytes at bad offsets fall into; a whole line in DRAM (R222, R274). -/
def State.poisonAt (s : State) (loc : Nat) (bad : List Nat) : State :=
  bad.foldl (fun s i => s.poison1 (unitOf (loc + i))) s

def State.setAgent (s : State) (a : Agent) : State :=
  { s with agents := s.agents.map (fun x => if x.id = a.id then a else x) }

/-- Take the n-th step of an agent (R149): a read puts bytes and their poison into its buffer; a write puts them into
memory, and the last write in a line that no other operation registers sets its presence (R150); an element of a CUPOP is one read-modify-write at its bank (R224, R258). -/
def takeStep (s : State) (a : Agent) (n : Nat) : State :=
  match a.steps[n]? with
  | none => s
  | some st =>
    let rest := a.steps.take n ++ a.steps.drop (n + 1)
    match st with
    | .read loc len off _ =>
      let bad := (s.badOffsets loc len).map (· + off)
      let a' := { a with steps := rest, buf := (a.buf.clear off len).write off (s.bytes loc len)
                         bad := bad.foldl (fun b x => insertNat x b) a.bad }
      let s1 := if s.deadLoc loc then s.event 13 (ctx := a.ctx) (slot := a.task) else s.countReq loc
      s1.setAgent a'
    | .write loc len off _ =>
      let a' := { a with steps := rest }
      if s.deadLoc loc then ((s.event 13 (ctx := a.ctx) (slot := a.task)).setAgent a')
      else
        let bad := ((upFrom 0 len).filter (fun i => a.bad.contains (off + i)))
        let s1 := ((s.put loc (a.buf.read off len)).poisonAt loc bad).setAgent a'
        let others := s1.agents.any (fun x => x.id ≠ a.id && x.lines.contains (lineOf loc))
        if isScratch loc && a.lines.contains (lineOf loc) && !(rest.any (fun x => x.writesLine (lineOf loc))) && !others then
          { s1 with absent := s1.absent.filter (· ≠ lineOf loc) }
        else s1
    | .elem dst off e op c _ =>
      let a' := { a with steps := rest }
      let bad := (2 ≤ op && (upFrom off e).any (fun i => a.bad.contains i)) || (3 ≤ op && s.anyPoison dst e)
      let d := BitVec.ofNat 64 (natOf (s.bytes dst e))
      let v := BitVec.ofNat 64 (natOf (a.buf.read off e))
      let s1 := (s.store dst (bytesOf e (cupElem op c d v).toNat)).setAgent a'
      if bad then s1.poison1 (unitOf dst) else s1

/-- Remove an agent and its range locks and set the presence bits only it held (R150, R253). -/
def State.dropAgent (s : State) (a : Agent) : State :=
  let s := { s with agents := s.agents.filter (fun x => x.id ≠ a.id), locks := s.locks.filter (fun l => l.agent ≠ a.id) }
  s.setPresence a.lines

/-- Start an agent: it takes its entries and clears the presence bits of its destination lines (R148, R253). -/
def State.startAgent (s : State) (a : Agent) (locks : List RangeLock) : State :=
  { (s.clearPresence a.lines) with agents := s.agents ++ [a], locks := s.locks ++ locks }

/-- A fresh number for an operation. -/
def State.fresh (s : State) : State := { s with ids := s.ids + 1 }

/-- A choice the manual leaves free, from the choices the state holds (log 3); none left counts as 0. -/
def State.choose (s : State) : Nat × State :=
  match s.choices with
  | [] => (0, s)
  | c :: cs => (c, { s with choices := cs })

/-! ### The outbound channel, releases and acquires -/

/-- Whether a location is covered by a scope (R144). -/
def inScope (scope loc : Nat) : Bool := if scope = 5 then true else if 3 ≤ scope then !isOutside loc else false

/-- Whether the entry with `older` before it may move to M (R142, R153). -/
def outReady (older : List Entry) (e : Entry) : Bool :=
  !(older.any (fun x => overlaps x.loc x.bytes.length e.loc e.bytes.length))
    && !(e.rel && older.any (fun x => inScope 4 x.loc))
    && !(e.tso && older.any (fun x => x.tso))

/-- The entry with its own first occurrence removed from a core's channel. -/
def removeOut (core : Nat) (e : Entry) : List Out → List Out
  | [] => []
  | o :: os => if o.core = core ∧ o.entry = e then os else o :: removeOut core e os

/-- An entry reaches M, and the core's stale copy takes its bytes (R141, R142). A dead target drops it (R354). -/
def landOut (s : State) (core : Nat) (e : Entry) : State :=
  let s := { s with outb := removeOut core e s.outb }
  if s.deadLoc e.loc then s.event 13 (ctx := e.ctx) (slot := e.slot)
  else (s.put e.loc e.bytes).refreshStale core e.loc e.bytes

/-- Try to move the n-th entry of a core's channel to M. An entry for a held page waits for the release (R269, R270). -/
def outStep (s : State) (core n : Nat) : State :=
  let ch := s.channel core
  match ch[n]? with
  | none => s
  | some e =>
    if outReady (ch.take n) e then
      if held s.care e.loc then
        { s with care := { s.care with swaps := s.care.swaps.map (fun w =>
            if some w = holder s.care e.loc && !(w.waits.contains (.out core e)) then
              { w with waits := w.waits ++ [.out core e] } else w) } }
      else landOut s core e
    else s

/-- Which entries of a channel, oldest first, go to M for the sake of those that `p` names: these, and each that must go before one
that goes (R142, R153). -/
def goFirst (p : Entry → Bool) : List Entry → List (Entry × Bool)
  | [] => []
  | e :: es =>
    let rest := goFirst p es
    (e, p e || rest.any (fun y => y.2 && !outReady [e] y.1)) :: rest

/-- The marked entries of a channel, from the n-th on, move in order as far as they can; the others stay. -/
def drainMarked (core : Nat) : List Bool → Nat → State → State
  | [], _, s => s
  | m :: ms, n, s =>
    let s' := if m then outStep s core n else s
    drainMarked core ms (if (s'.channel core).length < (s.channel core).length then n else n + 1) s'

/-- The entries of a core's channel that `p` names reach M, with those that must go before them, as far as they can. -/
def drainOut (s : State) (core : Nat) (p : Entry → Bool) : State := drainMarked core ((goFirst p (s.channel core)).map (·.2)) 0 s

/-- Discard a core's stale copies that a scope covers (R146). -/
def State.acquire (s : State) (core scope : Nat) : State :=
  if scope < 3 then s
  else { s with stale := s.stale.filter (fun c => !(c.core = core && inScope scope c.line)) }

end Sys2Proof.Machine
end

