-- ==== Sys2Proof/Machine/Tasks.lean ====
section
/-! DEFINITION. Task records (R228-R230), the slots of a context (R284), free bits (log 3), and the forced reset of a
context (R171, R321, R322). -/

namespace Sys2Proof.Machine

/-- A number in `n` bytes of a record from an offset. -/
def recNat (r : List Byte) (off n : Nat) : Nat := natOf ((r.drop off).take n)

def recKind (r : List Byte) : Nat := recNat r 0 1 % 8
def recFlags (r : List Byte) : Nat := recNat r 1 1
def recPriority (r : List Byte) : Nat := recFlags r % 8
def recDet (r : List Byte) : Bool := recFlags r / 8 % 2 = 1
def recIdem (r : List Byte) : Bool := recFlags r / 16 % 2 = 1
def recPair (r : List Byte) : Bool := recFlags r / 32 % 2 = 1
def recLantern (r : List Byte) : Bool := recFlags r / 64 % 2 = 1
def recNbv (r : List Byte) : Nat := recNat r 2 1
def recNreg (r : List Byte) : Nat := recNat r 3 1 % 16
def recNsucc (r : List Byte) : Nat := recNat r 3 1 / 16
def recCounter (r : List Byte) : Nat := recNat r 4 4
def recEntry (r : List Byte) : Nat := recNat r 8 6
def recGpt (r : List Byte) : Nat := recNat r 14 1
def recWidthCode (r : List Byte) : Nat := recNat r 15 1
def recWidth (r : List Byte) : Nat := 16 * 2 ^ recWidthCode r
def recTeams (r : List Byte) : Nat := recNat r 16 4
def recVregs (r : List Byte) : Nat := recNat r 20 1
def recTiles (r : List Byte) : Nat := recNat r 21 1
def recAccs (r : List Byte) : Nat := recNat r 22 1
def recKas (r : List Byte) : Nat := recNat r 24 2
def recScrl (r : List Byte) : Nat := recNat r 26 2
def recLaneb (r : List Byte) : Nat := recNat r 28 2
def recRgn (r : List Byte) : Nat := recNat r 30 4
def recBmap (r : List Byte) : Nat := recNat r 34 4
def recChain (r : List Byte) : Nat := recNat r 38 4
def recSeed (r : List Byte) : Nat := recNat r 42 8
def recSucc (r : List Byte) (i : Nat) : Nat := recNat r 50 13 / 2 ^ (13 * i) % 8192
def recArg (r : List Byte) (i : Nat) : Nat := recNat r (64 + 8 * i) 8

/-- The range of slots of a context (R284). -/
def cslotBase (w : Word) : Nat := (w.extractLsb' 0 13).toNat
def cslotCount (w : Word) : Nat := (w.extractLsb' 13 14).toNat
def cslotCeil (w : Word) : Nat := (w.extractLsb' 27 3).toNat

/-- Whether a slot lies in a context's range. -/
def slotIn (s : State) (ctx slot : Nat) : Bool :=
  let w := (s.ctx ctx).cslot
  cslotBase w ≤ slot && slot < cslotBase w + cslotCount w && slot < Config.taskSlots

/-- Whether a context save of a context is in progress (R318): its groups and lanterns issue nothing. -/
def State.saving (s : State) (ctx : Nat) : Bool := s.saves.any (fun v => v.ctx = ctx && v.gone.isNone)

/-- A bit the manual leaves open (log 3). -/
def State.takeBit (s : State) : Bool × State := (Config.freeBit s.freeBits, { s with freeBits := s.freeBits + 1 })

/-- A write of a killed context that waits for a held page is performed at its release (R269). `bad` are the places of its
poisoned bytes, `used` the translation it used. -/
def State.waitWrite (s : State) (loc : Nat) (bs : List Byte) (bad : List Nat) (used : Option (Nat × List Addr)) : State :=
  { s with care := { s.care with swaps := s.care.swaps.map (fun w =>
      if some w = holder s.care loc then { w with waits := w.waits ++ [.remote loc bs none bad used] } else w) } }

/-- The translation that a store entry used. -/
def Entry.used (e : Entry) : Option (Nat × List Addr) :=
  e.va.map (fun a => (e.ctx, (pagesOf a.toNat e.bytes.length).map (BitVec.ofNat 48)))

/-- Each entry of a killed context's queues and channels independently reaches memory or is discarded (R171). -/
def fateOf (s : State) (e : Entry) : State :=
  let (b, s) := s.takeBit
  if b then (if held s.care e.loc then s.waitWrite e.loc e.bytes [] e.used else s.put e.loc e.bytes) else s

/-- The location that a step writes. -/
def AStep.writeLoc : AStep → Option Nat
  | .write loc _ _ _ => some loc
  | .elem loc _ _ _ _ _ => some loc
  | .read _ _ _ _ => none

/-- Whether a step writes a held page (R269). -/
def AStep.heldBy (c : Care) (st : AStep) : Bool :=
  match st.writeLoc with
  | some loc => held c loc
  | none => false

/-- Each step that an agent of a killed context still owes is performed or not, independently (R321). A write of a held page is
performed at its release (R269). -/
def fateSteps : Nat → State → Agent → State
  | 0, s, _ => s
  | fuel + 1, s, a =>
    let (b, s) := s.takeBit
    match s.agents.find? (fun x => x.id = a.id) with
    | none => s
    | some a =>
      match a.steps with
      | [] => s
      | st :: rest =>
        if !b then fateSteps fuel (s.setAgent { a with steps := rest }) a
        else if st.heldBy s.care then
          let s1 := match st with
            | .write loc len off _ =>
              s.waitWrite loc (a.buf.read off len) ((upFrom 0 len).filter (fun i => a.bad.contains (off + i))) (some (a.ctx, a.pages))
            | _ => s
          fateSteps fuel (s1.setAgent { a with steps := rest }) a
        else fateSteps fuel (takeStep s a 0) a

/-- The fabric ids of a collective's participants by rank (R355). -/
def participants (s : State) (ctx : Nat) (r : List Byte) : List Nat :=
  let n := recArg r 4 / 65536 % 8192
  match windowBytes s ctx (recArg r 5) (2 * n) with
  | some bs => (upFrom 0 n).map (fun i => natOf ((bs.drop (2 * i)).take 2))
  | none => []

/-- Send an abort of a collective to every other participant (R322). -/
def sendAborts (s : State) (t : Task) : State :=
  let all := ((s.fabric.insts.find? (fun c => c.slot = t.slot)).map (·.parts)).getD []
  let ps := all.filter (fun f => f ≠ s.plat.fid.toNat)
  { s with fabric := { s.fabric with sent := s.fabric.sent ++ ps.map (fun f => (f, BitVec.ofNat 64 (recArg t.record 3))) } }

/-- Remove what a team holds: its groups, lantern, range locks, journal entries, agents and bundles. -/
def State.removeTeam (s : State) (id : Nat) : State :=
  let mine (core slot : Nat) : Bool :=
    s.groups.any (fun g => g.core = core && g.slot = slot && g.team = id) ||
    s.lanterns.any (fun l => l.core = core && l.slot = slot && l.team = id)
  let ags := s.agents.filter (fun a => a.team = some id)
  let s1 := { s with issue := s.issue.filter (fun b => !mine b.core b.slot)
                     groups := s.groups.filter (fun g => g.team ≠ id)
                     lanterns := s.lanterns.filter (fun l => l.team ≠ id)
                     teams := s.teams.filter (fun t => t.id ≠ id)
                     journal := s.journal.filter (fun j => j.teamId ≠ some id) }
  ags.foldl (fun s a => s.dropAgent a) s1

/-- SAVEDONE of the oldest saves that have ended without an image (R344, R345). -/
def flushSaves (s : State) : State :=
  let out := s.saves.takeWhile (fun v => v.gone.isSome)
  out.foldl (fun s v => s.send { type := 0x88, ctx := BitVec.ofNat 8 v.ctx, seqNo := v.seqNo, arg := v.gone.getD 0 })
    { s with saves := s.saves.dropWhile (fun v => v.gone.isSome) }

/-- Kill a context at once (R321, R322). The reason goes into EVENT code 8 (R350). DESIGN CHOICE (log 122): of the entries that reach
memory, those of the outbound channels go first, then those of the store queues, group by group and lantern by lantern. -/
def forcedReset (s : State) (ctx reason : Nat) : State :=
  let ids := (s.teams.filter (fun t => t.ctx = ctx)).map (·.id)
  let s : State := (s.tasks.filter (fun t => t.ctx = ctx && recKind t.record = 4 && t.started)).foldl sendAborts s
  let queued := (s.groups.filter (fun g => ids.contains g.team)).flatMap (fun g => g.fe.sq)
    ++ (s.lanterns.filter (fun l => ids.contains l.team)).flatMap (fun l => l.fe.sq)
  let outs := s.outb.filter (fun o => o.entry.ctx = ctx)
  let s : State := { s with outb := s.outb.filter (fun o => o.entry.ctx ≠ ctx) }
  let s : State := (outs.map (·.entry) ++ queued).foldl fateOf s
  let s : State := (s.agents.filter (fun a => a.ctx = ctx)).foldl (fun s a => fateSteps (a.steps.length + 1) s a) s
  let s : State := (s.agents.filter (fun a => a.ctx = ctx)).foldl (fun s a => s.dropAgent a) s
  let s : State := ids.foldl (fun s id => s.removeTeam id) s
  let gone := match s.gang with
    | some g => s.tasks.any (fun t => t.slot = g.slot && t.ctx = ctx)
    | none => false
  let fab : Fabric :=
    { s.fabric with insts := s.fabric.insts.filter (fun c => c.ctx ≠ ctx)
                    finished := s.fabric.finished ++ ((s.fabric.insts.filter (fun c => c.ctx = ctx)).map (·.cid)) }
  let s : State :=
    { s with tasks := s.tasks.filter (fun t => t.ctx ≠ ctx), journal := s.journal.filter (fun j => j.ctx ≠ ctx)
             locks := s.locks.filter (fun l => l.ctx ≠ ctx), kept := s.kept.filter (fun k => k.ctx ≠ ctx), fabric := fab
             gang := if gone then none else s.gang }
  let s : State := flushSaves { s with saves := s.saves.map (fun (v : Saving) => if v.ctx = ctx && v.gone.isNone then { v with gone := some 0xFFFFFFFFFFFFFFFF } else v) }
  s.event 8 (ctx := ctx) (detail := reason)

end Sys2Proof.Machine
end

