-- ==== Sys2Proof/Machine/Ops.lean ====
section
/-! DEFINITION. The named operations: finding and replacing groups, lanes, registers and their visibility (R28-R30),
long-latency operations and tokens (R31), store queues (R139), speculation (R33, R34), joins (R67-R71), traps and
the return from them (R304-R314), and the frames that every instruction word runs in. -/

namespace Sys2Proof.Machine

/-! ### Finding and replacing -/

def State.group? (s : State) (core slot : Nat) : Option Group :=
  s.groups.find? (fun g => g.core = core && g.slot = slot)

def State.lantern? (s : State) (core slot : Nat) : Option Lantern :=
  s.lanterns.find? (fun l => l.core = core && l.slot = slot)

def State.team? (s : State) (id : Nat) : Option Team := s.teams.find? (fun t => t.id = id)

def State.task? (s : State) (slot : Nat) : Option Task := s.tasks.find? (fun t => t.slot = slot)

def State.setGroup (s : State) (g : Group) : State :=
  { s with groups := s.groups.map (fun x => if x.core = g.core ∧ x.slot = g.slot then g else x) }

def State.setLantern (s : State) (l : Lantern) : State :=
  { s with lanterns := s.lanterns.map (fun x => if x.core = l.core ∧ x.slot = l.slot then l else x) }

def State.setTeam (s : State) (t : Team) : State :=
  { s with teams := s.teams.map (fun x => if x.id = t.id then t else x) }

def State.setTask (s : State) (t : Task) : State :=
  { s with tasks := s.tasks.map (fun x => if x.slot = t.slot then t else x) }

/-- What a team holds on a core. -/
def Team.side (t : Team) (core : Nat) : Side := (t.sides.find? (fun d => d.core = core)).getD { core := core }

def Team.setSide (t : Team) (d : Side) : Team :=
  { t with sides := t.sides.map (fun x => if x.core = d.core then d else x) }

/-- The front of a group, or of a lantern context (slots from 128). -/
def State.front? (s : State) (core slot : Nat) : Option Front :=
  if slot < 128 then (s.group? core slot).map (·.fe) else (s.lantern? core slot).map (·.fe)

def State.setFront (s : State) (core slot : Nat) (f : Front) : State :=
  if slot < 128 then
    match s.group? core slot with
    | some g => s.setGroup { g with fe := f }
    | none => s
  else
    match s.lantern? core slot with
    | some l => s.setLantern { l with fe := f }
    | none => s

/-- The team that a group or lantern belongs to. -/
def State.teamOf (s : State) (core slot : Nat) : Option Team :=
  if slot < 128 then (s.group? core slot).bind (fun g => s.team? g.team)
  else (s.lantern? core slot).bind (fun l => s.team? l.team)

/-! ### Lanes -/

/-- Apply to every lane with its number. -/
def mapLanes (f : Nat → Lane → Lane) : Nat → List Lane → List Lane
  | _, [] => []
  | i, l :: ls => f i l :: mapLanes f (i + 1) ls

/-- Apply to the lanes of a set. -/
def Group.upd (g : Group) (set : LaneSet) (f : Nat → Lane → Lane) : Group :=
  { g with lanes := mapLanes (fun i l => if set.getLsbD i then f i l else l) 0 g.lanes }

def Group.lane (g : Group) (i : Nat) : Lane := g.lanes.getD i { live := false }

/-- The lanes that satisfy a property, as a set. -/
def lanesWhere (p : Nat → Lane → Bool) : Nat → List Lane → LaneSet
  | _, [] => 0
  | i, l :: ls => (if p i l then BitVec.ofNat 64 (2 ^ i) else 0) ||| lanesWhere p (i + 1) ls

def Group.where (g : Group) (p : Nat → Lane → Bool) : LaneSet := lanesWhere p 0 g.lanes

/-- The numbers of a set's lanes, lowest first. -/
def lanesIn (set : LaneSet) : List Nat := (upFrom 0 64).filter (fun i => set.getLsbD i)

def laneBit (i : Nat) : LaneSet := BitVec.ofNat 64 (2 ^ i)

/-- The set of a list of lane numbers. -/
def laneSet (ls : List Nat) : LaneSet := ls.foldl (fun s i => s ||| laneBit i) 0

def Group.liveLanes (g : Group) : LaneSet := g.where (fun _ l => l.live)

/-- The lanes a join counts as live: those of the handler's split for a split in its handler, else every live lane
(R67, R312). -/
def Group.members (g : Group) (h : Bool) : LaneSet :=
  if h then g.where (fun _ l => l.live && l.handler) else g.liveLanes

/-! ### Registers and their visibility -/

/-- Write a register of a lane; p0 discards (R12, R40). -/
def Lane.put (l : Lane) (d : Dest) (x : DWord) : Lane :=
  match d with
  | .v r => { l with v := l.v.set r (x.extractLsb' 0 32) }
  | .p r => if r = 0 then l else
      { l with p := if x.getLsbD 0 then l.p ||| BitVec.ofNat 48 (2 ^ r) else l.p &&& ~~~(BitVec.ofNat 48 (2 ^ r)) }
  | .s _ => l

/-- A register of a lane as a destination holds it. -/
def Lane.get (l : Lane) (d : Dest) : DWord :=
  match d with
  | .v r => (l.reg r).setWidth 64
  | .p r => if l.pred r then 1 else 0
  | .s _ => 0

/-- Replace the value that the oldest undo entry of a register restores; the log is newest first. -/
def patchOldest (d : Dest) (x : DWord) : List Undo → List Undo
  | [] => []
  | u :: us => if u.dst = d ∧ !(us.any (fun w => w.dst = d)) then { u with val := x } :: us else u :: patchOldest d x us

/-- A write lands in a lane (R28, R31). One issued under speculation logs what it replaces; an older one that lands
after it becomes what an undo restores (R33, R62). -/
def Lane.landOne (l : Lane) (d : Dest) (x : DWord) (unit : Nat) : Lane :=
  match l.spec with
  | none => l.put d x
  | some sp =>
    if unit = 0 then
      { (l.put d x) with spec := some { sp with undo := patchOldest d x sp.undo } }
    else { (l.put d x) with spec := some { sp with undo := { dst := d, val := l.get d, unit := unit } :: sp.undo } }

/-- Land the pending writes whose count has run out, in issue order; a write that lands makes the older writes of its
register land before it (R28). -/
def landDue : List Pend → List Pend → Lane → Lane
  | [], kept, l => { l with pend := kept }
  | p :: ps, kept, l =>
    if p.left = 0 then
      let l1 := (kept.filter (fun k => k.dst = p.dst)).foldl (fun l k => l.landOne k.dst k.val k.spec) l
      landDue ps (kept.filter (fun k => k.dst ≠ p.dst)) (l1.landOne p.dst p.val p.spec)
    else landDue ps (kept ++ [p]) l

/-- The lane issues `n` more instructions (R28). -/
def Lane.tick (l : Lane) (n : Nat) : Lane :=
  let l1 := landDue (l.pend.map (fun p => { p with left := p.left - n })) [] l
  { l1 with olds := (l.olds.map (fun o => { o with left := o.left - n })).filter (fun o => 0 < o.left) }

/-- Every pending fixed-latency write lands, and every value of the group is seen (R30). -/
def Lane.settle (l : Lane) : Lane :=
  let l1 := landDue (l.pend.map (fun p => { p with left := 0 })) [] l
  { l1 with olds := [] }

/-- Add the fixed-latency writes of an instruction of latency `n` (R28). -/
def Lane.pendAll (l : Lane) (n : Nat) (ws : List (Dest × DWord)) : Lane :=
  let u := match l.spec with | some sp => sp.count | none => 0
  { l with pend := l.pend ++ ws.map (fun w => { dst := w.1, val := w.2, left := n, spec := u }) }

/-- What a lane sees of a register of its group (R28, R68, R239). -/
def Lane.sees (l : Lane) (r : GReg) (now : DWord) : DWord :=
  match l.olds.find? (fun o => o.reg = r) with
  | some o => o.val
  | none => now

/-- A scalar register; s0 reads zero (R15). -/
def Front.sreg (f : Front) (r : Nat) : DWord := if r = 0 then 0 else f.s.getD r 0

def Group.scalarFor (g : Group) (l : Lane) (r : Nat) : DWord :=
  if r = 0 then 0 else l.sees (.scalar r) (g.fe.sreg r)

/-- A rejoin mask as a lane reads it: in the cycle of another split's write it reads the old value (R68). -/
def Group.maskFor (g : Group) (l : Lane) (m : MReg) : LaneSet :=
  match l.olds.find? (fun o => o.reg = .mask m.toNat) with
  | some o => o.val
  | none =>
    match g.cyc.find? (fun w => w.m = m.toNat) with
    | some w => w.old
    | none => g.m.getD m.toNat 0

def Group.fpcFor (g : Group) (l : Lane) : Word := (l.sees .fpc (g.fpc.setWidth 64)).setWidth 32

def Group.dphFor (g : Group) (l : Lane) : Word := (l.sees .dph (g.dph.setWidth 64)).setWidth 32

/-- A lane keeps seeing the old value of a group register for its next three instructions (R28, R68). An older value
still seen stays first. -/
def Lane.keepOld (l : Lane) (r : GReg) (old : DWord) : Lane :=
  { l with olds := l.olds ++ [{ reg := r, val := old, left := 4 }] }

/-- A scalar register of the group takes a value, seen by every live lane from its 4th instruction on (R29, R67). A
write to s0 is discarded (R15). -/
def Group.setScalar (g : Group) (r : Nat) (x : DWord) : Group :=
  if r = 0 then g
  else
    let old := g.fe.sreg r
    { (g.upd g.liveLanes (fun _ l => l.keepOld (.scalar r) old)) with fe := { g.fe with s := g.fe.s.set r x } }

/-- Bits of FPC (R18). -/
def fpcRm (w : Word) : BitVec 2 := w.extractLsb' 0 2
def fpcChk (w : Word) : Bool := w.getLsbD 13
/-- The five enables and the five sticky flags, NV first (R18). -/
def fpcEnables (w : Word) : BitVec 5 := w.extractLsb' 8 5
def fpcFlags (w : Word) : BitVec 5 := w.extractLsb' 2 5

/-- OR five flags into the sticky bits (R17, R103). -/
def orFlags (w : Word) (f : BitVec 5) : Word := w ||| (f.setWidth 32 <<< 2)

/-! ### Tokens and long-latency operations -/

def Front.count (f : Front) (k : Tok) : Nat := f.tok.getD k.toNat 0

/-- Whether one more operation may be counted on a token (R15, R59). -/
def Front.room (f : Front) (k : Tok) : Bool := k = 15 || f.count k < 15

def bump (k : Tok) (l : List Nat) : List Nat := if k = 15 then l else l.set k.toNat (l.getD k.toNat 0 + 1)
def dip (k : Tok) (l : List Nat) : List Nat := if k = 15 then l else l.set k.toNat (l.getD k.toNat 0 - 1)

/-- An operation issues: its token counts it, and the handler's count too when a handler issued it (R31, R312). -/
def Front.start (f : Front) (op : LongOp) : Front :=
  { f with ops := f.ops ++ [op], tok := bump op.tok f.tok, hk := if op.inH then bump op.tok f.hk else f.hk }

/-- An operation completes once nothing of it is outstanding: its token falls, and its scope waits for an acquire
(R31, R147). -/
def Front.finish (f : Front) (id : Nat) : Front :=
  match f.ops.find? (fun o => o.id = id) with
  | none => f
  | some o =>
    if o.lands = [] && o.sq = 0 && !o.owed then
      { f with ops := f.ops.filter (fun x => x.id ≠ id), tok := dip o.tok f.tok
               hk := if o.inH then dip o.tok f.hk else f.hk, acqs := f.acqs ++ [(o.tok, o.scope)] }
    else f

def Front.updOp (f : Front) (id : Nat) (g : LongOp → LongOp) : Front :=
  { f with ops := f.ops.map (fun o => if o.id = id then g o else o) }

/-- Nothing is owed to an operation any more by an agent or a queue: it completes when its landings are done. -/
def State.opDone (s : State) (core slot id : Nat) : State :=
  match s.front? core slot with
  | some f => s.setFront core slot ((f.updOp id (fun o => { o with owed := false })).finish id)
  | none => s

/-- The result of an operation that another unit owed, with its scalar or queue value (R194, R233, R238). -/
def State.opResult (s : State) (core slot id : Nat) (ws : List (Dest × DWord)) : State :=
  match s.front? core slot with
  | some f =>
    s.setFront core slot (f.updOp id (fun o => { o with owed := false, dst := [], lands := [{ lane := 0, writes := ws }] }))
  | none => s

/-- The acquires of a WAITK on a token (R147), or of every token: the widest scope of what has completed. -/
def Front.acquireScope (f : Front) (k : Option Tok) : Nat :=
  (f.acqs.filter (fun d => decide (k = none ∨ k = some d.1))).foldl (fun m d => max m d.2) 0

def Front.clearDone (f : Front) (k : Option Tok) : Front :=
  { f with acqs := f.acqs.filter (fun d => decide (k ≠ none ∧ k ≠ some d.1)) }

/-! ### Store queues (R139) -/

/-- The oldest store entry leaves: into the scratchpad view, or behind the entries of the core's channel. -/
def sqLeave (s : State) (core slot : Nat) : State :=
  match s.front? core slot with
  | none => s
  | some f =>
    match f.sq with
    | [] => s
    | e :: rest =>
      let f0 : Front := { f with sq := rest }
      let f1 := (f0.updOp e.op (fun o => { o with sq := o.sq - 1 })).finish e.op
      let s1 := s.setFront core slot f1
      let s2 : State :=
        if slot < 128 then
          match s1.group? core slot with
          | some g => s1.setGroup { g with traps := g.traps.map (fun t => { t with marks := t.marks - 1 }) }
          | none => s1
        else
          match s1.lantern? core slot with
          | some l => s1.setLantern { l with traps := l.traps.map (fun t => { t with marks := t.marks - 1 }) }
          | none => s1
      if isScratch e.loc then s2.store e.loc e.bytes
      else { s2 with outb := s2.outb ++ [{ core := core, entry := e }] }

/-- Take `sqLeave` n times. -/
def drainSq (core slot : Nat) : Nat → State → State
  | 0, s => s
  | n + 1, s => drainSq core slot n (sqLeave s core slot)

/-- Every entry of a store queue leaves. -/
def drainQueue (s : State) (core slot : Nat) : State :=
  match s.front? core slot with
  | some f => drainSq core slot f.sq.length s
  | none => s

/-- A release at a scope, taken as one composite step of the machine (R145, log 18), and whether it is complete: it is
not while an entry it waits for is held by a tier swap (R270). Entries outside the scope stay, but for those that must go before
one inside it. -/
def release (s : State) (core slot scope : Nat) : State × Bool :=
  if scope = 0 then (s, true)
  else
    let s1 := drainQueue s core slot
    if scope < 3 then (s1, true)
    else
      let s2 := drainOut s1 core (fun e => inScope scope e.loc)
      (s2, !((s2.channel core).any (fun e => inScope scope e.loc)))

/-! ### Bundles -/

/-- The bundle that issues, if a front end is issuing one (R59). -/
def State.bundle? (s : State) : Option Bundle := s.issue.head?

/-- The bundle's unit is done. -/
def State.pop (s : State) : State := { s with issue := s.issue.drop 1 }

/-- The lanes of a bundle that its GUARD leaves active (R50). -/
def activeIn (g : Group) (b : Bundle) : LaneSet :=
  match b.guard with
  | none => b.lanes
  | some (p, neg) => b.lanes &&& g.where (fun _ l => l.pred p.toNat != neg)

/-- A group as the lanes of a bundle see it when they issue its word: the word counts, and older writes land (R28). -/
def Group.atIssue (g : Group) (b : Bundle) : Group := g.upd b.lanes (fun _ l => l.tick 1)

/-- The lanes of a bundle that are active in its word (R28, R50). -/
def activeAt (g : Group) (b : Bundle) : LaneSet := activeIn (g.atIssue b) b

/-! ### Kills, joins and divergence (R67-R71) -/

/-- Remove lanes from a group's masks and requirements, and from what lanes still see of them (R70). -/
def Group.forget (g : Group) (set : LaneSet) : Group :=
  let cut (m : LaneSet) : LaneSet := m &&& ~~~set
  { (g.upd (~~~0) (fun _ l => { l with olds := l.olds.map (fun o =>
      match o.reg with
      | .mask _ => { o with val := o.val &&& ~~~set }
      | _ => o) })) with m := g.m.map cut, q := g.q.map cut, x := g.x.map cut }

/-- Lanes exit or are killed: nothing already computed is discarded, and every mask forgets them (R70, R72). -/
def Group.retireLanes (g : Group) (set : LaneSet) : Group :=
  (g.upd set (fun _ l => { l.settle with live := false, park := .none, gather := .none, waited := false
                                         spec := none, handler := false, want := none, ticket := none })).forget set

/-- The lanes parked at a JOIN on a mask. -/
def Group.atJoin (g : Group) (h : Bool) (m : MReg) : LaneSet :=
  g.where (fun _ l => l.live && l.handler = h && l.park = .join && l.gather = .join m)

/-- Release the lanes of JOINs on a mask when every live lane of its requirement has arrived (R69). A split in its
handler counts its own lanes only (R312), and the requirement keeps what others ask of it (log 17). -/
def Group.tryJoin (g : Group) (h : Bool) (m : MReg) : Group × LaneSet :=
  let parked := g.atJoin h m
  let need := g.q.getD m.toNat 0 &&& g.members h
  if parked ≠ 0 && need &&& ~~~parked = 0 then
    ({ (g.upd parked (fun _ l => { l.settle with park := .none, gather := .none, pc := l.next })) with
         q := g.q.set m.toNat (if h then g.q.getD m.toNat 0 &&& ~~~(g.members true) else 0) }, parked)
  else (g, 0)

/-- Try every mask's JOINs. -/
def Group.tryJoins (g : Group) (h : Bool) : Group × LaneSet :=
  (upFrom 0 16).foldl (fun (x : Group × LaneSet) m =>
    let (g', r) := x.1.tryJoin h (BitVec.ofNat 4 m)
    (g', x.2 ||| r)) (g, 0)

/-- Where every lane that an implicit join counts is parked, if all stand at one U-set unit (R67). DESIGN CHOICE (log 102): a lane
that comes through a PFX and one that comes to the bare word stand at two units, hence at two joins. -/
def Group.fullAt (g : Group) (h : Bool) : Option Addr :=
  let ms := g.members h
  match lanesIn ms with
  | [] => none
  | i :: _ =>
    let pc := (g.lane i).pc
    if g.where (fun _ l => l.live && (!h || l.handler) && l.park = .join && l.gather = .uset && l.pc = pc) = ms
    then some pc else none

/-- Whether a lane waits at a cross-lane unit on a mask. -/
def Gather.onMask (m : MReg) : Gather → Bool
  | .cross k _ => k = m
  | _ => false

/-- The lanes at a cross-lane unit whose requirement has arrived (R172). -/
def Group.crossAt (g : Group) (h : Bool) (pc : Addr) (m : MReg) : LaneSet :=
  let parked := g.where (fun _ l => l.live && l.handler = h && l.park = .join && l.gather.onMask m && l.pc = pc)
  let need := g.x.getD m.toNat 0 &&& g.members h
  if parked ≠ 0 && need &&& ~~~parked = 0 then parked else 0

/-- A cross-lane unit of the group that can issue: its address and lanes. -/
def Group.crossReady (g : Group) (h : Bool) : Option (Addr × LaneSet) :=
  (lanesIn g.liveLanes).foldl (fun r i =>
    match r with
    | some x => some x
    | none =>
      let l := g.lane i
      match l.gather with
      | .cross m _ =>
        let set := g.crossAt h l.pc m
        if l.park = .join ∧ l.handler = h ∧ set ≠ 0 then some (l.pc, set) else none
      | _ => none) none

/-- Every live lane parked at an EXITS that names one successor and one count (R73). -/
def Group.exitsAt (g : Group) (h : Bool) : Option (DWord × Nat) :=
  match lanesIn (g.members h) with
  | [] => none
  | i :: _ =>
    match (g.lane i).gather with
    | .exits a n =>
      if g.where (fun _ l => l.live && (!h || l.handler) && l.park = .join && l.gather = .exits a n) = g.members h
      then some (a, n) else none
    | _ => none

/-- Every live lane parked at one REGROUP unit that names one p and one n (R74). -/
def Group.regroupAt (g : Group) : Option (Addr × PReg × Nat) :=
  match lanesIn g.liveLanes with
  | [] => none
  | i :: _ =>
    let pc := (g.lane i).pc
    match (g.lane i).gather with
    | .regroup p n =>
      if g.where (fun _ l => l.live && l.park = .join && l.gather = .regroup p n && l.pc = pc) = g.liveLanes
      then some (pc, p, n) else none
    | _ => none

/-- Whether every live lane of a group is parked at a join (R71). -/
def Group.gathered (g : Group) : Bool :=
  g.liveLanes ≠ 0 && g.where (fun _ l => l.live && l.park = .join && l.gather ≠ .none) = g.liveLanes

/-- The REGROUPs at which lanes of a group are parked (R74). -/
def Group.regroups (g : Group) : List (Addr × PReg × Nat) :=
  (lanesIn g.liveLanes).filterMap (fun i =>
    let l := g.lane i
    match l.gather with
    | .regroup p n => if l.park = .join then some (l.pc, p, n) else none
    | _ => none)

/-- Whether every live lane is parked at a join and no join of the group can complete (R71). A group of the team that
has gathered with a lane at another REGROUP makes a divergent join too (R74). -/
def Group.diverged (g : Group) (others : List Group) : Bool :=
  !g.fe.handler && g.traps.isEmpty && g.waiting = .none && g.gathered &&
  (g.fullAt false).isNone && (g.crossReady false).isNone && (g.exitsAt false).isNone &&
  (match g.regroupAt with
   | some r => others.any (fun o => o.gathered && o.regroups.any (· ≠ r))
   | none => true)

/-! ### Taking an exception (R304-R314) -/

/-- The unit at which checks fail: its address, its word without prefixes, a PFX's payload, whether the trap is
group-wide, a TRAP code, and whether the return address is the next unit (R306, R310). -/
structure At where
  unit  : Addr
  word  : Word
  pfx   : Option (BitVec 25) := none
  wide  : Bool := false
  tcode : Word := 0
  next  : Bool := false
  deriving DecidableEq, Repr

/-- The side-buffer record of 256 bytes (R306). -/
def recordBytes (t : TrapSplit) (flags : Nat) (epc : Addr) (f : Front) : List Byte :=
  let toks := (f.tok.foldr (fun c acc => c % 16 + 16 * acc) 0)
  let lc := (upFrom 0 64).map (fun i => match t.causes.find? (fun c => c.1 = i) with
                                        | some c => BitVec.ofNat 8 c.2
                                        | none => (0 : Byte))
  bytesOf 8 epc.toNat ++ bytesOf 4 t.word.toNat
    ++ bytesOf 4 (match t.pfx with | some p => 0x80000000 + p.toNat | none => 0)
    ++ bytesOf 2 t.vec ++ bytesOf 1 flags ++ bytesOf 1 0 ++ bytesOf 4 t.tcode.toNat ++ bytesOf 8 t.lanes.toNat
    ++ bytesOf 8 toks ++ bytesOf 8 t.addr.toNat ++ bytesOf 16 0
    ++ bytesOf 8 (f.sreg 60).toNat ++ bytesOf 8 (f.sreg 61).toNat ++ bytesOf 8 (f.sreg 62).toNat ++ bytesOf 8 (f.sreg 63).toNat
    ++ lc ++ bytesOf 96 0

/-- FLAGS of a record (R306). -/
def recordFlags (lantern wide : Bool) : Nat := 1 + (if lantern then 4 else 0) + (if wide then 8 else 0)

/-- The window offset of the record of a core's slot (R305); none when SIDEB lies outside the window. -/
def recordOff (s : State) (ctx core slot : Nat) : Option Nat :=
  let b := (s.ctx ctx).sideb.toNat
  if Config.windowBase ≤ b ∧ b < Config.windowBase + Config.windowBytes
  then some (b - Config.windowBase + 256 * (132 * core + slot)) else none

/-- Write bytes of a record at an offset from its start; none when the side buffer cannot be written (R311). -/
def writeRecord (s : State) (ctx core slot off : Nat) (bs : List Byte) : Option State :=
  match recordOff s ctx core slot with
  | some o => windowWrite s ctx (o + off) bs
  | none => none

/-- The translation of a record's page (R328, R330). -/
def touchRecord (s : State) (ctx core slot : Nat) : State :=
  match recordOff s ctx core slot with
  | some o => s.windowTouch ctx o 256
  | none => s

/-- Log an event in the record of a slot: bits of FLAGS, and a TCODE (R217, R246, R306). A record that cannot be written resets the
context (R311, R329). -/
def logRecord (s : State) (ctx core slot bits : Nat) (code : Option Word := none) : State :=
  let s1 := touchRecord s ctx core slot
  let flags := (recordOff s1 ctx core slot).bind (fun o => windowBytes s1 ctx (o + 18) 1)
  let s2 := flags.bind (fun bs => writeRecord s1 ctx core slot 18 (bytesOf 1 (natOf bs ||| bits)))
  let s3 := match code with
    | some c => s2.bind (fun s => writeRecord s ctx core slot 20 (bytesOf 4 c.toNat))
    | none => s2
  s3.getD (forcedReset s1 ctx 2)

/-- Failed checks by increasing lane. -/
def byLane (hits : List Hit) : List Hit :=
  (upFrom 0 64).flatMap (fun i => hits.filter (fun h => h.lane = i))

/-- TCODE of a record (R306): the TRAP code, or the MXGO address of the first poison report. -/
def codeFor (a : At) (hits : List Hit) : Word :=
  match hits.findSome? (·.report) with
  | some r => r.2.setWidth 32
  | none => a.tcode

/-- The vectors of checks, by increasing offset. -/
def vectorsOf (hits : List Hit) : List Nat := hits.foldl (fun vs h => insertNat h.vec vs) []

/-- The trap splits of the checks that fail at one unit, one for each vector, by increasing offset (R308). Under STOPALL
(`stopAll`) a breakpoint or single-step stops the other splits of its group (R316). -/
def splitsOf (a : At) (epc : Addr) (marks : Nat) (ops : LaneSet → List Nat) (stopAll : Bool) (hits : List Hit) : List TrapSplit :=
  (vectorsOf hits).map (fun v =>
    let hs := hits.filter (fun h => h.vec = v)
    let set := laneSet (hs.map (·.lane))
    { lanes := set, vec := v, causes := hs.map (fun h => (h.lane, h.cause)), unit := a.unit, epc := epc, word := a.word
      pfx := a.pfx, wide := a.wide, tcode := codeFor a hs, reports := hs.filterMap (·.report)
      addr := (match hs with | h :: _ => h.addr | [] => 0), marks := marks, ops := ops set, step := v = 0x480 && hs.any (fun h => h.cause = 2)
      stops := stopAll && v = 0x480 })

/-- Numbers of the operations in flight that have one of these lanes (R310). -/
def Front.opsOf (f : Front) (set : LaneSet) : List Nat :=
  (f.ops.filter (fun o => o.lanes &&& set ≠ 0)).map (·.id)

/-! ### Instruction fetch (R9, R38, R61, R328, R329) -/

/-- What a fetch finds: a word, or the vector and cause of the trap it raises. -/
inductive Fetched where
  | word (w : Word)
  | trap (vec cause : Nat)
  deriving DecidableEq, Repr

/-- Fetch the word at a virtual address of a context: it needs R, a DRAM page, and no poison (log 11). -/
def fetch (s : State) (ctx : Nat) (pc : Addr) : Fetched :=
  match xlate s ctx pc.toNat with
  | .fault k => .trap 0x100 k
  | .ok p =>
    if p.lap then .trap 0x100 3
    else if !p.r || !isDram p.loc then .trap 0x100 4
    else if s.poisoned (unitOf p.loc) then .trap 0x280 1
    else
      match s.bytes p.loc 4 with
      | [b0, b1, b2, b3] => .word (wordOfBytes b0 b1 b2 b3)
      | _ => .trap 0x100 3

/-- GUARD and PFX words (R45, R49). DESIGN CHOICE (log 99): a word of major 0x19 and fn 9 with U = 1 is illegal and no GUARD,
so the pairing checks do not count it as one. -/
def isGuardWord (w : Word) : Bool := fld w 21 11 = 0x199#11
def isPfxWord (w : Word) : Bool := fld w 25 7 = 0x4B#7

/-- The word of the unit at an address, past its prefixes, and a PFX's payload (R51). -/
def unitWord (s : State) (ctx : Nat) : Nat → Addr → Option (BitVec 25) → Word × Option (BitVec 25)
  | 0, _, p => (0, p)
  | fuel + 1, pc, p =>
    match fetch s ctx pc with
    | .trap _ _ => (0, p)
    | .word w =>
      if isGuardWord w then unitWord s ctx fuel (pc + 4) p
      else if isPfxWord w then unitWord s ctx fuel (pc + 4) (some (fld w 0 25))
      else (w, p)

/-! ### Entering a handler -/

/-- A context's address of a vector (R304). -/
def vectorAddr (s : State) (ctx vec : Nat) : Addr := addrOf ((s.ctx ctx).hbase + BitVec.ofNat 64 vec)

/-- The oldest waiting split whose turn it is to enter its handler (R309, R310): no handler runs, and the speculative branch
is resolved. A stopped group enters the stopping split only (R316). -/
def Group.nextSplit (g : Group) : Option TrapSplit :=
  if g.fe.handler || g.spec.isSome then none else g.traps.find? (fun t => !g.stopped || t.stops)

/-- The split that may enter its handler now: the operations its lanes issued before have completed too. -/
def Group.entering (g : Group) : Option TrapSplit :=
  match g.nextSplit with
  | some t => if g.fe.ops.any (fun o => t.ops.contains o.id) then none else some t
  | none => none

/-- The split whose turn it is settles before it waits for its operations (R310, step 2). -/
def Group.settleNext (g : Group) : Group :=
  match g.nextSplit with
  | some t => g.upd t.lanes (fun _ l => l.settle)
  | none => g

/-- A split enters its handler (R310): its pending writes land, the entries that stood in the store queue leave, the
record is written, EPC, ECAUSE and the handler state are set, and its lanes start at the vector with an acquire. A
record that cannot be written resets the context (R311). -/
def enterGroup (s : State) (g : Group) (t : TrapSplit) (team : Team) : State :=
  let s1 := touchRecord (drainSq g.core g.slot t.marks s) team.ctx g.core g.slot
  match s1.group? g.core g.slot with
  | none => s1
  | some g1 =>
    match writeRecord s1 team.ctx g.core g.slot 0 (recordBytes t (recordFlags false t.wide) t.epc g1.fe) with
    | none => forcedReset s1 team.ctx 2
    | some s2 =>
      let pc := vectorAddr s team.ctx t.vec
      let g2 := g1.upd t.lanes (fun _ l =>
        { l.settle with park := .none, gather := .none, pc := pc, handler := true, waited := false, want := none, ticket := none })
      let g3 := { g2 with traps := g1.traps.filter (fun x => x ≠ t)
                          fe := { g1.fe with handler := true, epc := t.epc, ecause := BitVec.ofNat 32 t.vec } }
      (s2.setGroup g3).acquire g.core 4

def Lantern.entering (l : Lantern) : Option TrapSplit :=
  if l.fe.handler then none
  else
    match l.traps with
    | t :: _ => if l.fe.ops.any (fun o => t.ops.contains o.id) then none else some t
    | [] => none

/-- A fixed-latency write of the lantern lands in its scalars (R35), or in its EPC, which takes number 64 (R239). -/
def Front.putScalar (f : Front) (d : Dest) (x : DWord) : Front :=
  match d with
  | .s r => if r = 0 then f else if r = 64 then { f with epc := addrOf x } else { f with s := f.s.set r x }
  | _ => f

def landLantern : List Pend → List Pend → Lantern → Lantern
  | [], kept, l => { l with pend := kept }
  | p :: ps, kept, l =>
    if p.left = 0 then
      landLantern ps (kept.filter (fun k => k.dst ≠ p.dst)) { l with fe := l.fe.putScalar p.dst p.val }
    else landLantern ps (kept ++ [p]) l

/-- The lantern issues one more instruction (R28). -/
def Lantern.tick (l : Lantern) : Lantern := landLantern (l.pend.map (fun p => { p with left := p.left - 1 })) [] l

def Lantern.settle (l : Lantern) : Lantern := landLantern (l.pend.map (fun p => { p with left := 0 })) [] l

def enterLantern (s : State) (l : Lantern) (t : TrapSplit) (team : Team) : State :=
  let s1 := touchRecord (drainSq l.core l.slot t.marks s) team.ctx l.core l.slot
  match s1.lantern? l.core l.slot with
  | none => s1
  | some l0 =>
    let l1 := l0.settle
    match writeRecord s1 team.ctx l.core l.slot 0 (recordBytes t (recordFlags true t.wide) t.epc l1.fe) with
    | none => forcedReset s1 team.ctx 2
    | some s2 =>
      (s2.setLantern { l1 with park := .none, pc := vectorAddr s team.ctx t.vec, traps := l1.traps.drop 1, counted := false
                               fe := { l1.fe with handler := true, epc := t.epc, ecause := BitVec.ofNat 32 t.vec } }).acquire l.core 4

/-- The oldest waiting split of a group or lantern settles, and enters if it can (R309, R310). -/
def tryEntry (s : State) (core slot : Nat) : State :=
  if slot < 128 then
    match s.group? core slot with
    | some g0 =>
      let g := g0.settleNext
      match g.entering, s.team? g.team with
      | some t, some team => enterGroup (s.setGroup g) g t team
      | _, _ => s.setGroup g
    | none => s
  else
    match s.lantern? core slot with
    | some l0 =>
      let l := if l0.fe.handler || l0.traps.isEmpty then l0 else l0.settle
      match l.entering, s.team? l.team with
      | some t, some team => enterLantern (s.setLantern l) l t team
      | _, _ => s.setLantern l
    | none => s

/-- A group with no live lane has retired (R72). -/
def Group.markRetired (g : Group) : Group := if g.liveLanes = 0 then { g with retired := true } else g

/-- The splits of checks that fail in lanes outside a handler park their lanes and wait (R308, R309). A breakpoint or
single-step stops the other splits under STOPALL (R316). -/
def formSplits (s : State) (g : Group) (a : At) (hits : List Hit) : State :=
  if hits = [] then s
  else
    let set := laneSet (hits.map (·.lane))
    let epc : Addr := if a.next then (match hits with | h :: _ => (g.lane h.lane).pc | [] => a.unit) else a.unit
    let new := splitsOf a epc g.fe.sq.length g.fe.opsOf (g.dbgc.getLsbD 1) hits
    let stop := new.any (·.stops)
    let g1 := g.upd set (fun _ l => { l with park := .trap, gather := .none, pc := epc, waited := false, want := none, ticket := none })
    tryEntry (s.setGroup { g1 with traps := g.traps ++ new, stopped := g.stopped || stop }) g.core g.slot

/-- Speculated lanes that fail checks defer their traps and wait at the unit (R34). -/
def Group.defer (g : Group) (a : At) (hits : List Hit) : Group :=
  let put (h : Hit) : Deferred :=
    { vec := h.vec, cause := h.cause, unit := a.unit, word := a.word, pfx := a.pfx, addr := h.addr, tcode := a.tcode, next := a.next
      report := h.report }
  hits.foldl (fun (g : Group) h => g.upd (laneBit h.lane) (fun _ l =>
    { l with pc := (if a.next then l.pc else a.unit)
             spec := l.spec.map (fun sp => { sp with deferred := some (put h) }) })) g

/-- Whether a lane that has passed a unit takes a single-step trap: not in a handler, and not where it has already deferred a trap
of that unit (R34, R312, R315). -/
def Lane.steps (l : Lane) : Bool :=
  l.live && l.park = .none && !l.handler &&
  (match l.spec with | some sp => sp.taken.isSome && sp.deferred.isNone | none => true)

/-- The single-step traps of lanes that have passed a unit (R315); a speculated lane defers its own (R34). -/
def stepTraps (s : State) (g : Group) (a : At) (lanes : List Nat) : State :=
  let hits (ls : List Nat) : List Hit := ls.map (fun i => { lane := i, vec := 0x480, cause := 2 })
  let g1 := g.defer { a with next := true } (hits (lanes.filter (fun i => (g.lane i).spec.isSome)))
  formSplits (s.setGroup g1) g1 { a with next := true } (hits (lanes.filter (fun i => (g.lane i).spec.isNone)))

/-- Under SSTEP, lanes outside a handler that complete the units at the addresses given trap at their next units, one
split for each unit (R315). -/
def singleStep (s : State) (core slot : Nat) (units : List (Nat × Addr)) : State :=
  match s.group? core slot with
  | none => s
  | some g =>
    if g.dbgc.getLsbD 0 then
      let ctx := ((s.team? g.team).map (·.ctx)).getD 0
      let pcs := units.foldl (fun r u => insertNat u.2.toNat r) []
      pcs.foldl (fun s pc =>
        match s.group? core slot with
        | none => s
        | some g =>
          let (w, p) := unitWord s ctx 4 (BitVec.ofNat 48 pc) none
          let ready := (units.filter (fun u => u.2.toNat = pc)).filter (fun u => (g.lane u.1).steps)
          stepTraps s g { unit := BitVec.ofNat 48 pc, word := w, pfx := p } (ready.map (·.1))) s
    else s

/-- The addresses at which lanes of a set stand. -/
def Group.unitsOfLanes (g : Group) (set : LaneSet) : List (Nat × Addr) := (lanesIn set).map (fun i => (i, (g.lane i).pc))

/-- A divergent join traps every live lane of a group, at its own unit (R71). -/
def trapDiverged (s : State) (g0 : Group) : State :=
  let ctx := ((s.team? g0.team).map (·.ctx)).getD 0
  let pcs := (lanesIn g0.liveLanes).foldl (fun r i => insertNat (g0.lane i).pc.toNat r) []
  pcs.foldl (fun s pc =>
    match s.group? g0.core g0.slot with
    | none => s
    | some g =>
      let set := g0.where (fun _ l => l.live && l.pc.toNat = pc)
      let (w, p) := unitWord s ctx 4 (BitVec.ofNat 48 pc) none
      formSplits s g { unit := BitVec.ofNat 48 pc, word := w, pfx := p, wide := true }
        ((lanesIn set).map (fun i => { lane := i, vec := 0x380, cause := 4 }))) s

/-- Joins that can complete release their lanes; a divergent join traps every live lane of each group
that takes part in it (R70, R71, R74). -/
def settleJoins (s : State) (core slot : Nat) : State :=
  match s.group? core slot with
  | none => s
  | some g =>
    let (g1, _) := g.tryJoins true
    let (g2, out) := g1.tryJoins false
    let s1 := s.setGroup g2
    if out ≠ 0 then singleStep s1 core slot (g.unitsOfLanes out)
    else
      let mates := s1.groups.filter (fun o => o.team = g2.team && o.liveLanes ≠ 0)
      if g2.diverged mates then (mates.filter (·.diverged mates)).foldl trapDiverged s1 else s1

/-- The handler of a group ends: the group stays stopped while a split that stops it still waits (R316). -/
def Group.handlerEnds (g : Group) : Group :=
  { g with fe := { g.fe with handler := false, epc := 0, ecause := 0 }, stopped := g.stopped && g.traps.any (·.stops) }

/-- A handler that has no lane left ends, and the next waiting split enters (R312). -/
def endHandler (s : State) (core slot : Nat) : State :=
  match s.group? core slot with
  | none => s
  | some g =>
    if g.fe.handler && g.members true = 0 then
      tryEntry (s.setGroup g.handlerEnds) core slot
    else s

/-- The team's last group has retired: a lantern still running stops and the queue is discarded (R36). -/
def stopLantern (s : State) (teamId : Nat) : State :=
  match s.team? teamId with
  | none => s
  | some t =>
    if s.groups.any (fun g => g.team = teamId && !g.retired) then s
    else
      let gone := (t.held.filter (·.push)).map (·.op)
      let stop (l : Lantern) : Lantern :=
        let f : Front := { l.fe with handler := false }
        { l with retired := true, park := .none, waiting := .none, traps := []
                 fe := gone.foldl (fun f n => (f.updOp n (fun o => { o with owed := false })).finish n) f }
      let s1 : State := { s with lanterns := s.lanterns.map (fun (l : Lantern) => if l.team = teamId then stop l else l) }
      s1.setTeam { t with dq := [], held := t.held.filter (fun h => !h.push), lanternRetired := true }

/-- Lanes exit or are killed: joins are evaluated again, a handler may end, the group may retire (R70, R72, R312). -/
def loseLanes (s : State) (core slot : Nat) (set : LaneSet) : State :=
  match s.group? core slot with
  | none => s
  | some g =>
    let g1 := (g.retireLanes set).markRetired
    let g2 := { g1 with traps := (g1.traps.map (fun t => { t with lanes := t.lanes &&& ~~~set })).filter (fun t => t.lanes ≠ 0) }
    let s1 := settleJoins (endHandler (s.setGroup g2) core slot) core slot
    if g1.retired then stopLantern s1 g1.team else s1

/-- The lantern stops for good: by RET at depth 0 or by a double fault (R36, R314). -/
def retireLantern (s : State) (core slot : Nat) : State :=
  match s.lantern? core slot with
  | none => s
  | some l =>
    let s1 := s.setLantern { l with retired := true, park := .none, traps := [], fe := { l.fe with handler := false } }
    match s1.team? l.team with
    | some t => s1.setTeam { t with lanternRetired := true }
    | none => s1

/-- A double fault (R314): the record is rewritten in place, the host is told, and the lanes are killed; a lantern
stops as if it had retired. -/
def doubleFault (s0 : State) (core slot : Nat) (t : Team) (a : At) (vec : Nat) (hits : List Hit) : State :=
  let s := touchRecord s0 t.ctx core slot
  let set := laneSet (hits.map (·.lane))
  let lc := (upFrom 0 64).map (fun i => match hits.find? (fun h => h.lane = i) with
                                        | some h => BitVec.ofNat 8 h.cause
                                        | none => (0 : Byte))
  let flags := match recordOff s t.ctx core slot with
    | some o => match windowBytes s t.ctx (o + 18) 1 with
                | some bs => natOf bs
                | none => 1
    | none => 1
  let put (s : Option State) (off : Nat) (bs : List Byte) : Option State :=
    s.bind (fun s => writeRecord s t.ctx core slot off bs)
  let s1 := put (put (put (put (put (put (some s) 8 (bytesOf 4 a.word.toNat
      ++ bytesOf 4 (match a.pfx with | some p => 0x80000000 + p.toNat | none => 0) ++ bytesOf 2 vec))
      18 (bytesOf 1 (flags ||| 2))) 20 (bytesOf 4 (codeFor a hits).toNat)) 24 (bytesOf 8 set.toNat))
      40 (bytesOf 8 (match hits with | h :: _ => h.addr.toNat | [] => 0))) 96 lc
  match s1 with
  | none => forcedReset s t.ctx 2
  | some s2 =>
    let s3 := s2.event 7 (ctx := t.ctx) (slot := t.slot) (phys := (recordOff s t.ctx core slot).getD 0)
    if slot < 128 then loseLanes s3 core slot set else retireLantern s3 core slot

/-- A group without the poison reports that some lanes take (R217). -/
def Group.reported (g : Group) (hits : List Hit) : Group :=
  { g with poison := (hits.filterMap (·.report)).foldl (fun ps r => ps.erase r) g.poison }

/-- Checks fail in lanes of a unit (R308): a speculated lane defers its trap and waits at the unit (R34), lanes in their
handler make a double fault for each vector (R314), and the others form trap splits. -/
def raise (s : State) (core slot : Nat) (a : At) (hits0 : List Hit) : State :=
  if hits0 = [] then s
  else
    match s.group? core slot with
    | none => s
    | some g0 =>
      match s.team? g0.team with
      | none => s
      | some t =>
        let hits := byLane hits0
        let g := g0.reported hits
        let specs := hits.filter (fun h => (g.lane h.lane).spec.isSome)
        let inH := hits.filter (fun h => (g.lane h.lane).spec.isNone && (g.lane h.lane).handler)
        let rest := hits.filter (fun h => (g.lane h.lane).spec.isNone && !(g.lane h.lane).handler)
        let g1 := g.defer a specs
        let s1 := formSplits (s.setGroup g1) g1 a rest
        (vectorsOf inH).foldl (fun s v => doubleFault s core slot t a v (inH.filter (fun h => h.vec = v))) s1

/-- A check fails in the lantern: it traps, or makes a double fault in its handler (R309, R313, R314). -/
def raiseLantern (s : State) (core slot : Nat) (a : At) (vec cause : Nat) (addr : DWord) : State :=
  match s.lantern? core slot with
  | none => s
  | some l =>
    match s.team? l.team with
    | none => s
    | some t =>
      if l.fe.handler then doubleFault s core slot t a vec [{ lane := 0, vec := vec, cause := cause, addr := addr }]
      else
        let split : TrapSplit :=
          { lanes := 1, vec := vec, causes := [(0, cause)], unit := a.unit, epc := if a.next then l.pc else a.unit
            word := a.word, pfx := a.pfx, wide := a.wide, tcode := a.tcode, addr := addr
            marks := l.fe.sq.length, ops := l.fe.ops.map (·.id) }
        tryEntry (s.setLantern { l with park := .trap, pc := a.unit, traps := l.traps ++ [split] }) core slot

/-- One check that fails for the whole unit: every lane given, or the lantern (R168, R308). -/
def raiseAll (s : State) (core slot : Nat) (a : At) (set : LaneSet) (vec cause : Nat) (addr : DWord := 0) : State :=
  if slot < 128 then
    raise s core slot a ((lanesIn set).map (fun i => { lane := i, vec := vec, cause := cause, addr := addr }))
  else raiseLantern s core slot a vec cause addr

/-- Under SSTEP every split outside a handler traps after the unit it completes, at its next unit (R315). -/
def afterUnit (s : State) (core slot : Nat) (a : At) (set : LaneSet) : State :=
  match s.group? core slot with
  | none => s
  | some g =>
    if g.dbgc.getLsbD 0 then
      let ready := g.where (fun i l => set.getLsbD i && l.steps)
      let pcs := (lanesIn ready).foldl (fun r i => insertNat (g.lane i).pc.toNat r) []
      pcs.foldl (fun s pc =>
        match s.group? core slot with
        | none => s
        | some g =>
          stepTraps s g a (lanesIn (g.where (fun i l => ready.getLsbD i && l.park = .none && l.pc.toNat = pc)))) s
    else s

/-! ### The frame of an L-set word -/

/-- An instruction word as it issues: the bundle, the group or lantern, its team, the lanes it acts on, its word and
where it stands. -/
structure Ix where
  b    : Bundle
  core : Nat
  slot : Nat
  t    : Team
  act  : LaneSet
  word : Word
  h    : Bool := false
  lan  : Bool := false
  pfx  : Option (BitVec 25) := none
  deriving DecidableEq, Repr

/-- The unit a word belongs to, for its traps. -/
def Ix.at (x : Ix) (wide : Bool := false) : At := { unit := x.b.unit, word := x.word, pfx := x.b.pfx, wide := wide }

def Ix.nextPc (x : Ix) : Addr := x.b.pos + 4

/-- A lane passes a unit: it counts `n` instructions, goes on past the word, and a speculated lane counts the unit
(R28, R33). -/
def Lane.pass (l : Lane) (n : Nat) (pc : Addr) : Lane :=
  let l1 := l.tick n
  { l1 with pc := pc, waited := false, spec := l1.spec.map (fun sp => { sp with count := sp.count + 1 }) }

/-- Whether a long-latency write to one of a lane's registers is outstanding (R32). -/
def Group.pendingLong (g : Group) (lane : Nat) (ds : List Dest) : Bool :=
  g.fe.ops.any (fun o => o.lands.any (fun d => d.lane = lane && d.writes.any (fun w => ds.contains w.1)))

/-- The registers an instruction reads, and those it writes (R32, R39). -/
def useSrc (u : Use) : List Dest :=
  u.src.flatMap (fun r => (upFrom r.1.toNat r.2).map Dest.v) ++ u.psrc.map (fun p => Dest.p p.toNat)
def useDst (u : Use) : List Dest :=
  u.dst.flatMap (fun r => (upFrom r.1.toNat r.2).map Dest.v) ++ u.pdst.map (fun p => Dest.p p.toNat)

/-- Whether a destination is one of some scalar registers. -/
def Dest.isScalar (rs : List SReg) : Dest → Bool
  | .s r => rs.any (fun a => a.toNat = r)
  | _ => false

/-- Whether a long-latency write to one of a group's scalars is outstanding, on its way or still owed (R32). DEDUCED (log
21): the rule speaks of a register that a lane reads, and a scalar is one. -/
def Group.pendingScalar (g : Group) (rs : List SReg) : Bool :=
  g.fe.ops.any (fun o => o.dst.any (Dest.isScalar rs) || o.lands.any (fun d => d.writes.any (fun w => w.1.isScalar rs)))

/-- Lanes that fail the under-wait check of checked mode (R18, R32). -/
def underWait (g : Group) (u : Use) (act : LaneSet) : List Nat :=
  (lanesIn act).filter (fun i =>
    fpcChk (g.fpcFor (g.lane i)) && (g.pendingLong i (useSrc u ++ useDst u) || g.pendingScalar (u.ssrc ++ u.sdst)))

/-- Whether a U-set word fails the under-wait check: its scalars, the register that VBCAST writes in every lane of the
gathering, and the one that VREAD reads in its lane (R32, R92). -/
def unitUnderWait (g : Group) (i : UInstr) (ms : LaneSet) : Bool :=
  let u := i.use
  let lanes := match i with
    | .vread _ _ n => [n.toNat]
    | _ => lanesIn ms
  fpcChk g.fpc &&
    (g.pendingScalar (u.ssrc ++ u.sdst) || lanes.any (fun j => g.pendingLong j (useSrc u ++ useDst u)))

/-- Whether the sources of a U = 1 word differ between two active lanes, in checked mode (R39). -/
def notUniform (g : Group) (u : Use) (act : LaneSet) : Bool :=
  u.u &&
  match lanesIn act with
  | [] => false
  | i :: is => fpcChk (g.fpcFor (g.lane i)) &&
      is.any (fun j => (useSrc u).any (fun d => (g.lane j).get d ≠ (g.lane i).get d))

/-- The part that follows this one, if one does, takes over what it says. -/
def State.nextPart (s : State) (x : Ix) (f : Bundle → Bundle) : State :=
  match s.issue with
  | b :: rest => if b.core = x.core ∧ b.slot = x.slot ∧ b.unit = x.b.unit then { s with issue := f b :: rest } else s
  | [] => s

/-- The unit's checks that fail trap its lanes: those found before its own effect, and those found in it. A part that
another follows leaves them to that one (R137, R308). -/
def raiseUnit (x : Ix) (wide : Bool) (hits : List Hit) (s : State) : State :=
  let all := x.b.hits ++ hits
  if x.b.more then s.nextPart x (fun b => { b with hits := all }) else raise s x.core x.slot (x.at wide) all

/-- The end of an L-set unit: under SSTEP its lanes trap at their next units (R315); a part that another follows leaves
its lanes to that one. -/
def endUnit (x : Ix) (s : State) : State :=
  if x.b.more then s.nextPart x (fun b => { b with earlier := x.b.earlier ||| x.b.lanes })
  else afterUnit s x.core x.slot x.at (x.b.earlier ||| x.b.lanes)

/-- The operation that the parts of an access share owes no further part. -/
def lastPart (x : Ix) (s : State) : State :=
  match x.b.op with
  | some id => if x.b.more then s else s.opDone x.core x.slot id
  | none => s

/-- The checks of checked mode, for active lanes: those under wait fail with cause 1, and where the sources of a U = 1 word
differ the others fail with cause 3 (R32, R39). DESIGN CHOICE (log 116): a lane that fails both checks records cause 1. -/
def checkedHits (g : Group) (u : Use) (act : LaneSet) : List Hit :=
  let bad := underWait g u act
  bad.map (fun j => { lane := j, vec := 0x380, cause := 1 }) ++
    (if notUniform g u act then ((lanesIn act).filter (fun j => !bad.contains j)).map (fun j => { lane := j, vec := 0x380, cause := 3 }) else [])

/-- The frame of an L-set word (R28, R50, R55, R56, R59): the lanes of the bundle pass it, its legality is checked
when a lane is active, checked mode makes its checks, and the body acts on the active lanes that pass them. `n` is what
the word counts for (R76); `uses` names the registers this word reads and writes (R187). A body
that `raises` traps itself the lanes that failed the checks, with its own. -/
def lsetAs (i : LInstr) (w : Word) (legal : Team → Bool → Bool → Option Nat) (s : State) (body : Ix → State → State)
    (n : Nat := 1) (uses : Use := i.use) (raises : Bool := false) : Host.Outcome State Fault Refusal :=
  match s.bundle? with
  | none => .fault .notIssuing
  | some b =>
    if b.slot < 128 then
      match s.group? b.core b.slot, s.teamOf b.core b.slot with
      | some g, some t =>
        let s0 := s.pop
        let g1 := g.upd b.lanes (fun _ l => l.pass n (b.pos + 4))
        let act := activeIn g1 b
        if act ≠ 0 && b.op.isNone && !(match i.use.tok with | some k => g.fe.room k | none => true) then .next s0
        else
          let s1 := s0.setGroup g1
          let x : Ix := { b := b, core := b.core, slot := b.slot, t := t, act := act, word := w, pfx := b.pfx
                          h := (b.lanes &&& g.members true) ≠ 0 }
          if act = 0 then .next (endUnit x (raiseUnit x false [] (lastPart x s1)))
          else
            let s2 :=
              match legal t false g.fe.handler with
              | some c => raiseUnit x false ((lanesIn act).map (fun j => { lane := j, vec := 0, cause := c })) (lastPart x s1)
              | none =>
                let hits := checkedHits g1 uses act
                let act2 := act &&& ~~~(laneSet (hits.map (·.lane)))
                if act2 = 0 then raiseUnit x (notUniform g1 uses act) hits (lastPart x s1)
                else if raises then body { x with act := act2, b := { b with hits := b.hits ++ hits } } s1
                else body { x with act := act2 } (raiseUnit x false hits s1)
            .next (endUnit x s2)
      | _, _ => .fault .notIssuing
    else
      match s.lantern? b.core b.slot, s.teamOf b.core b.slot with
      | some l, some t =>
        let c := min ((legal t true l.fe.handler).getD 11) 11
        let s1 := s.pop.setLantern l.tick
        .next (raiseLantern s1 b.core b.slot { unit := b.unit, word := w, pfx := b.pfx } 0 c 0)
      | _, _ => .fault .notIssuing

/-- The frame of a decoded L-set word. -/
def lset (i : LInstr) (s : State) (body : Ix → State → State) (n : Nat := 1) (uses : Use := i.use)
    (raises : Bool := false) :
    Host.Outcome State Fault Refusal :=
  lsetAs i i.encode (fun t lan h => legality t lan h (.l i) i.encode) s body n uses raises

/-- What a per-lane computation gives: register writes, and the flags it raises (R103). -/
structure LaneOut where
  writes : List (Dest × DWord)
  flags  : BitVec 5 := 0
  deriving DecidableEq, Repr

/-- Flags go to FPC, to the shadow flags of a speculated lane, or to a value that a pending SETC replaces (R33, R103,
R239). -/
def Group.raiseFlags (g : Group) (i : Nat) (f : BitVec 5) : Group :=
  let l := g.lane i
  if l.spec.isSome then
    g.upd (laneBit i) (fun _ l => { l with spec := l.spec.map (fun sp => { sp with flags := sp.flags ||| f }) })
  else if l.olds.any (fun o => o.reg = .fpc) then g
  else { g with fpc := orFlags g.fpc f }

/-- The results of a fixed-latency word in its active lanes: writes of latency `lat`, flags, and the trap at 0x200 of
lanes that raise an enabled flag (R18, R28, R118). -/
def finishAlu (x : Ix) (lat : Nat) (outs : List (Nat × LaneOut)) (s : State) : State :=
  match s.group? x.core x.slot with
  | none => s
  | some g =>
    let step (acc : Group × List Hit) (o : Nat × LaneOut) : Group × List Hit :=
      let en := fpcEnables (acc.1.fpcFor (acc.1.lane o.1)) &&& o.2.flags
      let g1 := acc.1.raiseFlags o.1 o.2.flags
      if en = 0 then (g1.upd (laneBit o.1) (fun _ l => l.pendAll lat o.2.writes), acc.2)
      else (g1, acc.2 ++ [{ lane := o.1, vec := 0x200, cause := en.toNat }])
    let (g1, hits) := outs.foldl step (g, [])
    raiseUnit x false hits (s.setGroup g1)

/-- A fixed-latency word that computes each active lane's writes from that lane; with U = 1 it computes once, on the
lowest active lane, for every active lane (R39). DESIGN CHOICE (log 100): where that one computation raises an enabled flag,
every active lane traps. -/
def alu (i : LInstr) (lat : Nat) (f : Group → Lane → LaneOut) (s : State) : Host.Outcome State Fault Refusal :=
  lset i s (fun x s =>
    match s.group? x.core x.slot with
    | none => s
    | some g =>
      let ls := lanesIn x.act
      let outs : List (Nat × LaneOut) :=
        if i.use.u then
          let o := f g (g.lane (ls.headD 0))
          ls.map (fun j => (j, o))
        else ls.map (fun j => (j, f g (g.lane j)))
      finishAlu x lat outs s) 1 i.use true

/-! ### The frame of a U-set word -/

/-- Lanes park at an implicit join (R67, R172): they stand at the unit, and go on past the word. -/
def parkAt (g : Group) (set : LaneSet) (b : Bundle) (k : Gather) : Group :=
  g.upd set (fun _ l => { l.tick 1 with park := .join, gather := k, pc := b.unit, next := b.pos + 4, waited := false })

/-- Lanes leave a join: they settle and stand past the word (R30). -/
def leaveJoin (g : Group) (set : LaneSet) (pc : Addr) : Group :=
  g.upd set (fun _ l => { l.settle with park := .none, gather := .none, pc := pc, waited := false })

/-- The lantern's word counts, unless the lantern stands at it again (R28). -/
def Lantern.count (l : Lantern) : Lantern := if l.counted then { l with counted := false } else l.tick

/-- Lanes that were released at a unit that cannot be performed yet stand at its join again (R59). -/
def standAgain (s : State) (x : Ix) : State :=
  if x.lan then
    match s.lantern? x.core x.slot with
    | some l => s.setLantern { l with pc := x.b.unit, counted := true }
    | none => s
  else
    match s.group? x.core x.slot with
    | some g => s.setGroup (g.upd x.act (fun _ l => { l with park := .join, gather := .uset, pc := x.b.unit, next := x.nextPc }))
    | none => s

/-- The group or lantern waits at its unit for an event outside it, in the park state given (R236, R397). -/
def waitAtUnit (s : State) (x : Ix) (p : Park) (w : Waiting) : State :=
  if x.lan then
    match s.lantern? x.core x.slot with
    | some l => s.setLantern { l with pc := x.b.unit, next := x.nextPc, park := p, waiting := w, counted := true }
    | none => s
  else
    match s.group? x.core x.slot with
    | some g =>
      s.setGroup { (g.upd x.act (fun _ l => { l with park := p, gather := .uset, pc := x.b.unit, next := x.nextPc })) with waiting := w }
    | none => s

/-- The group or lantern goes on past the unit it waited at: it settles (R30), the unit has its effect (`act`), and under SSTEP its
lanes trap at the next (R315). -/
def goOn (s : State) (core slot : Nat) (act : State → State := id) : State :=
  if slot < 128 then
    match s.group? core slot with
    | some g =>
      let set := g.where (fun _ l => l.live && l.want.isNone && l.ticket.isNone &&
        (l.park = .wait || l.park = .bitmap || l.park = .queue || l.park = .presence))
      singleStep (act (s.setGroup { (g.upd set (fun _ l => { l.settle with park := .none, pc := l.next })) with waiting := .none }))
        core slot (g.unitsOfLanes set)
    | none => s
  else
    match s.lantern? core slot with
    | some l =>
      let l1 := l.settle
      act (s.setLantern { l1 with park := .none, pc := l.next, waiting := .none, counted := false })
    | none => s

/-- Lanes of a group that wait at their unit perform it again, settled (R30, R253, R354): those that came through a join
stand at it again. -/
def Group.retry (g : Group) (p : Lane → Bool) : Group :=
  let set := g.where (fun _ l => l.live && l.want.isNone && l.park = .wait && p l)
  g.upd set (fun _ l => { l.settle with park := if l.gather = .uset then .join else .none })

/-- The group or lantern performs its unit again once its target has answered (R354). -/
def retryUnit (s : State) (core slot : Nat) : State :=
  if slot < 128 then
    match s.group? core slot with
    | some g => s.setGroup { g.retry (fun l => l.ticket.isNone) with waiting := .none }
    | none => s
  else
    match s.lantern? core slot with
    | some l => s.setLantern { l.settle with park := .none, waiting := .none }
    | none => s

/-! ### Waiting for range-lock entries (R253) -/

/-- The number under which a lantern waits for range-lock entries. -/
def lockTicket : Waiting → Option Nat
  | .lock n => some n
  | _ => none

/-- The oldest of some numbers. -/
def oldest (ns : List Nat) : Option Nat := ns.foldl (fun r n => some (match r with | some m => min m n | none => n)) none

/-- The numbers under which lanes of a group wait for range-lock entries. -/
def Group.tickets (g : Group) (set : LaneSet) : List Nat := (lanesIn set).filterMap (fun i => (g.lane i).ticket)

/-- Whether a team's scratchpads are on a core. -/
def Team.has (t : Team) (core : Nat) : Bool := t.sides.any (fun d => d.core = core)

/-- The number under which a task waits for entries of a table, if it does (R253). -/
def Task.ticketAt (t : Task) (core : Nat) : Option Nat := t.ticket.bind (fun k => if k.2 = core then some k.1 else none)

/-- Those of a core that wait for range-lock entries: lanes, lanterns, copy instances, write-backs and replays, and tasks whose next
team, copy or collective does; 256 is the Belfry's table (R251, R253). -/
def lockWaiters (s : State) (core : Nat) : List Nat :=
  (s.groups.filter (fun g => g.core = core)).flatMap (fun g => g.tickets g.liveLanes)
    ++ (s.lanterns.filter (fun l => l.core = core)).filterMap (fun l => lockTicket l.waiting)
    ++ (s.teams.filter (·.has core)).flatMap (fun t =>
         t.ticket.toList ++ (t.insts.filter (fun n => n.slices.any (fun x => x.core = core))).filterMap (·.ticket)
           ++ (s.journal.filter (fun j => j.teamId = some t.id)).filterMap (·.ticket))
    ++ s.tasks.filterMap (·.ticketAt core)
    ++ (if core = 256 then (s.journal.filter (fun j => j.kind = 3)).filterMap (·.ticket) else [])

/-- The number of a unit that waits, if it does. -/
def ticketOf (s : State) (x : Ix) : Option Nat :=
  if x.lan then (s.lantern? x.core x.slot).bind (fun l => lockTicket l.waiting)
  else (s.group? x.core x.slot).bind (fun g => oldest (g.tickets x.b.lanes))

/-- Whether an operation may take `n` entries of a core's table, under the number with which it waits, if it does: they are
free, and none waits before it (R253). -/
def mayLock (s : State) (core : Nat) (mine : Option Nat) (n : Nat) : Bool :=
  n = 0 || (s.lockFree core n && (lockWaiters s core).all (fun w =>
    match mine with
    | some m => m ≤ w
    | none => false))

/-- The issuer waits at its unit for range-lock entries, in the order in which it came (R253, R397). The lanes of a join perform
it again together; those of an L-set word (`alone`) perform their own. -/
def waitForLocks (s : State) (x : Ix) (alone : Bool := false) : State :=
  let (n, s1) := match ticketOf s x with
    | some n => (n, s)
    | none => (s.ids, s.fresh)
  if x.lan then waitAtUnit s1 x .wait (.lock n)
  else
    match s1.group? x.core x.slot with
    | some g =>
      s1.setGroup (g.upd (if alone then x.act else x.b.lanes ||| x.act) (fun _ l =>
        { l with park := .wait, gather := if alone then .none else .uset, pc := x.b.unit, next := x.nextPc, ticket := some n }))
    | none => s1

/-- The unit has its entries, or needs none any more: it waits no longer. -/
def leaveLocks (s : State) (x : Ix) : State :=
  if x.lan then
    match s.lantern? x.core x.slot with
    | some l => s.setLantern { l with waiting := .none }
    | none => s
  else
    match s.group? x.core x.slot with
    | some g => s.setGroup (g.upd (x.b.lanes ||| x.act) (fun _ l => { l with ticket := none }))
    | none => s

/-- Who waits under a number performs its unit again. -/
def retryLocks (s : State) (core slot n : Nat) : State :=
  if slot < 128 then
    match s.group? core slot with
    | some g => s.setGroup (g.retry (fun l => l.ticket = some n))
    | none => s
  else
    match s.lantern? core slot with
    | some l => if lockTicket l.waiting = some n then s.setLantern { l.settle with park := .none } else s
    | none => s

/-- A scalar register of the group or lantern (R15). -/
def sval (s : State) (x : Ix) (r : SReg) : DWord := ((s.front? x.core x.slot).map (fun f => f.sreg r.toNat)).getD 0

/-- Write a scalar register as an F4 write (R29); s0 discards. -/
def setSval (s : State) (x : Ix) (r : SReg) (v : DWord) : State :=
  if r = 0 then s
  else if x.lan then
    match s.lantern? x.core x.slot with
    | some l => s.setLantern { l with pend := l.pend ++ [{ dst := .s r.toNat, val := v, left := 4 }] }
    | none => s
  else
    match s.group? x.core x.slot with
    | some g => s.setGroup (g.setScalar r.toNat v)
    | none => s

/-- Trap the whole unit: every lane that the join gathered, or the lantern (R308). -/
def trapUnit (s : State) (x : Ix) (vec cause : Nat) (addr : DWord := 0) : State :=
  raiseAll s x.core x.slot (x.at true) x.act vec cause addr

/-- The body of a U-set word, once its join is complete (R56, R67): every lane the join counts has settled and stands
past the word, and the word is checked. Single-step does not apply to a handler's unit, its return among them (R312). -/
def runGathered (i : UInstr) (w : Word) (b : Bundle) (t : Team) (g : Group) (h : Bool)
    (legal : Team → Bool → Bool → Option Nat) (s : State) (body : Ix → State → State) : State :=
  let ms := g.members h
  let x : Ix := { b := b, core := b.core, slot := b.slot, t := t, act := ms, word := w, h := h, pfx := b.pfx }
  if !(match i.use.tok with | some k => g.fe.room k | none => true) then s
  else
    let s1 := s.setGroup (leaveJoin g ms (b.pos + 4))
    let s2 := match legal t false h with
      | some c => trapUnit s1 x 0 c
      | none => if unitUnderWait g i ms then trapUnit s1 x 0x380 1 else body x s1
    afterUnit s2 b.core b.slot x.at (if h then 0 else ms)

/-- The frame of a U-set word (R35, R56, R67): in a group its lanes park until every live lane stands there, and the
word then executes once. In the lantern it executes at once. -/
def usetAs (i : UInstr) (w : Word) (legal : Team → Bool → Bool → Option Nat) (s : State) (body : Ix → State → State) :
    Host.Outcome State Fault Refusal :=
  match s.bundle? with
  | none => .fault .notIssuing
  | some b =>
    if b.slot < 128 then
      match s.group? b.core b.slot, s.teamOf b.core b.slot with
      | some g, some t =>
        let s0 := s.pop
        let h : Bool := (b.lanes &&& g.members true) ≠ 0
        let g1 := if b.gathered then g else parkAt g b.lanes b .uset
        let s1 := s0.setGroup g1
        if g1.fullAt h = some b.unit then .next (runGathered i w b t g1 h legal s1 body)
        else .next (settleJoins s1 b.core b.slot)
      | _, _ => .fault .notIssuing
    else
      match s.lantern? b.core b.slot, s.teamOf b.core b.slot with
      | some l, some t =>
        let s0 := s.pop
        if !(match i.use.tok with | some k => l.fe.room k | none => true) then .next s0
        else
          let l1 := l.count
          let s1 := s0.setLantern { l1 with pc := b.pos + 4 }
          let x : Ix := { b := b, core := b.core, slot := b.slot, t := t, act := 0, word := w, h := l.fe.handler, lan := true, pfx := b.pfx }
          .next (match legal t true l.fe.handler with
            | some c => trapUnit s1 x 0 c
            | none => body x s1)
      | _, _ => .fault .notIssuing

/-- The frame of a decoded U-set word. -/
def uset (i : UInstr) (s : State) (body : Ix → State → State) : Host.Outcome State Fault Refusal :=
  usetAs i i.encode (fun t lan h => legality t lan h (.u i) i.encode) s body

/-- A long-latency operation of a group or lantern issues (R31). -/
def startOp (s : State) (core slot : Nat) (op : LongOp) : State :=
  match s.front? core slot with
  | some f => (s.setFront core slot ((f.start op).finish op.id)).fresh
  | none => s

/-- A long-latency operation issues, or the next part of its word joins it (R31, R137): `op` holds what this part adds, and
it is owed while a part is to come. -/
def startPart (x : Ix) (op : LongOp) (s : State) : State :=
  match x.b.op with
  | none =>
    let s1 := startOp s x.core x.slot { op with owed := op.owed || x.b.more }
    if x.b.more then s1.nextPart x (fun b => { b with op := some op.id }) else s1
  | some id =>
    let join (o : LongOp) : LongOp :=
      { o with lanes := o.lanes ||| op.lanes, lands := o.lands ++ op.lands, sq := o.sq + op.sq, spec := o.spec || op.spec
               owed := op.owed || x.b.more }
    let s1 := match s.front? x.core x.slot with
      | some f => s.setFront x.core x.slot ((f.updOp id join).finish id)
      | none => s
    if x.b.more then s1.nextPart x (fun b => { b with op := some id }) else s1

/-- The number of the operation that a word starts, or that its parts share. -/
def opId (x : Ix) (s : State) : Nat := x.b.op.getD s.ids

/-- A word that computes one scalar from scalars (R88-R90). -/
def scalarOp (i : UInstr) (d : SReg) (f : (SReg → DWord) → DWord) (s : State) : Host.Outcome State Fault Refusal :=
  uset i s (fun x s => setSval s x d (f (sval s x)))

/-! ### Illegal words (R55, R56) -/

/-- The lowest cause that a word meets on a core, when the team and the issuer are known (R55); none for a legal word. -/
def causeOf (w : Word) (t : Team) (core : Nat) (lan h : Bool) : Option Nat :=
  match rawDecode w with
  | .illegal c => some c
  | .instr i => lowestCause (diffCauses i w ++ staticCauses i ++ dynCauses t lan h i w ++ keyedCauses (t.side core).keyed t i)

/-- An illegal word issues: the lanes active in it trap, or every live lane at its implicit join (R56). -/
def illegalWord (w : Word) (c : Nat) (s : State) : Host.Outcome State Fault Refusal :=
  let core := (s.bundle?.map (·.core)).getD 0
  if isLset w then lsetAs .nop w (fun t lan h => some ((causeOf w t core lan h).getD c)) s (fun _ s => s)
  else usetAs .synce w (fun t lan h => some ((causeOf w t core lan h).getD c)) s (fun _ s => s)

/-- A fetch fails: the lanes that fetch, or the lantern, trap at the unit (R61). -/
def fetchFault (b : Bundle) (vec cause : Nat) (s : State) : State :=
  let s1 := s.pop
  let a : At := { unit := b.unit, word := 0, pfx := b.pfx }
  if b.slot < 128 then
    raise s1 b.core b.slot a (b.hits ++ (lanesIn b.lanes).map (fun i => { lane := i, vec := vec, cause := cause, addr := b.pos.setWidth 64 }))
  else raiseLantern s1 b.core b.slot a vec cause (b.pos.setWidth 64)

/-! ### The return from a handler (R313) -/

/-- s60 to s63 as the record of a slot holds them (R306); what cannot be read stays. -/
def savedScalars (s : State) (x : Ix) (f : Front) : List DWord :=
  match (recordOff s x.t.ctx x.core x.slot).bind (fun o => windowBytes s x.t.ctx (o + 64) 32) with
  | some bs => (upFrom 0 4).map (fun i => BitVec.ofNat 64 (natOf ((bs.drop (8 * i)).take 8)))
  | none => (upFrom 60 4).map f.sreg

/-- The front after ERET: s60 to s63 are back and no handler runs. -/
def Front.returned (f : Front) (saved : List DWord) : Front :=
  { f with s := f.s.take 60 ++ saved, handler := false, epc := 0, ecause := 0 }

/-- ERET at its join over the split, or at once in the lantern, whose pending writes land first (log 101): a failed token
check is a double fault; else s60 to s63 come back from the record, the split's lanes go to EPC settled, and the next
waiting split may enter. FPC reads 0 in the lantern (R240), so its check never fails. -/
def returnFrom (x : Ix) (s0 : State) : State :=
  let s := touchRecord s0 x.t.ctx x.core x.slot
  if x.lan then
    match s.lantern? x.core x.slot with
    | some l0 =>
      let l := l0.settle
      tryEntry (s.setLantern { l with fe := l.fe.returned (savedScalars s x l.fe), pc := codeAddr (l.fe.epc.setWidth 64), park := .none
                                      counted := false }) x.core x.slot
    | none => s
  else
    match s.group? x.core x.slot with
    | some g =>
      if fpcChk g.fpc && g.fe.hk.any (fun n => n ≠ 0) then trapUnit s x 0x380 5
      else
        let pc := codeAddr (g.fe.epc.setWidth 64)
        let g1 := (g.upd x.act (fun _ l => { l.settle with pc := pc, park := .none, gather := .none, handler := false })).handlerEnds
        settleJoins (tryEntry (s.setGroup { g1 with fe := g.fe.returned (savedScalars s x g.fe) }) x.core x.slot) x.core x.slot
    | none => s

end Sys2Proof.Machine
end

