-- ==== Sys2Proof/Machine/Integer.lean ====
section
/-! DEFINITION. Integer, bit, immediate, compare, select and predicate instructions of the L-set (R79-R87). All are of
class F4 (R29). -/

namespace Sys2Proof.Machine

/-- The operands va and vb of a lane, and vd where an instruction reads it. -/
def bin32 (f : Word → Word → Word) (d a b : VReg) (_ : Group) (l : Lane) : LaneOut :=
  { writes := w32 d (f (l.reg a.toNat) (l.reg b.toNat)) }

def tri32 (f : Word → Word → Word → Word) (d a b : VReg) (_ : Group) (l : Lane) : LaneOut :=
  { writes := w32 d (f (l.reg d.toNat) (l.reg a.toNat) (l.reg b.toNat)) }

def un32 (f : Word → Word) (d a : VReg) (_ : Group) (l : Lane) : LaneOut :=
  { writes := w32 d (f (l.reg a.toNat)) }

def bin64 (f : DWord → DWord → DWord) (d a b : VReg) (_ : Group) (l : Lane) : LaneOut :=
  { writes := w64 d (f (l.pair a.toNat) (l.pair b.toNat)) }

/-- Signed and unsigned minimum and maximum at any width. -/
def sminBV {n : Nat} (x y : BitVec n) : BitVec n := if x.slt y then x else y
def smaxBV {n : Nat} (x y : BitVec n) : BitVec n := if x.slt y then y else x
def uminBV {n : Nat} (x y : BitVec n) : BitVec n := if x.toNat < y.toNat then x else y
def umaxBV {n : Nat} (x y : BitVec n) : BitVec n := if x.toNat < y.toNat then y else x

/-- The high half of a signed product, and of an unsigned one (R80, R88). -/
def mulHighS {n : Nat} (x y : BitVec n) : BitVec n := ((x.signExtend (n + n)) * (y.signExtend (n + n))).extractLsb' n n
def mulHighU {n : Nat} (x y : BitVec n) : BitVec n := ((x.setWidth (n + n)) * (y.setWidth (n + n))).extractLsb' n n

/-- Shifts by an amount: 0, or every bit the sign, at or beyond the width (R81, R88). -/
def shlBy {n : Nat} (x : BitVec n) (k : Nat) : BitVec n := if n ≤ k then 0 else x <<< k
def shrBy {n : Nat} (x : BitVec n) (k : Nat) : BitVec n := if n ≤ k then 0 else x >>> k
def sarBy {n : Nat} (x : BitVec n) (k : Nat) : BitVec n := x.sshiftRight (if n ≤ k then n else k)

/-- A register shift's amount: bits 7:0 (R81, R88). -/
def amount {n : Nat} (x : BitVec n) : Nat := (x.extractLsb' 0 8).toNat

/-- The number of one bits among the low `k` bits. -/
def onesBelow {n : Nat} (x : BitVec n) : Nat → Nat
  | 0 => 0
  | k + 1 => (if x.getLsbD k then 1 else 0) + onesBelow x k

def popcount {n : Nat} (x : BitVec n) : Nat := onesBelow x n

/-- Zeros above the highest one of the low `k` bits, and zeros below the lowest one, from bit `i` (R81). -/
def leadZeros (x : Word) : Nat → Nat
  | 0 => 0
  | k + 1 => if x.getLsbD k then 0 else 1 + leadZeros x k

def trailZeros (x : Word) (i : Nat) : Nat → Nat
  | 0 => 0
  | k + 1 => if x.getLsbD i then 0 else 1 + trailZeros x (i + 1) k

/-- Bit i of the result is bit 31 - i of va (R81). -/
def reverseBits (x : Word) : Word :=
  (upFrom 0 32).foldl (fun r i => r ||| (if x.getLsbD (31 - i) then BitVec.ofNat 32 (2 ^ i) else 0)) 0

def swapBytes (x : Word) : Word :=
  x.extractLsb' 0 8 ++ x.extractLsb' 8 8 ++ x.extractLsb' 16 8 ++ x.extractLsb' 24 8

/-- The field descriptor of R82: position, effective length, sign bit. -/
def fieldPos (b : Word) : Nat := (b.extractLsb' 0 5).toNat
def fieldLen (b : Word) : Nat := min (b.extractLsb' 8 6).toNat (32 - fieldPos b)
def fieldMask (b : Word) : Word := BitVec.ofNat 32 ((2 ^ fieldLen b - 1) * 2 ^ fieldPos b)

def extractField (a b : Word) : Word :=
  let f := (a &&& fieldMask b) >>> fieldPos b
  if b.getLsbD 16 && 0 < fieldLen b && f.getLsbD (fieldLen b - 1) then f ||| ~~~(BitVec.ofNat 32 (2 ^ fieldLen b - 1)) else f

def insertField (d a b : Word) : Word := (d &&& ~~~(fieldMask b)) ||| ((a <<< fieldPos b) &&& fieldMask b)

/-- The ten conditions of R85; a code of 10 or more holds never, and is illegal. -/
def condHolds {n : Nat} (c : BitVec 4) (a b : BitVec n) : Bool :=
  match c.toNat with
  | 0 => a = b
  | 1 => a ≠ b
  | 2 => a.slt b
  | 3 => !b.slt a
  | 4 => b.slt a
  | 5 => !a.slt b
  | 6 => a.toNat < b.toNat
  | 7 => a.toNat ≤ b.toNat
  | 8 => b.toNat < a.toNat
  | 9 => b.toNat ≤ a.toNat
  | _ => false

/-- A comparison's predicate: the condition, or pd AND the condition (R43, R85). -/
def cmpOut (l : Lane) (p : PReg) (n : BitVec 1) (c : Bool) : List (Dest × DWord) :=
  wp p (if n = 1 then l.pred p.toNat && c else c)

/-- R80: va + vb, modulo 2^32. -/
def execIadd (u : Bool) (d a b : VReg) (s : State) : Host.Outcome State Fault Refusal :=
  alu (.iadd u d a b) 4 (bin32 (fun x y => x + y) d a b) s

/-- R80: va - vb, modulo 2^32. -/
def execIsub (u : Bool) (d a b : VReg) (s : State) : Host.Outcome State Fault Refusal :=
  alu (.isub u d a b) 4 (bin32 (fun x y => x - y) d a b) s

/-- R80: the low 32 bits of va times vb. -/
def execImul (u : Bool) (d a b : VReg) (s : State) : Host.Outcome State Fault Refusal :=
  alu (.imul u d a b) 4 (bin32 (fun x y => x * y) d a b) s

/-- R80: the high 32 bits of the signed product. -/
def execImulh (u : Bool) (d a b : VReg) (s : State) : Host.Outcome State Fault Refusal :=
  alu (.imulh u d a b) 4 (bin32 (fun x y => mulHighS x y) d a b) s

/-- R80: the high 32 bits of the unsigned product. -/
def execImulhz (u : Bool) (d a b : VReg) (s : State) : Host.Outcome State Fault Refusal :=
  alu (.imulhz u d a b) 4 (bin32 (fun x y => mulHighU x y) d a b) s

/-- R80: signed minimum. -/
def execImin (u : Bool) (d a b : VReg) (s : State) : Host.Outcome State Fault Refusal :=
  alu (.imin u d a b) 4 (bin32 (fun x y => sminBV x y) d a b) s

/-- R80: signed maximum. -/
def execImax (u : Bool) (d a b : VReg) (s : State) : Host.Outcome State Fault Refusal :=
  alu (.imax u d a b) 4 (bin32 (fun x y => smaxBV x y) d a b) s

/-- R80: unsigned minimum. -/
def execIminz (u : Bool) (d a b : VReg) (s : State) : Host.Outcome State Fault Refusal :=
  alu (.iminz u d a b) 4 (bin32 (fun x y => uminBV x y) d a b) s

/-- R80: unsigned maximum. -/
def execImaxz (u : Bool) (d a b : VReg) (s : State) : Host.Outcome State Fault Refusal :=
  alu (.imaxz u d a b) 4 (bin32 (fun x y => umaxBV x y) d a b) s

/-- R80. -/
def execAnd (u : Bool) (d a b : VReg) (s : State) : Host.Outcome State Fault Refusal :=
  alu (.and u d a b) 4 (bin32 (fun x y => x &&& y) d a b) s

/-- R80. -/
def execOr (u : Bool) (d a b : VReg) (s : State) : Host.Outcome State Fault Refusal :=
  alu (.or u d a b) 4 (bin32 (fun x y => x ||| y) d a b) s

/-- R80. -/
def execXor (u : Bool) (d a b : VReg) (s : State) : Host.Outcome State Fault Refusal :=
  alu (.xor u d a b) 4 (bin32 (fun x y => x ^^^ y) d a b) s

/-- R80: va AND NOT vb. -/
def execAndn (u : Bool) (d a b : VReg) (s : State) : Host.Outcome State Fault Refusal :=
  alu (.andn u d a b) 4 (bin32 (fun x y => x &&& ~~~y) d a b) s

/-- R81. -/
def execShl (u : Bool) (d a b : VReg) (s : State) : Host.Outcome State Fault Refusal :=
  alu (.shl u d a b) 4 (bin32 (fun x y => shlBy x (amount y)) d a b) s

/-- R81. -/
def execShr (u : Bool) (d a b : VReg) (s : State) : Host.Outcome State Fault Refusal :=
  alu (.shr u d a b) 4 (bin32 (fun x y => shrBy x (amount y)) d a b) s

/-- R81. -/
def execSar (u : Bool) (d a b : VReg) (s : State) : Host.Outcome State Fault Refusal :=
  alu (.sar u d a b) 4 (bin32 (fun x y => sarBy x (amount y)) d a b) s

/-- R81: the amount mod 32. -/
def execRotl (u : Bool) (d a b : VReg) (s : State) : Host.Outcome State Fault Refusal :=
  alu (.rotl u d a b) 4 (bin32 (fun x y => x.rotateLeft (amount y % 32)) d a b) s

/-- R82. -/
def execBfx (u : Bool) (d a b : VReg) (s : State) : Host.Outcome State Fault Refusal :=
  alu (.bfx u d a b) 4 (bin32 (fun x y => extractField x y) d a b) s

/-- R80: the absolute value; 0x8000_0000 stays. -/
def execIabs (u : Bool) (d a : VReg) (s : State) : Host.Outcome State Fault Refusal :=
  alu (.iabs u d a) 4 (un32 (fun x => if x.getLsbD 31 then -x else x) d a) s

/-- R81. -/
def execPopc (u : Bool) (d a : VReg) (s : State) : Host.Outcome State Fault Refusal :=
  alu (.popc u d a) 4 (un32 (fun x => BitVec.ofNat 32 (popcount x)) d a) s

/-- R81. -/
def execClz (u : Bool) (d a : VReg) (s : State) : Host.Outcome State Fault Refusal :=
  alu (.clz u d a) 4 (un32 (fun x => BitVec.ofNat 32 (leadZeros x 32)) d a) s

/-- R81. -/
def execCtz (u : Bool) (d a : VReg) (s : State) : Host.Outcome State Fault Refusal :=
  alu (.ctz u d a) 4 (un32 (fun x => BitVec.ofNat 32 (trailZeros x 0 32)) d a) s

/-- R81. -/
def execBrev (u : Bool) (d a : VReg) (s : State) : Host.Outcome State Fault Refusal :=
  alu (.brev u d a) 4 (un32 (fun x => reverseBits x) d a) s

/-- R81. -/
def execBswap (u : Bool) (d a : VReg) (s : State) : Host.Outcome State Fault Refusal :=
  alu (.bswap u d a) 4 (un32 (fun x => swapBytes x) d a) s

/-- R81. -/
def execMov (u : Bool) (d a : VReg) (s : State) : Host.Outcome State Fault Refusal :=
  alu (.mov u d a) 4 (un32 (fun x => x) d a) s

/-- R81: vd + the low 32 bits of va times vb. -/
def execImad (u : Bool) (d a b : VReg) (s : State) : Host.Outcome State Fault Refusal :=
  alu (.imad u d a b) 4 (tri32 (fun z x y => z + x * y) d a b) s

/-- R82. -/
def execBfi (u : Bool) (d a b : VReg) (s : State) : Host.Outcome State Fault Refusal :=
  alu (.bfi u d a b) 4 (tri32 (fun z x y => insertField z x y) d a b) s

/-- R83. -/
def execIadd64 (u : Bool) (d a b : VReg) (s : State) : Host.Outcome State Fault Refusal :=
  alu (.iadd64 u d a b) 4 (bin64 (fun x y => x + y) d a b) s

/-- R83. -/
def execIsub64 (u : Bool) (d a b : VReg) (s : State) : Host.Outcome State Fault Refusal :=
  alu (.isub64 u d a b) 4 (bin64 (fun x y => x - y) d a b) s

/-- R83: the full signed 64-bit product of va and vb. -/
def execImulw (u : Bool) (d a b : VReg) (s : State) : Host.Outcome State Fault Refusal :=
  alu (.imulw u d a b) 4 (fun _ l =>
    { writes := w64 d ((l.reg a.toNat).signExtend 64 * (l.reg b.toNat).signExtend 64) }) s

/-- A word with a sign-extended 11-bit immediate, which a PFX may extend (R48, R84). -/
def immWord (i : LInstr) (d a : VReg) (imm : BitVec 11) (f : Word → Word → Word) (s : State) :
    Host.Outcome State Fault Refusal :=
  alu i 4 (fun _ l => { writes := w32 d (f (l.reg a.toNat) ((immS imm (s.bundle?.bind (·.pfx))).setWidth 32)) }) s

/-- R84. -/
def execIaddi (u : Bool) (d a : VReg) (i : BitVec 11) (s : State) : Host.Outcome State Fault Refusal :=
  immWord (.iaddi u d a i) d a i (fun x y => x + y) s

/-- R84. -/
def execAndi (u : Bool) (d a : VReg) (i : BitVec 11) (s : State) : Host.Outcome State Fault Refusal :=
  immWord (.andi u d a i) d a i (fun x y => x &&& y) s

/-- R84. -/
def execOri (u : Bool) (d a : VReg) (i : BitVec 11) (s : State) : Host.Outcome State Fault Refusal :=
  immWord (.ori u d a i) d a i (fun x y => x ||| y) s

/-- R84. -/
def execXori (u : Bool) (d a : VReg) (i : BitVec 11) (s : State) : Host.Outcome State Fault Refusal :=
  immWord (.xori u d a i) d a i (fun x y => x ^^^ y) s

/-- R84. -/
def execShli (u : Bool) (d a : VReg) (n : BitVec 5) (s : State) : Host.Outcome State Fault Refusal :=
  alu (.shli u d a n) 4 (un32 (fun x => shlBy x n.toNat) d a) s

/-- R84. -/
def execShri (u : Bool) (d a : VReg) (n : BitVec 5) (s : State) : Host.Outcome State Fault Refusal :=
  alu (.shri u d a n) 4 (un32 (fun x => shrBy x n.toNat) d a) s

/-- R84. -/
def execSari (u : Bool) (d a : VReg) (n : BitVec 5) (s : State) : Host.Outcome State Fault Refusal :=
  alu (.sari u d a n) 4 (un32 (fun x => sarBy x n.toNat) d a) s

/-- R84. -/
def execRotli (u : Bool) (d a : VReg) (n : BitVec 5) (s : State) : Host.Outcome State Fault Refusal :=
  alu (.rotli u d a n) 4 (un32 (fun x => x.rotateLeft n.toNat) d a) s

/-- R84: the sign-extended 18-bit immediate, which a PFX may extend. -/
def execMovi (u : Bool) (d : VReg) (i : BitVec 18) (s : State) : Host.Outcome State Fault Refusal :=
  alu (.movi u d i) 4 (fun _ _ => { writes := w32 d ((immS i (s.bundle?.bind (·.pfx))).setWidth 32) }) s

/-- R85. -/
def execIcmp (u : Bool) (c : BitVec 4) (p : PReg) (a b : VReg) (n : BitVec 1) (s : State) :
    Host.Outcome State Fault Refusal :=
  alu (.icmp u c p a b n) 4 (fun _ l => { writes := cmpOut l p n (condHolds c (l.reg a.toNat) (l.reg b.toNat)) }) s

/-- R86: vd takes va where p holds, and is otherwise unchanged: with U = 1 the one result is then the lowest active lane's vd,
a source too (R39). -/
def execSel (u : Bool) (d a : VReg) (p : PReg) (s : State) : Host.Outcome State Fault Refusal :=
  alu (.sel u d a p) 4 (fun _ l => { writes := if l.pred p.toNat then w32 d (l.reg a.toNat) else if u then w32 d (l.reg d.toNat) else [] }) s

/-- R86. -/
def execPset (u : Bool) (a : VReg) (p : PReg) (s : State) : Host.Outcome State Fault Refusal :=
  alu (.pset u a p) 4 (fun _ l => { writes := wp p (l.reg a.toNat ≠ 0) }) s

/-- R86. -/
def execPtest (u : Bool) (d : VReg) (p : PReg) (s : State) : Host.Outcome State Fault Refusal :=
  alu (.ptest u d p) 4 (fun _ l => { writes := w32 d (if l.pred p.toNat then 1 else 0) }) s

/-- R87. -/
def execPand (u : Bool) (p q r : PReg) (s : State) : Host.Outcome State Fault Refusal :=
  alu (.pand u p q r) 4 (fun _ l =>
    let x := l.pred q.toNat
    let y := l.pred r.toNat
    { writes := wp p (x && y) }) s

/-- R87. -/
def execPor (u : Bool) (p q r : PReg) (s : State) : Host.Outcome State Fault Refusal :=
  alu (.por u p q r) 4 (fun _ l =>
    let x := l.pred q.toNat
    let y := l.pred r.toNat
    { writes := wp p (x || y) }) s

/-- R87. -/
def execPxor (u : Bool) (p q r : PReg) (s : State) : Host.Outcome State Fault Refusal :=
  alu (.pxor u p q r) 4 (fun _ l =>
    let x := l.pred q.toNat
    let y := l.pred r.toNat
    { writes := wp p (x != y) }) s

/-- R87. -/
def execPandn (u : Bool) (p q r : PReg) (s : State) : Host.Outcome State Fault Refusal :=
  alu (.pandn u p q r) 4 (fun _ l =>
    let x := l.pred q.toNat
    let y := l.pred r.toNat
    { writes := wp p (x && !y) }) s

/-- R87. -/
def execPnot (u : Bool) (p q : PReg) (s : State) : Host.Outcome State Fault Refusal :=
  alu (.pnot u p q) 4 (fun _ l => { writes := wp p (!l.pred q.toNat) }) s

/-- R87. -/
def execPmov (u : Bool) (p q : PReg) (s : State) : Host.Outcome State Fault Refusal :=
  alu (.pmov u p q) 4 (fun _ l => { writes := wp p (l.pred q.toNat) }) s

end Sys2Proof.Machine
end

