-- ==== Sys2Proof/Machine/Float.lean ====
section
/-! DEFINITION. Floating-point instructions: arithmetic, comparisons, special functions, conversions, random numbers
and the cycle count (R118-R134). -/

namespace Sys2Proof.Machine

/-! ### Operand forms -/

/-- The rounding mode a lane computes under (R18, R118). -/
def Group.rnd (g : Group) (l : Lane) : Rnd := rndOf (fpcRm (g.fpcFor l))

/-- A 32-bit result and its flags. -/
def out32 (d : VReg) (r : Nat × Flags) : LaneOut := { writes := w32 d (BitVec.ofNat 32 r.1), flags := r.2 }

/-- A 64-bit result and its flags. -/
def out64 (d : VReg) (r : Nat × Flags) : LaneOut := { writes := w64 d (BitVec.ofNat 64 r.1), flags := r.2 }

def fp2 (f : Fmt → Rnd → Nat → Nat → Nat × Flags) (d a b : VReg) (g : Group) (l : Lane) : LaneOut :=
  out32 d (f fp32 (g.rnd l) (l.reg a.toNat).toNat (l.reg b.toNat).toNat)

def fp3 (f : Fmt → Rnd → Nat → Nat → Nat → Nat × Flags) (d a b : VReg) (g : Group) (l : Lane) : LaneOut :=
  out32 d (f fp32 (g.rnd l) (l.reg a.toNat).toNat (l.reg b.toNat).toNat (l.reg d.toNat).toNat)

def fp1 (f : Fmt → Nat → Nat × Flags) (d a : VReg) (_ : Group) (l : Lane) : LaneOut :=
  out32 d (f fp32 (l.reg a.toNat).toNat)

def dp2 (f : Fmt → Rnd → Nat → Nat → Nat × Flags) (d a b : VReg) (g : Group) (l : Lane) : LaneOut :=
  out64 d (f fp64 (g.rnd l) (l.pair a.toNat).toNat (l.pair b.toNat).toNat)

def dp3 (f : Fmt → Rnd → Nat → Nat → Nat → Nat × Flags) (d a b : VReg) (g : Group) (l : Lane) : LaneOut :=
  out64 d (f fp64 (g.rnd l) (l.pair a.toNat).toNat (l.pair b.toNat).toNat (l.pair d.toNat).toNat)

def dp1 (f : Fmt → Nat → Nat × Flags) (d a : VReg) (_ : Group) (l : Lane) : LaneOut :=
  out64 d (f fp64 (l.pair a.toNat).toNat)

/-- Minimum or maximum, which round nothing. -/
def minMaxOp (wantMax : Bool) (f : Fmt) (_ : Rnd) (x y : Nat) : Nat × Flags := fMinMax f wantMax x y

/-- The control of FRND and DRND: modes 0 to 3, and 5 for FPC.RM (R121). -/
def rndField (r : BitVec 3) (rm : BitVec 2) : Rnd := if r.toNat < 4 then rndOf (r.extractLsb' 0 2) else rndOf rm

/-- Both elements of packed registers (R98, R123). -/
def packed2 (f : Nat → Nat → Nat → Nat × Flags) (d a b : VReg) (l : Lane) : LaneOut :=
  let x := l.reg a.toNat
  let y := l.reg b.toNat
  let z := l.reg d.toNat
  let e (i : Nat) := f (x.extractLsb' (16 * i) 16).toNat (y.extractLsb' (16 * i) 16).toNat (z.extractLsb' (16 * i) 16).toNat
  { writes := w32 d (BitVec.ofNat 16 (e 1).1 ++ BitVec.ofNat 16 (e 0).1), flags := (e 0).2 ||| (e 1).2 }

def pk2 (fm : Fmt) (f : Fmt → Rnd → Nat → Nat → Nat × Flags) (d a b : VReg) (g : Group) (l : Lane) : LaneOut :=
  packed2 (fun x y _ => f fm (g.rnd l) x y) d a b l

def pk3 (fm : Fmt) (f : Fmt → Rnd → Nat → Nat → Nat → Nat × Flags) (d a b : VReg) (g : Group) (l : Lane) : LaneOut :=
  packed2 (fun x y z => f fm (g.rnd l) x y z) d a b l

/-! ### Long-latency words -/

/-- What one lane's long-latency result is: its writes, and its flags. -/
abbrev LaneResult := Nat × LaneOut

/-- The number of the speculated unit a lane is in; 0 outside speculation (R33). -/
def Lane.specUnit (l : Lane) : Nat :=
  match l.spec with
  | some sp => sp.count
  | none => 0

/-- A long-latency word issues in its active lanes, or a part of it does (R31, R137): its token counts it, each lane's
writes land later, and its flags are raised as at R118: a lane that traps writes nothing, and is a check that fails. DESIGN CHOICE (log
119): the flags of lanes that do not trap enter FPC at issue, as those that trap are found then. `owed` says that other lanes of the
word still wait to perform. -/
def launchOp (f : Land → Land) (x : Ix) (k : Tok) (rs : List LaneResult) (s : State) (owed : Bool := false) : State × List Hit :=
  match s.group? x.core x.slot with
  | none => (s, [])
  | some g =>
    let step (acc : Group × List Hit × List Land) (o : LaneResult) : Group × List Hit × List Land :=
      let l := acc.1.lane o.1
      let en := fpcEnables (acc.1.fpcFor l) &&& o.2.flags
      let g1 := acc.1.raiseFlags o.1 o.2.flags
      if en = 0 then
        (g1, acc.2.1, acc.2.2 ++ [f { lane := o.1, writes := o.2.writes, spec := l.specUnit, unit := x.b.unit, word := x.word }])
      else (g1, acc.2.1 ++ [{ lane := o.1, vec := 0x200, cause := en.toNat }], acc.2.2)
    let (g1, hits, lands) := rs.foldl step (g, [], [])
    let op : LongOp :=
      { id := opId x s, tok := k, inH := x.h, lanes := laneSet (lands.map (·.lane)), lands := lands
        spec := lands.any (fun d => d.spec ≠ 0), owed := owed }
    let counted := g.fe.ops.any (fun o => o.id = op.id && o.spec)
    let g2 := if op.spec && !counted then { g1 with spec := g1.spec.map (fun r => { r with incs := bump k r.incs }) } else g1
    (startPart x op (s.setGroup g2), hits)

/-- A long-latency word issues, and its lanes that fail a check trap. -/
def launch (x : Ix) (k : Tok) (rs : List LaneResult) (s : State) : State :=
  let (s1, hits) := launchOp id x k rs s
  raiseUnit x false hits s1

/-- A long-latency word that computes each active lane's writes from that lane; with U = 1 once, on the lowest active
lane (R39). -/
def longAlu (i : LInstr) (k : Tok) (f : Group → Lane → LaneOut) (s : State) : Host.Outcome State Fault Refusal :=
  lset i s (fun x s =>
    match s.group? x.core x.slot with
    | none => s
    | some g =>
      let ls := lanesIn x.act
      let rs : List LaneResult :=
        if i.use.u then
          let o := f g (g.lane (ls.headD 0))
          ls.map (fun j => (j, o))
        else ls.map (fun j => (j, f g (g.lane j)))
      launch x k rs s) 1 i.use true

/-! ### Comparisons -/

/-- R124. -/
def execFcmp (u : Bool) (c : BitVec 3) (p : PReg) (a b : VReg) (n : BitVec 1) (s : State) :
    Host.Outcome State Fault Refusal :=
  alu (.fcmp u c p a b n) 4 (fun _ l =>
    let r := fcmpHolds fp32 c (l.reg a.toNat).toNat (l.reg b.toNat).toNat
    { writes := cmpOut l p n r.1, flags := r.2 }) s

/-- R124. -/
def execDcmp (u : Bool) (c : BitVec 3) (p : PReg) (a b : VReg) (n : BitVec 1) (s : State) :
    Host.Outcome State Fault Refusal :=
  alu (.dcmp u c p a b n) 8 (fun _ l =>
    let r := fcmpHolds fp64 c (l.pair a.toNat).toNat (l.pair b.toNat).toNat
    { writes := cmpOut l p n r.1, flags := r.2 }) s

/-! ### Arithmetic -/

/-- R120. -/
def execFadd (u : Bool) (d a b : VReg) (s : State) : Host.Outcome State Fault Refusal :=
  alu (.fadd u d a b) 4 (fp2 fAdd d a b) s

/-- R120. -/
def execFsub (u : Bool) (d a b : VReg) (s : State) : Host.Outcome State Fault Refusal :=
  alu (.fsub u d a b) 4 (fp2 fSub d a b) s

/-- R120. -/
def execFmul (u : Bool) (d a b : VReg) (s : State) : Host.Outcome State Fault Refusal :=
  alu (.fmul u d a b) 4 (fp2 fMul d a b) s

/-- R120. -/
def execFfma (u : Bool) (d a b : VReg) (s : State) : Host.Outcome State Fault Refusal :=
  alu (.ffma u d a b) 4 (fp3 fFma d a b) s

/-- R120. -/
def execFfms (u : Bool) (d a b : VReg) (s : State) : Host.Outcome State Fault Refusal :=
  alu (.ffms u d a b) 4 (fp3 fFms d a b) s

/-- R120. -/
def execFmin (u : Bool) (d a b : VReg) (s : State) : Host.Outcome State Fault Refusal :=
  alu (.fmin u d a b) 4 (fp2 (minMaxOp false) d a b) s

/-- R120. -/
def execFmax (u : Bool) (d a b : VReg) (s : State) : Host.Outcome State Fault Refusal :=
  alu (.fmax u d a b) 4 (fp2 (minMaxOp true) d a b) s

/-- R120. -/
def execFabs (u : Bool) (d a : VReg) (s : State) : Host.Outcome State Fault Refusal :=
  alu (.fabs u d a) 4 (fp1 fAbs d a) s

/-- R120. -/
def execFneg (u : Bool) (d a : VReg) (s : State) : Host.Outcome State Fault Refusal :=
  alu (.fneg u d a) 4 (fp1 fNeg d a) s

/-- R120. -/
def execDadd (u : Bool) (d a b : VReg) (s : State) : Host.Outcome State Fault Refusal :=
  alu (.dadd u d a b) 8 (dp2 fAdd d a b) s

/-- R120. -/
def execDsub (u : Bool) (d a b : VReg) (s : State) : Host.Outcome State Fault Refusal :=
  alu (.dsub u d a b) 8 (dp2 fSub d a b) s

/-- R120. -/
def execDmul (u : Bool) (d a b : VReg) (s : State) : Host.Outcome State Fault Refusal :=
  alu (.dmul u d a b) 8 (dp2 fMul d a b) s

/-- R120. -/
def execDfma (u : Bool) (d a b : VReg) (s : State) : Host.Outcome State Fault Refusal :=
  alu (.dfma u d a b) 8 (dp3 fFma d a b) s

/-- R120. -/
def execDfms (u : Bool) (d a b : VReg) (s : State) : Host.Outcome State Fault Refusal :=
  alu (.dfms u d a b) 8 (dp3 fFms d a b) s

/-- R120. -/
def execDmin (u : Bool) (d a b : VReg) (s : State) : Host.Outcome State Fault Refusal :=
  alu (.dmin u d a b) 8 (dp2 (minMaxOp false) d a b) s

/-- R120. -/
def execDmax (u : Bool) (d a b : VReg) (s : State) : Host.Outcome State Fault Refusal :=
  alu (.dmax u d a b) 8 (dp2 (minMaxOp true) d a b) s

/-- R120. -/
def execDabs (u : Bool) (d a : VReg) (s : State) : Host.Outcome State Fault Refusal :=
  alu (.dabs u d a) 8 (dp1 fAbs d a) s

/-- R120. -/
def execDneg (u : Bool) (d a : VReg) (s : State) : Host.Outcome State Fault Refusal :=
  alu (.dneg u d a) 8 (dp1 fNeg d a) s

/-- R120. -/
def execFcps (u : Bool) (d a b : VReg) (s : State) : Host.Outcome State Fault Refusal :=
  alu (.fcps u d a b) 4 (fp2 (fun f _ => fCps f) d a b) s

/-- R121. -/
def execFrnd (u : Bool) (d a : VReg) (r : BitVec 3) (s : State) : Host.Outcome State Fault Refusal :=
  alu (.frnd u d a r) 4 (fun g l =>
    out32 d (fRound fp32 (rndField r (fpcRm (g.fpcFor l))) (l.reg a.toNat).toNat)) s

/-- R121. -/
def execDrnd (u : Bool) (d a : VReg) (r : BitVec 3) (s : State) : Host.Outcome State Fault Refusal :=
  alu (.drnd u d a r) 8 (fun g l =>
    out64 d (fRound fp64 (rndField r (fpcRm (g.fpcFor l))) (l.pair a.toNat).toNat)) s

/-- R122. -/
def execFclass (u : Bool) (d a : VReg) (s : State) : Host.Outcome State Fault Refusal :=
  alu (.fclass u d a) 4 (fp1 (fun f x => (fClass f x, 0)) d a) s

/-- R122. -/
def execDclass (u : Bool) (d a : VReg) (s : State) : Host.Outcome State Fault Refusal :=
  alu (.dclass u d a) 8 (dp1 (fun f x => (fClass f x, 0)) d a) s

/-- R123. -/
def execHadd2 (u : Bool) (d a b : VReg) (s : State) : Host.Outcome State Fault Refusal :=
  alu (.hadd2 u d a b) 4 (pk2 fp16 fAdd d a b) s

/-- R123. -/
def execHmul2 (u : Bool) (d a b : VReg) (s : State) : Host.Outcome State Fault Refusal :=
  alu (.hmul2 u d a b) 4 (pk2 fp16 fMul d a b) s

/-- R123. -/
def execHfma2 (u : Bool) (d a b : VReg) (s : State) : Host.Outcome State Fault Refusal :=
  alu (.hfma2 u d a b) 4 (pk3 fp16 fFma d a b) s

/-- R123. -/
def execHmin2 (u : Bool) (d a b : VReg) (s : State) : Host.Outcome State Fault Refusal :=
  alu (.hmin2 u d a b) 4 (pk2 fp16 (minMaxOp false) d a b) s

/-- R123. -/
def execHmax2 (u : Bool) (d a b : VReg) (s : State) : Host.Outcome State Fault Refusal :=
  alu (.hmax2 u d a b) 4 (pk2 fp16 (minMaxOp true) d a b) s

/-- R123. -/
def execBadd2 (u : Bool) (d a b : VReg) (s : State) : Host.Outcome State Fault Refusal :=
  alu (.badd2 u d a b) 4 (pk2 bf16 fAdd d a b) s

/-- R123. -/
def execBmul2 (u : Bool) (d a b : VReg) (s : State) : Host.Outcome State Fault Refusal :=
  alu (.bmul2 u d a b) 4 (pk2 bf16 fMul d a b) s

/-- R123. -/
def execBfma2 (u : Bool) (d a b : VReg) (s : State) : Host.Outcome State Fault Refusal :=
  alu (.bfma2 u d a b) 4 (pk3 bf16 fFma d a b) s

/-- R123. -/
def execBmin2 (u : Bool) (d a b : VReg) (s : State) : Host.Outcome State Fault Refusal :=
  alu (.bmin2 u d a b) 4 (pk2 bf16 (minMaxOp false) d a b) s

/-- R123. -/
def execBmax2 (u : Bool) (d a b : VReg) (s : State) : Host.Outcome State Fault Refusal :=
  alu (.bmax2 u d a b) 4 (pk2 bf16 (minMaxOp true) d a b) s

/-! ### Special functions -/

/-- R125, R126. -/
def execFrcp (u : Bool) (d a : VReg) (k : Tok) (s : State) : Host.Outcome State Fault Refusal :=
  longAlu (.frcp u d a k) k (fun _ l => out32 d (fRcp fp32 (l.reg a.toNat).toNat)) s

/-- R125, R126. -/
def execFrsq (u : Bool) (d a : VReg) (k : Tok) (s : State) : Host.Outcome State Fault Refusal :=
  longAlu (.frsq u d a k) k (fun _ l => out32 d (fRsq fp32 (l.reg a.toNat).toNat)) s

/-- R125, R126. -/
def execFsqrt (u : Bool) (d a : VReg) (k : Tok) (s : State) : Host.Outcome State Fault Refusal :=
  longAlu (.fsqrt u d a k) k (fun _ l => out32 d (fSqrt fp32 (l.reg a.toNat).toNat)) s

/-- R125, R126. -/
def execFexp2 (u : Bool) (d a : VReg) (k : Tok) (s : State) : Host.Outcome State Fault Refusal :=
  longAlu (.fexp2 u d a k) k (fun _ l => out32 d (fExp2 (l.reg a.toNat).toNat)) s

/-- R125, R126. -/
def execFlog2 (u : Bool) (d a : VReg) (k : Tok) (s : State) : Host.Outcome State Fault Refusal :=
  longAlu (.flog2 u d a k) k (fun _ l => out32 d (fLog2 (l.reg a.toNat).toNat)) s

/-- R125, R126. -/
def execFsinp (u : Bool) (d a : VReg) (k : Tok) (s : State) : Host.Outcome State Fault Refusal :=
  longAlu (.fsinp u d a k) k (fun _ l => out32 d (fSinp (l.reg a.toNat).toNat)) s

/-- R125, R126. -/
def execFcosp (u : Bool) (d a : VReg) (k : Tok) (s : State) : Host.Outcome State Fault Refusal :=
  longAlu (.fcosp u d a k) k (fun _ l => out32 d (fCosp (l.reg a.toNat).toNat)) s

/-- R125, R126. -/
def execDrcp (u : Bool) (d a : VReg) (k : Tok) (s : State) : Host.Outcome State Fault Refusal :=
  longAlu (.drcp u d a k) k (fun _ l => out64 d (fRcp fp64 (l.pair a.toNat).toNat)) s

/-- R125, R126. -/
def execDrsq (u : Bool) (d a : VReg) (k : Tok) (s : State) : Host.Outcome State Fault Refusal :=
  longAlu (.drsq u d a k) k (fun _ l => out64 d (fRsq fp64 (l.pair a.toNat).toNat)) s

/-- R125, R126. -/
def execDsqrt (u : Bool) (d a : VReg) (k : Tok) (s : State) : Host.Outcome State Fault Refusal :=
  longAlu (.dsqrt u d a k) k (fun _ l => out64 d (fSqrt fp64 (l.pair a.toNat).toNat)) s

/-! ### Conversions (R128-R130) -/

/-- Rounding codes of CVT: 0 to 3 a mode, 4 dither, 5 FPC.RM. -/
def cvtRnd (r : BitVec 3) (rm : BitVec 2) (t : Nat) : Rnd :=
  if r = 4 then .dither t else if r = 5 then rndOf rm else rndOf (r.extractLsb' 0 2)

/-- A result put into one field of vd; the other bits of vd stay. -/
def intoField (d : VReg) (l : Lane) (w pos : Nat) (r : Nat × Flags) : LaneOut :=
  let mask : Word := BitVec.ofNat 32 ((2 ^ w - 1) * 2 ^ (w * pos))
  { writes := w32 d ((l.reg d.toNat &&& ~~~mask) ||| (BitVec.ofNat 32 (r.1 * 2 ^ (w * pos)) &&& mask)), flags := r.2 }

/-- A field of va. -/
def fromField (x : Word) (w pos : Nat) : Nat := (x.toNat / 2 ^ (w * pos)) % 2 ^ w

/-- An integer result of 32 or 64 bits. -/
def intOut (n : Nat) (r : Int × Flags) : Nat × Flags := ((BitVec.ofInt n r.1).toNat, r.2)

/-- The pairs of R53 with the rounding given. -/
def cvtOut (f : BitVec 4) (d a : VReg) (rnd : Rnd) (p : BitVec 4) (l : Lane) : LaneOut :=
  let x := (l.reg a.toNat)
  let y := (l.pair a.toNat)
  match f.toNat with
  | 0 => out32 d (fConvert fp64 fp32 rnd y.toNat)
  | 1 => out64 d (fConvert fp32 fp64 .rne x.toNat)
  | 2 => intoField d l 16 p.toNat (fConvert fp32 fp16 rnd x.toNat)
  | 3 => out32 d (fConvert fp16 fp32 .rne (fromField x 16 p.toNat))
  | 4 => intoField d l 16 p.toNat (fConvert fp32 bf16 rnd x.toNat)
  | 5 => out32 d (fConvert bf16 fp32 .rne (fromField x 16 p.toNat))
  | 6 => intoField d l 8 p.toNat (fConvert fp32 e4m3 rnd x.toNat)
  | 7 => intoField d l 8 p.toNat (fConvert fp32 e5m2 rnd x.toNat)
  | 8 => out32 d (fConvert e4m3 fp32 .rne (fromField x 8 p.toNat))
  | 9 => out32 d (fConvert e5m2 fp32 .rne (fromField x 8 p.toNat))
  | 10 => out32 d (intOut 32 (fToInt fp32 rnd (-2147483648) 2147483647 x.toNat))
  | 11 => out32 d (fFromInt fp32 rnd x.toInt)
  | 12 => out32 d (intOut 32 (fToInt fp32 rnd 0 4294967295 x.toNat))
  | 13 => out32 d (fFromInt fp32 rnd x.toNat)
  | 14 => out64 d (intOut 64 (fToInt fp64 rnd (-9223372036854775808) 9223372036854775807 y.toNat))
  | _ => out64 d (fFromInt fp64 rnd y.toInt)

/-- DPH.PHASE as the lowest lane of a set sees it (R19, R28). -/
def Group.phase (g : Group) (act : LaneSet) : Nat := (g.dphFor (g.lane ((lanesIn act).headD 0))).toNat % 64

/-- DPH.PHASE advances by `n`, modulo 64 (R110): the value that SETC has replaced and the lane still sees, or DPH. -/
def advancePhase (g : Group) (act : LaneSet) (n : Nat) : Group :=
  let up (w : DWord) : DWord := (w &&& ~~~63#64) ||| BitVec.ofNat 64 ((w.toNat + n) % 64)
  if (g.lane ((lanesIn act).headD 0)).olds.any (fun o => o.reg = .dph) then
    g.upd (~~~0) (fun _ l => { l with olds := l.olds.map (fun o => if o.reg = .dph then { o with val := up o.val } else o) })
  else { g with dph := (up (g.dph.setWidth 64)).setWidth 32 }

/-- A conversion in its active lanes: a dithered one takes its phase and advances it, and an element's position is the
lane it is computed in (R39, R110). -/
def cvtBody (i : LInstr) (f : BitVec 4) (d a : VReg) (r : BitVec 3) (p : BitVec 4) (x : Ix) (s : State) : State :=
  match s.group? x.core x.slot with
  | none => s
  | some g =>
    let ph := g.phase x.act
    let one (j src : Nat) : Nat × LaneOut :=
      let l := g.lane src
      (j, cvtOut f d a (cvtRnd r (fpcRm (g.fpcFor l)) (ditherT src ph)) p l)
    let ls := lanesIn x.act
    let outs := if i.use.u then ls.map (fun j => one j (ls.headD 0)) else ls.map (fun j => one j j)
    finishAlu x 8 outs (if r = 4 then s.setGroup (advancePhase g x.act 1) else s)

/-- Whether the team of the bundle that issues runs a deterministic task. -/
def issuingDet (s : State) : Bool :=
  match s.bundle? with
  | some b => ((s.teamOf b.core b.slot).map (·.det)).getD false
  | none => false

/-- How an L-set word acts as an implicit full join: its causes of R55 when it runs, when it may be performed, the lanes
that perform it by themselves, and what its turn does before its lanes act (R67, R190, R336). -/
structure Joined where
  legal : Team → Bool → Bool → Option Nat
  may   : State → Group → Bool := fun _ _ => true
  alone : Group → Addr → LaneSet := fun _ _ => 0
  open_ : Bundle → LaneSet → State → State := fun _ _ s => s

/-- An L-set word that acts as an implicit full join (R67, R190, R336): its lanes park until every live lane stands at
it, and it then issues once, over those its GUARD leaves active. -/
def joinedLset (i : LInstr) (j : Joined) (uses : Use) (s : State) (body : Ix → State → State) : Host.Outcome State Fault Refusal :=
  match s.bundle? with
  | none => .fault .notIssuing
  | some b =>
    match s.group? b.core b.slot, s.teamOf b.core b.slot with
    | some g, some t =>
      if activeAt g b ≠ 0 && (j.legal t false g.fe.handler).isSome then lsetAs i i.encode j.legal s (fun _ s => s)
      else
        let h : Bool := (b.lanes &&& g.members true) ≠ 0
        let g1 := if b.gathered then g else parkAt g b.lanes b .uset
        let s1 := s.setGroup g1
        let own := j.alone g1 b.unit
        let here := g1.where (fun _ l => l.live && l.park = .join && l.gather = .uset && l.pc = b.unit)
        let set := if own ≠ 0 && own &&& ~~~here = 0 then own else if g1.fullAt h = some b.unit then g1.members h else 0
        if set ≠ 0 && j.may s1 g1 then
          let g2 := leaveJoin g1 set b.unit
          let b2 : Bundle := { b with lanes := set }
          let s2 := s1.setGroup g2
          lsetAs i i.encode j.legal (j.open_ b2 (activeAt g2 b2) { s2 with issue := b2 :: s2.issue.drop 1 }) body 1 uses true
        else .next (settleJoins s1.pop b.core b.slot)
    | _, _ => lsetAs i i.encode j.legal s body 1 uses true

/-- R128-R130, R336. -/
def execCvt (u : Bool) (f : BitVec 4) (d a : VReg) (r : BitVec 3) (p : BitVec 4) (s : State) :
    Host.Outcome State Fault Refusal :=
  if r = 4 && issuingDet s then
    joinedLset (.cvt u f d a r p) { legal := fun t lan h => legality t lan h (.l (.cvt u f d a r p)) (LInstr.cvt u f d a r p).encode }
      (LInstr.cvt u f d a r p).use s (cvtBody (.cvt u f d a r p) f d a r p)
  else lset (.cvt u f d a r p) s (cvtBody (.cvt u f d a r p) f d a r p) 1 (LInstr.cvt u f d a r p).use true

/-! ### Random numbers and the cycle count -/

/-- R132. -/
def mix (z : DWord) : DWord :=
  let z := (z ^^^ (z >>> 30)) * 0xBF58476D1CE4E5B9
  let z := (z ^^^ (z >>> 27)) * 0x94D049BB133111EB
  z ^^^ (z >>> 31)

def draw (k g c : DWord) : DWord := mix (mix (k ^^^ mix g) + c * 0x9E3779B97F4A7C15)

/-- SEED of a team's task (R228). -/
def seedOf (s : State) (t : Team) : DWord :=
  match s.task? t.slot with
  | some task => BitVec.ofNat 64 (recSeed task.record)
  | none => 0

/-- A draw in each active lane: its counter goes up at issue (R133). -/
def rngWord (i : LInstr) (k : Tok) (f : DWord → List (Dest × DWord)) (s : State) : Host.Outcome State Fault Refusal :=
  lset i s (fun x s =>
    match s.group? x.core x.slot with
    | none => s
    | some g =>
      let key := seedOf s x.t
      let rs := (lanesIn x.act).map (fun j => (j, ({ writes := f (draw key (g.lane j).rng (g.lane j).draws) } : LaneOut)))
      launch x k rs (s.setGroup (g.upd x.act (fun _ l => { l with draws := l.draws + 1 })))) 1 i.use true

/-- R133. -/
def execRngB32 (d : VReg) (k : Tok) (s : State) : Host.Outcome State Fault Refusal :=
  rngWord (.rngB32 d k) k (fun w => w32 d (w.extractLsb' 32 32)) s

/-- R133. -/
def execRngF32 (d : VReg) (k : Tok) (s : State) : Host.Outcome State Fault Refusal :=
  rngWord (.rngF32 d k) k (fun w =>
    let m := (w >>> 40).toNat
    w32 d (BitVec.ofNat 32 (if m = 0 then 0 else (roundF fp32 .rne false m (-24)).1))) s

/-- An operation that a deterministic task forbids traps its active lanes before it has any effect (R335). -/
def detLanes (x : Ix) (code : Nat) (s : State) : State :=
  raiseUnit x false ((lanesIn x.act).map (fun j => { lane := j, vec := 0x400, cause := code })) s

/-- R134, R335. -/
def execCycle (d : VReg) (k : Tok) (s : State) : Host.Outcome State Fault Refusal :=
  lset (.cycle d k) s (fun x s =>
    if x.t.det then detLanes x 5 s else
    let n := ((s.cores.find? (fun c => c.core = x.core)).map (·.cycles)).getD 0
    launch x k ((lanesIn x.act).map (fun j => (j, { writes := w32 d (n.extractLsb' 0 32) }))) s) 1 (LInstr.cycle d k).use true

/-- RDSPEC: SPECM (sel 0) or SPECR (sel 1) as it stands at issue (R243, R335). -/
def execRdspec (d : VReg) (sel : BitVec 7) (k : Tok) (s : State) : Host.Outcome State Fault Refusal :=
  lset (.rdspec d sel k) s (fun x s =>
    if x.t.det then detLanes x 5 s
    else
      match s.group? x.core x.slot with
      | none => s
      | some g =>
        let v (l : Lane) : DWord :=
          if sel = 0 then l.sees .specm (g.specm.setWidth 64) else l.sees .specr (g.specr.setWidth 64)
        launch x k ((lanesIn x.act).map (fun j => (j, { writes := w32 d ((v (g.lane j)).setWidth 32) }))) s) 1 (LInstr.rdspec d sel k).use true

end Sys2Proof.Machine
end

