-- ==== Sys2Proof/Machine/Control.lean ====
section
/-! DEFINITION. Control flow, divergence and completion tokens (R58-R78): branches and their speculation, joins, exits,
restarts, prefixes, waits, traps, and scalar transfers. -/

namespace Sys2Proof.Machine

/-! ### Branches -/

/-- Send lanes to an address. -/
def Group.goto (g : Group) (set : LaneSet) (pc : Addr) : Group := g.upd set (fun _ l => { l with pc := pc })

/-- The lanes of a set where a predicate holds, or fails for neg = 1. -/
def Group.taking (g : Group) (set : LaneSet) (p : PReg) (neg : Bool) : LaneSet :=
  set &&& g.where (fun _ l => l.pred p.toNat != neg)

/-- CTXC.SPEC (R241). -/
def specEnabled (s : State) (ctx : Nat) : Bool := (s.ctx ctx).ctxc.getLsbD 3

/-- Acquire at the scope of what a token's completed operations touched, as a WAITK that proceeds (R147). -/
def acquireToken (s : State) (core slot : Nat) (k : Option Tok) : State :=
  match s.front? core slot with
  | some f => (s.setFront core slot (f.clearDone k)).acquire core (f.acquireScope k)
  | none => s

/-- What the front end does with one lane at a speculative branch (R62, log 3): 0 predicts that it falls through, 1 that
it takes the branch, and 2 holds it. -/
def predict (s : State) : Option Bool × State :=
  let (c, s) := s.choose
  (if c % 3 = 0 then some false else if c % 3 = 1 then some true else none, s)

/-- A branch that waits for no token (R61). -/
def plainBranch (x : Ix) (p : PReg) (neg : Bool) (tgt : Addr) (s : State) : State :=
  match s.group? x.core x.slot with
  | some g => s.setGroup (g.goto (g.taking x.act p neg) tgt)
  | none => s

/-- The front end starts a speculation record (R33, R62): every active lane settles, as after a WAITK that waits; a
predicted lane goes on along its path, and a held lane stays at the branch. -/
def speculate (x : Ix) (p : PReg) (neg : Bool) (k : Tok) (tgt : Addr) (s : State) : State :=
  match s.group? x.core x.slot with
  | none => s
  | some g =>
    let g1 := g.upd x.act (fun _ l => l.settle)
    let step (acc : Group × State) (i : Nat) : Group × State :=
      let (c, s) := predict acc.2
      (acc.1.upd (laneBit i) (fun _ l =>
        { l with spec := some { taken := c }
                 pc := match c with | some true => tgt | some false => x.nextPc | none => x.b.unit }), s)
    let (g2, s1) := (lanesIn x.act).foldl step (g1, s)
    s1.setGroup { g2 with spec := some { pc := x.b.pos, tok := k, p := p, neg := neg, disp := tgt, incs := List.replicate 15 0 } }

/-- The lanes of a bundle that waited at the word, and whether it waits now: they do not issue past it (R59, R77). -/
def holdAt (s : State) (b : Bundle) (g : Group) : Host.Outcome State Fault Refusal :=
  .next (s.pop.setGroup (g.upd (activeAt g b) (fun _ l => { l with waited := true })))

/-- Lanes that waited at a WAITK settle (R30). -/
def settleWaited (g0 : Group) (act : LaneSet) (g : Group) : Group :=
  g.upd (act &&& g0.where (fun _ l => l.waited)) (fun _ l => l.settle)

/-- R61, R62. A branch on a token with operations outstanding speculates; without speculation it waits as its WAITK. -/
def execBra (p : PReg) (n : BitVec 1) (k : Tok) (d : BitVec 14) (s : State) : Host.Outcome State Fault Refusal :=
  let i : LInstr := .bra p n k d
  match s.bundle? with
  | none => .fault .notIssuing
  | some b =>
    let neg := n = 1
    let tgt := target b.pos d b.pfx
    match s.group? b.core b.slot, s.teamOf b.core b.slot with
    | some g, some t =>
      if k = 15 || activeAt g b = 0 then lset i s (fun x s => plainBranch x p neg tgt s)
      else if g.spec.isSome then .next s.pop
      else if g.fe.count k = 0 then
        lset i s (fun x s =>
          let s1 := match s.group? x.core x.slot with
            | some g1 => s.setGroup (settleWaited g x.act g1)
            | none => s
          plainBranch x p neg tgt (acquireToken s1 x.core x.slot (some k)))
      else if specEnabled s t.ctx && !g.dbgc.getLsbD 0 then lset i s (fun x s => speculate x p neg k tgt s)
      else holdAt s b g
    | _, _ => lset i s (fun x s => plainBranch x p neg tgt s)

/-! ### Rejoin masks and joins -/

/-- RJM (add = false) or RJADD writes a rejoin mask (R17, R68): a second write of one cycle combines with the first;
every lane that passes the unit, active or not, sees the new mask from its 4th instruction on, and other lanes from the
next cycle. -/
def writeMask (x : Ix) (m : MReg) (add : Bool) (s : State) : State :=
  match s.group? x.core x.slot with
  | none => s
  | some g =>
    let now := g.m.getD m.toNat 0
    let old := match g.cyc.find? (fun w => w.m = m.toNat) with
      | some w => w.old
      | none => now
    let new := match g.cyc.find? (fun w => w.m = m.toNat) with
      | some w => if !add && !w.rjm then w.lanes ||| x.act else now ||| x.act
      | none => if add then now ||| x.act else x.act
    let new := new &&& g.liveLanes
    let g1 := g.upd (~~~0) (fun i l =>
      if x.b.lanes.getLsbD i then l.keepOld (.mask m.toNat) old
      else if g.cyc.any (fun w => w.m = m.toNat && w.through.getLsbD i) then l
      else { l with olds := l.olds.filter (fun o => o.reg ≠ .mask m.toNat) })
    s.setGroup { g1 with
      m := g.m.set m.toNat new
      cyc := g.cyc ++ [{ m := m.toNat, lanes := x.act, through := x.b.lanes, rjm := !add, old := old }] }

/-- R68. -/
def execRjm (m : MReg) (s : State) : Host.Outcome State Fault Refusal := lset (.rjm m) s (writeMask · m false)

/-- R68. -/
def execRjadd (m : MReg) (s : State) : Host.Outcome State Fault Refusal := lset (.rjadd m) s (writeMask · m true)

/-- Active lanes park at a join of an L-set word (R69, R73, R74): they stand at the unit and go on past it. -/
def arrive (x : Ix) (k : Lane → Gather) (g : Group) : Group :=
  g.upd x.act (fun _ l => { l with park := .join, gather := k l, pc := x.b.unit, next := x.nextPc })

/-- R69: the requirement takes the mask as each arriving lane reads it, the lanes park, and joins that can complete do. -/
def execJoin (m : MReg) (s : State) : Host.Outcome State Fault Refusal :=
  lset (.join m) s (fun x s =>
    match s.group? x.core x.slot with
    | none => s
    | some g =>
      let need := (lanesIn x.act).foldl (fun q i => q ||| g.maskFor (g.lane i) m) (g.q.getD m.toNat 0)
      let g1 := { (arrive x (fun _ => .join m) g) with q := g.q.set m.toNat need }
      settleJoins (s.setGroup g1) x.core x.slot)

/-- R72. -/
def execExit (s : State) : Host.Outcome State Fault Refusal :=
  lset .exit s (fun x s => loseLanes s x.core x.slot x.act)

/-- R73: each lane parks with the successor it reads; the restart is a step of its own. -/
def execExits (a : SReg) (n : BitVec 8) (s : State) : Host.Outcome State Fault Refusal :=
  lset (.exits a n) s (fun x s =>
    match s.group? x.core x.slot with
    | none => s
    | some g =>
      settleJoins (s.setGroup (arrive x (fun l => .exits (g.scalarFor l a.toNat) n.toNat) g)) x.core x.slot)

/-- R74: lanes park; the packing is a step of its own. -/
def execRegroup (p : PReg) (n : BitVec 5) (s : State) : Host.Outcome State Fault Refusal :=
  lset (.regroup p n) s (fun x s =>
    match s.group? x.core x.slot with
    | none => s
    | some g => settleJoins (s.setGroup (arrive x (fun _ => .regroup p n.toNat) g)) x.core x.slot)

/-- R75: the lanes settle, and their PC is withheld from the group's next issue cycle. -/
def execYield (s : State) : Host.Outcome State Fault Refusal :=
  lset .yield s (fun x s =>
    match s.group? x.core x.slot with
    | none => s
    | some g => s.setGroup { (g.upd x.act (fun _ l => l.settle)) with withheld := g.withheld ++ [x.nextPc] })

/-! ### Waiting and stopping -/

/-- R76. -/
def execDly (n : BitVec 5) (s : State) : Host.Outcome State Fault Refusal := lset (.dly n) s (fun _ s => s) n.toNat

/-- R76. -/
def execNop (s : State) : Host.Outcome State Fault Refusal := lset .nop s (fun _ s => s)

/-- R77, R147: the active lanes go past when the count allows it, and acquire; those that had to wait settle (R30). -/
def execWaitk (k : Tok) (t : BitVec 4) (s : State) : Host.Outcome State Fault Refusal :=
  let i : LInstr := .waitk k t
  match s.bundle? with
  | none => .fault .notIssuing
  | some b =>
    match s.group? b.core b.slot with
    | some g =>
      if activeAt g b ≠ 0 && k ≠ 15 && decide (t.toNat < g.fe.count k) then holdAt s b g
      else
        lset i s (fun x s =>
          let s1 := match s.group? x.core x.slot with
            | some g1 => s.setGroup (settleWaited g x.act g1)
            | none => s
          acquireToken s1 x.core x.slot (some k))
    | none => lset i s (fun _ s => s)

/-- A trap that the word itself asks for: its active lanes go on at the next unit when they return (R78, R310). -/
def softTrap (x : Ix) (vec cause : Nat) (code : Word) (s : State) : State :=
  raise s x.core x.slot { x.at with tcode := code, next := true }
    ((lanesIn x.act).map (fun j => { lane := j, vec := vec, cause := cause }))

/-- R78, R315. -/
def execBkpt (s : State) : Host.Outcome State Fault Refusal := lset .bkpt s (fun x s => softTrap x 0x480 1 0 s)

/-- R78, R315. -/
def execTrap (c : BitVec 16) (s : State) : Host.Outcome State Fault Refusal :=
  lset (.trap c) s (fun x s => softTrap x 0x500 1 (c.setWidth 32) s)

/-! ### Prefixes (R48-R51, R55, R56) -/

/-- The word at an address of the issuing context, if it can be fetched. -/
def wordAt (s : State) (b : Bundle) (pc : Addr) : Option Word :=
  match s.teamOf b.core b.slot with
  | some t =>
    match fetch s t.ctx pc with
    | .word w => some w
    | .trap _ _ => none
  | none => none

/-- The head bundle goes on to the next word of its unit. -/
def goPast (s : State) (b : Bundle) (guard : Option (PReg × Bool)) (pfx : Option (BitVec 25)) : State :=
  { s with issue := { b with pos := b.pos + 4, guard := guard, pfx := pfx } :: s.issue.drop 1 }

/-- Whether the words after a GUARD make a forbidden pairing (R50), with the word that the record names and a PFX. -/
def guardPairing (s : State) (b : Bundle) : Option (Word × Option (BitVec 25)) :=
  match wordAt s b (b.pos + 4) with
  | none => none
  | some w =>
    if isGuardWord w then some (w, none)
    else if isPfxWord w then
      match wordAt s b (b.pos + 8) with
      | none => none
      | some w2 => if isLset w2 then none else some (w2, some (fld w 0 25))
    else if isLset w then none
    else some (w, none)

/-- GUARD (R50): its own checks and its pairing are made at once against the bundle's lanes; then the next word is
active where the predicate says. In the lantern a forbidden pairing is the lowest cause too (R55). -/
def execGuard (p : PReg) (n : BitVec 1) (s : State) : Host.Outcome State Fault Refusal :=
  let i : LInstr := .guard p n
  match s.bundle? with
  | none => .fault .notIssuing
  | some b =>
    if b.slot < 128 then
      match s.teamOf b.core b.slot with
      | none => .fault .notIssuing
      | some t =>
        let bad := guardPairing s b
        match lowestCause ((legality t false false (.l i) i.encode).toList ++ (if bad.isSome then [9] else [])) with
        | some c =>
          let (w, pf) := bad.getD ((wordAt s b (b.pos + 4)).getD 0, none)
          .next (raise s.pop b.core b.slot { unit := b.unit, word := w, pfx := pf }
            (b.hits ++ (lanesIn b.lanes).map (fun j => { lane := j, vec := 0, cause := c })))
        | none => .next (goPast s b (some (p, n = 1)) b.pfx)
    else
      match guardPairing s b, s.lantern? b.core b.slot with
      | some (w, pf), some l => .next (raiseLantern (s.pop.setLantern l.tick) b.core b.slot { unit := b.unit, word := w, pfx := pf } 0 9 0)
      | _, _ => lset i s (fun _ s => s)

/-- PFX (R48, R49): a forbidden pairing traps the bundle's active lanes before an L-set word, and every live lane at
the implicit join before a U-set word; otherwise the next word takes the payload. -/
def execPfx (p : BitVec 25) (s : State) : Host.Outcome State Fault Refusal :=
  match s.bundle? with
  | none => .fault .notIssuing
  | some b =>
    match wordAt s b (b.pos + 4) with
    | none => .next (goPast s b b.guard (some p))
    | some w =>
      if pfxAdmits w then .next (goPast s b b.guard (some p))
      else if isLset w then lsetAs .nop w (fun _ _ _ => some 9) (goPast s b b.guard (some p)) (fun _ s => s)
      else usetAs .synce w (fun _ _ _ => some 9) (goPast s b b.guard (some p)) (fun _ s => s)

/-! ### Scalar transfers (R64, R65) -/

/-- The group's lanes, or the lantern, go to an address. -/
def jumpTo (s : State) (x : Ix) (pc : Addr) : State :=
  if x.lan then
    match s.lantern? x.core x.slot with
    | some l => s.setLantern { l with pc := pc }
    | none => s
  else
    match s.group? x.core x.slot with
    | some g => s.setGroup (g.goto x.act pc)
    | none => s

/-- The conditions of SBR (R64). -/
def sbrHolds (c : BitVec 4) (x : DWord) : Bool :=
  match c.toNat with
  | 0 => x = 0
  | 1 => x ≠ 0
  | 2 => x.slt 0
  | 3 => !x.slt 0
  | 4 => (0 : DWord).slt x
  | _ => !(0 : DWord).slt x

/-- R64. -/
def execSbr (c : BitVec 4) (a : SReg) (d : BitVec 15) (s : State) : Host.Outcome State Fault Refusal :=
  uset (.sbr c a d) s (fun x s => if sbrHolds c (sval s x a) then jumpTo s x (target x.b.pos d x.pfx) else s)

/-- R64. -/
def execJmp (d : BitVec 25) (s : State) : Host.Outcome State Fault Refusal :=
  uset (.jmp d) s (fun x s => jumpTo s x (target x.b.pos d x.pfx))

/-- The return address goes to s63 at once, and the call depth rises (R65). -/
def enterCall (s : State) (x : Ix) : State :=
  match s.front? x.core x.slot with
  | none => s
  | some f =>
    let d := if f.cdepth = 0xFFFFFFFF then f.cdepth else f.cdepth + 1
    let s1 := s.setFront x.core x.slot { f with s := f.s.set 63 (x.nextPc.setWidth 64), cdepth := d }
    if x.lan then
      match s1.lantern? x.core x.slot with
      | some l => s1.setLantern { l with pend := l.pend.filter (fun p => p.dst ≠ .s 63) }
      | none => s1
    else s1

/-- R65. -/
def execCall (d : BitVec 25) (s : State) : Host.Outcome State Fault Refusal :=
  uset (.call d) s (fun x s => jumpTo (enterCall s x) x (target x.b.pos d x.pfx))

/-- RET (R65): a checked return with operations left on k8 to k14 is a token leak; at call depth 0 the lanes exit or the
lantern retires. -/
def execRet (a : SReg) (s : State) : Host.Outcome State Fault Refusal :=
  uset (.ret a) s (fun x s =>
    match s.front? x.core x.slot with
    | none => s
    | some f =>
      let chk := !x.lan && ((s.group? x.core x.slot).map (fun g => fpcChk g.fpc)).getD false
      if chk && (f.tok.drop 8).any (fun c => c ≠ 0) then trapUnit s x 0x380 2
      else if f.cdepth = 0 then
        (if x.lan then retireLantern s x.core x.slot else loseLanes s x.core x.slot x.act)
      else
        jumpTo (s.setFront x.core x.slot { f with cdepth := f.cdepth - 1 }) x (codeAddr (sval s x a)))

end Sys2Proof.Machine
end

