-- ==== Sys2Proof/Machine/Access.lean ====
section
/-! DEFINITION. Memory access, atomics and fences of lanes and scalars (R155-R171, R226 for the loads they share), and
the wake of lanes parked on presence (R150, R161). -/

namespace Sys2Proof.Machine

/-! ### Checks (R156) -/

/-- The three spaces of the offset-based accesses. -/
inductive Space where
  | slice | scratch | cupola
  deriving DecidableEq, Repr

/-- What an access reads and writes. -/
inductive Access where
  | load | store | atomic
  deriving DecidableEq, Repr

/-- What the checks of a lane's access decide: perform it at a location (and whether its page is TSO), trap, or park
until the line at a location is present. -/
inductive Verdict where
  | go (loc : Nat) (tso : Bool)
  | hit (vec cause : Nat)
  | park (loc : Nat)
  deriving DecidableEq, Repr

/-- The other core of a pair. -/
def partnerOf (core : Nat) : Nat := if core % 2 = 0 then core + 1 else core - 1

/-- The location of a scratchpad offset of a team, or none beyond its bound (R160, R248). -/
def scratchAt (t : Team) (core off w : Nat) : Option Nat :=
  let size := t.lines * 64
  if off + w ≤ size then some (scratchLoc core ((t.side core).base * 64 + off))
  else if t.pair && Config.partnerBase ≤ off && off + w ≤ Config.partnerBase + size then
    let p := partnerOf core
    some (scratchLoc p ((t.side p).base * 64 + (off - Config.partnerBase)))
  else none

/-- Whether a load takes a byte of DRAM from M, past its own store queue, the core's channel and its stale copies (R140). -/
def fromM (s : State) (core : Nat) (sq : List Entry) (a : Nat) : Bool :=
  (youngest sq a).isNone && (youngest (s.channel core) a).isNone && !(s.stale.any (fun c => c.core = core && c.line = lineOf a))

/-- Whether a load of `n` bytes takes any byte from a poisoned unit of a view or of M. -/
def loadBad (s : State) (core : Nat) (sq : List Entry) (loc n : Nat) : Bool :=
  (upFrom loc n).any (fun a =>
    s.poisoned (unitOf a) && (if isScratch a then (youngest sq a).isNone else fromM s core sq a))

/-- Whether an atomic reads a poisoned unit. -/
def readBad (s : State) (core : Nat) (sq : List Entry) (loc n : Nat) : Access → Bool
  | .load => loadBad s core sq loc n
  | .atomic => s.anyPoison loc n
  | .store => false

/-- Checks 5 to 7 of a scratchpad access. A load of a destination whose line is absent parks (R151, R254). -/
def scratchVerdict (s : State) (t : Team) (core : Nat) (sq : List Entry) (k : Access) (loc w : Nat) : Verdict :=
  match lockScratch s t.id loc w (k = .load) with
  | .trap => .hit 0x180 1
  | .park =>
    if s.lineAbsent loc then .park loc
    else if readBad s core sq loc w k then .hit 0x280 1 else .go loc false
  | .clear =>
    if readBad s core sq loc w k then .hit 0x280 1
    else if k = .load && s.lineAbsent loc then .park loc
    else .go loc false

def needOf : Access → Need
  | .load => .read
  | .store => .write
  | .atomic => .both

/-- Checks 4 to 6 of a Cupola access. -/
def cupolaVerdict (s : State) (t : Team) (core : Nat) (sq : List Entry) (k : Access) (off w : Nat) : Verdict :=
  match windowPage s t.ctx off (needOf k) with
  | .fault c => .hit 0x100 c
  | .ok p =>
    match lockVirtual s t.ctx (Config.windowBase + off) w (k = .load) with
    | .trap => .hit 0x180 1
    | _ => if readBad s core sq p.loc w k then .hit 0x280 1 else .go p.loc p.t

/-- The checks of R156 in order, for an access of `w` bytes at an offset. -/
def verdict (s : State) (t : Team) (core : Nat) (sq : List Entry) (sp : Space) (k : Access) (off w : Nat) : Verdict :=
  if sp = .cupola && k = .atomic && t.det then .hit 0x400 1
  else if off % w ≠ 0 then .hit 0x100 2
  else
    match sp with
    | .slice => if off + w ≤ t.laneb then .go off false else .hit 0x100 1
    | .scratch =>
      match scratchAt t core off w with
      | none => .hit 0x100 1
      | some loc => scratchVerdict s t core sq k loc w
    | .cupola => if off + w ≤ Config.windowBytes then cupolaVerdict s t core sq k off w else .hit 0x100 1

/-- The translation that check 4 makes fills the cache (R330). -/
def touchFor (s : State) (t : Team) (sp : Space) (off w : Nat) : State :=
  if sp = .cupola && off % w = 0 && off + w ≤ Config.windowBytes then s.touch t.ctx (Config.windowBase + off) else s

/-! ### Loads -/

/-- The writes of loaded bytes: below a word sign- or zero-extended, else one register a word (R159). -/
def loadWrites (d : Nat) (sign : Bool) (bs : List Byte) : List (Dest × DWord) :=
  if bs.length < 4 then
    let n := natOf bs
    let w := 8 * bs.length
    let neg := sign && n / 2 ^ (w - 1) = 1
    [(.v d, BitVec.ofNat 64 (if neg then n + (2 ^ 32 - 2 ^ w) else n))]
  else wBytes d bs

def sqOf (s : State) (core slot : Nat) : List Entry := ((s.front? core slot).map (·.sq)).getD []

/-- Lanes park on an absent line at the load's unit (R161). -/
def parkOn (x : Ix) (w : Nat) (sign : Bool) (d : VReg) (k : Tok) (i loc : Nat) (off : DWord) (uni : Bool) (s : State) : State :=
  match s.group? x.core x.slot with
  | none => s
  | some g =>
    let want : Want := { kind := .load sign, addr := loc, n := w, reg := d.toNat, tok := k, unit := x.b.unit, word := x.word
                         pfx := x.pfx, uni := uni, off := off }
    s.setGroup (g.upd (laneBit i) (fun _ l =>
      { l with park := .presence, want := some want, pc := x.b.unit, next := x.nextPc }))

/-- LDL meets uncorrectable words: its lane is killed, the kill is logged in the slot's record and reported (R158,
R246). A speculated lane waits for its resolution first (R34). -/
def killBadLanes (x : Ix) (lanes : List Nat) (s : State) : State :=
  lanes.foldl (fun s i =>
    match s.group? x.core x.slot with
    | none => s
    | some g =>
      if (g.lane i).spec.isSome then
        let later : Deferred :=
          { vec := 0xFFFF, cause := 0, unit := x.b.unit, word := x.word, pfx := x.pfx, addr := 0, tcode := 0, next := false }
        s.setGroup (g.upd (laneBit i) (fun _ l =>
          { l with pc := x.b.unit, spec := l.spec.map (fun sp => { sp with deferred := some later }) }))
      else
        let s1 := (s.event 11 (ctx := x.t.ctx) (slot := x.t.slot))
        let s2 := logRecord s1 x.t.ctx x.core x.slot 0x21
        loseLanes s2 x.core x.slot (laneBit i)) s

/-- Whether `w` bytes at an offset of a lane's slice touch a word with an uncorrectable error. -/
def Lane.sliceBad (l : Lane) (off w : Nat) : Bool := l.bad.any (fun b => overlaps b 4 off w)

/-- The bytes a lane loads. -/
def loaded (s : State) (x : Ix) (sp : Space) (l : Lane) (loc w : Nat) : List Byte :=
  match sp with
  | .slice => l.slice.read loc w
  | _ => s.loadBytes x.core (sqOf s x.core x.slot) loc w

/-- A load word (R155-R162): every active lane is checked and performs in lane order; with U = 1 one access, on the
lowest active lane, serves every active lane (R157). -/
def loadWord (i : LInstr) (sp : Space) (w : Nat) (sign : Bool) (d a : VReg) (k : Tok) (sc : BitVec 3) (acq : Bool) (s : State) :
    Host.Outcome State Fault Refusal :=
  lset i s (fun x s =>
    match s.group? x.core x.slot with
    | none => s
    | some g =>
      let ls := lanesIn x.act
      let lead (j : Nat) : Nat := if i.use.u then ls.headD 0 else j
      let off (j : Nat) : Nat := ((g.lane (lead j)).offset a sc x.pfx w).toNat
      let s1 := ls.foldl (fun s j => touchFor s x.t sp (off j) w) s
      let v (j : Nat) : Verdict := verdict s1 x.t x.core g.fe.sq sp .load (off j) w
      let bad (j : Nat) : Bool := sp = .slice && (g.lane j).sliceBad (off j) w
      let rs : List LaneResult := ls.filterMap (fun j =>
        match v j with
        | .go loc _ => if bad j then none else some (j, { writes := loadWrites d.toNat sign (loaded s1 x sp (g.lane (lead j)) loc w) })
        | _ => none)
      let hits : List Hit := ls.filterMap (fun j =>
        match v j with
        | .hit vec c => some { lane := j, vec := vec, cause := c, addr := BitVec.ofNat 64 (off j) }
        | _ => none)
      let (s2, _) := launchOp id x k rs s1
      let s3 := if acq && rs ≠ [] then s2.acquire x.core 4 else s2
      let s4 := ls.foldl (fun s j =>
        match v j with
        | .park loc => parkOn x w sign d k j loc (BitVec.ofNat 64 (off j)) i.use.u s
        | _ => s) s3
      let s5 := killBadLanes x (ls.filter (fun j => match v j with | .go _ _ => bad j | _ => false)) s4
      raiseUnit x false hits s5) 1 i.use true

/-- PRS reads the presence bit of a line (R163, R335). -/
def prsWord (i : LInstr) (d a : VReg) (k : Tok) (sc : BitVec 3) (s : State) : Host.Outcome State Fault Refusal :=
  lset i s (fun x s =>
    if x.t.det then detLanes x 5 s else
    match s.group? x.core x.slot with
    | none => s
    | some g =>
      let ls := lanesIn x.act
      let off (j : Nat) : Nat := ((g.lane j).offset a sc x.pfx 4).toNat
      let bad (j : Nat) : Option Nat :=
        if off j % 4 ≠ 0 then some 2 else if (scratchAt x.t x.core (off j) 4).isNone then some 1 else none
      let rs : List LaneResult := (ls.filter (fun j => (bad j).isNone)).map (fun j =>
        (j, { writes := w32 d (if s.lineAbsent ((scratchAt x.t x.core (off j) 4).getD 0) then 0 else 1) }))
      let hits : List Hit := ls.filterMap (fun j =>
        (bad j).map (fun c => { lane := j, vec := 0x100, cause := c, addr := BitVec.ofNat 64 (off j) }))
      raiseUnit x false hits (launchOp id x k rs s).1) 1 i.use true

/-! ### Stores -/

/-- Region directions of R229: bit 0 an in region, bit 1 an out region. -/
def Region.out (r : Region) : Bool := r.dir = 1 || r.dir = 2

/-- Whether every byte from one virtual address up to another lies in an out or inout region; `fuel` bounds the regions used. -/
def coveredFrom (rs : List Region) : Nat → Nat → Nat → Bool
  | 0, va, stop => stop ≤ va
  | fuel + 1, va, stop =>
    stop ≤ va || rs.any (fun r => r.out && r.va.toNat ≤ va && va < r.va.toNat + r.len && coveredFrom rs fuel (r.va.toNat + r.len) stop)

/-- Whether bytes at a virtual address lie in the out and inout regions of the team's task (R167, R229). DESIGN CHOICE (log 121): bytes
that lie only partly in them do not; the regions together must hold every byte. -/
def inOutRegion (t : Team) (va n : Nat) : Bool := coveredFrom t.regions t.regions.length va (va + n)

/-- A team loses its idempotent standing for good (R167). -/
def loseStanding (s : State) (id : Nat) : State :=
  match s.team? id with
  | some t => s.setTeam { t with standing := false }
  | none => s

/-- A store in a lane's own slice clears the errors of the words it covers whole (R158, R246). -/
def Lane.storeSlice (l : Lane) (off : Nat) (bs : List Byte) : Lane :=
  { l with slice := l.slice.write off bs, bad := l.bad.filter (fun b => !(off ≤ b && b + 4 ≤ off + bs.length)) }

/-- A store word: one entry for each lane that performs, in lane order (R139, R155); STL writes its slice at once. DESIGN CHOICE (log
120): an STL, which has no entry that could leave its queue, completes on its token at issue. -/
def storeWord (i : LInstr) (sp : Space) (w : Nat) (d a : VReg) (k : Tok) (sc : BitVec 3) (rel : Bool) (s : State) :
    Host.Outcome State Fault Refusal :=
  lset i s (fun x s =>
    match s.group? x.core x.slot with
    | none => s
    | some g =>
      let ls := lanesIn x.act
      let off (j : Nat) : Nat := ((g.lane j).offset a sc x.pfx w).toNat
      let bytes (j : Nat) : List Byte := ((g.lane j).regBytes d.toNat ((w + 3) / 4)).take w
      let s1 := ls.foldl (fun s j => touchFor s x.t sp (off j) w) s
      let v (j : Nat) : Verdict := verdict s1 x.t x.core g.fe.sq sp .store (off j) w
      let go := ls.filterMap (fun j => match v j with | .go loc tso => some (j, loc, tso) | _ => none)
      let hits : List Hit := ls.filterMap (fun j =>
        match v j with
        | .hit vec c => some { lane := j, vec := vec, cause := c, addr := BitVec.ofNat 64 (off j) }
        | _ => none)
      let entry (e : Nat × Nat × Bool) : Entry :=
        { loc := e.2.1, bytes := bytes e.1, rel := rel, tso := e.2.2, op := opId x s1, ctx := x.t.ctx
          va := if sp = .cupola then some (BitVec.ofNat 48 (Config.windowBase + off e.1)) else none, slot := x.t.slot }
      let s2 :=
        if sp = .slice then
          startPart x { id := opId x s1, tok := k, inH := x.h, lanes := laneSet (go.map (·.1)) }
            (s1.setGroup (go.foldl (fun g e => g.upd (laneBit e.1) (fun _ l => l.storeSlice e.2.1 (bytes e.1))) g))
        else
          let f := g.fe
          startPart x { id := opId x s1, tok := k, inH := x.h, lanes := laneSet (go.map (·.1)), sq := go.length }
            (s1.setGroup { g with fe := { f with sq := f.sq ++ go.map entry } })
      let lost := sp = .cupola && go.any (fun e => !(inOutRegion x.t (Config.windowBase + off e.1) w))
      raiseUnit x false hits (if lost then loseStanding s2 x.t.id else s2)) 1 i.use true

/-! ### Atomics (R164-R166) -/

/-- The new value of memory, from the old one and the operand: vd, or the pair of vd and vd + 1. -/
def atomF (f : Nat) (w : Nat) (old arg : DWord) : DWord :=
  let o : Word := old.extractLsb' 0 32
  let v : Word := arg.extractLsb' 0 32
  let x (r : Word) : DWord := r.setWidth 64
  match f with
  | 0 => if w = 8 then old + arg else x (o + v)
  | 1 => x (sminBV o v)
  | 2 => x (smaxBV o v)
  | 3 => x (uminBV o v)
  | 4 => x (umaxBV o v)
  | 5 => x (o &&& v)
  | 6 => x (o ||| v)
  | 7 => x (o ^^^ v)
  | 8 => x v
  | 9 => x (if o = v then arg.extractLsb' 32 32 else o)
  | 10 => BitVec.ofNat 64 (fAdd fp32 .rne o.toNat v.toNat).1
  | 11 => BitVec.ofNat 64 (fAdd fp64 .rne old.toNat arg.toNat).1
  | 13 => locCombine true old arg
  | _ => locCombine false old arg

/-- Whether an entry overlaps the `w` bytes at one of some locations. -/
def Entry.meets (e : Entry) (locs : List Nat) (w : Nat) : Bool := locs.any (fun l => overlaps l w e.loc e.bytes.length)

/-- Whether an ATOMC may be taken (R143): no older entry of the core's channel overlaps any lane's bytes. -/
def atomClear (s : State) (core : Nat) (locs : List Nat) (w : Nat) : Bool := !((s.channel core).any (·.meets locs w))

/-- An atomic that cannot be taken yet issues again later (R59, R270). Where earlier lanes of the word have performed, their part
ends with them. -/
def leaveParts (b : Bundle) (t : Team) (w : Word) (s : State) : State :=
  let x : Ix := { b := b, core := b.core, slot := b.slot, t := t, act := 0, word := w, pfx := b.pfx }
  match b.op with
  | some id => raiseUnit x false [] (s.opDone b.core b.slot id)
  | none => raiseUnit x false [] s

/-- The translation that an atomic's checks make: none in a deterministic task, whose ATOMC fails before it (R156, R335). -/
def touchAtom (s : State) (t : Team) (sp : Space) (off w : Nat) : State := if t.det then s else touchFor s t sp off w

/-- An atomic word: the group's older entries leave first, and for ATOMC those of the core's channel that overlap its bytes (R143);
then each active lane is checked and takes its one step in lane order. An ATOMC that an entry still blocks does not issue yet
(R59, R270). -/
def atomWord (i : LInstr) (sp : Space) (f w : Nat) (d a : VReg) (k : Tok) (sc : BitVec 3) (s : State) :
    Host.Outcome State Fault Refusal :=
  match s.bundle? with
  | none => .fault .notIssuing
  | some b =>
    match s.group? b.core b.slot, s.teamOf b.core b.slot with
    | some g, some t =>
      let gi := g.atIssue b
      let off (j : Nat) : Nat := ((gi.lane j).offset a sc b.pfx w).toNat
      let s1 := drainQueue s b.core b.slot
      let locs := (lanesIn (activeIn gi b)).filterMap (fun j =>
        match verdict s1 t b.core [] sp .atomic (off j) w with | .go loc _ => some loc | _ => none)
      let s2 := if sp = .cupola then drainOut s1 b.core (·.meets locs w) else s1
      if sp = .cupola && !atomClear s2 b.core locs w then .next (leaveParts b t i.encode s2.pop)
      else
        lset i s2 (fun x s =>
          match s.group? x.core x.slot with
          | none => s
          | some g =>
            let ls := lanesIn x.act
            let arg (j : Nat) : DWord := (g.lane j).reg (d.toNat + 1) ++ (g.lane j).reg d.toNat
            let step (acc : State × List LaneResult × List Hit) (j : Nat) : State × List LaneResult × List Hit :=
              let s0 := touchAtom acc.1 x.t sp (off j) w
              match verdict s0 x.t x.core [] sp .atomic (off j) w with
              | .go loc _ =>
                let old : DWord := BitVec.ofNat 64 (natOf (s0.bytes loc w))
                let new := bytesOf w (atomF f w old (arg j)).toNat
                let s1 := s0.store loc new
                let s2 := if sp = .cupola then s1.refreshStale x.core loc new else s1
                (s2, acc.2.1 ++ [(j, { writes := if w = 8 then w64 d old else w32 d (old.extractLsb' 0 32) })], acc.2.2)
              | .hit vec c => (s0, acc.2.1, acc.2.2 ++ [{ lane := j, vec := vec, cause := c, addr := BitVec.ofNat 64 (off j) }])
              | .park _ => (s0, acc.2.1, acc.2.2)
            let (s1, rs, hits) := ls.foldl step (s, [], [])
            let s2 := if rs = [] then s1 else loseStanding s1 x.t.id
            raiseUnit x false hits (launchOp id x k rs s2).1) 1 i.use true
    | _, _ => lset i s (fun _ s => s)

/-! ### Scalar accesses (R168) -/

/-- The offset of a scalar access. -/
def scalarOff (s : State) (x : Ix) (b : SReg) (imm : BitVec 5) (w : Nat) : DWord :=
  sval s x b + immZ imm x.pfx * BitVec.ofNat 64 w

/-- A long-latency result of a scalar register starts (R31); s0 discards it. -/
def launchScalar (x : Ix) (k : Tok) (a : SReg) (v : DWord) (s : State) : State :=
  startOp s x.core x.slot
    { id := s.ids, tok := k, inH := x.h, lanes := x.act
      lands := [{ lane := 0, writes := if a = 0 then [] else [(.s a.toNat, v)], unit := x.b.unit, word := x.word }] }

/-- A scalar load. -/
def scalarLoad (i : UInstr) (sp : Space) (w : Nat) (a b : SReg) (k : Tok) (imm : BitVec 5) (s : State) :
    Host.Outcome State Fault Refusal :=
  uset i s (fun x s =>
    let off := scalarOff s x b imm w
    let s1 := touchFor s x.t sp off.toNat w
    let sq := sqOf s1 x.core x.slot
    match verdict s1 x.t x.core sq sp .load off.toNat w with
    | .hit vec c => trapUnit s1 x vec c off
    | .park loc => waitAtUnit s1 x .presence (.load loc w a k off x.word x.pfx)
    | .go loc _ => launchScalar x k a (BitVec.ofNat 64 (natOf (s1.loadBytes x.core sq loc w))) s1)

/-- A scalar store. -/
def scalarStore (i : UInstr) (sp : Space) (w : Nat) (a b : SReg) (k : Tok) (imm : BitVec 5) (s : State) :
    Host.Outcome State Fault Refusal :=
  uset i s (fun x s =>
    let off := scalarOff s x b imm w
    let s1 := touchFor s x.t sp off.toNat w
    match verdict s1 x.t x.core [] sp .store off.toNat w, s1.front? x.core x.slot with
    | .hit vec c, _ => trapUnit s1 x vec c off
    | .go loc tso, some f =>
      let e : Entry := { loc := loc, bytes := bytesOf w (sval s1 x a).toNat, tso := tso, op := s1.ids, ctx := x.t.ctx
                         va := if sp = .cupola then some (BitVec.ofNat 48 (Config.windowBase + off.toNat)) else none, slot := x.t.slot }
      let s2 := s1.setFront x.core x.slot { f with sq := f.sq ++ [e] }
      let s3 := startOp s2 x.core x.slot { id := s1.ids, tok := k, inH := x.h, lanes := x.act, sq := 1 }
      if sp = .cupola && !inOutRegion x.t (Config.windowBase + off.toNat) w then loseStanding s3 x.t.id else s3
    | _, _ => s1)

/-! ### Gathers and scatters (R225-R227, R354) -/

/-- What the checks of R226 decide for one lane: perform, trap, or wait for the target's answer. -/
inductive GatherVerdict where
  | go (loc : Nat) (tso : Bool)
  | hit (vec cause : Nat)
  | wait
  deriving DecidableEq, Repr

def gatherVerdict (s : State) (t : Team) (core : Nat) (sq : List Entry) (load : Bool) (va : DWord) (w : Nat) : GatherVerdict :=
  let a := va.toNat
  let need : Need := if load then .read else .write
  if 2 ^ 48 ≤ a then .hit 0x100 1
  else if a % w ≠ 0 then .hit 0x100 2
  else
    match xlateFor s t.ctx a need with
    | .fault c => .hit 0x100 c
    | .ok _ =>
      if unanswered s t.ctx a then .wait
      else
        match xlateGlobal s t.ctx a need with
        | .fault c => .hit 0x100 c
        | .ok p =>
          match lockVirtual s t.ctx a w load with
          | .clear => if load && loadBad s core sq p.loc w then .hit 0x280 1 else .go p.loc p.t
          | _ => .hit 0x180 1

/-- Lanes wait at their unit for a target's answer (R354). -/
def waitForTarget (x : Ix) (w : Want) (i : Nat) (s : State) : State :=
  match s.group? x.core x.slot with
  | none => s
  | some g => s.setGroup (g.upd (laneBit i) (fun _ l =>
      { l with park := .wait, want := some w, pc := x.b.unit, next := x.nextPc }))

def gatherHits (s : State) (x : Ix) (load : Bool) (w : Nat) (items : List (Nat × DWord)) : List Hit :=
  items.filterMap (fun e =>
    match gatherVerdict s x.t x.core (sqOf s x.core x.slot) load e.2 w with
    | .hit vec c => some { lane := e.1, vec := vec, cause := c, addr := e.2 }
    | _ => none)

/-- Look up each distinct 64 KiB page that some addresses lie in, once for the whole word (R330). -/
def lookUp (x : Ix) (w : Nat) (vas : List DWord) (s : State) : State :=
  let ps := (vas.filter (fun va => decide (va.toNat < 2 ^ 48) && va.toNat % w = 0)).foldl (fun r va => insertNat (va.toNat / 0x10000) r) []
  let new := ps.filter (fun p => !x.b.pages.contains p)
  let s1 := new.foldl (fun s p => s.touch x.t.ctx (p * 0x10000)) s
  if x.b.more then s1.nextPart x (fun b => { b with pages := x.b.pages ++ new }) else s1

/-- Whether lanes of a group still wait to perform their elements of an operation (R226, R354). -/
def Group.owes (g : Group) (id : Nat) : Bool :=
  g.lanes.any (fun l => l.live && (match l.want with | some w => w.op = id && w.kind ≠ .mxgo | none => false))

def opOwed (s : State) (x : Ix) (id : Nat) : Bool := ((s.group? x.core x.slot).map (·.owes id)).getD false

/-- The lanes of a GATH perform in lane order, each with its address; with split they park until their value lands. Its token counts
it once, until the last lane that performs has its value, those that wait for a target included (R226, R227). -/
def performGath (x : Ix) (k : Tok) (w : Nat) (split : Bool) (d : Nat) (items : List (Nat × DWord)) (s : State) : State :=
  let s0 := lookUp x w (items.map (·.2)) s
  let sq := sqOf s0 x.core x.slot
  let v (e : Nat × DWord) := gatherVerdict s0 x.t x.core sq true e.2 w
  let go := items.filterMap (fun e => match v e with | .go loc _ => some (e.1, loc) | _ => none)
  let rs : List LaneResult := go.map (fun e => (e.1, { writes := wBytes d (s0.loadBytes x.core sq e.2 w) }))
  let s1 := go.foldl (fun s e => if (upFrom e.2 w).any (fromM s0 x.core sq) then s.countReq e.2 else s) s0
  let set := laneSet (go.map (·.1))
  let want (va : DWord) : Want :=
    { kind := .gath split, addr := va.toNat, n := w, reg := d, tok := k, unit := x.b.unit, word := x.word, pfx := x.pfx, off := va, op := opId x s0 }
  let s2 := items.foldl (fun s e => match v e with | .wait => waitForTarget x (want e.2) e.1 s | _ => s) s1
  let fid (j : Nat) : Option Nat := (go.find? (fun e => e.1 = j)).bind (fun e => fidOf e.2)
  let va (j : Nat) : DWord := ((items.find? (fun e => e.1 = j)).map (·.2)).getD 0
  let (s3, _) := launchOp (fun l => { l with split := split, fid := fid l.lane, addr := va l.lane }) x k rs s2
    (opOwed s2 x (opId x s0))
  let s4 := match s3.group? x.core x.slot with
    | some g => if split then s3.setGroup (g.upd set (fun _ l => { l with park := .splitGather, pc := x.b.unit, next := x.nextPc })) else s3
    | none => s3
  raiseUnit x false (gatherHits s0 x true w items) s4

/-- The lanes of a SCAT append their entries in lane order (R152). -/
def performScat (x : Ix) (k : Tok) (w : Nat) (items : List (Nat × DWord × List Byte)) (s : State) : State :=
  let s0 := lookUp x w (items.map (·.2.1)) s
  let v (e : Nat × DWord × List Byte) := gatherVerdict s0 x.t x.core [] false e.2.1 w
  let entries : List Entry := items.filterMap (fun e =>
    match v e with
    | .go loc tso => some { loc := loc, bytes := e.2.2, tso := tso, op := opId x s0, ctx := x.t.ctx
                            va := some (addrOf e.2.1), slot := x.t.slot }
    | _ => none)
  let go := items.filter (fun e => match v e with | .go _ _ => true | _ => false)
  let s1 := match s0.front? x.core x.slot with
    | some f => s0.setFront x.core x.slot { f with sq := f.sq ++ entries }
    | none => s0
  let want (va : DWord) (bs : List Byte) : Want :=
    { kind := .scat bs, addr := va.toNat, n := w, tok := k, unit := x.b.unit, word := x.word, pfx := x.pfx, off := va, op := opId x s0 }
  let s2 := items.foldl (fun s e => match v e with | .wait => waitForTarget x (want e.2.1 e.2.2) e.1 s | _ => s) s1
  let s3 := startPart x { id := opId x s0, tok := k, inH := x.h, lanes := laneSet (go.map (·.1)), sq := entries.length
                          owed := opOwed s2 x (opId x s0) } s2
  let s4 := if go.any (fun e => !(inOutRegion x.t e.2.1.toNat w)) then loseStanding s3 x.t.id else s3
  raiseUnit x false (gatherHits s0 x false w (items.map (fun e => (e.1, e.2.1)))) s4

def gathWord (i : LInstr) (w : Nat) (d a : VReg) (k : Tok) (split : Bool) (s : State) : Host.Outcome State Fault Refusal :=
  lset i s (fun x s =>
    match s.group? x.core x.slot with
    | none => s
    | some g => performGath x k w split d.toNat ((lanesIn x.act).map (fun j => (j, (g.lane j).pair a.toNat))) s) 1 i.use true

def scatWord (i : LInstr) (w : Nat) (d a : VReg) (k : Tok) (s : State) : Host.Outcome State Fault Refusal :=
  lset i s (fun x s =>
    match s.group? x.core x.slot with
    | none => s
    | some g => performScat x k w ((lanesIn x.act).map (fun j =>
        (j, (g.lane j).pair a.toNat, (g.lane j).regBytes d.toNat (w / 4)))) s) 1 i.use true

/-! ### The wake of parked loads (R150, R161) -/

/-- An issuing word seen again, for lanes that perform it later. -/
def laterIx (core slot : Nat) (t : Team) (unit next : Addr) (word : Word) (pfx : Option (BitVec 25)) (set : LaneSet) (h : Bool) : Ix :=
  { b := { core := core, slot := slot, lanes := set, unit := unit, pos := next - 4, pfx := pfx }
    core := core, slot := slot, t := t, act := set, word := word, h := h, pfx := pfx, lan := !(slot < 128 : Bool) }

/-- The lanes of a set that wait to perform an access and can: a load whose line is present, or an element of a GATH or SCAT whose
target has answered. -/
def wakeable (s : State) (g : Group) (t : Team) (set : LaneSet) : LaneSet :=
  g.where (fun i l => set.getLsbD i && l.live &&
    (match l.want with
     | none => false
     | some w =>
       match w.kind with
       | .load _ => l.park = .presence && !s.lineAbsent w.addr
       | .mxgo => false
       | _ => l.park = .wait && !unanswered s t.ctx w.addr))

/-- What a lane waits to perform. -/
def Group.wantOf (g : Group) (i : Nat) : Want := ((g.lane i).want).getD { kind := .mxgo, addr := 0, n := 0, unit := 0, word := 0 }

/-- Lanes that have waited go on past their unit, settled (R30). -/
def Group.goesOn (g : Group) (set : LaneSet) : Group :=
  g.upd set (fun _ l => { l.settle with park := .none, want := none, pc := l.next, waited := false })

/-- Lanes whose lines are present perform their loads as one long-latency operation (R161). -/
def wakeLoads (x : Ix) (k : Tok) (s : State) : State :=
  match s.group? x.core x.slot with
  | none => s
  | some g =>
    let ls := lanesIn x.act
    let bad (j : Nat) : Bool := loadBad s x.core g.fe.sq (g.wantOf j).addr (g.wantOf j).n
    let rs : List LaneResult := (ls.filter (fun j => !bad j)).map (fun j =>
      (j, { writes := loadWrites (g.wantOf j).reg (match (g.wantOf j).kind with | .load sg => sg | _ => false)
                        (s.loadBytes x.core g.fe.sq (g.wantOf j).addr (g.wantOf j).n) }))
    let hits : List Hit := (ls.filter bad).map (fun j => { lane := j, vec := 0x280, cause := 1, addr := (g.wantOf j).off })
    raiseUnit x false hits (launchOp id x k rs (s.setGroup (g.goesOn x.act))).1

/-- Lanes of a GATH or SCAT whose targets have answered perform or fault, as part of its operation (R226, R354). -/
def wakeTargets (x : Ix) (w : Want) (s : State) : State :=
  match s.group? x.core x.slot with
  | none => s
  | some g =>
    let ls := lanesIn x.act
    let s1 := s.setGroup (g.goesOn x.act)
    match w.kind with
    | .gath split => performGath x w.tok w.n split w.reg (ls.map (fun j => (j, (g.wantOf j).off))) s1
    | .scat _ => performScat x w.tok w.n (ls.map (fun j =>
        (j, (g.wantOf j).off, match (g.wantOf j).kind with | .scat bs => bs | _ => []))) s1
    | _ => s1

/-- The end of a unit for lanes that have waited: under SSTEP they trap at their next units (R315); a part that another follows leaves
its lanes to that one. -/
def endWake (x : Ix) (s : State) : State :=
  let set := x.b.earlier ||| x.act
  if x.b.more then s.nextPart x (fun b => { b with earlier := set })
  else singleStep s x.core x.slot ((lanesIn set).map (fun j => (j, x.b.unit)))

/-- Of the lanes that can perform, those that the present turn takes: the lowest `n` where a part is asked for, and every one of
a uniform load, which is one access (R137, R157). -/
def wakePart (g : Group) (set : LaneSet) (part : Option Nat) : LaneSet :=
  match part with
  | some n =>
    let one := laneSet ((lanesIn set).take n)
    if one = 0 || (lanesIn set).any (fun i => (g.wantOf i).uni) then set else one
  | none => set

/-- A turn of lanes that have waited: those that can perform do, all or some (R137, R138), and where none can any more, the
parts before end their operation. -/
def wakeLanes (s : State) (b : Bundle) (t : Team) (part : Option Nat) : State :=
  match s.group? b.core b.slot with
  | none => s
  | some g =>
    let set := if s.saving t.ctx then 0 else wakeable s g t b.lanes
    let one := wakePart g set part
    match lanesIn one with
    | [] =>
      let x : Ix := { b := b, core := b.core, slot := b.slot, t := t, act := 0, word := 0, pfx := b.pfx }
      endWake x (raiseUnit x false [] (match b.op with
        | some id => if opOwed s x id then s else s.opDone b.core b.slot id
        | none => s))
    | i :: _ =>
      let w := g.wantOf i
      let load : Bool := match w.kind with | .load _ => true | _ => false
      if load && b.op.isNone && !g.fe.room w.tok then s
      else
        let y := laterIx b.core b.slot t w.unit ((g.lane i).next) w.word w.pfx one (g.lane i).handler
        let x : Ix := { y with b := { b with lanes := one, pos := y.b.pos, pfx := w.pfx, more := one ≠ set, op := if load then b.op else some w.op } }
        let s1 : State := if one ≠ set then { s with issue := { b with lanes := b.lanes &&& ~~~one, pfx := w.pfx } :: s.issue } else s
        endWake x (if load then wakeLoads x w.tok s1 else wakeTargets x w s1)

/-- The scalar load that a group or lantern waits to perform. -/
def wakeScalar (s : State) (core slot : Nat) (t : Team) (w : Waiting) (unit next : Addr) (set : LaneSet) (h : Bool) : State :=
  match w with
  | .load loc n a k off word pfx =>
    if s.lineAbsent loc || !(((s.front? core slot).map (·.room k)).getD false) then s
    else
      let sq := sqOf s core slot
      let x := laterIx core slot t unit next word pfx set h
      goOn s core slot (fun s1 =>
        if loadBad s core sq loc n then trapUnit s1 x 0x280 1 off
        else launchScalar x k a (BitVec.ofNat 64 (natOf (s.loadBytes core sq loc n))) s1)
  | _ => s

/-- Lanes of an MXGO whose block is now present stand at its unit again, settled (R30, R213). -/
def wakeMxgo (s : State) (g : Group) : Group :=
  g.upd (g.where (fun _ l => l.live && l.park = .presence &&
      (match l.want with | some w => w.kind = .mxgo && !s.lineAbsent w.addr | none => false)))
    (fun _ l => { l.settle with park := .none, want := none })

/-- The lanes of a group that stand at the unit of a scalar load and wait for its line. -/
def Group.scalarLanes (g : Group) : LaneSet := g.where (fun _ l => l.live && l.park = .presence && l.want.isNone)

/-- A bundle for accesses that have waited: its turn performs them. It stands apart from the state, from which it has been taken. -/
def runWake (b : Bundle) (part : Option Nat) (s : State) : State :=
  match s.teamOf b.core b.slot with
  | none => s
  | some t =>
    match b.duty with
    | .word => s
    | .lanes => wakeLanes s b t part
    | .scalar =>
      if s.saving t.ctx then s
      else if b.slot < 128 then
        match s.group? b.core b.slot with
        | none => s
        | some g =>
          match lanesIn g.scalarLanes with
          | [] => s
          | i :: _ => wakeScalar s b.core b.slot t g.waiting (g.lane i).pc (g.lane i).next g.scalarLanes (g.lane i).handler
      else
        match s.lantern? b.core b.slot with
        | some l => wakeScalar s b.core b.slot t l.waiting l.pc l.next 0 l.fe.handler
        | none => s

/-- The bundle of a scalar load that waits, where its line is present. -/
def scalarWake (s : State) (core slot : Nat) (unit : Addr) (w : Waiting) : List Bundle :=
  match w with
  | .load loc _ _ _ _ _ _ => if s.lineAbsent loc then [] else [{ core := core, slot := slot, unit := unit, pos := unit, duty := .scalar }]
  | _ => []

/-- The bundles of the accesses for which a group has waited, the lower PC first: each unit of each operation has its own. -/
def Group.wakes (s : State) (g : Group) : List Bundle :=
  match s.team? g.team with
  | none => []
  | some t =>
    if s.saving t.ctx then []
    else
      let set := wakeable s g t (~~~0)
      let units := (lanesIn set).foldl (fun r i => insertNat (g.wantOf i).unit.toNat r) []
      units.flatMap (fun u =>
        let mine := (lanesIn set).filter (fun i => (g.wantOf i).unit.toNat = u)
        ((mine.map (fun i => (g.wantOf i).op)).eraseDups).map (fun o =>
          ({ core := g.core, slot := g.slot, lanes := laneSet (mine.filter (fun i => (g.wantOf i).op = o)), unit := BitVec.ofNat 48 u
             pos := BitVec.ofNat 48 u, duty := .lanes } : Bundle)))
      ++ (match lanesIn g.scalarLanes with
          | [] => []
          | i :: _ => scalarWake s g.core g.slot (g.lane i).pc g.waiting)

/-- The bundle of the scalar load for which a lantern has waited. -/
def Lantern.wakes (s : State) (l : Lantern) : List Bundle :=
  match s.team? l.team with
  | some t => if s.saving t.ctx then [] else scalarWake s l.core l.slot l.pc l.waiting
  | none => []

/-! ### The instructions -/

/-- R158. -/
def execLdlB32 (d a : VReg) (k : Tok) (sc : BitVec 3) (s : State) : Host.Outcome State Fault Refusal :=
  loadWord (.ldlB32 d a k sc) .slice 4 false d a k sc false s

/-- R158. -/
def execLdlB64 (d a : VReg) (k : Tok) (sc : BitVec 3) (s : State) : Host.Outcome State Fault Refusal :=
  loadWord (.ldlB64 d a k sc) .slice 8 false d a k sc false s

/-- R158. -/
def execStlB32 (d a : VReg) (k : Tok) (sc : BitVec 3) (s : State) : Host.Outcome State Fault Refusal :=
  storeWord (.stlB32 d a k sc) .slice 4 d a k sc false s

/-- R158. -/
def execStlB64 (d a : VReg) (k : Tok) (sc : BitVec 3) (s : State) : Host.Outcome State Fault Refusal :=
  storeWord (.stlB64 d a k sc) .slice 8 d a k sc false s

/-- R159. -/
def execLdsS8 (u : Bool) (d a : VReg) (k : Tok) (sc : BitVec 3) (s : State) : Host.Outcome State Fault Refusal :=
  loadWord (.ldsS8 u d a k sc) .scratch 1 true d a k sc false s

/-- R159. -/
def execLdsZ8 (u : Bool) (d a : VReg) (k : Tok) (sc : BitVec 3) (s : State) : Host.Outcome State Fault Refusal :=
  loadWord (.ldsZ8 u d a k sc) .scratch 1 false d a k sc false s

/-- R159. -/
def execLdsS16 (u : Bool) (d a : VReg) (k : Tok) (sc : BitVec 3) (s : State) : Host.Outcome State Fault Refusal :=
  loadWord (.ldsS16 u d a k sc) .scratch 2 true d a k sc false s

/-- R159. -/
def execLdsZ16 (u : Bool) (d a : VReg) (k : Tok) (sc : BitVec 3) (s : State) : Host.Outcome State Fault Refusal :=
  loadWord (.ldsZ16 u d a k sc) .scratch 2 false d a k sc false s

/-- R159. -/
def execLdsB32 (u : Bool) (d a : VReg) (k : Tok) (sc : BitVec 3) (s : State) : Host.Outcome State Fault Refusal :=
  loadWord (.ldsB32 u d a k sc) .scratch 4 false d a k sc false s

/-- R159. -/
def execLdsB64 (u : Bool) (d a : VReg) (k : Tok) (sc : BitVec 3) (s : State) : Host.Outcome State Fault Refusal :=
  loadWord (.ldsB64 u d a k sc) .scratch 8 false d a k sc false s

/-- R159. -/
def execLdsB128 (u : Bool) (d a : VReg) (k : Tok) (sc : BitVec 3) (s : State) : Host.Outcome State Fault Refusal :=
  loadWord (.ldsB128 u d a k sc) .scratch 16 false d a k sc false s

/-- R159. -/
def execStsB8 (d a : VReg) (k : Tok) (sc : BitVec 3) (s : State) : Host.Outcome State Fault Refusal :=
  storeWord (.stsB8 d a k sc) .scratch 1 d a k sc false s

/-- R159. -/
def execStsB16 (d a : VReg) (k : Tok) (sc : BitVec 3) (s : State) : Host.Outcome State Fault Refusal :=
  storeWord (.stsB16 d a k sc) .scratch 2 d a k sc false s

/-- R159. -/
def execStsB32 (d a : VReg) (k : Tok) (sc : BitVec 3) (s : State) : Host.Outcome State Fault Refusal :=
  storeWord (.stsB32 d a k sc) .scratch 4 d a k sc false s

/-- R159. -/
def execStsB64 (d a : VReg) (k : Tok) (sc : BitVec 3) (s : State) : Host.Outcome State Fault Refusal :=
  storeWord (.stsB64 d a k sc) .scratch 8 d a k sc false s

/-- R159. -/
def execStsB128 (d a : VReg) (k : Tok) (sc : BitVec 3) (s : State) : Host.Outcome State Fault Refusal :=
  storeWord (.stsB128 d a k sc) .scratch 16 d a k sc false s

/-- R162. -/
def execLdcB32 (u : Bool) (d a : VReg) (k : Tok) (sc : BitVec 3) (s : State) : Host.Outcome State Fault Refusal :=
  loadWord (.ldcB32 u d a k sc) .cupola 4 false d a k sc false s

/-- R162. -/
def execLdcB64 (u : Bool) (d a : VReg) (k : Tok) (sc : BitVec 3) (s : State) : Host.Outcome State Fault Refusal :=
  loadWord (.ldcB64 u d a k sc) .cupola 8 false d a k sc false s

/-- R162. -/
def execLdcB128 (u : Bool) (d a : VReg) (k : Tok) (sc : BitVec 3) (s : State) : Host.Outcome State Fault Refusal :=
  loadWord (.ldcB128 u d a k sc) .cupola 16 false d a k sc false s

/-- R162. -/
def execStcB32 (d a : VReg) (k : Tok) (sc : BitVec 3) (s : State) : Host.Outcome State Fault Refusal :=
  storeWord (.stcB32 d a k sc) .cupola 4 d a k sc false s

/-- R162. -/
def execStcB64 (d a : VReg) (k : Tok) (sc : BitVec 3) (s : State) : Host.Outcome State Fault Refusal :=
  storeWord (.stcB64 d a k sc) .cupola 8 d a k sc false s

/-- R162. -/
def execStcB128 (d a : VReg) (k : Tok) (sc : BitVec 3) (s : State) : Host.Outcome State Fault Refusal :=
  storeWord (.stcB128 d a k sc) .cupola 16 d a k sc false s

/-- R162. -/
def execStcRelB32 (d a : VReg) (k : Tok) (sc : BitVec 3) (s : State) : Host.Outcome State Fault Refusal :=
  storeWord (.stcRelB32 d a k sc) .cupola 4 d a k sc true s

/-- R162. -/
def execStcRelB64 (d a : VReg) (k : Tok) (sc : BitVec 3) (s : State) : Host.Outcome State Fault Refusal :=
  storeWord (.stcRelB64 d a k sc) .cupola 8 d a k sc true s

/-- R162. -/
def execLdcAcqB32 (d a : VReg) (k : Tok) (sc : BitVec 3) (s : State) : Host.Outcome State Fault Refusal :=
  loadWord (.ldcAcqB32 d a k sc) .cupola 4 false d a k sc true s

/-- R162. -/
def execLdcAcqB64 (d a : VReg) (k : Tok) (sc : BitVec 3) (s : State) : Host.Outcome State Fault Refusal :=
  loadWord (.ldcAcqB64 d a k sc) .cupola 8 false d a k sc true s

/-- R163. -/
def execPrs (d a : VReg) (k : Tok) (sc : BitVec 3) (s : State) : Host.Outcome State Fault Refusal :=
  prsWord (.prs d a k sc) d a k sc s

/-- R164. -/
def execAtomsAdd (d a : VReg) (k : Tok) (sc : BitVec 3) (s : State) : Host.Outcome State Fault Refusal :=
  atomWord (.atomsAdd d a k sc) .scratch 0 4 d a k sc s

/-- R164. -/
def execAtomsMin (d a : VReg) (k : Tok) (sc : BitVec 3) (s : State) : Host.Outcome State Fault Refusal :=
  atomWord (.atomsMin d a k sc) .scratch 1 4 d a k sc s

/-- R164. -/
def execAtomsMax (d a : VReg) (k : Tok) (sc : BitVec 3) (s : State) : Host.Outcome State Fault Refusal :=
  atomWord (.atomsMax d a k sc) .scratch 2 4 d a k sc s

/-- R164. -/
def execAtomsMinz (d a : VReg) (k : Tok) (sc : BitVec 3) (s : State) : Host.Outcome State Fault Refusal :=
  atomWord (.atomsMinz d a k sc) .scratch 3 4 d a k sc s

/-- R164. -/
def execAtomsMaxz (d a : VReg) (k : Tok) (sc : BitVec 3) (s : State) : Host.Outcome State Fault Refusal :=
  atomWord (.atomsMaxz d a k sc) .scratch 4 4 d a k sc s

/-- R164. -/
def execAtomsAnd (d a : VReg) (k : Tok) (sc : BitVec 3) (s : State) : Host.Outcome State Fault Refusal :=
  atomWord (.atomsAnd d a k sc) .scratch 5 4 d a k sc s

/-- R164. -/
def execAtomsOr (d a : VReg) (k : Tok) (sc : BitVec 3) (s : State) : Host.Outcome State Fault Refusal :=
  atomWord (.atomsOr d a k sc) .scratch 6 4 d a k sc s

/-- R164. -/
def execAtomsXor (d a : VReg) (k : Tok) (sc : BitVec 3) (s : State) : Host.Outcome State Fault Refusal :=
  atomWord (.atomsXor d a k sc) .scratch 7 4 d a k sc s

/-- R164. -/
def execAtomsXchg (d a : VReg) (k : Tok) (sc : BitVec 3) (s : State) : Host.Outcome State Fault Refusal :=
  atomWord (.atomsXchg d a k sc) .scratch 8 4 d a k sc s

/-- R164. -/
def execAtomsCas (d a : VReg) (k : Tok) (sc : BitVec 3) (s : State) : Host.Outcome State Fault Refusal :=
  atomWord (.atomsCas d a k sc) .scratch 9 4 d a k sc s

/-- R164, R165. -/
def execAtomsFadd (d a : VReg) (k : Tok) (sc : BitVec 3) (s : State) : Host.Outcome State Fault Refusal :=
  atomWord (.atomsFadd d a k sc) .scratch 10 4 d a k sc s

/-- R164. -/
def execAtomsAdd64 (d a : VReg) (k : Tok) (sc : BitVec 3) (s : State) : Host.Outcome State Fault Refusal :=
  atomWord (.atomsAdd64 d a k sc) .scratch 0 8 d a k sc s

/-- R164. -/
def execAtomcAdd (d a : VReg) (k : Tok) (sc : BitVec 3) (s : State) : Host.Outcome State Fault Refusal :=
  atomWord (.atomcAdd d a k sc) .cupola 0 4 d a k sc s

/-- R164. -/
def execAtomcMin (d a : VReg) (k : Tok) (sc : BitVec 3) (s : State) : Host.Outcome State Fault Refusal :=
  atomWord (.atomcMin d a k sc) .cupola 1 4 d a k sc s

/-- R164. -/
def execAtomcMax (d a : VReg) (k : Tok) (sc : BitVec 3) (s : State) : Host.Outcome State Fault Refusal :=
  atomWord (.atomcMax d a k sc) .cupola 2 4 d a k sc s

/-- R164. -/
def execAtomcMinz (d a : VReg) (k : Tok) (sc : BitVec 3) (s : State) : Host.Outcome State Fault Refusal :=
  atomWord (.atomcMinz d a k sc) .cupola 3 4 d a k sc s

/-- R164. -/
def execAtomcMaxz (d a : VReg) (k : Tok) (sc : BitVec 3) (s : State) : Host.Outcome State Fault Refusal :=
  atomWord (.atomcMaxz d a k sc) .cupola 4 4 d a k sc s

/-- R164. -/
def execAtomcAnd (d a : VReg) (k : Tok) (sc : BitVec 3) (s : State) : Host.Outcome State Fault Refusal :=
  atomWord (.atomcAnd d a k sc) .cupola 5 4 d a k sc s

/-- R164. -/
def execAtomcOr (d a : VReg) (k : Tok) (sc : BitVec 3) (s : State) : Host.Outcome State Fault Refusal :=
  atomWord (.atomcOr d a k sc) .cupola 6 4 d a k sc s

/-- R164. -/
def execAtomcXor (d a : VReg) (k : Tok) (sc : BitVec 3) (s : State) : Host.Outcome State Fault Refusal :=
  atomWord (.atomcXor d a k sc) .cupola 7 4 d a k sc s

/-- R164. -/
def execAtomcXchg (d a : VReg) (k : Tok) (sc : BitVec 3) (s : State) : Host.Outcome State Fault Refusal :=
  atomWord (.atomcXchg d a k sc) .cupola 8 4 d a k sc s

/-- R164. -/
def execAtomcCas (d a : VReg) (k : Tok) (sc : BitVec 3) (s : State) : Host.Outcome State Fault Refusal :=
  atomWord (.atomcCas d a k sc) .cupola 9 4 d a k sc s

/-- R164, R165. -/
def execAtomcFadd (d a : VReg) (k : Tok) (sc : BitVec 3) (s : State) : Host.Outcome State Fault Refusal :=
  atomWord (.atomcFadd d a k sc) .cupola 10 4 d a k sc s

/-- R164, R165. -/
def execAtomcDadd (d a : VReg) (k : Tok) (sc : BitVec 3) (s : State) : Host.Outcome State Fault Refusal :=
  atomWord (.atomcDadd d a k sc) .cupola 11 8 d a k sc s

/-- R164. -/
def execAtomcAdd64 (d a : VReg) (k : Tok) (sc : BitVec 3) (s : State) : Host.Outcome State Fault Refusal :=
  atomWord (.atomcAdd64 d a k sc) .cupola 0 8 d a k sc s

/-- R164, R166. -/
def execAtomcMaxloc (d a : VReg) (k : Tok) (sc : BitVec 3) (s : State) : Host.Outcome State Fault Refusal :=
  atomWord (.atomcMaxloc d a k sc) .cupola 13 8 d a k sc s

/-- R164, R166. -/
def execAtomcMinloc (d a : VReg) (k : Tok) (sc : BitVec 3) (s : State) : Host.Outcome State Fault Refusal :=
  atomWord (.atomcMinloc d a k sc) .cupola 14 8 d a k sc s

/-- R168. -/
def execSldB32 (a b : SReg) (k : Tok) (i : BitVec 5) (s : State) : Host.Outcome State Fault Refusal :=
  scalarLoad (.sldB32 a b k i) .scratch 4 a b k i s

/-- R168. -/
def execSldB64 (a b : SReg) (k : Tok) (i : BitVec 5) (s : State) : Host.Outcome State Fault Refusal :=
  scalarLoad (.sldB64 a b k i) .scratch 8 a b k i s

/-- R168. -/
def execSstB32 (a b : SReg) (k : Tok) (i : BitVec 5) (s : State) : Host.Outcome State Fault Refusal :=
  scalarStore (.sstB32 a b k i) .scratch 4 a b k i s

/-- R168. -/
def execSstB64 (a b : SReg) (k : Tok) (i : BitVec 5) (s : State) : Host.Outcome State Fault Refusal :=
  scalarStore (.sstB64 a b k i) .scratch 8 a b k i s

/-- R168. -/
def execSldcB64 (a b : SReg) (k : Tok) (i : BitVec 5) (s : State) : Host.Outcome State Fault Refusal :=
  scalarLoad (.sldcB64 a b k i) .cupola 8 a b k i s

/-- R168. -/
def execSstcB64 (a b : SReg) (k : Tok) (i : BitVec 5) (s : State) : Host.Outcome State Fault Refusal :=
  scalarStore (.sstcB64 a b k i) .cupola 8 a b k i s

/-- R225-R227. -/
def execGathB32 (d a : VReg) (k : Tok) (sp : BitVec 1) (s : State) : Host.Outcome State Fault Refusal :=
  gathWord (.gathB32 d a k sp) 4 d a k (sp = 1) s

/-- R225-R227. -/
def execGathB64 (d a : VReg) (k : Tok) (sp : BitVec 1) (s : State) : Host.Outcome State Fault Refusal :=
  gathWord (.gathB64 d a k sp) 8 d a k (sp = 1) s

/-- R225, R226. -/
def execScatB32 (d a : VReg) (k : Tok) (s : State) : Host.Outcome State Fault Refusal :=
  scatWord (.scatB32 d a k) 4 d a k s

/-- R225, R226. -/
def execScatB64 (d a : VReg) (k : Tok) (s : State) : Host.Outcome State Fault Refusal :=
  scatWord (.scatB64 d a k) 8 d a k s

/-- R169: a release, then an acquire, at one scope. A release that a tier swap still holds up leaves the lanes at the
join (R270). -/
def execFence (d : BitVec 6) (s : State) : Host.Outcome State Fault Refusal :=
  uset (.fence d) s (fun x s =>
    let (s1, ok) := release s x.core x.slot d.toNat
    if ok then s1.acquire x.core d.toNat else standAgain s1 x)

end Sys2Proof.Machine
end

