-- ==== Sys2Proof/Machine/Cross.lean ====
section
/-! DEFINITION. Cross-lane instructions: the join on a mask, exchanges, queries, reductions, scans, segments, matches,
compaction and sorting (R111, R112, R172-R182). -/

namespace Sys2Proof.Machine

/-! ### The mask join (R172, R173) -/

/-- What a cross-lane word computes from: the width, participants, contributors, their va and vd, and the rounding mode. -/
structure CrossIn where
  width : Nat
  ps    : List Nat
  cs    : List Nat
  va    : Nat → Word
  vd    : Nat → Word
  rnd   : Rnd

/-- The value each participant receives, none where it keeps vd, and the flags of the whole word. -/
abbrev CrossOut := (Nat → Option Word) × Flags

/-- Lanes arrive at a cross-lane unit: the requirement takes the mask as each reads it, and they park. -/
def arriveCross (g : Group) (b : Bundle) (m : MReg) : Group :=
  let g1 := g.atIssue b
  let act := activeIn g1 b
  let need := (lanesIn b.lanes).foldl (fun x i => x ||| g1.maskFor (g1.lane i) m) (g1.x.getD m.toNat 0)
  let stand (i : Nat) (l : Lane) : Lane :=
    { l with park := .join, gather := .cross m (act.getLsbD i), pc := b.unit, next := b.pos + 4, waited := false }
  { (g1.upd b.lanes stand) with x := g1.x.set m.toNat need }

def Gather.active : Gather → Bool
  | .cross _ a => a
  | _ => false

/-- The unit issues once for every lane parked at it (R172, R173): the lanes settle, the checks of checked mode are made
for every participant, and participants write vd eight instructions later, or all trap. -/
def runCross (i : LInstr) (d a : VReg) (m : MReg) (b : Bundle) (t : Team) (g : Group) (h : Bool) (set : LaneSet)
    (f : CrossIn → CrossOut) (s : State) : State :=
  let ps := set &&& g.where (fun _ l => l.gather.active)
  let cs := ps &&& g.x.getD m.toNat 0
  let g1 := leaveJoin g set (b.pos + 4)
  let g2 := { g1 with x := g1.x.set m.toNat (if h then g1.x.getD m.toNat 0 &&& ~~~(g1.members true) else 0) }
  let x : Ix := { b := b, core := b.core, slot := b.slot, t := t, act := ps, word := i.encode, h := h, pfx := b.pfx }
  let s1 := s.setGroup g2
  let all (vec cause : Nat) : List Hit := (lanesIn ps).map (fun j => { lane := j, vec := vec, cause := cause })
  let s2 :=
    if ps = 0 then s1
    else if (underWait g2 i.use ps).isEmpty = false then raise s1 x.core x.slot (x.at true) (all 0x380 1)
    else
      let l0 := g2.lane ((lanesIn ps).headD 0)
      let (vals, flags) := f { width := g2.width, ps := lanesIn ps, cs := lanesIn cs, va := fun j => (g2.lane j).reg a.toNat
                               vd := fun j => (g2.lane j).reg d.toNat, rnd := g2.rnd l0 }
      let en := fpcEnables (g2.fpcFor l0) &&& flags
      let g3 := g2.raiseFlags ((lanesIn ps).headD 0) flags
      if en = 0 then
        s1.setGroup (g3.upd ps (fun j l => match vals j with | some v => l.pendAll 8 (w32 d v) | none => l))
      else raise (s1.setGroup g3) x.core x.slot (x.at true) (all 0x200 en.toNat)
  afterUnit s2 b.core b.slot x.at set

/-- The frame of a cross-lane word (R56, R172): an illegal word traps its active lanes at once; a legal one gathers. -/
def crossWord (i : LInstr) (d a : VReg) (m : MReg) (f : CrossIn → CrossOut) (s : State) : Host.Outcome State Fault Refusal :=
  match s.bundle? with
  | none => .fault .notIssuing
  | some b =>
    match s.group? b.core b.slot, s.teamOf b.core b.slot with
    | some g, some t =>
      if (legality t false g.fe.handler (.l i) i.encode).isSome then lset i s (fun _ s => s)
      else
        let h : Bool := (b.lanes &&& g.members true) ≠ 0
        let g1 := if b.gathered then g else arriveCross g b m
        let set := g1.crossAt h b.unit m
        let s1 := s.pop.setGroup g1
        .next (if set ≠ 0 then runCross i d a m b t g1 h set f s1 else settleJoins s1 b.core b.slot)
    | _, _ => lset i s (fun _ s => s)

/-! ### What each word computes -/

/-- A number of a lane that may be absent or out of range. -/
def CrossIn.has (c : CrossIn) (j : Int) : Bool := decide (0 ≤ j) && decide (j < c.width) && c.cs.contains j.toNat

/-- An exchange from lane `src i`, with what a participant receives when that lane does not contribute (R175). -/
def exchange (src : CrossIn → Nat → Int) (other : CrossIn → Nat → Word) (c : CrossIn) : CrossOut :=
  (fun i => some (if c.has (src c i) then c.va (src c i).toNat else other c i), 0)

/-- The same value for every participant. -/
def same (v : CrossIn → Word) (c : CrossIn) : CrossOut := (fun _ => some (v c), 0)

def flagOn (x : Word) : Bool := x ≠ 0

/-- One level of the tree of R111, with the flags its combines raise. -/
def pairUp (f : Word → Word → Word × Flags) : List (Option Word) → List (Option Word) × Flags
  | some x :: some y :: rest =>
    let (v, fl) := f x y
    let (vs, fls) := pairUp f rest
    (some v :: vs, fl ||| fls)
  | some x :: none :: rest => let (vs, fls) := pairUp f rest; (some x :: vs, fls)
  | none :: y :: rest => let (vs, fls) := pairUp f rest; (y :: vs, fls)
  | [x] => ([x], 0)
  | [] => ([], 0)

/-- The tree of R111 over the lanes of a group, `n` levels high. -/
def tree (f : Word → Word → Word × Flags) : Nat → List (Option Word) → Option Word × Flags
  | 0, vs => (vs.headD none, 0)
  | n + 1, vs =>
    let (us, fl) := pairUp f vs
    let (r, fl2) := tree f n us
    (r, fl ||| fl2)

/-- The tree over the contributors that satisfy a condition; `e` stands for none (R111, R177). -/
def treeOf (f : Word → Word → Word × Flags) (e : Word) (c : CrossIn) (on : Nat → Bool) : Word × Flags :=
  let r := tree f 6 ((upFrom 0 64).map (fun j => if c.cs.contains j && on j then some (c.va j) else none))
  (r.1.getD e, r.2)

/-- A reduction (R177). -/
def reduce (f : CrossIn → Word → Word → Word × Flags) (e : Word) (c : CrossIn) : CrossOut :=
  let r := treeOf (f c) e c (fun _ => true)
  (fun _ => some r.1, r.2)

/-- Each listed lane's own tree. -/
def perLane (f : Word → Word → Word × Flags) (e : Word) (c : CrossIn) (ls : List Nat) (on : Nat → Nat → Bool) : CrossOut :=
  let rs := ls.map (fun i => (i, treeOf f e c (on i)))
  (fun i => (rs.find? (fun r => r.1 = i)).map (fun r => r.2.1), rs.foldl (fun fl r => fl ||| r.2.2) 0)

/-- A scan (R177): lanes above a participant are absent, and with `.excl` its own too. -/
def scan (f : CrossIn → Word → Word → Word × Flags) (e : Word) (sub : BitVec 3) (c : CrossIn) : CrossOut :=
  perLane (f c) e c c.ps (fun i j => j < i || (j = i && sub = 0))

/-- The head of a contributor's segment (R179): the last contributor up to it whose flag holds, or the lowest one. -/
def headOf (c : CrossIn) (i : Nat) : Nat :=
  match ((c.cs.filter (fun j => decide (j ≤ i) && flagOn (c.vd j))).getLast?) with
  | some h => h
  | none => c.cs.headD 0

/-- A segmented reduction, or a segmented scan (R179). -/
def segment (f : CrossIn → Word → Word → Word × Flags) (upTo : Bool) (c : CrossIn) : CrossOut :=
  perLane (f c) 0 c c.cs (fun i j => headOf c j = headOf c i && (!upTo || decide (j ≤ i)))

def exact (f : Word → Word → Word) (_ : CrossIn) (x y : Word) : Word × Flags := (f x y, 0)

def floatAdd (c : CrossIn) (x y : Word) : Word × Flags :=
  let r := fAdd fp32 c.rnd x.toNat y.toNat
  (BitVec.ofNat 32 r.1, r.2)

def floatMinMax (wantMax : Bool) (_ : CrossIn) (x y : Word) : Word × Flags :=
  let r := fMinMax fp32 wantMax x.toNat y.toNat
  (BitVec.ofNat 32 r.1, r.2)

/-- The contributor that MAXLOC selects (R106, R178). -/
def maxlocOf (sub : BitVec 3) (c : CrossIn) : Word :=
  let f := sub.extractLsb' 0 2
  let fm := if f = 0 then fp32 else if f = 1 then fp16 else bf16
  let val (j : Nat) : Nat := if f = 0 then (c.va j).toNat else (c.va j).toNat % 65536
  let key (j : Nat) : Nat := packedKey (if sub.getLsbD 2 then minkey fm (val j) else ordkey fm (val j)) j
  match c.cs with
  | [] => 0xFFFFFFFF
  | j :: js => BitVec.ofNat 32 (js.foldl (fun b j => if key b < key j then j else b) j)

/-- Lanes 32 sub to 32 sub + 31 of a lane property, as bits. -/
def bitsOf (sub : BitVec 3) (p : Nat → Bool) : Word :=
  (upFrom 0 32).foldl (fun w b => if p (32 * sub.toNat + b) then w ||| BitVec.ofNat 32 (2 ^ b) else w) 0

/-- COMPACT's move form, and its ranks (R181). -/
def compactOf (sub : BitVec 3) (c : CrossIn) : CrossOut :=
  let fs := c.cs.filter (fun j => flagOn (c.va j))
  if sub = 0 then
    (fun i => ((c.ps.zip fs).find? (fun q => q.1 = i)).map (fun q => c.vd q.2), 0)
  else (fun i => some (BitVec.ofNat 32 (fs.filter (fun j => decide (j < i))).length), 0)

/-- Whether lane i's key comes before lane j's (R182). -/
def sortsBefore (sub : BitVec 3) (c : CrossIn) (i j : Nat) : Bool :=
  let x := c.va i
  let y := c.va j
  let lt (u v : Word) : Bool := if sub.getLsbD 0 then u.slt v else decide (u.toNat < v.toNat)
  let before := if sub.getLsbD 1 then lt y x else lt x y
  before || (x = y && decide (i < j))

/-- LSORT (R182): the k-th participant receives the k-th contributor's value, or its lane. -/
def lsortOf (sub : BitVec 3) (c : CrossIn) : CrossOut :=
  let rank (j : Nat) : Nat := (c.cs.filter (fun k => sortsBefore sub c k j)).length
  let kth (k : Nat) : Option Nat := c.cs.find? (fun j => rank j = k)
  (fun i => ((c.ps.zip (upFrom 0 c.ps.length)).find? (fun q => q.1 = i)).bind (fun q =>
    (kth q.2).map (fun j => if sub.getLsbD 2 then BitVec.ofNat 32 j else c.va j)), 0)

/-- XCH.move's source lane. -/
def moveSrc (sub : BitVec 3) (c : CrossIn) (i : Nat) : Int :=
  let j : Int := (i : Int) + (c.vd i).toInt
  if sub = 1 then j % (c.width : Int) else j

/-- XCH.flip's source lane. -/
def flipSrc (sub : BitVec 3) (c : CrossIn) (i : Nat) : Int :=
  if sub = 6 then (((BitVec.ofNat 32 i) ^^^ c.vd i).toNat : Int) else ((BitVec.ofNat 32 i ^^^ BitVec.ofNat 32 (2 ^ sub.toNat)).toNat : Int)

/-! ### The instructions -/

/-- R175. -/
def execXchPick (d a : VReg) (m : MReg) (s : State) : Host.Outcome State Fault Refusal :=
  crossWord (.xchPick d a m) d a m (exchange (fun c i => ((c.vd i).toNat : Int)) (fun c i => c.va i)) s

/-- R175. -/
def execXchMove (d a : VReg) (m : MReg) (e : BitVec 3) (s : State) : Host.Outcome State Fault Refusal :=
  crossWord (.xchMove d a m e) d a m (exchange (moveSrc e) (fun c i => if e = 2 then 0 else c.va i)) s

/-- R175. -/
def execXchFlip (d a : VReg) (m : MReg) (e : BitVec 3) (s : State) : Host.Outcome State Fault Refusal :=
  crossWord (.xchFlip d a m e) d a m (exchange (flipSrc e) (fun c i => c.va i)) s

/-- R175. -/
def execXchEdge (d a : VReg) (m : MReg) (e : BitVec 3) (s : State) : Host.Outcome State Fault Refusal :=
  crossWord (.xchEdge d a m e) d a m (exchange (fun c _ => (if e = 0 then (c.cs.head?.map Int.ofNat) else (c.cs.getLast?.map Int.ofNat)).getD (-1)) (fun c i => c.va i)) s

/-- R176. -/
def execQryCnt (d a : VReg) (m : MReg) (s : State) : Host.Outcome State Fault Refusal :=
  crossWord (.qryCnt d a m) d a m (same (fun c => BitVec.ofNat 32 (c.cs.filter (fun j => flagOn (c.va j))).length)) s

/-- R176. -/
def execQryEvery (d a : VReg) (m : MReg) (s : State) : Host.Outcome State Fault Refusal :=
  crossWord (.qryEvery d a m) d a m (same (fun c => if c.cs.all (fun j => flagOn (c.va j)) then 1 else 0)) s

/-- R176. -/
def execQryBits (d a : VReg) (m : MReg) (e : BitVec 3) (s : State) : Host.Outcome State Fault Refusal :=
  crossWord (.qryBits d a m e) d a m (same (fun c => bitsOf e (fun j => c.cs.contains j && flagOn (c.va j)))) s

/-- R177. -/
def execRedIadd (d a : VReg) (m : MReg) (s : State) : Host.Outcome State Fault Refusal :=
  crossWord (.redIadd d a m) d a m (reduce (exact (· + ·)) 0) s

/-- R177. -/
def execRedImin (d a : VReg) (m : MReg) (s : State) : Host.Outcome State Fault Refusal :=
  crossWord (.redImin d a m) d a m (reduce (exact sminBV) 0x7FFFFFFF) s

/-- R177. -/
def execRedImax (d a : VReg) (m : MReg) (s : State) : Host.Outcome State Fault Refusal :=
  crossWord (.redImax d a m) d a m (reduce (exact smaxBV) 0x80000000) s

/-- R177. -/
def execRedFadd (d a : VReg) (m : MReg) (s : State) : Host.Outcome State Fault Refusal :=
  crossWord (.redFadd d a m) d a m (reduce floatAdd 0) s

/-- R177. -/
def execRedFmin (d a : VReg) (m : MReg) (s : State) : Host.Outcome State Fault Refusal :=
  crossWord (.redFmin d a m) d a m (reduce (floatMinMax false) 0x7FC00000) s

/-- R177. -/
def execRedFmax (d a : VReg) (m : MReg) (s : State) : Host.Outcome State Fault Refusal :=
  crossWord (.redFmax d a m) d a m (reduce (floatMinMax true) 0x7FC00000) s

/-- R177. -/
def execScanIadd (d a : VReg) (m : MReg) (e : BitVec 3) (s : State) : Host.Outcome State Fault Refusal :=
  crossWord (.scanIadd d a m e) d a m (scan (exact (· + ·)) 0 e) s

/-- R177. -/
def execScanFadd (d a : VReg) (m : MReg) (e : BitVec 3) (s : State) : Host.Outcome State Fault Refusal :=
  crossWord (.scanFadd d a m e) d a m (scan floatAdd 0 e) s

/-- R178. -/
def execMaxloc (d a : VReg) (m : MReg) (e : BitVec 3) (s : State) : Host.Outcome State Fault Refusal :=
  crossWord (.maxloc d a m e) d a m (same (maxlocOf e)) s

/-- R179. -/
def execSegredIadd (d a : VReg) (m : MReg) (s : State) : Host.Outcome State Fault Refusal :=
  crossWord (.segredIadd d a m) d a m (segment (exact (· + ·)) false) s

/-- R179. -/
def execSegredFadd (d a : VReg) (m : MReg) (s : State) : Host.Outcome State Fault Refusal :=
  crossWord (.segredFadd d a m) d a m (segment floatAdd false) s

/-- R179. -/
def execSegscanFadd (d a : VReg) (m : MReg) (s : State) : Host.Outcome State Fault Refusal :=
  crossWord (.segscanFadd d a m) d a m (segment floatAdd true) s

/-- R180. -/
def execMatchLanes (d a : VReg) (m : MReg) (e : BitVec 3) (s : State) : Host.Outcome State Fault Refusal :=
  crossWord (.matchLanes d a m e) d a m (fun c => (fun i => some (bitsOf e (fun j => c.cs.contains j && c.va j = c.va i)), 0)) s

/-- R181. -/
def execCompact (d a : VReg) (m : MReg) (e : BitVec 3) (s : State) : Host.Outcome State Fault Refusal :=
  crossWord (.compact d a m e) d a m (compactOf e) s

/-- R182. -/
def execLsort (d a : VReg) (m : MReg) (e : BitVec 3) (s : State) : Host.Outcome State Fault Refusal :=
  crossWord (.lsort d a m e) d a m (lsortOf e) s

end Sys2Proof.Machine
end

