-- ==== Sys2Proof/Machine/KeyedStore.lean ====
section
/-! DEFINITION. The keyed accumulator store: KACC, KFIND, KCFG, KDRAIN, KCLR and KSTAT (R183-R196, R335, R338). -/

namespace Sys2Proof.Machine

/-! ### Partitions and configuration -/

/-- Fields of the configuration word (R184). -/
def kLimit (c : DWord) : Nat := (c.extractLsb' 0 13).toNat
def kPol (c : DWord) : Nat := (c.extractLsb' 20 2).toNat
def kOrd (c : DWord) : Bool := c.getLsbD 22

/-- The partition a group or lantern reaches (R183). -/
def keyedOf (s : State) (t : Team) (core : Nat) : Keyed :=
  (((s.team? t.id).getD t).side core).keyed

def setKeyed (s : State) (t : Team) (core : Nat) (k : Keyed) : State :=
  match s.team? t.id with
  | some t => s.setTeam (t.setSide { t.side core with keyed := k })
  | none => s

/-- The core number of records: relative to the team in a deterministic task (R189, R338). -/
def recordCore (t : Team) (core : Nat) : Nat := if t.det then (if core = t.core then 0 else 1) else core

/-- A record of 32 bytes (R189). -/
def keyedRecord (t : Team) (core flags : Nat) (e : KeyedEntry) : List Byte :=
  bytesOf 8 e.key.toNat ++ bytesOf 8 e.val.toNat ++ bytesOf 4 e.count.toNat ++ bytesOf 4 e.aux.toNat
    ++ bytesOf 2 (recordCore t core) ++ bytesOf 2 flags ++ bytesOf 4 e.seqNo.toNat

/-! ### Combines (R186) -/

/-- A NaN becomes the canonical one. -/
def canonNan (f : Fmt) (x : Nat) : Nat := if isNan (decodeF f x) then qnan f else x

/-- The value and aux of a new entry, from the lane's value and its own aux. -/
def kInit (op : Nat) (v : DWord) (aux : Word) : DWord × Word :=
  match op with
  | 2 | 6 | 7 => (BitVec.ofNat 64 (canonNan fp32 (v.toNat % 2 ^ 32)), aux)
  | 3 => (BitVec.ofNat 64 (canonNan fp64 v.toNat), aux)
  | 8 | 9 => (BitVec.ofNat 64 (canonNan fp32 (v.toNat / 2 ^ 32)), v.extractLsb' 0 32)
  | 11 => (1, aux)
  | _ => (v, aux)

/-- The value and aux after a hit. -/
def kCombine (op : Nat) (e v : DWord) (aux : Word) : DWord × Word :=
  let lo (x : DWord) : Word := x.extractLsb' 0 32
  let w (x : Word) : DWord := x.setWidth 64
  match op with
  | 0 => (w (lo e + lo v), aux)
  | 1 => (e + v, aux)
  | 2 => (BitVec.ofNat 64 (fAdd fp32 .rne (lo e).toNat (lo v).toNat).1, aux)
  | 3 => (BitVec.ofNat 64 (fAdd fp64 .rne e.toNat v.toNat).1, aux)
  | 4 => (w (sminBV (lo e) (lo v)), aux)
  | 5 => (w (smaxBV (lo e) (lo v)), aux)
  | 6 => (BitVec.ofNat 64 (fMinMax fp32 false (lo e).toNat (lo v).toNat).1, aux)
  | 7 => (BitVec.ofNat 64 (fMinMax fp32 true (lo e).toNat (lo v).toNat).1, aux)
  | 8 => let r := locCombine true (lo e ++ aux) v; (w (r.extractLsb' 32 32), lo r)
  | 9 => let r := locCombine false (lo e ++ aux) v; (w (r.extractLsb' 32 32), lo r)
  | 10 => (w (lo e ||| lo v), aux)
  | _ => (e + 1, aux)

def saturate (c : Word) : Word := if c = 0xFFFFFFFF then c else c + 1

/-- The entry with the lowest sequence number. -/
def oldestEntry : List KeyedEntry → Option KeyedEntry
  | [] => none
  | e :: es =>
    match oldestEntry es with
    | some o => some (if o.seqNo.toNat < e.seqNo.toNat then o else e)
    | none => some e

/-! ### One KACC over its active lanes (R187, R188) -/

/-- What a lane brings: its number, key, value and aux. -/
structure KeyedIn where
  lane : Nat
  key  : DWord
  val  : DWord
  aux  : Word

/-- How far an instruction has come: the partition, the records appended, each lane's status and count, and the lanes
that trap, with the cause. -/
structure KeyedRun where
  part : Keyed
  recs : List (List Byte) := []
  res  : List (Nat × Word × Word) := []
  trap : Option Nat := none
  left : List Nat := []

/-- One lane's turn. -/
def keyedLane (t : Team) (core : Nat) (r : KeyedRun) (x : KeyedIn) : KeyedRun :=
  if r.trap.isSome then { r with left := r.left ++ [x.lane] }
  else
    let p := r.part
    let op := kOp p.cfg
    let (v0, a0) := kInit op x.val x.aux
    let fresh : KeyedEntry := { key := x.key, val := v0, count := 1, aux := a0, seqNo := p.next }
    match p.entries.find? (fun e => e.key = x.key) with
    | some e =>
      let (v, a) := kCombine op e.val x.val e.aux
      let e' := { e with val := v, aux := a, count := saturate e.count }
      { r with part := { p with entries := p.entries.map (fun o => if o.key = x.key then e' else o) }
               res := r.res ++ [(x.lane, 0, e'.count)] }
    | none =>
      if p.entries.length < kLimit p.cfg then
        { r with part := { p with entries := p.entries ++ [fresh], next := p.next + 1 }, res := r.res ++ [(x.lane, 1, 1)] }
      else if kPol p.cfg = 2 then { r with trap := some 3, left := [x.lane] }
      else if p.len.toNat ≤ p.pos.toNat then { r with trap := some 2, left := [x.lane] }
      else if kPol p.cfg = 0 then
        match oldestEntry p.entries with
        | none => r
        | some o =>
          { r with part := { p with entries := p.entries.filter (fun e => e.key ≠ o.key) ++ [fresh], next := p.next + 1, pos := p.pos + 1 }
                   recs := r.recs ++ [keyedRecord t core 1 o], res := r.res ++ [(x.lane, 3, 1)] }
      else
        { r with part := { p with next := p.next + 1, pos := p.pos + 1 }
                 recs := r.recs ++ [keyedRecord t core 2 fresh], res := r.res ++ [(x.lane, 2, 0)] }

/-! ### Turns (R190) -/

/-- The live group indexes of a team on a core, lowest first. -/
def liveIndexes (s : State) (team core : Nat) : List Nat :=
  (s.groups.filter (fun g => g.team = team && g.core = core && g.liveLanes ≠ 0)).foldl (fun r g => insertNat g.index r) []

/-- The next live index after one, wrapping. -/
def indexAfter (ls : List Nat) (i : Nat) : Nat :=
  match ls.find? (fun j => decide (i < j)) with
  | some j => j
  | none => ls.headD 0

/-- The group whose turn it is; retired groups are skipped. -/
def currentTurn (s : State) (t : Team) (core : Nat) : Nat :=
  let ls := liveIndexes s t.id core
  let i := (((s.team? t.id).getD t).side core).turnstile
  if ls.contains i then i else indexAfter ls i

def passTurn (s : State) (t : Team) (core : Nat) : State :=
  match s.team? t.id with
  | some t1 => s.setTeam (t1.setSide { t1.side core with turnstile := indexAfter (liveIndexes s t.id core) (currentTurn s t core) })
  | none => s

/-- The lanes of a trapped turn that replay its unit by themselves (R188, R190). -/
def replayLanes (g : Group) (unit : Addr) : LaneSet :=
  match g.replay with
  | some (u, set) => if u = unit then set &&& g.where (fun _ l => l.live && !l.handler) else 0
  | none => 0

/-- A turn ends when the instruction has been performed with no lane left to replay it: neither of `left`, nor one that the
checks of checked mode trapped. -/
def endTurn (x : Ix) (left : LaneSet) (s : State) : State :=
  if !kOrd (keyedOf s x.t x.core).cfg then s
  else
    match s.group? x.core x.slot with
    | none => s
    | some g =>
      let left := left ||| laneSet (x.b.hits.map (·.lane))
      if left ≠ 0 then s.setGroup { g with replay := some (x.b.unit, left) }
      else passTurn (s.setGroup { g with replay := none }) x.t x.core

/-- A turn of an ordered partition begins: the lanes active in it have it to perform. With none, it is over at once (R190). -/
def beginTurn (b : Bundle) (act : LaneSet) (s : State) : State :=
  match s.group? b.core b.slot, s.teamOf b.core b.slot with
  | some g, some t =>
    if act ≠ 0 then s.setGroup { g with replay := some (b.unit, act) }
    else passTurn (s.setGroup { g with replay := none }) t b.core
  | _, _ => s

/-- Whether the bundle that issues reaches an ordered partition. -/
def issuingOrdered (s : State) : Bool :=
  match s.bundle? with
  | some b =>
    match s.teamOf b.core b.slot with
    | some t => let k := keyedOf s t b.core; k.configured && kOrd k.cfg
    | none => false
  | none => false

/-- The causes of R55 that a keyed word meets, its pairs under the partition's configuration among them (R41, R187). -/
def keyedLegality (i : LInstr) (k : Keyed) (t : Team) (lan h : Bool) : Option Nat :=
  lowestCause (staticCauses (.l i) ++ dynCauses t lan h (.l i) i.encode ++ keyedCauses k t (.l i))

/-- The partition that the bundle which issues reaches. -/
def issuingKeyed (s : State) : Keyed :=
  match s.bundle? with
  | some b =>
    match s.teamOf b.core b.slot with
    | some t => keyedOf s t b.core
    | none => {}
  | none => {}

/-- KACC and KFIND: an implicit full join and a turn in ordered mode, an L-set word else. -/
def keyedWord (i : LInstr) (s : State) (body : Ix → State → State) (uses : Use) : Host.Outcome State Fault Refusal :=
  let legal := keyedLegality i (issuingKeyed s)
  if issuingOrdered s then
    joinedLset i { legal := legal, may := fun s g => (match s.team? g.team with | some t => currentTurn s t g.core = g.index | none => false)
                   alone := replayLanes, open_ := beginTurn } uses s body
  else lsetAs i i.encode legal s body 1 uses true

/-- Every active lane traps. -/
def allLanes (x : Ix) (vec cause : Nat) (addr : DWord) (s : State) : State :=
  raiseUnit x false ((lanesIn x.act).map (fun j => { lane := j, vec := vec, cause := cause, addr := addr })) s

/-! ### KACC and KFIND -/

/-- The virtual address of the stream's next record. -/
def streamVa (k : Keyed) : Nat := Config.windowBase + k.base.toNat + 32 * k.pos.toNat

/-- Bytes from the stream's position to its end. -/
def streamRoom (k : Keyed) : Nat := 32 * (k.len.toNat - k.pos.toNat)

/-- The writes of an agent's bytes into a virtual range, line by line. -/
def writeSteps (s : State) (ctx va n : Nat) : List AStep :=
  (virtParts s ctx va n 0).map (fun p => .write p.1 p.2.1 p.2.2.1 p.2.2.2)

/-- KACC performs (R187): with a stream that has room its range is locked and translated, and an agent writes the
records; the statuses land, and the lanes from the first that traps upwards replay. -/
def kaccRun (d a b : VReg) (k : Tok) (x : Ix) (s : State) (g : Group) (p : Keyed) : State :=
  let ins : List KeyedIn := (lanesIn x.act).map (fun j =>
    let l := g.lane j
    { lane := j, key := if kWide p.cfg then l.pair a.toNat else (l.reg a.toNat).setWidth 64
      val := if kPair p.cfg then l.pair b.toNat else (l.reg b.toNat).setWidth 64
      aux := (g.scalarFor l 11).setWidth 32 * BitVec.ofNat 32 g.width + BitVec.ofNat 32 j })
  let run := ins.foldl (keyedLane x.t x.core) { part := p }
  let room := streamRoom p
  let rs : List LaneResult := run.res.map (fun r =>
    (r.1, { writes := if kPair p.cfg then w64 d (r.2.2 ++ r.2.1) else w32 d r.2.1 }))
  let s1 := leaveLocks (setKeyed s x.t x.core run.part) x
  let id := opId x s1
  let (s2, _) := launchOp (fun l => l) x k rs s1
  let bytes := run.recs.flatten
  let s3 :=
    if rs = [] || room = 0 then s2
    else
      let agent : Agent :=
        { id := s2.ids, kind := 3, ctx := x.t.ctx, task := x.t.slot, team := some x.t.id, core := x.core, slot := x.slot
          scope := 4, steps := writeSteps s2 x.t.ctx (streamVa p) bytes.length, buf := Memory.write [] 0 bytes
          pages := (pagesOf (streamVa p) room).map (BitVec.ofNat 48), fin := .op x.core x.slot id }
      let lock : RangeLock :=
        { core := x.core, dst := true, sp := 2, ctx := x.t.ctx, kind := 3, base := streamVa p - Config.windowBase
          len := room, owner := x.slot, team := x.t.id, agent := agent.id }
      let s4 := match s2.front? x.core x.slot with
        | some f => s2.setFront x.core x.slot (f.updOp id (fun o => { o with owed := true, scope := 4 }))
        | none => s2
      (s4.fresh).startAgent agent [lock]
  let s4 := if bytes ≠ [] && !inOutRegion x.t (streamVa p) bytes.length then loseStanding s3 x.t.id else s3
  let hits : List Hit := match run.trap with
    | some c => run.left.map (fun j => { lane := j, vec := 0x300, cause := c })
    | none => []
  raiseUnit x false hits (endTurn x (laneSet run.left) s4)

/-- KACC's checks, then its turn. -/
def kaccBody (d a b : VReg) (k : Tok) (x : Ix) (s : State) : State :=
  match s.group? x.core x.slot with
  | none => s
  | some g =>
    let p := keyedOf s x.t x.core
    if !p.configured then allLanes x 0x300 1 0 s
    else
      let room := streamRoom p
      let s1 := if room = 0 then s else s.touchRange x.t.ctx (streamVa p) room
      match (if room = 0 then none else rangeFault s1 x.t.ctx (streamVa p) room .write) with
      | some c => allLanes x 0x100 c (BitVec.ofNat 64 (streamVa p - Config.windowBase)) (endTurn x x.act s1)
      | none =>
        if !mayLock s1 x.core (ticketOf s1 x) (if room = 0 then 0 else 1) then
          let s2 := waitForLocks s1 x (!kOrd p.cfg)
          raiseUnit x false [] (match s2.group? x.core x.slot with
            | some g2 => if kOrd p.cfg then s2.setGroup { g2 with replay := some (x.b.unit, x.b.lanes) } else s2
            | none => s2)
        else kaccRun d a b k x s1 g p

/-- What KACC reads and writes under a configuration: pairs, and no vb under the count combine (R187). -/
def kaccUse (p : Keyed) (d a b : VReg) (k : Tok) : Use :=
  let n := if p.configured && kPair p.cfg then 2 else 1
  { src := (a, if p.configured && kWide p.cfg then 2 else 1) :: (if p.configured && kOp p.cfg = 11 then [] else [(b, n)])
    dst := [(d, n)], tok := some k }

/-- R187-R190. The group releases before the agent of a stream with room starts (R147, R148). -/
def execKacc (d a b : VReg) (k : Tok) (s : State) : Host.Outcome State Fault Refusal :=
  let p := issuingKeyed s
  match s.bundle? with
  | none => .fault .notIssuing
  | some bd =>
    let (s1, ok) := if p.configured && streamRoom p ≠ 0 then release s bd.core bd.slot 4 else (s, true)
    if ok then keyedWord (.kacc d a b k) s1 (kaccBody d a b k) (kaccUse p d a b k) else .next s1.pop

/-- R192. -/
def execKfind (d a : VReg) (sel : BitVec 7) (k : Tok) (s : State) : Host.Outcome State Fault Refusal :=
  let q := issuingKeyed s
  keyedWord (.kfind d a sel k) s (fun x s =>
    match s.group? x.core x.slot with
    | none => s
    | some g =>
      let p := keyedOf s x.t x.core
      if !p.configured then allLanes x 0x300 1 0 s
      else
        let val (j : Nat) : Word :=
          let key := if kWide p.cfg then (g.lane j).pair a.toNat else ((g.lane j).reg a.toNat).setWidth 64
          match p.entries.find? (fun e => e.key = key) with
          | none => 0
          | some e =>
            match sel.toNat with
            | 0 => e.val.extractLsb' 0 32
            | 1 => e.val.extractLsb' 32 32
            | 2 => e.count
            | _ => e.aux
        launch x k ((lanesIn x.act).map (fun j => (j, { writes := w32 d (val j) }))) (endTurn x 0 s))
    { src := [(a, if q.configured && kWide q.cfg then 2 else 1)], dst := [(d, 1)], tok := some k }

/-! ### KCFG -/

/-- Groups that the record places on a core (R185, R287). -/
def groupsOnCore (t : Team) (core : Nat) : Nat :=
  if t.pair then (if core = t.core then (t.gpt + 1) / 2 else t.gpt / 2) else t.gpt

/-- Whether a stream descriptor is valid (R184). -/
def streamOk (d : DWord) : Bool :=
  d.extractLsb' 29 3 = 0 && (d.extractLsb' 0 29).toNat % 32 = 0 &&
    decide ((d.extractLsb' 0 29).toNat + 32 * (d.extractLsb' 32 32).toNat ≤ Config.windowBytes)

/-- Whether a configuration word is valid for a partition of `kas` entries (R184). -/
def configOk (c : DWord) (kas : Nat) : Bool :=
  c.extractLsb' 23 41 = 0 && c.extractLsb' 14 2 = 0 && kPol c ≠ 3 && decide (kOp c < 12)
    && decide (1 ≤ kLimit c) && decide (kLimit c ≤ kas)

/-- An operation that is complete as it issues (R31). -/
def opAtOnce (x : Ix) (k : Tok) (s : State) : State :=
  startOp s x.core x.slot { id := s.ids, tok := k, inH := x.h, lanes := x.act }

/-- The full form (R185). -/
def execKcfg (a b : SReg) (k : Tok) (s : State) : Host.Outcome State Fault Refusal :=
  uset (.kcfg a b k) s (fun x s =>
    let c := sval s x a
    let d := sval s x b
    if x.t.det && !kOrd c && decide (1 < groupsOnCore x.t x.core) then trapUnit s x 0x400 3
    else if !configOk c x.t.kas || !streamOk d then trapUnit s x 0x300 4
    else
      let p : Keyed := { configured := true, cfg := c, base := (d.extractLsb' 0 29).setWidth 64, len := (d.extractLsb' 32 32).setWidth 64 }
      opAtOnce x k (setKeyed s x.t x.core p))

/-- The stream form (R185). -/
def execKcfgStream (b : SReg) (k : Tok) (s : State) : Host.Outcome State Fault Refusal :=
  uset (.kcfgStream b k) s (fun x s =>
    let d := sval s x b
    let p := keyedOf s x.t x.core
    if !p.configured then trapUnit s x 0x300 1
    else if !streamOk d then trapUnit s x 0x300 4
    else
      opAtOnce x k (setKeyed s x.t x.core
        { p with base := (d.extractLsb' 0 29).setWidth 64, len := (d.extractLsb' 32 32).setWidth 64, pos := 0 }))

/-! ### KDRAIN, KCLR and KSTAT -/

/-- Entries by increasing sequence number. -/
def insertBySeq (e : KeyedEntry) : List KeyedEntry → List KeyedEntry
  | [] => [e]
  | o :: os => if e.seqNo.toNat ≤ o.seqNo.toNat then e :: o :: os else o :: insertBySeq e os

def bySeq (es : List KeyedEntry) : List KeyedEntry := es.foldr insertBySeq []

/-- The writes of an agent's bytes into a scratchpad range. -/
def scratchSteps (loc n : Nat) : List AStep := (lineParts (n / 64 + 2) loc n 0).map (fun p => .write p.1 p.2.1 p.2.2 false)

/-- A scratchpad range of `n` bytes at an offset of a team; none beyond its bounds (R160, R221). -/
def scratchRange (t : Team) (core off n : Nat) : Option (Nat × Nat × Nat) :=
  (scratchAt t core off n).map (fun loc =>
    if off + n ≤ t.lines * 64 then (loc, 0, off) else (loc, 1, off - Config.partnerBase))

/-- R193. DESIGN CHOICE (log 123): the idempotent standing (R196) is judged by the whole range of sb records, used or not. -/
def execKdrain (a b : SReg) (k : Tok) (i : BitVec 5) (s : State) : Host.Outcome State Fault Refusal :=
  uset (.kdrain a b k i) s (fun x s =>
    let off := sval s x a
    let cap := sval s x b
    let n := 32 * cap.toNat
    let p := keyedOf s x.t x.core
    let win := i = 0
    let range := scratchRange x.t x.core off.toNat n
    let outside := if win then decide (Config.windowBytes < off.toNat + n) else range.isNone
    if !p.configured then trapUnit s x 0x300 1
    else if decide (cap.toNat < p.entries.length) || off.toNat % 32 ≠ 0 || outside then trapUnit s x 0x300 5 off
    else
      let va := Config.windowBase + off.toNat
      let s1 := if win then s.touchRange x.t.ctx va n else s
      match (if win then rangeFault s1 x.t.ctx va n .write else none) with
      | some c => trapUnit s1 x 0x100 c off
      | none =>
        if !mayLock s1 x.core (ticketOf s1 x) (if n = 0 then 0 else 1) then waitForLocks s1 x
        else
          let (s2, ok) := release s1 x.core x.slot (if win then 4 else 1)
          if !ok then standAgain s2 x
          else
            let es := bySeq p.entries
            let bytes := (es.map (keyedRecord x.t x.core 4)).flatten
            let s3 := leaveLocks (setKeyed s2 x.t x.core { p with entries := [] }) x
            if n = 0 then opAtOnce x k s3
            else
              let opId := s3.ids
              let (loc, sp, base) := range.getD (0, 2, off.toNat)
              let (sp, base) := if win then (2, off.toNat) else (sp, base)
              let s4 := startOp s3 x.core x.slot
                { id := opId, tok := k, inH := x.h, lanes := x.act, owed := true, scope := if win then 4 else if sp = 1 then 2 else 1 }
              let agent : Agent :=
                { id := s4.ids, kind := 4, ctx := x.t.ctx, task := x.t.slot, team := some x.t.id, core := x.core, slot := x.slot
                  scope := if win then 4 else if sp = 1 then 2 else 1
                  steps := if win then writeSteps s4 x.t.ctx va bytes.length else scratchSteps loc bytes.length
                  buf := Memory.write [] 0 bytes, lines := if win then [] else linesOf loc n
                  pages := if win then (pagesOf va n).map (BitVec.ofNat 48) else []
                  fin := .op x.core x.slot opId }
              let lock : RangeLock :=
                { core := x.core, dst := true, sp := sp, ctx := x.t.ctx, kind := 4, base := base, len := n
                  owner := x.slot, team := x.t.id, agent := agent.id }
              let s5 := (s4.fresh).startAgent agent [lock]
              if win && !inOutRegion x.t va n then loseStanding s5 x.t.id else s5)

/-- R194. -/
def execKclr (k : Tok) (s : State) : Host.Outcome State Fault Refusal :=
  uset (.kclr k) s (fun x s =>
    let p := keyedOf s x.t x.core
    opAtOnce x k (if p.configured then setKeyed s x.t x.core { p with entries := [], next := 0, pos := 0 } else s))

/-- R194. -/
def execKstat (a : SReg) (k : Tok) (i : BitVec 5) (s : State) : Host.Outcome State Fault Refusal :=
  uset (.kstat a k i) s (fun x s =>
    let p := keyedOf s x.t x.core
    let v : DWord :=
      if !p.configured then 0
      else match i.toNat with
        | 0 => p.pos.extractLsb' 0 32 ++ BitVec.ofNat 32 p.entries.length
        | 1 => p.next.setWidth 64
        | _ => p.cfg
    launchScalar x k a v s)

end Sys2Proof.Machine
end

