-- ==== Sys2Proof/Machine/Counters.lean ====
section
/-! DEFINITION. Dependence counters (R234, R282, R298), task faults (R329) and the completion of tasks (R229, R235, R283),
and the record of a logged kill or report (R217, R246, R306). -/

namespace Sys2Proof.Machine

/-- A task has become READY: a gang of lower priority that still reserves will release what it holds (R291). -/
def State.meetGang (s : State) (t : Task) : State :=
  match s.gang with
  | some g =>
    match s.task? g.slot with
    | some x => if !g.placing && recPriority x.record < recPriority t.record then { s with gang := some { g with broken := true } } else s
    | none => s
  | none => s

/-- The count word of a ragged task (R230). -/
def raggedCount (s : State) (t : Task) : Option Nat := (windowBytes s t.ctx (recTeams t.record) 4).map natOf

/-- Rows of record r of a ragged task, read as R292 says; none when it cannot be read. -/
def recordRows (s : State) (t : Task) (r : Nat) : Option Nat :=
  (windowBytes s t.ctx (recTeams t.record + 32 + 32 * r) 32).map (fun bs => min (natOf ((bs.drop 8).take 4)) 0x7FFFFFFF)

/-- Whether one task goes before another (R286). -/
def taskBefore (a b : Task) : Bool :=
  let p := recPriority a.record
  let q := recPriority b.record
  decide (q < p) || (p = q && (a.readyAt < b.readyAt || (a.readyAt = b.readyAt && a.slot < b.slot)))

/-- Whether a task ranks in the dispatch order as memory and its flushed teams stand (R286): a ragged one does with a record that has
rows and is not expanded yet, read or not. -/
def ranks (s : State) (t : Task) : Bool :=
  let unread : Bool := match raggedCount s t with
    | some n => (upFrom t.recIdx (n - t.recIdx)).any (fun r => decide (0 < (recordRows s t r).getD 0))
    | none => false
  let more : Bool :=
    if 3 ≤ recKind t.record then !t.started
    else t.flushed ≠ [] || (if recKind t.record = 1 then t.rows.isSome || unread else decide (t.next < recTeams t.record))
  !t.flt && (t.state = .ready || t.state = .active || t.state = .closing) && more

/-- A task enters the dispatch order: those behind it are first no more, so that none of them blocks or counts its skips (R288). -/
def State.enters (s : State) (t : Task) : State :=
  if ranks s t then
    { s with tasks := s.tasks.map (fun x => if x.slot ≠ t.slot && taskBefore t x then { x with blocking := false, skipped := none } else x) }
  else s

/-- A task has become READY: it meets a gang's reservation, and enters the dispatch order. -/
def State.readied (s : State) (t : Task) : State := (s.meetGang t).enters t

/-- A task's counter has reached 0 (R234): a WAITING task becomes READY; one that is being pre-empted, or is PARKED,
from WAITING is PARKED with READY as its resume state (R298). -/
def becomeReady (s : State) (t : Task) : State :=
  if t.state = .waiting then
    let t1 : Task := { t with state := .ready, readyAt := s.readies }
    (s.setTask t1).readied t1
  else if (t.state = .preempting || t.state = .parked) && t.resume = .waiting then
    s.setTask { t with state := .parked, resume := .ready, readyAt := s.readies }
  else s.setTask t

/-- A step in which tasks may have become READY is past: later ones rank behind them (R286). -/
def State.laterReady (s : State) : State := { s with readies := s.readies + 1 }

/-- ARRIVE a count on a slot (R234): nothing for a count of 0 or a FREE slot; below 0 the counter stays 0 and the
task's overrun bit is set. -/
def arriveOnce (s : State) (slot count : Nat) : State :=
  match s.task? slot with
  | none => s
  | some t =>
    let c := t.counter.toNat
    if count = 0 then s
    else if c < count then becomeReady s { t with counter := 0, overrun := true }
    else if c = count then becomeReady s { t with counter := 0 }
    else s.setTask { t with counter := BitVec.ofNat 32 (c - count) }

/-! ### Completion (R283) -/

/-- A task fault (R329): the task's FLT bit, and EVENT code 6. -/
def taskFault (s : State) (slot : Nat) : State :=
  match s.task? slot with
  | none => s
  | some t => (s.setTask { t with flt := true }).event 6 (ctx := t.ctx) (slot := slot)

/-- Whether every team of a task has been placed, and a ragged task is sealed and every record expanded (R282). -/
def allPlaced (s : State) (t : Task) : Bool :=
  t.flushed = [] &&
  (if recKind t.record = 1 then t.sealed && t.rows = none && raggedCount s t = some t.recIdx
   else recTeams t.record ≤ t.next)

/-- Whether a task that places teams is complete: nothing is left to place and no team of it is resident (R235, R282,
R283), or it has faulted and no team is resident (R329). -/
def taskDone (s : State) (t : Task) : Bool :=
  (t.state = .ready || t.state = .active || t.state = .closing) && recKind t.record < 3 &&
  !(s.teams.any (fun x => x.slot = t.slot)) && (t.flt || allPlaced s t)

/-- A task whose last team is placed is CLOSING (R282). -/
def closeTask (s : State) (slot : Nat) : State :=
  match s.task? slot with
  | some t => if t.state = .active && allPlaced s t then s.setTask { t with state := .closing } else s
  | none => s

/-- The chained successors of a task (R229): none when the list cannot be read. -/
def chainOf (s : State) (t : Task) : Option (List Nat) :=
  if recChain t.record = 0xFFFFFFFF then some []
  else
    match windowBytes s t.ctx (recChain t.record) 4 with
    | none => none
    | some bs =>
      let n := natOf bs
      (windowBytes s t.ctx (recChain t.record + 4) (4 * n)).map (fun l =>
        (upFrom 0 n).map (fun i => natOf ((l.drop (4 * i)).take 4) % 8192))

/-- The translations that the reading of a chained list makes (R329, R330). -/
def touchChain (s : State) (t : Task) : State :=
  if recChain t.record = 0xFFFFFFFF then s
  else
    let s1 := s.windowTouch t.ctx (recChain t.record) 4
    match windowBytes s1 t.ctx (recChain t.record) 4 with
    | some bs => s1.windowTouch t.ctx (recChain t.record + 4) (4 * natOf bs)
    | none => s1

/-- The successors of a completing task in order, and whether its chained list could be read. -/
def successorsOf (s : State) (t : Task) : List Nat × Bool :=
  let inl := (upFrom 0 (recNsucc t.record)).map (recSucc t.record)
  match chainOf s t with
  | some l => (inl ++ l, true)
  | none => (inl, false)

/-- ARRIVE 1 on a successor; one that is FREE or another context's is skipped (R283). -/
def arriveSuccessor (s : State) (ctx slot : Nat) : State :=
  match s.task? slot with
  | some t => if t.ctx = ctx then arriveOnce s slot 1 else s
  | none => s

/-- Tasks that are complete free their slots and ARRIVE on their successors, each in one step (R282, R283). -/
def settleTasks : Nat → State → State
  | 0, s => s
  | fuel + 1, s =>
    match s.tasks.find? (fun t => taskDone s t) with
    | none => s
    | some t =>
      let s0 := touchChain s t
      let (succ, ok) := successorsOf s0 t
      let s1 := if ok then s0 else taskFault s0 t.slot
      let s2 := { s1 with tasks := s1.tasks.filter (fun x => x.slot ≠ t.slot) }
      settleTasks fuel (succ.foldl (fun s n => arriveSuccessor s t.ctx n) s2).laterReady

/-- Every task that is complete completes. -/
def State.settled (s : State) : State := settleTasks (s.tasks.length + 1) s

/-- A copy or collective task completes (R283, R294, R357). -/
def completeTask (s : State) (slot : Nat) : State :=
  match s.task? slot with
  | none => s
  | some t =>
    let s0 := touchChain s t
    let (succ, ok) := successorsOf s0 t
    let s1 := if ok then s0 else taskFault s0 slot
    let s2 := { s1 with tasks := s1.tasks.filter (fun x => x.slot ≠ slot) }
    (succ.foldl (fun s n => arriveSuccessor s t.ctx n) s2).laterReady.settled

/-- ARRIVE, with the completion at once of a task that has no team (R228, R234). -/
def arriveTask (s : State) (slot count : Nat) : State := (arriveOnce s slot count).laterReady.settled

/-- An ARRIVE descriptor: enable, slot, count (R212, R219). -/
def arvOn (d : DWord) : Bool := d.getLsbD 31
def arvSlot (d : DWord) : Nat := (d.extractLsb' 0 13).toNat
def arvCount (d : DWord) : Nat := (d.extractLsb' 32 32).toNat

end Sys2Proof.Machine
end

