-- ==== Sys2Proof/Machine/TileUnit.lean ====
section
/-! DEFINITION. The tile unit (R198-R202, R208-R210, R213-R217): layouts, formats, what each command does to its registers, when a
store takes its bytes, and the step in which the head command of a queue completes. -/

namespace Sys2Proof.Machine

/-! ### Shapes and formats (R23, R198-R200) -/

def shEw (w : Word) : Nat := (w.extractLsb' 0 3).toNat
def shRows (w : Word) : Nat := (w.extractLsb' 3 7).toNat
def shCols (w : Word) : Nat := (w.extractLsb' 10 10).toNat
def shLay (w : Word) : Bool := w.getLsbD 20
def shDb (w : Word) : Bool := w.getLsbD 21

/-- Bits of an element by its width code. -/
def ewBits (ew : Nat) : Nat := 4 * 2 ^ ew

/-- A shape value is valid (R23). -/
def shapeValid (w : Word) : Bool :=
  shEw w ≤ 4 && decide (1 ≤ shRows w) && shRows w ≤ 64 && decide (1 ≤ shCols w) && shCols w * ewBits (shEw w) ≤ 2048
    && w.extractLsb' 22 10 = 0

/-- A shape is valid for use (R23, R200). -/
def shapeUsable (w : Word) : Bool :=
  shapeValid w && (!shLay w || ((shEw w = 1 || shEw w = 2) && shCols w % 64 = 0))

/-- Elements of a slot of a bitmap-sparse row (R200). -/
def slotSize (w : Word) : Nat := if shDb w then 16 else 32

/-- Bytes of one stored row (R200). -/
def rowBytes (w : Word) : Nat :=
  if shLay w then shCols w / 64 * slotSize w * ewBits (shEw w) / 8 else (shCols w * ewBits (shEw w) + 7) / 8

/-- The width code a format requires (R200). -/
def fmtEw (c : Nat) : Nat :=
  match c with
  | 0 => 4
  | 1 => 3
  | 2 | 3 => 2
  | 7 => 0
  | _ => 1

def isQuant (c : Nat) : Bool := c = 6 || c = 7

/-- The floating-point format of a code (R99). -/
def fmtOf (c : Nat) : Fmt :=
  match c with
  | 0 => fp64
  | 1 => fp32
  | 2 => fp16
  | 3 => bf16
  | 4 => e4m3
  | _ => e5m2

/-- Group sizes (R100). -/
def groupSize (g : Nat) : Nat := 32 * 2 ^ g

/-! ### Registers with poison (R217) -/

/-- Bytes go into a register: their old poison goes, and those at bad places are poisoned. -/
def Block.put (b : Block) (pos : Nat) (bs : List Byte) (bad : List Nat) : Block :=
  { data := b.data.write pos bs
    poison := bad.foldl (fun p i => insertNat i p) (b.poison.filter (fun i => i < pos || pos + bs.length ≤ i)) }

/-- Whether any of `n` bytes is poisoned. -/
def Block.bad (b : Block) (pos n : Nat) : Bool := b.poison.any (fun i => pos ≤ i && i < pos + n)

/-- Poison `n` bytes. -/
def Block.spoil (b : Block) (pos n : Nat) : Block := { b with poison := (upFrom pos n).foldl (fun p i => insertNat i p) b.poison }

def Side.tile (d : Side) (n : Nat) : Block := d.tiles.getD n {}
def Side.comp (d : Side) (n : Nat) : Block := d.comps.getD n {}
def Side.acc (d : Side) (n : Nat) : Block := d.accs.getD n {}
def Side.shape (d : Side) (n : Nat) : Word := d.shapes.getD n 0
def Side.setTile (d : Side) (n : Nat) (b : Block) : Side := { d with tiles := d.tiles.set n b }
def Side.setComp (d : Side) (n : Nat) (b : Block) : Side := { d with comps := d.comps.set n b }
def Side.setAcc (d : Side) (n : Nat) (b : Block) : Side := { d with accs := d.accs.set n b }

/-- The shape that the queue leaves in a shape register (R201). -/
def queuedShape (d : Side) (n : Nat) : Word :=
  match (d.queue.filter (fun c => c.kind = 6 && c.n = n)).getLast? with
  | some c => c.a.setWidth 32
  | none => d.shape n

/-- Element c of row r of a tile, `w` bits wide (R198). -/
def tileElem (b : Block) (w r c : Nat) : Nat :=
  if w = 4 then (b.data.get (256 * r + c / 2)).toNat / 16 ^ (c % 2) % 16
  else natOf (b.data.read (256 * r + c * w / 8) (w / 8))

def tileElemBad (b : Block) (w r c : Nat) : Bool := b.bad (256 * r + c * w / 8) (max 1 (w / 8))

/-- Put element c of row r. -/
def putTileElem (b : Block) (w r c v : Nat) : Block :=
  let p := 256 * r + c * w / 8
  if w = 4 then
    let o := (b.data.get p).toNat
    b.put p [BitVec.ofNat 8 (if c % 2 = 0 then o / 16 * 16 + v else v * 16 + o % 16)] []
  else b.put p (bytesOf (w / 8) v) []

/-- A 32-bit accumulator element, or a 64-bit one of a pair (R22, R198). -/
def accElem (d : Side) (wide : Bool) (n i j : Nat) : Nat :=
  let p := 4 * (64 * i + j)
  natOf ((d.acc n).data.read p 4) + (if wide then 2 ^ 32 * natOf ((d.acc (n + 1)).data.read p 4) else 0)

def accElemBad (d : Side) (wide : Bool) (n i j : Nat) : Bool :=
  let p := 4 * (64 * i + j)
  (d.acc n).bad p 4 || (wide && (d.acc (n + 1)).bad p 4)

/-- Scale and zero point of a group of a companion row (R198). -/
def compScale (b : Block) (r g : Nat) : Fv := decodeF fp16 (natOf (b.data.read (64 * r + 2 * g) 2))
def compZero (b : Block) (q4 : Bool) (r g : Nat) : Nat :=
  let z := (b.data.get (64 * r + 32 + g)).toNat
  if q4 then z % 16 else z
def compBad (b : Block) (r g : Nat) : Bool := b.bad (64 * r + 2 * g) 2 || b.bad (64 * r + 32 + g) 1

/-! ### Rows in the scratchpad (R204, R206) -/

/-- The offsets of the rows: 64-bit values (R204). -/
def rowOffs (sa sb : DWord) (rows : Nat) : List Nat := (upFrom 0 rows).map (fun r => (sa + BitVec.ofNat 64 r * sb).toNat)

/-- The first row that fails R156: its cause and offset. `e` is the element's bytes and `n` the row's. -/
def rowFault (t : Team) (core e n : Nat) : List Nat → Option (Nat × Nat)
  | [] => none
  | o :: os =>
    if o % e ≠ 0 then some (2, o)
    else if (scratchAt t core o n).isNone then some (1, o)
    else rowFault t core e n os

/-- The location of a row that has passed its checks. -/
def rowLoc (t : Team) (core n off : Nat) : Nat := (scratchAt t core off n).getD 0

/-- The lowest of some offsets. -/
def lowest (os : List Nat) : Nat := os.foldl min (os.headD 0)

/-- The range that encloses rows of `n` bytes, one entry for each scratchpad it lies in: space, base, length (R251, R252). -/
def rowRanges (t : Team) (n : Nat) (offs : List Nat) : List (Nat × Nat × Nat) :=
  if offs = [] then []
  else
    let size := t.lines * 64
    let lo := lowest offs
    let hi := offs.foldl max 0 + n
    if hi ≤ size then [(0, lo, hi - lo)]
    else if size ≤ lo then [(1, lo - Config.partnerBase, hi - lo)]
    else [(0, lo, size - lo), (1, 0, hi - Config.partnerBase)]

/-- The reads of a load's rows, with the place of each row's bytes in its register. -/
def rowReads (t : Team) (core n : Nat) (offs : List Nat) (place : Nat → Nat) : List AStep :=
  (upFrom 0 offs.length).flatMap (fun r =>
    (lineParts (n / 64 + 2) (rowLoc t core n (offs.getD r 0)) n (place r)).map (fun p => .read p.1 p.2.1 p.2.2 false))

/-- The distance between two rows. -/
def rowStep (sb : DWord) : Nat := min sb.toNat (2 ^ 64 - sb.toNat)

/-- The writes of a store's rows: rows that overlap are written as one range, in which the highest row that writes a
byte holds it (R204). -/
def rowWrites (t : Team) (core n stride : Nat) (offs : List Nat) : List AStep :=
  let lo := lowest offs
  let part (loc k off : Nat) : List AStep := (lineParts (k / 64 + 2) loc k off).map (fun p => .write p.1 p.2.1 p.2.2 false)
  if n ≤ stride then offs.flatMap (fun o => part (rowLoc t core n o) n (o - lo))
  else if offs = [] then []
  else part (rowLoc t core n lo) (offs.foldl max 0 + n - lo) 0

/-! ### The queue (R201, R202) -/

/-- The words of W and N of an accumulator number. -/
def accNum (n : Nat) : Nat := n % 16
def accWide (n : Nat) : Bool := n / 16 % 2 = 1

/-- The bytes of a stored row: a tile's, whose unused half byte is zero, or an accumulator's (R204, R206). -/
def storedRow (d : Side) (c : TileCmd) (r : Nat) : List Byte × List Nat :=
  if c.kind = 1 then
    let sh := d.shape c.n
    let b := rowBytes sh
    let bs := (d.tile c.n).data.read (256 * r) b
    let cut := if shEw sh = 0 && shCols sh % 2 = 1 then bs.dropLast ++ (bs.getLast?.map (fun x => x &&& 0x0F)).toList else bs
    (cut, (upFrom 0 b).filter (fun i => (d.tile c.n).bad (256 * r + i) 1))
  else
    let wide := accWide c.n
    let e := if wide then 8 else 4
    let cols := (c.b.extractLsb' 31 7).toNat
    ((upFrom 0 cols).flatMap (fun j => bytesOf e (accElem d wide (accNum c.n) r j)),
      (upFrom 0 cols).flatMap (fun j => if accElemBad d wide (accNum c.n) r j then upFrom (e * j) e else []))

/-- Rows of a store: how many, the bytes of each, and the bytes between them. -/
def storeRows (d : Side) (c : TileCmd) : Nat × Nat × DWord :=
  if c.kind = 1 then (shRows (d.shape c.n), rowBytes (d.shape c.n), c.b)
  else ((c.b.extractLsb' 24 7).toNat, (if accWide c.n then 8 else 4) * (c.b.extractLsb' 31 7).toNat, c.b.extractLsb' 0 24 |>.setWidth 64)

/-! ### TCVT and TSPK (R207, R208, R210) -/

def tcvtG (w : DWord) : Nat := (w.extractLsb' 17 2).toNat
def tcvtRnd (w : DWord) : Nat := (w.extractLsb' 14 3).toNat
def tcvtDf (w : DWord) : Nat := (w.extractLsb' 10 4).toNat
def tcvtSf (w : DWord) : Nat := (w.extractLsb' 6 4).toNat
def tcvtAcc (w : DWord) : Bool := w.getLsbD 5
def tcvtSrc (w : DWord) : Nat := (w.extractLsb' 0 5).toNat

/-- A float value as a quantised code (R208). -/
def quantise (v sc : Fv) (z bits : Nat) (r : Rnd) : Nat × Flags :=
  let top : Nat := 2 ^ bits - 1
  let clamp (k : Int) (fl : Flags) : Nat × Flags :=
    let q := (z : Int) + k
    if q < 0 then (0, flagOF ||| flagNX) else if (top : Int) < q then (top, flagOF ||| flagNX) else (q.toNat, fl)
  match v, sc with
  | .nan _, _ | _, .nan _ | _, .inf _ => (z, flagNV)
  | .inf n, .fin ns m _ => if m = 0 then (z, flagNV) else if n != ns then (0, flagOF ||| flagNX) else (top, flagOF ||| flagNX)
  | .fin n m e, .fin ns ms es =>
    if ms = 0 then (z, flagNV)
    else
      let sh : Int := e - es + 80
      let num := m * 2 ^ sh.toNat
      let den := ms * 2 ^ (-sh).toNat
      let (u, inexact) := roundAt r (n != ns) (num / den) (-80) (num % den ≠ 0) 0
      clamp (if n != ns then -(u : Int) else (u : Int)) (if inexact then flagNX else 0)

/-- The exact value of a quantised element, with NV for a signalling scale or an infinite one times zero (R97, R100). -/
def dequant (sc : Fv) (q z : Nat) : Fv × Flags :=
  let k : Int := (q : Int) - (z : Int)
  match sc with
  | .nan sg => (.nan false, if sg then flagNV else 0)
  | .inf n => if k = 0 then (.nan false, flagNV) else (.inf (n != (k < 0 : Bool)), 0)
  | .fin n m e => (.fin (n != (k < 0 : Bool)) (m * k.natAbs) e, 0)

/-- A value in a destination format (R101, R102, R129). -/
def narrow (dst : Fmt) (r : Rnd) (v : Fv × Flags) : Nat × Flags :=
  match v.1 with
  | .nan _ => (qnan dst, v.2)
  | .inf n => if dst.e4m3 then (qnan dst, v.2 ||| flagNV) else (infOf dst n, v.2)
  | .fin n m e => if m = 0 then (zeroOf dst n, v.2) else
      let o := roundF dst r n m e
      (o.1, v.2 ||| o.2)

/-- The position of an element of a tile (R110). -/
def tilePos (i j : Nat) : Nat := 8 * (i % 8) + j % 8

/-- TCVT acts on its registers (R208): the side after it, and its flags. -/
def runTcvt (d : Side) (c : TileCmd) : Side × Flags :=
  let w := c.a
  let sh := d.shape c.n
  let sf := tcvtSf w
  let df := tcvtDf w
  let src := tcvtSrc w
  let gs := groupSize (tcvtG w)
  let sbits := ewBits (fmtEw sf)
  let dbits := ewBits (fmtEw df)
  let rnd (i j : Nat) : Rnd :=
    if tcvtRnd w = 4 then .dither (ditherT (tilePos i j) c.phi)
    else rndOf (BitVec.ofNat 2 (if tcvtRnd w = 5 then c.rnd else tcvtRnd w))
  let raw (i j : Nat) : Nat := if tcvtAcc w then accElem d (sf = 0) src i j else tileElem (d.tile src) sbits i j
  let one (i j : Nat) : Nat × Flags :=
    if isQuant df then
      let b := d.comp c.n
      quantise (decodeF (fmtOf sf) (raw i j)) (compScale b i (j / gs)) (compZero b (df = 7) i (j / gs)) dbits (rnd i j)
    else if isQuant sf then
      let b := d.comp src
      narrow (fmtOf df) (rnd i j) (dequant (compScale b i (j / gs)) (raw i j) (compZero b (sf = 7) i (j / gs)))
    else fConvert (fmtOf sf) (fmtOf df) (rnd i j) (raw i j)
  let bad (i j : Nat) : Bool :=
    (if tcvtAcc w then accElemBad d (sf = 0) src i j else tileElemBad (d.tile src) sbits i j)
      || (isQuant df && compBad (d.comp c.n) i (j / gs)) || (isQuant sf && compBad (d.comp src) i (j / gs))
  let cells := (upFrom 0 (shRows sh)).flatMap (fun i => (upFrom 0 (shCols sh)).map (fun j => (i, j)))
  let (tile, fl) := cells.foldl (fun (acc : Block × Flags) p =>
    let r := one p.1 p.2
    (putTileElem acc.1 dbits p.1 p.2 r.1, acc.2 ||| r.2)) (d.tile c.n, 0)
  let out := if cells.any (fun p => bad p.1 p.2) then
      (upFrom 0 (shRows sh)).foldl (fun (b : Block) r => b.spoil (256 * r) (rowBytes sh)) tile
    else tile
  (d.setTile c.n out, fl)

/-- TSPK acts on its registers (R209, R210). Whether 8-bit elements are q8 codes is a free value of its word and its source's
companion, and so is the size of the groups of their zero points (log 48): the same in every run (R333). -/
def runTspk (d : Side) (c : TileCmd) : Side :=
  let src := (c.a.extractLsb' 0 5).toNat
  let md := (c.a.extractLsb' 5 5).toNat
  let sh := d.shape c.n
  let w := ewBits (shEw sh)
  let e := w / 8
  let sz := slotSize sh
  let q8 := shEw sh = 1 && Config.packsCodes c.a (d.comp src).data
  let gs := groupSize (Config.packsGroup c.a (d.comp src).data)
  let keep (j k : Nat) : Bool :=
    let v := tileElem (d.tile src) w j k
    if q8 then v ≠ compZero (d.comp src) false j (k / gs) else v % 2 ^ (w - 1) ≠ 0
  let row (acc : Block × Block) (j : Nat) : Block × Block :=
    (upFrom 0 (shCols sh / 64)).foldl (fun (acc : Block × Block) g =>
      let ts := (upFrom 0 64).filter (fun t => keep j (64 * g + t))
      let vals := ts.map (fun t => tileElem (d.tile src) w j (64 * g + t))
      let fill (n : Nat) (vs : List Nat) : List Byte := (upFrom 0 n).flatMap (fun i => bytesOf e (vs.getD i 0))
      let bits := ts.foldl (fun n t => n + 2 ^ t) 0
      (acc.1.put (256 * j + g * sz * e) (fill sz (vals.take sz)) [],
        (acc.2.put (256 * j + 8 * g) (bytesOf 8 bits) []).put (256 * j + 32 + g * (64 - sz) * e) (fill (64 - sz) (vals.drop sz)) []))
      acc
  let (tile, meta1) := (upFrom 0 (shRows sh)).foldl row (d.tile c.n, d.tile md)
  let bad := (upFrom 0 (shRows sh)).any (fun j => (d.tile src).bad (256 * j) (shCols sh * e)
    || (q8 && (upFrom 0 ((shCols sh + gs - 1) / gs)).any (fun g => compBad (d.comp src) j g)))
  let spoil (n : Nat) (b : Block) : Block :=
    if bad then (upFrom 0 (shRows sh)).foldl (fun (b : Block) r => b.spoil (256 * r) n) b else b
  let d1 := (d.setTile c.n (spoil (rowBytes sh) tile)).setTile md (spoil 256 meta1)
  if q8 then
    d1.setComp c.n ((upFrom 0 (shRows sh)).foldl (fun (b : Block) r =>
      b.put (64 * r) ((d.comp src).data.read (64 * r) 64) ((upFrom (64 * r) 64).filter (fun i => (d.comp src).bad i 1))) (d.comp c.n))
  else d1

/-! ### MXGO (R211-R217) -/

/-- Fields of the parameter block (R212). -/
def blkByte (b : List Byte) (i : Nat) : Nat := (b.getD i 0).toNat
def blkOp (b : List Byte) : Nat := blkByte b 0 % 4
def blkAid (b : List Byte) : Nat := blkByte b 1 % 32
def blkByp (b : List Byte) : Bool := 128 ≤ blkByte b 1
def blkBid (b : List Byte) : Nat := blkByte b 2 % 32
def blkCid (b : List Byte) : Nat := blkByte b 3 % 16
def blkM (b : List Byte) : Nat := blkByte b 4
def blkN (b : List Byte) : Nat := blkByte b 5
def blkK (b : List Byte) : Nat := natOf ((b.drop 6).take 2)
def blkZa (b : List Byte) : Bool := blkByte b 8 % 2 = 1
def blkDps (b : List Byte) : Bool := blkByte b 8 / 2 % 2 = 1
def blkPh (b : List Byte) : Nat := blkByte b 9
def blkMid (b : List Byte) : Nat := blkByte b 10 % 32
def blkSid (b : List Byte) : Nat := blkByte b 11 % 16
def blkTask (b : List Byte) : Nat := natOf ((b.drop 12).take 4)
def blkAcnt (b : List Byte) : Nat := natOf ((b.drop 16).take 4)
def blkArrive (b : List Byte) : Bool := 2 ^ 31 ≤ blkTask b

/-- Fields of the format word (R211). -/
def fwRnd (w : Word) : Nat := (w.extractLsb' 14 2).toNat
def fwG (w : Word) : Nat := (w.extractLsb' 12 2).toNat
def fwCf (w : Word) : Nat := (w.extractLsb' 8 4).toNat
def fwBf (w : Word) : Nat := (w.extractLsb' 4 4).toNat
def fwAf (w : Word) : Nat := (w.extractLsb' 0 4).toNat

/-- An exact block sum (R113): its terms, and whether it is NaN or infinite. -/
inductive BlockSum where
  | fin (v : Int)
  | inf (neg : Bool)
  | nan
  deriving DecidableEq, Repr

/-- Add a product of two elements to a block sum, in units of 2^emin. -/
def BlockSum.add (emin : Int) (b : BlockSum) (x y : Fv) : BlockSum :=
  match b, mulV x y with
  | .nan, _ | _, none => .nan
  | _, some (.nan _) => .nan
  | .fin _, some (.inf n) => .inf n
  | .inf m, some (.inf n) => if m = n then .inf m else .nan
  | .inf m, some (.fin _ _ _) => .inf m
  | .fin v, some (.fin n m e) => .fin (v + scaled n m e emin)

/-- A block sum goes into an accumulator with one rounding (R113). -/
def BlockSum.into (emin : Int) (acc : Nat) : BlockSum → Nat
  | .nan => qnan fp32
  | .inf n => (addV fp32 .rne (decodeF fp32 acc) (.inf n)).1
  | .fin v => if v = 0 then acc else (addV fp32 .rne (decodeF fp32 acc) (.fin (v < 0) v.natAbs emin)).1

/-- The least exponent of a product of two formats' elements. -/
def prodExp (a b : Fmt) : Int := (1 - (a.bias : Int) - a.fb) + (1 - (b.bias : Int) - b.fb)

/-- The blocks of a row: cut each `n` elements; `fuel` bounds their number. -/
def chunks (n : Nat) {α : Type} : Nat → List α → List (List α)
  | 0, _ => []
  | _, [] => []
  | fuel + 1, l => l.take n :: chunks n fuel (l.drop n)

/-- An output element of R113 and R114. -/
def dotFloat (fa fb : Fmt) (kb : Nat) (acc : Nat) (xs : List (Fv × Fv)) : Nat :=
  let e := prodExp fa fb
  (chunks kb (xs.length + 1) xs).foldl (fun acc blk => (blk.foldl (fun b p => b.add e p.1 p.2) (BlockSum.fin 0)).into e acc) acc

/-- An output element of R115. -/
def dotDouble (acc : Nat) (xs : List (Nat × Nat)) : Nat := xs.foldl (fun acc p => (fFma fp64 .rne p.1 p.2 acc).1) acc

/-- P_g of R116, as it is written: the sum of q times a, less the zero point times the sum of a (log 49). -/
def groupSum (emin : Int) (z : Nat) (xs : List (Fv × Nat)) : BlockSum :=
  let int (n : Nat) : Fv := .fin false n 0
  let qs := xs.foldl (fun b p => b.add emin p.1 (int p.2)) (BlockSum.fin 0)
  let ss := xs.foldl (fun b p => b.add emin p.1 (int 1)) (BlockSum.fin 0)
  let zs : BlockSum := match ss with
    | .fin v => .fin (v * z)
    | .inf n => if z = 0 then .nan else .inf n
    | .nan => .nan
  match qs, zs with
  | .nan, _ | _, .nan => .nan
  | .fin a, .fin b => .fin (a - b)
  | .inf m, .inf n => if m = n then .nan else .inf m
  | .inf m, .fin _ => .inf m
  | .fin _, .inf n => .inf !n

/-- A group's product with its scale goes into an accumulator (R116). DESIGN CHOICE (log 49): a product of 0 with a NaN or
infinite scale follows R113 and gives NaN. -/
def scaleInto (emin : Int) (acc : Nat) (sc : Fv) (p : BlockSum) : Nat :=
  let v : Option Fv := match p with
    | .nan => some (.nan false)
    | .inf n => some (.inf n)
    | .fin v => if v = 0 then (match sc with | .fin _ _ _ => none | _ => some (.fin false 0 0))
                else some (.fin (v < 0) v.natAbs emin)
  match v with
  | none => acc
  | some v =>
    match mulV sc v with
    | some r => (addV fp32 .rne (decodeF fp32 acc) r).1
    | none => qnan fp32

/-- An output element of R116: the groups of row j of B, with A's elements and the codes. -/
def dotQuant (fa : Fmt) (gs : Nat) (comp : Block) (q4 : Bool) (j : Nat) (acc : Nat) (xs : List (Fv × Nat)) : Nat :=
  let e : Int := 1 - (fa.bias : Int) - fa.fb
  let gsx := chunks gs (xs.length + 1) xs
  (upFrom 0 gsx.length).foldl (fun acc g =>
    scaleInto e acc (compScale comp j g) (groupSum e (compZero comp q4 j g) (gsx.getD g []))) acc

/-- Where element (j, k) of a bitmap-sparse B is stored: none when its bit is clear; else whether it is in the metadata
tile, and its place in bytes (R209). -/
def sparsePlace (sh : Word) (md : Block) (j k : Nat) : Option (Bool × Nat) :=
  let g := k / 64
  let t := k % 64
  let e := ewBits (shEw sh) / 8
  let bits := natOf (md.data.read (256 * j + 8 * g) 8)
  if bits / 2 ^ t % 2 = 0 then none
  else
    let rank := ((upFrom 0 t).filter (fun i => bits / 2 ^ i % 2 = 1)).length
    let sz := slotSize sh
    if rank < sz then some (false, 256 * j + (g * sz + rank) * e)
    else some (true, 256 * j + 32 + (g * (64 - sz) + (rank - sz)) * e)

/-- Bv(j, k) of R215 as a pattern; none for an element that is not stored. -/
def bElem (d : Side) (b : List Byte) (w : Nat) (j k : Nat) : Option Nat :=
  if blkOp b % 2 = 0 then some (tileElem (d.tile (blkBid b)) w j k)
  else
    (sparsePlace (d.shape (blkBid b)) (d.tile (blkMid b)) j k).map (fun p =>
      natOf ((if p.1 then d.tile (blkMid b) else d.tile (blkBid b)).data.read p.2 (w / 8)))

/-- Whether B's element, or the metadata that finds it, is poisoned (R217). -/
def bElemBad (d : Side) (b : List Byte) (w : Nat) (j k : Nat) : Bool :=
  if blkOp b % 2 = 0 then tileElemBad (d.tile (blkBid b)) w j k
  else
    (d.tile (blkMid b)).bad (256 * j + 8 * (k / 64)) 8 ||
      (match sparsePlace (d.shape (blkBid b)) (d.tile (blkMid b)) j k with
       | some p => (if p.1 then d.tile (blkMid b) else d.tile (blkBid b)).bad p.2 (w / 8)
       | none => false)

/-- The bypass of R215: accumulator elements converted into A's tile, with their poison. -/
def bypass (d : Side) (w : Word) (b : List Byte) (phi : Nat) : Side :=
  let af := fwAf w
  let wide := af = 0
  let bits := ewBits (fmtEw af)
  let rnd (i k : Nat) : Rnd := if fwRnd w = 2 then .dither (ditherT (tilePos i k) phi) else rndOf (BitVec.ofNat 2 (fwRnd w))
  let cells := (upFrom 0 (blkM b)).flatMap (fun i => (upFrom 0 (blkK b)).map (fun k => (i, k)))
  d.setTile (blkAid b) (cells.foldl (fun (t : Block) p =>
    let x := accElem d wide (blkSid b) p.1 p.2
    let v := if wide then x else (fConvert fp32 (fmtOf af) (rnd p.1 p.2) x).1
    let t1 := putTileElem t bits p.1 p.2 v
    if accElemBad d wide (blkSid b) p.1 p.2 then t1.spoil (256 * p.1 + p.2 * bits / 8) (bits / 8) else t1) (d.tile (blkAid b)))

/-- MXGO acts on its registers (R215, R217): the side after it, and whether it is poisoned. -/
def runMxgo (d0 : Side) (c : TileCmd) : Side × Bool :=
  let b := c.block
  let w : Word := c.b.setWidth 32
  let (m, n, kk) := (blkM b, blkN b, blkK b)
  if m = 0 then (d0, false)
  else
    let d := if blkByp b then bypass d0 w b c.phi else d0
    let af := fwAf w
    let bf := fwBf w
    let abits := ewBits (fmtEw af)
    let bbits := ewBits (fmtEw bf)
    let wide := fwCf w = 0
    let cid := blkCid b
    let ks := upFrom 0 kk
    let av (i : Nat) : List Nat := ks.map (fun k => tileElem (d.tile (blkAid b)) abits i k)
    let af1 (i : Nat) : List Fv := (av i).map (decodeF (fmtOf af))
    let kb := if af = 1 then 8 else if abits = 8 || bbits = 8 then 64 else 32
    let rows := (upFrom 0 m).map (fun i => (av i, af1 i))
    let colsB := (upFrom 0 n).map (fun j => ks.map (fun k => bElem d b bbits j k))
    let elem (i j : Nat) : Nat :=
      let acc0 := if blkZa b then 0 else accElem d wide cid i j
      let (ai, aif) := rows.getD i ([], [])
      let bj := colsB.getD j []
      if 2 ≤ blkOp b then
        let gs := groupSize (fwG w)
        let comp := d.comp (blkBid b)
        let codes := (upFrom 0 kk).map (fun k => (bj.getD k none).getD (compZero comp (bf = 7) j (k / gs)))
        dotQuant (fmtOf af) gs comp (bf = 7) j acc0 (aif.zip codes)
      else if wide then dotDouble acc0 (ai.zip (bj.map (fun o => o.getD 0)))
      else
        let bs := bj.map (fun (o : Option Nat) => match o with | some v => decodeF (fmtOf bf) v | none => Fv.fin false 0 0)
        dotFloat (fmtOf af) (fmtOf bf) kb acc0 (aif.zip bs)
    let cells := (upFrom 0 m).flatMap (fun i => (upFrom 0 n).map (fun j => (i, j)))
    let bad := (upFrom 0 m).any (fun i => ks.any (fun k => tileElemBad (d.tile (blkAid b)) abits i k))
      || (upFrom 0 n).any (fun j => ks.any (fun k => bElemBad d b bbits j k))
      || (2 ≤ blkOp b && (upFrom 0 n).any (fun j => ks.any (fun k => compBad (d.comp (blkBid b)) j (k / groupSize (fwG w)))))
      || (!blkZa b && cells.any (fun p => accElemBad d wide cid p.1 p.2))
    let put (h : Nat) (acc : Block) : Block := cells.foldl (fun (a : Block) p =>
      a.put (4 * (64 * p.1 + p.2)) (bytesOf 4 (elem p.1 p.2 / 2 ^ (32 * h))) []) acc
    let spoil (a : Block) : Block := if bad then a.spoil 0 16384 else a
    let d1 := d.setAcc cid (spoil (put 0 (d.acc cid)))
    (if wide then d1.setAcc (cid + 1) (spoil (put 1 (d.acc (cid + 1)))) else d1, bad)

/-! ### A command completes (R201, R202, R216, R217) -/

/-- A load's bytes go from its agent's buffer into its register. -/
def runLoad (d : Side) (c : TileCmd) (a : Agent) : Side :=
  let bad (p n : Nat) : List Nat := a.bad.filter (fun i => p ≤ i && i < p + n)
  let sh := d.shape c.n
  match c.kind with
  | 0 =>
    d.setTile c.n ((upFrom 0 (shRows sh)).foldl (fun (t : Block) r =>
      t.put (256 * r) (a.buf.read (256 * r) (rowBytes sh)) (bad (256 * r) (rowBytes sh))) (d.tile c.n))
  | 9 =>
    d.setComp c.n ((upFrom 0 (shRows sh)).foldl (fun (t : Block) r =>
      t.put (64 * r) (a.buf.read (64 * r) 64) (bad (64 * r) 64)) (d.comp c.n))
  | _ =>
    let wide := accWide c.n
    let e := if wide then 8 else 4
    let n := accNum c.n
    let rows := (c.b.extractLsb' 24 7).toNat
    let cols := (c.b.extractLsb' 31 7).toNat
    let cells := (upFrom 0 rows).flatMap (fun i => (upFrom 0 cols).map (fun j => (i, j)))
    let put (h : Nat) (acc : Block) : Block := cells.foldl (fun (t : Block) p =>
      let q := e * (64 * p.1 + p.2)
      let o := 4 * (64 * p.1 + p.2)
      t.put o (a.buf.read (q + 4 * h) 4) (if bad q e ≠ [] then upFrom o 4 else [])) acc
    let d1 := d.setAcc n (put 0 (d.acc n))
    if wide then d1.setAcc (n + 1) (put 1 (d.acc (n + 1))) else d1

/-- The flags of a TCVT go to its group's FPC (R208); a value that a pending SETC replaces takes none (R239). -/
def tileFlags (s : State) (core slot : Nat) (fl : Flags) : State :=
  match s.group? core slot with
  | some g =>
    if fl = 0 || g.lanes.any (fun l => l.live && l.olds.any (fun o => o.reg = .fpc)) then s
    else s.setGroup { g with fpc := orFlags g.fpc fl }
  | none => s

/-- A poisoned MXGO is reported to its group; with no live lane it is logged in its record, with its address (R217, R306). -/
def reportPoison (s : State) (ctx core slot lane : Nat) (addr : DWord) : State :=
  match s.group? core slot with
  | some g =>
    if g.liveLanes = 0 then logRecord s ctx core slot 0x11 (some (addr.setWidth 32))
    else s.setGroup { g with poison := g.poison ++ [(lane, addr)] }
  | none => s

/-- The agent of a command. -/
def TileCmd.agentIn (c : TileCmd) (s : State) : Option Agent := c.agent.bind (fun id => s.agents.find? (fun a => a.id = id))

/-- Whether a command stores rows: TST or ACCST. -/
def TileCmd.stores (c : TileCmd) : Bool := c.kind = 1 || c.kind = 4

/-- Whether the head command of a queue may complete: its agent, if it has one, owes no step. -/
def headReady (s : State) (d : Side) : Bool :=
  match d.queue with
  | [] => false
  | c :: _ =>
    match c.agentIn s with
    | some a => a.steps = [] && (!c.stores || c.primed)
    | none => true

/-- The effect of a command on the registers, with its flags and whether an MXGO is poisoned. -/
def runCmd (d : Side) (c : TileCmd) (a : Option Agent) : Side × Flags × Bool :=
  match c.kind with
  | 0 | 3 | 9 => (match a with | some a => runLoad d c a | none => d, 0, false)
  | 2 => (d.setTile c.n {}, 0, false)
  | 5 => (if accWide c.n then (d.setAcc (accNum c.n) {}).setAcc (accNum c.n + 1) {} else d.setAcc (accNum c.n) {}, 0, false)
  | 6 => ({ d with shapes := d.shapes.set c.n (c.a.setWidth 32) }, 0, false)
  | 7 => let r := runTcvt d c; (r.1, r.2, false)
  | 8 => (runTspk d c, 0, false)
  | 10 => let r := runMxgo d c; (r.1, 0, r.2)
  | _ => (d, 0, false)

/-! ### Stores take their bytes (R201)

A store's steps may begin once every earlier command has written the registers it reads; its agent is not ordered against theirs.
Registers are numbered here: tiles from 0, companions from 100, accumulators from 200. -/

/-- The accumulators that a number with a width names. -/
def accIds (n : Nat) (wide : Bool) : List Nat := if wide then [200 + n, 201 + n] else [200 + n]

/-- The registers that a command reads, where it keeps a part of what it writes too, and those it writes. -/
def TileCmd.regs (c : TileCmd) : List Nat × List Nat :=
  match c.kind with
  | 0 | 1 => ([c.n], [c.n])
  | 2 => ([], [c.n])
  | 3 | 4 => (accIds (accNum c.n) (accWide c.n), accIds (accNum c.n) (accWide c.n))
  | 5 => ([], accIds (accNum c.n) (accWide c.n))
  | 7 =>
    let src := tcvtSrc c.a
    ((if tcvtAcc c.a then accIds src (tcvtSf c.a = 0) else [src, 100 + src]) ++ [c.n, 100 + c.n], [c.n])
  | 8 =>
    let src := (c.a.extractLsb' 0 5).toNat
    let md := (c.a.extractLsb' 5 5).toNat
    ([src, 100 + src, md, c.n, 100 + c.n], [md, c.n, 100 + c.n])
  | 9 => ([100 + c.n], [100 + c.n])
  | 10 =>
    let b := c.block
    let wide := fwCf (c.b.setWidth 32) = 0
    let accs := accIds (blkCid b) wide ++ accIds (blkSid b) true
    ([blkAid b, blkBid b, 100 + blkBid b, blkMid b] ++ accs, blkAid b :: accIds (blkCid b) wide)
  | _ => ([], [])

/-- How far the commands before a place in a queue have come: the registers as they leave them, and those that still wait for a
load's bytes. -/
structure TileView where
  side    : Side
  waiting : List Nat := []

/-- One earlier command of the queue: it has its effect, unless what it reads is still on its way. -/
def TileView.after (s : State) (v : TileView) (c : TileCmd) : TileView :=
  let (rd, wr) := c.regs
  let owes := match c.agentIn s with
    | some a => !c.stores && a.steps ≠ []
    | none => false
  if owes || rd.any v.waiting.contains then { v with waiting := v.waiting ++ (if c.stores then [] else wr) }
  else
    { side := (runCmd v.side c (c.agentIn s)).1
      waiting := if c.kind = 2 || c.kind = 5 then v.waiting.filter (fun r => !wr.contains r) else v.waiting }

/-- A store takes its register's bytes, and its steps may begin (R201, R204). -/
def primeStore (s : State) (t : Team) (core : Nat) (d : Side) (c : TileCmd) : State :=
  match c.agentIn s with
  | none => s
  | some a =>
    let (rows, n, sb) := storeRows d c
    let offs := rowOffs c.a sb rows
    let lo := lowest offs
    let img := (upFrom 0 rows).foldl (fun (b : Block) r =>
      let (bs, bad) := storedRow d c r
      b.put (offs.getD r 0 - lo) bs (bad.map (· + (offs.getD r 0 - lo)))) {}
    s.setAgent { a with buf := img.data, bad := img.poison, steps := rowWrites t core n (rowStep sb) offs }

/-- Prime each store of a queue whose registers are written; the queue then says so. -/
def primeFrom (t : Team) (core : Nat) : List TileCmd → TileView → State → State × List TileCmd
  | [], _, s => (s, [])
  | c :: cs, v, s =>
    let now := c.stores && !c.primed && !(c.regs.1.any v.waiting.contains)
    let s1 := if now then primeStore s t core v.side c else s
    let (s2, rest) := primeFrom t core cs (v.after s c) s1
    (s2, { c with primed := c.primed || now } :: rest)

/-- Prime the stores of a team's queue on a core that can be. -/
def primeStores (s : State) (teamId core : Nat) : State :=
  match s.team? teamId with
  | none => s
  | some t =>
    let d := t.side core
    if d.queue.all (fun c => !c.stores || c.primed) then s
    else
      let (s1, q) := primeFrom t core d.queue { side := d } s
      s1.setTeam (t.setSide { d with queue := q })

/-- The head command of a team's queue on a core completes. An ARRIVE is a release at device scope: the command waits until its
group's release is complete (R147, R216). -/
def completeHead (s : State) (teamId core : Nat) : State :=
  match s.team? teamId with
  | none => s
  | some t =>
    let d := t.side core
    match d.queue with
    | [] => s
    | c :: rest =>
      if headReady s d then
        let arrives := c.kind = 10 && blkArrive c.block
        let (s0, ok) := if arrives then release s core c.slot 4 else (s, true)
        if !ok then s0
        else
          let (d1, fl, bad) := runCmd d c (c.agentIn s0)
          let s1 := s0.setTeam (t.setSide { d1 with queue := rest })
          let s2 := match c.agentIn s0 with | some a => s1.dropAgent a | none => s1
          let s3 := (tileFlags s2 core c.slot fl).opDone core c.slot c.op
          let s4 := if arrives then loseStanding (arriveTask s3 (blkTask c.block % 2 ^ 13) (blkAcnt c.block)) teamId else s3
          let s5 := if bad then reportPoison s4 t.ctx core c.slot c.lane c.addr else s4
          primeStores s5 teamId core
      else s

end Sys2Proof.Machine
end

