-- ==== Sys2Proof/Machine/Tiles.lean ====
section
/-! DEFINITION. The tile and matrix instructions (R201-R214): their checks, and how they enter the queue. -/

namespace Sys2Proof.Machine

/-- What a command registers. -/
structure TileUse where
  steps  : List AStep := []
  ranges : List (Nat × Nat × Nat) := []
  dst    : Bool := false
  lines  : List Nat := []
  deriving DecidableEq, Repr

/-- A command takes its range-lock entries, counts its token and enters its queue in one step, after the issuer's
release at its scope (R147, R148, R204, R253); while entries are wanting, its issuer waits. -/
def enqueue (x : Ix) (k : Tok) (c : TileCmd) (u : TileUse) (s : State) : State :=
  if !mayLock s x.core (ticketOf s x) u.ranges.length then waitForLocks s x
  else
    let s1 := leaveLocks (drainQueue s x.core x.slot) x
    let opId := s1.ids
    let scope := if u.ranges.any (fun r => r.1 = 1) then 2 else 1
    let s2 := startOp s1 x.core x.slot
      { id := opId, tok := k, inH := x.h, lanes := x.act, owed := true, scope := scope }
    let agentId := s2.ids
    let s3 : State :=
      if u.ranges = [] then s2
      else
        let agent : Agent :=
          { id := agentId, kind := 2, ctx := x.t.ctx, task := x.t.slot, team := some x.t.id, core := x.core, slot := x.slot
            scope := scope, steps := u.steps, lines := u.lines, fin := .tile }
        (s2.fresh).startAgent agent (u.ranges.map (fun r =>
          { core := x.core, dst := u.dst, sp := r.1, ctx := x.t.ctx, kind := 2, base := r.2.1, len := r.2.2, owner := x.slot
            team := x.t.id, agent := agentId }))
    let cmd : TileCmd :=
      { c with id := s3.ids, slot := x.slot, op := opId, agent := if u.ranges = [] then none else some agentId }
    match s3.team? x.t.id with
    | none => s3
    | some t =>
      let d := t.side x.core
      primeStores (s3.setTeam (t.setSide { d with queue := d.queue ++ [cmd], started := d.started + 1 })).fresh x.t.id x.core

/-- The side of the issuing team on the issuing core, as it stands. -/
def sideOf (s : State) (x : Ix) : Side := ((s.team? x.t.id).getD x.t).side x.core

/-- A command whose causes are known: the lowest traps every lane, or it goes on (R55, R203). -/
def checked (s : State) (x : Ix) (causes : List Nat) (go : State → State) : State :=
  match lowestCause causes with
  | some c => trapUnit s x 0 c
  | none => go s

/-- A move of rows: their checks, then the queue (R204, R206). -/
def moveRows (x : Ix) (k : Tok) (c : TileCmd) (e n : Nat) (offs : List Nat) (load : Bool) (place : Nat → Nat) (s : State) :
    State :=
  match rowFault x.t x.core e n offs with
  | some (cause, off) => trapUnit s x 0x100 cause (BitVec.ofNat 64 off)
  | none =>
    let ranges := rowRanges x.t n offs
    let line (r : Nat × Nat × Nat) : List Nat :=
      linesOf (scratchLoc (if r.1 = 1 then partnerOf x.core else x.core)
        ((x.t.side (if r.1 = 1 then partnerOf x.core else x.core)).base * 64 + r.2.1)) r.2.2
    enqueue x k c { steps := if load then rowReads x.t x.core n offs place else [], ranges := ranges, dst := !load
                    lines := if load then [] else ranges.flatMap line } s

/-- Bytes of an element, at least one. -/
def elemBytes (ew : Nat) : Nat := max 1 (ewBits ew / 8)

/-- TLD, TST and TQLD (R204). DESIGN CHOICE (log 124): a TQLD whose offset is no multiple of 64 is a misaligned access, a memory
fault of cause 2. -/
def tileMove (i : UInstr) (kind : Nat) (a b : SReg) (k : Tok) (n : BitVec 5) (s : State) : Host.Outcome State Fault Refusal :=
  uset i s (fun x s =>
    let sh := queuedShape (sideOf s x) n.toNat
    let sa := sval s x a
    let sb := if kind = 9 then 64 else sval s x b
    let c : TileCmd := { id := 0, word := x.word, kind := kind, a := sa, b := sb, n := n.toNat, slot := x.slot, op := 0 }
    checked s x (if shapeUsable sh then [] else [12]) (fun s =>
      let rows := rowOffs sa sb (shRows sh)
      if kind = 9 then moveRows x k c 64 64 rows true (fun r => 64 * r) s
      else moveRows x k c (elemBytes (shEw sh)) (rowBytes sh) rows (kind = 0) (fun r => 256 * r) s))

/-- R204. -/
def execTld (a b : SReg) (k : Tok) (n : BitVec 5) (s : State) : Host.Outcome State Fault Refusal :=
  tileMove (.tld a b k n) 0 a b k n s

/-- R204. -/
def execTst (a b : SReg) (k : Tok) (n : BitVec 5) (s : State) : Host.Outcome State Fault Refusal :=
  tileMove (.tst a b k n) 1 a b k n s

/-- R204. -/
def execTqld (a : SReg) (k : Tok) (n : BitVec 5) (s : State) : Host.Outcome State Fault Refusal :=
  tileMove (.tqld a k n) 9 a 0 k n s

/-- TZERO and ACCZ act on their register in their place in the queue (R205). -/
def tileZero (i : UInstr) (kind : Nat) (k : Tok) (n : BitVec 5) (s : State) : Host.Outcome State Fault Refusal :=
  uset i s (fun x s => enqueue x k { id := 0, word := x.word, kind := kind, n := n.toNat, slot := x.slot, op := 0 } {} s)

/-- R205. -/
def execTzero (k : Tok) (n : BitVec 5) (s : State) : Host.Outcome State Fault Refusal := tileZero (.tzero k n) 2 k n s

/-- R205. -/
def execAccz (k : Tok) (n : BitVec 5) (s : State) : Host.Outcome State Fault Refusal := tileZero (.accz k n) 5 k n s

/-- Whether a block descriptor breaks a limit of R206. -/
def blockBad (w : DWord) (e : Nat) : Bool :=
  w.extractLsb' 38 26 ≠ 0 || (w.extractLsb' 31 7).toNat = 0 || 64 < (w.extractLsb' 31 7).toNat
    || 64 < (w.extractLsb' 24 7).toNat || (w.extractLsb' 0 24).toNat % e ≠ 0

/-- ACCLD and ACCST (R206). -/
def accMove (i : UInstr) (kind : Nat) (a b : SReg) (k : Tok) (n : BitVec 5) (s : State) : Host.Outcome State Fault Refusal :=
  uset i s (fun x s =>
    let sa := sval s x a
    let w := sval s x b
    let e := if accWide n.toNat then 8 else 4
    let cols := (w.extractLsb' 31 7).toNat
    let stride : DWord := (w.extractLsb' 0 24).setWidth 64
    let c : TileCmd := { id := 0, word := x.word, kind := kind, a := sa, b := w, n := n.toNat, slot := x.slot, op := 0 }
    checked s x (if blockBad w e then [10] else []) (fun s =>
      moveRows x k c e (e * cols) (rowOffs sa stride (w.extractLsb' 24 7).toNat) (kind = 3)
        (fun r => e * 64 * r) s))

/-- R206. -/
def execAccld (a b : SReg) (k : Tok) (n : BitVec 5) (s : State) : Host.Outcome State Fault Refusal :=
  accMove (.accld a b k n) 3 a b k n s

/-- R206. -/
def execAccst (a b : SReg) (k : Tok) (n : BitVec 5) (s : State) : Host.Outcome State Fault Refusal :=
  accMove (.accst a b k n) 4 a b k n s

/-! ### The other instructions of major 0x0E, and MXGO (R205, R207, R210, R213) -/

/-- R205. -/
def execMovsh (a : SReg) (k : Tok) (n : BitVec 5) (s : State) : Host.Outcome State Fault Refusal :=
  uset (.movsh a k n) s (fun x s =>
    let v := sval s x a
    checked s x ((if v.extractLsb' 32 32 = 0 then [] else [10]) ++ (if shapeValid (v.setWidth 32) then [] else [12])) (fun s =>
      enqueue x k { id := 0, word := x.word, kind := 6, a := v, n := n.toNat, slot := x.slot, op := 0 } {} s))

/-- The causes of a TCVT (R203, R207). Each valid shape is asked to fit, also beside one that is not valid. -/
def tcvtCauses (t : Team) (d : Side) (lan : Bool) (w : DWord) (n : Nat) : List Nat :=
  let dst := queuedShape d n
  let src := queuedShape d (tcvtSrc w)
  let sf := tcvtSf w
  let df := tcvtDf w
  let word := w.extractLsb' 19 45 ≠ 0 || 5 < tcvtRnd w || 7 < sf || 7 < df || (isQuant sf && isQuant df)
    || ((isQuant sf || isQuant df) && tcvtG w = 3)
    || (tcvtAcc w && !(sf = 1 || (sf = 0 && tcvtSrc w % 2 = 0))) || (tcvtAcc w && 16 ≤ tcvtSrc w)
    || (lan && (tcvtRnd w = 4 || tcvtRnd w = 5))
  let num := if tcvtAcc w then t.accs ≤ tcvtSrc w + (if sf = 0 then 1 else 0) else t.tiles ≤ tcvtSrc w
  let bad := !shapeUsable dst || (!tcvtAcc w && !shapeUsable src)
  let dstFits := !shLay dst && shEw dst = fmtEw df && (!tcvtAcc w || shCols dst ≤ 64)
  let srcFits := !shLay src && shEw src = fmtEw sf
  let covers := shRows dst ≤ shRows src && shCols dst ≤ shCols src
  let misfit := (shapeUsable dst && !dstFits)
    || (!tcvtAcc w && shapeUsable src && (!srcFits || (shapeUsable dst && !covers)))
  (if word then [10] else []) ++ (if num then [7] else []) ++ (if bad then [12] else []) ++ (if misfit then [10] else [])

/-- R207, R208: the phase, FPC.RM and the operands are taken at issue. -/
def execTcvt (a : SReg) (k : Tok) (n : BitVec 5) (s : State) : Host.Outcome State Fault Refusal :=
  uset (.tcvt a k n) s (fun x s =>
    let w := sval s x a
    checked s x (tcvtCauses x.t (sideOf s x) x.lan w n.toNat) (fun s =>
      let g := s.group? x.core x.slot
      let phi := (g.map (fun g => g.phase x.act)).getD 0
      let rm := (g.map (fun g => (fpcRm (g.fpcFor (g.lane ((lanesIn x.act).headD 0)))).toNat)).getD 0
      let s1 := match g with
        | some g => if tcvtRnd w = 4 then s.setGroup (advancePhase g x.act 1) else s
        | none => s
      enqueue x k
        { id := 0, word := x.word, kind := 7, a := w, n := n.toNat, slot := x.slot, op := 0, phi := phi, rnd := rm } {} s1))

/-- The causes of a TSPK (R203, R210). Each valid shape is asked to fit, also beside one that is not valid. -/
def tspkCauses (t : Team) (d : Side) (w : DWord) (n : Nat) : List Nat :=
  let src := (w.extractLsb' 0 5).toNat
  let md := (w.extractLsb' 5 5).toNat
  let ss := queuedShape d src
  let sm := queuedShape d md
  let sd := queuedShape d n
  let bad := !(shapeUsable ss && shapeUsable sm && shapeUsable sd)
  let misfit := (shapeUsable ss && shLay ss) || (shapeUsable sd && !shLay sd) || (shapeUsable sm && !(shEw sm = 1 && shCols sm = 256))
    || (shapeUsable ss && shapeUsable sd && !(shEw sd = shEw ss && shRows sd ≤ shRows ss && shCols sd ≤ shCols ss))
    || (shapeUsable sm && shapeUsable sd && !(shRows sd ≤ shRows sm))
  (if w.extractLsb' 10 54 ≠ 0 || src = md || src = n || md = n then [10] else [])
    ++ (if t.tiles ≤ src || t.tiles ≤ md then [7] else []) ++ (if bad then [12] else []) ++ (if misfit then [10] else [])

/-- R210. -/
def execTspk (a : SReg) (k : Tok) (n : BitVec 5) (s : State) : Host.Outcome State Fault Refusal :=
  uset (.tspk a k n) s (fun x s =>
    let w := sval s x a
    checked s x (tspkCauses x.t (sideOf s x) w n.toNat) (fun s =>
      enqueue x k { id := 0, word := x.word, kind := 8, a := w, n := n.toNat, slot := x.slot, op := 0 } {} s))

/-- A combination of R212. DESIGN CHOICE (log 126): an FP64 bypass names its source pair by an even number too. -/
def admitted (w : Word) (b : List Byte) : Bool :=
  let f8 (c : Nat) : Bool := c = 4 || c = 5
  let (op, af, bf, cf) := (blkOp b, fwAf w, fwBf w, fwCf w)
  (op < 2 && cf = 1 && ((f8 af && f8 bf) || (af = bf && (af = 2 || af = 3))))
    || (op = 0 && af = 1 && bf = 1 && cf = 1)
    || (op = 0 && af = 0 && bf = 0 && cf = 0 && blkCid b % 2 = 0 && (!blkByp b || blkSid b % 2 = 0))
    || (2 ≤ op && cf = 1 && (af = 2 || af = 3 || f8 af) && (bf = 6 || (op = 2 && bf = 7)))

/-- Check 3 of R213 (R211, R212). DESIGN CHOICE (log 127): bits 7:6 of PH are looked at only where a bypass takes its phase from it,
with BYP = 1 and DPS = 1. -/
def wordAndBlockOk (w : Word) (b : List Byte) : Bool :=
  w.extractLsb' 16 16 = 0 && fwRnd w ≠ 3 && (if blkOp b < 2 then fwG w = 0 else fwG w ≠ 3)
    && blkByte b 0 / 4 = 0 && blkByte b 1 / 32 % 4 = 0 && blkByte b 2 / 32 = 0 && blkByte b 3 / 16 = 0
    && blkM b ≤ 64 && decide (1 ≤ blkN b) && blkN b ≤ 64 && decide (1 ≤ blkK b) && blkK b ≤ 512 && blkByte b 8 / 4 = 0
    && (!(blkByp b && blkDps b) || blkPh b / 64 = 0)
    && (!blkArrive b || (blkTask b / 2 ^ 13 % 2 ^ 18 = 0 && blkAcnt b ≠ 0))
    && (b.drop 20).all (fun x => x = 0) && admitted w b

/-- Check 4 of R213. DESIGN CHOICE (log 126): SID + 1 of an FP64 bypass is held to the count as CID + 1 is. -/
def numbersOk (t : Team) (w : Word) (b : List Byte) : Bool :=
  let wide := fwCf w = 0
  blkAid b < t.tiles && blkBid b < t.tiles && decide (blkCid b + (if wide then 1 else 0) < t.accs)
    && (blkOp b % 2 = 0 || blkMid b < t.tiles) && (!blkByp b || decide (blkSid b + (if wide then 1 else 0) < t.accs))

/-- Check 5 of R213. -/
def shapesValid (d : Side) (b : List Byte) : Bool :=
  shapeUsable (queuedShape d (blkAid b)) && shapeUsable (queuedShape d (blkBid b))
    && (blkOp b % 2 = 0 || shapeUsable (queuedShape d (blkMid b)))

/-- Check 6 of R213: R214. -/
def shapesFit (d : Side) (w : Word) (b : List Byte) : Bool :=
  let sa := queuedShape d (blkAid b)
  let sb := queuedShape d (blkBid b)
  let sm := queuedShape d (blkMid b)
  !shLay sa && shEw sa = fmtEw (fwAf w) && blkM b ≤ shRows sa && blkK b ≤ shCols sa
    && shEw sb = fmtEw (fwBf w) && blkN b ≤ shRows sb && blkK b ≤ shCols sb && shLay sb = (blkOp b % 2 = 1 : Bool)
    && (blkOp b % 2 = 0 || (shEw sm = 1 && shCols sm = 256 && blkN b ≤ shRows sm))
    && (!blkByp b || blkK b ≤ 64)

/-- Checks 3 to 7 of R213: the vector, cause and address of the first that fails. -/
def mxgoFault (s : State) (t : Team) (d : Side) (w : Word) (b : List Byte) : Option (Nat × Nat × Nat) :=
  if !wordAndBlockOk w b then some (0x080, 2, 0)
  else if t.det && blkByp b && fwRnd w = 2 && !blkDps b then some (0x400, 6, 0)
  else if blkM b ≠ 0 && !numbersOk t w b then some (0x080, 3, 0)
  else if blkM b ≠ 0 && !shapesValid d b then some (0x000, 12, 0)
  else if blkM b ≠ 0 && !shapesFit d w b then some (0x080, 4, 0)
  else if blkArrive b && !slotIn s t.ctx (blkTask b % 2 ^ 13) then some (0x100, 5, blkTask b % 2 ^ 13)
  else none

/-- MXGO's lanes wait at its unit until the block's line is present (R213). -/
def parkMxgo (x : Ix) (loc : Nat) (s : State) : State :=
  match s.group? x.core x.slot with
  | none => s
  | some g =>
    let want : Want := { kind := .mxgo, addr := loc, n := 64, unit := x.b.unit, word := x.word, pfx := x.pfx }
    s.setGroup (g.upd x.act (fun _ l => { l with park := .presence, want := some want, pc := x.b.unit, next := x.nextPc }))

/-- R211-R213. -/
def execMxgo (a : VReg) (r : SReg) (k : Tok) (s : State) : Host.Outcome State Fault Refusal :=
  lset (.mxgo a r k) s (fun x s =>
    match s.group? x.core x.slot with
    | none => s
    | some g =>
      let ls := lanesIn x.act
      let lead := ls.headD 0
      let w := (g.lane lead).reg a.toNat
      let off := g.scalarFor (g.lane lead) r.toNat
      let all (vec cause addr : Nat) (s : State) : State :=
        raiseUnit x true (ls.map (fun j => { lane := j, vec := vec, cause := cause, addr := BitVec.ofNat 64 addr })) s
      if ls.any (fun j => (g.lane j).reg a.toNat ≠ w) then all 0x080 1 0 s
      else
        match verdict s x.t x.core g.fe.sq .scratch .load off.toNat 64 with
        | .hit vec c => all vec c off.toNat s
        | .park loc => raiseUnit x false [] (parkMxgo x loc s)
        | .go loc _ =>
          let blk := s.loadBytes x.core g.fe.sq loc 64
          match mxgoFault s x.t (sideOf s x) w blk with
          | some (vec, c, addr) => all vec c addr s
          | none =>
            let own := blkByp blk && fwRnd w = 2 && !blkDps blk
            let phi := if blkDps blk then blkPh blk % 64 else g.phase x.act
            let s1 := if own && blkM blk ≠ 0 then s.setGroup (advancePhase g x.act 1) else s
            raiseUnit x false [] (enqueue x k
              { id := 0, word := x.word, kind := 10, a := off, b := w.setWidth 64, slot := x.slot, op := 0, block := blk, phi := phi
                lane := lead, addr := x.b.unit.setWidth 64 } {} s1)) 1 (LInstr.mxgo a r k).use true

end Sys2Proof.Machine
end

