-- ==== Sys2Proof/Machine/Engines.lean ====
section
/-! DEFINITION. Team copies and operations at the Cupola banks (R219-R224): the checks of a slice, the start and the
completion of an instance, and CUPOP. -/

namespace Sys2Proof.Machine

/-! ### Pieces of ranges -/

/-- Where a virtual range lies, cut at its pages: location and length. -/
def virtPieces (s : State) (ctx va n : Nat) : List (Nat × Nat) :=
  (pagesOf va n).filterMap (fun p =>
    let lo := max p va
    match xlate s ctx lo with
    | .ok q => some (q.loc, min (p + 0x10000) (va + n) - lo)
    | .fault _ => none)

/-- Whether any piece of one list overlaps one of another. -/
def piecesMeet (xs ys : List (Nat × Nat)) : Bool := xs.any (fun x => ys.any (fun y => overlaps x.1 x.2 y.1 y.2))

/-- The narrowest scope that covers pieces, for a thread of a core (R144, R148). -/
def pieceScope (core : Nat) (xs : List (Nat × Nat)) : Nat :=
  xs.foldl (fun m p => max m (if isScratch p.1 then (if (p.1 - scratchBase) / 0x200000 = core then 1 else 2) else scopeOf p.1)) 1

/-- A step moved to another place in a transfer. -/
def AStep.shift (n : Nat) : AStep → AStep
  | .read l k o t => .read l k (o + n) t
  | .write l k o t => .write l k (o + n) t
  | .elem d o e p c t => .elem d (o + n) e p c t

/-! ### The checks of a slice (R221) -/

/-- What a check finds: trap, wait for a target's answer, or go on. -/
inductive SliceCheck where
  | trap (vec cause : Nat) (addr : DWord)
  | wait
  | ok
  deriving DecidableEq, Repr

/-- The first of a list of conditions that fails. -/
def firstBad : List (Bool × Nat × DWord) → Option (Nat × DWord)
  | [] => none
  | (bad, c, a) :: rest => if bad then some (c, a) else firstBad rest

/-- An ARRIVE descriptor that is illegal (R219). -/
def arvIllegal (d : DWord) : Bool := d.extractLsb' 13 18 ≠ 0 || (arvOn d && arvCount d = 0)

/-- Checks 1 and 2 of a CPY slice. -/
def cpyEarly (s : State) (t : Team) (core fn : Nat) (a b n desc : DWord) : Option (Nat × DWord) :=
  let high (v : DWord) : Bool := v.extractLsb' 48 16 ≠ 0
  let odd (v : DWord) : Bool := v.toNat % 4 ≠ 0
  let out (v : DWord) : Bool := (scratchAt t core v.toNat n.toNat).isNone
  let long (v : DWord) : Bool := decide (2 ^ 48 < v.toNat + n.toNat)
  firstBad [(fn ≠ 1 && high a, 1, a), (fn ≠ 0 && high b, 1, b), (odd a, 2, a), (odd b, 2, b), (odd n, 2, n),
    (if fn = 1 then out a else long a, 1, a), (if fn = 0 then out b else long b, 1, b),
    (arvOn desc && !slotIn s t.ctx (arvSlot desc), 5, BitVec.ofNat 64 (arvSlot desc))]

/-- Check 3 of a CPY slice: it waits until every page of each aperture range has been checked at its target, and then the first
operand that fails decides (R354). -/
def cpyPages (s : State) (t : Team) (fn : Nat) (a b n : DWord) : SliceCheck :=
  let src := if fn = 1 then none else rangeFault s t.ctx a.toNat n.toNat .read
  let dst := if fn = 0 then none else rangeFault s t.ctx b.toNat n.toNat .write
  if (fn ≠ 1 && rangeUnanswered s t.ctx a.toNat n.toNat) || (fn ≠ 0 && rangeUnanswered s t.ctx b.toNat n.toNat) then .wait
  else
    match src, dst with
    | some c, _ => .trap 0x100 c a
    | none, some c => .trap 0x100 c b
    | none, none => .ok

/-- A side of a slice: its parts by line, its pieces, and its range-lock entry. -/
def sliceSide (s : State) (t : Team) (core : Nat) (virt dst : Bool) (v : DWord) (n : Nat) :
    List (Nat × Nat × Nat × Bool) × List (Nat × Nat) × List (Bool × Nat × Nat × Nat) :=
  if n = 0 then ([], [], [])
  else if virt then (virtParts s t.ctx v.toNat n 0, virtPieces s t.ctx v.toNat n, [(dst, 3, v.toNat, n)])
  else
    match scratchRange t core v.toNat n with
    | some (loc, sp, base) => ((lineParts (n / 64 + 2) loc n 0).map (fun p => (p.1, p.2.1, p.2.2, false)), [(loc, n)], [(dst, sp, base, n)])
    | none => ([], [], [])

/-- A slice that has passed its checks. -/
def mkSlice (s : State) (x : Ix) (fn grp : Nat) (a b n desc : DWord) : Slice :=
  let src := sliceSide s x.t x.core (fn ≠ 1) false a n.toNat
  let dst := sliceSide s x.t x.core (fn ≠ 0) true b n.toNat
  { fn := fn, a := a, b := b, len := n, desc := desc, core := x.core, slot := x.slot, grp := grp, op := 0
    steps := src.1.map (fun p => .read p.1 p.2.1 p.2.2.1 p.2.2.2) ++ dst.1.map (fun p => .write p.1 p.2.1 p.2.2.1 p.2.2.2)
    scope := max (pieceScope x.core src.2.1) (pieceScope x.core dst.2.1)
    pages := ((if fn = 1 then [] else pagesOf a.toNat n.toNat) ++ (if fn = 0 then [] else pagesOf b.toNat n.toNat)).map (BitVec.ofNat 48)
    locks := src.2.2 ++ dst.2.2, whole := piecesMeet src.2.1 dst.2.1 }

/-! ### Instances (R220, R222, R223) -/

/-- Slices by increasing group index. -/
def insertByGroup (x : Slice) : List Slice → List Slice
  | [] => [x]
  | y :: ys => if x.grp ≤ y.grp then x :: y :: ys else y :: insertByGroup x ys

/-- Whether every live group of a team has supplied a slice of an instance (R220). -/
def instanceFull (s : State) (teamId number : Nat) : Bool :=
  (s.groups.filter (fun g => g.team = teamId && g.liveLanes ≠ 0)).all (fun g => number < g.cpys)

/-- The steps of slices, one after another in one transfer. -/
def joinSteps : Nat → List Slice → List AStep
  | _, [] => []
  | n, x :: xs => x.steps.map (AStep.shift n) ++ joinSteps (n + x.len.toNat) xs

/-- The virtual address at which a step of a slice reads or writes. -/
def Slice.stepVa (x : Slice) : AStep → Nat
  | .read _ _ o _ => x.a.toNat + o
  | .write _ _ o _ => x.b.toNat + o
  | .elem _ o _ _ _ _ => x.b.toNat + o

/-- Steps by increasing virtual address. -/
def insertByVa (x : Nat × AStep) : List (Nat × AStep) → List (Nat × AStep)
  | [] => [x]
  | y :: ys => if x.1 ≤ y.1 then x :: y :: ys else y :: insertByVa x ys

/-- The steps of slices that reach TSO pages, each with its virtual address. -/
def tsoSteps : Nat → List Slice → List (Nat × AStep)
  | _, [] => []
  | n, x :: xs => (x.steps.filter (fun st => st.tsoRead || st.tsoWrite)).map (fun st => (x.stepVa st, st.shift n)) ++ tsoSteps (n + x.len.toNat) xs

/-- The steps of an instance: those that reach TSO pages go by increasing address over all its slices (R153). -/
def instanceSteps (slices : List Slice) : List AStep :=
  let all := joinSteps 0 slices
  if slices.length ≤ 1 then all
  else all.filter (fun st => !(st.tsoRead || st.tsoWrite)) ++ ((tsoSteps 0 slices).foldr insertByVa []).map (·.2)

/-- Whether the range-lock and journal entries of an instance are free (check 4 of R221, R253, R317); `mine` is the number under
which it waits, if it does. -/
def instanceFits (s : State) (mine : Option Nat) (slices : List Slice) : Bool :=
  (upFrom 0 Config.cores).all (fun core =>
    mayLock s core mine (((slices.filter (fun x => x.core = core)).map (fun x => x.locks.length)).foldl (· + ·) 0))
    && s.journal.length + slices.length ≤ Config.journalEntries

/-- The releases of an instance's suppliers (R147, R148), and whether all are complete. -/
def releaseAll (scope : Nat) : List (Nat × Nat) → State → State × Bool
  | [], s => (s, true)
  | (core, slot) :: rest, s =>
    let (s1, ok) := release s core slot scope
    let (s2, ok2) := releaseAll scope rest s1
    (s2, ok && ok2)

/-- The scope of an instance. -/
def instanceScope (slices : List Slice) : Nat := slices.foldl (fun m x => max m x.scope) 1

/-- The scratchpad lines of a destination entry of a slice. -/
def sliceLines (t : Team) (x : Slice) : List Nat :=
  x.locks.flatMap (fun l =>
    if l.1 && l.2.1 ≤ 1 then
      let core := if l.2.1 = 1 then partnerOf x.core else x.core
      linesOf (scratchLoc core ((t.side core).base * 64 + l.2.2.1)) l.2.2.2
    else [])

/-- Whether a slice writes outside every out or inout region (R223). -/
def sliceLoses (t : Team) (x : Slice) : Bool := x.fn ≠ 0 && x.len ≠ 0 && !inOutRegion t x.b.toNat x.len.toNat

/-- An instance starts (R220, R223): its agent takes its ranges, journal entries and presence bits. -/
def startInstance (s : State) (t : Team) (number : Nat) (slices0 : List Slice) : State :=
  let slices := slices0.foldr insertByGroup []
  let scope := instanceScope slices
  let id := s.ids
  let s1 := slices.foldl (fun s x => match s.front? x.core x.slot with
    | some f => s.setFront x.core x.slot (f.updOp x.op (fun o => { o with scope := scope }))
    | none => s) s.fresh
  let lead := slices.headD {}
  let agent : Agent :=
    { id := id, kind := 0, ctx := t.ctx, task := t.slot, team := some t.id, core := lead.core, slot := lead.slot, scope := scope
      steps := instanceSteps slices, whole := slices.any (·.whole) ||
        slices.any (fun x => slices.any (fun y => x.op ≠ y.op && piecesMeet
          (x.steps.filterMap (fun st => match st with | .read l k _ _ => some (l, k) | _ => none))
          (y.steps.filterMap (fun st => match st with | .write l k _ _ => some (l, k) | _ => none))))
      lines := slices.flatMap (sliceLines t), pages := slices.flatMap (·.pages)
      fin := .cpy (slices.map (fun x => (x.core, x.slot, x.op)))
        ((slices.filter (fun x => arvOn x.desc)).map (fun x => (arvSlot x.desc, BitVec.ofNat 32 (arvCount x.desc)))) }
  let locks : List RangeLock := slices.flatMap (fun x => x.locks.map (fun l =>
    { core := x.core, dst := l.1, sp := l.2.1, ctx := t.ctx, kind := 0, base := l.2.2.1, len := l.2.2.2, owner := x.slot
      team := t.id, agent := id }))
  let entries : List JournalEntry := slices.map (fun x =>
    { kind := 0, ctx := t.ctx, slot := t.slot, fn := x.fn, grp := x.grp, team := t.index, src := x.a, dst := x.b, len := x.len
      arv := x.desc, inst := BitVec.ofNat 64 number, agent := id, teamId := some t.id, op := x.op })
  let s2 := s1.startAgent agent locks
  let s3 := { s2 with journal := s2.journal ++ entries }
  if slices.any (sliceLoses t) then loseStanding s3 t.id else s3

/-! ### Slices that are checked again (R222, R320, R329) -/

/-- The slot of the group or lantern of a team that holds an operation. -/
def holderOf (s : State) (teamId op : Nat) : Option (Nat × Nat) :=
  match s.groups.find? (fun g => g.team = teamId && g.fe.ops.any (fun o => o.id = op)) with
  | some g => some (g.core, g.slot)
  | none => (s.lanterns.find? (fun l => l.team = teamId && l.fe.ops.any (fun o => o.id = op))).map (fun l => (l.core, l.slot))

/-- Whether every page of a slice, or region, that is reissued can be translated, and every target has answered (R221, R354). -/
def replayPasses (s : State) (ctx : Nat) (src dst : Bool) (a b n : Nat) : Bool :=
  !(src && ((rangeFault s ctx a n .read).isSome || rangeUnanswered s ctx a n)) &&
    !(dst && ((rangeFault s ctx b n .write).isSome || rangeUnanswered s ctx b n))

/-- The translations of the slices that are checked again. -/
def touchAgain (ctx : Nat) (slices : List Slice) (s : State) : State :=
  (slices.filter (·.again)).foldl (fun s x =>
    let s1 := if x.fn ≠ 1 then s.touchRange ctx x.a.toNat x.len.toNat else s
    if x.fn ≠ 0 then s1.touchRange ctx x.b.toNat x.len.toNat else s1) s

/-- Whether a slice may start, as its pages stand. -/
def Slice.passes (s : State) (ctx : Nat) (x : Slice) : Bool :=
  !x.again || replayPasses s ctx (x.fn ≠ 1) (x.fn ≠ 0) x.a.toNat x.b.toNat x.len.toNat

/-- A slice as it is reissued from its first byte, with the translations that it finds now. -/
def Slice.renew (s : State) (t : Team) (x : Slice) : Slice :=
  if !x.again then x
  else
    match holderOf s t.id x.op with
    | some (core, slot) =>
      let ix : Ix := { b := { core := core, slot := slot, unit := 0, pos := 0 }, core := core, slot := slot, t := t, act := 0, word := 0 }
      { mkSlice s ix x.fn x.grp x.a x.b x.len x.desc with op := x.op }
    | none => x

/-- A slice is supplied (R220): its token counts it; the last one starts the instance in the same step, and a lantern's
is an instance by itself. While a slice that a restore brought back does not pass its checks again, the instance waits for its start
(log 57). -/
def supply (x : Ix) (k : Tok) (sl : Slice) (s0 : State) : State :=
  let number := if x.lan then ((s0.lantern? x.core x.slot).map (·.cpys)).getD 0 else ((s0.group? x.core x.slot).map (·.cpys)).getD 0
  let given := if x.lan then [] else
    ((((s0.team? x.t.id).getD x.t).insts.find? (fun n => n.number = number)).map (·.slices)).getD []
  let counted : State := if x.lan then s0 else
    match s0.group? x.core x.slot with
    | some g => s0.setGroup { g with cpys := g.cpys + 1 }
    | none => s0
  let last := x.lan || instanceFull counted x.t.id number
  let s := if last then touchAgain x.t.ctx given s0 else s0
  let full := last && given.all (·.passes s x.t.ctx)
  let others := if full then given.map (·.renew s x.t) else given
  let all := others ++ [sl]
  if full && !instanceFits s (ticketOf s x) all then
    let s1 := waitForLocks s x
    match s1.team? x.t.id with
    | some t => s1.setTeam { t with insts := t.insts.map (fun n => if !x.lan && n.number = number then { n with ticket := ticketOf s1 x } else n) }
    | none => s1
  else
    let scope := if full then instanceScope all else sl.scope
    let (s1, ok) := releaseAll scope (if full then all.map (fun y => (y.core, y.slot)) else [(x.core, x.slot)]) s
    if !ok then standAgain s1 x
    else
      let s2 := leaveLocks s1 x
      let opId := s2.ids
      let s3 := startOp s2 x.core x.slot
        { id := opId, tok := k, inH := x.h, lanes := x.act, owed := true, scope := sl.scope }
      let s4 : State := if x.lan then
          (match s3.lantern? x.core x.slot with
           | some l => s3.setLantern { l with cpys := l.cpys + 1 }
           | none => s3)
        else
          (match s3.group? x.core x.slot with
           | some g => s3.setGroup { g with cpys := g.cpys + 1 }
           | none => s3)
      let mine := { sl with op := opId }
      match s4.team? x.t.id with
      | none => s4
      | some t =>
        if full then
          let kept := if x.lan then t.insts else t.insts.filter (fun n => n.number ≠ number)
          startInstance (s4.setTeam { t with insts := kept }) t number (others ++ [mine])
        else
          let new : CpyInst := { number := number, slices := others ++ [mine] }
          s4.setTeam { t with insts := t.insts.filter (fun n => n.number ≠ number) ++ [new] }

/-- An instance that a retiring group has left, and that every live group has supplied, starts (R220). -/
def startWaiting (s0 : State) (teamId : Nat) : State :=
  match s0.team? teamId with
  | none => s0
  | some t =>
    match t.insts.find? (fun n => instanceFull s0 teamId n.number) with
    | none => s0
    | some n =>
      let s := touchAgain t.ctx n.slices s0
      let slices := n.slices.map (·.renew s t)
      if !(n.slices.all (·.passes s t.ctx)) then s
      else if instanceFits s n.ticket slices then
        let (s1, ok) := releaseAll (instanceScope slices) (slices.map (fun y => (y.core, y.slot))) s
        if ok then
          match s1.team? teamId with
          | some t1 => startInstance (s1.setTeam { t1 with insts := t1.insts.filter (fun m => m.number ≠ n.number) }) t1 n.number slices
          | none => s1
        else s1
      else if n.ticket.isSome then s
      else
        (s.setTeam { t with insts := t.insts.map (fun m => if m.number = n.number then { m with ticket := some s.ids } else m) }).fresh

/-- An instance completes (R222, R223). Its ARRIVEs are a release of its suppliers at device scope (R147). -/
def completeInstance (s : State) (id : Nat) : State :=
  match s.agents.find? (fun a => a.id = id) with
  | none => s
  | some a =>
    match a.fin with
    | .cpy ops arrives =>
      let (s0, ok) := if arrives = [] then (s, true) else releaseAll 4 (ops.map (fun o => (o.1, o.2.1))) s
      if a.steps = [] && ok then
        let s1 := ops.foldl (fun s o => s.opDone o.1 o.2.1 o.2.2) s0
        let s2 := s1.dropAgent a
        let s3 := { s2 with journal := s2.journal.filter (fun j => j.agent ≠ id) }
        let s4 := arrives.foldl (fun s r => arriveTask s r.1 r.2.toNat) s3
        match a.team with
        | some t => if arrives = [] then s4 else loseStanding s4 t
        | none => s4
      else if a.steps = [] then s0
      else s
    | _ => s

/-! ### CPY -/

/-- CPY of a form (R219-R221). -/
def cpyWord (i : UInstr) (fn : Nat) (a b : SReg) (k : Tok) (s : State) : Host.Outcome State Fault Refusal :=
  uset i s (fun x s =>
    let va := sval s x a
    let vb := sval s x (a + 1)
    let n := sval s x (a + 2)
    let desc := sval s x b
    if arvIllegal desc then trapUnit s x 0 10
    else
      match cpyEarly s x.t x.core fn va vb n desc with
      | some (c, addr) => trapUnit s x 0x100 c addr
      | none =>
        let s1 := if fn = 1 then s else s.touchRange x.t.ctx va.toNat n.toNat
        let s2 := if fn = 0 then s1 else s1.touchRange x.t.ctx vb.toNat n.toNat
        match cpyPages s2 x.t fn va vb n with
        | .trap vec c addr => trapUnit s2 x vec c addr
        | .wait => waitAtUnit s2 x .wait .target
        | .ok => supply x k (mkSlice s2 x fn (if x.lan then 0 else ((s2.group? x.core x.slot).map (·.index)).getD 0) va vb n desc) s2)

/-- R219-R223. -/
def execCpyIn (a b : SReg) (k : Tok) (s : State) : Host.Outcome State Fault Refusal := cpyWord (.cpyIn a b k) 0 a b k s

/-- R219-R223. -/
def execCpyOut (a b : SReg) (k : Tok) (s : State) : Host.Outcome State Fault Refusal := cpyWord (.cpyOut a b k) 1 a b k s

/-- R219-R223. -/
def execCpyCc (a b : SReg) (k : Tok) (s : State) : Host.Outcome State Fault Refusal := cpyWord (.cpyCc a b k) 2 a b k s

/-! ### CUPOP (R224) -/

/-- Bytes of an element. -/
def cupBytes (op : Nat) : Nat := if op = 1 || op = 5 || op = 7 then 8 else 4

/-- The steps of a CUPOP: its source by lines, then its elements in address order. -/
def cupSteps (s : State) (ctx op : Nat) (c : DWord) (dst src n : Nat) : List AStep :=
  let e := cupBytes op
  (if op < 2 then [] else (virtParts s ctx src (e * n) 0).map (fun p => AStep.read p.1 p.2.1 p.2.2.1 p.2.2.2)) ++
    (upFrom 0 n).map (fun i =>
      match xlate s ctx (dst + e * i) with
      | .ok p => .elem p.loc (e * i) e op c p.t
      | .fault _ => .elem cupolaBase (e * i) e op c false)

/-- R224. -/
def execCupop (a b : SReg) (k : Tok) (i : BitVec 5) (s : State) : Host.Outcome State Fault Refusal :=
  uset (.cupop a b k i) s (fun x s =>
    let op := i.toNat
    let e := cupBytes op
    let dst := sval s x a
    let src := sval s x (a + 1)
    let n := sval s x (a + 2)
    let c := sval s x b
    let len := e * n.toNat
    let fill := decide (op < 2)
    let out (v : DWord) : Bool := decide (Config.windowBytes < v.toNat + len)
    if x.t.det && decide (3 ≤ op) then trapUnit s x 0x400 2
    else
      match firstBad [(dst.toNat % e ≠ 0, 2, dst), (!fill && src.toNat % e ≠ 0, 2, src), (out dst, 1, dst), (!fill && out src, 1, src)] with
      | some (cause, addr) => trapUnit s x 0x100 cause addr
      | none =>
        let dva := Config.windowBase + dst.toNat
        let sva := Config.windowBase + src.toNat
        let s1 := s.touchRange x.t.ctx dva len
        let s2 := if fill then s1 else s1.touchRange x.t.ctx sva len
        match rangeFault s2 x.t.ctx dva len .write, (if fill then none else rangeFault s2 x.t.ctx sva len .read) with
        | some cause, _ => trapUnit s2 x 0x100 cause dst
        | none, some cause => trapUnit s2 x 0x100 cause src
        | none, none =>
          if !mayLock s2 x.core (ticketOf s2 x) (if len = 0 then 0 else if fill then 1 else 2) then waitForLocks s2 x
          else
            let (s3, ok) := release s2 x.core x.slot 4
            if !ok then standAgain s3 x
            else
              let s4 := leaveLocks s3 x
              if len = 0 then opAtOnce x k s4
              else
                let opId := s4.ids
                let s5 := startOp s4 x.core x.slot
                  { id := opId, tok := k, inH := x.h, lanes := x.act, owed := true, scope := 4 }
                let lock (d : Bool) (base : Nat) : RangeLock :=
                  { core := x.core, dst := d, sp := 2, ctx := x.t.ctx, kind := 1, base := base, len := len, owner := x.slot
                    team := x.t.id, agent := s5.ids }
                let agent : Agent :=
                  { id := s5.ids, kind := 1, ctx := x.t.ctx, task := x.t.slot, team := some x.t.id, core := x.core, slot := x.slot
                    scope := 4, steps := cupSteps s5 x.t.ctx op c dva sva n.toNat
                    whole := !fill && piecesMeet (virtPieces s5 x.t.ctx dva len) (virtPieces s5 x.t.ctx sva len)
                    pages := (pagesOf dva len ++ (if fill then [] else pagesOf sva len)).map (BitVec.ofNat 48)
                    fin := .op x.core x.slot opId }
                let s6 := (s5.fresh).startAgent agent (lock true dst.toNat :: (if fill then [] else [lock false src.toNat]))
                if !inOutRegion x.t dva len then loseStanding s6 x.t.id else s6)

end Sys2Proof.Machine
end

