-- ==== Sys2Proof/Machine/Placement.lean ====
section
/-! DEFINITION. The resources of cores and the refusal of records (R14, R228, R229, R244, R245, R285, R287, R342). -/

namespace Sys2Proof.Machine

/-! ### What a team takes on a core (R244, R245, R287) -/

/-- A team's footprint on one core. -/
structure Foot where
  groups  : Nat
  bay     : Nat := 0
  width   : Nat
  vregs   : Nat
  base    : Nat := 0
  lines   : Nat
  laneb   : Nat
  tiles   : Nat
  accs    : Nat
  kas     : Nat
  lantern : Bool
  deriving DecidableEq, Repr

/-- Slices of a physical lane (R245). -/
def Foot.slices (f : Foot) : Nat := if f.width = 16 then (f.groups + 7) / 8 else (f.groups + 3) / 4 * (f.width / 32)

/-- Groups of a footprint in a bay (R244). -/
def Foot.inBay (f : Foot) (b : Nat) : Nat := ((upFrom 0 f.groups).filter (fun g => (g + f.bay) % 4 = b)).length

/-- Groups of a team on its first core and on its partner core. -/
def groupsOf (gpt : Nat) (pair second : Bool) : Nat := if pair then (if second then gpt / 2 else (gpt + 1) / 2) else gpt

/-- What a record's teams take. -/
def footOf (r : List Byte) (second : Bool) : Foot :=
  { groups := groupsOf (recGpt r) (recPair r) second, width := recWidth r, vregs := recVregs r, lines := recScrl r, laneb := recLaneb r
    tiles := recTiles r, accs := recAccs r, kas := recKas r, lantern := recLantern r && !second }

/-- What a resident team takes. -/
def Team.foot (t : Team) (d : Side) : Foot :=
  { groups := groupsOf t.gpt t.pair (d.core ≠ t.core), bay := t.bayOff, width := t.width, vregs := t.vregs, base := d.base
    lines := t.lines, laneb := t.laneb, tiles := t.tiles, accs := t.accs, kas := t.kas, lantern := t.lantern && d.core = t.core }

/-- The footprints on a core: resident teams, and a gang's reservations (R290). -/
def footsOn (s : State) (core : Nat) : List Foot :=
  s.teams.flatMap (fun t => (t.sides.filter (fun d => d.core = core)).map t.foot) ++
  (match s.gang with
   | some g =>
     match s.task? g.slot with
     | some t => g.cores.flatMap (fun p =>
         (if p.core = core then [{ footOf t.record false with bay := p.bay, base := p.base }] else []) ++
         (if recPair t.record && p.core + 1 = core then [{ footOf t.record true with bay := p.bay, base := p.base2 }] else []))
     | none => []
   | none => [])

/-- Group slots in use on a core: a retired group's slot is free once it has left (R72), and reserved ones are taken. -/
def slotsUsed (s : State) (core : Nat) : Nat :=
  (s.groups.filter (fun g => g.core = core)).length +
  (match s.gang with
   | some g =>
     match s.task? g.slot with
     | some t => ((g.cores.map (fun p => (if p.core = core then groupsOf (recGpt t.record) (recPair t.record) false else 0) +
         (if recPair t.record && p.core + 1 = core then groupsOf (recGpt t.record) true true else 0))).foldl (· + ·) 0)
     | none => 0
   | none => 0)

def sumOf (f : Foot → Nat) (fs : List Foot) : Nat := (fs.map f).foldl (· + ·) 0

/-- Whether footprints fit together on a core but for their scratchpad lines. -/
def countsFit (fs : List Foot) (slots : Nat) : Bool :=
  slots ≤ Config.groupSlots &&
  (upFrom 0 4).all (fun b => sumOf (fun f => f.inBay b * f.width) fs ≤ Config.bayThreads
    && sumOf (fun f => f.inBay b * f.width * f.vregs * 4) fs ≤ Config.bayVregBytes) &&
  sumOf (fun f => f.laneb * f.slices) fs ≤ Config.laneBytes && sumOf (·.tiles) fs ≤ 32 && sumOf (·.accs) fs ≤ 16
    && sumOf (·.kas) fs ≤ Config.keyedEntries && sumOf (fun f => if f.lantern then 1 else 0) fs ≤ Config.lanternContexts

/-- Bases at which free runs of lines may begin. -/
def baseStarts (fs : List Foot) : List Nat := 0 :: fs.map (fun f => f.base + f.lines)

/-- The lowest base at which `n` contiguous lines are free. -/
def freeBase (fs : List Foot) (n : Nat) : Option Nat :=
  let ok := (baseStarts fs).filter (fun b => b + n ≤ Config.scratchLines &&
    fs.all (fun f => f.lines = 0 || n = 0 || !(overlaps b n f.base f.lines)))
  match ok with
  | [] => none
  | b :: bs => some (bs.foldl min b)

/-- Whether one more footprint fits on a core beside others; its base. -/
def fitBase (fs : List Foot) (slots : Nat) (f : Foot) : Option Nat :=
  if countsFit (f :: fs) (slots + f.groups) then freeBase fs f.lines else none

/-- Every place where a record's next team fits now. -/
def spotsFor (s : State) (r : List Byte) : List Spot :=
  (upFrom 0 Config.cores).flatMap (fun core =>
    if recPair r && core % 2 = 1 then []
    else (upFrom 0 4).filterMap (fun o =>
      match fitBase (footsOn s core) (slotsUsed s core) { footOf r false with bay := o } with
      | none => none
      | some b =>
        if recPair r then
          (fitBase (footsOn s (core + 1)) (slotsUsed s (core + 1)) { footOf r true with bay := o }).map (fun b2 =>
            { core := core, bay := o, base := b, base2 := b2 })
        else some { core := core, bay := o, base := b }))

/-- How many teams of `n` lines the free runs of a core hold. -/
def runsHold (fs : List Foot) (n : Nat) : Nat :=
  if n = 0 then Config.groupSlots
  else
    let starts := (baseStarts fs).foldl (fun l b => insertNat b l) []
    (starts.map (fun b =>
      if fs.any (fun f => f.base ≤ b && b < f.base + f.lines) then 0
      else ((fs.filter (fun f => b ≤ f.base && f.lines ≠ 0)).foldl (fun m f => min m f.base) Config.scratchLines - b) / n)).foldl (· + ·) 0

/-- Whether `n` teams of a record, so many with each bay offset, fit on a core. -/
def offsetsFit (fs : List Foot) (slots : Nat) (f : Foot) (ns : List Nat) : Bool :=
  let more := (upFrom 0 4).flatMap (fun o => List.replicate (ns.getD o 0) { f with bay := o })
  countsFit (more ++ fs) (slots + more.length * f.groups) && more.length ≤ runsHold fs f.lines

/-- Whether `n` teams of a record fit on a core, or a pair, at once. -/
def unitHolds (s : State) (r : List Byte) (core n : Nat) : Bool :=
  let one (core : Nat) (second : Bool) (ns : List Nat) : Bool :=
    offsetsFit (footsOn s core) (slotsUsed s core) (footOf r second) ns
  (upFrom 0 (n + 1)).any (fun a => (upFrom 0 (n - a + 1)).any (fun b => (upFrom 0 (n - a - b + 1)).any (fun c =>
    let ns := [a, b, c, n - a - b - c]
    one core false ns && (!recPair r || one (core + 1) true ns))))

/-- The most teams, up to `n`, that fit on a core or pair. -/
def unitMost (s : State) (r : List Byte) (core : Nat) : Nat → Nat
  | 0 => 0
  | n + 1 => if unitHolds s r core (n + 1) then n + 1 else unitMost s r core n

/-- Whether `n` teams of a record fit on the device at once (R285, R290). -/
def deviceHolds (s : State) (r : List Byte) (n : Nat) : Bool :=
  let units := (upFrom 0 Config.cores).filter (fun c => !recPair r || c % 2 = 0)
  n ≤ (units.map (fun c => unitMost s r c (min n Config.groupSlots))).foldl (· + ·) 0

/-- The same device with nothing resident or reserved. -/
def State.emptied (s : State) : State := { s with teams := [], groups := [], lanterns := [], gang := none }

/-! ### Regions (R229) -/

/-- A region entry as it stands in its 32 bytes. -/
def regionOf (b : List Byte) : Region :=
  { va := BitVec.ofNat 64 (natOf (b.take 8)), len := natOf ((b.drop 8).take 4), off := natOf ((b.drop 12).take 4), dir := natOf ((b.drop 16).take 1) }

/-- Whether an entry obeys R229. -/
def regionOk (r : List Byte) (b : List Byte) : Bool :=
  let g := regionOf b
  g.len % 64 = 0 && g.off % 64 = 0 && g.dir ≤ 2 && (b.drop 17).all (fun x => x = 0) && g.off + g.len ≤ recScrl r * 64

/-- The region table of a record: none when it cannot be read. -/
def regionTable (s : State) (ctx : Nat) (r : List Byte) : Option (List (List Byte)) :=
  (windowBytes s ctx (recRgn r) (32 * recNreg r)).map (fun bs => (upFrom 0 (recNreg r)).map (fun i => (bs.drop (32 * i)).take 32))

/-! ### Refusal -/

/-- Limits of a record that every kind uses (R228). -/
def recordLimits (r : List Byte) : Bool :=
  recNat r 0 1 < 5 && recFlags r < 128 && recNsucc r ≤ 8 && recNat r 23 1 = 0 && recNat r 63 1 = 0

/-- Limits of a grid, ragged or gang record (R228, R14). -/
def teamLimits (r : List Byte) : Bool :=
  recNreg r ≤ 8 && recEntry r % 4 = 0 && decide (1 ≤ recGpt r) && recGpt r ≤ 32 && recWidthCode r ≤ 2
    && decide (1 ≤ recVregs r) && recVregs r ≤ 128 && recTiles r ≤ 32 && recAccs r ≤ 16 && recKas r ≤ Config.keyedEntries
    && recScrl r ≤ Config.scratchLines && recLaneb r % 4 = 0 && recRgn r % 32 = 0 && recBmap r % 8 = 0
    && recGpt r * recWidth r ≤ 2048

/-- Whether one team of a record fits on an empty core, or an empty pair (R285). -/
def emptyFits (r : List Byte) : Bool :=
  (fitBase [] 0 (footOf r false)).isSome && (!recPair r || (fitBase [] 0 (footOf r true)).isSome)

/-- Bytes of an element of a collective's TYPE (R355). -/
def collBytes (type : Nat) : Nat := if type = 1 || type = 4 then 8 else if type = 2 then 2 else 4

def collOp (r : List Byte) : Nat := recArg r 0 % 256
def collType (r : List Byte) : Nat := recArg r 0 / 256 % 256
def collRed (r : List Byte) : Nat := recArg r 0 / 65536 % 256
def collE (r : List Byte) : Nat := recArg r 0 / 2 ^ 32
def collRank (r : List Byte) : Nat := recArg r 4 % 4096
def collN (r : List Byte) : Nat := recArg r 4 / 65536 % 8192

/-- Limits of a collective record (R355). -/
def collectiveLimits (r : List Byte) : Bool :=
  collOp r ≤ 2 && collType r ≤ 4 && (collOp r = 1 || collRed r ≤ 2) && recArg r 0 / 2 ^ 24 % 256 = 0 && decide (1 ≤ collE r)
    && recArg r 1 % collBytes (collType r) = 0 && recArg r 2 % collBytes (collType r) = 0
    && recArg r 4 / 4096 % 16 = 0 && recArg r 4 / 2 ^ 29 = 0 && decide (1 ≤ collN r) && collN r ≤ 4096 && collRank r < collN r
    && recArg r 5 < 2 ^ 32 && recArg r 6 < 2 ^ 32 && recArg r 6 % 8 = 0 && recArg r 7 = 0

/-- Whether the Belfry refuses a record of a context (R228, R229, R285, R342, R355). -/
def refused (s : State) (ctx : Nat) (r : List Byte) : Bool :=
  !recordLimits r || decide (cslotCeil (s.ctx ctx).cslot < recPriority r) || decide (1 < recNbv r) || (recDet r && recNbv r = 0)
    || (recKind r < 3 &&
      (!teamLimits r || !emptyFits r
        || (recKind r = 2 && !deviceHolds s.emptied r (recTeams r))
        || (recNreg r ≠ 0 && match regionTable s ctx r with
            | some es => es.any (fun e => !regionOk r e)
            | none => true)))
    || (recKind r = 4 && (!collectiveLimits r
      || (recDet r && (participants s ctx r).any (fun f => s.fabric.refusers.contains f))))

/-- The translations that a POST makes for a record's region table, or for its table of participants (R329, R330). -/
def touchTables (s : State) (ctx : Nat) (r : List Byte) : State :=
  if recKind r < 3 && recNreg r ≠ 0 then s.windowTouch ctx (recRgn r) (32 * recNreg r)
  else if recKind r = 4 && recDet r then s.windowTouch ctx (recArg r 5) (2 * collN r)
  else s

/-- Post a record (R233, R346): the result, and the machine after it. The lowest free slot is sought first, one that a completed task
has freed (R283) too (DEDUCED, log 129). -/
def postRecord (s0 : State) (ctx : Nat) (r : List Byte) : DWord × State :=
  let w := (s0.ctx ctx).cslot
  match (upFrom (cslotBase w) (cslotCount w)).find? (fun n => slotIn s0 ctx n && (s0.task? n).isNone) with
  | none => (0xFFFFFFFFFFFFFFFF, s0)
  | some n =>
    let s := touchTables s0 ctx r
    if refused s ctx r then (0xFFFFFFFFFFFFFFFE, s)
    else
      let zero := recCounter r = 0
      let t : Task :=
        { slot := n, ctx := ctx, state := if zero then .ready else .waiting, record := r, counter := BitVec.ofNat 32 (recCounter r)
          readyAt := if zero then s.readies else 0 }
      (BitVec.ofNat 64 n,
        (let s1 : State := { s with tasks := s.tasks ++ [t], readies := if zero then s.readies + 1 else s.readies }
         if zero then s1.readied t else s1).settled)

end Sys2Proof.Machine
end

