-- ==== Sys2Proof/Machine/TaskOps.lean ====
section
/-! DEFINITION. Task, barrier and decision-queue instructions (R36, R231-R238, R335, R337). -/

namespace Sys2Proof.Machine

/-! ### Records read by POST and APPEND -/

/-- The range a record is read from: its parts by line, or the cause of the fault (R160, R162, R233). -/
def recordRange (s : State) (x : Ix) (win : Bool) (off n : Nat) : Except Nat (List (Nat × Nat × Nat)) :=
  if win then
    if Config.windowBytes < off + n then .error 1
    else
      match rangeFault s x.t.ctx (Config.windowBase + off) n .read with
      | some c => .error c
      | none => .ok ((virtParts s x.t.ctx (Config.windowBase + off) n 0).map (fun p => (p.1, p.2.1, p.2.2.1)))
  else
    match scratchAt x.t x.core off n with
    | some loc => .ok (lineParts (n / 64 + 2) loc n 0)
    | none => .error 1

def touchWindow (s : State) (x : Ix) (win : Bool) (off n : Nat) : State :=
  if win && off + n ≤ Config.windowBytes then s.touchRange x.t.ctx (Config.windowBase + off) n else s

/-- Whether device code of a context may POST, APPEND and SEAL (R241). -/
def dpost (s : State) (ctx : Nat) : Bool := (s.ctx ctx).ctxc.getLsbD 2

/-- Release at device scope, then act; while an entry is held back, the issuer stands at its join again (R147). -/
def afterRelease (x : Ix) (s : State) (go : State → State) : State :=
  let (s1, ok) := release s x.core x.slot 4
  if ok then go s1 else standAgain s1 x

/-! ### POST, ARRIVE, APPEND, SEAL -/

/-- R233: the record is read by an agent; at its completion the slot is sought and the result goes to sb. -/
def execPost (a b : SReg) (k : Tok) (i : BitVec 5) (s : State) : Host.Outcome State Fault Refusal :=
  uset (.post a b k i) s (fun x s =>
    let off := sval s x a
    let win := i = 1
    if !dpost s x.t.ctx then trapUnit s x 0x100 5
    else if off.toNat % 64 ≠ 0 then trapUnit s x 0x100 2 off
    else
      let s1 := touchWindow s x win off.toNat 128
      match recordRange s1 x win off.toNat 128 with
      | .error c => trapUnit s1 x 0x100 c off
      | .ok parts =>
        afterRelease x s1 (fun s =>
          let opId := s.ids
          let s2 := startOp s x.core x.slot
            { id := opId, tok := k, inH := x.h, lanes := x.act, owed := true, scope := 4, dst := if b = 0 then [] else [.s b.toNat] }
          let agent : Agent :=
            { id := s2.ids, kind := 8, ctx := x.t.ctx, task := x.t.slot, team := some x.t.id, core := x.core, slot := x.slot, scope := 4
              steps := parts.map (fun p => .read p.1 p.2.1 p.2.2 false)
              pages := if win then (pagesOf (Config.windowBase + off.toNat) 128).map (BitVec.ofNat 48) else []
              fin := .post x.core x.slot opId b }
          loseStanding ((s2.fresh).startAgent agent []) x.t.id))

/-- A POST's record has been read (R233): a poisoned one is refused (log 50). -/
def finishPost (s : State) (a : Agent) (core slot op : Nat) (sd : SReg) : State :=
  let bytes := a.buf.read 0 128
  let (v, s1) := if a.bad ≠ [] then
      (if (postRecord s a.ctx bytes).1 = 0xFFFFFFFFFFFFFFFF then (0xFFFFFFFFFFFFFFFF, s) else (0xFFFFFFFFFFFFFFFE, s))
    else postRecord s a.ctx bytes
  (s1.dropAgent a).opResult core slot op (if sd = 0 then [] else [(.s sd.toNat, v)])

/-- R232, R234. -/
def execArrive (a b : SReg) (k : Tok) (s : State) : Host.Outcome State Fault Refusal :=
  uset (.arrive a b k) s (fun x s =>
    let slot := sval s x a
    let n := sval s x b
    if n.extractLsb' 32 32 ≠ 0 then trapUnit s x 0 10
    else if !slotIn s x.t.ctx slot.toNat then trapUnit s x 0x100 5 slot
    else afterRelease x s (fun s => opAtOnce x k (loseStanding (arriveTask s slot.toNat n.toNat) x.t.id)))

/-- Whether a slot holds a ragged task of a context (R232). -/
def raggedTask (s : State) (ctx : Nat) (slot : Nat) : Option Task :=
  if slotIn s ctx slot then (s.task? slot).bind (fun t => if t.ctx = ctx && recKind t.record = 1 then some t else none) else none

/-- A range of the window that APPEND reads or writes: the cause of its fault. -/
def windowFault (s : State) (ctx off n : Nat) (need : Need) : Option Nat :=
  if Config.windowBytes < off + n then some 1 else rangeFault s ctx (Config.windowBase + off) n need

/-- A ragged task that had no team to place before an APPEND may have one after it, and then enters the dispatch order (R286, R288). -/
def appended (before : State) (slot : Nat) (s : State) : State :=
  match s.task? slot with
  | some t => if ranks before t then s else s.enters t
  | none => s

/-- R235: the record and the count word change in one step. -/
def execAppend (a b : SReg) (k : Tok) (i : BitVec 5) (s : State) : Host.Outcome State Fault Refusal :=
  uset (.append a b k i) s (fun x s =>
    let slot := sval s x a
    let off := sval s x b
    let win := i = 1
    if !dpost s x.t.ctx then trapUnit s x 0x100 5 slot
    else
      match raggedTask s x.t.ctx slot.toNat with
      | none => trapUnit s x 0x100 5 slot
      | some task =>
        if task.sealed then trapUnit s x 0x100 5 slot
        else
          let s1 := touchWindow s x win off.toNat 32
          match recordRange s1 x win off.toNat 32 with
          | .error c => trapUnit s1 x 0x100 c off
          | .ok parts =>
            let base := recTeams task.record
            let s2 := s1.windowTouch x.t.ctx base 4
            match windowFault s2 x.t.ctx base 4 .both with
            | some c => trapUnit s2 x 0x100 c (BitVec.ofNat 64 base)
            | none =>
              afterRelease x s2 (fun s0 =>
                let n := match windowBytes s0 x.t.ctx base 4 with
                  | some bs => natOf bs
                  | none => 0
                let dst := base + 32 + 32 * n
                let s := s0.windowTouch x.t.ctx dst 32
                match windowFault s x.t.ctx dst 32 .write with
                | some c => trapUnit s x 0x100 c (BitVec.ofNat 64 dst)
                | none =>
                  let bytes := parts.flatMap (fun p => s.bytes p.1 p.2.1)
                  let bad := parts.any (fun p => s.anyPoison p.1 p.2.1)
                  let s2 := (windowWrite s x.t.ctx dst bytes).getD s
                  let s3 := if bad then (virtPieces s2 x.t.ctx (Config.windowBase + dst) 32).foldl (fun s p =>
                      (unitsOf p.1 p.2).foldl (fun s u => s.poison1 u) s) s2 else s2
                  let s4 := (windowWrite s3 x.t.ctx base (bytesOf 4 (n + 1))).getD s3
                  opAtOnce x k (loseStanding (appended s0 slot.toNat s4) x.t.id)))

/-- R235. -/
def execSeal (a : SReg) (k : Tok) (s : State) : Host.Outcome State Fault Refusal :=
  uset (.seal a k) s (fun x s =>
    let slot := sval s x a
    if !dpost s x.t.ctx then trapUnit s x 0x100 5 slot
    else
      match raggedTask s x.t.ctx slot.toNat with
      | none => trapUnit s x 0x100 5 slot
      | some _ =>
        afterRelease x s (fun s =>
          match s.task? slot.toNat with
          | some t => opAtOnce x k (loseStanding (closeTask (s.setTask { t with sealed := true }) slot.toNat) x.t.id).settled
          | none => s))

/-! ### WAITBM (R236, R335) -/

/-- Whether a bit is of the task's own bitmap, at or above the team's own index (code 4 of R335). -/
def ownLaterBit (s : State) (t : Team) (a : Nat) (bit : Nat) : Bool :=
  match s.task? t.slot with
  | none => false
  | some task =>
    let bmap := recBmap task.record
    let ragged := recKind task.record = 1
    let own := if ragged then t.recIdx else t.index
    let b := 8 * (a - bmap) + bit
    bmap ≤ a && b < (if ragged then 2 ^ 32 else recTeams task.record) && own ≤ b

/-- Whether a bit of memory is set. -/
def bitSet (s : State) (loc bit : Nat) : Bool := (s.byte loc).getLsbD bit

/-- R236. -/
def execWaitbm (a b : SReg) (s : State) : Host.Outcome State Fault Refusal :=
  uset (.waitbm a b) s (fun x s =>
    let sb := sval s x b
    let off := sval s x a + (sb >>> 3)
    let bit := sb.toNat % 8
    if x.t.det && ownLaterBit s x.t off.toNat bit then trapUnit s x 0x400 4
    else if Config.windowBytes ≤ off.toNat then trapUnit s x 0x100 1 off
    else
      let s1 := s.touch x.t.ctx (Config.windowBase + off.toNat)
      match windowPage s1 x.t.ctx off.toNat .read with
      | .fault c => trapUnit s1 x 0x100 c off
      | .ok p => if bitSet s1 p.loc bit then s1.acquire x.core 4 else waitAtUnit s1 x .bitmap (.bitmap off.toNat bit))

/-- A group or lantern parked on a bit that is set proceeds, with an acquire (R236). DEDUCED (log 111): each look translates the
window byte again, with the walk that this takes, so that no removed translation is used (R328, R330, R331). -/
def waitbmGo (s0 : State) (core slot : Nat) (w : Waiting) : State :=
  match w, s0.teamOf core slot with
  | .bitmap off bit, some t =>
    let s := s0.touch t.ctx (Config.windowBase + off)
    match windowPage s t.ctx off .read with
    | .ok p => if bitSet s p.loc bit then goOn (s.acquire core 4) core slot else s
    | .fault _ => s
  | _, _ => s0

/-! ### Barriers (R237) -/

/-- The live groups of a team. -/
def liveGroups (s : State) (team : Nat) : List Group := s.groups.filter (fun g => g.team = team && g.liveLanes ≠ 0)

def waitsBarrier : Waiting → Option Nat
  | .barrier sc => some sc
  | _ => none

/-- The barrier that every live group of the team has reached completes: each goes on, with an acquire at its scope. -/
def finishBarrier (s : State) (team : Nat) : State :=
  let gs := liveGroups s team
  if gs ≠ [] && gs.all (fun g => (waitsBarrier g.waiting).isSome) then
    gs.foldl (fun s g => goOn (s.acquire g.core ((waitsBarrier g.waiting).getD 1)) g.core g.slot) s
  else s

/-- A barrier instruction: release at its scope, then wait for the other groups. -/
def barrierWord (i : UInstr) (scope : Nat) (s : State) : Host.Outcome State Fault Refusal :=
  uset i s (fun x s =>
    let (s1, _) := release s x.core x.slot scope
    finishBarrier (waitAtUnit s1 x .wait (.barrier scope)) x.t.id)

/-- R237. -/
def execTbar (s : State) : Host.Outcome State Fault Refusal := barrierWord .tbar 1 s

/-- R237. -/
def execPbar (s : State) : Host.Outcome State Fault Refusal := barrierWord .pbar 2 s

/-! ### The decision queue (R36, R238, R337) -/

/-- Whether a team's queue delivers all ones when it is empty (R36, R238). -/
def queueClosed (t : Team) : Bool := !t.lantern || t.lanternRetired

/-- Entries of a decision queue (R21), and token-form operations held (R238). -/
def queueRoom : Nat := 16
def heldRoom : Nat := 32

/-- DQPUSH acts: a token-form operation is held, one without a token enters the queue, or
parks the lantern while it is full. -/
def pushBody (a : SReg) (k : Tok) (x : Ix) (s : State) : State :=
  let v := sval s x a
  match s.team? x.t.id with
  | none => s
  | some t =>
    if k ≠ 15 && heldRoom ≤ t.held.length then standAgain s x
    else
      let (s1, _) := release s x.core x.slot 1
      if k ≠ 15 then
        let s2 := startOp s1 x.core x.slot { id := s1.ids, tok := k, inH := x.h, lanes := x.act, owed := true, scope := 1 }
        let h : HeldOp := { push := true, slot := x.slot, core := x.core, sa := a, tok := k, op := s1.ids, value := v }
        match s2.team? x.t.id with
        | some t => s2.setTeam { t with held := t.held ++ [h] }
        | none => s2
      else if t.dq.length < queueRoom && !(t.held.any (·.push)) then
        match s1.team? x.t.id with
        | some t => s1.setTeam { t with dq := t.dq ++ [v] }
        | none => s1
      else waitAtUnit s1 x .queue (.push v)

/-- DQPOP acts: a token-form operation is held; one without a token parks the group until its entry comes. -/
def popBody (a : SReg) (k : Tok) (x : Ix) (s : State) : State :=
  match s.team? x.t.id with
  | none => s
  | some t =>
    if k ≠ 15 then
      if heldRoom ≤ t.held.length then standAgain s x
      else
        let s2 := startOp s x.core x.slot
          { id := s.ids, tok := k, inH := x.h, lanes := x.act, owed := true, scope := 1, dst := if a = 0 then [] else [.s a.toNat] }
        let h : HeldOp := { push := false, slot := x.slot, core := x.core, sa := a, tok := k, op := s.ids }
        match s2.team? x.t.id with
        | some t => s2.setTeam { t with held := t.held ++ [h] }
        | none => s2
    else waitAtUnit s x .queue (.queue a)

/-- The team's number of a group's slot. -/
def groupIndex (s : State) (core slot : Nat) : Nat := ((s.group? core slot).map (·.index)).getD 0

/-- The rotation index of a deterministic team, past groups that have retired (R337). -/
def rotation (s : State) (t : Team) : Nat :=
  let ls := liveIndexes s t.id t.core ++ (if t.pair then liveIndexes s t.id (t.core + 1) else [])
  let ls := ls.foldl (fun l i => insertNat i l) []
  if ls.contains t.rot then t.rot else indexAfter ls t.rot

/-- A pop that waits: the group's slot, and the held operation if it has a token. -/
def waitsPop : Waiting → Option SReg
  | .queue a => some a
  | _ => none

/-- The pops of a team that may take the next entry, in order: by group index, each group's in order of issue (R36,
R238, R337). -/
def nextPop (s : State) (t : Team) : Option (Nat × Nat × SReg × Option HeldOp) :=
  let gs := s.groups.filter (fun g => g.team = t.id && (!t.det || (liveGroups s t.id) = [] || g.index = rotation s t))
  let cand : List (Nat × Nat × Nat × SReg × Option HeldOp) := gs.filterMap (fun g =>
    match t.held.find? (fun h => !h.push && h.core = g.core && h.slot = g.slot) with
    | some h => some (g.index, g.core, g.slot, h.sa, some h)
    | none => (waitsPop g.waiting).map (fun a => (g.index, g.core, g.slot, a, none)))
  cand.foldl (fun r c => match r with
    | none => some (c.2.1, c.2.2.1, c.2.2.2.1, c.2.2.2.2)
    | some b => if c.1 < groupIndex s b.1 b.2.1 then some (c.2.1, c.2.2.1, c.2.2.2.1, c.2.2.2.2) else some b) none

/-- The lantern's next push: a held one first, in order of issue, then the one it is parked on. -/
def nextPush (s : State) (t : Team) : Option (DWord × Option HeldOp) :=
  match t.held.find? (·.push) with
  | some h => some (h.value, some h)
  | none => (s.lanterns.find? (fun l => l.team = t.id)).bind (fun l =>
      match l.waiting with
      | .push v => some (v, none)
      | _ => none)

def dropHeld (h : HeldOp) : List HeldOp → List HeldOp
  | [] => []
  | x :: xs => if x = h then xs else x :: dropHeld h xs

/-- One push takes effect when the queue has room; none does during a save of the context (R318). -/
def servePush (s : State) (teamId : Nat) : State :=
  match s.team? teamId with
  | none => s
  | some t =>
    if queueRoom ≤ t.dq.length || s.saving t.ctx then s
    else
      match nextPush s t with
      | none => s
      | some (v, some h) =>
        (s.setTeam { t with dq := t.dq ++ [v], held := dropHeld h t.held }).opDone h.core h.slot h.op
      | some (v, none) =>
        let s1 := s.setTeam { t with dq := t.dq ++ [v] }
        match s.lanterns.find? (fun l => l.team = teamId) with
        | some l => goOn s1 l.core l.slot
        | none => s1

/-- The value that a pop would deliver now, and the queue after it. -/
def popValue (t : Team) : Option (DWord × List DWord) :=
  match t.dq with
  | v :: rest => some (v, rest)
  | [] => if queueClosed t then some (0xFFFFFFFFFFFFFFFF, []) else none

/-- One pop takes effect (R36, R238): with an acquire at team scope; the rotation index goes on in a deterministic team
(R337). None does during a save of the context (R318). -/
def servePop (s : State) (teamId : Nat) : State :=
  match s.team? teamId with
  | none => s
  | some t =>
    match (if s.saving t.ctx then none else popValue t), nextPop s t with
    | some (v, rest), some (core, slot, a, h) =>
      let ls := (liveIndexes s t.id t.core ++ (if t.pair then liveIndexes s t.id (t.core + 1) else [])).foldl (fun l i => insertNat i l) []
      let t1 := { t with dq := rest, rot := if t.det then indexAfter ls (rotation s t) else t.rot }
      let s0 := s.acquire core 1
      match h with
      | some h =>
        (s0.setTeam { t1 with held := dropHeld h t.held }).opResult h.core h.slot h.op (if h.sa = 0 then [] else [(.s h.sa.toNat, v)])
      | none =>
        goOn (s0.setTeam t1) core slot (fun s =>
          match s.front? core slot with
          | some f => if a = 0 then s else s.setFront core slot { f with s := f.s.set a.toNat v }
          | none => s)
    | _, _ => s

/-- R238. Legal only in the lantern. -/
def execDqpush (a : SReg) (k : Tok) (s : State) : Host.Outcome State Fault Refusal :=
  uset (.dqpush a k) s (fun x s => servePush (pushBody a k x s) x.t.id)

/-- R238. Legal only in group code. -/
def execDqpop (a : SReg) (k : Tok) (s : State) : Host.Outcome State Fault Refusal :=
  uset (.dqpop a k) s (fun x s => servePop (popBody a k x s) x.t.id)

end Sys2Proof.Machine
end

