-- ==== Sys2Proof/Machine/System.lean ====
section
/-! DEFINITION. Control registers and returns (R239-R242, R313, R335). -/

namespace Sys2Proof.Machine

/-- A control register as the issuer reads it (R240). -/
def controlReg (s : State) (x : Ix) (n : Nat) : DWord :=
  let f := (s.front? x.core x.slot).getD {}
  let own (get : Group → Word) : DWord := if x.lan then 0 else ((s.group? x.core x.slot).map (fun y => (get y).setWidth 64)).getD 0
  let c := s.ctx x.t.ctx
  match n with
  | 0 => own (·.fpc)
  | 1 => own (·.dph)
  | 2 => own (·.dbgc)
  | 3 => own (·.specm)
  | 4 => own (·.specr)
  | 5 => f.cdepth.setWidth 64
  | 6 => if x.h then f.epc.setWidth 64 else 0
  | 7 => if x.h then f.ecause.setWidth 64 else 0
  | 8 => c.hbase
  | 9 => c.sideb
  | 10 => c.ctxc.setWidth 64
  | 11 => seedOf s x.t
  | 12 => Config.archv.setWidth 64
  | 13 => BitVec.ofNat 64 x.t.slot
  | 14 => BitVec.ofNat 64 x.t.ctx
  | 15 => BitVec.ofNat 64 x.core
  | _ => BitVec.ofNat 64 x.slot

/-- Registers whose reading a deterministic task traps on (code 5 of R335). -/
def detReg (n : Nat) : Bool := n = 3 || n = 4 || (13 ≤ n && n ≤ 16)

/-- R239, R240. -/
def execGetc (d : SReg) (b : BitVec 6) (s : State) : Host.Outcome State Fault Refusal :=
  uset (.getc d b) s (fun x s =>
    if x.t.det && detReg b.toNat then trapUnit s x 0x400 5 else setSval s x d (controlReg s x b.toNat))

/-- A group's register takes a value, which every live lane sees from its 4th instruction on (R239). -/
def setControl (g : Group) (r : GReg) (old : Word) (put : Group → Group) : Group :=
  put (g.upd g.liveLanes (fun _ l => l.keepOld r (old.setWidth 64)))

/-- Bits of FPC and DPH that a write changes (R18, R19). -/
def fpcBits : Word := 0x3F7F
def dphBits : Word := 0x3F

/-- R239, R240. -/
def execSetc (d : BitVec 6) (a : SReg) (s : State) : Host.Outcome State Fault Refusal :=
  uset (.setc d a) s (fun x s =>
    let v := sval s x a
    let w : Word := v.setWidth 32
    if x.lan then
      match s.lantern? x.core x.slot with
      | some l => if d = 6 then s.setLantern { l with pend := l.pend ++ [{ dst := .s 64, val := v, left := 4 }] } else s
      | none => s
    else
      match s.group? x.core x.slot with
      | none => s
      | some g =>
        match d.toNat with
        | 0 => s.setGroup (setControl g .fpc g.fpc (fun g => { g with fpc := w &&& fpcBits }))
        | 1 => s.setGroup (setControl g .dph g.dph (fun g => { g with dph := w &&& dphBits }))
        | 3 => s.setGroup (setControl g .specm g.specm (fun g => { g with specm := w }))
        | 4 => s.setGroup (setControl g .specr g.specr (fun g => { g with specr := w }))
        | 6 => s.setGroup { g with fe := { g.fe with epc := addrOf v } }
        | _ => s)

/-- R313. -/
def execEret (s : State) : Host.Outcome State Fault Refusal := uset .eret s (fun x s => returnFrom x s)

/-- Every operation of the group or lantern has completed: it acquires at their scopes (R147, R242). -/
def synceGo (s : State) (core slot : Nat) : State := acquireToken s core slot none

/-- The lantern's pending writes land; a group's lanes have settled at their join (R30, R242). -/
def settleLantern (s : State) (core slot : Nat) : State :=
  if slot < 128 then s
  else
    match s.lantern? core slot with
    | some l => s.setLantern l.settle
    | none => s

/-- R242. -/
def execSynce (s : State) : Host.Outcome State Fault Refusal :=
  uset .synce s (fun x s =>
    if ((s.front? x.core x.slot).map (·.ops)).getD [] = [] then settleLantern (synceGo s x.core x.slot) x.core x.slot
    else waitAtUnit s x .wait .synce)

end Sys2Proof.Machine
end

