-- ==== Sys2Proof/Machine/Issue.lean ====
section
/-! DEFINITION. What issues (R59, R60, R295-R297), and the steps by which a group goes on: landings (R31), the resolution
of a speculative branch (R34), joins, restarts and packing (R69, R73, R74), waits, trap entries and the freeing of a
slot (R72). -/

namespace Sys2Proof.Machine

/-! ### Units -/

/-- A unit as it stands in memory: its word past the prefixes, its guard and whether every word could be fetched. -/
structure UnitWords where
  word  : Word := 0
  guard : Option (PReg × Bool) := none
  pfx   : Option (BitVec 25) := none
  ok    : Bool := false
  /-- Where the word stands. -/
  pos   : Addr := 0
  deriving DecidableEq, Repr

def unitAt (s : State) (ctx : Nat) : Nat → Addr → UnitWords → UnitWords
  | 0, _, u => u
  | fuel + 1, pc, u =>
    match fetch s ctx pc with
    | .trap _ _ => u
    | .word w =>
      if isGuardWord w then unitAt s ctx fuel (pc + 4) { u with guard := some (fld w 15 6, w.getLsbD 14) }
      else if isPfxWord w then unitAt s ctx fuel (pc + 4) { u with pfx := some (fld w 0 25) }
      else { u with word := w, ok := true, pos := pc }

/-- The lanes of a set that a unit's guard leaves active when they issue it (R28, R50). -/
def UnitWords.active (u : UnitWords) (g : Group) (set : LaneSet) : LaneSet :=
  match u.guard with
  | none => set
  | some (p, neg) => set &&& g.where (fun _ l => (l.tick 1).pred p.toNat != neg)

/-- The major of a word (R38, R39): five bits in the L-set, whose bit 30 is U, and six in the U-set. -/
def majorOf (w : Word) : Nat := if isLset w then (fld w 25 5).toNat else (fld w 25 6).toNat
def fnOf (w : Word) : Nat := (fld w 21 4).toNat

/-- Engine classes of R296: integer, FP32, FP64, special function, load-store, cross-lane, keyed store, matrix. -/
def classOf (w : Word) : Nat :=
  let m := majorOf w
  let f := fnOf w
  if isLset w then
    if m = 9 then (if f < 8 then 1 else 2)
    else if m = 12 || m = 14 then 1
    else if m = 13 then 2
    else if m = 16 then (if f = 0 || f = 1 || f = 14 || f = 15 then 2 else 1)
    else if m = 15 then 3
    else if m = 28 then (if f < 2 then 3 else 0)
    else if 17 ≤ m && m ≤ 21 then 4
    else if m = 22 || m = 23 then 5
    else if m = 26 || m = 27 then 6
    else if m = 29 then 7
    else 0
  else if m = 13 then 4
  else if m = 15 then (if f < 4 then 4 else 6)
  else if m = 14 then 7
  else 0

def classes : Nat := 8

/-- The class of a word that a group would issue: an illegal one takes the integer class. -/
def classIn (s : State) (g : Group) (w : Word) : Nat :=
  match s.team? g.team with
  | some t => if (causeOf w t g.core false g.fe.handler).isSome then 0 else classOf w
  | none => classOf w

/-! ### What may issue (R59, R63, R310) -/

/-- Speculation-safe words (R63); an illegal L-set word defers its trap (R56). -/
def specSafe (w : Word) : Bool :=
  let m := majorOf w
  let f := fnOf w
  isLset w &&
  match rawDecode w with
  | .illegal _ => true
  | .instr (.l (.cvt _ _ _ _ r _)) => r ≠ 4
  | .instr _ => m ≤ 16 || (m = 17 && (f ≤ 1 || (4 ≤ f && f ≤ 10))) || (m = 18 && f ≤ 2) || (m = 25 && (f = 7 || f = 12))

/-- The registers a unit reads or writes. -/
def unitRegs (u : UnitWords) : List Dest :=
  (match rawDecode u.word with | .instr i => useSrc i.use ++ useDst i.use | .illegal _ => []) ++
    (match u.guard with | some (p, _) => [.p p.toNat] | none => [])

/-- Whether a speculated lane would read or write what an operation issued before the branch, on its token, has still to write:
the branch's result is that of a WAITK first (R62, log 40). -/
def waitsOlder (g : Group) (rec : SpecRec) (i : Nat) (ds : List Dest) : Bool :=
  g.fe.ops.any (fun o => o.tok = rec.tok && o.lands.any (fun d => d.lane = i && d.spec = 0 && d.writes.any (fun w => ds.contains w.1)))

/-- Whether a lane may issue a unit (R59, R63, R310, R316). DESIGN CHOICE (log 117): where a speculated or held lane may not issue at a
PC, the others that stand there issue without it. -/
def laneMay (g : Group) (u : UnitWords) (i : Nat) : Bool :=
  let l := g.lane i
  let special := fpcEnables (g.fpcFor l) ≠ 0 && g.fe.ops.any (fun o => o.lands.any (fun d => d.lane = i && isLset d.word && majorOf d.word = 15))
  !special && (!g.stopped || l.handler) &&
  match l.spec, g.spec with
  | some sp, some rec =>
    sp.taken.isSome && sp.deferred.isNone && sp.count < 32 && (!u.ok || specSafe u.word) && !waitsOlder g rec i (unitRegs u)
  | some _, none => false
  | none, _ => true

/-- A unit that stands before a group's issue stage: its address, its lanes, and whether their join is complete. -/
structure Cand where
  pc    : Addr
  lanes : LaneSet
  full  : Bool
  unit  : UnitWords
  deriving DecidableEq, Repr

def tokRoom (f : Front) (w : Word) : Bool :=
  match rawDecode w with
  | .instr i => (match i.use.tok with | some k => f.room k | none => true)
  | .illegal _ => true

/-- Whether a unit of unparked lanes can issue: a WAITK or a branch without speculation waits, and so does a word on a
full token (R59, R62). The second answer says that its active lanes wait at it (R30). -/
def unitMay (s : State) (g : Group) (ctx : Nat) (u : UnitWords) (set : LaneSet) : Bool × Bool :=
  if !u.ok || u.active g set = 0 then (true, false)
  else
    match rawDecode u.word with
    | .instr (.l (.waitk k t)) => if k ≠ 15 && decide (t.toNat < g.fe.count k) then (false, true) else (true, false)
    | .instr (.l (.bra _ _ k _)) =>
      if k = 15 then (true, false)
      else if g.spec.isSome then (false, false)
      else if g.fe.count k = 0 || (specEnabled s ctx && !g.dbgc.getLsbD 0) then (true, false) else (false, true)
    | _ => (tokRoom g.fe u.word, false)

/-- Whether a unit whose join is complete can be performed (R59, R188). -/
def fullMay (s : State) (g : Group) (w : Word) : Bool :=
  tokRoom g.fe w &&
  (if isLset w && (majorOf w = 26 || majorOf w = 27) then
    match s.team? g.team with
    | some t => !kOrd (keyedOf s t g.core).cfg || currentTurn s t g.core = g.index
    | none => false
   else true)

/-- Whether lanes that arrive at an EXITS complete its gathering (R59, R73): with those that stand at one they are all the lanes that
its join counts, and each names the same successor and count. -/
def exitsFull (g : Group) (h : Bool) (set : LaneSet) (a : SReg) (n : Nat) : Bool :=
  match lanesIn set with
  | [] => false
  | i :: _ =>
    let val (j : Nat) : DWord := g.scalarFor ((g.lane j).tick 1) a.toNat
    (lanesIn set).all (fun j => val j = val i) &&
      g.members h &&& ~~~(set ||| g.where (fun _ l => l.live && l.park = .join && l.gather = .exits (val i) n)) = 0

/-- Whether lanes that arrive at a REGROUP complete its gathering (R59, R74): with those that stand at that unit they are all the
group's, and every other live group of the team stands at it. -/
def regroupFull (s : State) (g : Group) (set : LaneSet) (pc : Addr) (p : PReg) (n : Nat) : Bool :=
  g.liveLanes &&& ~~~(set ||| g.where (fun _ l => l.live && l.park = .join && l.gather = .regroup p n && l.pc = pc)) = 0 &&
    s.groups.all (fun o => o.team ≠ g.team || o.liveLanes = 0 || (o.core = g.core && o.slot = g.slot) || o.regroupAt = some (pc, p, n))

/-- Whether a unit only gathers the lanes that stand at it: a U-set word, a JOIN, EXITS, REGROUP or an L-set word that joins
implicitly, whose gathering they do not complete. They park there, and it takes no place in the selection (R59, R295). -/
def gathers (s : State) (g : Group) (t : Team) (u : UnitWords) (pc : Addr) (set : LaneSet) : Bool :=
  let h : Bool := (set &&& g.members true) ≠ 0
  let wants (need : LaneSet) (k : Lane → Bool) : Bool :=
    (need &&& g.members h &&& ~~~(set ||| g.where (fun _ l => l.live && l.park = .join && k l))) ≠ 0
  let read (m : MReg) (of : LaneSet) : LaneSet :=
    (lanesIn of).foldl (fun q i => q ||| (g.atIssue { core := g.core, slot := g.slot, lanes := set, unit := pc, pos := pc }).maskFor ((g.lane i).tick 1) m) 0
  let act := u.active g set
  if !u.ok || (isLset u.word && act ≠ 0 && (causeOf u.word t g.core false g.fe.handler).isSome) then false
  else
    let full := wants (~~~0) (fun l => l.gather = .uset && l.pc = pc) || !fullMay s g u.word
    match rawDecode u.word with
    | .instr (.l (.join m)) => act = set && wants (g.q.getD m.toNat 0 ||| read m act) (fun l => l.gather = .join m)
    | .instr (.l (.exits a n)) => act = set && !exitsFull g h set a n.toNat
    | .instr (.l (.regroup p n)) => act = set && !regroupFull s g set pc p n.toNat
    | .instr (.l (.cvt _ _ _ _ r _)) => r = 4 && t.det && full
    | _ =>
      let m : MReg := fld u.word 3 4
      if !isLset u.word then u.guard.isNone && full
      else if majorOf u.word = 22 || majorOf u.word = 23 then
        wants (g.x.getD m.toNat 0 ||| read m set) (fun l => l.gather.onMask m && l.pc = pc)
      else (majorOf u.word = 26 || majorOf u.word = 27) && (let k := keyedOf s t g.core; k.configured && kOrd k.cfg) &&
        (if replayLanes g pc = 0 then full
         else (replayLanes g pc &&& ~~~(set ||| g.where (fun _ l => l.live && l.park = .join && l.gather = .uset && l.pc = pc))) ≠ 0 || !fullMay s g u.word)

/-- The bundle of a unit. -/
def Cand.bundle (c : Cand) (core slot : Nat) : Bundle :=
  { core := core, slot := slot, lanes := c.lanes, unit := c.pc, pos := c.pc, gathered := c.full }

/-- The meanings of the words that take range-lock entries as they issue (R253). -/
def lockMeaning : Code → Option (State → Host.Outcome State Fault Refusal)
  | .l (.kacc d a b k) => some (execKacc d a b k)
  | .u (.kdrain a b k n) => some (execKdrain a b k n)
  | .u (.tld a b k n) => some (execTld a b k n)
  | .u (.tst a b k n) => some (execTst a b k n)
  | .u (.tqld a k n) => some (execTqld a k n)
  | .u (.accld a b k n) => some (execAccld a b k n)
  | .u (.accst a b k n) => some (execAccst a b k n)
  | .u (.cupop a b k n) => some (execCupop a b k n)
  | .u (.cpyIn a b k) => some (execCpyIn a b k)
  | .u (.cpyOut a b k) => some (execCpyOut a b k)
  | .u (.cpyCc a b k) => some (execCpyCc a b k)
  | _ => none

/-- Whether a full range-lock table holds a unit back (R59, R253): performed now, it would leave lanes waiting for entries. -/
def heldByLocks (s : State) (g : Group) (c : Cand) : Bool :=
  match rawDecode c.unit.word with
  | .illegal _ => false
  | .instr i =>
    match lockMeaning i with
    | none => false
    | some f =>
      let b : Bundle := { c.bundle g.core g.slot with pos := c.unit.pos, guard := c.unit.guard, pfx := c.unit.pfx }
      match f { s with issue := b :: s.issue } with
      | .next t => (match t.group? g.core g.slot with
        | some u => g.where (fun i l => l.park ≠ .wait && (u.lane i).park = .wait && (u.lane i).ticket.isSome) ≠ 0
        | none => false)
      | _ => false

/-- The PCs of unparked lanes. -/
def openPcs (g : Group) : List Nat :=
  (g.lanes.filter (fun l => l.live && l.park = .none)).foldl (fun r l => insertNat l.pc.toNat r) []

/-- The units of unparked lanes: those ready, those that only gather, and the lanes that wait at theirs. -/
structure Open where
  ready : List Cand := []
  joins : List Cand := []
  waits : LaneSet := 0
  deriving DecidableEq, Repr

/-- The units of unparked lanes. -/
def openUnits (s : State) (g : Group) (t : Team) : Open :=
  (openPcs g).foldl (fun (acc : Open) n =>
    let pc : Addr := BitVec.ofNat 48 n
    let u := unitAt s t.ctx 4 pc {}
    let set := g.where (fun i l => l.live && l.park = .none && l.pc = pc && laneMay g u i)
    let c : Cand := { pc := pc, lanes := set, full := false, unit := u }
    if set = 0 then acc
    else if gathers s g t u pc set || heldByLocks s g c then { acc with joins := acc.joins ++ [c] }
    else
      let (may, waits) := unitMay s g t.ctx u set
      if may then { acc with ready := acc.ready ++ [c] }
      else if waits then { acc with waits := acc.waits ||| u.active g set } else acc) {}

/-- The units whose joins are complete and that have not been performed. -/
def fullUnits (s : State) (g : Group) (ctx : Nat) : List Cand :=
  if g.waiting ≠ .none then []
  else
    [false, true].flatMap (fun h =>
      let c (pc : Addr) (set : LaneSet) : Option Cand :=
        let u := unitAt s ctx 4 pc {}
        if u.ok && fullMay s g u.word && (!g.stopped || h) then some { pc := pc, lanes := set, full := true, unit := u } else none
      ((g.fullAt h).bind (fun pc => c pc (g.members h))).toList ++ ((g.crossReady h).bind (fun x => c x.1 x.2)).toList)

/-- The units at which a group is ready (R59). -/
def readyUnits (s : State) (g : Group) : List Cand :=
  match s.team? g.team with
  | none => []
  | some t => if s.saving t.ctx then [] else (openUnits s g t).ready ++ (fullUnits s g t.ctx).filter (fun c => !heldByLocks s g c)

/-- The ready units past those that a YIELD withholds (R75). DESIGN CHOICE (log 105): where it would withhold every one, it
withholds none. -/
def candidates (g : Group) (all : List Cand) : List Cand :=
  let kept := all.filter (fun c => !(g.withheld.contains c.pc))
  if kept = [] then all else kept

/-- The units at which lanes only gather, or come to wait for range-lock entries; a unit whose join is complete waits under a number
once (R253). -/
def arrivals (s : State) (g : Group) : List Cand :=
  match s.team? g.team with
  | none => []
  | some t =>
    if s.saving t.ctx then []
    else (openUnits s g t).joins ++ (fullUnits s g t.ctx).filter (fun c => heldByLocks s g c && g.tickets c.lanes = [])

/-! ### The selection (R59, R60) -/

def ageOf (g : Group) (pc : Addr) : PcAge := (g.ages.find? (fun a => a.pc = pc)).getD { pc := pc, missed := 0, last := 0, aged := false }

def agedPc (g : Group) (pc : Addr) : Bool := (ageOf g pc).aged || 64 ≤ (ageOf g pc).missed

/-- The number of lanes of a set. -/
def countLanes (set : LaneSet) : Nat := (lanesIn set).length

/-- Whether one candidate goes before another. -/
def before (g : Group) (a b : Cand) : Bool :=
  match agedPc g a.pc, agedPc g b.pc with
  | true, false => true
  | false, true => false
  | true, true =>
    let x := (ageOf g a.pc).last
    let y := (ageOf g b.pc).last
    x < y || (x = y && a.pc.toNat < b.pc.toNat)
  | false, false =>
    let x := countLanes a.lanes
    let y := countLanes b.lanes
    y < x || (x = y && a.pc.toNat < b.pc.toNat)

def bestOf (g : Group) : List Cand → Option Cand
  | [] => none
  | c :: cs => some (cs.foldl (fun b c => if before g c b then c else b) c)

/-- At most two candidates, the first chosen first. -/
def chosen (g : Group) (cs : List Cand) : List Cand :=
  match bestOf g cs with
  | none => []
  | some a =>
    match bestOf g (cs.filter (fun c => c ≠ a)) with
    | none => [a]
    | some b => [a, b]

/-- The ages after an issue cycle of the group: `cs` was ready, `picks` issued. DESIGN CHOICE (log 118): a cycle in which a PC is not
ready ends its run of ready cycles. -/
def nextAges (g : Group) (cs picks : List Cand) : List PcAge :=
  let pcs := (g.ages.map (·.pc)) ++ ((cs.map (·.pc)).filter (fun p => !(g.ages.any (fun a => a.pc = p)))).eraseDups
  pcs.map (fun p =>
    let a := ageOf g p
    if picks.any (fun c => c.pc = p) then { pc := p, missed := 0, last := g.issues + 1, aged := false }
    else if cs.any (fun c => c.pc = p) then { a with missed := a.missed + 1 }
    else { a with missed := 0, aged := false })

/-! ### Landings (R31, R33, R354) -/

/-- One write of a long-latency result lands in a lane. An older operation of the record's token is older than what the
lane has written since the branch. -/
def landWrite (rec : Option SpecRec) (tok : Tok) (spec : Nat) (l : Lane) (w : Dest × DWord) : Lane :=
  match l.spec with
  | none => l.landOne w.1 w.2 0
  | some sp =>
    if spec ≠ 0 then l.landOne w.1 w.2 spec
    else if (rec.map (·.tok)) = some tok && sp.undo.any (fun u => u.dst = w.1) then
      { l with spec := some { sp with undo := patchOldest w.1 w.2 sp.undo } }
    else l.landOne w.1 w.2 0

/-- A scalar result lands: in the register, or in the value that lanes still see while a newer write waits (R28, R31). -/
def Group.landScalar (g : Group) (r : Nat) (v : DWord) : Group :=
  if r = 0 then g
  else if g.lanes.any (fun l => l.live && l.olds.any (fun o => o.reg = .scalar r)) then
    g.upd (~~~0) (fun _ l => { l with olds := l.olds.map (fun o => if o.reg = .scalar r then { o with val := v } else o) })
  else { g with fe := { g.fe with s := g.fe.s.set r v } }

/-- The result for one lane lands; a lane that is not live takes no write (R72). -/
def landIn (g : Group) (tok : Tok) (d : Land) : Group :=
  let scal := d.writes.filterMap (fun w => match w.1 with | .s r => some (r, w.2) | _ => none)
  let vecs := d.writes.filter (fun w => match w.1 with | .s _ => false | _ => true)
  let g1 := scal.foldl (fun g w => g.landScalar w.1 w.2) g
  let l := g1.lane d.lane
  if !l.live then g1
  else
    g1.upd (laneBit d.lane) (fun _ l =>
      let l1 := vecs.foldl (landWrite g.spec tok d.spec) l
      if d.split && l.park = .splitGather then { l1.settle with park := .none, pc := l1.next } else l1)

/-- Remove a landing from its operation, which completes with its last (R31). -/
def Front.landed (f : Front) (op lane : Nat) : Front :=
  (f.updOp op (fun o => { o with lands := o.lands.filter (fun d => d.lane ≠ lane) })).finish op

/-- A long-latency result lands. One from a device found unreachable traps instead (R354). -/
def landResult (s : State) (core slot op lane : Nat) : State :=
  match s.front? core slot with
  | none => s
  | some f =>
    match f.ops.find? (fun o => o.id = op) with
    | none => s
    | some o =>
      match o.lands.find? (fun d => d.lane = lane) with
      | none => s
      | some d =>
        if slot < 128 then
          match s.group? core slot, s.teamOf core slot with
          | some g, some t =>
            let dead := match d.fid with | some n => s.fabric.dead.contains n | none => false
            let g1 := if dead then g else landIn g o.tok d
            let s1 := s.setGroup { g1 with fe := g1.fe.landed op lane }
            let s2 := if dead then
                let s2 := s1.event 13 (ctx := t.ctx) (slot := t.slot)
                if (g.lane lane).live then raise s2 core slot { unit := d.unit, word := d.word } [{ lane := lane, vec := 0x280, cause := 1, addr := d.addr }] else s2
              else if d.split then singleStep s1 core slot [(lane, d.unit)] else s1
            tryEntry s2 core slot
          | _, _ => s
        else
          match s.lantern? core slot with
          | some l =>
            let f1 := d.writes.foldl (fun f w => f.putScalar w.1 w.2) f
            tryEntry (s.setLantern { l with fe := f1.landed op lane }) core slot
          | none => s

/-- LONG_LATENCY_COMPLETE. -/
def execLongLatencyComplete (core slot op lane : Nat) (s : State) : Host.Outcome State Fault Refusal :=
  .next (landResult s core slot op lane)

/-! ### The resolution of a speculative branch (R34) -/

/-- The branch's predicate as it stood before the lane's speculated writes (R62). -/
def Lane.predBefore (l : Lane) (p : Nat) : Bool :=
  match l.spec with
  | none => l.pred p
  | some sp =>
    match (sp.undo.filter (fun u => u.dst = .p p)).getLast? with
    | some u => p = 0 || u.val.getLsbD 0
    | none => l.pred p

/-- A lane included wrongly (R34). -/
def Lane.undoAll (l : Lane) (pc : Addr) : Lane :=
  let undo := match l.spec with | some sp => sp.undo | none => []
  let l1 := undo.foldl (fun (l : Lane) u => l.put u.dst u.val) l
  { l1 with spec := none, pend := l1.pend.filter (fun p => p.spec = 0), olds := [], park := .none, gather := .none
            want := none, ticket := none, waited := false, pc := pc }

/-- A lane included correctly goes on as it is (R34). -/
def Lane.keepAll (l : Lane) : Lane := { l with spec := none, pend := l.pend.map (fun p => { p with spec := 0 }) }

/-- Results of a lane's speculative loads are discarded, or become ordinary (R34). -/
def Front.retag (f : Front) (lane : Nat) (drop : Bool) : Front :=
  { f with ops := f.ops.map (fun o => { o with lands := o.lands.map (fun d =>
      if d.lane = lane && d.spec ≠ 0 then (if drop then { d with writes := [] } else { d with spec := 0 }) else d) }) }

/-- SPECM or SPECR grows: the value that lanes still see while a SETC waits, or the register (R34, R239). -/
def Group.growSpec (g : Group) (r : GReg) (n : Nat) : Group :=
  if g.lanes.any (fun l => l.olds.any (fun o => o.reg = r)) then
    g.upd (~~~0) (fun _ l => { l with olds := l.olds.map (fun o =>
      if o.reg = r then { o with val := (o.val.setWidth 32 + BitVec.ofNat 32 n : Word).setWidth 64 } else o) })
  else
    match r with
    | .specm => { g with specm := g.specm + BitVec.ofNat 32 n }
    | _ => { g with specr := g.specr + BitVec.ofNat 32 n }

/-- One lane of the record at resolution: the group after it, whether it was wrong, and its deferred trap. A lane that was wrong has
not taken a report that it deferred (R217). -/
def resolveLane (rec : SpecRec) (acc : Group × Bool × List (Nat × Deferred)) (i : Nat) : Group × Bool × List (Nat × Deferred) :=
  let g := acc.1
  let l := g.lane i
  match l.spec with
  | none => acc
  | some sp =>
    let take := l.predBefore rec.p.toNat != rec.neg
    let pc := if take then rec.disp else rec.pc + 4
    match sp.taken with
    | none => (g.upd (laneBit i) (fun _ l => { l with spec := none, pc := pc, waited := false }), acc.2)
    | some t =>
      if t = take then
        let g1 := { (g.upd (laneBit i) (fun _ l => l.keepAll)) with fe := g.fe.retag i false }
        (g1.raiseFlags i sp.flags, acc.2.1, acc.2.2 ++ (sp.deferred.map (fun d => (i, d))).toList)
      else
        let g1 := { (g.upd (laneBit i) (fun _ l => l.undoAll pc)) with fe := g.fe.retag i true }
        let g2 := { g1 with poison := (sp.deferred.bind (·.report)).toList ++ g1.poison }
        (g2.growSpec .specr sp.count, true, acc.2.2)

/-- A deferred trap with its lane. -/
abbrev LateTrap := Nat × Deferred

/-- By the unit at the lower PC. -/
def insertLate (x : LateTrap) : List LateTrap → List LateTrap
  | [] => [x]
  | y :: ys => if x.2.unit.toNat ≤ y.2.unit.toNat then x :: y :: ys else y :: insertLate x ys

/-- Deferred traps are taken at their units, the lower PC first: one raise for each unit (R34, R309). -/
def takeDeferred (core slot : Nat) (t : Team) (s : State) (late : List LateTrap) : State :=
  let ds := late.foldr insertLate []
  let keys := (ds.map (fun d => (d.2.unit, d.2.word, d.2.pfx, d.2.tcode, d.2.next))).eraseDups
  keys.foldl (fun s k =>
    let mine := ds.filter (fun d => (d.2.unit, d.2.word, d.2.pfx, d.2.tcode, d.2.next) = k)
    let kills := (mine.filter (fun d => d.2.vec = 0xFFFF)).map (·.1)
    let hits : List Hit := (mine.filter (fun d => d.2.vec ≠ 0xFFFF)).map (fun d =>
      { lane := d.1, vec := d.2.vec, cause := d.2.cause, addr := d.2.addr, report := d.2.report })
    let x := laterIx core slot t k.1 (k.1 + 4) k.2.1 k.2.2.1 0 false
    killBadLanes x kills (raise s core slot { unit := k.1, word := k.2.1, pfx := k.2.2.1, tcode := k.2.2.2.1, next := k.2.2.2.2 } hits)) s

/-- The branch resolves once its token counts 0 (R62, R34). -/
def resolveSpec (s : State) (core slot : Nat) : State :=
  match s.group? core slot, s.teamOf core slot with
  | some g, some t =>
    match g.spec with
    | none => s
    | some rec =>
      if g.fe.count rec.tok ≠ 0 then s
      else
        let lanes := lanesIn (g.where (fun _ l => l.spec.isSome))
        let (g1, wrong, ds) := lanes.foldl (resolveLane rec) (g, false, [])
        let g2 := { (if wrong then g1.growSpec .specm 1 else g1) with spec := none }
        let s1 := acquireToken (s.setGroup g2) core slot (some rec.tok)
        let s2 := takeDeferred core slot t s1 ds
        tryEntry (settleJoins s2 core slot) core slot
  | _, _ => s

/-- SPECULATION_RESOLVE. -/
def execSpeculationResolve (core slot : Nat) (s : State) : Host.Outcome State Fault Refusal :=
  .next (resolveSpec s core slot)

/-! ### One core cycle (R134, R295, R297) -/

def State.coreState (s : State) (core : Nat) : CoreState :=
  (s.cores.find? (fun c => c.core = core)).getD
    { core := core, ages := List.replicate 4 (List.replicate classes 0), busy := List.replicate 4 false }

def State.setCoreState (s : State) (c : CoreState) : State :=
  { s with cores := if s.cores.any (fun x => x.core = c.core) then s.cores.map (fun x => if x.core = c.core then c else x)
                    else s.cores ++ [c] }

/-- A group that is ready, its ready units, and those it would select. -/
abbrev Ready := Group × List Cand × List Cand

/-- The group a bay chooses (R295). -/
def bayChoice (s : State) (ages : List Nat) : List Ready → Option Ready
  | [] => none
  | r :: rs =>
    let age (x : Ready) : Nat := match x.2.2 with | c :: _ => ages.getD (classIn s x.1 c.unit.word) 0 | [] => 0
    some (rs.foldl (fun b x =>
      if age b < age x then x
      else if age x < age b then b
      else if x.1.lastIssue < b.1.lastIssue then x
      else if b.1.lastIssue < x.1.lastIssue then b
      else if x.1.slot < b.1.slot then x else b) r)

/-- The groups that one bay issues in this cycle: one, or one of each half (R297). -/
def bayGroups (s : State) (ages : List Nat) (rs : List Ready) : List Ready :=
  match bayChoice s ages rs with
  | none => []
  | some a =>
    if a.1.width = 16 then
      match bayChoice s ages (rs.filter (fun r => r.1.width = 16 && r.1.half ≠ a.1.half)) with
      | some b => if a.1.half < b.1.half then [a, b] else [b, a]
      | none => [a]
    else [a]

/-- The token that a unit's word counts on, where it has active lanes. -/
def Cand.counts (g : Group) (c : Cand) : Option Tok :=
  if c.unit.active g c.lanes = 0 then none
  else
    match rawDecode c.unit.word with
    | .instr i => i.use.tok
    | .illegal _ => none

/-- Two bundles of one cycle that count on one token with room for one of them: the one at the less populous PC stalls (R17; of
two equally populous, the one at the higher PC, log 13). -/
def fitToken (g : Group) : List Cand → List Cand
  | [a, b] =>
    match a.counts g with
    | some k =>
      if k ≠ 15 && b.counts g = some k && g.fe.count k = 14 then
        let x := countLanes a.lanes
        let y := countLanes b.lanes
        if y < x || (x = y && a.pc.toNat < b.pc.toNat) then [a] else [b]
      else [a, b]
    | none => [a, b]
  | l => l

/-- Those of the selected units that issue, the lower PC first. -/
def issued (r : Ready) : List Cand :=
  match fitToken r.1 r.2.2 with
  | [a, b] => if a.pc.toNat < b.pc.toNat then [a, b] else [b, a]
  | l => l

/-- A chosen group issues (R59): its ages go on, and its bundles stand before the machine. -/
def issueGroup (s : State) (cycle : Nat) (r : Ready) : State :=
  match s.group? r.1.core r.1.slot with
  | some g =>
    let picks := issued r
    let s1 := s.setGroup { g with ages := nextAges g r.2.1 picks, issues := g.issues + 1, lastIssue := cycle, withheld := [] }
    { s1 with issue := s1.issue ++ picks.map (fun c => c.bundle g.core g.slot) }
  | none => s

/-- Whether a lantern is ready: it issues a word unless a full token holds the word back (R35, R59). -/
def lanternReady (s : State) (l : Lantern) : Bool :=
  !l.retired && l.park = .none && !l.stopped &&
  match s.team? l.team with
  | some t => let u := unitAt s t.ctx 4 l.pc {}; !s.saving t.ctx && (!u.ok || tokRoom l.fe u.word)
  | none => false

/-- Lanes that wait at their unit are marked (R30). -/
def markWaits (s : State) (g : Group) : State :=
  match s.team? g.team with
  | none => s
  | some t =>
    let set := (openUnits s g t).waits
    if set = 0 then s else s.setGroup (g.upd set (fun _ l => { l with waited := true }))

/-- What a core cycle begins with: the mask writes of the cycle before are seen by all (R68), speculative branches whose count is 0
resolve (R62), lanes of an MXGO whose block is present stand at it again (R213), and lanes that wait are marked (R30). -/
def beginCycle (s : State) (core : Nat) : State :=
  let runs (team : Nat) : Bool := match s.team? team with | some t => !s.saving t.ctx | none => false
  let mine (s : State) : List Group := s.groups.filter (fun g => g.core = core && runs g.team)
  let s0 : State := { s with groups := s.groups.map (fun (g : Group) => if g.core = core then { g with cyc := [] } else g) }
  let s1 := (mine s0).foldl (fun s g => resolveSpec s core g.slot) s0
  let s2 := (mine s1).foldl (fun s g => s.setGroup (wakeMxgo s g)) s1
  (s2.groups.filter (fun g => g.core = core && !g.retired)).foldl (fun s g => markWaits s g) s2

/-- One core cycle: accesses that have waited are performed first, each in its own turn (R138, R161), every bay issues (R59, R295),
and lanes arrive at the joins that they do not complete. -/
def coreCycle (s : State) (core : Nat) : State :=
  let s2 := beginCycle s core
  let c := s2.coreState core
  let gs := s2.groups.filter (fun g => g.core = core && !g.retired)
  let rs : List Ready := gs.filterMap (fun g =>
    let all := readyUnits s2 g
    if all = [] then none else some (g, all, chosen g (candidates g all)))
  let bays := (upFrom 0 4).map (fun b =>
    if c.busy.getD b false then [] else bayGroups s2 (c.ages.getD b []) (rs.filter (fun r => r.1.bay = b)))
  let cycle := c.cycles.toNat + 1
  let wake := gs.flatMap (·.wakes s2) ++ (s2.lanterns.filter (fun l => l.core = core && !l.retired)).flatMap (·.wakes s2)
  let come := gs.flatMap (fun g => (arrivals s2 g).map (fun x => x.bundle core g.slot))
  let s3 := (bays.flatten).foldl (fun s r => issueGroup s cycle r) { s2 with issue := s2.issue ++ wake ++ come }
  let used (b : Nat) : List Nat := (bays.getD b []).flatMap (fun r => (issued r).map (fun x => classIn s2 r.1 x.unit.word))
  let c1 : CoreState :=
    { c with cycles := c.cycles + 1
             ages := (upFrom 0 4).map (fun b => (upFrom 0 classes).map (fun k =>
               if (used b).contains k then 0 else (c.ages.getD b []).getD k 0 + 1))
             busy := (upFrom 0 4).map (fun b => (bays.getD b []).any (fun r => r.1.width = 64)) }
  let s4 := s3.setCoreState c1
  let ls := (s4.lanterns.filter (fun l => l.core = core && lanternReady s4 l)).map (fun l =>
    ({ core := core, slot := l.slot, unit := l.pc, pos := l.pc } : Bundle))
  { s4 with issue := s4.issue ++ ls }

/-- ISSUE_CYCLE (R59, R295): it begins when no bundle of the core's cycle before is left. -/
def execIssueCycle (core : Nat) (s : State) : Host.Outcome State Fault Refusal :=
  .next (if !(s.issue.any (fun b => b.core = core)) && core < Config.cores then coreCycle s core else s)

/-- PC_AGED (R59). -/
def execPcAged (core slot : Nat) (pc : Addr) (s : State) : Host.Outcome State Fault Refusal :=
  .next (match s.group? core slot with
    | some g => s.setGroup { g with ages := g.ages.map (fun a => if a.pc = pc && 64 ≤ a.missed then { a with aged := true } else a) }
    | none => s)

/-! ### Joins, restarts and packing -/

/-- JOIN_RELEASE (R69): a JOIN that can complete releases its lanes. -/
def execJoinRelease (core slot : Nat) (m : MReg) (s : State) : Host.Outcome State Fault Refusal :=
  .next (match s.group? core slot with
    | some g => if (g.tryJoin false m).2 ≠ 0 || (g.tryJoin true m).2 ≠ 0 then settleJoins s core slot else s
    | none => s)

/-- Vector registers of a lane at group start (R27). -/
def startRegs (index width lane n : Nat) : List Word :=
  (upFrom 0 n).map (fun r => if r = 0 then BitVec.ofNat 32 lane else if r = 1 then BitVec.ofNat 32 (index * width + lane) else 0)

/-- A lane that starts again at an address with its first `keep` registers (R73, R74). -/
def Lane.restart (l : Lane) (index width i : Nat) (keep : Nat) (kept : List Word) (pc : Addr) (h : Bool) : Lane :=
  { l with pc := pc, live := true, park := .none, gather := .none, next := 0
           v := kept.take keep ++ (startRegs index width i l.v.length).drop keep
           p := 1, pend := [], olds := [], waited := false, spec := none, handler := h, want := none, ticket := none }

/-- EXITS restarts its group (R73), and under SSTEP its lanes trap at the successor (R315). DESIGN CHOICE (log 46): while a handler
runs, every lane that starts again is one of the handler's. -/
def restartGroup (s : State) (core slot : Nat) : State :=
  match s.group? core slot with
  | none => s
  | some g =>
    match g.exitsAt false with
    | none => s
    | some (a, n) =>
      if g.fe.ops ≠ [] then s
      else
        let zero : List LaneSet := List.replicate 16 0
        let g1 := g.upd (~~~0) (fun i l => l.settle.restart g.index g.width i n l.settle.v (codeAddr a) g.fe.handler)
        singleStep (s.setGroup { g1 with m := zero, q := zero, x := zero, cyc := [] }) core slot (g.unitsOfLanes g.liveLanes)

/-- EXITS_RESTART. -/
def execExitsRestart (core slot : Nat) (s : State) : Host.Outcome State Fault Refusal :=
  .next (restartGroup s core slot)

/-- A survivor of a REGROUP: its registers, draw counter and RNG thread identity. -/
abbrev Survivor := List Word × DWord × DWord

/-- Survivors fill a group's lanes, lane 0 upwards (R74); the group, and those left. -/
def fillLanes (index width keep : Nat) (pc : Addr) (h : Bool) : Nat → List Lane → List Survivor → List Lane × List Survivor
  | _, [], sv => ([], sv)
  | i, l :: ls, [] =>
    let (out, rest) := fillLanes index width keep pc h (i + 1) ls []
    ({ l.settle with live := false, park := .none, gather := .none, handler := false, want := none, ticket := none } :: out, rest)
  | i, l :: ls, x :: xs =>
    let (out, rest) := fillLanes index width keep pc h (i + 1) ls xs
    ({ (l.restart index width i keep x.1 pc h) with draws := x.2.1, rng := x.2.2 } :: out, rest)

/-- Groups by increasing index. -/
def insertByIndex (x : Group) : List Group → List Group
  | [] => [x]
  | y :: ys => if x.index ≤ y.index then x :: y :: ys else y :: insertByIndex x ys

/-- A REGROUP at which every live lane of the team stands packs the groups of each core (R74); under SSTEP its lanes trap at the
fall-through (R315). DESIGN CHOICE (log 104): p is read as each lane had it when it arrived (R28), before the REGROUP settles
it. -/
def packTeam (s : State) (teamId : Nat) : State :=
  let gs := (liveGroups s teamId).foldr insertByIndex []
  match gs with
  | [] => s
  | g0 :: _ =>
    match g0.regroupAt with
    | none => s
    | some (pc, p, n) =>
      if gs.all (fun g => g.regroupAt = some (pc, p, n) && g.fe.ops = []) then
        let next := (g0.lane ((lanesIn g0.liveLanes).headD 0)).next
        let cores := (gs.map (·.core)).eraseDups
        cores.foldl (fun s core =>
          let mine := gs.filter (fun g => g.core = core)
          let sv : List Survivor := mine.flatMap (fun g =>
            (lanesIn (g.where (fun _ l => l.live && l.pred p.toNat))).map (fun i =>
              let l := (g.lane i).settle
              (l.v, l.draws, l.rng)))
          (mine.foldl (fun (acc : State × List Survivor) g =>
            let (ls, rest) := fillLanes g.index g.width n next g.fe.handler 0 g.lanes acc.2
            let zero : List LaneSet := List.replicate 16 0
            let g1 : Group := { g with lanes := ls, m := zero, q := zero, x := zero, cyc := [] }
            (acc.1.setGroup g1.markRetired, rest)) (s, sv)).1) s
          |> fun s => gs.foldl (fun s g => match s.group? g.core g.slot with
              | some g1 => singleStep s g.core g.slot ((lanesIn g1.liveLanes).map (fun i => (i, pc)))
              | none => s) s
          |> fun s => stopLantern s teamId
      else s

/-- REGROUP_PACK. -/
def execRegroupPack (team : Nat) (s : State) : Host.Outcome State Fault Refusal := .next (packTeam s team)

/-! ### Waits that end (R236-R238, R242, R253) -/

/-- BARRIER_COMPLETE. -/
def execBarrierComplete (team : Nat) (s : State) : Host.Outcome State Fault Refusal := .next (finishBarrier s team)

/-- DQPOP_DELIVER: an entry goes to its pop, and a push that waited takes the room. -/
def execDqpopDeliver (team : Nat) (s : State) : Host.Outcome State Fault Refusal :=
  .next (servePush (servePop s team) team)

def waitingOf (s : State) (core slot : Nat) : Waiting :=
  if slot < 128 then ((s.group? core slot).map (·.waiting)).getD .none else ((s.lantern? core slot).map (·.waiting)).getD .none

/-- WAITBM_PROCEED. -/
def execWaitbmProceed (core slot : Nat) (s : State) : Host.Outcome State Fault Refusal :=
  .next (waitbmGo s core slot (waitingOf s core slot))

/-- SYNCE_PROCEED. -/
def execSynceProceed (core slot : Nat) (s : State) : Host.Outcome State Fault Refusal :=
  .next (if waitingOf s core slot = .synce && ((s.front? core slot).map (·.ops)).getD [] = [] then
      goOn (synceGo s core slot) core slot else s)

/-- The oldest number under which lanes of a group, or a lantern, wait for range-lock entries. -/
def firstTicket (s : State) (core slot : Nat) : Option Nat :=
  if slot < 128 then
    (s.group? core slot).bind (fun g => oldest (g.tickets (g.where (fun _ l => l.live && l.park = .wait))))
  else (s.lantern? core slot).bind (fun l => if l.park = .wait then lockTicket l.waiting else none)

/-- RANGE_LOCK_GRANT: those that have waited longest in the slot perform their unit again, and take their entries there, when
none of the core waits before them (R253). -/
def execRangeLockGrant (core slot : Nat) (s : State) : Host.Outcome State Fault Refusal :=
  .next (match firstTicket s core slot with
    | some n => if mayLock s core (some n) 1 then retryLocks s core slot n else s
    | none => s)

/-- TRAP_ENTRY. -/
def execTrapEntry (core slot : Nat) (s : State) : Host.Outcome State Fault Refusal := .next (tryEntry s core slot)

/-! ### A slot is freed (R72) -/

/-- A retired group whose operations have completed leaves its slot; a report that nobody took is logged (R217). -/
def freeSlot (s : State) (core slot : Nat) : State :=
  match s.group? core slot with
  | none => s
  | some g =>
    if g.retired && g.liveLanes = 0 && g.fe.ops = [] then
      let ctx := ((s.team? g.team).map (·.ctx)).getD 0
      let s1 := match g.poison with
        | [] => s
        | r :: _ => logRecord s ctx core slot 0x11 (some (r.2.setWidth 32))
      { s1 with groups := s1.groups.filter (fun x => !(x.core = core && x.slot = slot)) }
    else s

/-- GROUP_SLOT_FREE. -/
def execGroupSlotFree (core slot : Nat) (s : State) : Host.Outcome State Fault Refusal := .next (freeSlot s core slot)

end Sys2Proof.Machine
end

