-- ==== Sys2Proof/Machine/Ordering.lean ====
section
/-! DEFINITION. The steps of the ordering machine that no instruction word takes (R136-R153): store entries, stale copies,
the steps of agents, copy instances (R220, R222) and tile commands (R216). -/

namespace Sys2Proof.Machine

/-- SQ_ENTRY_LEAVE (R139). A trap split that waited for the entry may enter (R310). -/
def execSqEntryLeave (core slot : Nat) (s : State) : Host.Outcome State Fault Refusal :=
  .next (tryEntry (sqLeave s core slot) core slot)

/-- OUTBOUND_TO_MEMORY (R142). -/
def execOutboundToMemory (core n : Nat) (s : State) : Host.Outcome State Fault Refusal := .next (outStep s core n)

/-- A core takes a copy of the line of an address, as M holds it; never of a TSO page, a scratchpad or poison (R141, R153;
log 19). -/
def installCopy (s : State) (core ctx : Nat) (va : Addr) : State :=
  match xlate s ctx va.toNat with
  | .ok p =>
    let line := lineOf p.loc
    if p.t || isScratch line || s.anyPoison line 64 || s.deadLoc line || Config.cores ≤ core then s
    else
      { s with stale := s.stale.filter (fun c => !(c.core = core && c.line = line)) ++
          [{ core := core, line := line, bytes := s.bytes line 64 }] }
  | .fault _ => s

/-- STALE_COPY_INSTALL. -/
def execStaleCopyInstall (core ctx : Nat) (va : Addr) (s : State) : Host.Outcome State Fault Refusal :=
  .next (installCopy s core ctx va)

/-- STALE_COPY_DISCARD (R141). -/
def execStaleCopyDiscard (core line : Nat) (s : State) : Host.Outcome State Fault Refusal :=
  .next { s with stale := s.stale.filter (fun c => !(c.core = core && c.line = line)) }

/-! ### Steps of agents -/

/-- Elements of a collective's source at each rank (R356). -/
def collSource (r : List Byte) : Nat := if collOp r = 2 then collN r * collE r else collE r

/-- The elements that bytes hold. -/
def elemsOf (type : Nat) (m : Memory) (n : Nat) : List DWord :=
  (upFrom 0 n).map (fun i => BitVec.ofNat 64 (natOf (m.read (i * collBytes type) (collBytes type))))

/-- The numbers of the elements that hold a byte at a bad place. -/
def badElems (type : Nat) (bad : List Nat) : List Nat := bad.foldl (fun l i => insertNat (i / collBytes type) l) []

/-- What this device sends to its peers (R355, R356). -/
def peerData (r : List Byte) (buf : Memory) (bad : List Nat) : PeerData :=
  { cid := BitVec.ofNat 64 (recArg r 3), rank := collRank r, op := BitVec.ofNat 8 (collOp r), type := BitVec.ofNat 8 (collType r)
    red := BitVec.ofNat 8 (collRed r), e := collE r, n := collN r, elems := elemsOf (collType r) buf (collSource r)
    bad := badElems (collType r) bad }

/-- A collective whose source has been read whole sends it to every other participant. -/
def sendSource (s : State) (id : Nat) : State :=
  match s.agents.find? (fun a => a.id = id), s.fabric.insts.find? (fun c => c.agent = id) with
  | some a, some c =>
    match s.task? c.slot with
    | some t =>
      if a.steps = [] && !c.writing then
        let ps := c.parts.filter (fun f => f ≠ s.plat.fid.toNat)
        { s with fabric := { s.fabric with outData := s.fabric.outData ++ ps.map (fun f => (f, peerData t.record a.buf a.bad)) } }
      else s
    | none => s
  | _, _ => s

/-- A write of an agent waits for a held page (R269). -/
def waitAgent (s : State) (id loc : Nat) (st : AStep) : State :=
  { s with care := { s.care with swaps := s.care.swaps.map (fun w =>
      if some w = holder s.care loc && !(w.waits.contains (.agent id st)) then { w with waits := w.waits ++ [.agent id st] } else w) } }

/-- A tile command whose bytes have all been read may let a later store take its bytes (R201). -/
def primeAfter (s : State) (id : Nat) : State :=
  match s.agents.find? (fun a => a.id = id) with
  | some a =>
    match a.fin, a.team with
    | .tile, some t => if a.steps = [] then primeStores s t a.core else s
    | _, _ => s
  | none => s

/-- An agent takes one of its steps (R149), or waits for a held page (R269). -/
def moveAgent (s : State) (id n : Nat) : State :=
  match s.agents.find? (fun a => a.id = id) with
  | none => s
  | some a =>
    match a.steps[n]? with
    | none => s
    | some st =>
      if !a.stepReady n then s
      else if st.heldBy s.care then waitAgent s id (st.writeLoc.getD 0) st
      else primeAfter (sendSource (takeStep s a n) id) id

/-- AGENT_STEP. -/
def execAgentStep (agent n : Nat) (s : State) : Host.Outcome State Fault Refusal := .next (moveAgent s agent n)

/-- CPY_INSTANCE_START (R220). -/
def execCpyInstanceStart (team : Nat) (s : State) : Host.Outcome State Fault Refusal := .next (startWaiting s team)

/-- CPY_INSTANCE_COMPLETE (R222). -/
def execCpyInstanceComplete (agent : Nat) (s : State) : Host.Outcome State Fault Refusal :=
  .next (completeInstance s agent)

/-- TILE_COMMAND_COMPLETE (R216): of the queue on a team's first core, or on its second. -/
def execTileCommandComplete (team half : Nat) (s : State) : Host.Outcome State Fault Refusal :=
  .next (match s.team? team with
    | some t => completeHead s team (t.core + half)
    | none => s)

end Sys2Proof.Machine
end

