-- ==== Sys2Proof/Machine/Belfry.lean ====
section
/-! DEFINITION. The Belfry: dispatch order, placement, gangs, ragged expansion, copy and collective tasks, write-back and
retirement, pre-emption and resume (R281-R301, R317, R329, R355-R358). -/

namespace Sys2Proof.Machine

/-! ### Pre-emption (R298-R300) -/

/-- Whether nothing keeps a task in PREEMPTING: no team of it is resident, and it is no collective in flight (R298,
R358). -/
def taskQuiet (s : State) (t : Task) : Bool :=
  !(s.teams.any (fun x => x.slot = t.slot)) && !(recKind t.record = 4 && t.started)

/-- Whether a named slot still keeps a request open: its task is PREEMPTING, or a gang in placement that will be. -/
def outstanding (s : State) (ctx slot : Nat) : Bool :=
  match s.task? slot with
  | some t => t.ctx = ctx && (t.state = .preempting || (match s.gang with | some g => g.slot = slot | none => false))
  | none => false

/-- A message to the host that answers a request (R344). -/
def State.answer (s : State) (type : BitVec 8) (ctx : Nat) (seqNo : BitVec 16) (arg : DWord) (payload : List Byte := []) : State :=
  s.send { type := type, ctx := BitVec.ofNat 8 ctx, seqNo := seqNo, arg := arg, payload := payload }

/-- Quiet PREEMPTING tasks are PARKED, and requests of which every named task is parked are reported, in the
order in which they came (R298, R345). -/
def settleRequests (s : State) : State :=
  let s1 : State :=
    { s with tasks := s.tasks.map (fun t =>
        if t.state = .preempting && taskQuiet s t && !s.saving t.ctx then { t with state := .parked } else t) }
  let closed (p : Preempt) : Bool := !(p.slots.any (fun n => outstanding s1 p.ctx n))
  (s1.preempts.takeWhile closed).foldl (fun s p => s.answer 0x86 p.ctx p.seqNo (BitVec.ofNat 64 p.status)) { s1 with preempts := s1.preempts.dropWhile closed }

/-- Whether an agent is of a kind that pre-emption discards: staging, write-back, copy task (R298). -/
def Agent.journalled (a : Agent) : Bool := decide (5 ≤ a.kind) && decide (a.kind ≤ 7)

/-- An agent is discarded (R298, R318): its lines stay absent, and its journal entries stay. -/
def discardAgent (s : State) (a : Agent) : State :=
  { s with agents := s.agents.filter (fun x => x.id ≠ a.id), locks := s.locks.filter (fun l => l.agent ≠ a.id)
           journal := s.journal.map (fun j => if j.agent = a.id then { j with discarded := true } else j) }

/-- Whether a resident team may be flushed (R299). -/
def flushable (s : State) (t : Task) (x : Team) : Bool := recIdem t.record && (s.ctx t.ctx).ctxc.getLsbD 1 && x.standing

def insertIdx (x : Nat × Nat × Nat) : List (Nat × Nat × Nat) → List (Nat × Nat × Nat)
  | [] => [x]
  | y :: ys => if x.1 ≤ y.1 then x :: y :: ys else y :: insertIdx x ys

/-- A team is flushed (R299): it is gone with everything it holds, and its index is marked. -/
def flushTeam (s : State) (x : Team) : State :=
  let s1 := match s.task? x.slot with
    | some t => s.setTask { t with flushed := insertIdx (x.index, x.recIdx, x.tileIdx) t.flushed }
    | none => s
  s1.removeTeam x.id

/-- The replays of copy tasks that may not run now wait for no entries (R253). -/
def State.idleReplays (s : State) (p : JournalEntry → Bool) : State :=
  { s with journal := s.journal.map (fun j => if j.kind = 3 && p j then { j with ticket := none } else j) }

/-- A task enters PREEMPTING (R298, R299, R291). -/
def preemptTask (s : State) (slot : Nat) : State :=
  match s.task? slot with
  | none => s
  | some t =>
    if t.state = .preempting || t.state = .parked || t.state = .free then s
    else
      let gang := match s.gang with
        | some g => if g.slot = slot then none else some g
        | none => none
      let t1 : Task := { t with state := .preempting, resume := t.state, blocking := false, skipped := none, ticket := none }
      let s1 : State := { ((s.setTask t1).idleReplays (fun j => j.slot = slot)) with gang := gang }
      let mine := s1.teams.filter (fun x => x.slot = slot)
      let all := mine.all (fun x => flushable s1 t x)
      let flush := mine.filter (fun x => flushable s1 t x && (recKind t.record ≠ 2 || all))
      let s2 := flush.foldl flushTeam s1
      (s2.agents.filter (fun a => a.task = slot && a.ctx = t.ctx && a.journalled)).foldl discardAgent s2

/-- A pre-emption request (R298): a gang in placement follows after its last team (R291). -/
def requestPreempt (s : State) (ctx : Nat) (slots : List Nat) (seqNo : BitVec 16) : State :=
  let named := slots.filter (fun n =>
    match s.task? n with
    | some t => t.ctx = ctx && t.state ≠ .parked
    | none => false)
  let placing (n : Nat) : Bool := match s.gang with | some g => g.slot = n && g.placing | none => false
  let s1 : State := { s with preempts := s.preempts ++ [{ ctx := ctx, slots := named, seqNo := seqNo, start := s.now }] }
  settleRequests ((named.filter (fun n => !placing n)).foldl preemptTask s1)

/-- BCFG fields (R302). -/
def bcfgDlx (w : Word) : Nat := max 16 (w.extractLsb' 11 5).toNat
def bcfgSkip (w : Word) : Nat := max 8 (w.extractLsb' 0 5).toNat

/-- The deadline of a request has passed (R300): its contexts with a task still PREEMPTING are reset. The oldest request
expires first, since its deadline is the earliest. -/
def expirePreempt (s : State) (n : Nat) : State :=
  match s.preempts with
  | [] => s
  | p :: rest =>
    if n ≠ 0 || s.now < p.start + 2 ^ bcfgDlx s.plat.bcfg then s
    else
      let s1 : State := { s with preempts := rest }
      settleRequests ((forcedReset s1 p.ctx 1).answer 0x86 p.ctx p.seqNo 1)

/-! ### The next team of a task (R286, R292) -/

/-- A team that a task may place next: its index or ordinal, its record and tile, and s9, s10 and s13 (R27, R230). -/
structure NextTeam where
  index   : Nat
  recIdx  : Nat := 0
  tileIdx : Nat := 0
  s10     : Nat
  s13     : Nat := 0
  ragged  : Bool := false
  deriving DecidableEq, Repr

/-- Set a bit of a task's completion bitmap (R231); one that cannot be set is a task fault (R329). -/
def setBitmap (s0 : State) (t : Task) (b : Nat) : State :=
  let off := recBmap t.record + b / 8
  let s := s0.windowTouch t.ctx off 1
  match windowBytes s t.ctx off 1 with
  | some bs =>
    match windowWrite s t.ctx off (bytesOf 1 (natOf bs ||| 2 ^ (b % 8))) with
    | some s1 => s1
    | none => taskFault s t.slot
  | none => taskFault s t.slot

/-- The translations that the reading of a ragged task's count word, and of a record, make (R329, R330). -/
def touchCount (s : State) (t : Task) : State := s.windowTouch t.ctx (recTeams t.record) 4
def touchRows (s : State) (t : Task) (r : Nat) : State := s.windowTouch t.ctx (recTeams t.record + 32 + 32 * r) 32

/-- A ragged task's next record is read when its teams are needed (R292): a record without rows yields none, and its bit is set
at once; a count word or a record that cannot be read is a task fault (R329), the record of a flushed team too, which is read again
(log 114). A sealed task with no record left is CLOSING (R282). -/
def expandRagged : Nat → State → Nat → State
  | 0, s, _ => s
  | fuel + 1, s, slot =>
    match s.task? slot with
    | none => s
    | some t =>
      if recKind t.record ≠ 1 || t.flt || !(t.state = .ready || t.state = .active || t.state = .closing) then s
      else
        match t.flushed with
        | (_, r, _) :: _ =>
          let s1 := touchRows s t r
          if (recordRows s1 t r).isSome then s1 else taskFault s1 slot
        | [] =>
          if t.rows.isSome || t.state = .closing then s
          else
            let s1 := touchCount s t
            match raggedCount s1 t with
            | none => taskFault s1 slot
            | some n =>
              if n ≤ t.recIdx then closeTask s1 slot
              else
                let s2 := touchRows s1 t t.recIdx
                match recordRows s2 t t.recIdx with
                | none => taskFault s2 slot
                | some 0 => expandRagged fuel (setBitmap (s2.setTask { t with recIdx := t.recIdx + 1 }) t t.recIdx) slot
                | some n => s2.setTask { t with rows := some n }

/-- Expand every ragged task as far as its empty records go. -/
def expandAll (s : State) : State :=
  s.tasks.foldl (fun s t => if recKind t.record = 1 then
    expandRagged (((raggedCount s t).getD t.recIdx) + 2 - t.recIdx) s t.slot else s) s

/-- Teams that a record of so many rows yields (R230). -/
def teamsOfRows (rows : Nat) : Nat := (rows + 31) / 32

/-- The team that a task may place next, if any: a flushed one first (R301), else one of the record read (R292). -/
def nextTeam (s : State) (t : Task) : Option NextTeam :=
  if t.flt then none
  else if recKind t.record = 1 then
    let desc (index r tile rows : Nat) : NextTeam :=
      { index := index, recIdx := r, tileIdx := tile, s10 := teamsOfRows rows, s13 := recTeams t.record + 32 + 32 * r, ragged := true }
    match t.flushed with
    | (i, r, k) :: _ => (recordRows s t r).map (desc i r k)
    | [] => t.rows.map (desc t.next t.recIdx t.tileIdx)
  else
    match t.flushed with
    | (i, _, _) :: _ => some { index := i, s10 := recTeams t.record }
    | [] => if t.next < recTeams t.record then some { index := t.next, s10 := recTeams t.record } else none

/-- The task after its next team has been placed. -/
def Task.afterPlacing (t : Task) (d : NextTeam) : Task :=
  let t1 : Task := { t with state := if t.state = .ready then TaskState.active else t.state, placed := true, blocking := false, skipped := none, ticket := none }
  match t.flushed with
  | _ :: rest => { t1 with flushed := rest }
  | [] =>
    if d.ragged then
      if d.tileIdx + 1 < d.s10 then { t1 with next := t.next + 1, tileIdx := d.tileIdx + 1 }
      else { t1 with next := t.next + 1, tileIdx := 0, rows := none, recIdx := d.recIdx + 1 }
    else { t1 with next := t.next + 1 }

/-! ### Regions (R289, R329) -/

/-- What the regions of a team come to at placement. -/
inductive RegionPlan where
  | fault
  | wait
  | ok (rs : List Region)
  deriving DecidableEq, Repr

def Region.ins (r : Region) : Bool := r.dir = 0 || r.dir = 2
def Region.outs (r : Region) : Bool := r.dir = 1 || r.dir = 2

/-- The regions of team `index`, each at its own global address, checked and translated (R289, R329). -/
def planRegions (s : State) (t : Task) (index : Nat) : RegionPlan :=
  if recNreg t.record = 0 then .ok []
  else
    match regionTable s t.ctx t.record with
    | none => .fault
    | some es =>
      if es.any (fun e => !regionOk t.record e) then .fault
      else
        let rs := es.map (fun e => let g := regionOf e; { g with va := g.va + BitVec.ofNat 64 (index * g.len) })
        let bad (g : Region) : Bool :=
          decide (2 ^ 48 < g.va.toNat + g.len) ||
          (g.ins && (rangeFault s t.ctx g.va.toNat g.len .read).isSome) || (g.outs && (rangeFault s t.ctx g.va.toNat g.len .write).isSome)
        if rs.any bad then .fault
        else if rs.any (fun g => rangeUnanswered s t.ctx g.va.toNat g.len) then .wait
        else .ok rs

/-- The translations that a placement makes: the region table's and those of each region (R329). -/
def touchRegions (s : State) (t : Task) (index : Nat) : State :=
  if recNreg t.record = 0 then s
  else
    let s1 := s.windowTouch t.ctx (recRgn t.record) (32 * recNreg t.record)
    match regionTable s1 t.ctx t.record with
    | none => s1
    | some es =>
      es.foldl (fun s e =>
        let g := regionOf e
        let va := (g.va + BitVec.ofNat 64 (index * g.len)).toNat
        if regionOk t.record e && va + g.len ≤ 2 ^ 48 then s.touchRange t.ctx va g.len else s) s1

/-- Steps that could be translated. -/
def keepSteps (l : List AStep) : List AStep :=
  l.filter (fun st => match st with
    | .read loc _ _ _ => loc ≠ remoteBase - 1
    | .write loc _ _ _ => loc ≠ remoteBase - 1
    | .elem loc _ _ _ _ _ => loc ≠ remoteBase - 1)

/-- The steps of a copy between a region's global address and its scratchpad range. -/
def regionSteps (s : State) (ctx : Nat) (g : Region) (loc : Nat) (out : Bool) : List AStep :=
  let far := virtParts s ctx g.va.toNat g.len 0
  let near := lineParts (g.len / 64 + 2) loc g.len 0
  keepSteps (if out then near.map (fun p => .read p.1 p.2.1 p.2.2 false) ++ far.map (fun p => .write p.1 p.2.1 p.2.2.1 p.2.2.2)
    else far.map (fun p => .read p.1 p.2.1 p.2.2.1 p.2.2.2) ++ near.map (fun p => .write p.1 p.2.1 p.2.2 false))

/-- A region with what its write-back will do, for a team on a core. -/
def bindRegion (s : State) (ctx core base : Nat) (g : Region) : Region :=
  { g with steps := if g.outs then regionSteps s ctx g (scratchLoc core (base * 64 + g.off)) true else []
           pages := (pagesOf g.va.toNat g.len).map (BitVec.ofNat 48)
           scope := pieceScope core (virtPieces s ctx g.va.toNat g.len) }

/-- Range-lock entries that regions take on the team's core, two for each of some length (R252). -/
def regionLocks (rs : List Region) : Nat := 2 * (rs.filter (fun g => g.len ≠ 0)).length

/-- A staging or write-back agent of a team starts, with its entries and its journal entry (R251, R289, R317). -/
def startRegion (out : Bool) (teamId : Nat) (s : State) (g : Region) : State :=
  match s.team? teamId with
  | none => s
  | some x =>
    let loc := scratchLoc x.core ((x.side x.core).base * 64 + g.off)
    let id := s.ids
    let agent : Agent :=
      { id := id, kind := if out then 6 else 5, ctx := x.ctx, task := x.slot, team := some teamId, core := x.core, slot := 255
        scope := g.scope, steps := if out then g.steps else regionSteps s x.ctx g loc false
        lines := if out then [] else linesOf loc g.len, pages := g.pages, fin := if out then .writeBack else .staging }
    let lock (near : Bool) : RangeLock :=
      { core := x.core, dst := near != out, sp := if near then 0 else 3, ctx := x.ctx, kind := if out then 6 else 5
        base := if near then g.off else g.va.toNat, len := g.len, owner := 255, team := teamId, agent := id }
    let entry : JournalEntry :=
      { kind := if out then 2 else 1, ctx := x.ctx, slot := x.slot, fn := 0, grp := 0, team := x.index
        src := if out then BitVec.ofNat 64 g.off else g.va, dst := if out then g.va else BitVec.ofNat 64 g.off
        len := BitVec.ofNat 64 g.len, arv := 0, inst := 0, agent := id, teamId := some teamId }
    let s1 := (s.fresh).startAgent agent (if g.len = 0 then [] else [lock true, lock false])
    { s1 with journal := s1.journal ++ [entry] }

/-! ### Placing a team (R24, R27, R244, R289) -/

/-- Free group slots of a core, and free lantern contexts. -/
def freeSlots (s : State) (core : Nat) : List Nat :=
  (upFrom 0 Config.groupSlots).filter (fun n => !(s.groups.any (fun g => g.core = core && g.slot = n)))

def freeLantern (s : State) (core : Nat) : Nat :=
  ((upFrom 128 Config.lanternContexts).filter (fun n => !(s.lanterns.any (fun l => l.core = core && l.slot = n)))).headD 128

/-- Scalars at group start (R27). -/
def startScalars (r : List Byte) (d : NextTeam) (s11 : DWord) : List DWord :=
  [0] ++ (upFrom 0 8).map (fun i => BitVec.ofNat 64 (recArg r i)) ++
    [BitVec.ofNat 64 (if d.ragged then d.tileIdx else d.index), BitVec.ofNat 64 d.s10, s11, BitVec.ofNat 64 (recGpt r)
     , BitVec.ofNat 64 d.s13, 0, BitVec.ofNat 64 (recLaneb r)] ++ List.replicate 48 0

/-- A lane at group start (R27, R132). -/
def startLane (r : List Byte) (d : NextTeam) (g i : Nat) : Lane :=
  { pc := BitVec.ofNat 48 (recEntry r), v := startRegs g (recWidth r) i (recVregs r)
    rng := BitVec.ofNat 64 (d.index * recGpt r * recWidth r + (g * recWidth r + i)) }

/-- Where group g of a team stands: its core and its number there (R287). -/
def groupCore (pair : Bool) (core g : Nat) : Nat × Nat := if pair then (core + g % 2, g / 2) else (core, g)

/-- A group at its start (R27, R244). -/
def startGroup (r : List Byte) (d : NextTeam) (chk : Bool) (teamId : Nat) (spot : Spot) (slot g : Nat) : Group :=
  let (core, n) := groupCore (recPair r) spot.core g
  { core := core, slot := slot, team := teamId, index := g, bay := (n + spot.bay) % 4, half := n / 4 % 2, width := recWidth r
    fe := { s := startScalars r d (BitVec.ofNat 64 g) }, fpc := if chk then 0x2000 else 0
    lanes := (upFrom 0 (recWidth r)).map (startLane r d g) }

/-- What a team holds on a core at its start (R24). -/
def startSide (r : List Byte) (core base : Nat) : Side :=
  { core := core, base := base, tiles := List.replicate (recTiles r) {}, comps := List.replicate (recTiles r) {}
    shapes := List.replicate (recTiles r) 0, accs := List.replicate (recAccs r) {} }

/-- Presence bits of an allocation are set (R24). -/
def State.presentLines (s : State) (core base lines : Nat) : State :=
  { s with absent := s.absent.filter (fun l => !(scratchLoc core (base * 64) ≤ l && l < scratchLoc core ((base + lines) * 64))) }

/-- A team is placed (R289): its resources are taken, its staging agents start, and its groups and lantern start, the lantern at
ENTRY - 4 (R392). -/
def placeTeam (s : State) (t : Task) (d : NextTeam) (spot : Spot) (rs : List Region) : State :=
  let r := t.record
  let id := s.ids
  let sides := startSide r spot.core spot.base :: (if recPair r then [startSide r (spot.core + 1) spot.base2] else [])
  let team : Team :=
    { id := id, slot := t.slot, ctx := t.ctx, index := d.index, recIdx := d.recIdx, tileIdx := d.tileIdx, core := spot.core
      pair := recPair r, lines := recScrl r, laneb := recLaneb r, vregs := recVregs r, tiles := recTiles r, accs := recAccs r
      kas := recKas r, width := recWidth r, gpt := recGpt r, bayOff := spot.bay, det := recDet r, idem := recIdem r
      lantern := recLantern r, sides := sides, regions := rs.map (bindRegion s t.ctx spot.core spot.base) }
  let s1 := s.fresh
  let s2 : State := { s1 with teams := s1.teams ++ [team] }
  let s3 := sides.foldl (fun s x => s.presentLines x.core x.base (recScrl r)) s2
  let s4 := (team.regions.filter (·.ins)).foldl (startRegion false id) s3
  let s5 := (upFrom 0 (recGpt r)).foldl (fun s g =>
    let slot := (freeSlots s (groupCore (recPair r) spot.core g).1).headD 0
    { s with groups := s.groups ++ [startGroup r d ((s.ctx t.ctx).ctxc.getLsbD 0) id spot slot g] }) s4
  let s6 : State := if recLantern r then
      { s5 with lanterns := s5.lanterns ++
          [{ core := spot.core, slot := freeLantern s5 spot.core, team := id, pc := BitVec.ofNat 48 (recEntry r) - 4
             fe := { s := startScalars r d 0xFFFFFFFFFFFFFFFF } }] }
    else s5
  let s7 := sides.foldl (fun s x => s.acquire x.core 4) s6
  closeTask (s7.setTask (t.afterPlacing d)) t.slot

/-- The outcome of taking a task in a decision: it is taken; its next team fits nowhere; or what it starts must wait, and the
decision ends with it (log 113). -/
inductive Taken where
  | took (s : State)
  | skipped
  | waits (s : State)
  deriving DecidableEq, Repr

/-- Whether the staging entries of a team can be taken on a core now, under the number with which its task waits for those of that
core, if it does (R253, R317). -/
def stagingFits (s : State) (core : Nat) (mine : Option Nat) (rs : List Region) : Bool :=
  let ins := rs.filter (·.ins)
  mayLock s core mine (regionLocks ins) && s.journal.length + ins.length ≤ Config.journalEntries

/-- A task waits in its turn for entries of a table (R253). -/
def State.waitTurn (s : State) (t : Task) (core : Nat) : State := (s.setTask { t with ticket := some (s.ids, core) }).fresh

/-- Place a task's next team on one of the given places, chosen freely (R288), once its regions pass (R329). While none of them has
its staging entries, the task waits for those of one of them, chosen freely (R253). -/
def placeOn (s0 : State) (t : Task) (d : NextTeam) (spots : List Spot) : Taken :=
  let s := touchRegions s0 t d.index
  match planRegions s t d.index with
  | .fault => .took (taskFault s t.slot)
  | .wait => .waits s
  | .ok rs =>
    let ok := spots.filter (fun p => stagingFits s p.core (t.ticketAt p.core) rs)
    let (n, s1) := s.choose
    match ok[n % ok.length]? with
    | some p => .took (placeTeam s1 t d p rs)
    | none =>
      if spots.any (fun p => (t.ticketAt p.core).isSome) then .waits s
      else
        match spots[n % spots.length]? with
        | some p => .waits (s1.waitTurn t p.core)
        | none => .waits s

/-! ### Copy tasks (R294) -/

/-- A task without teams fails its checks (R294): it ends with its overrun and fault bits set. -/
def failTask (s : State) (t : Task) : State :=
  completeTask (s.setTask { t with flt := true, overrun := true }) t.slot

/-- Checks 1 and 2 of R221 on the ranges of a task without teams. -/
def rangesBad (a b n : DWord) (m : Nat) (align : Nat) : Bool :=
  a.extractLsb' 48 16 ≠ 0 || b.extractLsb' 48 16 ≠ 0 || a.toNat % align ≠ 0 || b.toNat % align ≠ 0 || n.toNat % align ≠ 0
    || decide (2 ^ 48 < a.toNat + n.toNat) || decide (2 ^ 48 < b.toNat + m)

/-- An agent of a task without teams, with entries of the Belfry's table (R251, R252). -/
def belfryAgent (s : State) (t : Task) (kind : Nat) (src n dst m : Nat) (steps : List AStep) (whole : Bool) (fin : AgentEnd) :
    State :=
  let agent : Agent :=
    { id := s.ids, kind := kind, ctx := t.ctx, task := t.slot, slot := 255
      scope := if kind = 9 then 5 else max (pieceScope 256 (virtPieces s t.ctx src n)) (pieceScope 256 (virtPieces s t.ctx dst m))
      steps := steps, whole := whole, pages := (pagesOf src n ++ pagesOf dst m).map (BitVec.ofNat 48), fin := fin }
  let lock (d : Bool) (base len : Nat) : List RangeLock :=
    if len = 0 then [] else [{ core := 256, dst := d, sp := 3, ctx := t.ctx, kind := 7, base := base, len := len, owner := 255, team := 0, agent := s.ids }]
  (s.fresh).startAgent agent (lock false src n ++ lock true dst m)

/-- The copy of a copy task starts (R294): its agent, its entries and its journal entry. -/
def beginCopy (s : State) (t : Task) : State :=
  let a := recArg t.record 0
  let b := recArg t.record 1
  let n := recArg t.record 2
  let s0 := (s.touchRange t.ctx a n).touchRange t.ctx b n
  let steps := keepSteps ((virtParts s0 t.ctx a n 0).map (fun p => .read p.1 p.2.1 p.2.2.1 p.2.2.2) ++
    (virtParts s0 t.ctx b n 0).map (fun p => .write p.1 p.2.1 p.2.2.1 p.2.2.2))
  let s1 := belfryAgent s0 t 7 a n b n steps (piecesMeet (virtPieces s0 t.ctx a n) (virtPieces s0 t.ctx b n)) (.copyTask t.slot)
  let entry : JournalEntry :=
    { kind := 3, ctx := t.ctx, slot := t.slot, fn := 2, grp := 0, team := 0, src := BitVec.ofNat 64 a, dst := BitVec.ofNat 64 b
      len := BitVec.ofNat 64 n, arv := 0, inst := 0, agent := s0.ids, teamId := none }
  { s1 with journal := s1.journal ++ [entry] }.setTask { t with state := .active, started := true, placed := true, blocking := false, skipped := none, ticket := none }

/-- Whether the ranges of a copy task fail the checks of R221. -/
def copyFails (s : State) (t : Task) : Bool :=
  let a := BitVec.ofNat 64 (recArg t.record 0)
  let b := BitVec.ofNat 64 (recArg t.record 1)
  let n := BitVec.ofNat 64 (recArg t.record 2)
  rangesBad a b n n.toNat 4 || (rangeFault s t.ctx a.toNat n.toNat .read).isSome || (rangeFault s t.ctx b.toNat n.toNat .write).isSome

/-- Whether a target has still to answer on a page of a copy task's ranges (R354). -/
def copyAsks (s : State) (t : Task) : Bool :=
  rangeUnanswered s t.ctx (recArg t.record 0) (recArg t.record 2) || rangeUnanswered s t.ctx (recArg t.record 1) (recArg t.record 2)

/-- Range-lock entries of a task without teams. -/
def copyLocks (n : Nat) : Nat := if n = 0 then 0 else 2

/-- The translations of a copy task's ranges, where they pass check 1 of R221. -/
def touchCopy (s : State) (t : Task) : State :=
  let a := recArg t.record 0
  let b := recArg t.record 1
  let n := recArg t.record 2
  if 2 ^ 48 < a + n || 2 ^ 48 < b + n then s else (s.touchRange t.ctx a n).touchRange t.ctx b n

/-- A task without teams waits for entries of the Belfry's table in its turn (R253). -/
def waitBelfry (s : State) (t : Task) : Taken := .waits (if (t.ticketAt 256).isSome then s else s.waitTurn t 256)

/-- The distributor takes a copy task: its checks, then its start, or it waits for entries or for a target (R253, R354). -/
def takeCopy (s0 : State) (t : Task) : Taken :=
  let s := touchCopy s0 t
  if copyAsks s t then .waits s
  else if copyFails s t then .took (failTask s t)
  else if !mayLock s 256 (t.ticketAt 256) (copyLocks (recArg t.record 2)) || Config.journalEntries ≤ s.journal.length then waitBelfry s t
  else .took (beginCopy s t)

/-! ### Collectives (R355-R358) -/

/-- Write the completion word of a collective (R357). -/
def completionWord (s0 : State) (t : Task) (status : Nat) : State :=
  let off := recArg t.record 6
  let s := s0.windowTouch t.ctx off 8
  match windowBytes s t.ctx off 4 with
  | some bs =>
    match windowWrite s t.ctx off (bytesOf 4 (natOf bs + 1) ++ bytesOf 1 status ++ bytesOf 3 0) with
    | some s1 => s1
    | none => taskFault s t.slot
  | none => taskFault s t.slot

/-- A collective instance completes with a status (R322, R357). -/
def endCollective (s : State) (t : Task) (status : Nat) : State :=
  let cid := BitVec.ofNat 64 (recArg t.record 3)
  let s1 : State := match s.fabric.insts.find? (fun c => c.slot = t.slot) with
    | some c => (s.agents.filter (fun a => a.id = c.agent)).foldl (fun s a => s.dropAgent a) s
    | none => s
  let s2 : State :=
    { s1 with fabric := { s1.fabric with insts := s1.fabric.insts.filter (fun c => c.slot ≠ t.slot), held := s1.fabric.held.filter (fun d => d.cid ≠ cid)
                                         aborts := s1.fabric.aborts.filter (· ≠ cid), finished := s1.fabric.finished ++ [cid] } }
  let s3 := completionWord s2 t status
  let s4 := if status = 1 then s3.event 12 (ctx := t.ctx) (slot := t.slot) (detail := cid.toNat) else s3
  settleRequests (completeTask s4 t.slot)

/-- Bytes of a collective's destination. -/
def collDst (r : List Byte) : Nat := collBytes (collType r) * (if collOp r = 1 then collN r * collE r else collE r)

/-- Whether a range reaches into an aperture, which a collective may not (R353). -/
def rangeLap (s : State) (ctx va n : Nat) : Bool :=
  (pagesOf va n).any (fun p => match xlate s ctx (max p va) with | .ok q => q.lap | .fault _ => false)

/-- Whether the ranges of a collective task fail the checks of R221. A page of an aperture is out of its reach (R353). -/
def collectiveFails (s : State) (t : Task) : Bool :=
  let r := t.record
  let a := BitVec.ofNat 64 (recArg r 1)
  let b := BitVec.ofNat 64 (recArg r 2)
  let n := collBytes (collType r) * collSource r
  let m := collDst r
  rangesBad a b (BitVec.ofNat 64 n) m (collBytes (collType r)) || (rangeFault s t.ctx a.toNat n .read).isSome
    || (rangeFault s t.ctx b.toNat m .write).isSome || rangeLap s t.ctx a.toNat n || rangeLap s t.ctx b.toNat m

/-- The translations of a collective task's ranges, where they pass check 1 of R221. -/
def touchCollective (s : State) (t : Task) : State :=
  let r := t.record
  let n := collBytes (collType r) * collSource r
  let m := collDst r
  let s1 := s.windowTouch t.ctx (recArg r 5) (2 * collN r)
  if 2 ^ 48 < recArg r 1 + n || 2 ^ 48 < recArg r 2 + m then s1 else (s1.touchRange t.ctx (recArg r 1) n).touchRange t.ctx (recArg r 2) m

/-- The distributor takes a collective task (R355): every translation of its ranges is made here (R329). -/
def takeCollective (s0 : State) (t : Task) : Taken :=
  let s := touchCollective s0 t
  let r := t.record
  let n := collBytes (collType r) * collSource r
  let m := collDst r
  let cid := BitVec.ofNat 64 (recArg r 3)
  if (windowBytes s t.ctx (recArg r 5) (2 * collN r)).isNone then .took (completeTask (taskFault s t.slot) t.slot)
  else if collectiveFails s t then .took (failTask s t)
  else
    let s1 : State := { s with fabric := { s.fabric with finished := s.fabric.finished.filter (· ≠ cid) } }
    let parts := participants s t.ctx r
    if s.fabric.aborts.contains cid || parts.any (fun f => s.fabric.dead.contains f) then .took (endCollective s1 t 1)
    else if !mayLock s 256 (t.ticketAt 256) 2 then waitBelfry s t
    else
      let steps := (virtParts s1 t.ctx (recArg r 1) n 0).map (fun p => .read p.1 p.2.1 p.2.2.1 p.2.2.2)
      let s2 := belfryAgent s1 t 9 (recArg r 1) n (recArg r 2) m steps false (.collective t.slot)
      let c : Collective :=
        { slot := t.slot, ctx := t.ctx, cid := cid, agent := s1.ids, parts := parts
          dst := (virtParts s1 t.ctx (recArg r 2) m 0).map (fun p => .write p.1 p.2.1 p.2.2.1 p.2.2.2) }
      let s3 : State := { s2 with fabric := { s2.fabric with insts := s2.fabric.insts ++ [c] } }
      .took (s3.setTask { t with state := .active, started := true, placed := true, blocking := false, skipped := none, ticket := none })

/-! ### The decision (R286-R291) -/

/-- Whether a task is in the dispatch order (R286). -/
def inOrder (s : State) (t : Task) : Bool :=
  if t.flt then false
  else if 3 ≤ recKind t.record then t.state = .ready && !t.started
  else (t.state = .ready || t.state = .active || (t.state = .closing && t.flushed ≠ [])) && (nextTeam s t).isSome

def insertTask (x : Task) : List Task → List Task
  | [] => [x]
  | y :: ys => if taskBefore x y then x :: y :: ys else y :: insertTask x ys

/-- The dispatch order. -/
def dispatchOrder (s : State) : List Task := (s.tasks.filter (fun t => inOrder s t)).foldr insertTask []

/-- Teams of a gang that are not placed. -/
def unplaced (t : Task) : Nat := t.flushed.length + (recTeams t.record - t.next)

/-- Places of a gang's next reservation after which the rest still fits (R290). -/
def gangSpots (s : State) (t : Task) (g : Gang) : List Spot :=
  let left := unplaced t - g.cores.length - 1
  ((spotsFor s t.record).filter (fun p =>
    deviceHolds { s with gang := some { g with cores := g.cores ++ [p] } } t.record left))

/-- Reserve a gang's next team (R290); with the last the reservation is complete. -/
def reserveNext (s : State) (t : Task) (g : Gang) : State :=
  let spots := gangSpots s t g
  let (n, s1) := s.choose
  match spots[n % spots.length]? with
  | none => s
  | some p =>
    let g1 := { g with cores := g.cores ++ [p] }
    { s1 with gang := some { g1 with placing := decide (unplaced t ≤ g1.cores.length) } }

/-- A gang's placement is at its end: a pre-emption that came meanwhile acts (R291). -/
def endGang (s : State) (t : Task) : State :=
  let s1 : State := { s with gang := none }
  if s1.preempts.any (fun q => q.ctx = t.ctx && q.slots.contains t.slot) then settleRequests (preemptTask s1 t.slot) else s1

/-- Place the next reserved team of a gang (R290). Its placement ends with the last one, or with a task fault (R329). -/
def placeReserved (s : State) (t : Task) (g : Gang) : State :=
  match g.cores, nextTeam s t with
  | p :: rest, some d =>
    match placeOn { s with gang := some { g with cores := rest } } t d [p] with
    | .took s1 =>
      let faulted := ((s1.task? t.slot).map (·.flt)).getD true
      if rest = [] || faulted then endGang s1 t else { s1 with gang := some { g with cores := rest } }
    | .waits s1 => { s1 with gang := some g }
    | .skipped => s
  | _, _ => endGang s t

/-- A gang's reservations that are not complete have met a task of higher priority that became READY (R291). -/
def mustRelease (s : State) : Bool :=
  match s.gang with
  | some g => !g.placing && g.broken
  | none => false

/-- While a gang reserves or is placed, the distributor places nothing else (R290): no other task is skipped or waits for entries. -/
def State.forGang (s : State) (slot : Nat) : State :=
  { s with tasks := s.tasks.map (fun x => { x with skipped := none, ticket := if x.slot = slot then x.ticket else none }) }

/-- Only one task waits for entries at the head of the dispatch order (R253). -/
def State.soleWaiter (s : State) (slot : Nat) : State :=
  { s with tasks := s.tasks.map (fun x => if x.slot = slot then x else { x with ticket := none }) }

/-- What the distributor does with one task of the order (R288, R290, R294). -/
def takeTask (s : State) (t : Task) (first : Bool) : Taken :=
  match recKind t.record with
  | 3 => takeCopy s t
  | 4 => takeCollective s t
  | 2 =>
    if first && deviceHolds s t.record (unplaced t) then
      .took (reserveNext (s.forGang t.slot) t { slot := t.slot, cores := [], placing := false })
    else .skipped
  | _ =>
    match nextTeam s t with
    | none => .skipped
    | some d =>
      let spots := spotsFor s t.record
      if spots = [] then .skipped else placeOn s t d spots

/-- A first task that is skipped: since when, and whether it blocks (R288). -/
def markSkipped (s : State) (t : Task) : Task :=
  let since := t.skipped.getD s.now
  { t with skipped := some since, blocking := t.blocking || decide (since + 2 ^ bcfgSkip s.plat.bcfg ≤ s.now) }

/-- Go down the dispatch order (R288): the first task whose next team fits is taken. One that must wait for its entries or for a
target's answer is not skipped, and holds the later ones back (log 113). -/
def runOrder (s : State) : List Task → Bool → State
  | [], _ => s
  | t :: ts, first =>
    match takeTask s t first with
    | .took s1 => s1
    | .waits s1 =>
      let s2 := s1.soleWaiter t.slot
      { s2 with tasks := s2.tasks.map (fun x => if x.slot = t.slot then { x with skipped := none } else x) }
    | .skipped =>
      let t1 : Task := { (if first then markSkipped s t else t) with ticket := none }
      let s1 := s.setTask t1
      if t1.blocking then s1.soleWaiter t.slot else runOrder s1 ts false

/-- Only the first task of the order counts its skips and blocks (R288), and only one in the order waits for entries. -/
def clearSkips (s : State) (order : List Task) : State :=
  let first := (order.head?.map (·.slot)).getD 8192
  let fix (t : Task) : Task := if t.slot = first then t else { t with skipped := none, blocking := false }
  { s with tasks := s.tasks.map (fun t => let t1 := fix t; if order.any (fun x => x.slot = t.slot) then t1 else { t1 with ticket := none }) }

/-! ### Replays from the journal (R222, R301, R320) -/

/-- Whether a discarded entry is replayed now: its task runs again, or drains the team that the entry belongs to, which runs to
retirement (R299; DEDUCED, log 128). -/
def replayable (s : State) (j : JournalEntry) : Bool :=
  j.discarded &&
  match s.task? j.slot with
  | some t =>
    t.ctx = j.ctx && (t.state = .ready || t.state = .active || t.state = .closing
      || (t.state = .preempting && !s.saving t.ctx && (j.teamId.bind s.team?).isSome))
  | none => false

/-- A slice that is reissued from its first byte (R222). -/
def replaySlice (s : State) (t : Team) (j : JournalEntry) : Option Slice :=
  (holderOf s t.id j.op).map (fun _ =>
    Slice.renew s t { fn := j.fn, grp := j.grp, a := j.src, b := j.dst, len := j.len, desc := j.arv, op := j.op, again := true })

/-- The number under which a replay waits for range-lock entries (R253). -/
def waitReplay (s : State) (j : JournalEntry) : State :=
  if j.ticket.isSome then s
  else { s with journal := s.journal.map (fun y => if y = j then { y with ticket := some s.ids } else y) }.fresh

/-- The discarded copy of a copy task is replayed; a check that fails ends the task (R294). -/
def replayCopy (s0 : State) (t : Task) (j : JournalEntry) : State :=
  let s := touchCopy s0 t
  let without : State := { s with journal := s.journal.filter (fun x => x ≠ j) }
  if copyAsks s t then s
  else if copyFails s t then failTask without t
  else if mayLock s 256 j.ticket (copyLocks j.len.toNat) then beginCopy without t
  else waitReplay s j

/-- The discarded slices of an instance are replayed together (R222). -/
def replayInstance (s : State) (x : Team) (j : JournalEntry) : State :=
  let mine := s.journal.filter (fun y => y.kind = 0 && y.agent = j.agent && y.discarded)
  let s0 := mine.foldl (fun s y => (if y.fn ≠ 1 then s.touchRange x.ctx y.src.toNat y.len.toNat else s)) s
  let s1 := mine.foldl (fun s y => (if y.fn ≠ 0 then s.touchRange x.ctx y.dst.toNat y.len.toNat else s)) s0
  let slices := mine.filterMap (replaySlice s1 x)
  if !(mine.all (fun y => replayPasses s1 x.ctx (y.fn ≠ 1) (y.fn ≠ 0) y.src.toNat y.dst.toNat y.len.toNat)) then s1
  else
    let s2 : State := { s1 with journal := s1.journal.filter (fun y => !mine.contains y) }
    if instanceFits s2 j.ticket slices then startInstance s2 x j.inst.toNat slices else waitReplay s1 j

/-- A discarded staging or write-back agent is replayed. -/
def replayRegion (s : State) (x : Team) (j : JournalEntry) : State :=
  let out := j.kind = 2
  let g : Region :=
    { va := if out then j.dst else j.src, len := j.len.toNat, off := (if out then j.src else j.dst).toNat, dir := if out then 1 else 0 }
  let s1 := s.touchRange x.ctx g.va.toNat g.len
  if !(replayPasses s1 x.ctx (!out) out g.va.toNat g.va.toNat g.len) then s1
  else if mayLock s1 x.core j.ticket (regionLocks [g]) then
    startRegion out x.id { s1 with journal := s1.journal.filter (fun y => y ≠ j) } (bindRegion s1 x.ctx x.core (x.side x.core).base g)
  else waitReplay s1 j

/-- Replay one discarded entry, with the others of its instance, when its entries can be taken. One whose checks fail stays in the
journal and is tried again (log 57). -/
def replayOne (s : State) (j : JournalEntry) : State :=
  match s.task? j.slot with
  | none => s
  | some t =>
    if j.kind = 3 then replayCopy s t j
    else
      match j.teamId.bind s.team? with
      | none => s
      | some x => if j.kind = 0 then replayInstance s x j else replayRegion s x j

/-- Replay every entry that can be. -/
def replayAll (s : State) : State :=
  s.journal.foldl (fun s j => if s.journal.contains j && replayable s j then replayOne s j else s) s

/-- One decision of the distributor, `dt` scheduler cycles after the last (R281, R288). -/
def decide1 (s : State) (dt : Nat) : State :=
  let s0 := settleRequests (replayAll (expandAll { s with now := s.now + dt }).settled)
  let broken := mustRelease s
  match s0.gang with
  | some g =>
    match s0.task? g.slot with
    | none => { s0 with gang := none }
    | some t =>
      let s1 := s0.forGang g.slot
      if g.placing then placeReserved s1 { t with skipped := none } g
      else if broken then { s1 with gang := none }
      else reserveNext s1 t g
  | none =>
    let order := dispatchOrder s0
    let s1 := clearSkips s0 order
    (runOrder s1 (dispatchOrder s1) true).settled

/-- DISTRIBUTOR_DECISION. -/
def execDistributorDecision (dt : Nat) (s : State) : Host.Outcome State Fault Refusal := .next (decide1 s dt)

/-- GANG_RESERVATION_RELEASE (R291). -/
def execGangReservationRelease (s : State) : Host.Outcome State Fault Refusal :=
  .next (if mustRelease s then { s with gang := none } else s)

/-- TASK_BLOCKING (R288). -/
def execTaskBlocking (slot : Nat) (s : State) : Host.Outcome State Fault Refusal :=
  .next (match s.task? slot with
    | some t =>
      match t.skipped with
      | some since =>
        if ((dispatchOrder s).head?.map (·.slot)) = some slot && decide (since + 2 ^ bcfgSkip s.plat.bcfg ≤ s.now) then
          s.setTask { t with blocking := true }
        else s
      | none => s
    | none => s)

/-- PREEMPT_DEADLINE_EXPIRY (R300). -/
def execPreemptDeadlineExpiry (n : Nat) (s : State) : Host.Outcome State Fault Refusal := .next (expirePreempt s n)

/-! ### The end of a team (R289) -/

/-- Every group and the lantern of a team release at device scope (R147). -/
def releaseTeam (s : State) (x : Team) : State × Bool :=
  let fronts := (s.groups.filter (fun g => g.team = x.id)).map (fun g => (g.core, g.slot)) ++
    (s.lanterns.filter (fun l => l.team = x.id)).map (fun l => (l.core, l.slot))
  releaseAll 4 fronts s

/-- Write-back starts (R289): when the last group has retired and its entries can be taken. Until then it waits in its turn
(R253). -/
def startWriteBack (s : State) (teamId : Nat) : State :=
  match s.team? teamId with
  | none => s
  | some x =>
    let outs := x.regions.filter (·.outs)
    if x.writingBack || s.saving x.ctx || s.groups.any (fun g => g.team = teamId && !g.retired) then s
    else if !mayLock s x.core x.ticket (regionLocks outs) || Config.journalEntries < s.journal.length + outs.length then
      (if x.ticket.isSome then s else (s.setTeam { x with ticket := some s.ids }).fresh)
    else
      let (s1, ok) := releaseTeam s x
      if !ok then s1
      else
        match s1.team? teamId with
        | some x1 => outs.foldl (startRegion true teamId) (s1.setTeam { x1 with writingBack := true, ticket := none })
        | none => s1

/-- TEAM_WRITE_BACK_START. -/
def execTeamWriteBackStart (team : Nat) (s : State) : Host.Outcome State Fault Refusal := .next (startWriteBack s team)

/-- The bit that a retiring team sets: its index, or its record's when it is the last of the record (R231). -/
def retiringBit (s : State) (t : Task) (x : Team) : Option Nat :=
  if recKind t.record = 1 then
    let more := s.teams.any (fun y => y.slot = x.slot && y.id ≠ x.id && y.recIdx = x.recIdx) || t.flushed.any (fun f => f.2.1 = x.recIdx)
      || t.recIdx = x.recIdx
    if more then none else some x.recIdx
  else some x.index

/-- Whether a team has nothing in flight: groups freed, operations of its lantern complete, agents done (R72, R289). -/
def teamIdle (s : State) (x : Team) : Bool :=
  x.writingBack && !(s.groups.any (fun g => g.team = x.id)) && !(s.lanterns.any (fun l => l.team = x.id && l.fe.ops ≠ []))
    && !(s.agents.any (fun a => a.team = some x.id)) && !(s.journal.any (fun j => j.teamId = some x.id))

/-- A team retires (R289): it releases, its bit is set, and its resources return. -/
def retireTeam (s : State) (teamId : Nat) : State :=
  match s.team? teamId with
  | none => s
  | some x =>
    if !teamIdle s x || s.saving x.ctx then s
    else
      let s1 := x.sides.foldl (fun s d => drainOut s d.core (fun e => inScope 4 e.loc)) (s.lanterns.filter (fun l => l.team = teamId) |>.foldl (fun s l => drainQueue s l.core l.slot) s)
      if x.sides.any (fun d => (s1.channel d.core).any (fun e => inScope 4 e.loc)) then s1
      else
        let s2 := match s1.task? x.slot with
          | some t =>
            match retiringBit s1 t x with
            | some b => setBitmap s1 t b
            | none => s1
          | none => s1
        settleRequests (s2.removeTeam teamId).settled

/-- TEAM_RETIREMENT. -/
def execTeamRetirement (team : Nat) (s : State) : Host.Outcome State Fault Refusal := .next (retireTeam s team)

/-- Whether results of an operation have still to land. -/
def opLands (s : State) (core slot op : Nat) : Bool :=
  ((s.front? core slot).map (fun f => f.ops.any (fun o => o.id = op && o.lands ≠ []))).getD false

/-- An agent that owes no step completes (R148, R233, R289, R294). The completion of a KACC waits for its statuses, which releases
its range too (R187). -/
def finishAgent (s : State) (id : Nat) : State :=
  match s.agents.find? (fun a => a.id = id) with
  | none => s
  | some a =>
    if a.steps ≠ [] then s
    else
      let gone : State := let s1 := s.dropAgent a; { s1 with journal := s1.journal.filter (fun j => j.agent ≠ id) }
      match a.fin with
      | .op core slot op => if opLands s core slot op then s else (s.dropAgent a).opDone core slot op
      | .post core slot op sd => finishPost s a core slot op sd
      | .staging => gone
      | .writeBack => gone
      | .copyTask slot => settleRequests (completeTask gone slot)
      | .cpy _ _ => s
      | .tile => s
      | .collective _ => s

/-- AGENT_COMPLETE. -/
def execAgentComplete (agent : Nat) (s : State) : Host.Outcome State Fault Refusal := .next (finishAgent s agent)

/-! ### Resume (R301) -/

/-- A PARKED task goes back to its resume state (R282, R301). One that is READY again meets a gang's reservation (R291). -/
def resumeTask (s : State) (slot : Nat) : State :=
  match s.task? slot with
  | some t =>
    if t.state = .parked then
      let st := if t.resume = .active && recKind t.record < 3 && !(s.teams.any (fun x => x.slot = slot)) then TaskState.ready else t.resume
      let t1 : Task := { t with state := st }
      let s1 := s.setTask t1
      if st = .ready then s1.readied t1 else s1.enters t1
    else s
  | none => s

/-- PARKED tasks resume, complete if nothing of them is left, and their discarded agents are replayed. -/
def resumeTasks (s : State) (slots : List Nat) : State := replayAll ((slots.foldl resumeTask s).settled)

end Sys2Proof.Machine
end

