-- ==== Sys2Proof/Machine/Crypto.lean ====
section
/-! DEFINITION. SHA-512 and Ed25519, which R363 and R366 name and do not define: PRESUMED (log 8) as FIPS 180-4 and RFC 8032
have them. -/

namespace Sys2Proof.Machine

/-! ### SHA-512 -/

/-- Words of 64 bits, as numbers. -/
def wordTop : Nat := 2 ^ 64
def addW (a b : Nat) : Nat := (a + b) % wordTop

/-- The exclusive or of a word turned right by each amount of a list. -/
def turnsW (amounts : List Nat) (x : Nat) : Nat := amounts.foldl (fun y n => y ^^^ x * (wordTop + 1) / 2 ^ n % wordTop) 0

/-- The greatest number whose `k`-th power is at most `x`, with `bits` more bits below those of `r`. -/
def rootFrom (k x : Nat) : (bits : Nat) → (r : Nat) → Nat
  | 0, r => r
  | bits + 1, r => rootFrom k x bits (if (r + 2 ^ bits) ^ k ≤ x then r + 2 ^ bits else r)

/-- The first 64 bits of the fraction of the `k`-th root of `p`. -/
def rootFraction (k p : Nat) : Nat := rootFrom k (p * wordTop ^ k) 72 0 % wordTop

/-- The primes below 410, of which there are 80, by striking out multiples. -/
def sieve : (steps : Nat) → List Nat → List Nat
  | n + 1, p :: rest => p :: sieve n (rest.filter (fun q => q % p ≠ 0))
  | _, _ => []
def shaPrimes : List Nat := sieve 80 (upFrom 2 408)

/-- The eighty round constants come from cube roots, the hash value before the first block from eight square roots. -/
def shaK : List Nat := shaPrimes.map (rootFraction 3)
def shaStart : List Nat := (shaPrimes.take 8).map (rootFraction 2)

/-- A big-endian number of some bytes. -/
def bigOf (bs : List Byte) : Nat := bs.foldl (fun n b => n * 256 + b.toNat) 0

/-- A big-endian number in `n` bytes. -/
def bigBytes (n x : Nat) : List Byte := (bytesOf n x).reverse

/-- A message with its padding: a one bit, zeros, and its length in bits, up to a multiple of 128 bytes. -/
def shaPad (msg : List Byte) : List Byte :=
  let n := msg.length
  msg ++ [(0x80 : Byte)] ++ List.replicate ((239 - n % 128) % 128) 0 ++ bigBytes 16 (8 * n)

/-- The next word of the message schedule, from the last sixteen, oldest first. -/
def shaNext (ws : List Nat) : Nat :=
  let old (i : Nat) := ws.getD i 0
  let near := turnsW [19, 61] (old 14) ^^^ old 14 / 2 ^ 6
  let far := turnsW [1, 8] (old 1) ^^^ old 1 / 2 ^ 7
  (old 0 + far + old 9 + near) % wordTop

/-- One round on the eight working words: all move one place down, the first is new and the fifth takes the round's sum too. Where the
fifth word has a bit, the choice is the sixth word's, else the seventh's; the vote is what two of the first three words have. -/
def shaRound (k w : Nat) (r : List Nat) : List Nat :=
  let at' (i : Nat) := r.getD i 0
  let choice := at' 6 ^^^ at' 4 &&& (at' 5 ^^^ at' 6)
  let vote := at' 0 &&& (at' 1 ||| at' 2) ||| at' 1 &&& at' 2
  let sum := at' 7 + turnsW [14, 18, 41] (at' 4) + choice + k + w
  addW sum (turnsW [28, 34, 39] (at' 0) + vote) :: (r.take 7).set 3 (addW (at' 3) sum)

/-- The rounds with their constants. -/
def shaRounds : List Nat → List Nat → List Nat → List Nat
  | [], _, r => r
  | k :: ks, ws, r => shaRounds ks (ws.drop 1 ++ [shaNext ws]) (shaRound k (ws.headD 0) r)

/-- One block of 128 bytes joins the hash. -/
def shaBlock (h : List Nat) (block : List Byte) : List Nat :=
  let ws := (upFrom 0 16).map (fun i => bigOf ((block.drop (8 * i)).take 8))
  (h.zip (shaRounds shaK ws h)).map (fun p => addW p.1 p.2)

/-- The bytes of the SHA-512 digest of a message. -/
def sha512Bytes (msg : List Byte) : List Byte :=
  let m := shaPad msg
  ((upFrom 0 (m.length / 128)).foldl (fun h i => shaBlock h ((m.drop (128 * i)).take 128)) shaStart).flatMap (bigBytes 8)

/-- The digest as a number whose lowest byte is the first (log 8). -/
def sha512 (msg : List Byte) : BitVec 512 := BitVec.ofNat 512 (natOf (sha512Bytes msg))

/-! ### The curve of Ed25519 -/

def edP : Nat := 2 ^ 255 - 19
/-- The order of the base point. -/
def edL : Nat := 2 ^ 252 + 27742317777372353535851937790883648493
def edD : Nat := 0x52036cee2b6ffe738cc740797779e89800700a4d4141d8ab75eb4dca135978a3
/-- A square root of -1. -/
def edI : Nat := 0x2b8324804fc1df0b2b4d00993dfbd7a72f431806ad2fe478c4ee1b274a0ea0b0
def edX : Nat := 0x216936d3cd6e53fec0a4e231fdd6dc5c692cc7609525a7b2c9562d608f25d51a
def edY : Nat := 0x6666666666666666666666666666666666666666666666666666666666666658

def addP (a b : Nat) : Nat := (a + b) % edP
def subP (a b : Nat) : Nat := (a + edP - b % edP) % edP
def mulP (a b : Nat) : Nat := a * b % edP

/-- A power modulo p, by the low `n` bits of the exponent. -/
def powP : Nat → Nat → Nat → Nat
  | 0, _, _ => 1
  | n + 1, a, e => let r := powP n (mulP a a) (e / 2); if e % 2 = 1 then mulP a r else r

def invP (a : Nat) : Nat := powP 255 a (edP - 2)

/-- A point in extended coordinates. -/
structure EdPoint where
  x : Nat
  y : Nat
  z : Nat
  t : Nat
  deriving DecidableEq, Repr

def edZero : EdPoint := { x := 0, y := 1, z := 1, t := 0 }
def edBase : EdPoint := { x := edX, y := edY, z := 1, t := mulP edX edY }

/-- The sum of two points. -/
def edAdd (p q : EdPoint) : EdPoint :=
  let a := mulP (subP p.y p.x) (subP q.y q.x)
  let b := mulP (addP p.y p.x) (addP q.y q.x)
  let c := mulP (mulP (2 * p.t) q.t) edD
  let d := mulP (2 * p.z) q.z
  let e := subP b a
  let f := subP d c
  let g := addP d c
  let h := addP b a
  { x := mulP e f, y := mulP g h, z := mulP f g, t := mulP e h }

/-- A multiple of a point, by the low `n` bits of the number. -/
def edMul : Nat → EdPoint → Nat → EdPoint
  | 0, _, _ => edZero
  | n + 1, p, k => let r := edMul n (edAdd p p) (k / 2); if k % 2 = 1 then edAdd p r else r

/-- Whether two points are equal. -/
def edSame (p q : EdPoint) : Bool := mulP p.x q.z = mulP q.x p.z && mulP p.y q.z = mulP q.y p.z

/-- A point as a number of 256 bits: y, and the low bit of x above it. -/
def edPack (p : EdPoint) : Nat :=
  let i := invP p.z
  mulP p.y i + mulP p.x i % 2 * 2 ^ 255

/-- The point of a number of 256 bits, if it is one's. -/
def edUnpack (n : Nat) : Option EdPoint :=
  let y := n % 2 ^ 255
  let sign := n / 2 ^ 255 % 2
  let xx := mulP (subP (mulP y y) 1) (invP (addP (mulP edD (mulP y y)) 1))
  let r := powP 255 xx ((edP + 3) / 8)
  let x := if mulP r r = xx then r else mulP r edI
  if edP ≤ y || mulP x x ≠ xx || (x = 0 && sign = 1) then none
  else
    let x1 := if x % 2 = sign then x else edP - x
    some { x := x1, y := y, z := 1, t := mulP x1 y }

/-! ### Keys and signatures -/

/-- The secret number of a key, and the bytes that its signatures hash first. -/
def edSecret (key : BitVec 256) : Nat × List Byte :=
  let h := sha512Bytes (bytesOf 32 key.toNat)
  let a := natOf (h.take 32) % 2 ^ 254
  (a - a % 8 + 2 ^ 254, h.drop 32)

/-- The public key of a key. -/
def ed25519Public (key : BitVec 256) : BitVec 256 := BitVec.ofNat 256 (edPack (edMul 255 edBase (edSecret key).1))

/-- The number that a signature's hash stands for. -/
def edHash (bs : List Byte) : Nat := natOf (sha512Bytes bs) % edL

/-- The signature of a message. -/
def ed25519Sign (key : BitVec 256) (msg : List Byte) : BitVec 512 :=
  let a := edSecret key
  let pub := bytesOf 32 (ed25519Public key).toNat
  let r := edHash (a.2 ++ msg)
  let p := edPack (edMul 253 edBase r)
  let k := edHash (bytesOf 32 p ++ pub ++ msg)
  BitVec.ofNat 512 (p + (r + k * a.1) % edL * 2 ^ 256)

/-- Whether a signature of a message verifies under a public key. -/
def ed25519Verify (key : BitVec 256) (msg : List Byte) (sig : BitVec 512) : Bool :=
  let r := sig.toNat % 2 ^ 256
  let n := sig.toNat / 2 ^ 256
  match edUnpack key.toNat, edUnpack r with
  | some a, some p =>
    let k := edHash (bytesOf 32 r ++ bytesOf 32 key.toNat ++ msg)
    n < edL && edSame (edMul 253 edBase n) (edAdd p (edMul 253 a k))
  | _, _ => false

end Sys2Proof.Machine
end

