-- ==== Sys2Proof/Machine/Image.lean ====
section
/-! DEFINITION. The context image: its layout, its writing at a context save and its reading at a restore (R318-R320,
R323). What the image has no place for is kept beside it, and is built from what the image holds where nothing was kept
(log 51). -/

namespace Sys2Proof.Machine

/-! ### Laying out bytes -/

/-- Bytes with the places of those that are poisoned. -/
abbrev Piece := List Byte × List Nat

def Piece.cat (a b : Piece) : Piece := (a.1 ++ b.1, a.2 ++ b.2.map (· + a.1.length))

def catAll (ps : List Piece) : Piece := ps.foldl Piece.cat ([], [])

/-- Zeros up to a multiple of `n`. -/
def padTo (n : Nat) (p : Piece) : Piece := (p.1 ++ List.replicate ((n - p.1.length % n) % n) 0, p.2)

/-- A block of `n` bytes with fields at offsets; the rest is zero. -/
def fieldsAt (n : Nat) (fs : List (Nat × List Byte)) : Piece :=
  ((fs.foldl (fun (m : Memory) f => m.write f.1 f.2) []).read 0 n, [])

/-- Fifteen counts of four bits (R306, R319). -/
def packToks (ts : List Nat) : List Byte := bytesOf 8 (ts.foldr (fun c acc => c % 16 + 16 * acc) 0)
def unpackToks (n : Nat) : List Nat := (upFrom 0 15).map (fun i => n / 16 ^ i % 16)

/-- Park-state codes (R319). -/
def parkCode : Park → Nat
  | .none => 0
  | .join => 1
  | .presence => 2
  | .queue => 3
  | .bitmap => 4
  | .splitGather => 5
  | .trap => 6
  | .wait => 7

def parkOf (n : Nat) : Park :=
  match n with
  | 1 => .join
  | 2 => .presence
  | 3 => .queue
  | 4 => .bitmap
  | 5 => .splitGather
  | 6 => .trap
  | 7 => .wait
  | _ => .none

/-! ### The blocks of R319 -/

/-- A held queue operation: the group's index, or 0xFF for the lantern. -/
def heldBytes (s : State) (h : HeldOp) : List Byte :=
  bytesOf 1 (if h.push then 2 else 1) ++ bytesOf 1 (if h.push then 0xFF else groupIndex s h.core h.slot) ++ bytesOf 1 h.sa.toNat
    ++ bytesOf 1 h.tok.toNat ++ bytesOf 4 0 ++ bytesOf 8 h.value.toNat

def headerBlock (s : State) (t : Team) (len : Nat) : Piece :=
  fieldsAt 1024
    [(0, bytesOf 8 len), (8, bytesOf 2 t.slot), (12, bytesOf 4 t.index)
    , (16, bytesOf 1 ((if t.pair then 1 else 0) + (if t.lantern then 2 else 0) + (if t.lanternRetired then 4 else 0)))
    , (17, bytesOf 1 (t.side t.core).turnstile), (18, bytesOf 1 (if t.pair then (t.side (t.core + 1)).turnstile else 0))
    , (19, bytesOf 1 t.dq.length), (20, bytesOf 1 t.rot), (21, bytesOf 1 t.held.length)
    , (64, t.dq.flatMap (fun v => bytesOf 8 v.toNat)), (512, t.held.flatMap (heldBytes s))]

def lanternBlock (l : Lantern) : Piece :=
  fieldsAt 1024
    [(0, bytesOf 8 l.pc.toNat), (8, bytesOf 1 (parkCode l.park)), (64, (upFrom 0 64).flatMap (fun i => bytesOf 8 (l.fe.sreg i).toNat))
    , (576, packToks l.fe.tok), (584, packToks l.fe.hk), (592, bytesOf 4 l.fe.cdepth.toNat), (596, bytesOf 8 l.fe.epc.toNat)
    , (604, bytesOf 1 (if l.fe.handler then 1 else 0)), (605, bytesOf 2 l.core), (607, bytesOf 1 (l.slot - 128))]

def groupBlock (g : Group) : Piece :=
  fieldsAt 1024
    [(0, (upFrom 0 64).flatMap (fun i => bytesOf 8 (g.fe.sreg i).toNat)), (512, g.m.flatMap (fun m => bytesOf 8 m.toNat))
    , (640, g.q.flatMap (fun m => bytesOf 8 m.toNat)), (768, g.x.flatMap (fun m => bytesOf 8 m.toNat)), (896, packToks g.fe.tok)
    , (904, bytesOf 4 g.fpc.toNat ++ bytesOf 4 g.dph.toNat ++ bytesOf 4 g.specm.toNat ++ bytesOf 4 g.specr.toNat ++ bytesOf 4 g.fe.cdepth.toNat)
    , (924, packToks g.fe.hk), (932, bytesOf 1 (if g.fe.handler then 1 else 0)), (933, bytesOf 1 (if g.poison = [] then 0 else 1))
    , (936, bytesOf 8 ((g.poison.headD (0, 0)).2).toNat), (944, bytesOf 8 g.fe.epc.toNat), (952, bytesOf 2 g.core), (954, bytesOf 1 g.slot)]

def laneBytesOf (vregs : Nat) (l : Lane) : List Byte :=
  bytesOf 8 l.pc.toNat ++ bytesOf 8 l.rng.toNat ++ bytesOf 8 l.draws.toNat ++ bytesOf 6 l.p.toNat
    ++ bytesOf 1 ((if l.live then 1 else 0) + 2 * parkCode l.park + (if l.handler then 16 else 0)) ++ bytesOf 33 0
    ++ (upFrom 0 vregs).flatMap (fun r => bytesOf 4 (l.reg r).toNat)

def slicePiece (laneb : Nat) (l : Lane) : Piece := (l.slice.read 0 laneb, l.bad.flatMap (fun b => upFrom b 4))

def blockPiece (n : Nat) (b : Block) : Piece := (b.data.read 0 n, b.poison)

def tilesPiece (t : Team) (d : Side) : Piece :=
  padTo 64 (catAll ((upFrom 0 t.tiles).flatMap (fun i => [blockPiece 16384 (d.tile i), blockPiece 4096 (d.comp i)]) ++
    (upFrom 0 t.tiles).map (fun i => (bytesOf 4 (d.shape i).toNat, []))))

def accsPiece (t : Team) (d : Side) : Piece := catAll ((upFrom 0 t.accs).map (fun i => blockPiece 16384 (d.acc i)))

/-- The keyed partition, padded as every block is; the order of its first five fields is the model's (log 52). -/
def keyedPiece (t : Team) (d : Side) : Piece :=
  let k := d.keyed
  padTo 64 ((bytesOf 8 k.cfg.toNat ++ bytesOf 4 k.base.toNat ++ bytesOf 4 k.len.toNat ++ bytesOf 4 k.entries.length ++ bytesOf 4 k.next.toNat
      ++ bytesOf 4 k.pos.toNat ++ bytesOf 1 (if k.configured then 1 else 0) ++ bytesOf 35 0)
    ++ ((bySeq k.entries).flatMap (keyedRecord t d.core 0)
    ++ List.replicate (32 * (t.kas - k.entries.length)) 0), [])

/-- Presence bits and lines of a team's allocation on a core. -/
def scratchPiece (s : State) (t : Team) (d : Side) : Piece :=
  let base := scratchLoc d.core (d.base * 64)
  let bit (i : Nat) (b : Nat) : Nat := if 8 * i + b < t.lines && !(s.lineAbsent (base + 64 * (8 * i + b))) then 2 ^ b else 0
  let bits := (upFrom 0 ((t.lines + 511) / 512 * 64)).map (fun i => BitVec.ofNat 8 ((upFrom 0 8).foldl (fun n b => n + bit i b) 0))
  catAll [(bits, []), (s.bytes base (64 * t.lines), s.badOffsets base (64 * t.lines))]

/-- A group's block, lanes and slices; a group whose slot was freed is written with no live lane (R72). -/
def groupPieces (s : State) (t : Team) (i : Nat) : List Piece :=
  let g := (s.groups.find? (fun g => g.team = t.id && g.index = i)).getD
    { core := t.core, slot := 0, team := t.id, index := i, width := t.width
      lanes := List.replicate t.width { live := false, v := List.replicate t.vregs 0 } }
  [groupBlock g, padTo 64 (g.lanes.flatMap (laneBytesOf t.vregs), []), padTo 64 (catAll (g.lanes.map (slicePiece t.laneb)))]

/-- The image of one team. -/
def teamImage (s : State) (t : Team) : Piece :=
  let sides := t.side t.core :: (if t.pair then [t.side (t.core + 1)] else [])
  let body := catAll (
    (if t.lantern then (s.lanterns.filter (fun l => l.team = t.id)).map lanternBlock else [])
      ++ (upFrom 0 t.gpt).flatMap (groupPieces s t)
      ++ sides.flatMap (fun d => [tilesPiece t d, accsPiece t d, keyedPiece t d, scratchPiece s t d]))
  (headerBlock s t (1024 + body.1.length)).cat body

/-- The image of a context (R319). -/
def contextImage (s : State) (ctx : Nat) (teams : List Team) : Piece :=
  let body := teams.foldl (fun (acc : Piece) t => padTo 4096 (acc.cat (teamImage s t))) ([], [])
  let len := 4096 + body.1.length
  let head := bytesOf 4 Config.archv.toNat ++ bytesOf 4 teams.length ++ bytesOf 8 len ++ bytesOf 1 ctx ++ bytesOf 47 0
  (padTo 4096 (head, [])).cat body

/-! ### The buffer -/

/-- Whether a range of a context lies in DRAM pages with a permission, none of them held (R269, R318). -/
def dramRange (s : State) (ctx va n : Nat) (need : Need) : Bool :=
  va + n ≤ 2 ^ 48 && (pagesOf va n).all (fun p =>
    match xlateFor s ctx (max p va) need with
    | .ok q => !q.lap && isDram q.loc
    | .fault _ => false)

def rangeHeld (s : State) (ctx va n : Nat) : Bool :=
  (pagesOf va n).any (fun p => match xlate s ctx (max p va) with | .ok q => held s.care q.loc | .fault _ => false)

/-- Write bytes at a virtual address, line by line; a line with a poisoned byte is written as poisoned (R274). -/
def putImage (s : State) (ctx va : Nat) (p : Piece) : State :=
  (virtParts s ctx va p.1.length 0).foldl (fun s q =>
    let s1 := s.put q.1 ((p.1.drop q.2.2.1).take q.2.1)
    if p.2.any (fun i => q.2.2.1 ≤ i && i < q.2.2.1 + q.2.1) then s1.poison1 (unitOf q.1) else s1) s

/-- Read bytes at a virtual address, with the places of poisoned ones. -/
def getImage (s : State) (ctx va n : Nat) : Piece :=
  let ps := virtParts s ctx va n 0
  (ps.flatMap (fun q => s.bytes q.1 q.2.1), ps.flatMap (fun q => (s.badOffsets q.1 q.2.1).map (· + q.2.2.1)))

/-! ### Saving (R318) -/

/-- Operations that a save does not wait for: slices of team copies and held queue operations. -/
def openOps (s : State) (ctx : Nat) : List Nat :=
  (s.agents.filter (fun a => a.ctx = ctx)).flatMap (fun a => match a.fin with | .cpy ops _ => ops.map (fun o => o.2.2) | _ => [])
    ++ (s.teams.filter (fun t => t.ctx = ctx)).flatMap (fun t => t.insts.flatMap (fun n => n.slices.map (·.op)) ++ t.held.map (·.op))

def Front.drained (f : Front) (ops : List Nat) : Bool := f.ops.all (fun o => ops.contains o.id && o.lands = [] && o.sq = 0)

/-- Whether step 3 of R318 is complete for a context. -/
def drained (s : State) (ctx : Nat) : Bool :=
  let ids := (s.teams.filter (fun t => t.ctx = ctx)).map (·.id)
  let ops := openOps s ctx
  !(s.issue.any (fun b => (s.teamOf b.core b.slot).map (·.ctx) = some ctx)) && (s.groups.filter (fun g => ids.contains g.team)).all (fun g => g.spec.isNone && g.fe.drained ops)
    && (s.lanterns.filter (fun l => ids.contains l.team)).all (fun l => l.fe.drained ops)
    && (s.teams.filter (fun t => t.ctx = ctx)).all (fun t => t.sides.all (fun d => d.queue = []))
    && !(s.fabric.insts.any (fun c => c.ctx = ctx))
    && !(s.agents.any (fun a => a.ctx = ctx && decide (1 ≤ a.kind) && decide (a.kind ≤ 4)) || s.agents.any (fun a => a.ctx = ctx && a.kind = 8))

/-- Splits that wait to enter a handler are saved unparked at their unit, and the poison reports that they took are pending again; a
single-step stop is dropped (R318). Pending
fixed-latency writes land, since the image has no place for them (log 51). -/
def Group.unpark (g : Group) : Group :=
  let back (i : Nat) (l : Lane) : Lane :=
    match g.traps.find? (fun t => t.lanes.getLsbD i) with
    | some t => { l with park := .none, gather := .none, pc := if t.step then l.pc else t.unit }
    | none => l
  let g1 := g.upd g.liveLanes (fun _ l => l.settle)
  { (g1.upd (g1.where (fun _ l => l.park = .trap)) back) with traps := [], poison := g.traps.flatMap (·.reports) ++ g.poison, stopped := g.stopped && g.fe.handler, cyc := [], withheld := [] }

def Lantern.unpark (l0 : Lantern) : Lantern :=
  let l := l0.settle
  match l.traps with
  | t :: _ => { l with park := .none, pc := t.unit, traps := [] }
  | [] => l

/-- The context as it is saved: copies and journalled agents discarded, splits unparked (R318, steps 4 and 5). -/
def beforeImage (s : State) (ctx : Nat) : State :=
  let s1 := (s.agents.filter (fun a => a.ctx = ctx && (a.kind = 0 || a.journalled))).foldl discardAgent s
  let ids := (s1.teams.filter (fun t => t.ctx = ctx)).map (·.id)
  { s1 with groups := s1.groups.map (fun g => if ids.contains g.team then g.unpark else g)
            lanterns := s1.lanterns.map (fun l => if ids.contains l.team then l.unpark else l) }

/-- Release at system scope of the groups and lanterns of a context. -/
def releaseContext (s : State) (ctx : Nat) : State × Bool :=
  (s.teams.filter (fun t => t.ctx = ctx)).foldl (fun (acc : State × Bool) t =>
    let fronts := (acc.1.groups.filter (fun g => g.team = t.id)).map (fun g => (g.core, g.slot)) ++
      (acc.1.lanterns.filter (fun l => l.team = t.id)).map (fun l => (l.core, l.slot))
    let (s1, ok) := releaseAll 5 fronts acc.1
    (s1, acc.2 && ok)) (s, true)

/-- The teams of a context leave, kept beside the image (log 51); the journal stays (R317). -/
def freeContext (s : State) (ctx : Nat) : State :=
  let ts := s.teams.filter (fun t => t.ctx = ctx)
  let ids := ts.map (·.id)
  let kept : List Kept := ts.map (fun t =>
    { ctx := ctx, image := (teamImage s t).1, team := t, groups := s.groups.filter (fun g => g.team = t.id), lanterns := s.lanterns.filter (fun l => l.team = t.id) })
  { s with teams := s.teams.filter (fun t => t.ctx ≠ ctx), groups := s.groups.filter (fun g => !ids.contains g.team)
           lanterns := s.lanterns.filter (fun l => !ids.contains l.team), kept := s.kept ++ kept
           tasks := s.tasks.map (fun t => if t.ctx = ctx && t.state = .preempting then { t with state := .parked } else t) }

/-- A save ends without an image: the buffer faulted, and the context goes on (log 53). -/
def failSave (s : State) (v : Saving) : State :=
  let back (t : Task) : Task := if t.ctx = v.ctx && t.state = .preempting then { t with state := t.resume } else t
  let s1 : State := { s with tasks := s.tasks.map back, saves := s.saves.drop 1 }
  flushSaves (s1.answer 0x88 v.ctx v.seqNo 0xFFFFFFFFFFFFFFFF)

/-- A context that has drained is saved (R318), once the saves requested before it have ended (R345). -/
def finishSave (s : State) (ctx : Nat) : State :=
  match s.saves.head?.filter (fun v => v.ctx = ctx && v.gone.isNone) with
  | none => s
  | some v =>
    if !drained s ctx then s
    else
      let (s1, ok) := releaseContext s ctx
      if !ok then s1
      else
        let s2 := beforeImage s1 ctx
        let img := contextImage s2 ctx (s2.teams.filter (fun t => t.ctx = ctx))
        let n := img.1.length
        let va := v.va.toNat
        let s1 := if va + n ≤ 2 ^ 48 then s1.touchRange ctx va n else s1
        if !dramRange s1 ctx va n .write then failSave s1 v
        else if rangeHeld s1 ctx va n then s1
        else
          let s3 := freeContext (putImage (s2.touchRange ctx va n) ctx va img) ctx
          let s4 : State := { s3 with saves := s3.saves.drop 1 }
          settleRequests (flushSaves (s4.answer 0x88 ctx v.seqNo (BitVec.ofNat 64 n)))

/-- CONTEXT_SAVE_COMPLETE. -/
def execContextSaveComplete (ctx : Nat) (s : State) : Host.Outcome State Fault Refusal := .next (finishSave s ctx)

/-- A save request (R318): placing stops, tasks enter PREEMPTING, reservations are released. -/
def beginSave (s : State) (ctx : Nat) (va : DWord) (seqNo : BitVec 16) : State :=
  let gang := match s.gang with
    | some g => if s.tasks.any (fun t => t.slot = g.slot && t.ctx = ctx) then none else some g
    | none => none
  let stop (t : Task) : Task :=
    if t.ctx = ctx && t.state ≠ .preempting && t.state ≠ .parked then
      { t with resume := t.state, state := .preempting, blocking := false, skipped := none, ticket := none }
    else t
  let s1 := s.idleReplays (fun j => j.ctx = ctx)
  { s1 with saves := s1.saves ++ [{ ctx := ctx, seqNo := seqNo, va := va }], gang := gang, tasks := s1.tasks.map stop }

/-! ### Restoring (R320) -/

/-- Part of a piece. -/
def Piece.sub (p : Piece) (off n : Nat) : Piece :=
  ((p.1.drop off).take n, (p.2.filter (fun i => off ≤ i && i < off + n)).map (· - off))

def Piece.nat (p : Piece) (off n : Nat) : Nat := natOf ((p.1.drop off).take n)

def toBlock (p : Piece) : Block := { data := Memory.write [] 0 p.1, poison := p.2.foldl (fun l i => insertNat i l) [] }

/-- A location in the old allocation of a team, in its new one. -/
def moveLoc (old new : Team) (loc : Nat) : Nat :=
  let at1 (d e : Side) : Option Nat :=
    let b := scratchLoc d.core (d.base * 64)
    if b ≤ loc && loc < b + 64 * old.lines then some (scratchLoc e.core (e.base * 64) + (loc - b)) else none
  match old.sides, new.sides with
  | d :: ds, e :: es =>
    match at1 d e with
    | some l => l
    | none =>
      match ds, es with
      | d :: _, e :: _ => (at1 d e).getD loc
      | _, _ => loc
  | _, _ => loc

/-- A lane as the image holds it; what the image leaves out comes from the lane that was kept, if one was (log 51). -/
def readLane (p : Piece) (sl : Piece) (vregs : Nat) (old : Option Lane) (mv : Nat → Nat) : Lane :=
  let b := p.nat 30 1
  let base : Lane := match old with
    | some l => { l with want := l.want.map (fun w => { w with addr := mv w.addr }) }
    | none => {}
  { base with
      pc := BitVec.ofNat 48 (p.nat 0 8), rng := BitVec.ofNat 64 (p.nat 8 8), draws := BitVec.ofNat 64 (p.nat 16 8)
      p := BitVec.ofNat 48 (p.nat 24 6), live := b % 2 = 1, park := parkOf (b / 2 % 8), handler := b / 16 % 2 = 1
      v := (upFrom 0 vregs).map (fun r => BitVec.ofNat 32 (p.nat (64 + 4 * r) 4))
      slice := Memory.write [] 0 sl.1, bad := sl.2.foldl (fun l i => insertNat (i - i % 4) l) [] }

/-- The front of a group or lantern from its block's fields. -/
def readFront (old : Front) (p : Piece) (sOff tok hk cd epc : Nat) (h : Bool) : Front :=
  { old with
      s := (upFrom 0 64).map (fun i => BitVec.ofNat 64 (p.nat (sOff + 8 * i) 8)), tok := unpackToks (p.nat tok 8)
      hk := unpackToks (p.nat hk 8), cdepth := BitVec.ofNat 32 (p.nat cd 4), epc := BitVec.ofNat 48 (p.nat epc 8), handler := h
      sq := [], acqs := [] }

/-- What a group waits for, in the new allocation. -/
def Waiting.move (mv : Nat → Nat) : Waiting → Waiting
  | .load loc n sa tok off word pfx => .load (mv loc) n sa tok off word pfx
  | w => w

/-- A restored group, at its new core and slot. -/
def readGroup (t : Team) (p lanes slices : Piece) (i core n slot : Nat) (old : Option Group) (mv : Nat → Nat) : Group :=
  let base : Group := old.getD { core := core, slot := slot, team := t.id, index := i, width := t.width, lanes := [] }
  let masks (off : Nat) : List LaneSet := (upFrom 0 16).map (fun k => BitVec.ofNat 64 (p.nat (off + 8 * k) 8))
  let w := 64 + 4 * t.vregs
  let ls := (upFrom 0 t.width).map (fun k =>
    readLane (lanes.sub (w * k) w) (slices.sub (t.laneb * k) t.laneb) t.vregs (old.map (fun g => g.lane k)) mv)
  let live := ls.any (·.live)
  { base with
      core := core, slot := slot, team := t.id, bay := (n + t.bayOff) % 4, half := n / 4 % 2
      fe := readFront base.fe p 0 896 924 920 944 (p.nat 932 1 % 2 = 1)
      m := masks 512, q := masks 640, x := masks 768
      fpc := BitVec.ofNat 32 (p.nat 904 4) &&& fpcBits, dph := BitVec.ofNat 32 (p.nat 908 4) &&& dphBits, specm := BitVec.ofNat 32 (p.nat 912 4)
      specr := BitVec.ofNat 32 (p.nat 916 4), lanes := ls, waiting := base.waiting.move mv, retired := !live
      poison := if p.nat 933 1 % 2 = 1 then (if base.poison = [] then [(0, BitVec.ofNat 64 (p.nat 936 8))] else base.poison) else [] }

def readLantern (t : Team) (p : Piece) (core slot : Nat) (old : Option Lantern) (mv : Nat → Nat) : Lantern :=
  let base : Lantern := old.getD { core := core, slot := slot, team := t.id }
  { base with
      core := core, slot := slot, team := t.id, pc := BitVec.ofNat 48 (p.nat 0 8)
      park := parkOf (p.nat 8 1)
      fe := readFront base.fe p 64 576 584 592 596 (p.nat 604 1 % 2 = 1), waiting := base.waiting.move mv
      retired := t.lanternRetired }

/-- Keyed entries of a partition from their records. -/
def readKeyed (p : Piece) : Keyed :=
  { configured := p.nat 28 1 = 1, cfg := BitVec.ofNat 64 (p.nat 0 8), base := BitVec.ofNat 64 (p.nat 8 4), len := BitVec.ofNat 64 (p.nat 12 4)
    next := BitVec.ofNat 32 (p.nat 20 4), pos := BitVec.ofNat 64 (p.nat 24 4)
    entries := (upFrom 0 (p.nat 16 4)).map (fun i =>
      let o := 64 + 32 * i
      { key := BitVec.ofNat 64 (p.nat o 8), val := BitVec.ofNat 64 (p.nat (o + 8) 8), count := BitVec.ofNat 32 (p.nat (o + 16) 4)
        aux := BitVec.ofNat 32 (p.nat (o + 20) 4), seqNo := BitVec.ofNat 32 (p.nat (o + 28) 4) }) }

/-- Sizes of the blocks of a side. -/
def up64 (n : Nat) : Nat := (n + 63) / 64 * 64
def tilesSize (t : Team) : Nat := up64 (20484 * t.tiles)
def keyedSize (t : Team) : Nat := up64 (64 + 32 * t.kas)
def bitsSize (t : Team) : Nat := (t.lines + 511) / 512 * 64
def sideSize (t : Team) : Nat := tilesSize t + 16384 * t.accs + keyedSize t + bitsSize t + 64 * t.lines

/-- What a side holds, from its blocks; reserved bits of a shape read as zero (R8, R23). -/
def readSide (t : Team) (p : Piece) (core base turn : Nat) : Side :=
  let a := tilesSize t
  let k := a + 16384 * t.accs
  { core := core, base := base, turnstile := turn
    tiles := (upFrom 0 t.tiles).map (fun i => toBlock (p.sub (20480 * i) 16384))
    comps := (upFrom 0 t.tiles).map (fun i => toBlock (p.sub (20480 * i + 16384) 4096))
    shapes := (upFrom 0 t.tiles).map (fun i => BitVec.ofNat 32 (p.nat (20480 * t.tiles + 4 * i) 4) &&& 0x3FFFFF)
    accs := (upFrom 0 t.accs).map (fun i => toBlock (p.sub (a + 16384 * i) 16384)), keyed := readKeyed (p.sub k (keyedSize t)) }

/-- The scratchpad of a side takes its lines, poison and presence bits. -/
def putScratch (s : State) (t : Team) (p : Piece) (core base : Nat) : State :=
  let o := sideSize t - bitsSize t - 64 * t.lines
  let loc := scratchLoc core (base * 64)
  let lines := p.sub (o + bitsSize t) (64 * t.lines)
  let s1 := (s.store loc lines.1).poisonAt loc lines.2
  (upFrom 0 t.lines).foldl (fun s i =>
    if p.nat (o + i / 8) 1 / 2 ^ (i % 8) % 2 = 1 then s else s.clearPresence [loc + 64 * i]) (s1.presentLines core base t.lines)

/-- Side-buffer records that move with the groups and lanterns of a team (R320): from old core and slot to new. -/
abbrev Moves := List ((Nat × Nat) × (Nat × Nat))

/-! ### Park states of a team of which nothing was kept -/

/-- What a lane waits for at the join of its unit, from the unit's word (R67, R69, R73, R74, R172). -/
def gatherAt (g : Group) (l : Lane) (u : UnitWords) : Gather :=
  match rawDecode u.word with
  | .instr (.l (.join m)) => .join m
  | .instr (.l (.exits a n)) => .exits (g.scalarFor l a.toNat) n.toNat
  | .instr (.l (.regroup p n)) => .regroup p n.toNat
  | _ =>
    if isLset u.word && (majorOf u.word = 22 || majorOf u.word = 23) then
      .cross (fld u.word 3 4) (match u.guard with | some (p, neg) => l.pred p.toNat != neg | none => true)
    else .uset

/-- What a group or lantern waits for at its unit, from the unit's word (R236-R238, R242): none for one that waits in a queue of
its own, or for its turn at the range locks. -/
def waitingAt (f : Front) (u : UnitWords) : Waiting :=
  match rawDecode u.word with
  | .instr (.u (.waitbm a b)) =>
    let sb := f.sreg b.toNat
    .bitmap (f.sreg a.toNat + (sb >>> 3)).toNat (sb.toNat % 8)
  | .instr (.u .tbar) => .barrier 1
  | .instr (.u .pbar) => .barrier 2
  | .instr (.u .synce) => .synce
  | .instr (.u (.dqpop a _)) => .queue a
  | .instr (.u (.dqpush a _)) => .push (f.sreg a.toNat)
  | _ => .none

/-- Whether a lane that waits at an L-set unit goes through the implicit join again (R190). -/
def joinsAgain (t : Team) (core : Nat) (u : UnitWords) : Bool :=
  !isLset u.word || ((majorOf u.word = 26 || majorOf u.word = 27) && kOrd (t.side core).keyed.cfg)

/-- A lane that the image says is parked stands as its unit has it (R320): one parked on presence performs its load again, one in a
join rejoins its requirement, and one that waits for an engine performs its unit again in its turn. -/
def Lane.stand (s : State) (t : Team) (g : Group) (l : Lane) : Lane :=
  let u := unitAt s t.ctx 4 l.pc {}
  let l1 := { l with next := u.pos + 4 }
  match l.park with
  | .none => l
  | .join => { l1 with gather := gatherAt g l u }
  | .queue => { l1 with gather := .uset }
  | .bitmap => { l1 with gather := .uset }
  | .wait =>
    if waitingAt g.fe u = .none then
      { l1 with gather := if joinsAgain t g.core u then .uset else .none, ticket := some s.ids }
    else { l1 with gather := .uset }
  | _ => { l with park := .none }

/-- The lanes and the wait of a group of which nothing was kept. -/
def Group.stand (s : State) (t : Team) (g : Group) : Group :=
  let g1 := g.upd g.liveLanes (fun _ l => l.stand s t g)
  match lanesIn (g1.where (fun _ l => l.live && (l.park = .wait || l.park = .queue || l.park = .bitmap))) with
  | i :: _ => { g1 with waiting := waitingAt g.fe (unitAt s t.ctx 4 (g1.lane i).pc {}) }
  | [] => g1

/-- The same of a lantern. -/
def Lantern.stand (s : State) (t : Team) (l : Lantern) : Lantern :=
  if l.park = .none then l
  else
    let u := unitAt s t.ctx 4 l.pc {}
    let l1 := { l with next := u.pos + 4, counted := true }
    let w := waitingAt l.fe u
    if l.park = .wait || l.park = .queue || l.park = .bitmap then
      { l1 with waiting := if w = .none then .lock s.ids else w }
    else { l with park := .none }

/-- ECAUSE of a handler: the vector that its record names (R240, R306). -/
def recordVec (s : State) (ctx core slot : Nat) : Word :=
  match (recordOff s ctx core slot).bind (fun o => windowBytes s ctx (o + 16) 2) with
  | some bs => BitVec.ofNat 32 (natOf bs)
  | none => 0

/-- The groups of a restored team. -/
def restoreGroups (s : State) (t : Team) (p : Piece) (off : Nat) (old : Option Kept) (mv : Nat → Nat) : State × Moves :=
  let w := up64 (t.width * (64 + 4 * t.vregs))
  let z := up64 (t.width * t.laneb)
  (upFrom 0 t.gpt).foldl (fun (acc : State × Moves) i =>
    let o := off + i * (1024 + w + z)
    let (core, n) := groupCore t.pair t.core i
    let slot := (freeSlots acc.1 core).headD 0
    let b := p.sub o 1024
    let was := old.bind (fun k => k.groups.find? (fun g => g.index = i))
    let g := readGroup t b (p.sub (o + 1024) w) (p.sub (o + 1024 + w) z) i core n slot was mv
    let g1 := if was.isSome then g
      else
        let g1 := g.stand acc.1 t
        if g1.fe.handler then { g1 with fe := { g1.fe with ecause := recordVec acc.1 t.ctx (b.nat 952 2) (b.nat 954 1) } } else g1
    ({ acc.1.fresh with groups := acc.1.groups ++ [g1] },
      if g.fe.handler || b.nat 933 1 % 2 = 1 then acc.2 ++ [((b.nat 952 2, b.nat 954 1), (core, slot))] else acc.2)) (s, [])

/-- The lantern of a restored team. -/
def restoreLantern (s : State) (t : Team) (b : Piece) (old : Option Lantern) (mv : Nat → Nat) : State × Moves :=
  let slot := freeLantern s t.core
  let l := readLantern t b t.core slot old mv
  let at0 : Nat × Nat := (b.nat 605 2, 128 + b.nat 607 1)
  let l1 := if old.isSome then l
    else
      let l1 := l.stand s t
      if l1.fe.handler then { l1 with fe := { l1.fe with ecause := recordVec s t.ctx at0.1 at0.2 } } else l1
  ({ s.fresh with lanterns := s.lanterns ++ [l1] }, if l.fe.handler then [(at0, (t.core, slot))] else [])

/-- Held queue operations of a team that was not kept, from its header (R319). -/
def readHeld (s : State) (t : Team) (p : Piece) : State :=
  (upFrom 0 (p.nat 21 1)).foldl (fun s i =>
    let o := 512 + 16 * i
    let push := p.nat o 1 = 2
    let who : Option (Nat × Nat) := if push then (s.lanterns.find? (fun l => l.team = t.id)).map (fun l => (l.core, l.slot))
      else (s.groups.find? (fun g => g.team = t.id && g.index = p.nat (o + 1) 1)).map (fun g => (g.core, g.slot))
    match who, s.team? t.id with
    | some (core, slot), some t1 =>
      let tok : Tok := BitVec.ofNat 4 (p.nat (o + 3) 1)
      let h : HeldOp :=
        { push := push, slot := slot, core := core, sa := BitVec.ofNat 6 (p.nat (o + 2) 1), tok := tok, op := s.ids, value := BitVec.ofNat 64 (p.nat (o + 8) 8) }
      let s1 := match s.front? core slot with
        | some f =>
          let o : LongOp := { id := s.ids, tok := tok, owed := true, scope := 1 }
          s.setFront core slot { f with ops := f.ops ++ [o] }
        | none => s
      let t2 : Team := { t1 with held := t1.held ++ [h] }
      (s1.setTeam t2).fresh
    | _, _ => s) s

/-- The token of an operation that a front's counts have and its operations do not, and whether its handler's counts have it too. -/
def openToken (f : Front) : Tok × Bool :=
  let ops (k : Nat) : List LongOp := f.ops.filter (fun o => o.tok.toNat = k)
  match (upFrom 0 15).find? (fun k => (ops k).length < f.tok.getD k 0) with
  | some k => (BitVec.ofNat 4 k, ((ops k).filter (·.inH)).length < f.hk.getD k 0)
  | none => (15, false)

/-- A journal entry of a restored team names the team again, and that of a CPY slice gets its operation back: its supplier is the
group of its index, or the lantern where that group's counts have no token left for it (log 51). -/
def relinkEntry (t : Team) (s : State) (j : JournalEntry) : State :=
  let named (x : JournalEntry) : State := { s with journal := s.journal.map (fun y => if y = j then x else y) }
  let group := (s.groups.find? (fun g => g.team = t.id && g.index = j.grp)).map (fun g => (g.core, g.slot, g.fe))
  let lantern := (s.lanterns.find? (fun l => l.team = t.id)).map (fun l => (l.core, l.slot, l.fe))
  let who := match group, lantern with
    | some g, some l => if (openToken g.2.2).1 = 15 && (openToken l.2.2).1 ≠ 15 then some l else some g
    | none, l => l
    | g, none => g
  if j.kind ≠ 0 then named { j with teamId := some t.id }
  else
    match who with
    | some (core, slot, f) =>
      let (k, h) := openToken f
      let o : LongOp := { id := s.ids, tok := k, inH := h, owed := true, scope := 1 }
      ((named { j with teamId := some t.id, op := s.ids }).setFront core slot { f with ops := f.ops ++ [o] }).fresh
    | none => named { j with teamId := some t.id }

/-- The discarded entries of a restored team of which nothing was kept (R317, R320). -/
def relinkJournal (s : State) (t : Team) : State :=
  (s.journal.filter (fun j => j.ctx = t.ctx && j.slot = t.slot && j.team = t.index && j.kind ≠ 3)).foldl (relinkEntry t) s

/-- A held operation's issuer, at its new core and slot. -/
def moveHeld (s : State) (old : Kept) (t : Team) (h : HeldOp) : HeldOp :=
  let p : Option (Nat × Nat) := if h.push then (s.lanterns.find? (fun l => l.team = t.id)).map (fun l => (l.core, l.slot))
    else (old.groups.find? (fun g => g.core = h.core && g.slot = h.slot)).bind (fun o =>
      (s.groups.find? (fun g => g.team = t.id && g.index = o.index)).map (fun g => (g.core, g.slot)))
  match p with
  | some (core, slot) => { h with core := core, slot := slot }
  | none => h

/-- Slices supplied to an instance that has not started, at the new cores; they are checked again when it starts (R329, log 57). -/
def moveSlice (s : State) (t : Team) (x : Slice) : Slice :=
  match holderOf s t.id x.op with
  | some (core, slot) => { x with core := core, slot := slot, steps := [], pages := [], locks := [], again := true }
  | none => x

/-- The record of a ragged task that yields the team of an ordinal, and the team's tile, from record `r` on (R230, R292). -/
def recordOfTeam (s : State) (t : Task) : Nat → Nat → Nat → Nat × Nat
  | 0, r, k => (r, k)
  | fuel + 1, r, k =>
    let n := teamsOfRows ((recordRows s t r).getD 0)
    if k < n then (r, k) else recordOfTeam s t fuel (r + 1) (k - n)

/-- A team as far as its image and its task tell: its record and tile, and whether its write-back has begun (R222, R317). -/
def foundTeam (s : State) (t : Task) (core index : Nat) : Team :=
  let (r, k) := if recKind t.record = 1 then recordOfTeam s t (t.recIdx + 1) 0 index else (0, 0)
  { id := s.ids, slot := t.slot, ctx := t.ctx, core := core, index := index, recIdx := r, tileIdx := k
    writingBack := s.journal.any (fun j => j.kind = 2 && j.ctx = t.ctx && j.slot = t.slot && j.team = index) }

/-- One team of an image is restored on a place (R320), with the regions that its task's table gives it now (R329). -/
def restoreTeam (s : State) (task : Task) (p : Piece) (spot : Spot) (old : Option Kept) (rs : List Region) : State × Moves :=
  let r := task.record
  let flags := p.nat 16 1
  let was : Team := match old with
    | some k => k.team
    | none => foundTeam s task spot.core (p.nat 12 4)
  let t0 : Team :=
    { was with core := spot.core, pair := recPair r, lines := recScrl r, laneb := recLaneb r, vregs := recVregs r, tiles := recTiles r
               accs := recAccs r, kas := recKas r, width := recWidth r, gpt := recGpt r, bayOff := spot.bay, det := recDet r
               idem := recIdem r, lantern := recLantern r, lanternRetired := flags / 4 % 2 = 1, rot := p.nat 20 1
               dq := (upFrom 0 (p.nat 19 1)).map (fun i => BitVec.ofNat 64 (p.nat (64 + 8 * i) 8)) }
  let lan := if t0.lantern then 1024 else 0
  let gsize := 1024 + up64 (t0.width * (64 + 4 * t0.vregs)) + up64 (t0.width * t0.laneb)
  let so := 1024 + lan + t0.gpt * gsize
  let sides := readSide t0 (p.sub so (sideSize t0)) spot.core spot.base (p.nat 17 1) ::
    (if t0.pair then [readSide t0 (p.sub (so + sideSize t0) (sideSize t0)) (spot.core + 1) spot.base2 (p.nat 18 1)] else [])
  let t := { t0 with sides := sides }
  let mv := match old with
    | some k => moveLoc k.team t
    | none => fun l => l
  let s1 : State := { s.fresh with teams := s.teams ++ [t] }
  let s2 := putScratch s1 t (p.sub so (sideSize t0)) spot.core spot.base
  let s3 := if t.pair then putScratch s2 t (p.sub (so + sideSize t0) (sideSize t0)) (spot.core + 1) spot.base2 else s2
  let (s4, moves) := restoreGroups s3 t p (1024 + lan) old mv
  let (s5, moves) : State × Moves := if t.lantern then
      let (s5, more) := restoreLantern s4 t (p.sub 1024 1024) (old.bind (fun k => k.lanterns.head?)) mv
      (s5, moves ++ more)
    else (s4, moves)
  let regions := rs.map (bindRegion s5 t.ctx spot.core spot.base)
  let s6 := match old with
    | some k =>
      s5.setTeam { t with regions := regions, held := t.held.map (moveHeld s5 k t)
                          insts := t.insts.map (fun n => { n with slices := n.slices.map (moveSlice s5 t) }) }
    | none => relinkJournal (readHeld (s5.setTeam { t with regions := regions }) t p) t
  (sides.foldl (fun s d => s.acquire d.core 5) s6, moves)

/-- Copy side-buffer records (R320): every old one is read before any new one is written. One that cannot be written resets the
context (R311). -/
def moveRecords (s0 : State) (ctx : Nat) (ms : Moves) : State :=
  let s := ms.foldl (fun s m => touchRecord (touchRecord s ctx m.1.1 m.1.2) ctx m.2.1 m.2.2) s0
  let rd := ms.map (fun m => ((recordOff s ctx m.1.1 m.1.2).bind (fun o => windowBytes s ctx o 256), m.2))
  let wr := rd.foldl (fun (o : Option State) r => o.bind (fun s =>
    match r.1 with
    | some bs => writeRecord s ctx r.2.1 r.2.2 0 bs
    | none => none)) (some s)
  wr.getD (forcedReset s ctx 2)

/-- The outcome of a restore. -/
inductive Restored where
  | ok (s : State)
  | refused
  | faulted (s : State)
  | wait
  deriving DecidableEq, Repr

/-- A team that is not placed leaves no journal entry. -/
def dropTeam (s : State) (t : Task) (index : Nat) : State :=
  { s with journal := s.journal.filter (fun j => !(j.kind ≠ 3 && j.ctx = t.ctx && j.slot = t.slot && j.team = index)) }

/-- Restore the team images of an image one after another, from an offset (R320). One whose slot holds no PARKED task of
the context is passed over; one whose regions fail is not placed, which is a task fault (R329); and while a target has still to
answer for one the restore waits. What was kept beside the image is kept on, since an image may be named again. -/
def restoreTeams : Nat → State → Nat → Nat → Nat → Moves → Restored
  | 0, s, ctx, _, _, ms => .ok (moveRecords s ctx ms)
  | n + 1, s0, ctx, va, off, ms =>
    let s := s0.touchRange ctx (va + off) 1024
    if !dramRange s ctx (va + off) 1024 .read then .faulted s
    else
      let len := (getImage s ctx (va + off) 8).nat 0 8
      let s := if va + off + len ≤ 2 ^ 48 then s.touchRange ctx (va + off) len else s
      if !dramRange s ctx (va + off) len .read then .faulted s
      else
        let p := getImage s ctx (va + off) len
        let next := (off + len + 4095) / 4096 * 4096
        match s.task? (p.nat 8 2) with
        | none => restoreTeams n s ctx va next ms
        | some task =>
          if task.ctx ≠ ctx || task.state ≠ .parked || 3 ≤ recKind task.record then restoreTeams n s ctx va next ms
          else
            let s := touchRegions s task (p.nat 12 4)
            match planRegions s task (p.nat 12 4) with
            | .wait => .wait
            | .fault => restoreTeams n (dropTeam (taskFault s task.slot) task (p.nat 12 4)) ctx va next ms
            | .ok rs =>
              let (c, s1) := s.choose
              let spots := spotsFor s task.record
              match spots[c % spots.length]? with
              | none => .wait
              | some spot =>
                let old := s.kept.reverse.find? (fun k => k.ctx = ctx && k.image = p.1)
                let (s2, more) := restoreTeam s1 task p spot old rs
                restoreTeams n s2 ctx va next (ms ++ more)

/-- A restore (R320): the image is checked, its teams placed and restored, the journal replayed and the tasks resumed. -/
def restoreContext (s0 : State) (ctx va : Nat) : Restored :=
  let s := s0.touchRange ctx va 64
  if !dramRange s ctx va 64 .read then .faulted s
  else
    let h := getImage s ctx va 64
    if h.nat 0 4 ≠ Config.archv.toNat then .refused
    else
      match restoreTeams (h.nat 4 4) s ctx va 4096 [] with
      | .ok s1 =>
        .ok (resumeTasks s1 ((s1.tasks.filter (fun t => t.ctx = ctx && t.state = .parked)).map (·.slot)))
      | r => r

end Sys2Proof.Machine
end

