-- ==== Sys2Proof/Machine/Window.lean ====
section
/-! DEFINITION. The management window (R359, R360): what each doubleword reads, and what a write does to a register that
has no step of its own (R8, R26, R268, R278, R284, R302, R351, R352, R361, R365). -/

namespace Sys2Proof.Machine

/-! ### Device registers -/

/-- BSTAT (R361). -/
def bstat (p : Plat) : Nat := p.stage.toNat + (if p.warm then 0x40 else 0) + (if p.lock then 0x80 else 0) + p.fail.toNat * 0x10000

/-- The bytes of a digest, as the number that stands for it holds them (log 8). -/
def digestBytes (d : BitVec 512) : List Byte := bytesOf 64 d.toNat

/-- The measurement log; entry 0 is the ROM's digest (R366). -/
def logEntries (p : Plat) : List (BitVec 512) := p.mlog.set 0 (sha512 Config.romImage)

def logBytes (p : Plat) : List Byte := (logEntries p).flatMap digestBytes

/-- The doubleword at an offset of some bytes; beyond them it reads zero. -/
def dwordAt (bs : List Byte) (off : Nat) : DWord := BitVec.ofNat 64 (natOf ((bs.drop off).take 8))

/-- MCARE as it reads: a capacity domain has no ACTH (R278). -/
def mcareRead (d : Nat) (w : Word) : Word := if d < 8 then w else w &&& 0xFF1F

/-- TSWS (R268). -/
def tsws (c : Care) : DWord := BitVec.ofNat 64 (c.swapsDone.toNat + c.retired.toNat * 2 ^ 32)

/-- A device register at an offset below 0x1_0000 (R359). HWF0 to HWF3 stand 16 bytes apart, the upper doubleword of each
zero, and the bytes past the log and past the quote read zero (log 61). The quote is not readable while one is made (R366). DESIGN
CHOICE (log 103): MCARE 8 to 15 stand on a CY9400-P too, which has no capacity tier. -/
def deviceWord (s : State) (off : Nat) : Option DWord :=
  let p := s.plat
  let w (x : Nat) : Option DWord := some (BitVec.ofNat 64 x)
  if off = 0 then w (bstat p)
  else if off = 0x08 then w 0
  else if off = 0x10 then w p.flogp.toNat
  else if off = 0x18 then some p.wdogV
  else if off = 0x20 || off = 0x28 then some (p.fwopen.getD (off / 8 % 2) 0)
  else if 0x40 ≤ off && off < 0x80 then some (if off % 16 = 0 then p.hwf.getD ((off - 0x40) / 16) 0 else 0)
  else if off = 0x80 then w p.fid.toNat
  else if off = 0x88 then w p.bcfg.toNat
  else if off = 0x90 then w s.care.tswc.toNat
  else if off = 0x98 then some (tsws s.care)
  else if off = 0xA0 then w 3
  else if 0xA8 ≤ off && off < 0xC0 then w 0
  else if 0x100 ≤ off && off < 0x120 then some (dwordAt p.attn (off - 0x100))
  else if off = 0x120 then some p.attc
  else if 0x140 ≤ off && off < 0x160 then some (dwordAt (bytesOf 32 (ed25519Public p.idkey).toNat) (off - 0x140))
  else if 0x200 ≤ off && off < 0x400 then some (dwordAt (logBytes p) (off - 0x200))
  else if 0x400 ≤ off && off < 0x500 then (if p.quoting then none else some (dwordAt p.quote (off - 0x400)))
  else if 0x600 ≤ off && off < 0x680 then
    let d := (off - 0x600) / 8
    w (mcareRead d (s.care.domains.getD d {}).mcare).toNat
  else none

/-! ### Contexts, tasks, locks, journal -/

/-- A register of a context's block. -/
def contextWord (s : State) (c r : Nat) : Option DWord :=
  let x := s.ctx c
  if r = 0 then some x.hbase
  else if r = 0x08 then some x.sideb
  else if r = 0x10 then some (x.ctxc.setWidth 64)
  else if r = 0x20 then some x.ptroot
  else if r = 0x28 then some (x.cslot.setWidth 64)
  else if 0x40 ≤ r && r < 0xC0 then
    let l := x.laps.getD ((r - 0x40) / 16) (0, 0)
    some (if r % 16 = 0 then l.1 else l.2)
  else none

/-- Codes of the task states (R282). -/
def stateCode : TaskState → Nat
  | .free => 0
  | .waiting => 1
  | .ready => 2
  | .active => 3
  | .closing => 4
  | .preempting => 5
  | .parked => 6

/-- TSTAT of a slot (R303): a flushed team is the next to place (R301), and a reservation is in progress until it is complete
(R290). -/
def tstat (s : State) (slot : Nat) : DWord :=
  match s.task? slot with
  | none => 0
  | some t =>
    let bit (b : Bool) (n : Nat) : Nat := if b then 2 ^ n else 0
    let rsv : Bool := match s.gang with | some g => g.slot = slot && !g.placing | none => false
    let next : Nat := match t.flushed with
      | (i, r, _) :: _ => if recKind t.record = 1 then r else i
      | [] => if recKind t.record = 1 then t.recIdx else t.next
    BitVec.ofNat 64 (stateCode t.state + t.ctx * 8 + bit t.flt 11 + bit t.sealed 12 + bit rsv 13 + bit t.blocking 14 + bit t.overrun 15
      + (min 0xFFFF (s.teams.filter (fun x => x.slot = slot)).length) * 0x10000
      + next * 2 ^ 32)

/-- A slot's record, with its counter as it stands; a FREE slot reads zero (log 62). -/
def slotBytes (s : State) (slot : Nat) : List Byte :=
  match s.task? slot with
  | some t => t.record.take 4 ++ bytesOf 4 t.counter.toNat ++ t.record.drop 8
  | none => []

/-- The number of a team among those of its core (R251, log 62). -/
def teamNumber (s : State) (core id : Nat) : Nat :=
  (s.teams.filter (fun t => t.core = core || (t.pair && t.core + 1 = core))).findIdx (fun t => t.id = id)

/-- A range-lock entry's two doublewords (R251). -/
def lockWord (s : State) (core : Nat) (l : RangeLock) (second : Bool) : DWord :=
  if second then BitVec.ofNat 64 (l.len % 2 ^ 48 + (if core = 256 then 0 else teamNumber s core l.team % 256) * 2 ^ 48 + l.owner % 256 * 2 ^ 56)
  else BitVec.ofNat 64 (l.base % 2 ^ 48 + l.kind * 2 ^ 48 + l.ctx * 2 ^ 54 + l.sp * 2 ^ 60 + (if l.dst then 2 ^ 62 else 0) + 2 ^ 63)

/-- A doubleword of a core's range-lock table, or of the Belfry's. -/
def lockTableWord (s : State) (core off : Nat) : DWord :=
  match (s.locksOf core)[off / 16]? with
  | some l => lockWord s core l (off % 16 = 8)
  | none => 0

/-- A doubleword of a journal entry (R317). -/
def journalWord (s : State) (off : Nat) : DWord :=
  match s.journal[off / 64]? with
  | none => 0
  | some j =>
    match off % 64 / 8 with
    | 0 => BitVec.ofNat 64 (j.team % 2 ^ 32 + j.grp * 2 ^ 32 + j.fn * 2 ^ 37 + j.slot * 2 ^ 41 + j.ctx * 2 ^ 54 + j.kind * 2 ^ 60 + 2 ^ 63)
    | 1 => j.src
    | 2 => j.dst
    | 3 => j.len
    | 4 => j.arv
    | 5 => j.inst
    | _ => 0

/-- A doubleword of a group slot: its block, then DBGC; an empty slot reads zero. -/
def groupWord (s : State) (core slot off : Nat) : Option DWord :=
  if off = 0x400 then some (((s.group? core slot).map (fun g => g.dbgc.setWidth 64)).getD 0)
  else if off < 0x400 then some (((s.group? core slot).map (fun g => dwordAt (groupBlock g).1 off)).getD 0)
  else none

/-- The keyed records of a core, partition by partition, each in sequence order (R189, R359). -/
def keyedBytes (s : State) (core : Nat) : List Byte :=
  s.teams.flatMap (fun t => (t.sides.filter (fun d => d.core = core)).flatMap (fun d => (bySeq d.keyed.entries).flatMap (keyedRecord t core 0)))

/-- A remap entry (R264). -/
def remapWord (c : Care) (g : Nat) : Nat :=
  let r := remapOf c g
  r.map.toNat + r.bad.toNat * 256 + (upFrom 0 4).foldl (fun n i => n + r.cnt.getD i 0 % 16 * 2 ^ (16 + 4 * i)) 0

/-! ### What R360 adds -/

/-- The teams of a core. -/
def teamsOn (s : State) (core : Nat) : List Team := s.teams.filter (fun t => t.core = core || (t.pair && t.core + 1 = core))

/-- The block of R319 that a view shows: the lanes and slices of a group, the tiles and accumulators of a team on a core, its keyed
partition, its header with turnstile and queue, or a lantern. -/
def viewBlock (s : State) (kind core n : Nat) : List Byte :=
  match kind with
  | 0 =>
    match s.group? core n with
    | some g =>
      let laneb := ((s.team? g.team).map (·.laneb)).getD 0
      g.lanes.flatMap (fun l => laneBytesOf l.v.length l) ++ (catAll (g.lanes.map (slicePiece laneb))).1
    | none => []
  | 1 =>
    match (teamsOn s core)[n]? with
    | some t => (Piece.cat (tilesPiece t (t.side core)) (accsPiece t (t.side core))).1
    | none => []
  | 2 =>
    match (teamsOn s core)[n]? with
    | some t => (keyedPiece t (t.side core)).1
    | none => []
  | 3 =>
    match (teamsOn s core)[n]? with
    | some t => (headerBlock s t 0).1
    | none => []
  | _ => ((s.lantern? core n).map (fun l => (lanternBlock l).1)).getD []

/-- The care tables: a score, a row of the hot list, the spare of a frame, an activation counter (R276-R279); an empty entry reads
zero. -/
def careView (c : Care) (kind a b : Nat) : Nat :=
  match kind with
  | 5 => (((c.domains.getD a {}).scores[b]?).map (fun x => x.row + x.score * 2 ^ 32)).getD 0
  | 6 => (((c.domains.getD a {}).hot[b]?).map (· + 2 ^ 63)).getD 0
  | 7 => (((remapOf c a).spares.find? (fun x => x.1 = b)).map (fun x => frameBase (spareFrame x.2).1 (spareFrame x.2).2 + 2 ^ 63)).getD 0
  | _ => ((c.acts.find? (fun x => x.1 = a && x.2.1 = b)).map (·.2.2)).getD 0

/-- A register's number in a view. -/
def Dest.code : Dest → Nat
  | .v r => r
  | .p r => 256 + r
  | .s r => 512 + r

/-- What the speculation record holds for a lane (R33): whether and how it is predicted, units executed, shadow flags, deferred trap,
undo log. -/
def specLaneBytes (l : Lane) : List Byte :=
  match l.spec with
  | none => List.replicate 536 0
  | some x =>
    let (c, w) := match x.deferred with
      | some d => (1 + d.cause * 256 + d.vec * 65536, d.word)
      | none => (0, 0)
    bytesOf 1 (match x.taken with | none => 1 | some false => 2 | some true => 3) ++ bytesOf 1 x.count ++ bytesOf 6 x.flags.toNat
      ++ bytesOf 8 c ++ bytesOf 8 w.toNat
      ++ ((upFrom 0 32).flatMap (fun i => match x.undo[i]? with
          | some u => bytesOf 8 (u.dst.code + 1) ++ bytesOf 8 u.val.toNat
          | none => List.replicate 16 0))

/-- The speculation record of a group (R33): branch PC, token, token increments, then lane by lane. -/
def specBytes (g : Group) : List Byte :=
  match g.spec with
  | none => []
  | some r => bytesOf 8 r.pc.toNat ++ bytesOf 8 r.tok.toNat ++ (upFrom 0 16).flatMap (fun i => bytesOf 8 (r.incs.getD i 0)) ++ g.lanes.flatMap specLaneBytes

/-- The doubleword that a view shows (R360): a block's, a care table's, one of a scratchpad or of the Cupola, a line's presence, a
speculation record's, or the repair map's. `n` is its number among those of its kind. -/
def viewOf (s : State) (kind n : Nat) : Nat :=
  let core := n / 2 ^ 25
  let slot := n / 2 ^ 18 % 128
  let off := 8 * (n % 2 ^ 18)
  if kind < 4 then (dwordAt (viewBlock s kind core slot) off).toNat
  else if kind = 4 then (dwordAt (viewBlock s 4 core (128 + slot)) off).toNat
  else if kind < 7 then careView s.care kind (n / 4096) (n % 4096)
  else if kind = 7 then careView s.care 7 (n / 4) (n % 4)
  else if kind = 8 then careView s.care 8 (n / 2 ^ 26) (n % 2 ^ 26)
  else if kind = 9 then natOf (s.bytes (scratchBase + 8 * n) 8)
  else if kind = 10 then (if s.lineAbsent (scratchBase + 64 * n) then 0 else 1)
  else if kind = 11 then natOf (s.bytes (cupolaBase + 8 * n) 8)
  else if kind = 12 then (((s.group? core slot).map (fun g => dwordAt (specBytes g) off)).getD 0).toNat
  else (dwordAt Config.repairMaps (8 * n)).toNat

/-- The doublewords of each kind of view, and how many kinds there are: every block of every core and slot, every table and every
line has its own. -/
def viewSpan : Nat := 2 ^ 33
def viewKinds : Nat := 14

/-- The doubleword at a place behind the registers of R359, where one of R360 stands. DESIGN CHOICE (log 110): those of R360 fill places
up to the window's end in an order that is free. -/
def viewWord (s : State) (off : Nat) : Option DWord :=
  if h : (off - Config.viewBase) / 8 < Config.viewDwords then
    let m := (Config.viewPlace ⟨(off - Config.viewBase) / 8, h⟩).val
    if m / viewSpan < viewKinds then some (BitVec.ofNat 64 (viewOf s (m / viewSpan) (m % viewSpan))) else none
  else none

/-- The doubleword at a window offset that is a multiple of 8; none where no register stands. -/
def mgmtWord (s : State) (off : Nat) : Option DWord :=
  if off < 0x10000 then deviceWord s off
  else if off < 0x50000 then contextWord s (off / 0x1000 - 0x10) (off % 0x1000)
  else if 0x1000000 ≤ off && off < 0x1100000 then some (dwordAt (slotBytes s ((off - 0x1000000) / 128)) (off % 128))
  else if 0x1100000 ≤ off && off < 0x1110000 then some (tstat s ((off - 0x1100000) / 8))
  else if 0x2000000 ≤ off && off < 0x2040000 then some (lockTableWord s ((off - 0x2000000) / 0x400) (off % 0x400))
  else if 0x2040000 ≤ off && off < 0x2041000 then some (lockTableWord s 256 (off - 0x2040000))
  else if 0x2100000 ≤ off && off < 0x2180000 then some (journalWord s (off - 0x2100000))
  else if 0x4000000 ≤ off && off < 0x8000000 then groupWord s ((off - 0x4000000) / 0x40000) (off / 0x800 % 128) (off % 0x800)
  else if 0x10000000 ≤ off && off < 0x12000000 then some (dwordAt (keyedBytes s ((off - 0x10000000) / 0x20000)) (off % 0x20000))
  else if 0x20000000 ≤ off && off < 0x20001000 then
    some (dwordAt (bytesOf 16 (s.plat.flog.getD (off / 16 % 256) 0).toNat) (off % 16))
  else if 0x100000000 ≤ off && off < 0x102000000 then
    let g := (off - 0x100000000) / 4
    some (BitVec.ofNat 64 (remapWord s.care g + remapWord s.care (g + 1) * 2 ^ 32))
  else if 0x200000000 ≤ off && off < 0x200800000 then some (BitVec.ofNat 64 (natOf (s.plat.fwbuf.read (off - 0x200000000) 8)))
  else if Config.viewBase ≤ off then viewWord s off
  else none

/-- The window offset of an address with bit 63 set, when its bits 62:41 are zero and it is aligned (R359). -/
def mgmtOffset (addr : DWord) (n : Nat) : Option Nat :=
  if addr.extractLsb' 41 22 = 0 && addr.toNat % 8 = 0 && n % 8 = 0 then some (addr.extractLsb' 0 41).toNat else none

/-- Whether a message reaches the window (R359). -/
def isMgmt (space : BitVec 2) (addr : DWord) : Bool := space = 1 && addr.getLsbD 63

/-- The doublewords of a window range; none when one of them stands nowhere. -/
def mgmtRange (s : State) (off n : Nat) : Option (List DWord) :=
  (upFrom 0 (n / 8)).foldr (fun i acc =>
    match acc, mgmtWord s (off + 8 * i) with
    | some l, some w => some (w :: l)
    | _, _ => none) (some [])

/-- Whether a register stands at a window offset, be it readable now or not. -/
def mgmtHolds (s : State) (off : Nat) : Bool := (0x400 ≤ off && off < 0x500) || (mgmtWord s off).isSome

/-- Whether every doubleword of a window range stands somewhere: what a write needs (R359). -/
def mgmtRangeHolds (s : State) (off n : Nat) : Bool := (upFrom 0 (n / 8)).all (fun i => mgmtHolds s (off + 8 * i))

/-- A read of TSWS clears its count (R268). -/
def clearSwapCount (s : State) : State := { s with care := { s.care with swapsDone := 0 } }

def mgmtReadEffect (s : State) (off n : Nat) : State := if off ≤ 0x98 && 0x98 < off + n then clearSwapCount s else s

/-! ### Writes to registers -/

/-- Put eight bytes over some of a list. -/
def putBytes (bs : List Byte) (off : Nat) (v : DWord) : List Byte := bs.take off ++ bytesOf 8 v.toNat ++ bs.drop (off + 8)

/-- Whether a context's slots, after a write of its CSLOT, overlap another's (R284). -/
def slotsOverlap (s : State) (c : Nat) (w : Word) : Bool :=
  (upFrom 0 Config.contexts).any (fun d => d ≠ c &&
    cslotCount w ≠ 0 && cslotCount (s.ctx d).cslot ≠ 0 &&
    overlaps (cslotBase w) (cslotCount w) (cslotBase (s.ctx d).cslot) (cslotCount (s.ctx d).cslot))

/-- Whether apertures overlap, or reach into the Cupola window (R352); one without pages does neither. -/
def lapsBad (ls : List (DWord × DWord)) : Bool :=
  let used := (upFrom 0 8).filter (fun i => lapValid (ls.getD i (0, 0)) && lapBytes (ls.getD i (0, 0)) ≠ 0)
  used.any (fun i =>
    let l := ls.getD i (0, 0)
    overlaps (lapBase l) (lapBytes l) Config.windowBase Config.windowBytes ||
      used.any (fun j => let k := ls.getD j (0, 0); i ≠ j && overlaps (lapBase l) (lapBytes l) (lapBase k) (lapBytes k)))

/-- A write of an aperture's word; what targets said of its context's pages is asked again. -/
def writeLap (s : State) (c i : Nat) (second : Bool) (v : DWord) : State :=
  let x := s.ctx c
  let l := x.laps.getD i (0, 0)
  let l1 : DWord × DWord := if second then (l.1, v &&& 0xFFFFC000FFFFFFFF) else (v &&& 0xC000FFFFFFFF0000, l.2)
  let ls := x.laps.set i l1
  if lapsBad ls then s
  else
    let s1 := s.setCtx c { x with laps := ls }
    { s1 with fabric := { s1.fabric with answers := s1.fabric.answers.filter (fun a => a.1 ≠ c) } }

/-- A write of a context's register; PTROOT has a step of its own. -/
def writeContext (s : State) (c r : Nat) (v : DWord) : State :=
  let x := s.ctx c
  if r = 0 then s.setCtx c { x with hbase := v &&& 0xFFFFFFFFFFFFF000 }
  else if r = 0x08 then s.setCtx c { x with sideb := v &&& 0xFFFFFFFFFFFFF000 }
  else if r = 0x10 then s.setCtx c { x with ctxc := v.setWidth 32 &&& 0xF }
  else if r = 0x28 then
    let w : Word := v.setWidth 32 &&& 0x3FFFFFFF
    if slotsOverlap s c w then s else s.setCtx c { x with cslot := w }
  else if 0x40 ≤ r && r < 0xC0 then writeLap s c ((r - 0x40) / 16) (r % 16 = 8) v
  else s

/-- A write of a device register without a step of its own (R8): reserved bits and read-only registers keep what they
hold. HWF and the firmware buffer take writes in stage 0 only (R362). -/
def writeDevice (s : State) (off : Nat) (v : DWord) : State :=
  let p := s.plat
  if off = 0x20 || off = 0x28 then { s with plat := { p with fwopen := p.fwopen.set (off / 8 % 2) v } }
  else if 0x40 ≤ off && off < 0x80 then
    if off % 16 = 0 && p.stage = 0 && !p.lock then { s with plat := { p with hwf := p.hwf.set ((off - 0x40) / 16) (v &&& 0xFFFFFFFFFFFF0000) } } else s
  else if off = 0x80 then { s with plat := { p with fid := v.setWidth 12 } }
  else if off = 0x88 then { s with plat := { p with bcfg := v.setWidth 32 &&& 0xF81F } }
  else if off = 0x90 then
    let w : Word := v.setWidth 32 &&& (if s.moduleM then 0x80007FFF else 0x7FFF)
    { s with care := { s.care with tswc := w } }
  else if 0x100 ≤ off && off < 0x120 then { s with plat := { p with attn := putBytes p.attn (off - 0x100) v } }
  else if 0x600 ≤ off && off < 0x680 then
    let d := (off - 0x600) / 8
    let x := s.care.domains.getD d {}
    { s with care := { s.care with domains := s.care.domains.set d { x with mcare := v.setWidth 32 &&& (if d < 8 then 0x07FFFF1F else 0xFF1F) } } }
  else s

/-- DBGC of a resident group (R20, R315). -/
def writeDbgc (s : State) (core slot : Nat) (v : Word) : State :=
  match s.group? core slot with
  | some g => s.setGroup { g with dbgc := v &&& 3 }
  | none => s

/-- A write of a doubleword that needs no step of its own (R359). -/
def writePlain (s : State) (off : Nat) (v : DWord) : State :=
  if off < 0x10000 then writeDevice s off v
  else if off < 0x50000 then writeContext s (off / 0x1000 - 0x10) (off % 0x1000) v
  else if 0x4000000 ≤ off && off < 0x8000000 && off % 0x800 = 0x400 then
    writeDbgc s ((off - 0x4000000) / 0x40000) (off / 0x800 % 128) (v.setWidth 32)
  else if 0x200000000 ≤ off && off < 0x200800000 then
    if s.plat.stage = 0 then { s with plat := { s.plat with fwbuf := s.plat.fwbuf.write (off - 0x200000000) (bytesOf 8 v.toNat) } } else s
  else s

end Sys2Proof.Machine
end

