-- ==== Sys2Proof/Machine/Care.lean ====
section
/-! DEFINITION. DRAM care (R266-R280): the phases of swaps and retirements, the writes that wait for them, scrubbing,
scores and activation counters; and host writes as they move into memory (R347, R365). -/

namespace Sys2Proof.Machine

/-! ### Host access to memory (R347, R365) -/

/-- Whether a physical page lies inside a fence (R365). -/
def inFence (p : Plat) (pa : Nat) : Bool :=
  p.hwf.any (fun w =>
    let base := (w.extractLsb' 16 25).toNat * 0x10000
    base ≤ pa && pa < base + (w.extractLsb' 41 23).toNat * 0x10000)

/-- The parts of a host access and where they lie; none when a page of it fails (R347). Its pages lie in no aperture. -/
def hostParts (s : State) (space : BitVec 2) (ctx va n : Nat) (need : Need) : Option (List (Nat × Nat × Nat)) :=
  if space = 1 then
    if (pagesOf va n).all (fun p => installed s p && inFence s.plat p) then some (lineParts (n / 64 + 2) va n 0) else none
  else if 2 ^ 48 < va + n then none
  else if (pagesOf va n).all (fun p =>
      match xlateFor s ctx (max p va) need with
      | .ok q => !q.lap
      | .fault _ => false) then
    some ((virtParts s ctx va n 0).map (fun q => (q.1, q.2.1, q.2.2.1)))
  else none

/-- The translations of a host access (R328, R347). -/
def touchHost (s : State) (space : BitVec 2) (ctx va n : Nat) : State :=
  if space = 0 && va + n ≤ 2 ^ 48 then s.touchRange ctx va n else s

/-- A remote write or read: one that waits is no copy of another that does (R270). -/
def Waiter.isRemote : Waiter → Bool
  | .remote _ _ _ _ _ => true
  | .remoteRead _ _ _ => true
  | _ => false

/-- A write waits for the page of a location (R269). -/
def waitFor (s : State) (loc : Nat) (w : Waiter) : State :=
  { s with care := { s.care with swaps := s.care.swaps.map (fun x =>
      if some x = holder s.care loc && (w.isRemote || !(x.waits.contains w)) then { x with waits := x.waits ++ [w] } else x) } }

/-- The oldest host write moves from the host queue into memory (R347), or waits for a held page. One that fails its checks
is dropped whole, and the host is told. -/
def applyMemoryWrite (s : State) (w : HostWr) : State :=
  let s0 := touchHost s w.space w.ctx.toNat w.va.toNat w.bytes.length
  match hostParts s0 w.space w.ctx.toNat w.va.toNat w.bytes.length .write with
  | none => { s0 with hostq := s0.hostq.drop 1 }.event 10 (ctx := w.ctx.toNat) (detail := w.va.toNat)
  | some ps =>
    match ps.find? (fun p => held s0.care p.1) with
    | some p => waitFor s0 p.1 .host
    | none => ps.foldl (fun s p => s.put p.1 ((w.bytes.drop p.2.2).take p.2.1)) { s0 with hostq := s0.hostq.drop 1 }

/-- Bytes as a reader outside the device receives them: poisoned ones read zero (R347, R353), and whether any was. -/
def outsideBytes (s : State) (ps : List (Nat × Nat × Nat)) : List Byte × Bool :=
  (ps.flatMap (fun p => (upFrom p.1 p.2.1).map (fun a => if s.poisoned (unitOf a) then 0 else s.byte a))
    , ps.any (fun p => s.anyPoison p.1 p.2.1))

/-- A read of memory from outside: its requests are counted (R266). -/
def countParts (s : State) (ps : List (Nat × Nat × Nat)) : State := ps.foldl (fun s p => s.countReq p.1) s

/-- An answer to a remote device: 0 done, 1 poisoned, 3 not mapped, 4 permission (log 65). -/
def State.remoteAnswer (s : State) (fid code : Nat) (bs : List Byte) : State :=
  { s with fabric := { s.fabric with remoteOut := s.fabric.remoteOut ++ [(fid, code, bs)] } }

/-! ### Pages of frames -/

/-- A page as it lies at a location of storage: its bytes and its poisoned lines, by offset. -/
def readPage (s : State) (loc : Nat) : Block :=
  { data := (s.mem.filter (fun c => loc ≤ c.1 && c.1 < loc + 0x10000)).map (fun c => (c.1 - loc, c.2))
    poison := (s.poison.filter (fun u => loc ≤ u && u < loc + 0x10000)).map (· - loc) }

/-- Put a page at a location of storage. -/
def placePage (s : State) (loc : Nat) (b : Block) : State :=
  { s with mem := b.data.foldl (fun (m : Memory) c => m.set (loc + c.1) c.2) (s.mem.clear loc 0x10000)
           poison := b.poison.foldl (fun l u => insertNat (loc + u) l) (s.poison.filter (fun u => u < loc || loc + 0x10000 ≤ u)) }

/-! ### Retirement (R271, R277) -/

/-- Whether a spare frame is bound to a frame, or to a retirement in progress. -/
def spareUsed (c : Care) (n : Nat) : Bool :=
  c.remaps.any (fun r => r.spares.any (fun x => x.2 = n)) || c.swaps.any (fun w => w.retire && w.spare = n)

/-- The least free spare of a domain; 4,096 numbers are set aside for each domain (log 63). -/
def freeSpare (c : Care) (e : Nat) : Option Nat :=
  (upFrom (e * 4096) (if e < 8 then Config.stackSpares else Config.channelSpares)).find? (fun n => !spareUsed c n)

/-- A spare of a domain, or else of another domain of its tier (R277). -/
def spareFor (c : Care) (d : Nat) : Option Nat := (d :: upFrom (if d < 8 then 0 else 8) 8).findSome? (freeSpare c)

def Care.setDomain (c : Care) (d : Nat) (f : Domain → Domain) : Care := { c with domains := c.domains.set d (f (c.domains.getD d {})) }

/-- A retirement of the frame in which a page now lies starts, when its group is at rest and a place is free (R268, R271);
until then it is due. A frame is retired once: one that a spare replaces is not retired again, but that spare is, for a row of its
own; with no spare left the host is told (R277). -/
def retirePage (s : State) (d : Due) : State :=
  let r := remapOf s.care d.group
  let f := frameOf r d.member
  if r.bad.getLsbD f && !d.spare then s
  else if s.care.swaps.any (fun w => w.group = d.group) || tswcSlots s.care.tswc ≤ s.care.swaps.length then
    if s.care.due.any (fun x => x.group = d.group && x.member = d.member) then s
    else { s with care := { s.care with due := s.care.due ++ [d] } }
  else
    match spareFor s.care (frameDomain (realFrame r f).1 (realFrame r f).2) with
    | none => s.event 3 (phys := pageOf d.group d.member) (domain := d.domain) (row := d.row)
    | some n =>
      let w : Swap := { group := d.group, retire := true, frame := f, spare := n, memA := d.member, domain := d.domain, row := d.row }
      { s with care := { s.care with swaps := s.care.swaps ++ [w] } }

/-- Start the retirements that are due and may start. -/
def startDue (s : State) : State :=
  s.care.due.foldl (fun s d => retirePage { s with care := { s.care with due := s.care.due.filter (· ≠ d) } } d) s

/-! ### Scores (R276, R277) -/

def mcareReth (w : Word) : Nat := (w.extractLsb' 8 8).toNat
def mcareActh (w : Word) : Nat := max 1 (w.extractLsb' 16 11).toNat

/-- The entry that a new one takes: of the lowest score, and of those the one made first. -/
def lowestScore : List Score → Option Score
  | [] => none
  | x :: xs =>
    match lowestScore xs with
    | none => some x
    | some y => if y.score < x.score || (y.score = x.score && y.born < x.born) then some y else some x

/-- The score of a row; one without an entry has none. -/
def scoreOf (d : Domain) (row : Nat) : Nat := ((d.scores.find? (fun x => x.row = row)).map (·.score)).getD 0

/-- The row of the hot list that gives way first: of the lowest score, and of those the one that entered last. -/
def coolest (d : Domain) : Option Nat :=
  d.hot.foldl (fun (b : Option Nat) r => match b with
    | some x => if scoreOf d r ≤ scoreOf d x then some r else b
    | none => some r) none

/-- The row outside the hot list that enters first: of the highest score, and of those the one whose entry was made first. -/
def hottest (d : Domain) : Option Nat :=
  ((d.scores.filter (fun x => !d.hot.contains x.row)).foldl (fun (b : Option Score) x => match b with
    | some y => if y.score < x.score then some x else b
    | none => some x) none).map (·.row)

/-- The hot list holds the 1,024 rows of highest score; among equal scores the row that entered earlier stays (R276). `n` bounds
how many rows enter. -/
def warmUp : Nat → Domain → Domain
  | 0, d => d
  | n + 1, d =>
    match hottest d with
    | none => d
    | some r =>
      if d.hot.length < 1024 then warmUp n { d with hot := d.hot ++ [r] }
      else
        match coolest d with
        | some x => if scoreOf d x < scoreOf d r then warmUp n { d with hot := d.hot.filter (· ≠ x) ++ [r] } else d
        | none => d

/-- The hot list after the entries have changed. -/
def Domain.reheat (d : Domain) : Domain :=
  warmUp d.scores.length { d with hot := d.hot.filter (fun r => d.scores.any (fun x => x.row = r)) }

/-- Points are added to the row of a line of a frame (R276). -/
def addScore (d : Domain) (group frame line n : Nat) : Domain :=
  let row := rowNumber group frame line
  let d1 :=
    match d.scores.find? (fun x => x.row = row) with
    | some x => { d with scores := d.scores.map (fun y => if y = x then { x with score := min 0xFFFF (x.score + n) } else y) }
    | none =>
      let new : Score := { row := row, group := group, frame := frame, score := n, born := d.born }
      if d.scores.length < 4096 then { d with scores := d.scores ++ [new], born := d.born + 1 }
      else
        match lowestScore d.scores with
        | some x => if x.score < n then { d with scores := d.scores.filter (· ≠ x) ++ [new], born := d.born + 1 } else d
        | none => d
  d1.reheat

/-- The group and the frame in use of it that a frame is: a spare frame stands for the one it replaces (R277). -/
def servesFor (c : Care) (group frame : Nat) : Option (Nat × Nat) :=
  if group < Config.firstReservedGroup then some (group, frame) else (replacedBy c (group, frame)).map (fun x => (x.1.group, x.2))

/-- An event on the row of a line of a frame (R276): its score rises, and at the threshold the frame is retired (R277), a spare in
use too. One that its group no longer uses stays as it is. -/
def scoreEvent (s : State) (group frame line n : Nat) : State :=
  let k := frameDomain group frame
  let row := rowNumber group frame line
  let s1 : State := { s with care := s.care.setDomain k (fun d => addScore d group frame line n) }
  let d := s1.care.domains.getD k {}
  match servesFor s1.care group frame with
  | none => s1
  | some (g, f) =>
    let moving := s1.care.swaps.any (fun w => w.group = g && w.retire && w.frame = f)
    if mcareReth d.mcare ≠ 0 && mcareReth d.mcare ≤ scoreOf d row && !moving then
      retirePage s1
        { group := g, member := memberIn (remapOf s1.care g) f, domain := k, row := row, spare := decide (Config.firstReservedGroup ≤ group) }
    else s1

/-! ### What a controller finds in a line (R273, R276, R367) -/

/-- An entry of the fault log, and FLOGP after it. -/
def logFault (p : Plat) (f : FaultLog) : Plat :=
  let n := p.flogp.toNat % 256
  let e : BitVec 128 := BitVec.ofNat 128 (f.unitCode.toNat + f.die.toNat * 0x10000 + f.cycles.toNat * 2 ^ 64)
  let log := if p.flog = [] then List.replicate 256 0 else p.flog
  { p with flog := log.set n e, flogp := BitVec.ofNat 32 ((n + 1) % 256 + (if n = 255 || p.flogp.getLsbD 8 then 256 else 0)) }

/-- A line of a frame cannot be corrected (R273): it becomes poison where it is stored, the host is told, and its row scores. -/
def spoilLine (s : State) (group frame line : Nat) : State :=
  scoreEvent ({ s with poison := insertNat (frameBase group frame + 64 * line) s.poison }.lineLoss group frame line) group frame line 255

/-- A finding is logged (R367), and a corrected error adds to the row's score; an uncorrectable line is poisoned and reported. -/
def scrubLine (s0 : State) (f : RowFinding) : State :=
  let s : State := { s0 with plat := logFault s0.plat f.log }
  match f.err with
  | .oneSymbol => scoreEvent s f.group f.frame f.line 4
  | .oneDevice => scoreEvent s f.group f.frame f.line 16
  | .uncorrectable => spoilLine s f.group f.frame f.line

/-- Whether a finding names a line of an installed frame. -/
def findingOk (s : State) (f : RowFinding) : Bool :=
  f.group < Config.congruenceGroups && f.frame < 4 && f.line < 1024 && (s.moduleM || f.frame = 0)

/-- The frames that a swap or retirement holds (R269). -/
def Swap.frames (c : Care) (w : Swap) : List (Nat × Nat) :=
  let r := remapOf c w.group
  let before : Remap := if w.phase = .commit then { r with spares := r.spares.drop 1 } else r
  if w.retire then [realFrame before w.frame, spareFrame w.spare] else [realFrame r w.frame, realFrame r 0]

/-- Whether a row of a domain is one of a frame's rows. -/
def rowIn (domain row : Nat) (f : Nat × Nat) : Bool :=
  frameDomain f.1 f.2 = domain && (if f.2 = 0 then row / 64 = f.1 / 8 else row / max 1 Config.capacityChannels = f.1 / 8 * 3 + (f.2 - 1))

/-- Whether a row of a domain is held (R271). -/
def rowHeld (c : Care) (domain row : Nat) : Bool := c.swaps.any (fun w => (w.frames c).any (rowIn domain row))

/-! ### The phases (R269) -/

def State.setSwap (s : State) (w : Swap) : State :=
  { s with care := { s.care with swaps := s.care.swaps.map (fun x => if x.group = w.group then w else x) } }

def swapAt (s : State) (group : Nat) (p : SwapPhase) : Option Swap := s.care.swaps.find? (fun w => w.group = group && w.phase = p)

/-- READ: both pages, or the one of a retirement, go into the unit's buffer. A line that it finds uncorrectable is poisoned (R273),
and is written so in WRITE. -/
def swapReadPages (s0 : State) (group : Nat) (finds : List RowFinding) : State :=
  match swapAt s0 group .hold with
  | none => s0
  | some w =>
    let r := remapOf s0.care group
    let from1 := realFrame r (frameOf r w.memA)
    let read (f : RowFinding) : Bool := findingOk s0 f && ((f.group, f.frame) = from1 || (!w.retire && (f.group, f.frame) = realFrame r (frameOf r w.memB)))
    let s := (finds.filter read).foldl scrubLine s0
    match swapAt s group .hold with
    | none => s
    | some w =>
      s.setSwap { w with phase := .read, bufA := readPage s (frameLoc r (frameOf r w.memA) 0)
                         bufB := if w.retire then {} else readPage s (frameLoc r (frameOf r w.memB) 0) }

/-- SWAP_READ. -/
def execSwapRead (r : GroupRead) (s : State) : Host.Outcome State Fault Refusal :=
  .next (swapReadPages s r.group r.finds)

/-- WRITE: each page goes into its new frame. -/
def swapWritePages (s : State) (group : Nat) : State :=
  match swapAt s group .read with
  | none => s
  | some w =>
    let r := remapOf s.care group
    let s1 :=
      if w.retire then placePage s (spareLoc w.spare) w.bufA
      else placePage (placePage s (frameLoc r 0 0) w.bufA) (frameLoc r w.frame 0) w.bufB
    s1.setSwap { w with phase := .write }

/-- SWAP_WRITE. -/
def execSwapWrite (group : Nat) (s : State) : Host.Outcome State Fault Refusal := .next (swapWritePages s group)

/-- MAP with two members exchanged. -/
def swapMap (r : Remap) (a b : Nat) : BitVec 8 :=
  BitVec.ofNat 8 ((upFrom 0 4).foldl (fun n i => n + 4 ^ i * frameOf r (if i = a then b else if i = b then a else i)) 0)

/-- COMMIT: the new MAP, or BAD and the spare map, is written; a retirement is counted, reported and frees the score of the row for
which it is made (R277). A spare that is replaced itself is not used again. -/
def swapCommitMap (s : State) (group : Nat) : State :=
  match swapAt s group .write with
  | none => s
  | some w =>
    let r := remapOf s.care group
    if w.retire then
      let r1 : Remap := { r with bad := r.bad ||| BitVec.ofNat 4 (2 ^ w.frame), spares := (w.frame, w.spare) :: r.spares }
      let c := (putRemap s.care r1).setDomain w.domain (fun d => Domain.reheat { d with scores := d.scores.filter (fun x => x.row ≠ w.row) })
      let s1 : State := { s with care := { c with retired := c.retired + 1 } }
      (s1.setSwap { w with phase := .commit }).event 2 (phys := pageOf group w.memA) (domain := w.domain) (row := w.row)
    else
      let c := putRemap s.care { r with map := swapMap r w.memA w.memB }
      let s1 : State := { s with care := { c with swapsDone := c.swapsDone + 1 } }
      s1.setSwap { w with phase := .commit }

/-- SWAP_COMMIT. -/
def execSwapCommit (group : Nat) (s : State) : Host.Outcome State Fault Refusal := .next (swapCommitMap s group)

/-- The place of a step among an agent's. -/
def stepIndex (a : Agent) (st : AStep) : Nat := a.steps.findIdx (fun x => x = st)

/-- A part of a remote write is done; with its last the device that sent it is answered (R270). -/
def partDone (s : State) (req : Option Nat) : State :=
  match req.bind (fun n => s.fabric.pending.find? (fun p => p.1 = n)) with
  | none => s
  | some (n, fid, left) =>
    let rest := s.fabric.pending.filter (fun p => p.1 ≠ n)
    if left ≤ 1 then { s with fabric := { s.fabric with pending := rest } }.remoteAnswer fid 0 []
    else { s with fabric := { s.fabric with pending := rest ++ [(n, fid, left - 1)] } }

/-- A write of a device that waits at a line of some parts (R270, R354). -/
def waitsAhead (s : State) (fid : Nat) (ps : List (Nat × Nat × Nat)) : Option Nat :=
  s.care.swaps.findSome? (fun x => x.waits.findSome? (fun w => match w with
    | .remote loc bs (some n) _ _ =>
      if s.fabric.pending.any (fun p => p.1 = n && p.2.1 = fid) && ps.any (fun p => overlaps p.1 p.2.1 loc bs.length) then some loc else none
    | _ => none))

/-- A remote read is answered, behind the writes of its device that wait for its lines (R270, R353, R354). -/
def remoteRead (s : State) (fid : Nat) (ps : List (Nat × Nat × Nat)) (used : Nat × List Addr) : State :=
  match waitsAhead s fid ps with
  | some loc => waitFor s loc (.remoteRead fid ps used)
  | none =>
    let (bs, bad) := outsideBytes s ps
    (countParts s ps).remoteAnswer fid (if bad then 1 else 0) bs

/-- A write that waited is performed (R269), or waits again for a swap that holds its page since; nothing is left to
perform when its owner is gone. -/
def performWait (s : State) (w : Waiter) : State :=
  match w with
  | .out core e =>
    if !(s.channel core).contains e then s
    else if held s.care e.loc then waitFor s e.loc w
    else landOut s core e
  | .agent id st =>
    match s.agents.find? (fun a => a.id = id) with
    | none => s
    | some a =>
      if !a.steps.contains st then s
      else if st.heldBy s.care then waitFor s (st.writeLoc.getD 0) w
      else takeStep s a (stepIndex a st)
  | .host =>
    match s.hostq with
    | q :: _ => applyMemoryWrite s q
    | [] => s
  | .remote loc bs req bad _ => if held s.care loc then waitFor s loc w else partDone ((s.put loc bs).poisonAt loc bad) req
  | .remoteRead fid ps used => remoteRead s fid ps used

/-- RELEASE: the hold clears, waiting writes are performed in order, and retirements that are due start. -/
def swapReleaseHold (s : State) (group : Nat) : State :=
  match swapAt s group .commit with
  | none => s
  | some w =>
    let s1 : State := { s with care := { s.care with swaps := s.care.swaps.filter (fun x => x.group ≠ group) } }
    startDue (w.waits.foldl performWait s1)

/-- SWAP_RELEASE. -/
def execSwapRelease (group : Nat) (s : State) : Host.Outcome State Fault Refusal := .next (swapReleaseHold s group)

/-! ### Scrubbing (R275, R276) -/

/-- A patrol or hot-list scrub of a domain (R275): it scrubs the rows that it skipped, once they are held no longer, and takes
what it finds; a held row is skipped and owed (R271). -/
def patrolStep (s : State) (domain : Nat) (finds : List RowFinding) : State :=
  let owed (d : Domain) : Domain := { d with skipped := d.skipped.filter (rowHeld s.care domain) }
  (finds.filter (fun f => findingOk s f && frameDomain f.group f.frame = domain)).foldl (fun s f =>
    let row := rowNumber f.group f.frame f.line
    if rowHeld s.care domain row then
      { s with care := s.care.setDomain domain (fun d => if d.skipped.contains row then d else { d with skipped := d.skipped ++ [row] }) }
    else scrubLine s f) { s with care := s.care.setDomain domain owed }

/-- PATROL_SCRUB_STEP. -/
def execPatrolScrubStep (domain : Nat) (finds : List RowFinding) (s : State) : Host.Outcome State Fault Refusal :=
  .next (patrolStep s domain finds)

/-- SCRUB_PASS_END: every score of the domain is halved, and entries that reach 0 are freed. -/
def execScrubPassEnd (domain : Nat) (s : State) : Host.Outcome State Fault Refusal :=
  .next { s with care := s.care.setDomain domain (fun d =>
    Domain.reheat { d with scores := (d.scores.map (fun x => { x with score := x.score / 2 })).filter (fun x => 0 < x.score) }) }

/-! ### Activation counters (R279) -/

/-- The counter of a row of a stack. -/
def actOf (c : Care) (stack row : Nat) : Nat := ((c.acts.find? (fun a => a.1 = stack && a.2.1 = row)).map (·.2.2)).getD 0

def setAct (c : Care) (stack row n : Nat) : Care :=
  let rest := c.acts.filter (fun a => !(a.1 = stack && a.2.1 = row))
  { c with acts := if n = 0 then rest else rest ++ [(stack, row, n)] }

/-- Activations since the last precharge are counted, and the counter is read (R279): at the threshold of the stack, saturated, or
on a parity error, the neighbours of the row in its pseudo-channel are refreshed and the counter is 0; a parity error is logged
and reported. -/
def prechargeRow (s : State) (stack row activations : Nat) (read : CounterRead) : State :=
  let g := row / 64 * 8 + stack
  if 8 ≤ stack || Config.congruenceGroups ≤ g then s
  else
    let n := actOf s.care stack row + activations
    if read ≠ .good || mcareActh (s.care.domains.getD stack {}).mcare * 64 ≤ n then
      let c := setAct s.care stack row 0
      let s1 : State := { s with care := { c with refreshed := [-2, -1, 0, 1, 2].map (fun i => (stack, (row : Int) + 64 * i)) } }
      match read with
      | .parityBad f => { s1 with plat := logFault s1.plat f }.event 4 (phys := pageIn s1.care g 0) (domain := stack) (row := row)
      | _ => s1
    else { s with care := setAct s.care stack row n }

/-- PRECHARGE. -/
def execPrecharge (stack row activations : Nat) (read : CounterRead) (s : State) : Host.Outcome State Fault Refusal :=
  .next (prechargeRow s stack row activations read)

end Sys2Proof.Machine
end

