-- ==== Sys2Proof/Machine/Platform.lean ====
section
/-! DEFINITION. The platform (R325, R331, R359-R370): invalidations, staged start, fuses, attestation, the watchdog, the
clamps, resets, the fault log, and writes of window registers. -/

namespace Sys2Proof.Machine

/-! ### Invalidation (R325, R331) -/

/-- Whether an invalidation covers an address. -/
def Invalidation.covers (v : Invalidation) (va n : Nat) : Bool := v.all || overlaps v.base (v.pages * 0x10000) va n

/-- Whether some pages have one in the range of an invalidation. -/
def Invalidation.holds (v : Invalidation) (ps : List Addr) : Bool := ps.any (fun p => v.covers p.toNat 0x10000)

/-- The agents of a context that hold a translation in the range; the teams of which a write-back will use one (R329); and the
operations of copies that have not started and hold one. -/
def Invalidation.agentsOf (v : Invalidation) (s : State) : List Nat :=
  (s.agents.filter (fun a => a.ctx = v.ctx && v.holds a.pages)).map (·.id)
def Invalidation.teamsOf (v : Invalidation) (s : State) : List Nat :=
  (s.teams.filter (fun t => t.ctx = v.ctx && t.regions.any (fun r => r.outs && v.holds r.pages))).map (·.id)
def Invalidation.opsOf (v : Invalidation) (s : State) : List Nat :=
  (s.teams.filter (fun t => t.ctx = v.ctx)).flatMap (fun t => t.insts.flatMap (fun n => (n.slices.filter (fun x => v.holds x.pages)).map (·.op)))

/-- An invalidation begins (R331, step 2): cached translations go, and the agents, teams and copies that hold one are noted. -/
def beginInvalidation (s : State) (v : Invalidation) : State :=
  let x := s.ctx v.ctx
  let w : Invalidation := { v with agents := v.agentsOf s, teams := v.teamsOf s, ops := v.opsOf s }
  let s1 := s.setCtx v.ctx { x with tlb := x.tlb.filter (fun t => !v.covers t.1 t.2.1) }
  { s1 with invs := s1.invs ++ [w] }

/-- Whether a store entry was translated in the range of an invalidation. -/
def Invalidation.pendingEntry (v : Invalidation) (e : Entry) : Bool :=
  e.ctx = v.ctx && (match e.va with | some a => v.covers a.toNat e.bytes.length | none => false)

/-- Whether an operation of a number is in flight. -/
def opInFlight (s : State) (n : Nat) : Bool :=
  s.groups.any (fun g => g.fe.ops.any (fun o => o.id = n)) || s.lanterns.any (fun l => l.fe.ops.any (fun o => o.id = n))

/-- Whether a write or a read that waits for a held page used a translation in the range (R269, R331). -/
def Invalidation.pendingWait (v : Invalidation) : Waiter → Bool
  | .remote _ _ _ _ (some (ctx, ps)) => ctx = v.ctx && v.holds ps
  | .remoteRead _ _ (ctx, ps) => ctx = v.ctx && v.holds ps
  | _ => false

/-- Whether steps 3 and 4 of R331 are complete. Before a new root is used, nothing begun meanwhile holds a translation either
(R325, log 80). -/
def Invalidation.ready (v : Invalidation) (s : State) : Bool :=
  !(s.agents.any (fun a => v.agents.contains a.id)) && !(s.teams.any (fun t => v.teams.contains t.id))
    && !(v.ops.any (opInFlight s))
    && (v.newRoot.isNone || (v.agentsOf s = [] && v.teamsOf s = [] && v.opsOf s = []))
    && !(s.outb.any (fun o => v.pendingEntry o.entry)) && !(s.groups.any (fun g => g.fe.sq.any v.pendingEntry))
    && !(s.lanterns.any (fun l => l.fe.sq.any v.pendingEntry)) && !(s.care.swaps.any (fun w => w.waits.any v.pendingWait))

/-- The oldest invalidation ends, once it may (R331, R332): a PTROOT takes its new value, or INVDONE is sent. -/
def endInvalidation (s : State) : State :=
  match s.invs with
  | [] => s
  | v :: rest =>
    if !v.ready s then s
    else
      let s1 : State := { s with invs := rest }
      match v.newRoot with
      | some r => s1.setCtx v.ctx { s1.ctx v.ctx with ptroot := r, tlb := [] }
      | none => s1.answer 0x85 v.ctx v.seqNo (BitVec.ofNat 64 v.status)

/-- INVALIDATION_COMPLETE. -/
def execInvalidationComplete (s : State) : Host.Outcome State Fault Refusal := .next (endInvalidation s)

/-- A write of PTROOT (R325): an invalidation of the whole context, at whose end the new value is used. -/
def writePtroot (s : State) (ctx : Nat) (v : DWord) : State :=
  if Config.contexts ≤ ctx then s
  else beginInvalidation s { ctx := ctx, seqNo := 0, base := 0, pages := 0, all := true, newRoot := some (v &&& 0x1FFFFFFF001) }

/-- PTROOT_WRITE. -/
def execPtrootWrite (ctx : Nat) (v : DWord) (s : State) : Host.Outcome State Fault Refusal := .next (writePtroot s ctx v)

/-! ### Resets (R272, R362, R368, R369) -/

/-- What a start keeps of the platform: the fuses and the identity key. -/
def Plat.restart (p : Plat) (warm : Bool) : Plat := { keyh := p.keyh, krev := p.krev, svnmin := p.svnmin, idkey := p.idkey, warm := warm }

/-- What lies outside the device is kept by every reset: host memory, remote memory, messages already sent, and the model's
own fields (logs 2, 3). -/
def resetFrom (s : State) (p : Plat) (c : Care) (mem : Memory) (poison : List Nat) : State :=
  { State.reset with
      moduleM := s.moduleM, plat := p, care := c, mem := mem, poison := poison, outbox := s.outbox
      fabric := { refusers := s.fabric.refusers, remoteOut := s.fabric.remoteOut, outData := s.fabric.outData, sent := s.fabric.sent }
      agenda := s.agenda, choices := s.choices, freeBits := s.freeBits, ids := s.ids }

/-- DRAM care at its reset values (R268, R278). -/
def freshCare (moduleM : Bool) : Care := { tswc := if moduleM then 0x80001084 else 0x1084 }

/-- A cold start (R362, R368): all state is lost, DRAM too. -/
def coldReset (s : State) : State :=
  resetFrom s (s.plat.restart false) (freshCare s.moduleM) (s.mem.filter (fun c => hostBase ≤ c.1)) (s.poison.filter (fun u => hostBase ≤ u))

/-- A swap or retirement past READ ends through RELEASE; one in HOLD or READ is abandoned, and of the writes that wait for it
those of remote devices are performed (R272, log 64). -/
def endSwap (s : State) (w : Swap) : State :=
  match w.phase with
  | .hold | .read =>
    (w.waits.filter (·.isRemote)).foldl performWait { s with care := { s.care with swaps := s.care.swaps.filter (fun x => x.group ≠ w.group) } }
  | .write => swapReleaseHold (swapCommitMap s w.group) w.group
  | .commit => swapReleaseHold s w.group

/-- End every swap in progress. -/
def endSwaps : Nat → State → State
  | 0, s => s
  | n + 1, s =>
    match s.care.swaps with
    | [] => s
    | w :: _ => endSwaps n (endSwap s w)

/-- A warm reset begins (R272, R369): messages that have not completed are dropped, then swaps end, what engines and queues still owe reaches memory or not, entry by entry (log 64),
and the device starts at stage 0 with what R369 preserves. -/
def warmReset (s : State) : State :=
  let s0 : State := { s with hostq := [], care := { s.care with due := [], tswc := s.care.tswc &&& 0x7FFFFFFF } }
  let s1 := endSwaps s0.care.swaps.length s0
  let queued := s1.groups.flatMap (fun g => g.fe.sq) ++ s1.lanterns.flatMap (fun l => l.fe.sq)
  let s2 := (s1.outb.map (·.entry) ++ queued).foldl fateOf { s1 with outb := [] }
  let s3 := s2.agents.foldl (fun s a => fateSteps (a.steps.length + 1) s a) s2
  let f := freshCare s.moduleM
  let c : Care :=
    { s3.care with tswc := f.tswc, swaps := [], due := [], swapsDone := 0
                   domains := s3.care.domains.map (fun d => { d with mcare := ({} : Domain).mcare, skipped := [] }) }
  let keep (loc : Nat) : Bool := loc < cupolaBase || hostBase ≤ loc
  resetFrom s3 (s3.plat.restart true) c (s3.mem.filter (fun x => keep x.1)) (s3.poison.filter keep)

/-- POWER_ON (R362). -/
def execPowerOn (s : State) : Host.Outcome State Fault Refusal := .next (if s.plat.powered then s else coldReset s)

/-- RSTC_WARM. -/
def execRstcWarm (s : State) : Host.Outcome State Fault Refusal := .next (if s.plat.powered then warmReset s else s)

/-- RSTC_COLD. -/
def execRstcCold (s : State) : Host.Outcome State Fault Refusal := .next (if s.plat.powered then coldReset s else s)

/-- Power goes: nothing is left but the fuses, of which a write in progress may not have landed (R364). -/
def losePower (s : State) (landed : Bool) : State :=
  let p := match s.plat.fuseWas with
    | some (k, v) => if landed then s.plat else { s.plat with krev := k, svnmin := v }
    | none => s.plat
  let s1 := coldReset { s with plat := p }
  { s1 with plat := { s1.plat with powered := false } }

/-- POWER_LOSS. -/
def execPowerLoss (landed : Bool) (s : State) : Host.Outcome State Fault Refusal :=
  .next (if s.plat.powered then losePower s landed else s)

/-! ### Staged start (R361-R363) -/

/-- The failure that the checks of R363 find in the firmware buffer; 0 for none. -/
def verifyCode (p : Plat) : Nat :=
  let h := p.fwbuf.read 0 256
  let len := recNat h 4 4
  let k := recNat h 12 1
  let key := (h.drop 128).take 32
  let headBad := recNat h 0 4 ≠ 0x43594657 || len % 64 ≠ 0 || 0x800000 - 256 < len || 3 < k || recNat h 13 51 ≠ 0 || recNat h 160 96 ≠ 0
  if headBad then 1
  else if ((sha512 key).extractLsb' 0 256) ≠ p.keyh.getD k 0 || p.krev.getLsbD k then 2
  else if !ed25519Verify (BitVec.ofNat 256 (natOf key)) (digestBytes (sha512 (h.take 64 ++ p.fwbuf.read 256 len)))
      (BitVec.ofNat 512 (recNat h 64 64)) then 3
  else if recNat h 8 4 < p.svnmin.toNat then 4
  else 0

/-- The image as verified: its header and its body (R363). -/
def imageBytes (p : Plat) : List Byte := p.fwbuf.read 0 (256 + natOf (p.fwbuf.read 4 4))

/-- Verification on the host's request (R362, R363, R366): stage 1 begins; on success the fences are locked and the image and the
fences are measured, and a failure leaves the device in stage 1 (log 77). -/
def verifyImage (s : State) : State :=
  let p := s.plat
  if !p.powered || p.stage ≠ 0 || p.fail ≠ 0 then s
  else
    let c := verifyCode p
    if c ≠ 0 then { s with plat := { p with stage := 1, fail := BitVec.ofNat 8 c, fuseWas := none } }
    else
      let log := (p.mlog.set 1 (sha512 (imageBytes p))).set 2 (sha512 (p.hwf.flatMap (fun w => bytesOf 8 w.toNat)))
      { s with plat := { p with stage := 1, lock := true, mlog := log, fuseWas := none } }

/-- ATTC_VERIFY. -/
def execAttcVerify (s : State) : Host.Outcome State Fault Refusal := .next (verifyImage s)

/-- Stage 2 is done (R362, R366): at a cold start the remap table is built and the activation counters are zeroed; the repair
maps are measured; the Cupola reads zero (R259). -/
def enterCompute (s : State) : State :=
  let c := s.care
  let c1 : Care := if s.plat.warm then c else { c with remaps := [], acts := [] }
  { s with
      plat := { s.plat with stage := 3, mlog := s.plat.mlog.set 3 (sha512 Config.repairMaps) }
      care := c1, mem := s.mem.filter (fun x => !isCupola x.1), poison := s.poison.filter (fun u => !isCupola u) }

/-- The start goes on (R362), or stops in stage 2 with FAIL 5 or 6. -/
def advanceStage (s : State) (code : BitVec 8) : State :=
  let p := s.plat
  if !p.powered || p.fail ≠ 0 then s
  else if p.stage = 1 then (if code = 0 then { s with plat := { p with stage := 2 } } else s)
  else if p.stage = 2 then
    (if code = 0 then enterCompute s else if code = 5 || code = 6 then { s with plat := { p with fail := code } } else s)
  else s

/-- STAGE_ADVANCE. -/
def execStageAdvance (failCode : BitVec 8) (s : State) : Host.Outcome State Fault Refusal := .next (advanceStage s failCode)

/-! ### Fuses and attestation (R364, R366) -/

/-- A fuse write of the ROM, in stage 0 only (R364). -/
def writeFuse (s : State) (f : Plat → Plat) : State :=
  let p := s.plat
  if p.powered && p.stage = 0 then { s with plat := { f p with fuseWas := some (p.krev, p.svnmin) } } else s

/-- KREV bits are set: they only grow. -/
def revokeKeys (s : State) (bits : BitVec 4) : State := writeFuse s (fun p => { p with krev := p.krev ||| bits })

/-- ATTC_REVOKE_KEY. -/
def execAttcRevokeKey (bits : BitVec 4) (s : State) : Host.Outcome State Fault Refusal := .next (revokeKeys s bits)

/-- SVNMIN rises to the value in ATTN bytes 3:0; a lower one leaves it. -/
def raiseSvnmin (s : State) : State :=
  writeFuse s (fun p => { p with svnmin := BitVec.ofNat 32 (max p.svnmin.toNat (natOf (p.attn.take 4))) })

/-- ATTC_RAISE_SVNMIN. -/
def execAttcRaiseSvnmin (s : State) : Host.Outcome State Fault Refusal := .next (raiseSvnmin s)

/-- A quote is requested (R366): its first half is taken, and the area is not readable meanwhile. -/
def beginQuote (s : State) : State :=
  let p := s.plat
  if !p.powered then s
  else { s with plat := { p with quoting := true, attc := 1, quote := p.attn.take 32 ++ bytesOf 2 p.fid.toNat ++ List.replicate 94 0 } }

/-- ATTC_QUOTE. -/
def execAttcQuote (s : State) : Host.Outcome State Fault Refusal := .next (beginQuote s)

/-- The quote is signed (R366). -/
def endQuote (s : State) : State :=
  let p := s.plat
  if !p.quoting then s
  else
    let head := p.quote.take 64
    let sig := ed25519Sign p.idkey (digestBytes (sha512 (head ++ logBytes p)))
    { s with plat := { p with quoting := false, attc := 0, quote := head ++ bytesOf 64 sig.toNat } }

/-- QUOTE_READY. -/
def execQuoteReady (s : State) : Host.Outcome State Fault Refusal := .next (endQuote s)

/-! ### Watchdog and clamps (R365, R370) -/

/-- WDOG is written: the watchdog starts again, and so does a controller that it had reset. -/
def writeWdog (s : State) (v : DWord) : State := { s with plat := { s.plat with wdogV := v, wdog := 0, restarting := false } }

/-- WDOG_WRITE. -/
def execWdogWrite (v : DWord) (s : State) : Host.Outcome State Fault Refusal := .next (writeWdog s v)

/-! ### Firmware's accesses (R365) -/

/-- Whether a physical range lies in DRAM or the Cupola, and inside the window that FWOPEN opens to firmware. The Cupola's physical
addresses are the model's (log 112). -/
def fwOpen (s : State) (pa n : Nat) : Bool :=
  let base := (s.plat.fwopen.getD 0 0).toNat
  n ≠ 0 && base ≤ pa && pa + n ≤ base + (s.plat.fwopen.getD 1 0).toNat
    && ((pagesOf pa n).all (fun p => installed s p) || (cupolaBase ≤ pa && pa + n ≤ cupolaBase + Config.windowBytes))

/-- A read of memory by firmware: the bytes inside the window, poisoned ones as zero, and zeros outside it. -/
def firmwareRead (s : State) (pa n : Nat) : List Byte × State :=
  if fwOpen s pa n then
    let ps := lineParts (n / 64 + 2) pa n 0
    ((outsideBytes s ps).1, countParts s ps)
  else (List.replicate n 0, s)

/-- A write of memory by firmware; one of a held page waits (R269). Outside the window it writes nothing. -/
def firmwareWrite (s : State) (pa : Nat) (bs : List Byte) : State :=
  if fwOpen s pa bs.length then
    (lineParts (bs.length / 64 + 2) pa bs.length 0).foldl (fun s p => performWait s (.remote p.1 ((bs.drop p.2.2).take p.2.1) none [] none)) s
  else s

/-- One access of firmware. -/
def firmwareAct (s : State) (a : FirmwareAct) : State :=
  match a with
  | .read pa n =>
    let (bs, s1) := firmwareRead s pa n
    { s1 with plat := { s1.plat with fwRead := bs } }
  | .write pa bs => firmwareWrite s pa bs

/-- Cycles of the management controller pass without a write of WDOG (R365): after 2^24 the controller alone is reset and
reruns stage 1, whose checks may fail now; everything else goes on (log 112). -/
def watchdogPass (s : State) (dt : Nat) : State :=
  let p := s.plat
  if p.stage.toNat < 2 then s
  else if 2 ^ 24 ≤ p.wdog + dt then
    let c := verifyCode p
    { s with plat := { p with wdog := 0, restarting := true, fail := if c ≠ 0 then BitVec.ofNat 8 c else p.fail } }
  else { s with plat := { p with wdog := p.wdog + dt } }

/-- The management controller runs: its firmware, verified in stage 1, accesses memory, unless the watchdog has reset it; and its
cycles pass. -/
def controllerRun (s : State) (r : FirmwareRun) : State :=
  let acts := if s.plat.powered && decide (2 ≤ s.plat.stage.toNat) && !s.plat.restarting then r.acts else []
  watchdogPass (acts.foldl firmwareAct s) r.cycles

/-- WATCHDOG_EXPIRY. -/
def execWatchdogExpiry (r : FirmwareRun) (s : State) : Host.Outcome State Fault Refusal := .next (controllerRun s r)

/-- POWER_CLAMP: clocks fall, and nothing else changes (R370). -/
def execPowerClamp (s : State) : Host.Outcome State Fault Refusal := .next { s with plat := { s.plat with clockLow := true } }

/-- THERMAL_CLAMP: clocks fall, and nothing else changes (R370). -/
def execThermalClamp (s : State) : Host.Outcome State Fault Refusal := .next { s with plat := { s.plat with thermalLow := true } }

/-- THERMAL_SHUTDOWN: power goes (R370); whether a fuse write in progress lands is open (R364, log 3). -/
def execThermalShutdown (s : State) : Host.Outcome State Fault Refusal :=
  let (b, s1) := s.takeBit
  .next (if s.plat.powered then losePower s1 b else s)

/-! ### The fault log (R367) -/

/-- Data struck beyond correction becomes poison (R246, R250, R258, R273). -/
def strike (s : State) (x : Struck) : State :=
  match x with
  | .nothing => s
  | .memory loc =>
    if isOutside loc then s
    else if isDram loc then
      if !installed s loc then s
      else
        let f := frameServing s.care loc
        spoilLine s f.1 f.2 (loc % 0x10000 / 64)
    else s.poison1 (unitOf loc)
  | .lane core slot i w =>
    match s.group? core slot with
    | some g => s.setGroup (g.upd (laneBit i) (fun _ l => { l with bad := insertNat (w - w % 4) l.bad }))
    | none => s
  | .tile team core n byte =>
    match s.team? team with
    | none => s
    | some t =>
      let d := t.side core
      let spoil (bs : List Block) (i : Nat) : List Block := bs.set n ((bs.getD n {}).spoil i 1)
      let d1 := if byte < 16384 then { d with tiles := spoil d.tiles byte } else { d with comps := spoil d.comps (byte - 16384) }
      s.setTeam (t.setSide d1)

/-- FAULT_DETECTED: the fault is logged, and the data it struck is poisoned (R367). -/
def execFaultDetected (f : FaultReport) (s : State) : Host.Outcome State Fault Refusal :=
  .next (strike { s with plat := logFault s.plat f.log } f.struck)

/-! ### Writes of window registers (R359) -/

/-- A write of ATTC (R363, R364, R366); other values do nothing. -/
def writeAttc (s : State) (v : DWord) : State :=
  if v = 1 then beginQuote s
  else if v = 2 then verifyImage s
  else if v = 3 then revokeKeys s (BitVec.ofNat 4 (natOf (s.plat.attn.take 1)))
  else if v = 4 then raiseSvnmin s
  else s

/-- A write of a doubleword of the window. -/
def writeReg (s : State) (off : Nat) (v : DWord) : State :=
  if off = 0x08 then (if v.getLsbD 1 then coldReset s else if v.getLsbD 0 then warmReset s else s)
  else if off = 0x18 then writeWdog s v
  else if off = 0x120 then writeAttc s v
  else if 0x10000 ≤ off && off < 0x50000 && off % 0x1000 = 0x20 then writePtroot s (off / 0x1000 - 0x10) v
  else writePlain s off v

/-- A window write of several doublewords, in order of address. -/
def writeRegs (s : State) (off : Nat) (bs : List Byte) : State :=
  (upFrom 0 (bs.length / 8)).foldl (fun s i => writeReg s (off + 8 * i) (dwordAt bs (8 * i))) s

/-- MGMT_REGISTER_WRITE; one that is not aligned, or meets no register, is dropped and reported (R359). -/
def execMgmtRegisterWrite (off : BitVec 41) (v : DWord) (s : State) : Host.Outcome State Fault Refusal :=
  .next (if off.toNat % 8 = 0 && mgmtHolds s off.toNat then writeReg s off.toNat v else s.event 10 (detail := 2 ^ 63 + off.toNat))

/-- DBGC_WRITE. -/
def execDbgcWrite (core slot : Nat) (v : Word) (s : State) : Host.Outcome State Fault Refusal := .next (writeDbgc s core slot v)

/-- TSWS_READ: the count is sent, and is 0 after (R268). -/
def execTswsRead (seqNo : BitVec 16) (s : State) : Host.Outcome State Fault Refusal :=
  .next (clearSwapCount (s.answer 0x84 0 seqNo 0 (bytesOf 8 (tsws s.care).toNat)))

end Sys2Proof.Machine
end

