-- ==== Sys2Proof/Machine/Link.lean ====
section
/-! DEFINITION. The Clerestory link (R343-R349): which messages are malformed, and what each request does. -/

namespace Sys2Proof.Machine

/-! ### Taking a message (R344, R345, R362) -/

/-- Whether a message's LEN is what its type carries. -/
def lenOk (m : HostMsg) : Bool :=
  let n := m.len.toNat
  (match m.type.toNat with
    | 1 => n = 128
    | 3 => decide (1 ≤ n) && n ≤ 4096
    | 4 => n ≤ 4096
    | 5 => n = 16
    | _ => n = 0) && m.payload.length = (if m.type = 4 then 0 else n)

/-- Whether an INV payload obeys R331 and R344. -/
def invOk (b : List Byte) : Bool :=
  let mode := natOf (b.take 1)
  natOf ((b.drop 1).take 3) = 0 && (mode = 1 ||
    (mode = 0 && natOf ((b.drop 8).take 8) % 0x10000 = 0 && natOf ((b.drop 8).take 8) < 2 ^ 48 && natOf ((b.drop 4).take 4) ≠ 0))

/-- Whether the device discards a message (R344). -/
def malformed (m : HostMsg) : Bool :=
  m.type = 0 || decide (10 < m.type.toNat) || decide (1 < m.space.toNat) || !lenOk m
    || ((m.type = 1 || m.type = 5 || m.type = 10) && m.arg ≠ 0) || (m.type = 2 && m.arg.extractLsb' 13 19 ≠ 0)
    || (m.type = 5 && !invOk m.payload)

/-- Before stage 3 only the window is reached (R362). -/
def stageTakes (s : State) (m : HostMsg) : Bool := s.plat.stage = 3 || ((m.type = 3 || m.type = 4) && isMgmt m.space m.arg)

/-- A message is discarded, and the host is told (R344). -/
def discard (s : State) (m : HostMsg) : State := s.event 9 (ctx := m.ctx.toNat)

/-- Every core discards its stale copies: the acquire that a request counts as (R345). -/
def acquireAll (s : State) : State := { s with stale := [] }

/-- A message of a type is taken (R345): it is discarded, or it waits until earlier writes have reached M, or it acts, and counts
as an acquire first. A message of another type is not this step. -/
def onMessage (type : BitVec 8) (m : HostMsg) (s : State) (act : State → State) : Host.Outcome State Fault Refusal :=
  .next (
    if m.type ≠ type || !s.plat.powered then s
    else if malformed m || !stageTakes s m then discard s m
    else if type ≠ 3 && s.hostq ≠ [] then s
    else act (acquireAll s))

/-- MALFORMED_MESSAGE. -/
def execMalformedMessage (m : HostMsg) (s : State) : Host.Outcome State Fault Refusal :=
  .next (if malformed m && s.plat.powered then discard s m else s)

/-- Whether a context has no page-table root (R344). -/
def rootless (s : State) (ctx : Nat) : Bool := !(s.ctx ctx).ptroot.getLsbD 0

/-- The slots that a request names: one, or all of the context's; none when the slot is outside its range (R344). -/
def namedSlots (s : State) (ctx : Nat) (arg : DWord) : Option (List Nat) :=
  if arg = 0xFFFFFFFFFFFFFFFF then some ((s.tasks.filter (fun t => t.ctx = ctx)).map (·.slot))
  else if slotIn s ctx arg.toNat then some [arg.toNat] else none

/-! ### Posting and releasing (R346) -/

/-- HOST_POST. -/
def execHostPost (m : HostMsg) (s : State) : Host.Outcome State Fault Refusal :=
  onMessage 1 m s (fun s =>
    if rootless s m.ctx.toNat then s.answer 0x81 m.ctx.toNat m.seq 0xFFFFFFFFFFFFFFFE
    else
      let (r, s1) := postRecord s m.ctx.toNat m.payload
      s1.answer 0x81 m.ctx.toNat m.seq r)

/-- HOST_ARRIVE. -/
def execHostArrive (m : HostMsg) (s : State) : Host.Outcome State Fault Refusal :=
  onMessage 2 m s (fun s =>
    let slot := (m.arg.extractLsb' 0 13).toNat
    if rootless s m.ctx.toNat || !slotIn s m.ctx.toNat slot then s
    else settleRequests (arriveTask s slot (m.arg.extractLsb' 32 32).toNat))

/-! ### Reads and writes (R347, R359) -/

/-- Whether a host write passes its checks now. -/
def writePasses (s : State) (m : HostMsg) : Bool :=
  if isMgmt m.space m.arg then
    match mgmtOffset m.arg m.payload.length with
    | some off => mgmtRangeHolds s off m.payload.length
    | none => false
  else (hostParts s m.space m.ctx.toNat m.arg.toNat m.payload.length .write).isSome

/-- A host write is checked and enters the host queue (R345, R347). One that fails while older writes wait is checked again
when they have reached M; one that fails then is dropped whole, and the host is told. -/
def takeWrite (s : State) (m : HostMsg) : State :=
  let touched : State := if isMgmt m.space m.arg then s else touchHost s m.space m.ctx.toNat m.arg.toNat m.payload.length
  if m.space = 0 && rootless s m.ctx.toNat then s
  else if writePasses s m then { touched with hostq := s.hostq ++ [{ space := m.space, ctx := m.ctx, va := m.arg, bytes := m.payload }] }
  else if s.hostq ≠ [] then s
  else touched.event 10 (ctx := m.ctx.toNat) (detail := m.arg.toNat)

/-- HOST_WRITE. -/
def execHostWrite (m : HostMsg) (s : State) : Host.Outcome State Fault Refusal := onMessage 3 m s (fun s => takeWrite s m)

/-- The oldest host write takes effect: in the window, or in memory. -/
def applyWrite (s : State) : State :=
  match s.hostq with
  | [] => s
  | w :: rest =>
    if isMgmt w.space w.va then
      let s1 : State := { s with hostq := rest }
      match mgmtOffset w.va w.bytes.length with
      | none => s1.event 10 (ctx := w.ctx.toNat) (detail := w.va.toNat)
      | some off =>
        if mgmtRangeHolds s off w.bytes.length then writeRegs s1 off w.bytes
        else s1.event 10 (ctx := w.ctx.toNat) (detail := w.va.toNat)
    else applyMemoryWrite s w

/-- HOST_WRITE_APPLY. -/
def execHostWriteApply (s : State) : Host.Outcome State Fault Refusal := .next (applyWrite s)

/-- A host read is answered (R347, R359). -/
def takeRead (s : State) (m : HostMsg) : State :=
  let n := m.len.toNat
  let refuse := s.answer 0x84 m.ctx.toNat m.seq 2
  if isMgmt m.space m.arg then
    match mgmtOffset m.arg n with
    | none => refuse
    | some off =>
      match mgmtRange s off n with
      | none => refuse
      | some ws => (mgmtReadEffect s off n).answer 0x84 m.ctx.toNat m.seq 0 (ws.flatMap (fun w => bytesOf 8 w.toNat))
  else if m.space = 0 && rootless s m.ctx.toNat then refuse
  else
    let s1 := touchHost s m.space m.ctx.toNat m.arg.toNat n
    match hostParts s1 m.space m.ctx.toNat m.arg.toNat n .read with
    | none => s1.answer 0x84 m.ctx.toNat m.seq 2
    | some ps =>
      let (bs, bad) := outsideBytes s1 ps
      (countParts s1 ps).answer 0x84 m.ctx.toNat m.seq (if bad then 1 else 0) bs

/-- HOST_READ. -/
def execHostRead (m : HostMsg) (s : State) : Host.Outcome State Fault Refusal := onMessage 4 m s (fun s => takeRead s m)

/-! ### Invalidation, pre-emption, save and reset (R331, R349) -/

/-- HOST_INV. -/
def execHostInv (m : HostMsg) (s : State) : Host.Outcome State Fault Refusal :=
  onMessage 5 m s (fun s =>
    let b := m.payload
    let v : Invalidation :=
      { ctx := m.ctx.toNat, seqNo := m.seq, base := natOf ((b.drop 8).take 8), pages := natOf ((b.drop 4).take 4), all := b.take 1 = [1] }
    beginInvalidation s (if rootless s m.ctx.toNat then { v with base := 0, pages := 0, all := false, status := 2 } else v))

/-- HOST_PREEMPT. -/
def execHostPreempt (m : HostMsg) (s : State) : Host.Outcome State Fault Refusal :=
  onMessage 6 m s (fun s =>
    let refuse : State :=
      { s with preempts := s.preempts ++ [{ ctx := m.ctx.toNat, slots := [], seqNo := m.seq, start := s.now, status := 2 }] }
    match if rootless s m.ctx.toNat then none else namedSlots s m.ctx.toNat m.arg with
    | none => settleRequests refuse
    | some slots => requestPreempt s m.ctx.toNat slots m.seq)

/-- HOST_RESUME. -/
def execHostResume (m : HostMsg) (s : State) : Host.Outcome State Fault Refusal :=
  onMessage 7 m s (fun s =>
    match if rootless s m.ctx.toNat then none else namedSlots s m.ctx.toNat m.arg with
    | none => s.answer 0x87 m.ctx.toNat m.seq 2
    | some slots => (resumeTasks s slots).answer 0x87 m.ctx.toNat m.seq 0)

/-- HOST_SAVE; one that meets a save of its context in progress waits for its end. -/
def execHostSave (m : HostMsg) (s : State) : Host.Outcome State Fault Refusal :=
  onMessage 8 m s (fun s =>
    if rootless s m.ctx.toNat then
      flushSaves { s with saves := s.saves ++ [{ ctx := m.ctx.toNat, seqNo := m.seq, va := m.arg, gone := some 2 }] }
    else if s.saving m.ctx.toNat then s
    else beginSave s m.ctx.toNat m.arg m.seq)

/-- HOST_RESTORE; one whose teams fit nowhere yet waits. -/
def execHostRestore (m : HostMsg) (s : State) : Host.Outcome State Fault Refusal :=
  onMessage 9 m s (fun s =>
    if rootless s m.ctx.toNat then s.answer 0x89 m.ctx.toNat m.seq 2
    else
      match restoreContext s m.ctx.toNat m.arg.toNat with
      | .ok s1 => s1.answer 0x89 m.ctx.toNat m.seq 0
      | .refused => s.answer 0x89 m.ctx.toNat m.seq 1
      | .faulted s1 => s1.answer 0x89 m.ctx.toNat m.seq 2
      | .wait => s)

/-- HOST_RESET. -/
def execHostReset (m : HostMsg) (s : State) : Host.Outcome State Fault Refusal :=
  onMessage 10 m s (fun s =>
    if rootless s m.ctx.toNat then s.answer 0x8A m.ctx.toNat m.seq 2
    else (settleRequests (forcedReset s m.ctx.toNat 0)).answer 0x8A m.ctx.toNat m.seq 0)

end Sys2Proof.Machine
end

