-- ==== Sys2Proof/Machine/Fabric.lean ====
section
/-! DEFINITION. The Buttress fabric (R322, R351-R358): remote accesses, answers of targets, unreachable devices, and
collectives. -/

namespace Sys2Proof.Machine

/-! ### Accesses of remote devices (R353) -/

/-- The first failure of the pages of a remote access: cause 3 or 4. A page of an aperture is no memory of this device. -/
def remoteFault (s : State) (ctx va n : Nat) (need : Need) : Option Nat :=
  if 2 ^ 48 < va + n then some 3
  else (pagesOf va (max n 1)).findSome? (fun p =>
    match xlateFor s ctx (max p va) need with
    | .ok q => if q.lap then some 3 else none
    | .fault k => some k)

/-- A remote access arrives: it is translated in RCTX with this device's tables, and performed or refused. One without
bytes is a target check. The parts of a write to a held page wait, and the write is answered when all are done (R269, R270). -/
def remoteAccess (s : State) (r : RemoteReq) : State :=
  let ctx := r.rctx.toNat
  let va := r.va.toNat
  let n := if r.write then r.bytes.length else r.size
  match remoteFault s ctx va n (if r.write then .write else .read) with
  | some k => (if 2 ^ 48 < va + n then s else s.touchRange ctx va (max n 1)).remoteAnswer r.fid.toNat k []
  | none =>
    let s1 := s.touchRange ctx va (max n 1)
    let ps := (virtParts s1 ctx va n 0).map (fun q => (q.1, q.2.1, q.2.2.1))
    let used := (ctx, (pagesOf va (max n 1)).map (BitVec.ofNat 48))
    if !r.write then remoteRead s1 r.fid.toNat ps used
    else if ps = [] then s1.remoteAnswer r.fid.toNat 0 []
    else
      let id := s1.ids
      let s2 : State := { s1.fresh with fabric := { s1.fabric with pending := s1.fabric.pending ++ [(id, r.fid.toNat, ps.length)] } }
      ps.foldl (fun s p => performWait s (.remote p.1 ((r.bytes.drop p.2.2).take p.2.1) (some id) [] (some used))) s2

/-- Whether the device is in operation (R362). -/
def State.running (s : State) : Bool := s.plat.powered && s.plat.stage = 3

/-- REMOTE_ACCESS_REQUEST. -/
def execRemoteAccessRequest (r : RemoteReq) (s : State) : Host.Outcome State Fault Refusal :=
  .next (if s.running then remoteAccess s r else s)

/-! ### Answers of targets, unreachable devices (R354) -/

/-- Units that wait for a target are performed again. -/
def retryTargets (s : State) : State :=
  let go (s : State) (p : Nat × Nat) : State :=
    if waitingOf s p.1 p.2 = .target then retryUnit s p.1 p.2 else s
  (s.groups.map (fun g => (g.core, g.slot)) ++ s.lanterns.map (fun l => (l.core, l.slot))).foldl go s

/-- A target answers on a page. -/
def targetAnswer (s : State) (ctx page : Nat) (ans : TargetAnswer) : State :=
  let p : Addr := BitVec.ofNat 48 (page - page % 0x10000)
  let rest := s.fabric.answers.filter (fun a => !(a.1 = ctx && a.2.1 = p))
  retryTargets { s with fabric := { s.fabric with answers := rest ++ [(ctx, p, ans)] } }

/-- TARGET_CHECK_ANSWER. -/
def execTargetCheckAnswer (ctx : Nat) (page : Addr) (ans : TargetAnswer) (s : State) : Host.Outcome State Fault Refusal :=
  .next (if s.running then targetAnswer s ctx page.toNat ans else s)

/-- A collective in flight is aborted (R322, R358): the steps its agent owes are performed or not, and it completes at once
with status 1. -/
def abortInstance (s : State) (c : Collective) : State :=
  let s1 := match s.agents.find? (fun a => a.id = c.agent) with
    | some a => fateSteps (a.steps.length + 1) s a
    | none => s
  match s1.task? c.slot with
  | some t => endCollective s1 t 1
  | none => s1

/-- A device has been silent for 2^20 fabric cycles (R354, R358): collectives with it abort, and units that waited for its
answer go on. -/
def targetDead (s : State) (fid dt : Nat) : State :=
  if dt < 2 ^ 20 then s
  else
    let s1 : State := { s with fabric := { s.fabric with dead := insertNat fid s.fabric.dead } }
    let gone := s1.fabric.insts.filter (fun c => c.parts.contains fid)
    retryTargets (gone.foldl abortInstance s1)

/-- FABRIC_UNREACHABLE. -/
def execFabricUnreachable (fid dt : Nat) (s : State) : Host.Outcome State Fault Refusal :=
  .next (if s.running then targetDead s fid dt else s)

/-! ### Collectives (R355-R358) -/

/-- COLLECTIVE_DATA_ARRIVAL: a peer's data is held for the fold (R356). -/
def execCollectiveDataArrival (d : PeerData) (s : State) : Host.Outcome State Fault Refusal :=
  .next (if s.running then
      { s with fabric := { s.fabric with held := s.fabric.held.filter (fun x => !(x.cid = d.cid && x.rank = d.rank)) ++ [d] } }
    else s)

/-- One step of the fold of a TYPE and RED (R105, R356). -/
def combine (type red : Nat) (x y : DWord) : DWord :=
  let flt (f : Fmt) : DWord :=
    BitVec.ofNat 64 (if red = 0 then (fAdd f .rne x.toNat y.toNat).1 else (fMinMax f (red = 2) x.toNat y.toNat).1)
  let int (w : Nat) : DWord :=
    let a := (x.setWidth w).toInt
    let b := (y.setWidth w).toInt
    BitVec.ofNat 64 (BitVec.ofInt w (if red = 0 then a + b else if red = 1 then min a b else max a b)).toNat
  match type with
  | 0 => flt fp32
  | 1 => flt fp64
  | 2 => flt bf16
  | 3 => int 32
  | _ => int 64

/-- A NaN of a floating TYPE becomes the canonical one. -/
def canonElem (type : Nat) (x : DWord) : DWord :=
  let fix (f : Fmt) : DWord := if isNan (decodeF f x.toNat) then BitVec.ofNat 64 (qnan f) else x
  match type with
  | 0 => fix fp32
  | 1 => fix fp64
  | 2 => fix bf16
  | _ => x

/-- The fold of operands in rank order. -/
def foldRanks (type red : Nat) (xs : List DWord) : DWord :=
  match xs with
  | [] => 0
  | x :: rest => canonElem type (rest.foldl (combine type red) x)

/-- The destination elements and the poisoned ones among them, from every rank's data in rank order (R356). -/
def collective (op type red e rank : Nat) (ds : List PeerData) : List DWord × List Nat :=
  if op = 1 then
    (ds.flatMap (fun d => (upFrom 0 e).map (fun i => d.elems.getD i 0))
      , (upFrom 0 (ds.length * e)).filter (fun i => ((ds[i / e]?).map (fun d => d.bad.contains (i % e))).getD false))
  else
    let off := if op = 2 then rank * e else 0
    ((upFrom 0 e).map (fun i => foldRanks type red (ds.map (fun d => d.elems.getD (off + i) 0)))
      , (upFrom 0 e).filter (fun i => ds.any (fun d => d.bad.contains (off + i))))

/-- Whether two participants agree (R357); RED is ignored for an all-gather. -/
def agreeing (a b : PeerData) : Bool :=
  a.op = b.op && a.type = b.type && (a.op = 1 || a.red = b.red) && a.e = b.e && a.n = b.n

/-- The data of every rank in rank order, this device's own among it; none while some is missing. -/
def allData (s : State) (r : List Byte) (own : PeerData) : Option (List PeerData) :=
  (upFrom 0 (collN r)).foldr (fun i acc =>
    match acc, (if i = collRank r then some own else s.fabric.held.find? (fun d => d.cid = own.cid && d.rank = i)) with
    | some l, some d => some (d :: l)
    | _, _ => none) (some [])

def setInst (s : State) (c : Collective) : State :=
  { s with fabric := { s.fabric with insts := s.fabric.insts.map (fun x => if x.slot = c.slot then c else x) } }

/-- A collective has all its data: its results are computed and their writes begin, or the participants disagree. Once every
write is made it completes (R357). -/
def collectiveStep (s : State) (slot : Nat) : State :=
  match s.fabric.insts.find? (fun c => c.slot = slot), s.task? slot with
  | some c, some t =>
    match s.agents.find? (fun a => a.id = c.agent) with
    | none => s
    | some a =>
      if a.steps ≠ [] then s
      else if c.writing then endCollective s t 0
      else
        let r := t.record
        let own := peerData r a.buf a.bad
        match allData s r own with
        | none => s
        | some ds =>
          if !(ds.all (fun d => agreeing d own)) then endCollective s t 2
          else
            let w := collBytes (collType r)
            let (xs, bad) := collective (collOp r) (collType r) (collRed r) (collE r) (collRank r) ds
            let bytes := xs.flatMap (fun x => bytesOf w x.toNat)
            setInst (s.setAgent { a with buf := Memory.write [] 0 bytes, bad := bad.flatMap (fun i => upFrom (i * w) w), steps := c.dst })
              { c with writing := true }
  | _, _ => s

/-- COLLECTIVE_COMPLETE. -/
def execCollectiveComplete (slot : Nat) (s : State) : Host.Outcome State Fault Refusal := .next (collectiveStep s slot)

/-- An abort arrives (R322): an instance in flight completes at once; one that has completed or was reset here is not
affected; one that starts later will find it. -/
def abortArrives (s : State) (cid : DWord) : State :=
  match s.fabric.insts.find? (fun c => c.cid = cid) with
  | some c => abortInstance s c
  | none =>
    if s.fabric.finished.contains cid || s.fabric.aborts.contains cid then s
    else { s with fabric := { s.fabric with aborts := s.fabric.aborts ++ [cid] } }

/-- COLLECTIVE_ABORT_RECEIVE. -/
def execCollectiveAbortReceive (cid : DWord) (s : State) : Host.Outcome State Fault Refusal :=
  .next (if s.running then abortArrives s cid else s)

end Sys2Proof.Machine
end

