-- ==== Sys2Proof/Machine/Scalar.lean ====
section
/-! DEFINITION. Scalar instructions and moves between lanes and the group (R88-R92). All are of class F4 (R29). -/

namespace Sys2Proof.Machine

def bin64s (i : UInstr) (d a b : SReg) (f : DWord → DWord → DWord) (s : State) : Host.Outcome State Fault Refusal :=
  scalarOp i d (fun r => f (r a) (r b)) s

/-- R88. -/
def execSadd (d a b : SReg) (s : State) : Host.Outcome State Fault Refusal :=
  bin64s (.sadd d a b) d a b (fun x y => x + y) s

/-- R88. -/
def execSsub (d a b : SReg) (s : State) : Host.Outcome State Fault Refusal :=
  bin64s (.ssub d a b) d a b (fun x y => x - y) s

/-- R88. -/
def execSmul (d a b : SReg) (s : State) : Host.Outcome State Fault Refusal :=
  bin64s (.smul d a b) d a b (fun x y => x * y) s

/-- R88. -/
def execSmulh (d a b : SReg) (s : State) : Host.Outcome State Fault Refusal :=
  bin64s (.smulh d a b) d a b (fun x y => mulHighS x y) s

/-- R88. -/
def execSand (d a b : SReg) (s : State) : Host.Outcome State Fault Refusal :=
  bin64s (.sand d a b) d a b (fun x y => x &&& y) s

/-- R88. -/
def execSor (d a b : SReg) (s : State) : Host.Outcome State Fault Refusal :=
  bin64s (.sor d a b) d a b (fun x y => x ||| y) s

/-- R88. -/
def execSxor (d a b : SReg) (s : State) : Host.Outcome State Fault Refusal :=
  bin64s (.sxor d a b) d a b (fun x y => x ^^^ y) s

/-- R88. -/
def execSandn (d a b : SReg) (s : State) : Host.Outcome State Fault Refusal :=
  bin64s (.sandn d a b) d a b (fun x y => x &&& ~~~y) s

/-- R88. -/
def execSshl (d a b : SReg) (s : State) : Host.Outcome State Fault Refusal :=
  bin64s (.sshl d a b) d a b (fun x y => shlBy x (amount y)) s

/-- R88. -/
def execSshr (d a b : SReg) (s : State) : Host.Outcome State Fault Refusal :=
  bin64s (.sshr d a b) d a b (fun x y => shrBy x (amount y)) s

/-- R88. -/
def execSsar (d a b : SReg) (s : State) : Host.Outcome State Fault Refusal :=
  bin64s (.ssar d a b) d a b (fun x y => sarBy x (amount y)) s

/-- R88. -/
def execSmin (d a b : SReg) (s : State) : Host.Outcome State Fault Refusal :=
  bin64s (.smin d a b) d a b (fun x y => sminBV x y) s

/-- R88. -/
def execSmax (d a b : SReg) (s : State) : Host.Outcome State Fault Refusal :=
  bin64s (.smax d a b) d a b (fun x y => smaxBV x y) s

/-- R88. -/
def execSminz (d a b : SReg) (s : State) : Host.Outcome State Fault Refusal :=
  bin64s (.sminz d a b) d a b (fun x y => uminBV x y) s

/-- R88. -/
def execSmaxz (d a b : SReg) (s : State) : Host.Outcome State Fault Refusal :=
  bin64s (.smaxz d a b) d a b (fun x y => umaxBV x y) s

/-- R88. -/
def execSmov (d a : SReg) (s : State) : Host.Outcome State Fault Refusal := scalarOp (.smov d a) d (fun r => r a) s

/-- A scalar word with a sign-extended 13-bit immediate, which a PFX may extend (R48, R89). -/
def immScalar (i : UInstr) (d a : SReg) (imm : BitVec 13) (f : DWord → DWord → DWord) (s : State) :
    Host.Outcome State Fault Refusal :=
  scalarOp i d (fun r => f (r a) (immS imm (s.bundle?.bind (·.pfx)))) s

/-- R89. -/
def execSaddi (d a : SReg) (i : BitVec 13) (s : State) : Host.Outcome State Fault Refusal :=
  immScalar (.saddi d a i) d a i (fun x y => x + y) s

/-- R89. -/
def execSandi (d a : SReg) (i : BitVec 13) (s : State) : Host.Outcome State Fault Refusal :=
  immScalar (.sandi d a i) d a i (fun x y => x &&& y) s

/-- R89. -/
def execSori (d a : SReg) (i : BitVec 13) (s : State) : Host.Outcome State Fault Refusal :=
  immScalar (.sori d a i) d a i (fun x y => x ||| y) s

/-- R89. -/
def execSshli (d a : SReg) (n : BitVec 6) (s : State) : Host.Outcome State Fault Refusal :=
  scalarOp (.sshli d a n) d (fun r => shlBy (r a) n.toNat) s

/-- R89. -/
def execSshri (d a : SReg) (n : BitVec 6) (s : State) : Host.Outcome State Fault Refusal :=
  scalarOp (.sshri d a n) d (fun r => shrBy (r a) n.toNat) s

/-- R89. -/
def execSsari (d a : SReg) (n : BitVec 6) (s : State) : Host.Outcome State Fault Refusal :=
  scalarOp (.ssari d a n) d (fun r => sarBy (r a) n.toNat) s

/-- R89. -/
def execSmovi (d : SReg) (i : BitVec 19) (s : State) : Host.Outcome State Fault Refusal :=
  scalarOp (.smovi d i) d (fun _ => immS i (s.bundle?.bind (·.pfx))) s

/-- R90: 1 when the condition of R85 holds on the 64-bit values, else 0. -/
def execScmp (c : BitVec 4) (d a b : SReg) (s : State) : Host.Outcome State Fault Refusal :=
  scalarOp (.scmp c d a b) d (fun r => if condHolds c (r a) (r b) then 1 else 0) s

/-- R91, R92: every live lane's v takes half of s; nothing happens in the lantern. DESIGN CHOICE (log 106): in a handler the lanes
are those that its join counts. -/
def execVbcast (v : VReg) (r : SReg) (i : BitVec 8) (s : State) : Host.Outcome State Fault Refusal :=
  uset (.vbcast v r i) s (fun x s =>
    match s.group? x.core x.slot with
    | some g =>
      if x.lan then s
      else
        let y := sval s x r
        let w : Word := if i = 0 then y.extractLsb' 0 32 else y.extractLsb' 32 32
        s.setGroup (g.upd x.act (fun _ l => l.pendAll 4 (w32 v w)))
    | none => s)

/-- R91, R92: the register of one lane as held, live or not; 0 in the lantern. -/
def execVread (v : VReg) (r : SReg) (i : BitVec 8) (s : State) : Host.Outcome State Fault Refusal :=
  uset (.vread v r i) s (fun x s =>
    let y : DWord := if x.lan then 0 else match s.group? x.core x.slot with
      | some g => ((g.lane i.toNat).reg v.toNat).setWidth 64
      | none => 0
    setSval s x r y)

/-- R91, R92: a rejoin mask, zero-extended; 0 in the lantern. -/
def execMread (r : SReg) (i : BitVec 8) (s : State) : Host.Outcome State Fault Refusal :=
  uset (.mread r i) s (fun x s =>
    let y : DWord := if x.lan then 0 else match s.group? x.core x.slot with
      | some g => g.m.getD i.toNat 0
      | none => 0
    setSval s x r y)

/-- R91, R92: the mask becomes s AND the live lanes, seen by each lane from its 4th instruction on (R28, R29); nothing
happens in the lantern. DESIGN CHOICE (log 106): in a handler too, the live lanes are the group's. -/
def execMwrite (r : SReg) (i : BitVec 8) (s : State) : Host.Outcome State Fault Refusal :=
  uset (.mwrite r i) s (fun x s =>
    match s.group? x.core x.slot with
    | some g =>
      if x.lan then s
      else
        let old := g.m.getD i.toNat 0
        let g1 := g.upd g.liveLanes (fun _ l => l.keepOld (.mask i.toNat) old)
        s.setGroup { g1 with m := g.m.set i.toNat (sval s x r &&& g.liveLanes) }
    | none => s)

/-- R91, R92: bit i is the predicate of live lane i; 0 in the lantern. DESIGN CHOICE (log 106): in a handler too, the live lanes
are the group's. -/
def execPread (r : SReg) (i : BitVec 8) (s : State) : Host.Outcome State Fault Refusal :=
  uset (.pread r i) s (fun x s =>
    let y : DWord := if x.lan then 0 else match s.group? x.core x.slot with
      | some g => g.where (fun _ l => l.live && l.pred i.toNat)
      | none => 0
    setSval s x r y)

/-- R91, R92: the outstanding count of a token of the group or the lantern. In a deterministic task it traps (R335). -/
def execKread (r : SReg) (i : BitVec 8) (s : State) : Host.Outcome State Fault Refusal :=
  uset (.kread r i) s (fun x s =>
    if x.t.det then trapUnit s x 0x400 5
    else setSval s x r (BitVec.ofNat 64 (((s.front? x.core x.slot).map (fun f => f.tok.getD i.toNat 0)).getD 0)))

end Sys2Proof.Machine
end

