-- ==== Sys2Proof/Machine/Dispatch.lean ====
section
/-! DEFINITION. One arm for each constructor of Instr. -/

namespace Sys2Proof.Machine

def exec (i : Instr) (s : State) : Host.Outcome State Fault Refusal :=
  match i with
  | .iadd u d a b => Sys2Proof.Machine.execIadd u d a b s
  | .isub u d a b => Sys2Proof.Machine.execIsub u d a b s
  | .imul u d a b => Sys2Proof.Machine.execImul u d a b s
  | .imulh u d a b => Sys2Proof.Machine.execImulh u d a b s
  | .imulhz u d a b => Sys2Proof.Machine.execImulhz u d a b s
  | .imin u d a b => Sys2Proof.Machine.execImin u d a b s
  | .imax u d a b => Sys2Proof.Machine.execImax u d a b s
  | .iminz u d a b => Sys2Proof.Machine.execIminz u d a b s
  | .imaxz u d a b => Sys2Proof.Machine.execImaxz u d a b s
  | .iabs u d a => Sys2Proof.Machine.execIabs u d a s
  | .and u d a b => Sys2Proof.Machine.execAnd u d a b s
  | .or u d a b => Sys2Proof.Machine.execOr u d a b s
  | .xor u d a b => Sys2Proof.Machine.execXor u d a b s
  | .andn u d a b => Sys2Proof.Machine.execAndn u d a b s
  | .shl u d a b => Sys2Proof.Machine.execShl u d a b s
  | .shr u d a b => Sys2Proof.Machine.execShr u d a b s
  | .sar u d a b => Sys2Proof.Machine.execSar u d a b s
  | .rotl u d a b => Sys2Proof.Machine.execRotl u d a b s
  | .popc u d a => Sys2Proof.Machine.execPopc u d a s
  | .clz u d a => Sys2Proof.Machine.execClz u d a s
  | .ctz u d a => Sys2Proof.Machine.execCtz u d a s
  | .brev u d a => Sys2Proof.Machine.execBrev u d a s
  | .bswap u d a => Sys2Proof.Machine.execBswap u d a s
  | .imad u d a b => Sys2Proof.Machine.execImad u d a b s
  | .bfx u d a b => Sys2Proof.Machine.execBfx u d a b s
  | .bfi u d a b => Sys2Proof.Machine.execBfi u d a b s
  | .iadd64 u d a b => Sys2Proof.Machine.execIadd64 u d a b s
  | .isub64 u d a b => Sys2Proof.Machine.execIsub64 u d a b s
  | .imulw u d a b => Sys2Proof.Machine.execImulw u d a b s
  | .mov u d a => Sys2Proof.Machine.execMov u d a s
  | .iaddi u d a im => Sys2Proof.Machine.execIaddi u d a im s
  | .andi u d a im => Sys2Proof.Machine.execAndi u d a im s
  | .ori u d a im => Sys2Proof.Machine.execOri u d a im s
  | .xori u d a im => Sys2Proof.Machine.execXori u d a im s
  | .shli u d a n => Sys2Proof.Machine.execShli u d a n s
  | .shri u d a n => Sys2Proof.Machine.execShri u d a n s
  | .sari u d a n => Sys2Proof.Machine.execSari u d a n s
  | .rotli u d a n => Sys2Proof.Machine.execRotli u d a n s
  | .movi u d im => Sys2Proof.Machine.execMovi u d im s
  | .icmp u c p a b n => Sys2Proof.Machine.execIcmp u c p a b n s
  | .fcmp u c p a b n => Sys2Proof.Machine.execFcmp u c p a b n s
  | .dcmp u c p a b n => Sys2Proof.Machine.execDcmp u c p a b n s
  | .sel u d a p => Sys2Proof.Machine.execSel u d a p s
  | .pset u a p => Sys2Proof.Machine.execPset u a p s
  | .ptest u d p => Sys2Proof.Machine.execPtest u d p s
  | .pand u p q r => Sys2Proof.Machine.execPand u p q r s
  | .por u p q r => Sys2Proof.Machine.execPor u p q r s
  | .pxor u p q r => Sys2Proof.Machine.execPxor u p q r s
  | .pandn u p q r => Sys2Proof.Machine.execPandn u p q r s
  | .pnot u p q => Sys2Proof.Machine.execPnot u p q s
  | .pmov u p q => Sys2Proof.Machine.execPmov u p q s
  | .fadd u d a b => Sys2Proof.Machine.execFadd u d a b s
  | .fsub u d a b => Sys2Proof.Machine.execFsub u d a b s
  | .fmul u d a b => Sys2Proof.Machine.execFmul u d a b s
  | .ffma u d a b => Sys2Proof.Machine.execFfma u d a b s
  | .ffms u d a b => Sys2Proof.Machine.execFfms u d a b s
  | .fmin u d a b => Sys2Proof.Machine.execFmin u d a b s
  | .fmax u d a b => Sys2Proof.Machine.execFmax u d a b s
  | .fabs u d a => Sys2Proof.Machine.execFabs u d a s
  | .fneg u d a => Sys2Proof.Machine.execFneg u d a s
  | .fcps u d a b => Sys2Proof.Machine.execFcps u d a b s
  | .frnd u d a r => Sys2Proof.Machine.execFrnd u d a r s
  | .fclass u d a => Sys2Proof.Machine.execFclass u d a s
  | .dadd u d a b => Sys2Proof.Machine.execDadd u d a b s
  | .dsub u d a b => Sys2Proof.Machine.execDsub u d a b s
  | .dmul u d a b => Sys2Proof.Machine.execDmul u d a b s
  | .dfma u d a b => Sys2Proof.Machine.execDfma u d a b s
  | .dfms u d a b => Sys2Proof.Machine.execDfms u d a b s
  | .dmin u d a b => Sys2Proof.Machine.execDmin u d a b s
  | .dmax u d a b => Sys2Proof.Machine.execDmax u d a b s
  | .dabs u d a => Sys2Proof.Machine.execDabs u d a s
  | .dneg u d a => Sys2Proof.Machine.execDneg u d a s
  | .drnd u d a r => Sys2Proof.Machine.execDrnd u d a r s
  | .dclass u d a => Sys2Proof.Machine.execDclass u d a s
  | .hadd2 u d a b => Sys2Proof.Machine.execHadd2 u d a b s
  | .hmul2 u d a b => Sys2Proof.Machine.execHmul2 u d a b s
  | .hfma2 u d a b => Sys2Proof.Machine.execHfma2 u d a b s
  | .hmin2 u d a b => Sys2Proof.Machine.execHmin2 u d a b s
  | .hmax2 u d a b => Sys2Proof.Machine.execHmax2 u d a b s
  | .badd2 u d a b => Sys2Proof.Machine.execBadd2 u d a b s
  | .bmul2 u d a b => Sys2Proof.Machine.execBmul2 u d a b s
  | .bfma2 u d a b => Sys2Proof.Machine.execBfma2 u d a b s
  | .bmin2 u d a b => Sys2Proof.Machine.execBmin2 u d a b s
  | .bmax2 u d a b => Sys2Proof.Machine.execBmax2 u d a b s
  | .frcp u d a k => Sys2Proof.Machine.execFrcp u d a k s
  | .frsq u d a k => Sys2Proof.Machine.execFrsq u d a k s
  | .fsqrt u d a k => Sys2Proof.Machine.execFsqrt u d a k s
  | .fexp2 u d a k => Sys2Proof.Machine.execFexp2 u d a k s
  | .flog2 u d a k => Sys2Proof.Machine.execFlog2 u d a k s
  | .fsinp u d a k => Sys2Proof.Machine.execFsinp u d a k s
  | .fcosp u d a k => Sys2Proof.Machine.execFcosp u d a k s
  | .drcp u d a k => Sys2Proof.Machine.execDrcp u d a k s
  | .drsq u d a k => Sys2Proof.Machine.execDrsq u d a k s
  | .dsqrt u d a k => Sys2Proof.Machine.execDsqrt u d a k s
  | .cvt u f d a r p => Sys2Proof.Machine.execCvt u f d a r p s
  | .ldlB32 d a k sc => Sys2Proof.Machine.execLdlB32 d a k sc s
  | .ldlB64 d a k sc => Sys2Proof.Machine.execLdlB64 d a k sc s
  | .stlB32 d a k sc => Sys2Proof.Machine.execStlB32 d a k sc s
  | .stlB64 d a k sc => Sys2Proof.Machine.execStlB64 d a k sc s
  | .ldsS8 u d a k sc => Sys2Proof.Machine.execLdsS8 u d a k sc s
  | .ldsZ8 u d a k sc => Sys2Proof.Machine.execLdsZ8 u d a k sc s
  | .ldsS16 u d a k sc => Sys2Proof.Machine.execLdsS16 u d a k sc s
  | .ldsZ16 u d a k sc => Sys2Proof.Machine.execLdsZ16 u d a k sc s
  | .ldsB32 u d a k sc => Sys2Proof.Machine.execLdsB32 u d a k sc s
  | .ldsB64 u d a k sc => Sys2Proof.Machine.execLdsB64 u d a k sc s
  | .ldsB128 u d a k sc => Sys2Proof.Machine.execLdsB128 u d a k sc s
  | .stsB8 d a k sc => Sys2Proof.Machine.execStsB8 d a k sc s
  | .stsB16 d a k sc => Sys2Proof.Machine.execStsB16 d a k sc s
  | .stsB32 d a k sc => Sys2Proof.Machine.execStsB32 d a k sc s
  | .stsB64 d a k sc => Sys2Proof.Machine.execStsB64 d a k sc s
  | .stsB128 d a k sc => Sys2Proof.Machine.execStsB128 d a k sc s
  | .ldcB32 u d a k sc => Sys2Proof.Machine.execLdcB32 u d a k sc s
  | .ldcB64 u d a k sc => Sys2Proof.Machine.execLdcB64 u d a k sc s
  | .ldcB128 u d a k sc => Sys2Proof.Machine.execLdcB128 u d a k sc s
  | .stcB32 d a k sc => Sys2Proof.Machine.execStcB32 d a k sc s
  | .stcB64 d a k sc => Sys2Proof.Machine.execStcB64 d a k sc s
  | .stcB128 d a k sc => Sys2Proof.Machine.execStcB128 d a k sc s
  | .ldcAcqB32 d a k sc => Sys2Proof.Machine.execLdcAcqB32 d a k sc s
  | .ldcAcqB64 d a k sc => Sys2Proof.Machine.execLdcAcqB64 d a k sc s
  | .stcRelB32 d a k sc => Sys2Proof.Machine.execStcRelB32 d a k sc s
  | .stcRelB64 d a k sc => Sys2Proof.Machine.execStcRelB64 d a k sc s
  | .prs d a k sc => Sys2Proof.Machine.execPrs d a k sc s
  | .atomsAdd d a k sc => Sys2Proof.Machine.execAtomsAdd d a k sc s
  | .atomsMin d a k sc => Sys2Proof.Machine.execAtomsMin d a k sc s
  | .atomsMax d a k sc => Sys2Proof.Machine.execAtomsMax d a k sc s
  | .atomsMinz d a k sc => Sys2Proof.Machine.execAtomsMinz d a k sc s
  | .atomsMaxz d a k sc => Sys2Proof.Machine.execAtomsMaxz d a k sc s
  | .atomsAnd d a k sc => Sys2Proof.Machine.execAtomsAnd d a k sc s
  | .atomsOr d a k sc => Sys2Proof.Machine.execAtomsOr d a k sc s
  | .atomsXor d a k sc => Sys2Proof.Machine.execAtomsXor d a k sc s
  | .atomsXchg d a k sc => Sys2Proof.Machine.execAtomsXchg d a k sc s
  | .atomsCas d a k sc => Sys2Proof.Machine.execAtomsCas d a k sc s
  | .atomsFadd d a k sc => Sys2Proof.Machine.execAtomsFadd d a k sc s
  | .atomsAdd64 d a k sc => Sys2Proof.Machine.execAtomsAdd64 d a k sc s
  | .atomcAdd d a k sc => Sys2Proof.Machine.execAtomcAdd d a k sc s
  | .atomcMin d a k sc => Sys2Proof.Machine.execAtomcMin d a k sc s
  | .atomcMax d a k sc => Sys2Proof.Machine.execAtomcMax d a k sc s
  | .atomcMinz d a k sc => Sys2Proof.Machine.execAtomcMinz d a k sc s
  | .atomcMaxz d a k sc => Sys2Proof.Machine.execAtomcMaxz d a k sc s
  | .atomcAnd d a k sc => Sys2Proof.Machine.execAtomcAnd d a k sc s
  | .atomcOr d a k sc => Sys2Proof.Machine.execAtomcOr d a k sc s
  | .atomcXor d a k sc => Sys2Proof.Machine.execAtomcXor d a k sc s
  | .atomcXchg d a k sc => Sys2Proof.Machine.execAtomcXchg d a k sc s
  | .atomcCas d a k sc => Sys2Proof.Machine.execAtomcCas d a k sc s
  | .atomcFadd d a k sc => Sys2Proof.Machine.execAtomcFadd d a k sc s
  | .atomcDadd d a k sc => Sys2Proof.Machine.execAtomcDadd d a k sc s
  | .atomcAdd64 d a k sc => Sys2Proof.Machine.execAtomcAdd64 d a k sc s
  | .atomcMaxloc d a k sc => Sys2Proof.Machine.execAtomcMaxloc d a k sc s
  | .atomcMinloc d a k sc => Sys2Proof.Machine.execAtomcMinloc d a k sc s
  | .gathB32 d a k sc => Sys2Proof.Machine.execGathB32 d a k sc s
  | .gathB64 d a k sc => Sys2Proof.Machine.execGathB64 d a k sc s
  | .scatB32 d a k => Sys2Proof.Machine.execScatB32 d a k s
  | .scatB64 d a k => Sys2Proof.Machine.execScatB64 d a k s
  | .xchPick d a m => Sys2Proof.Machine.execXchPick d a m s
  | .xchMove d a m e => Sys2Proof.Machine.execXchMove d a m e s
  | .xchFlip d a m e => Sys2Proof.Machine.execXchFlip d a m e s
  | .xchEdge d a m e => Sys2Proof.Machine.execXchEdge d a m e s
  | .qryCnt d a m => Sys2Proof.Machine.execQryCnt d a m s
  | .qryEvery d a m => Sys2Proof.Machine.execQryEvery d a m s
  | .qryBits d a m e => Sys2Proof.Machine.execQryBits d a m e s
  | .redIadd d a m => Sys2Proof.Machine.execRedIadd d a m s
  | .redImin d a m => Sys2Proof.Machine.execRedImin d a m s
  | .redImax d a m => Sys2Proof.Machine.execRedImax d a m s
  | .redFadd d a m => Sys2Proof.Machine.execRedFadd d a m s
  | .redFmin d a m => Sys2Proof.Machine.execRedFmin d a m s
  | .redFmax d a m => Sys2Proof.Machine.execRedFmax d a m s
  | .scanIadd d a m e => Sys2Proof.Machine.execScanIadd d a m e s
  | .scanFadd d a m e => Sys2Proof.Machine.execScanFadd d a m e s
  | .maxloc d a m e => Sys2Proof.Machine.execMaxloc d a m e s
  | .segredIadd d a m => Sys2Proof.Machine.execSegredIadd d a m s
  | .segredFadd d a m => Sys2Proof.Machine.execSegredFadd d a m s
  | .segscanFadd d a m => Sys2Proof.Machine.execSegscanFadd d a m s
  | .matchLanes d a m e => Sys2Proof.Machine.execMatchLanes d a m e s
  | .compact d a m e => Sys2Proof.Machine.execCompact d a m e s
  | .lsort d a m e => Sys2Proof.Machine.execLsort d a m e s
  | .bra p n k sc => Sys2Proof.Machine.execBra p n k sc s
  | .rjm m => Sys2Proof.Machine.execRjm m s
  | .rjadd m => Sys2Proof.Machine.execRjadd m s
  | .join m => Sys2Proof.Machine.execJoin m s
  | .exit => Sys2Proof.Machine.execExit s
  | .exits a n => Sys2Proof.Machine.execExits a n s
  | .regroup p n => Sys2Proof.Machine.execRegroup p n s
  | .yield => Sys2Proof.Machine.execYield s
  | .dly n => Sys2Proof.Machine.execDly n s
  | .waitk k t => Sys2Proof.Machine.execWaitk k t s
  | .guard p n => Sys2Proof.Machine.execGuard p n s
  | .bkpt => Sys2Proof.Machine.execBkpt s
  | .trap c => Sys2Proof.Machine.execTrap c s
  | .nop => Sys2Proof.Machine.execNop s
  | .kacc d a b k => Sys2Proof.Machine.execKacc d a b k s
  | .kfind d a sc k => Sys2Proof.Machine.execKfind d a sc k s
  | .rngB32 d k => Sys2Proof.Machine.execRngB32 d k s
  | .rngF32 d k => Sys2Proof.Machine.execRngF32 d k s
  | .rdspec d sc k => Sys2Proof.Machine.execRdspec d sc k s
  | .cycle d k => Sys2Proof.Machine.execCycle d k s
  | .mxgo a sc k => Sys2Proof.Machine.execMxgo a sc k s
  | .sadd d a b => Sys2Proof.Machine.execSadd d a b s
  | .ssub d a b => Sys2Proof.Machine.execSsub d a b s
  | .smul d a b => Sys2Proof.Machine.execSmul d a b s
  | .smulh d a b => Sys2Proof.Machine.execSmulh d a b s
  | .sand d a b => Sys2Proof.Machine.execSand d a b s
  | .sor d a b => Sys2Proof.Machine.execSor d a b s
  | .sxor d a b => Sys2Proof.Machine.execSxor d a b s
  | .sandn d a b => Sys2Proof.Machine.execSandn d a b s
  | .sshl d a b => Sys2Proof.Machine.execSshl d a b s
  | .sshr d a b => Sys2Proof.Machine.execSshr d a b s
  | .ssar d a b => Sys2Proof.Machine.execSsar d a b s
  | .smin d a b => Sys2Proof.Machine.execSmin d a b s
  | .smax d a b => Sys2Proof.Machine.execSmax d a b s
  | .sminz d a b => Sys2Proof.Machine.execSminz d a b s
  | .smaxz d a b => Sys2Proof.Machine.execSmaxz d a b s
  | .smov d a => Sys2Proof.Machine.execSmov d a s
  | .saddi d a im => Sys2Proof.Machine.execSaddi d a im s
  | .sandi d a im => Sys2Proof.Machine.execSandi d a im s
  | .sori d a im => Sys2Proof.Machine.execSori d a im s
  | .sshli d a n => Sys2Proof.Machine.execSshli d a n s
  | .sshri d a n => Sys2Proof.Machine.execSshri d a n s
  | .ssari d a n => Sys2Proof.Machine.execSsari d a n s
  | .smovi d im => Sys2Proof.Machine.execSmovi d im s
  | .scmp c d a b => Sys2Proof.Machine.execScmp c d a b s
  | .sbr c a sc => Sys2Proof.Machine.execSbr c a sc s
  | .jmp im => Sys2Proof.Machine.execJmp im s
  | .call im => Sys2Proof.Machine.execCall im s
  | .ret a => Sys2Proof.Machine.execRet a s
  | .pfx p => Sys2Proof.Machine.execPfx p s
  | .vbcast v sc im => Sys2Proof.Machine.execVbcast v sc im s
  | .vread v sc im => Sys2Proof.Machine.execVread v sc im s
  | .mread sc im => Sys2Proof.Machine.execMread sc im s
  | .mwrite sc im => Sys2Proof.Machine.execMwrite sc im s
  | .pread sc im => Sys2Proof.Machine.execPread sc im s
  | .kread sc im => Sys2Proof.Machine.execKread sc im s
  | .sldB32 a b k im => Sys2Proof.Machine.execSldB32 a b k im s
  | .sldB64 a b k im => Sys2Proof.Machine.execSldB64 a b k im s
  | .sstB32 a b k im => Sys2Proof.Machine.execSstB32 a b k im s
  | .sstB64 a b k im => Sys2Proof.Machine.execSstB64 a b k im s
  | .sldcB64 a b k im => Sys2Proof.Machine.execSldcB64 a b k im s
  | .sstcB64 a b k im => Sys2Proof.Machine.execSstcB64 a b k im s
  | .tld a b k n => Sys2Proof.Machine.execTld a b k n s
  | .tst a b k n => Sys2Proof.Machine.execTst a b k n s
  | .tzero k n => Sys2Proof.Machine.execTzero k n s
  | .accld a b k n => Sys2Proof.Machine.execAccld a b k n s
  | .accst a b k n => Sys2Proof.Machine.execAccst a b k n s
  | .accz k n => Sys2Proof.Machine.execAccz k n s
  | .movsh a k n => Sys2Proof.Machine.execMovsh a k n s
  | .tcvt a k n => Sys2Proof.Machine.execTcvt a k n s
  | .tspk a k n => Sys2Proof.Machine.execTspk a k n s
  | .tqld a k n => Sys2Proof.Machine.execTqld a k n s
  | .cpyIn a b k => Sys2Proof.Machine.execCpyIn a b k s
  | .cpyOut a b k => Sys2Proof.Machine.execCpyOut a b k s
  | .cpyCc a b k => Sys2Proof.Machine.execCpyCc a b k s
  | .cupop a b k o => Sys2Proof.Machine.execCupop a b k o s
  | .kcfg a b k => Sys2Proof.Machine.execKcfg a b k s
  | .kcfgStream b k => Sys2Proof.Machine.execKcfgStream b k s
  | .kdrain a b k im => Sys2Proof.Machine.execKdrain a b k im s
  | .kclr k => Sys2Proof.Machine.execKclr k s
  | .kstat a k im => Sys2Proof.Machine.execKstat a k im s
  | .post a b k im => Sys2Proof.Machine.execPost a b k im s
  | .arrive a b k => Sys2Proof.Machine.execArrive a b k s
  | .append a b k im => Sys2Proof.Machine.execAppend a b k im s
  | .seal a k => Sys2Proof.Machine.execSeal a k s
  | .waitbm a b => Sys2Proof.Machine.execWaitbm a b s
  | .tbar => Sys2Proof.Machine.execTbar s
  | .pbar => Sys2Proof.Machine.execPbar s
  | .dqpush a k => Sys2Proof.Machine.execDqpush a k s
  | .dqpop a k => Sys2Proof.Machine.execDqpop a k s
  | .getc d b => Sys2Proof.Machine.execGetc d b s
  | .setc d a => Sys2Proof.Machine.execSetc d a s
  | .eret => Sys2Proof.Machine.execEret s
  | .fence d => Sys2Proof.Machine.execFence d s
  | .synce => Sys2Proof.Machine.execSynce s
  | .issueCycle core => Sys2Proof.Machine.execIssueCycle core s
  | .pcAged core slot pc => Sys2Proof.Machine.execPcAged core slot pc s
  | .longLatencyComplete core slot op lane => Sys2Proof.Machine.execLongLatencyComplete core slot op lane s
  | .speculationResolve core slot => Sys2Proof.Machine.execSpeculationResolve core slot s
  | .joinRelease core slot m => Sys2Proof.Machine.execJoinRelease core slot m s
  | .exitsRestart core slot => Sys2Proof.Machine.execExitsRestart core slot s
  | .regroupPack team => Sys2Proof.Machine.execRegroupPack team s
  | .barrierComplete team => Sys2Proof.Machine.execBarrierComplete team s
  | .dqpopDeliver team => Sys2Proof.Machine.execDqpopDeliver team s
  | .waitbmProceed core slot => Sys2Proof.Machine.execWaitbmProceed core slot s
  | .synceProceed core slot => Sys2Proof.Machine.execSynceProceed core slot s
  | .rangeLockGrant core slot => Sys2Proof.Machine.execRangeLockGrant core slot s
  | .trapEntry core slot => Sys2Proof.Machine.execTrapEntry core slot s
  | .sqEntryLeave core slot => Sys2Proof.Machine.execSqEntryLeave core slot s
  | .outboundToMemory core n => Sys2Proof.Machine.execOutboundToMemory core n s
  | .staleCopyInstall core ctx va => Sys2Proof.Machine.execStaleCopyInstall core ctx va s
  | .staleCopyDiscard core line => Sys2Proof.Machine.execStaleCopyDiscard core line s
  | .agentStep agent n => Sys2Proof.Machine.execAgentStep agent n s
  | .cpyInstanceStart team => Sys2Proof.Machine.execCpyInstanceStart team s
  | .cpyInstanceComplete agent => Sys2Proof.Machine.execCpyInstanceComplete agent s
  | .agentComplete agent => Sys2Proof.Machine.execAgentComplete agent s
  | .tileCommandComplete team half => Sys2Proof.Machine.execTileCommandComplete team half s
  | .groupSlotFree core slot => Sys2Proof.Machine.execGroupSlotFree core slot s
  | .distributorDecision dt => Sys2Proof.Machine.execDistributorDecision dt s
  | .gangReservationRelease => Sys2Proof.Machine.execGangReservationRelease s
  | .taskBlocking slot => Sys2Proof.Machine.execTaskBlocking slot s
  | .teamWriteBackStart team => Sys2Proof.Machine.execTeamWriteBackStart team s
  | .teamRetirement team => Sys2Proof.Machine.execTeamRetirement team s
  | .preemptDeadlineExpiry n => Sys2Proof.Machine.execPreemptDeadlineExpiry n s
  | .contextSaveComplete ctx => Sys2Proof.Machine.execContextSaveComplete ctx s
  | .hostPost m => Sys2Proof.Machine.execHostPost m s
  | .hostArrive m => Sys2Proof.Machine.execHostArrive m s
  | .hostWrite m => Sys2Proof.Machine.execHostWrite m s
  | .hostWriteApply => Sys2Proof.Machine.execHostWriteApply s
  | .hostRead m => Sys2Proof.Machine.execHostRead m s
  | .hostInv m => Sys2Proof.Machine.execHostInv m s
  | .invalidationComplete => Sys2Proof.Machine.execInvalidationComplete s
  | .hostPreempt m => Sys2Proof.Machine.execHostPreempt m s
  | .hostResume m => Sys2Proof.Machine.execHostResume m s
  | .hostSave m => Sys2Proof.Machine.execHostSave m s
  | .hostRestore m => Sys2Proof.Machine.execHostRestore m s
  | .hostReset m => Sys2Proof.Machine.execHostReset m s
  | .remoteAccessRequest r => Sys2Proof.Machine.execRemoteAccessRequest r s
  | .targetCheckAnswer ctx page ans => Sys2Proof.Machine.execTargetCheckAnswer ctx page ans s
  | .fabricUnreachable fid dt => Sys2Proof.Machine.execFabricUnreachable fid dt s
  | .collectiveDataArrival d => Sys2Proof.Machine.execCollectiveDataArrival d s
  | .collectiveComplete slot => Sys2Proof.Machine.execCollectiveComplete slot s
  | .collectiveAbortReceive cid => Sys2Proof.Machine.execCollectiveAbortReceive cid s
  | .swapRead r => Sys2Proof.Machine.execSwapRead r s
  | .swapWrite group => Sys2Proof.Machine.execSwapWrite group s
  | .swapCommit group => Sys2Proof.Machine.execSwapCommit group s
  | .swapRelease group => Sys2Proof.Machine.execSwapRelease group s
  | .patrolScrubStep domain finds => Sys2Proof.Machine.execPatrolScrubStep domain finds s
  | .scrubPassEnd domain => Sys2Proof.Machine.execScrubPassEnd domain s
  | .precharge stack row activations read => Sys2Proof.Machine.execPrecharge stack row activations read s
  | .faultDetected f => Sys2Proof.Machine.execFaultDetected f s
  | .powerOn => Sys2Proof.Machine.execPowerOn s
  | .rstcWarm => Sys2Proof.Machine.execRstcWarm s
  | .rstcCold => Sys2Proof.Machine.execRstcCold s
  | .attcQuote => Sys2Proof.Machine.execAttcQuote s
  | .quoteReady => Sys2Proof.Machine.execQuoteReady s
  | .attcVerify => Sys2Proof.Machine.execAttcVerify s
  | .attcRevokeKey bits => Sys2Proof.Machine.execAttcRevokeKey bits s
  | .attcRaiseSvnmin => Sys2Proof.Machine.execAttcRaiseSvnmin s
  | .stageAdvance failCode => Sys2Proof.Machine.execStageAdvance failCode s
  | .wdogWrite v => Sys2Proof.Machine.execWdogWrite v s
  | .watchdogExpiry dt => Sys2Proof.Machine.execWatchdogExpiry dt s
  | .ptrootWrite ctx v => Sys2Proof.Machine.execPtrootWrite ctx v s
  | .dbgcWrite core slot v => Sys2Proof.Machine.execDbgcWrite core slot v s
  | .tswsRead seq => Sys2Proof.Machine.execTswsRead seq s
  | .mgmtRegisterWrite off v => Sys2Proof.Machine.execMgmtRegisterWrite off v s
  | .powerClamp => Sys2Proof.Machine.execPowerClamp s
  | .thermalClamp => Sys2Proof.Machine.execThermalClamp s
  | .thermalShutdown => Sys2Proof.Machine.execThermalShutdown s
  | .malformedMessage m => Sys2Proof.Machine.execMalformedMessage m s
  | .powerLoss landed => Sys2Proof.Machine.execPowerLoss landed s

end Sys2Proof.Machine
end

