-- ==== Sys2Proof/Machine/Run.lean ====
section
/-! DEFINITION. What a word of either set does, by the same meanings as exec's arms: the words have types of their own
(Code.lean), which a compiler can build. -/

namespace Sys2Proof.Machine

/-- The meaning of an L-set word. -/
def LInstr.run (i : LInstr) (s : State) : Host.Outcome State Fault Refusal :=
  match i with
  | .iadd u d a b => execIadd u d a b s
  | .isub u d a b => execIsub u d a b s
  | .imul u d a b => execImul u d a b s
  | .imulh u d a b => execImulh u d a b s
  | .imulhz u d a b => execImulhz u d a b s
  | .imin u d a b => execImin u d a b s
  | .imax u d a b => execImax u d a b s
  | .iminz u d a b => execIminz u d a b s
  | .imaxz u d a b => execImaxz u d a b s
  | .iabs u d a => execIabs u d a s
  | .and u d a b => execAnd u d a b s
  | .or u d a b => execOr u d a b s
  | .xor u d a b => execXor u d a b s
  | .andn u d a b => execAndn u d a b s
  | .shl u d a b => execShl u d a b s
  | .shr u d a b => execShr u d a b s
  | .sar u d a b => execSar u d a b s
  | .rotl u d a b => execRotl u d a b s
  | .popc u d a => execPopc u d a s
  | .clz u d a => execClz u d a s
  | .ctz u d a => execCtz u d a s
  | .brev u d a => execBrev u d a s
  | .bswap u d a => execBswap u d a s
  | .imad u d a b => execImad u d a b s
  | .bfx u d a b => execBfx u d a b s
  | .bfi u d a b => execBfi u d a b s
  | .iadd64 u d a b => execIadd64 u d a b s
  | .isub64 u d a b => execIsub64 u d a b s
  | .imulw u d a b => execImulw u d a b s
  | .mov u d a => execMov u d a s
  | .iaddi u d a im => execIaddi u d a im s
  | .andi u d a im => execAndi u d a im s
  | .ori u d a im => execOri u d a im s
  | .xori u d a im => execXori u d a im s
  | .shli u d a n => execShli u d a n s
  | .shri u d a n => execShri u d a n s
  | .sari u d a n => execSari u d a n s
  | .rotli u d a n => execRotli u d a n s
  | .movi u d im => execMovi u d im s
  | .icmp u c p a b n => execIcmp u c p a b n s
  | .fcmp u c p a b n => execFcmp u c p a b n s
  | .dcmp u c p a b n => execDcmp u c p a b n s
  | .sel u d a p => execSel u d a p s
  | .pset u a p => execPset u a p s
  | .ptest u d p => execPtest u d p s
  | .pand u p q r => execPand u p q r s
  | .por u p q r => execPor u p q r s
  | .pxor u p q r => execPxor u p q r s
  | .pandn u p q r => execPandn u p q r s
  | .pnot u p q => execPnot u p q s
  | .pmov u p q => execPmov u p q s
  | .fadd u d a b => execFadd u d a b s
  | .fsub u d a b => execFsub u d a b s
  | .fmul u d a b => execFmul u d a b s
  | .ffma u d a b => execFfma u d a b s
  | .ffms u d a b => execFfms u d a b s
  | .fmin u d a b => execFmin u d a b s
  | .fmax u d a b => execFmax u d a b s
  | .fabs u d a => execFabs u d a s
  | .fneg u d a => execFneg u d a s
  | .fcps u d a b => execFcps u d a b s
  | .frnd u d a r => execFrnd u d a r s
  | .fclass u d a => execFclass u d a s
  | .dadd u d a b => execDadd u d a b s
  | .dsub u d a b => execDsub u d a b s
  | .dmul u d a b => execDmul u d a b s
  | .dfma u d a b => execDfma u d a b s
  | .dfms u d a b => execDfms u d a b s
  | .dmin u d a b => execDmin u d a b s
  | .dmax u d a b => execDmax u d a b s
  | .dabs u d a => execDabs u d a s
  | .dneg u d a => execDneg u d a s
  | .drnd u d a r => execDrnd u d a r s
  | .dclass u d a => execDclass u d a s
  | .hadd2 u d a b => execHadd2 u d a b s
  | .hmul2 u d a b => execHmul2 u d a b s
  | .hfma2 u d a b => execHfma2 u d a b s
  | .hmin2 u d a b => execHmin2 u d a b s
  | .hmax2 u d a b => execHmax2 u d a b s
  | .badd2 u d a b => execBadd2 u d a b s
  | .bmul2 u d a b => execBmul2 u d a b s
  | .bfma2 u d a b => execBfma2 u d a b s
  | .bmin2 u d a b => execBmin2 u d a b s
  | .bmax2 u d a b => execBmax2 u d a b s
  | .frcp u d a k => execFrcp u d a k s
  | .frsq u d a k => execFrsq u d a k s
  | .fsqrt u d a k => execFsqrt u d a k s
  | .fexp2 u d a k => execFexp2 u d a k s
  | .flog2 u d a k => execFlog2 u d a k s
  | .fsinp u d a k => execFsinp u d a k s
  | .fcosp u d a k => execFcosp u d a k s
  | .drcp u d a k => execDrcp u d a k s
  | .drsq u d a k => execDrsq u d a k s
  | .dsqrt u d a k => execDsqrt u d a k s
  | .cvt u f d a r p => execCvt u f d a r p s
  | .ldlB32 d a k sc => execLdlB32 d a k sc s
  | .ldlB64 d a k sc => execLdlB64 d a k sc s
  | .stlB32 d a k sc => execStlB32 d a k sc s
  | .stlB64 d a k sc => execStlB64 d a k sc s
  | .ldsS8 u d a k sc => execLdsS8 u d a k sc s
  | .ldsZ8 u d a k sc => execLdsZ8 u d a k sc s
  | .ldsS16 u d a k sc => execLdsS16 u d a k sc s
  | .ldsZ16 u d a k sc => execLdsZ16 u d a k sc s
  | .ldsB32 u d a k sc => execLdsB32 u d a k sc s
  | .ldsB64 u d a k sc => execLdsB64 u d a k sc s
  | .ldsB128 u d a k sc => execLdsB128 u d a k sc s
  | .stsB8 d a k sc => execStsB8 d a k sc s
  | .stsB16 d a k sc => execStsB16 d a k sc s
  | .stsB32 d a k sc => execStsB32 d a k sc s
  | .stsB64 d a k sc => execStsB64 d a k sc s
  | .stsB128 d a k sc => execStsB128 d a k sc s
  | .ldcB32 u d a k sc => execLdcB32 u d a k sc s
  | .ldcB64 u d a k sc => execLdcB64 u d a k sc s
  | .ldcB128 u d a k sc => execLdcB128 u d a k sc s
  | .stcB32 d a k sc => execStcB32 d a k sc s
  | .stcB64 d a k sc => execStcB64 d a k sc s
  | .stcB128 d a k sc => execStcB128 d a k sc s
  | .ldcAcqB32 d a k sc => execLdcAcqB32 d a k sc s
  | .ldcAcqB64 d a k sc => execLdcAcqB64 d a k sc s
  | .stcRelB32 d a k sc => execStcRelB32 d a k sc s
  | .stcRelB64 d a k sc => execStcRelB64 d a k sc s
  | .prs d a k sc => execPrs d a k sc s
  | .atomsAdd d a k sc => execAtomsAdd d a k sc s
  | .atomsMin d a k sc => execAtomsMin d a k sc s
  | .atomsMax d a k sc => execAtomsMax d a k sc s
  | .atomsMinz d a k sc => execAtomsMinz d a k sc s
  | .atomsMaxz d a k sc => execAtomsMaxz d a k sc s
  | .atomsAnd d a k sc => execAtomsAnd d a k sc s
  | .atomsOr d a k sc => execAtomsOr d a k sc s
  | .atomsXor d a k sc => execAtomsXor d a k sc s
  | .atomsXchg d a k sc => execAtomsXchg d a k sc s
  | .atomsCas d a k sc => execAtomsCas d a k sc s
  | .atomsFadd d a k sc => execAtomsFadd d a k sc s
  | .atomsAdd64 d a k sc => execAtomsAdd64 d a k sc s
  | .atomcAdd d a k sc => execAtomcAdd d a k sc s
  | .atomcMin d a k sc => execAtomcMin d a k sc s
  | .atomcMax d a k sc => execAtomcMax d a k sc s
  | .atomcMinz d a k sc => execAtomcMinz d a k sc s
  | .atomcMaxz d a k sc => execAtomcMaxz d a k sc s
  | .atomcAnd d a k sc => execAtomcAnd d a k sc s
  | .atomcOr d a k sc => execAtomcOr d a k sc s
  | .atomcXor d a k sc => execAtomcXor d a k sc s
  | .atomcXchg d a k sc => execAtomcXchg d a k sc s
  | .atomcCas d a k sc => execAtomcCas d a k sc s
  | .atomcFadd d a k sc => execAtomcFadd d a k sc s
  | .atomcDadd d a k sc => execAtomcDadd d a k sc s
  | .atomcAdd64 d a k sc => execAtomcAdd64 d a k sc s
  | .atomcMaxloc d a k sc => execAtomcMaxloc d a k sc s
  | .atomcMinloc d a k sc => execAtomcMinloc d a k sc s
  | .gathB32 d a k sc => execGathB32 d a k sc s
  | .gathB64 d a k sc => execGathB64 d a k sc s
  | .scatB32 d a k => execScatB32 d a k s
  | .scatB64 d a k => execScatB64 d a k s
  | .xchPick d a m => execXchPick d a m s
  | .xchMove d a m e => execXchMove d a m e s
  | .xchFlip d a m e => execXchFlip d a m e s
  | .xchEdge d a m e => execXchEdge d a m e s
  | .qryCnt d a m => execQryCnt d a m s
  | .qryEvery d a m => execQryEvery d a m s
  | .qryBits d a m e => execQryBits d a m e s
  | .redIadd d a m => execRedIadd d a m s
  | .redImin d a m => execRedImin d a m s
  | .redImax d a m => execRedImax d a m s
  | .redFadd d a m => execRedFadd d a m s
  | .redFmin d a m => execRedFmin d a m s
  | .redFmax d a m => execRedFmax d a m s
  | .scanIadd d a m e => execScanIadd d a m e s
  | .scanFadd d a m e => execScanFadd d a m e s
  | .maxloc d a m e => execMaxloc d a m e s
  | .segredIadd d a m => execSegredIadd d a m s
  | .segredFadd d a m => execSegredFadd d a m s
  | .segscanFadd d a m => execSegscanFadd d a m s
  | .matchLanes d a m e => execMatchLanes d a m e s
  | .compact d a m e => execCompact d a m e s
  | .lsort d a m e => execLsort d a m e s
  | .bra p n k sc => execBra p n k sc s
  | .rjm m => execRjm m s
  | .rjadd m => execRjadd m s
  | .join m => execJoin m s
  | .exit => execExit s
  | .exits a n => execExits a n s
  | .regroup p n => execRegroup p n s
  | .yield => execYield s
  | .dly n => execDly n s
  | .waitk k t => execWaitk k t s
  | .guard p n => execGuard p n s
  | .bkpt => execBkpt s
  | .trap c => execTrap c s
  | .nop => execNop s
  | .kacc d a b k => execKacc d a b k s
  | .kfind d a sc k => execKfind d a sc k s
  | .rngB32 d k => execRngB32 d k s
  | .rngF32 d k => execRngF32 d k s
  | .rdspec d sc k => execRdspec d sc k s
  | .cycle d k => execCycle d k s
  | .mxgo a sc k => execMxgo a sc k s

/-- The meaning of a U-set word. -/
def UInstr.run (i : UInstr) (s : State) : Host.Outcome State Fault Refusal :=
  match i with
  | .sadd d a b => execSadd d a b s
  | .ssub d a b => execSsub d a b s
  | .smul d a b => execSmul d a b s
  | .smulh d a b => execSmulh d a b s
  | .sand d a b => execSand d a b s
  | .sor d a b => execSor d a b s
  | .sxor d a b => execSxor d a b s
  | .sandn d a b => execSandn d a b s
  | .sshl d a b => execSshl d a b s
  | .sshr d a b => execSshr d a b s
  | .ssar d a b => execSsar d a b s
  | .smin d a b => execSmin d a b s
  | .smax d a b => execSmax d a b s
  | .sminz d a b => execSminz d a b s
  | .smaxz d a b => execSmaxz d a b s
  | .smov d a => execSmov d a s
  | .saddi d a im => execSaddi d a im s
  | .sandi d a im => execSandi d a im s
  | .sori d a im => execSori d a im s
  | .sshli d a n => execSshli d a n s
  | .sshri d a n => execSshri d a n s
  | .ssari d a n => execSsari d a n s
  | .smovi d im => execSmovi d im s
  | .scmp c d a b => execScmp c d a b s
  | .sbr c a sc => execSbr c a sc s
  | .jmp im => execJmp im s
  | .call im => execCall im s
  | .ret a => execRet a s
  | .pfx p => execPfx p s
  | .vbcast v sc im => execVbcast v sc im s
  | .vread v sc im => execVread v sc im s
  | .mread sc im => execMread sc im s
  | .mwrite sc im => execMwrite sc im s
  | .pread sc im => execPread sc im s
  | .kread sc im => execKread sc im s
  | .sldB32 a b k im => execSldB32 a b k im s
  | .sldB64 a b k im => execSldB64 a b k im s
  | .sstB32 a b k im => execSstB32 a b k im s
  | .sstB64 a b k im => execSstB64 a b k im s
  | .sldcB64 a b k im => execSldcB64 a b k im s
  | .sstcB64 a b k im => execSstcB64 a b k im s
  | .tld a b k n => execTld a b k n s
  | .tst a b k n => execTst a b k n s
  | .tzero k n => execTzero k n s
  | .accld a b k n => execAccld a b k n s
  | .accst a b k n => execAccst a b k n s
  | .accz k n => execAccz k n s
  | .movsh a k n => execMovsh a k n s
  | .tcvt a k n => execTcvt a k n s
  | .tspk a k n => execTspk a k n s
  | .tqld a k n => execTqld a k n s
  | .cpyIn a b k => execCpyIn a b k s
  | .cpyOut a b k => execCpyOut a b k s
  | .cpyCc a b k => execCpyCc a b k s
  | .cupop a b k o => execCupop a b k o s
  | .kcfg a b k => execKcfg a b k s
  | .kcfgStream b k => execKcfgStream b k s
  | .kdrain a b k im => execKdrain a b k im s
  | .kclr k => execKclr k s
  | .kstat a k im => execKstat a k im s
  | .post a b k im => execPost a b k im s
  | .arrive a b k => execArrive a b k s
  | .append a b k im => execAppend a b k im s
  | .seal a k => execSeal a k s
  | .waitbm a b => execWaitbm a b s
  | .tbar => execTbar s
  | .pbar => execPbar s
  | .dqpush a k => execDqpush a k s
  | .dqpop a k => execDqpop a k s
  | .getc d b => execGetc d b s
  | .setc d a => execSetc d a s
  | .eret => execEret s
  | .fence d => execFence d s
  | .synce => execSynce s

/-- The meaning of a word. -/
def Code.run (c : Code) (s : State) : Host.Outcome State Fault Refusal :=
  match c with
  | .l i => LInstr.run i s
  | .u i => UInstr.run i s

end Sys2Proof.Machine
end

