-- ==== Sys2Proof/Machine/Schedule.lean ====
section
/-! DEFINITION. What a step of the machine is: the word that issues next is fetched and decoded (R9, R38, R51, R61); with
nothing issuing, one step of the device that can be taken, in rotation (log 2). -/

namespace Sys2Proof.Machine

/-- A step of the device, by its meaning. -/
abbrev Move := State → Host.Outcome State Fault Refusal

/-- The context in which a bundle's words are fetched. -/
def Bundle.ctx (b : Bundle) (s : State) : Option Nat := (s.teamOf b.core b.slot).map (·.ctx)

/-- What a front end finds at the next word of its bundle. -/
inductive Word1 where
  | gone
  | trap (vec cause : Nat)
  | illegal (w : Word) (cause : Nat)
  | instr (c : Code)
  deriving DecidableEq, Repr

/-- Fetch and decode the next word of a bundle. -/
def fetchWord (s : State) (b : Bundle) : Word1 :=
  match b.ctx s with
  | none => .gone
  | some c =>
    match fetch s c b.pos with
    | .trap v k => .trap v k
    | .word w =>
      match decodeCode w with
      | .ok c => .instr c
      | .error (.illegal k) => .illegal w k
      | .error .truncated => .gone

/-- The translation that a fetch takes is cached, its walk counted (R266, R330). -/
def touchFetch (s : State) (b : Bundle) : State :=
  match b.ctx s with
  | some c => s.touch c b.pos.toNat
  | none => s

/-! ### The rotation (log 2) -/

/-- The next phase of a swap. -/
def swapMove (w : Swap) : Move :=
  match w.phase with
  | .hold => execSwapRead { group := w.group }
  | .read => execSwapWrite w.group
  | .write => execSwapCommit w.group
  | .commit => execSwapRelease w.group

/-- An agent takes its first step that is ready, or completes. -/
def agentMove (a : Agent) : Move :=
  match (upFrom 0 a.steps.length).find? (fun n => a.stepReady n) with
  | some n => execAgentStep a.id n
  | none =>
    match a.fin with
    | .cpy _ _ => execCpyInstanceComplete a.id
    | .collective slot => execCollectiveComplete slot
    | _ => execAgentComplete a.id

/-- The steps that the front of a group or lantern may owe. -/
def frontMoves (core slot : Nat) (f : Front) (w : Waiting) (traps : Bool) : List Move :=
  (if f.sq = [] then [] else [execSqEntryLeave core slot]) ++
  (f.ops.filterMap (fun o => o.lands.head?.map (fun d => execLongLatencyComplete core slot o.id d.lane))) ++
  (if traps then [execTrapEntry core slot] else []) ++
  (match w with
    | .bitmap _ _ => [execWaitbmProceed core slot]
    | .synce => [execSynceProceed core slot]
    | .lock _ => [execRangeLockGrant core slot]
    | _ => [])

def groupMoves (g : Group) : List Move :=
  frontMoves g.core g.slot g.fe g.waiting (g.traps ≠ []) ++
  (if g.tickets g.liveLanes = [] then [] else [execRangeLockGrant g.core g.slot]) ++
  (match g.spec with
    | some r => if g.fe.count r.tok = 0 then [execSpeculationResolve g.core g.slot] else []
    | none => []) ++
  (if (g.exitsAt false).isSome then [execExitsRestart g.core g.slot] else []) ++
  (if g.retired then [execGroupSlotFree g.core g.slot] else [])

/-- Whether a group waits for a value of the decision queue. -/
def Waiting.atQueue : Waiting → Bool
  | .queue _ => true
  | _ => false

def teamMoves (s : State) (t : Team) : List Move :=
  let gs := s.groups.filter (fun g => g.team = t.id)
  (if gs.any (fun g => (waitsBarrier g.waiting).isSome) then [execBarrierComplete t.id] else []) ++
  (if t.held ≠ [] || t.lantern || gs.any (fun g => g.waiting.atQueue) then [execDqpopDeliver t.id] else []) ++
  (if t.insts = [] then [] else [execCpyInstanceStart t.id]) ++
  (if gs.any (fun g => g.regroupAt.isSome) then [execRegroupPack t.id] else []) ++
  (t.sides.filterMap (fun d => if d.queue = [] then none else some (execTileCommandComplete t.id (d.core - t.core)))) ++
  (if gs.all (·.retired) then [if t.writingBack then execTeamRetirement t.id else execTeamWriteBackStart t.id] else [])

/-- Cores on which something is resident. -/
def busyCores (s : State) : List Nat :=
  (s.groups.map (·.core) ++ s.lanterns.map (·.core)).foldl (fun l c => insertNat c l) []

/-- The steps of the device that may be taken, in a fixed order. -/
def moves (s : State) : List Move :=
  s.care.swaps.map swapMove ++
  (if s.hostq = [] then [] else [execHostWriteApply]) ++
  (match s.outb with | o :: _ => [execOutboundToMemory o.core 0] | [] => []) ++
  s.agents.map agentMove ++ s.groups.flatMap groupMoves ++
  s.lanterns.flatMap (fun l => frontMoves l.core l.slot l.fe l.waiting (l.traps ≠ [])) ++
  s.teams.flatMap (teamMoves s) ++
  (if s.invs = [] then [] else [execInvalidationComplete]) ++
  (match s.saves with | v :: _ => [execContextSaveComplete v.ctx] | [] => []) ++
  (if s.preempts = [] then [] else [execPreemptDeadlineExpiry 0]) ++
  (if s.plat.quoting then [execQuoteReady] else []) ++
  (if s.tasks = [] then [] else [execDistributorDecision 1]) ++
  (busyCores s).map (fun c => execIssueCycle c)

/-- One step of the device in rotation; with none to take, nothing happens. -/
def rotate (s : State) : Host.Outcome State Fault Refusal :=
  let ms := moves s
  match ms[s.turn % ms.length]? with
  | some m => m { s with turn := s.turn + 1 }
  | none => .next s

/-! ### A word placed where the next step fetches it (log 1) -/

/-- The tables and the code page of the placed program: virtual page 0x1_0000 lies at physical page 0x11_0000. -/
def placedTables : List (Nat × Nat) := [(0x100000, 0x101001), (0x101000, 0x102001), (0x102000, 0x103001), (0x103008, 0x11000F)]

def placedPc : Addr := 0x10000

/-- The bytes of a placed word, and zeros after it up to the longest unit. -/
def placedBytes (nbits w : Nat) : List Byte := bytesOf 4 (w % 2 ^ min nbits 32) ++ List.replicate 12 0

/-- Bytes of DRAM as a loader leaves them: written, and not poisoned. -/
def placeBytes (s : State) (loc : Nat) (bs : List Byte) : State :=
  let su := storeLoc s.care (lineOf loc)
  { s with mem := s.mem.write (storeLoc s.care loc) bs, poison := s.poison.filter (· ≠ su) }

/-- A grid record of one team with one 16-wide group and room for every register. -/
def placedRecord : List Byte :=
  bytesOf 8 0 ++ bytesOf 6 0x10000 ++ [1, 0] ++ bytesOf 4 1 ++ [128, 32, 16, 0] ++ bytesOf 2 4096 ++ bytesOf 2 24576 ++ bytesOf 2 512
    ++ bytesOf 8 0 ++ bytesOf 4 0xFFFFFFFF ++ List.replicate 86 0

def placedTask : Task := { slot := 0, ctx := 0, state := .closing, record := placedRecord, next := 1, placed := true }

def placedDesc : NextTeam := { index := 0, s10 := 1 }

/-- The resident team. -/
def placedTeam (id : Nat) : Team :=
  { id := id, slot := 0, ctx := 0, core := 0, lines := 24576, laneb := 512, vregs := 128, tiles := 32, accs := 16, kas := 4096
    sides := [startSide placedRecord 0 0] }

/-- The machine with that team resident, and its group's bundle at the placed word. -/
def placeTeamAt (s : State) (id : Nat) : State :=
  { s with
      plat := { s.plat with stage := 3, powered := true }
      ctxs := s.ctxs.set 0 { ptroot := 0x100001 }
      tasks := placedTask :: s.tasks.filter (fun t => t.slot ≠ 0)
      teams := s.teams ++ [placedTeam id]
      groups := startGroup placedRecord placedDesc false id { core := 0, bay := 0, base := 0 } 0 0 :: s.groups.filter (fun g => !(g.core = 0 && g.slot = 0))
      issue := [{ core := 0, slot := 0, lanes := 0xFFFF, unit := placedPc, pos := placedPc }] }

end Sys2Proof.Machine
end

