-- ==== Sys2Proof/Machine/Front.lean ====
section
/-! DEFINITION. What a turn of the agenda does (log 2): a step of the device, the next word of a bundle that issues, or that
word for some of its lanes (R137, R138). -/

namespace Sys2Proof.Machine

/-! ### Which bundle's word runs -/

/-- The word of a bundle's unit. -/
def Bundle.word (b : Bundle) (s : State) : Word :=
  match b.ctx s with
  | some c => (unitWord s c 4 b.unit none).1
  | none => 0

/-- Whether a word is one that enters a tile queue (R201): major 0x0E, or MXGO. -/
def entersQueue (w : Word) : Bool :=
  match rawDecode w with
  | .instr (.l (.mxgo _ _ _)) => true
  | _ => !isLset w && majorOf w = 0x0E

def popsQueue (w : Word) : Bool :=
  match rawDecode w with
  | .instr (.u (.dqpop _ _)) => true
  | _ => false

/-- The bundles before the machine that issue a word of a team. -/
def State.bundlesOf (s : State) (team : Nat) : List Bundle :=
  s.issue.filter (fun x => x.duty = .word && (s.teamOf x.core x.slot).map (·.id) = some team)

/-- Of two pops, the one of the group with the lower index. -/
def earlierPop (s : State) (x y : Bundle) : Bundle :=
  if groupIndex s y.core y.slot < groupIndex s x.core x.slot then y else x

/-- The first bundle of a core's slot. -/
def State.bundleOf (s : State) (core slot : Nat) : Option Bundle := s.issue.find? (fun b => b.core = core && b.slot = slot)

/-- The bundle that a bundle's word puts before it: of commands for one tile queue the first to issue (R201), and of DQPOPs of one
team the one of the lowest group (R36). -/
def wordFirst (s : State) (b : Bundle) : Bundle :=
  match s.teamOf b.core b.slot with
  | none => b
  | some t =>
    let w := b.word s
    if b.duty ≠ .word then b
    else if entersQueue w then ((s.bundlesOf t.id).find? (fun x => x.core = b.core && entersQueue (x.word s))).getD b
    else if popsQueue w then ((s.bundlesOf t.id).filter (fun x => popsQueue (x.word s))).foldl (earlierPop s) b
    else b

/-- The bundle that runs where one is to run: one that its word puts first, and before that the bundles of the same slot, in their
order (R138, R309). `fuel` bounds the bundles passed over. -/
def firstFrom (s : State) : Nat → Bundle → Bundle
  | 0, b => b
  | fuel + 1, b =>
    let c := wordFirst s b
    let d := (s.bundleOf c.core c.slot).getD c
    if d = b then b else firstFrom s fuel d

def runsFirst (s : State) (b : Bundle) : Bundle := firstFrom s s.issue.length b

/-! ### Lanes that have left their unit -/

/-- The lane that takes a poison report: the elected one, or the lowest live one (R217). -/
def reportLane (g : Group) (lane : Nat) : Nat := if (g.lane lane).live then lane else (lanesIn g.liveLanes).headD 0

/-- The poison reports that lanes of a set take at a unit, the oldest of each (R217). -/
def reportHits (g : Group) (set : LaneSet) : List Hit :=
  (lanesIn set).filterMap (fun i =>
    (g.poison.find? (fun r => reportLane g r.1 = i)).map (fun r => { lane := i, vec := 0x280, cause := 2, report := some r }))

/-- Whether the lanes that issue a unit only gather at its word: a U-set word, a cross-lane one, or one that joins implicitly. -/
def joinsAt (s : State) (b : Bundle) : Bool :=
  let w := b.word s
  !isLset w || majorOf w = 22 || majorOf w = 23 ||
  match s.teamOf b.core b.slot with
  | some t =>
    ((majorOf w = 26 || majorOf w = 27) && (let k := keyedOf s t b.core; k.configured && kOrd k.cfg)) ||
    (t.det && (match rawDecode w with | .instr (.l (.cvt _ _ _ _ r _)) => r = 4 | _ => false))
  | none => false

/-- Lanes with a poison report take it at the first unit that they issue (R217): they trap at it and do not perform it, as lanes that
fail one of its checks (R308). At a word that only gathers lanes they trap at once. -/
def takeReports (s : State) (b : Bundle) : State × Bundle :=
  match s.group? b.core b.slot with
  | none => (s, b)
  | some g =>
    if b.gathered || b.pos ≠ b.unit || b.hits ≠ [] then (s, b)
    else
      let hits := reportHits g b.lanes
      let b1 : Bundle := { b with lanes := b.lanes &&& ~~~(laneSet (hits.map (·.lane))) }
      if hits = [] then (s, b)
      else if joinsAt s b then
        let u := match b.ctx s with
          | some c => unitWord s c 4 b.unit none
          | none => (0, none)
        (raise s b.core b.slot { unit := b.unit, word := u.1, pfx := u.2 } hits, b1)
      else (s, { b1 with hits := hits })

/-- A bundle with the lanes that still stand at its unit: other steps may have taken some away since it was selected. -/
def Bundle.present (b : Bundle) (s : State) : Bundle :=
  match s.group? b.core b.slot with
  | some g =>
    if b.gathered then b else { b with lanes := b.lanes &&& g.where (fun _ l => l.live && l.park = .none && l.pc = b.unit) }
  | none => b

/-- Whether a bundle has nothing left to issue. -/
def Bundle.left (b : Bundle) (s : State) : Bool :=
  if b.slot < 128 then !b.gathered && b.lanes = 0 && b.op.isNone && b.hits.isEmpty && b.earlier = 0
  else match s.lantern? b.core b.slot with
    | some l => l.retired || l.park ≠ .none || l.pc ≠ b.unit
    | none => true

/-! ### Turns -/

/-- The next word of a bundle, which stands first, is fetched and has its meaning (R9, R38, R51, R61). -/
def runWord (b : Bundle) (s : State) : Host.Outcome State Fault Refusal :=
  let s1 := touchFetch s b
  match fetchWord s b with
  | .instr c => Code.run c s1
  | .illegal w c => illegalWord w c s1
  | .trap v k => .next (fetchFault b v k s1)
  | .gone => .next s.pop

/-- Whether a word accesses memory lane by lane, so that other steps may come between its lanes (R137). -/
def lanewise : Word1 → Bool
  | .instr (.l i) =>
    let w := i.encode
    17 ≤ majorOf w && majorOf w ≤ 21 && !(majorOf w = 17 && fnOf w < 4) && !i.use.u
  | _ => false

/-- The lowest `n` lanes of a set. -/
def lowestLanes (n : Nat) (set : LaneSet) : LaneSet := laneSet ((lanesIn set).take n)

/-- A bundle whose word accesses memory, cut into its lowest `n` active lanes and the rest; none where there is no such cut. -/
def Bundle.split (b : Bundle) (n : Nat) (s : State) : Option (Bundle × Bundle) :=
  match s.group? b.core b.slot with
  | some g =>
    let act := activeAt g b
    let one := lowestLanes n act
    if b.gathered || b.more || one = 0 || one = act || !lanewise (fetchWord s b) then none
    else some ({ b with lanes := one, more := true }, { b with lanes := b.lanes &&& ~~~one })
  | none => none

/-- A bundle goes on: the one that runs first stands first, with the lanes that are present, and issues its next word, cut
where a part is asked for. Lanes that have waited for an access perform it. -/
def issueWord (b0 : Bundle) (part : Option Nat) (s : State) : Host.Outcome State Fault Refusal :=
  let b1 := runsFirst s b0
  let rest := s.issue.erase b1
  if b1.duty ≠ .word then .next (runWake b1 part { s with issue := rest })
  else
    let (s1, b) := takeReports { s with issue := rest } (b1.present s)
    if b.left s1 then .next s1
    else
      match part.bind (fun n => b.split n s1) with
      | some (x, y) => runWord x { s1 with issue := x :: y :: s1.issue }
      | none => runWord b { s1 with issue := b :: s1.issue }

/-- One turn of the agenda. An instruction word is no step of the device: it issues only in a bundle. -/
def takeTurn (t : Turn) (s : State) : Host.Outcome State Fault Refusal :=
  match t with
  | .event i => if i.code.isSome then .next s else exec i s
  | .word core slot =>
    match s.bundleOf core slot with
    | some b => issueWord b none s
    | none => .next s
  | .part core slot n =>
    match s.bundleOf core slot with
    | some b => issueWord b (some n) s
    | none => .next s

end Sys2Proof.Machine
end

