-- ==== Sys2Proof/Machine/Step.lean ====
section
/-! DEFINITION. One step of the machine (R9, R38, R51, R59, R61): the turn that the agenda names; else the next word of the
bundle that stands first; else a step of the device in rotation (log 2). -/

namespace Sys2Proof.Machine

/-- One step. -/
def step (s : State) : Host.Outcome State Fault Refusal :=
  match s.agenda with
  | t :: rest => takeTurn t { s with agenda := rest }
  | [] =>
    match s.issue with
    | b :: _ => issueWord b none s
    | [] => rotate s

/-- A word where the next step fetches it, in a team that a loader has made resident (log 1). -/
def State.withFetchWord (s : State) (nbits w : Nat) : State :=
  let s1 := placedTables.foldl (fun s e => placeBytes s e.1 (bytesOf 8 e.2)) { s with care := { s.care with swaps := [] }, agenda := [] }
  { (placeTeamAt (placeBytes s1 0x110000 (placedBytes nbits w)) s.ids) with ids := s.ids + 1 }

end Sys2Proof.Machine
end

