-- ==== Sys2Proof/Safety.lean ====
section
/-! DEFINITION. The terms in which claims speak of the machine: the canonical form of its memory and lists, when an
instruction word executes normally, and what a step leaves as it was. -/

namespace Sys2Proof.Machine

/-- Memory lists no zero byte and rises strictly by location, and so do the lists of poisoned units and of absent lines:
equal contents are equal data. -/
structure State.Canonical (s : State) : Prop where
  mem    : s.mem.wf = true
  poison : s.poison.Pairwise (· < ·)
  absent : s.absent.Pairwise (· < ·)

/-! ### L-set words -/

/-- A group issues a bundle: the bundle stands first, its slot holds the group, and the group's team is resident. -/
structure Issues (s : State) (b : Bundle) (g : Group) (t : Team) : Prop where
  head  : s.bundle? = some b
  slot  : b.slot < 128
  group : s.group? b.core b.slot = some g
  team  : s.teamOf b.core b.slot = some t

/-- The group once the lanes of a bundle have passed its word: the word counts for `n` instructions in each of them, the
writes that fall due land, and they stand past it (R28). -/
def Group.issued (g : Group) (b : Bundle) (n : Nat) : Group := g.upd b.lanes (fun _ l => l.pass n (b.pos + 4))

/-- The lanes active in a word: those of the bundle that its GUARD leaves (R50). -/
def Group.activeOf (g : Group) (b : Bundle) (n : Nat) : LaneSet := activeIn (g.issued b n) b

/-- The state in which an L-set word's own effect is computed. -/
def State.issued (s : State) (b : Bundle) (g : Group) (n : Nat) : State := s.pop.setGroup (g.issued b n)

/-- The word as it issues. -/
def Issues.ix (i : LInstr) (b : Bundle) (g : Group) (t : Team) (n : Nat) : Ix :=
  { b := b, core := b.core, slot := b.slot, t := t, act := g.activeOf b n, word := i.encode
    h := (b.lanes &&& g.members true) ≠ 0, pfx := b.pfx }

/-- A bundle that issues whole: no part of its word has issued before, and none is to come (R137). -/
structure Bundle.Whole (b : Bundle) : Prop where
  op      : b.op = none
  more    : b.more = false
  hits    : b.hits = []
  earlier : b.earlier = 0
  pages   : b.pages = []

/-- An L-set word executes normally: its bundle issues whole, a lane is active in it, no cause of R55 applies, its token has room (R59), and the
checks of checked mode pass in every active lane (R32, R39). -/
structure LReady (i : LInstr) (s : State) (b : Bundle) (g : Group) (t : Team) (n : Nat := 1) : Prop extends Issues s b g t where
  whole   : b.Whole
  active  : g.activeOf b n ≠ 0
  legal   : legality t false g.fe.handler (.l i) i.encode = none
  room    : ∀ k, i.use.tok = some k → g.fe.room k = true
  waited  : underWait (g.issued b n) i.use (g.activeOf b n) = []
  uniform : notUniform (g.issued b n) i.use (g.activeOf b n) = false

/-- A part of an L-set word that accesses memory executes normally: as above, for the lanes of this part. Only the first part
counts on the word's token, and no check of an earlier part has failed (R31, R137). -/
structure LPart (i : LInstr) (s : State) (b : Bundle) (g : Group) (t : Team) : Prop extends Issues s b g t where
  active  : g.activeOf b 1 ≠ 0
  legal   : legality t false g.fe.handler (.l i) i.encode = none
  room    : b.op = none → ∀ k, i.use.tok = some k → g.fe.room k = true
  sound   : b.hits = []
  waited  : underWait (g.issued b 1) i.use (g.activeOf b 1) = []
  uniform : notUniform (g.issued b 1) i.use (g.activeOf b 1) = false

/-- The end of a unit: under SSTEP its lanes trap at their next units (R315), and otherwise nothing more happens. -/
def unitEnd (b : Bundle) (x : Ix) (s : State) : State := afterUnit s b.core b.slot x.at b.lanes

/-- The lane whose sources an active lane's result comes from: itself, or with U = 1 the lowest active lane (R39). -/
def sourceLane (u : Bool) (act : LaneSet) (j : Nat) : Nat := if u then (lanesIn act).headD 0 else j

/-- Flags that a speculated lane keeps in its shadow (R33). -/
def Lane.addFlags (l : Lane) (f : BitVec 5) : Lane := { l with spec := l.spec.map (fun sp => { sp with flags := sp.flags ||| f }) }

/-- The sticky flags after each of several lanes has raised its own (R18, R103): a speculated lane raises none here, and
none reaches a value that a pending SETC replaces (R33, R239). -/
def Group.fpcAfter (g : Group) (ls : List Nat) (out : Nat → LaneOut) : Word :=
  ls.foldl (fun w j => if (g.lane j).spec.isSome || (g.lane j).olds.any (fun o => o.reg = .fpc) then w else orFlags w (out j).flags) g.fpc

/-- A group in which each lane of a set has its results: writes `lat` of its instructions later, and flags. -/
def Group.results (g : Group) (act : LaneSet) (lat : Nat) (out : Nat → LaneOut) : Group :=
  { (g.upd act (fun j l => (l.addFlags (out j).flags).pendAll lat (out j).writes)) with fpc := g.fpcAfter (lanesIn act) out }

/-- No lane of a set raises a flag that traps (R118). -/
def Group.quiet (g : Group) (act : LaneSet) (out : Nat → LaneOut) : Prop :=
  ∀ j ∈ lanesIn act, fpcEnables (g.fpcFor (g.lane j)) &&& (out j).flags = 0

/-! ### U-set words -/

/-- The group as the lanes of a bundle arrive at the implicit join of a U-set word (R67). -/
def Group.arrived (g : Group) (b : Bundle) : Group := if b.gathered then g else parkAt g b.lanes b .uset

/-- A U-set word executes normally: in a group its implicit join is complete (R67), in the lantern at once (R35); no
cause of R55 applies, its token has room (R59), and the check of R32 passes. It says how the word issues and the state in
which its own effect is computed. -/
inductive UReady (i : UInstr) (s : State) : Ix → State → Prop where
  | group (b : Bundle) (g : Group) (t : Team) (h : Bool) (iss : Issues s b g t)
      (split : h = decide ((b.lanes &&& g.members true) ≠ 0)) (full : (g.arrived b).fullAt h = some b.unit)
      (room : ∀ k, i.use.tok = some k → g.fe.room k = true)
      (legal : legality t false h (.u i) i.encode = none)
      (waited : unitUnderWait (g.arrived b) i ((g.arrived b).members h) = false) :
      UReady i s
        { b := b, core := b.core, slot := b.slot, t := t, act := (g.arrived b).members h, word := i.encode, h := h, pfx := b.pfx }
        (s.pop.setGroup (leaveJoin (g.arrived b) ((g.arrived b).members h) (b.pos + 4)))
  | lantern (b : Bundle) (l : Lantern) (t : Team) (head : s.bundle? = some b) (slot : ¬ b.slot < 128)
      (found : s.lantern? b.core b.slot = some l) (team : s.teamOf b.core b.slot = some t)
      (room : ∀ k, i.use.tok = some k → l.fe.room k = true)
      (legal : legality t true l.fe.handler (.u i) i.encode = none) :
      UReady i s
        { b := b, core := b.core, slot := b.slot, t := t, act := 0, word := i.encode, h := l.fe.handler, lan := true, pfx := b.pfx }
        (s.pop.setLantern { l.count with pc := b.pos + 4 })

/-- The end of a U-set unit (R315); the lantern and a handler take no single step. -/
def uEnd (x : Ix) (s : State) : State := if x.lan then s else afterUnit s x.core x.slot x.at (if x.h then 0 else x.act)

/-! ### What a step leaves as it was -/

/-- Two states agree in everything but the group or lantern of one slot, the bundles that issue, the numbering of what
starts, and the front ends' rotation. -/
structure SameBut (core slot : Nat) (s t : State) : Prop where
  plat     : t.plat = s.plat
  care     : t.care = s.care
  mem      : t.mem = s.mem
  poison   : t.poison = s.poison
  absent   : t.absent = s.absent
  ctxs     : t.ctxs = s.ctxs
  tasks    : t.tasks = s.tasks
  teams    : t.teams = s.teams
  groups   : ∀ c n, ¬(c = core ∧ n = slot) → t.group? c n = s.group? c n
  lanterns : ∀ c n, ¬(c = core ∧ n = slot) → t.lantern? c n = s.lantern? c n
  outb     : t.outb = s.outb
  stale    : t.stale = s.stale
  agents   : t.agents = s.agents
  locks    : t.locks = s.locks
  journal  : t.journal = s.journal
  hostq    : t.hostq = s.hostq
  outbox   : t.outbox = s.outbox
  fabric   : t.fabric = s.fabric

end Sys2Proof.Machine
end

