-- ==== Sys2Proof/Certificates/Slice0/Obligations.lean ====
section
/-! DEFINITION. The statements about the machine, family by family, and the tables of results they refer to: each written
from the tables and formulas of the spec. -/

open Sys2Proof Sys2Proof.Machine

namespace Sys2Proof.Claims

/-! ### Integer words (R79-R87) -/

/-- The state in which each active lane has the writes of a fixed-latency word, visible to its `lat`-th instruction (R28),
computed from that lane's registers, or with U = 1 from the lowest active lane's (R39). -/
def laneWrites (i : LInstr) (s : State) (b : Bundle) (g : Group) (lat : Nat) (w : Lane → List (Dest × DWord)) : State :=
  (s.issued b g 1).setGroup ((g.issued b 1).upd (g.activeOf b 1) (fun j l =>
    l.pendAll lat (w ((g.issued b 1).lane (sourceLane i.use.u (g.activeOf b 1) j)))))

/-- The shift amount of R81. -/
def amt (y : Word) : Nat := y.toNat % 256

/-- The table of R80. -/
def arithResult : LInstr → Option (Lane → List (Dest × DWord))
  | .iadd _ d a b => some (fun l => w32 d (l.reg a.toNat + l.reg b.toNat))
  | .isub _ d a b => some (fun l => w32 d (l.reg a.toNat - l.reg b.toNat))
  | .imul _ d a b => some (fun l => w32 d (BitVec.ofNat 32 ((l.reg a.toNat).toNat * (l.reg b.toNat).toNat)))
  | .imulh _ d a b => some (fun l => w32 d (BitVec.ofInt 32 ((l.reg a.toNat).toInt * (l.reg b.toNat).toInt / 2 ^ 32)))
  | .imulhz _ d a b => some (fun l => w32 d (BitVec.ofNat 32 ((l.reg a.toNat).toNat * (l.reg b.toNat).toNat / 2 ^ 32)))
  | .imin _ d a b => some (fun l => w32 d (if (l.reg a.toNat).toInt ≤ (l.reg b.toNat).toInt then l.reg a.toNat else l.reg b.toNat))
  | .imax _ d a b => some (fun l => w32 d (if (l.reg a.toNat).toInt ≤ (l.reg b.toNat).toInt then l.reg b.toNat else l.reg a.toNat))
  | .iminz _ d a b => some (fun l => w32 d (if (l.reg a.toNat).toNat ≤ (l.reg b.toNat).toNat then l.reg a.toNat else l.reg b.toNat))
  | .imaxz _ d a b => some (fun l => w32 d (if (l.reg a.toNat).toNat ≤ (l.reg b.toNat).toNat then l.reg b.toNat else l.reg a.toNat))
  | .iabs _ d a => some (fun l => w32 d (if 0 ≤ (l.reg a.toNat).toInt then l.reg a.toNat else 0 - l.reg a.toNat))
  | .and _ d a b => some (fun l => w32 d (l.reg a.toNat &&& l.reg b.toNat))
  | .or _ d a b => some (fun l => w32 d (l.reg a.toNat ||| l.reg b.toNat))
  | .xor _ d a b => some (fun l => w32 d (l.reg a.toNat ^^^ l.reg b.toNat))
  | .andn _ d a b => some (fun l => w32 d (l.reg a.toNat &&& ~~~(l.reg b.toNat)))
  | _ => none

/-- The mask and the effective length of R82. -/
def fieldLe (y : Word) : Nat := min (y.toNat / 2 ^ 8 % 64) (32 - y.toNat % 32)
def fieldBits (y : Word) : Word := BitVec.ofNat 32 ((2 ^ fieldLe y - 1) * 2 ^ (y.toNat % 32))

/-- The table of R81 to R83. -/
def bitResult : LInstr → Option (Lane → List (Dest × DWord))
  | .shl _ d a b => some (fun l => w32 d (BitVec.ofNat 32 ((l.reg a.toNat).toNat * 2 ^ amt (l.reg b.toNat))))
  | .shr _ d a b => some (fun l => w32 d (BitVec.ofNat 32 ((l.reg a.toNat).toNat / 2 ^ amt (l.reg b.toNat))))
  | .sar _ d a b => some (fun l => w32 d (BitVec.ofInt 32 ((l.reg a.toNat).toInt / 2 ^ amt (l.reg b.toNat))))
  | .rotl _ d a b => some (fun l => w32 d ((l.reg a.toNat).rotateLeft (amt (l.reg b.toNat) % 32)))
  | .popc _ d a => some (fun l => w32 d (BitVec.ofNat 32 ((List.range 32).filter (fun k => (l.reg a.toNat).getLsbD k)).length))
  | .clz _ d a => some (fun l => w32 d (BitVec.ofNat 32 ((List.range 32).takeWhile (fun k => !(l.reg a.toNat).getLsbD (31 - k))).length))
  | .ctz _ d a => some (fun l => w32 d (BitVec.ofNat 32 ((List.range 32).takeWhile (fun k => !(l.reg a.toNat).getLsbD k)).length))
  | .brev _ d a => some (fun l => w32 d (l.reg a.toNat).reverse)
  | .bswap _ d a => some (fun l =>
      let x := (l.reg a.toNat).toNat
      w32 d (BitVec.ofNat 32 (x % 2 ^ 8 * 2 ^ 24 + x / 2 ^ 8 % 2 ^ 8 * 2 ^ 16 + x / 2 ^ 16 % 2 ^ 8 * 2 ^ 8 + x / 2 ^ 24)))
  | .imad _ d a b => some (fun l => w32 d (l.reg d.toNat + l.reg a.toNat * l.reg b.toNat))
  | .bfx _ d a b => some (fun l =>
      let y := l.reg b.toNat
      let f := (l.reg a.toNat &&& fieldBits y) >>> (y.toNat % 32)
      w32 d (if y.getLsbD 16 ∧ 0 < fieldLe y ∧ f.getLsbD (fieldLe y - 1) then f ||| ~~~(BitVec.ofNat 32 (2 ^ fieldLe y - 1)) else f))
  | .bfi _ d a b => some (fun l =>
      let y := l.reg b.toNat
      w32 d ((l.reg d.toNat &&& ~~~(fieldBits y)) ||| ((l.reg a.toNat <<< (y.toNat % 32)) &&& fieldBits y)))
  | .iadd64 _ d a b => some (fun l => w64 d (l.pair a.toNat + l.pair b.toNat))
  | .isub64 _ d a b => some (fun l => w64 d (l.pair a.toNat - l.pair b.toNat))
  | .imulw _ d a b => some (fun l => w64 d (BitVec.ofInt 64 ((l.reg a.toNat).toInt * (l.reg b.toNat).toInt)))
  | .mov _ d a => some (fun l => w32 d (l.reg a.toNat))
  | _ => none

/-- The immediate of R48: sign-extended, with a PFX payload above it where one precedes the word. -/
def imm32 {n : Nat} (f : BitVec n) : Option (BitVec 25) → Word
  | none => f.signExtend 32
  | some p => (p ++ f).signExtend 32

/-- The table of R84. -/
def immResult (pfx : Option (BitVec 25)) : LInstr → Option (Lane → List (Dest × DWord))
  | .iaddi _ d a i => some (fun l => w32 d (l.reg a.toNat + imm32 i pfx))
  | .andi _ d a i => some (fun l => w32 d (l.reg a.toNat &&& imm32 i pfx))
  | .ori _ d a i => some (fun l => w32 d (l.reg a.toNat ||| imm32 i pfx))
  | .xori _ d a i => some (fun l => w32 d (l.reg a.toNat ^^^ imm32 i pfx))
  | .shli _ d a n => some (fun l => w32 d (BitVec.ofNat 32 ((l.reg a.toNat).toNat * 2 ^ n.toNat)))
  | .shri _ d a n => some (fun l => w32 d (BitVec.ofNat 32 ((l.reg a.toNat).toNat / 2 ^ n.toNat)))
  | .sari _ d a n => some (fun l => w32 d (BitVec.ofInt 32 ((l.reg a.toNat).toInt / 2 ^ n.toNat)))
  | .rotli _ d a n => some (fun l => w32 d ((l.reg a.toNat).rotateLeft n.toNat))
  | .movi _ d i => some (fun _ => w32 d (imm32 i pfx))
  | _ => none

/-- The conditions of R85, which no code of 10 or more has. -/
def holds {n : Nat} (c : BitVec 4) (x y : BitVec n) : Bool :=
  match c.toNat with
  | 0 => x = y
  | 1 => x ≠ y
  | 2 => x.toInt < y.toInt
  | 3 => x.toInt ≤ y.toInt
  | 4 => y.toInt < x.toInt
  | 5 => y.toInt ≤ x.toInt
  | 6 => x.toNat < y.toNat
  | 7 => x.toNat ≤ y.toNat
  | 8 => y.toNat < x.toNat
  | 9 => y.toNat ≤ x.toNat
  | _ => false

/-- The tables of R85 to R87. -/
def predResult : LInstr → Option (Lane → List (Dest × DWord))
  | .icmp _ c p a b n => some (fun l =>
      wp p (if n = 1 then l.pred p.toNat && holds c (l.reg a.toNat) (l.reg b.toNat) else holds c (l.reg a.toNat) (l.reg b.toNat)))
  | .sel u d a p => some (fun l => if l.pred p.toNat then w32 d (l.reg a.toNat) else if u then w32 d (l.reg d.toNat) else [])
  | .pset _ a p => some (fun l => wp p (decide (l.reg a.toNat ≠ 0)))
  | .ptest _ d p => some (fun l => w32 d (if l.pred p.toNat then 1 else 0))
  | .pand _ p q r => some (fun l => wp p (l.pred q.toNat && l.pred r.toNat))
  | .por _ p q r => some (fun l => wp p (l.pred q.toNat || l.pred r.toNat))
  | .pxor _ p q r => some (fun l => wp p (l.pred q.toNat ^^ l.pred r.toNat))
  | .pandn _ p q r => some (fun l => wp p (l.pred q.toNat && !l.pred r.toNat))
  | .pnot _ p q => some (fun l => wp p (!l.pred q.toNat))
  | .pmov _ p q => some (fun l => wp p (l.pred q.toNat))
  | _ => none

end Sys2Proof.Claims

open Sys2Proof.Claims

/-- R80: IADD to ANDN of major 0x00 give every active lane's vd the value of the table, visible to its 4th instruction. -/
def Sys2Proof.Claims.ArithmeticWords : Prop :=
  ∀ (i : LInstr) (w : Lane → List (Dest × DWord)), arithResult i = some w →
  ∀ (s : State) (b : Bundle) (g : Group) (t : Team), LReady i s b g t →
    exec (Code.l i).instr s = .next (unitEnd b (Issues.ix i b g t 1) (laneWrites i s b g 4 w))

/-- R81, R82, R83: the shifts, counts, field and 64-bit words of major 0x01. -/
def Sys2Proof.Claims.ShiftAndFieldWords : Prop :=
  ∀ (i : LInstr) (w : Lane → List (Dest × DWord)), bitResult i = some w →
  ∀ (s : State) (b : Bundle) (g : Group) (t : Team), LReady i s b g t →
    exec (Code.l i).instr s = .next (unitEnd b (Issues.ix i b g t 1) (laneWrites i s b g 4 w))

/-- R84, R48: the immediate words, with and without a PFX. -/
def Sys2Proof.Claims.ImmediateWords : Prop :=
  ∀ (i : LInstr) (s : State) (b : Bundle) (g : Group) (t : Team) (w : Lane → List (Dest × DWord)), immResult b.pfx i = some w →
    LReady i s b g t →
    exec (Code.l i).instr s = .next (unitEnd b (Issues.ix i b g t 1) (laneWrites i s b g 4 w))

/-- R85, R90: the words of ICMP (bit 30 is R39's U) and of SCMP; condition codes 10 to 15 are illegal. -/
def Sys2Proof.Claims.ConditionCodes : Prop :=
  (∀ (c : BitVec 4) (p : PReg) (a b : VReg) (n : BitVec 1),
    let w : Word := 0x10000000 ||| c.setWidth 32 <<< 21 ||| p.setWidth 32 <<< 15 ||| a.setWidth 32 <<< 8 ||| b.setWidth 32 <<< 1 ||| n.setWidth 32
    (∀ u : Bool, encode (Code.l (.icmp u c p a b n)).instr = some (w ||| (if u then 0x40000000 else 0))) ∧
    (10 ≤ c.toNat → decodeWord w = .error (.illegal 2))) ∧
  encode (Code.l (.icmp false 2 3 5 6 1)).instr = some 0x1041850D ∧
  (∀ (c : BitVec 4) (d a b : SReg),
    let w : Word := 0x8C000000 ||| c.setWidth 32 <<< 21 ||| d.setWidth 32 <<< 15 ||| a.setWidth 32 <<< 9 ||| b.setWidth 32 <<< 3
    encode (Code.u (.scmp c d a b)).instr = some w ∧ (10 ≤ c.toNat → decodeWord w = .error (.illegal 2)))

/-- R85, R86, R87: compares, SEL, PSET, PTEST and the predicate words. SEL keeps vd where p fails, and with U = 1 its one
result is then the lowest active lane's vd (R39). -/
def Sys2Proof.Claims.PredicateWords : Prop :=
  ∀ (i : LInstr) (w : Lane → List (Dest × DWord)), predResult i = some w →
  ∀ (s : State) (b : Bundle) (g : Group) (t : Team), LReady i s b g t →
    exec (Code.l i).instr s = .next (unitEnd b (Issues.ix i b g t 1) (laneWrites i s b g 4 w))

namespace Sys2Proof.Claims

/-! ### Floating-point words (R118-R124) -/

/-- The formats' tables of R120 to R124: latency, and a lane's result with its flags. F32 arithmetic takes 4 instructions
and F64 takes 8; the mode is FPC.RM as the lane sees it. -/
def floatResult : LInstr → Option (Nat × (Group → Lane → LaneOut))
  | .fcmp _ c p a b n => some (4, fun _ l =>
      let r := fcmpHolds fp32 c (l.reg a.toNat).toNat (l.reg b.toNat).toNat
      { writes := wp p (if n = 1 then l.pred p.toNat && r.1 else r.1), flags := r.2 })
  | .dcmp _ c p a b n => some (8, fun _ l =>
      let r := fcmpHolds fp64 c (l.pair a.toNat).toNat (l.pair b.toNat).toNat
      { writes := wp p (if n = 1 then l.pred p.toNat && r.1 else r.1), flags := r.2 })
  | .fadd _ d a b => some (4, fun g l => out32 d (fAdd fp32 (g.rnd l) (l.reg a.toNat).toNat (l.reg b.toNat).toNat))
  | .fsub _ d a b => some (4, fun g l => out32 d (fSub fp32 (g.rnd l) (l.reg a.toNat).toNat (l.reg b.toNat).toNat))
  | .fmul _ d a b => some (4, fun g l => out32 d (fMul fp32 (g.rnd l) (l.reg a.toNat).toNat (l.reg b.toNat).toNat))
  | .ffma _ d a b => some (4, fun g l =>
      out32 d (fFma fp32 (g.rnd l) (l.reg a.toNat).toNat (l.reg b.toNat).toNat (l.reg d.toNat).toNat))
  | .ffms _ d a b => some (4, fun g l =>
      out32 d (fFms fp32 (g.rnd l) (l.reg a.toNat).toNat (l.reg b.toNat).toNat (l.reg d.toNat).toNat))
  | .fmin _ d a b => some (4, fun _ l => out32 d (fMinMax fp32 false (l.reg a.toNat).toNat (l.reg b.toNat).toNat))
  | .fmax _ d a b => some (4, fun _ l => out32 d (fMinMax fp32 true (l.reg a.toNat).toNat (l.reg b.toNat).toNat))
  | .fabs _ d a => some (4, fun _ l => out32 d (fAbs fp32 (l.reg a.toNat).toNat))
  | .fneg _ d a => some (4, fun _ l => out32 d (fNeg fp32 (l.reg a.toNat).toNat))
  | .fcps _ d a b => some (4, fun _ l => out32 d (fCps fp32 (l.reg a.toNat).toNat (l.reg b.toNat).toNat))
  | .frnd _ d a r => some (4, fun g l => out32 d (fRound fp32 (rndField r (fpcRm (g.fpcFor l))) (l.reg a.toNat).toNat))
  | .fclass _ d a => some (4, fun _ l => { writes := w32 d (BitVec.ofNat 32 (fClass fp32 (l.reg a.toNat).toNat)) })
  | .dadd _ d a b => some (8, fun g l => out64 d (fAdd fp64 (g.rnd l) (l.pair a.toNat).toNat (l.pair b.toNat).toNat))
  | .dsub _ d a b => some (8, fun g l => out64 d (fSub fp64 (g.rnd l) (l.pair a.toNat).toNat (l.pair b.toNat).toNat))
  | .dmul _ d a b => some (8, fun g l => out64 d (fMul fp64 (g.rnd l) (l.pair a.toNat).toNat (l.pair b.toNat).toNat))
  | .dfma _ d a b => some (8, fun g l =>
      out64 d (fFma fp64 (g.rnd l) (l.pair a.toNat).toNat (l.pair b.toNat).toNat (l.pair d.toNat).toNat))
  | .dfms _ d a b => some (8, fun g l =>
      out64 d (fFms fp64 (g.rnd l) (l.pair a.toNat).toNat (l.pair b.toNat).toNat (l.pair d.toNat).toNat))
  | .dmin _ d a b => some (8, fun _ l => out64 d (fMinMax fp64 false (l.pair a.toNat).toNat (l.pair b.toNat).toNat))
  | .dmax _ d a b => some (8, fun _ l => out64 d (fMinMax fp64 true (l.pair a.toNat).toNat (l.pair b.toNat).toNat))
  | .dabs _ d a => some (8, fun _ l => out64 d (fAbs fp64 (l.pair a.toNat).toNat))
  | .dneg _ d a => some (8, fun _ l => out64 d (fNeg fp64 (l.pair a.toNat).toNat))
  | .drnd _ d a r => some (8, fun g l => out64 d (fRound fp64 (rndField r (fpcRm (g.fpcFor l))) (l.pair a.toNat).toNat))
  | .dclass _ d a => some (8, fun _ l => { writes := w64 d (BitVec.ofNat 64 (fClass fp64 (l.pair a.toNat).toNat)) })
  | .hadd2 _ d a b => some (4, fun g l => packed2 (fun x y _ => fAdd fp16 (g.rnd l) x y) d a b l)
  | .hmul2 _ d a b => some (4, fun g l => packed2 (fun x y _ => fMul fp16 (g.rnd l) x y) d a b l)
  | .hfma2 _ d a b => some (4, fun g l => packed2 (fun x y z => fFma fp16 (g.rnd l) x y z) d a b l)
  | .hmin2 _ d a b => some (4, fun _ l => packed2 (fun x y _ => fMinMax fp16 false x y) d a b l)
  | .hmax2 _ d a b => some (4, fun _ l => packed2 (fun x y _ => fMinMax fp16 true x y) d a b l)
  | .badd2 _ d a b => some (4, fun g l => packed2 (fun x y _ => fAdd bf16 (g.rnd l) x y) d a b l)
  | .bmul2 _ d a b => some (4, fun g l => packed2 (fun x y _ => fMul bf16 (g.rnd l) x y) d a b l)
  | .bfma2 _ d a b => some (4, fun g l => packed2 (fun x y z => fFma bf16 (g.rnd l) x y z) d a b l)
  | .bmin2 _ d a b => some (4, fun _ l => packed2 (fun x y _ => fMinMax bf16 false x y) d a b l)
  | .bmax2 _ d a b => some (4, fun _ l => packed2 (fun x y _ => fMinMax bf16 true x y) d a b l)
  | _ => none

/-- The results of an L-set word's active lanes, each from its own registers or with U = 1 from the lowest's (R39). -/
def laneOuts (i : LInstr) (b : Bundle) (g : Group) (f : Group → Lane → LaneOut) (j : Nat) : LaneOut :=
  f (g.issued b 1) ((g.issued b 1).lane (sourceLane i.use.u (g.activeOf b 1) j))

/-- Some lane that has no earlier trap raises flags that FPC enables: which (R118). -/
def trapping (g : Group) (act : LaneSet) (out : Nat → LaneOut) : List Hit :=
  (lanesIn act).filterMap (fun j =>
    let en := fpcEnables (g.fpcFor (g.lane j)) &&& (out j).flags
    if en = 0 then none else some { lane := j, vec := 0x200, cause := en.toNat })

/-! ### Special functions and random numbers -/

/-- The table of R125. -/
def specialResult : LInstr → Option (Tok × (Lane → LaneOut))
  | .frcp _ d a k => some (k, fun l => out32 d (fRcp fp32 (l.reg a.toNat).toNat))
  | .frsq _ d a k => some (k, fun l => out32 d (fRsq fp32 (l.reg a.toNat).toNat))
  | .fsqrt _ d a k => some (k, fun l => out32 d (fSqrt fp32 (l.reg a.toNat).toNat))
  | .fexp2 _ d a k => some (k, fun l => out32 d (fExp2 (l.reg a.toNat).toNat))
  | .flog2 _ d a k => some (k, fun l => out32 d (fLog2 (l.reg a.toNat).toNat))
  | .fsinp _ d a k => some (k, fun l => out32 d (fSinp (l.reg a.toNat).toNat))
  | .fcosp _ d a k => some (k, fun l => out32 d (fCosp (l.reg a.toNat).toNat))
  | .drcp _ d a k => some (k, fun l => out64 d (fRcp fp64 (l.pair a.toNat).toNat))
  | .drsq _ d a k => some (k, fun l => out64 d (fRsq fp64 (l.pair a.toNat).toNat))
  | .dsqrt _ d a k => some (k, fun l => out64 d (fSqrt fp64 (l.pair a.toNat).toNat))
  | _ => none

/-- What a CVT computes (R128-R130): the lanes' results `out`, none of which raises an enabled flag, and the group `gd` once a
dithered one has advanced the phase that it takes (R110). -/
structure Converts (u : Bool) (f : BitVec 4) (d a : VReg) (r : BitVec 3) (p : BitVec 4) (b : Bundle) (g gd : Group)
    (out : Nat → LaneOut) : Prop where
  after : gd = (if r = 4 then advancePhase (g.issued b 1) (g.activeOf b 1) 1 else g.issued b 1)
  lanes : ∀ j, out j =
    let k := sourceLane u (g.activeOf b 1) j
    let l := (g.issued b 1).lane k
    cvtOut f d a (cvtRnd r (fpcRm ((g.issued b 1).fpcFor l)) (ditherT k ((g.issued b 1).phase (g.activeOf b 1)))) p l
  quiet : gd.quiet (g.activeOf b 1) out

/-- A long-latency operation of the lanes of a bundle whose results raise no flag: its token counts it, and each lane's
writes are on their way (R31, R33). -/
def inFlight (x : Ix) (g : Group) (k : Tok) (n : Nat) (ls : List Nat) (w : Nat → List (Dest × DWord)) : LongOp :=
  { id := n, tok := k, inH := x.h, lanes := laneSet ls
    lands := ls.map (fun j => { lane := j, writes := w j, spec := (g.lane j).specUnit, unit := x.b.unit, word := x.word })
    spec := ls.any (fun j => decide ((g.lane j).specUnit ≠ 0)) }

/-- The resolutions of a group once an operation issues: where lanes of it are speculated, its token's count is part of what
they started, once for the operation (R33). -/
def countedIn (g : Group) (op : LongOp) : Option SpecRec :=
  if op.spec && !(g.fe.ops.any (fun o => o.id = op.id && o.spec)) then g.spec.map (fun r => { r with incs := bump op.tok r.incs }) else g.spec

/-- The numbers of R132 that a lane draws: the function of R132 of SEED, the lane's generator and its counter. -/
def drawOf (s : State) (t : Team) (l : Lane) : DWord :=
  mix (mix (seedOf s t ^^^ mix l.rng) + l.draws * 0x9E3779B97F4A7C15)

end Sys2Proof.Claims

open Sys2Proof.Claims

/-- R118, R120-R124: the fixed-latency floating-point words give every active lane the table's result and its flags, when
no flag raised is enabled. -/
def Obligations.FloatWords : Prop :=
  ∀ (i : LInstr) (lat : Nat) (f : Group → Lane → LaneOut), floatResult i = some (lat, f) →
  ∀ (s : State) (b : Bundle) (g : Group) (t : Team), LReady i s b g t →
    (g.issued b 1).quiet (g.activeOf b 1) (laneOuts i b g f) →
    exec (Code.l i).instr s = .next (unitEnd b (Issues.ix i b g t 1)
      ((s.issued b g 1).setGroup ((g.issued b 1).results (g.activeOf b 1) lat (laneOuts i b g f))))

/-- R18, R118: a lane whose operation raises an enabled flag writes no result and traps at 0x200, with the flags that trap
as its cause; its sticky flags are set, and the other lanes complete. That with U = 1 every active lane traps is the model's
choice (log 100). -/
def Obligations.EnabledFlagsTrap : Prop :=
  ∀ (i : LInstr) (lat : Nat) (f : Group → Lane → LaneOut), floatResult i = some (lat, f) →
  ∀ (s : State) (b : Bundle) (g : Group) (t : Team), LReady i s b g t →
    exec (Code.l i).instr s = .next (unitEnd b (Issues.ix i b g t 1) (raise
      ((s.issued b g 1).setGroup ((g.issued b 1).results (g.activeOf b 1) lat (fun j =>
        if fpcEnables ((g.issued b 1).fpcFor ((g.issued b 1).lane j)) &&& (laneOuts i b g f j).flags = 0 then laneOuts i b g f j
        else { writes := [], flags := (laneOuts i b g f j).flags })))
      b.core b.slot (Issues.ix i b g t 1).at (trapping (g.issued b 1) (g.activeOf b 1) (laneOuts i b g f))))

/-- R97, R118: whatever its operands, a result of F32 or F64 arithmetic that is a NaN is the canonical NaN. -/
def Obligations.ArithmeticNansAreCanonical : Prop :=
  ∀ (f : Fmt), f = fp32 ∨ f = fp64 → ∀ (r : Rnd) (x y z v : Nat),
    v = (fAdd f r x y).1 ∨ v = (fSub f r x y).1 ∨ v = (fMul f r x y).1 ∨ v = (fFma f r x y z).1 ∨ v = (fFms f r x y z).1 →
    isNan (decodeF f v) = true → v = qnan f

/-- R53, R128-R130, R110: CVT, 8 instructions later; a dithered one takes the phase of its lowest active lane and advances
it by one. -/
def Sys2Proof.Claims.ConversionWord : Prop :=
  ∀ (u : Bool) (f : BitVec 4) (d a : VReg) (r : BitVec 3) (p : BitVec 4) (s : State) (b : Bundle) (g gd : Group) (t : Team)
    (out : Nat → LaneOut),
    LReady (.cvt u f d a r p) s b g t → ¬(r = 4 ∧ t.det = true) → Converts u f d a r p b g gd out →
    exec (Code.l (.cvt u f d a r p)).instr s = .next (unitEnd b (Issues.ix (.cvt u f d a r p) b g t 1)
      ((s.issued b g 1).setGroup (gd.results (g.activeOf b 1) 8 out)))

/-- R67, R336: in a deterministic task a dithered CVT is an implicit full join: its lanes park until every live lane stands at it,
and then it issues once, settled, over those that its GUARD leaves. -/
def Sys2Proof.Claims.DitheredConversionJoins : Prop :=
  ∀ (u : Bool) (f : BitVec 4) (d a : VReg) (p : BitVec 4) (s s2 : State) (b b2 : Bundle) (g g1 g2 gd : Group) (t : Team) (h : Bool)
    (out : Nat → LaneOut),
    let i : LInstr := .cvt u f d a 4 p
    Issues s b g t → t.det = true → legality t false g.fe.handler (.l i) i.encode = none →
    h = decide ((b.lanes &&& g.members true) ≠ 0) → g1 = g.arrived b →
    (g1.fullAt h ≠ some b.unit → exec (Code.l i).instr s = .next (settleJoins (s.pop.setGroup g1) b.core b.slot)) ∧
    (g1.fullAt h = some b.unit → g2 = leaveJoin g1 (g1.members h) b.unit → b2 = { b with lanes := g1.members h } →
      s2 = { s.setGroup g2 with issue := b2 :: s.issue.drop 1 } → LReady i s2 b2 g2 t → Converts u f d a 4 p b2 g2 gd out →
      exec (Code.l i).instr s = .next (unitEnd b2 (Issues.ix i b2 g2 t 1)
        ((s2.issued b2 g2 1).setGroup (gd.results (g2.activeOf b2 1) 8 out))))

/-- R125, R126: the special functions issue on their token, each active lane with its own result, or with U = 1 the lowest
one's. -/
def Sys2Proof.Claims.SpecialFunctionWords : Prop :=
  ∀ (i : LInstr) (k : Tok) (f : Lane → LaneOut), specialResult i = some (k, f) →
  ∀ (s : State) (b : Bundle) (g : Group) (t : Team), LReady i s b g t →
    exec (Code.l i).instr s = .next (unitEnd b (Issues.ix i b g t 1) (launch (Issues.ix i b g t 1) k
      ((lanesIn (g.activeOf b 1)).map (fun j => (j, f ((g.issued b 1).lane (sourceLane i.use.u (g.activeOf b 1) j)))))
      (s.issued b g 1)))

/-- R31, R33: a long-latency word whose results raise no flag counts on its token, and its writes are on their way; it
leaves every register of its lanes as it was. -/
def Sys2Proof.Claims.LongLatencyIssue : Prop :=
  ∀ (x : Ix) (k : Tok) (ls : List Nat) (w : Nat → List (Dest × DWord)) (s : State) (g : Group),
    x.slot < 128 → s.group? x.core x.slot = some g → (∀ j ∈ ls, j < 64) → x.b.Whole →
    let op := inFlight x g k s.ids ls w
    launch x k (ls.map (fun j => (j, { writes := w j }))) s =
      (s.setGroup { g with fe := (g.fe.start op).finish op.id, spec := countedIn g op }).fresh

/-- R132-R134, R243: RNG gives each active lane its next number and advances that lane's counter; CYCLE and RDSPEC give
what they read at issue. The last two trap in a deterministic task (R335) and are not meant there. -/
def Sys2Proof.Claims.RandomAndCountWords : Prop :=
  ∀ (s : State) (b : Bundle) (g : Group) (t : Team) (d : VReg) (k : Tok),
    (∀ (i : LInstr) (v : DWord → Word),
      (i = .rngB32 d k ∧ v = fun w => w.extractLsb' 32 32) ∨
      (i = .rngF32 d k ∧ v = fun w => BitVec.ofNat 32 (if w.toNat / 2 ^ 40 = 0 then 0 else (roundF fp32 .rne false (w.toNat / 2 ^ 40) (-24)).1)) →
      LReady i s b g t →
      exec (Code.l i).instr s = .next (unitEnd b (Issues.ix i b g t 1) (launch (Issues.ix i b g t 1) k
        ((lanesIn (g.activeOf b 1)).map (fun j => (j, { writes := w32 d (v (drawOf s t ((g.issued b 1).lane j))) })))
        ((s.issued b g 1).setGroup ((g.issued b 1).upd (g.activeOf b 1) (fun _ l => { l with draws := l.draws + 1 })))))) ∧
    (LReady (.cycle d k) s b g t → t.det = false →
      exec (Code.l (.cycle d k)).instr s = .next (unitEnd b (Issues.ix (.cycle d k) b g t 1) (launch (Issues.ix (.cycle d k) b g t 1) k
        ((lanesIn (g.activeOf b 1)).map (fun j =>
          (j, { writes := w32 d ((((s.cores.find? (fun (c : CoreState) => c.core = b.core)).map (fun (c : CoreState) => c.cycles)).getD 0).setWidth 32) })))
        (s.issued b g 1)))) ∧
    (∀ sel : BitVec 7, LReady (.rdspec d sel k) s b g t → t.det = false →
      exec (Code.l (.rdspec d sel k)).instr s = .next (unitEnd b (Issues.ix (.rdspec d sel k) b g t 1)
        (launch (Issues.ix (.rdspec d sel k) b g t 1) k
        ((lanesIn (g.activeOf b 1)).map (fun j =>
          let l := (g.issued b 1).lane j
          (j, { writes := w32 d ((if sel = 0 then l.sees .specm (g.specm.setWidth 64) else l.sees .specr (g.specr.setWidth 64)).setWidth 32) })))
        (s.issued b g 1))))

namespace Sys2Proof.Claims

/-! ### Memory words (R155-R169, R225-R227) -/

/-- An access of `w` bytes at an offset passes the checks of R156 in their order, and reaches a location on a page whose TSO
attribute is `tso`: alignment, bounds (R158, R160, R162), translation, range locks, poison, presence. -/
def Passes (s : State) (t : Team) (core : Nat) (sq : List Entry) (k : Access) (w off loc : Nat) (tso : Bool) : Space → Prop
  | .slice => off % w = 0 ∧ off + w ≤ t.laneb ∧ loc = off ∧ tso = false
  | .scratch => off % w = 0 ∧ scratchAt t core off w = some loc ∧ lockScratch s t.id loc w (k = .load) ≠ .trap ∧
      readBad s core sq loc w k = false ∧ (k = .load → s.lineAbsent loc = false) ∧ tso = false
  | .cupola => (k = .atomic → t.det = false) ∧ off % w = 0 ∧ off + w ≤ Config.windowBytes ∧
      (∃ p, windowPage s t.ctx off (needOf k) = .ok p ∧ p.loc = loc ∧ p.t = tso) ∧
      lockVirtual s t.ctx (Config.windowBase + off) w (k = .load) ≠ .trap ∧ readBad s core sq loc w k = false

/-- A per-lane access word: space, width, sign extension, registers, token, displacement, and whether it acquires or
releases. -/
structure MemForm where
  sp  : Space
  w   : Nat
  sign : Bool := false
  d   : VReg
  a   : VReg
  k   : Tok
  sc  : BitVec 3
  ord : Bool := false

/-- The loads of R158, R159 and R162. -/
def loadForm : LInstr → Option MemForm
  | .ldlB32 d a k sc => some { sp := .slice, w := 4, d := d, a := a, k := k, sc := sc }
  | .ldlB64 d a k sc => some { sp := .slice, w := 8, d := d, a := a, k := k, sc := sc }
  | .ldsS8 _ d a k sc => some { sp := .scratch, w := 1, sign := true, d := d, a := a, k := k, sc := sc }
  | .ldsZ8 _ d a k sc => some { sp := .scratch, w := 1, d := d, a := a, k := k, sc := sc }
  | .ldsS16 _ d a k sc => some { sp := .scratch, w := 2, sign := true, d := d, a := a, k := k, sc := sc }
  | .ldsZ16 _ d a k sc => some { sp := .scratch, w := 2, d := d, a := a, k := k, sc := sc }
  | .ldsB32 _ d a k sc => some { sp := .scratch, w := 4, d := d, a := a, k := k, sc := sc }
  | .ldsB64 _ d a k sc => some { sp := .scratch, w := 8, d := d, a := a, k := k, sc := sc }
  | .ldsB128 _ d a k sc => some { sp := .scratch, w := 16, d := d, a := a, k := k, sc := sc }
  | .ldcB32 _ d a k sc => some { sp := .cupola, w := 4, d := d, a := a, k := k, sc := sc }
  | .ldcB64 _ d a k sc => some { sp := .cupola, w := 8, d := d, a := a, k := k, sc := sc }
  | .ldcB128 _ d a k sc => some { sp := .cupola, w := 16, d := d, a := a, k := k, sc := sc }
  | .ldcAcqB32 d a k sc => some { sp := .cupola, w := 4, d := d, a := a, k := k, sc := sc, ord := true }
  | .ldcAcqB64 d a k sc => some { sp := .cupola, w := 8, d := d, a := a, k := k, sc := sc, ord := true }
  | _ => none

/-- The stores of R158, R159 and R162. -/
def storeForm : LInstr → Option MemForm
  | .stlB32 d a k sc => some { sp := .slice, w := 4, d := d, a := a, k := k, sc := sc }
  | .stlB64 d a k sc => some { sp := .slice, w := 8, d := d, a := a, k := k, sc := sc }
  | .stsB8 d a k sc => some { sp := .scratch, w := 1, d := d, a := a, k := k, sc := sc }
  | .stsB16 d a k sc => some { sp := .scratch, w := 2, d := d, a := a, k := k, sc := sc }
  | .stsB32 d a k sc => some { sp := .scratch, w := 4, d := d, a := a, k := k, sc := sc }
  | .stsB64 d a k sc => some { sp := .scratch, w := 8, d := d, a := a, k := k, sc := sc }
  | .stsB128 d a k sc => some { sp := .scratch, w := 16, d := d, a := a, k := k, sc := sc }
  | .stcB32 d a k sc => some { sp := .cupola, w := 4, d := d, a := a, k := k, sc := sc }
  | .stcB64 d a k sc => some { sp := .cupola, w := 8, d := d, a := a, k := k, sc := sc }
  | .stcB128 d a k sc => some { sp := .cupola, w := 16, d := d, a := a, k := k, sc := sc }
  | .stcRelB32 d a k sc => some { sp := .cupola, w := 4, d := d, a := a, k := k, sc := sc, ord := true }
  | .stcRelB64 d a k sc => some { sp := .cupola, w := 8, d := d, a := a, k := k, sc := sc, ord := true }
  | _ => none

/-- The 32-bit functions of R164 with the old value and the operand. -/
def atom4 (f : Word → Word → Word) (old arg : DWord) : DWord := (f (old.setWidth 32) (arg.setWidth 32)).setWidth 64

/-- The atomics of R164 to R166 and their functions of the old value and the operand pair. -/
def atomForm : LInstr → Option (MemForm × (DWord → DWord → DWord))
  | .atomsAdd d a k sc => some ({ sp := .scratch, w := 4, d := d, a := a, k := k, sc := sc }, atom4 (· + ·))
  | .atomsMin d a k sc => some ({ sp := .scratch, w := 4, d := d, a := a, k := k, sc := sc }, atom4 (fun x y => if x.toInt ≤ y.toInt then x else y))
  | .atomsMax d a k sc => some ({ sp := .scratch, w := 4, d := d, a := a, k := k, sc := sc }, atom4 (fun x y => if x.toInt ≤ y.toInt then y else x))
  | .atomsMinz d a k sc => some ({ sp := .scratch, w := 4, d := d, a := a, k := k, sc := sc }, atom4 (fun x y => if x.toNat ≤ y.toNat then x else y))
  | .atomsMaxz d a k sc => some ({ sp := .scratch, w := 4, d := d, a := a, k := k, sc := sc }, atom4 (fun x y => if x.toNat ≤ y.toNat then y else x))
  | .atomsAnd d a k sc => some ({ sp := .scratch, w := 4, d := d, a := a, k := k, sc := sc }, atom4 (· &&& ·))
  | .atomsOr d a k sc => some ({ sp := .scratch, w := 4, d := d, a := a, k := k, sc := sc }, atom4 (· ||| ·))
  | .atomsXor d a k sc => some ({ sp := .scratch, w := 4, d := d, a := a, k := k, sc := sc }, atom4 (· ^^^ ·))
  | .atomsXchg d a k sc => some ({ sp := .scratch, w := 4, d := d, a := a, k := k, sc := sc }, atom4 (fun _ y => y))
  | .atomsCas d a k sc => some ({ sp := .scratch, w := 4, d := d, a := a, k := k, sc := sc },
      fun old p => if old.setWidth 32 = p.setWidth 32 then (p >>> 32) else (old.setWidth 32).setWidth 64)
  | .atomsFadd d a k sc => some ({ sp := .scratch, w := 4, d := d, a := a, k := k, sc := sc },
      atom4 (fun x y => BitVec.ofNat 32 (fAdd fp32 .rne x.toNat y.toNat).1))
  | .atomsAdd64 d a k sc => some ({ sp := .scratch, w := 8, d := d, a := a, k := k, sc := sc }, (· + ·))
  | .atomcAdd d a k sc => some ({ sp := .cupola, w := 4, d := d, a := a, k := k, sc := sc }, atom4 (· + ·))
  | .atomcMin d a k sc => some ({ sp := .cupola, w := 4, d := d, a := a, k := k, sc := sc }, atom4 (fun x y => if x.toInt ≤ y.toInt then x else y))
  | .atomcMax d a k sc => some ({ sp := .cupola, w := 4, d := d, a := a, k := k, sc := sc }, atom4 (fun x y => if x.toInt ≤ y.toInt then y else x))
  | .atomcMinz d a k sc => some ({ sp := .cupola, w := 4, d := d, a := a, k := k, sc := sc }, atom4 (fun x y => if x.toNat ≤ y.toNat then x else y))
  | .atomcMaxz d a k sc => some ({ sp := .cupola, w := 4, d := d, a := a, k := k, sc := sc }, atom4 (fun x y => if x.toNat ≤ y.toNat then y else x))
  | .atomcAnd d a k sc => some ({ sp := .cupola, w := 4, d := d, a := a, k := k, sc := sc }, atom4 (· &&& ·))
  | .atomcOr d a k sc => some ({ sp := .cupola, w := 4, d := d, a := a, k := k, sc := sc }, atom4 (· ||| ·))
  | .atomcXor d a k sc => some ({ sp := .cupola, w := 4, d := d, a := a, k := k, sc := sc }, atom4 (· ^^^ ·))
  | .atomcXchg d a k sc => some ({ sp := .cupola, w := 4, d := d, a := a, k := k, sc := sc }, atom4 (fun _ y => y))
  | .atomcCas d a k sc => some ({ sp := .cupola, w := 4, d := d, a := a, k := k, sc := sc },
      fun old p => if old.setWidth 32 = p.setWidth 32 then (p >>> 32) else (old.setWidth 32).setWidth 64)
  | .atomcFadd d a k sc => some ({ sp := .cupola, w := 4, d := d, a := a, k := k, sc := sc },
      atom4 (fun x y => BitVec.ofNat 32 (fAdd fp32 .rne x.toNat y.toNat).1))
  | .atomcDadd d a k sc => some ({ sp := .cupola, w := 8, d := d, a := a, k := k, sc := sc },
      fun x y => BitVec.ofNat 64 (fAdd fp64 .rne x.toNat y.toNat).1)
  | .atomcAdd64 d a k sc => some ({ sp := .cupola, w := 8, d := d, a := a, k := k, sc := sc }, (· + ·))
  | .atomcMaxloc d a k sc => some ({ sp := .cupola, w := 8, d := d, a := a, k := k, sc := sc }, locCombine true)
  | .atomcMinloc d a k sc => some ({ sp := .cupola, w := 8, d := d, a := a, k := k, sc := sc }, locCombine false)
  | _ => none

/-- The offset that a lane of a bundle presents (R155). -/
def offOf (b : Bundle) (g : Group) (m : MemForm) (j : Nat) : Nat := (((g.issued b 1).lane j).offset m.a m.sc b.pfx m.w).toNat

/-- The state once the lanes of an access word have looked up their pages: a translation found is cached (R330). -/
def looked (i : LInstr) (s : State) (b : Bundle) (g : Group) (t : Team) (m : MemForm) : State :=
  (lanesIn (g.activeOf b 1)).foldl (fun s j => touchFor s t m.sp (offOf b g m (sourceLane i.use.u (g.activeOf b 1) j)) m.w) (s.issued b g 1)

/-- The bytes that a lane stores: the low `w` of vs and its successors (R159). -/
def storeBytes (b : Bundle) (g : Group) (m : MemForm) (j : Nat) : List Byte :=
  (((g.issued b 1).lane j).regBytes m.d.toNat ((m.w + 3) / 4)).take m.w

/-- One lane's indivisible step of an atomic (R164): the old value, and the machine with the new one. -/
def atomStep (x : Ix) (m : MemForm) (f : DWord → DWord → DWord) (arg : DWord) (loc : Nat) (s : State) : DWord × State :=
  let old : DWord := BitVec.ofNat 64 (natOf (s.bytes loc m.w))
  let new := bytesOf m.w (f old arg).toNat
  (old, if m.sp = .cupola then (s.store loc new).refreshStale x.core loc new else s.store loc new)

/-- The steps of an atomic's lanes, in lane order (R164). -/
def atomRun (x : Ix) (t : Team) (m : MemForm) (f : DWord → DWord → DWord) (off : Nat → Nat) (arg : Nat → DWord) (loc : Nat → Nat) :
    List Nat → State → State × List LaneResult
  | [], s => (s, [])
  | j :: js, s =>
    let r := atomStep x m f (arg j) (loc j) (touchAtom s t m.sp (off j) m.w)
    let rest := atomRun x t m f off arg loc js r.2
    (rest.1, (j, { writes := if m.w = 8 then w64 m.d r.1 else w32 m.d (r.1.setWidth 32) }) :: rest.2)

/-- Each lane's atomic passes its checks when its turn comes. -/
def atomsPass (x : Ix) (t : Team) (m : MemForm) (f : DWord → DWord → DWord) (off : Nat → Nat) (arg : Nat → DWord) (loc : Nat → Nat)
    (tso : Nat → Bool) : List Nat → State → Prop
  | [], _ => True
  | j :: js, s =>
    let s0 := touchAtom s t m.sp (off j) m.w
    Passes s0 t x.core [] .atomic m.w (off j) (loc j) (tso j) m.sp ∧
      atomsPass x t m f off arg loc tso js (atomStep x m f (arg j) (loc j) s0).2

/-- The locations at which the lanes of a bundle that pass their checks will perform an atomic (R143). -/
def atomLocs (s : State) (t : Team) (b : Bundle) (g : Group) (m : MemForm) : List Nat :=
  (lanesIn (activeAt g b)).filterMap (fun j =>
    match verdict s t b.core [] m.sp .atomic (((g.atIssue b).lane j).offset m.a m.sc b.pfx m.w).toNat m.w with
    | .go loc _ => some loc
    | _ => none)

/-- The scalar accesses of R168: space, width, whether it loads, registers, token and displacement. -/
def scalarForm : UInstr → Option (Space × Nat × Bool × SReg × SReg × Tok × BitVec 5)
  | .sldB32 a b k i => some (.scratch, 4, true, a, b, k, i)
  | .sldB64 a b k i => some (.scratch, 8, true, a, b, k, i)
  | .sstB32 a b k i => some (.scratch, 4, false, a, b, k, i)
  | .sstB64 a b k i => some (.scratch, 8, false, a, b, k, i)
  | .sldcB64 a b k i => some (.cupola, 8, true, a, b, k, i)
  | .sstcB64 a b k i => some (.cupola, 8, false, a, b, k, i)
  | _ => none

/-- The gathers and scatters of R225: width, whether it loads, whether it splits. -/
def gathForm : LInstr → Option (Nat × Bool × Bool × VReg × VReg × Tok)
  | .gathB32 d a k sp => some (4, true, decide (sp = 1), d, a, k)
  | .gathB64 d a k sp => some (8, true, decide (sp = 1), d, a, k)
  | .scatB32 d a k => some (4, false, false, d, a, k)
  | .scatB64 d a k => some (8, false, false, d, a, k)
  | _ => none

/-- A GATH or SCAT element passes the checks of R226, and its target has answered where it needs one (R354). -/
structure GlobalPass (s : State) (t : Team) (core : Nat) (sq : List Entry) (load : Bool) (w : Nat) (va : DWord) (loc : Nat) (tso : Bool) : Prop where
  low      : va.toNat < 2 ^ 48
  aligned  : va.toNat % w = 0
  answered : unanswered s t.ctx va.toNat = false
  page     : ∃ p, xlateGlobal s t.ctx va.toNat (if load then .read else .write) = .ok p ∧ p.loc = loc ∧ p.t = tso
  unlocked : lockVirtual s t.ctx va.toNat w load = .clear
  sound    : load = true → loadBad s core sq loc w = false

/-- The address pair of a lane (R225). -/
def vaOf (b : Bundle) (g : Group) (a : VReg) (j : Nat) : DWord := ((g.issued b 1).lane j).pair a.toNat

/-- The distinct 64 KiB pages that the addresses of a bundle's active lanes lie in, rising (R330). -/
def pagesLooked (b : Bundle) (g : Group) (a : VReg) : List Nat :=
  (lanesIn (g.activeOf b 1)).foldl (fun r j => insertNat ((vaOf b g a j).toNat / 0x10000) r) []

end Sys2Proof.Claims

open Sys2Proof.Claims

/-- R155-R162: a load whose lanes all pass their checks has each lane's value on its way, the bytes as the core and the
group's store queue show them, or the lane's slice; LDC.acq then acquires at device scope. -/
def Sys2Proof.Claims.LoadWords : Prop :=
  ∀ (i : LInstr) (m : MemForm), loadForm i = some m →
  ∀ (s : State) (b : Bundle) (g : Group) (t : Team) (loc : Nat → Nat) (tso : Nat → Bool), LReady i s b g t →
    (∀ j ∈ lanesIn (g.activeOf b 1),
      Passes (looked i s b g t m) t b.core g.fe.sq .load m.w (offOf b g m (sourceLane i.use.u (g.activeOf b 1) j)) (loc j) (tso j) m.sp ∧
      (m.sp = .slice → ((g.issued b 1).lane j).sliceBad (loc j) m.w = false)) →
    exec (Code.l i).instr s = .next (unitEnd b (Issues.ix i b g t 1)
      (let bytes (j : Nat) : List Byte := if m.sp = .slice then ((g.issued b 1).lane j).slice.read (loc j) m.w
         else (looked i s b g t m).loadBytes b.core g.fe.sq (loc j) m.w
       let s2 := launch (Issues.ix i b g t 1) m.k
         ((lanesIn (g.activeOf b 1)).map (fun j => (j, { writes := loadWrites m.d.toNat m.sign (bytes j) }))) (looked i s b g t m)
       if m.ord then s2.acquire b.core 4 else s2))

/-- R161: a scratchpad load whose line is absent parks its lane at the unit, with the location that it waits for; memory and the masks
stay as they are. -/
def Sys2Proof.Claims.LoadsPark : Prop :=
  ∀ (i : LInstr) (m : MemForm), loadForm i = some m → m.sp = .scratch →
  ∀ (s : State) (b : Bundle) (g : Group) (t : Team) (loc : Nat → Nat), LReady i s b g t → g.dbgc.getLsbD 0 = false →
    (∀ j ∈ lanesIn (g.activeOf b 1), let o := offOf b g m (sourceLane i.use.u (g.activeOf b 1) j)
      o % m.w = 0 ∧ scratchAt t b.core o m.w = some (loc j) ∧ lockScratch s t.id (loc j) m.w true ≠ .trap ∧
      readBad s b.core g.fe.sq (loc j) m.w .load = false) →
    ∃ u h, exec (Code.l i).instr s = .next u ∧ u.group? b.core b.slot = some h ∧ u.mem = s.mem ∧ h.m = g.m ∧ h.q = g.q ∧
      ∀ j ∈ lanesIn (g.activeOf b 1), s.lineAbsent (loc j) = true →
        (h.lane j).park = .presence ∧ (h.lane j).pc = b.unit ∧ (h.lane j).next = b.pos + 4 ∧ (h.lane j).live = (g.lane j).live ∧
        ∃ w, (h.lane j).want = some w ∧ w.kind = .load m.sign ∧ w.addr = loc j ∧ w.n = m.w ∧ w.reg = m.d.toNat ∧ w.tok = m.k ∧ w.unit = b.unit

/-- R150, R161: parked lanes of a unit whose lines are present perform their loads in one turn, as one long-latency operation that their
token counts, and go on past the unit. Here no lane of the bundle waits for a target, and no byte is poisoned. -/
def Sys2Proof.Claims.ParkedLoadsWake : Prop :=
  ∀ (s : State) (b : Bundle) (g : Group) (t : Team) (act : LaneSet) (i : Nat) (w : Want), s.group? b.core b.slot = some g →
    s.teamOf b.core b.slot = some t → s.saving t.ctx = false → b.slot < 128 → b.duty = .lanes → b.Whole → g.dbgc.getLsbD 0 = false →
    (∀ j < 64, act.getLsbD j = true ↔ b.lanes.getLsbD j = true ∧ j < g.lanes.length ∧ (g.lane j).live = true ∧ (g.lane j).park = .presence ∧
      ∃ x sg, (g.lane j).want = some x ∧ x.kind = .load sg ∧ s.lineAbsent x.addr = false) →
    (∀ j, b.lanes.getLsbD j = true → ∀ x, (g.lane j).want = some x → ∃ sg, x.kind = .load sg) →
    (lanesIn act).head? = some i → (g.lane i).want = some w → g.fe.room w.tok = true →
    (∀ j ∈ lanesIn act, loadBad s b.core g.fe.sq (g.wantOf j).addr (g.wantOf j).n = false) →
    let x : Ix := { b := { b with lanes := act, pos := (g.lane i).next - 4, pfx := w.pfx }, core := b.core, slot := b.slot, t := t, act := act
                    word := w.word, h := (g.lane i).handler, pfx := w.pfx }
    let sign (j : Nat) : Bool := match (g.wantOf j).kind with | .load sg => sg | _ => false
    runWake b none s = launch x w.tok ((lanesIn act).map (fun j => (j,
        { writes := loadWrites (g.wantOf j).reg (sign j) (s.loadBytes b.core g.fe.sq (g.wantOf j).addr (g.wantOf j).n) })))
      (s.setGroup (g.upd act (fun _ l => { l.settle with park := .none, want := none, pc := l.next, waited := false })))

/-- R139, R155-R162, R167: a store whose lanes all pass appends one entry for each lane, in lane order, to the group's store
queue, and its token counts it; a store into the Cupola outside the task's output regions costs the team its idempotent
standing. STL writes its lanes' slices. -/
def Obligations.StoreWords : Prop :=
  ∀ (i : LInstr) (m : MemForm), storeForm i = some m →
  ∀ (s : State) (b : Bundle) (g : Group) (t : Team) (loc : Nat → Nat) (tso : Nat → Bool), LReady i s b g t →
    (∀ j ∈ lanesIn (g.activeOf b 1), Passes (looked i s b g t m) t b.core g.fe.sq .store m.w (offOf b g m j) (loc j) (tso j) m.sp) →
    exec (Code.l i).instr s = .next (unitEnd b (Issues.ix i b g t 1)
      (if m.sp = .slice then
        startOp ((s.issued b g 1).setGroup ((g.issued b 1).upd (g.activeOf b 1) (fun j l => l.storeSlice (offOf b g m j) (storeBytes b g m j))))
          b.core b.slot { id := s.ids, tok := m.k, inH := (Issues.ix i b g t 1).h, lanes := g.activeOf b 1 }
      else
        let s1 := looked i s b g t m
        let entry (j : Nat) : Entry :=
          { loc := loc j, bytes := storeBytes b g m j, rel := m.ord, tso := tso j, op := s.ids, ctx := t.ctx, slot := t.slot
            va := if m.sp = .cupola then some (BitVec.ofNat 48 (Config.windowBase + offOf b g m j)) else none }
        let s2 := startOp (s1.setGroup { (g.issued b 1) with fe := { g.fe with sq := g.fe.sq ++ (lanesIn (g.activeOf b 1)).map entry } })
          b.core b.slot { id := s.ids, tok := m.k, inH := (Issues.ix i b g t 1).h, lanes := g.activeOf b 1, sq := (lanesIn (g.activeOf b 1)).length }
        if m.sp = .cupola ∧ ∃ j ∈ lanesIn (g.activeOf b 1), inOutRegion t (Config.windowBase + offOf b g m j) m.w = false
        then loseStanding s2 t.id else s2))

/-- R163: PRS gives 1 for a present line and 0 for an absent one. -/
def Sys2Proof.Claims.PresenceWord : Prop :=
  ∀ (d a : VReg) (k : Tok) (sc : BitVec 3) (s : State) (b : Bundle) (g : Group) (t : Team) (loc : Nat → Nat),
    let m : MemForm := { sp := .scratch, w := 4, d := d, a := a, k := k, sc := sc }
    LReady (.prs d a k sc) s b g t → t.det = false →
    (∀ j ∈ lanesIn (g.activeOf b 1), offOf b g m j % 4 = 0 ∧ scratchAt t b.core (offOf b g m j) 4 = some (loc j)) →
    exec (Code.l (.prs d a k sc)).instr s = .next (unitEnd b (Issues.ix (.prs d a k sc) b g t 1)
      (launch (Issues.ix (.prs d a k sc) b g t 1) k
        ((lanesIn (g.activeOf b 1)).map (fun j => (j, { writes := w32 d (if lineOf (loc j) ∈ s.absent then 0 else 1) })))
        (s.issued b g 1)))

/-- R143, R164-R167: an atomic takes effect after the group's older entries have left, and one on the Cupola after those of the core's
channel that overlap its bytes, one lane after another: memory takes f(old, operand), and the old value is on its way to vd. That the
word itself drains them, with those that must go before them, in the step in which it performs is the model's choice (log 56). -/
def Obligations.AtomicWords : Prop :=
  ∀ (i : LInstr) (m : MemForm) (f : DWord → DWord → DWord), atomForm i = some (m, f) →
  ∀ (s s1 s2 : State) (b : Bundle) (g0 g : Group) (t : Team) (locs : List Nat) (loc : Nat → Nat) (tso : Nat → Bool),
    Issues s b g0 t → s1 = drainQueue s b.core b.slot → locs = atomLocs s1 t b g0 m →
    s2 = (if m.sp = .cupola then drainOut s1 b.core (fun e => locs.any (fun l => overlaps l m.w e.loc e.bytes.length)) else s1) →
    LReady i s2 b g t →
    (m.sp = .cupola → ∀ e ∈ s2.channel b.core, ∀ l ∈ locs, overlaps l m.w e.loc e.bytes.length = false) →
    atomsPass (Issues.ix i b g t 1) t m f (offOf b g m) (fun j => ((g.issued b 1).lane j).pair m.d.toNat) loc tso
      (lanesIn (g.activeOf b 1)) (s2.issued b g 1) →
    exec (Code.l i).instr s = .next (unitEnd b (Issues.ix i b g t 1)
      (let r := atomRun (Issues.ix i b g t 1) t m f (offOf b g m) (fun j => ((g.issued b 1).lane j).pair m.d.toNat) loc
        (lanesIn (g.activeOf b 1)) (s2.issued b g 1)
       launch (Issues.ix i b g t 1) m.k r.2 (loseStanding r.1 t.id)))

/-- R168: a scalar load has its value on its way to sa; s0 discards it. -/
def Sys2Proof.Claims.ScalarLoads : Prop :=
  ∀ (i : UInstr) (sp : Space) (w : Nat) (a c : SReg) (k : Tok) (imm : BitVec 5), scalarForm i = some (sp, w, true, a, c, k, imm) →
  ∀ (s s1 : State) (x : Ix) (off : DWord) (loc : Nat) (tso : Bool), UReady i s x s1 →
    off = sval s1 x c + immZ imm x.pfx * BitVec.ofNat 64 w →
    Passes (touchFor s1 x.t sp off.toNat w) x.t x.core (sqOf s1 x.core x.slot) .load w off.toNat loc tso sp →
    let s2 := touchFor s1 x.t sp off.toNat w
    exec (Code.u i).instr s = .next (uEnd x (startOp s2 x.core x.slot
      { id := s.ids, tok := k, inH := x.h, lanes := x.act
        lands := [{ lane := 0, unit := x.b.unit, word := x.word
                    writes := if a = 0 then [] else
                      [(.s a.toNat, BitVec.ofNat 64 (natOf (s2.loadBytes x.core (sqOf s1 x.core x.slot) loc w)))] }] }))

/-- R139, R168: a scalar store appends one entry to the issuer's store queue. -/
def Sys2Proof.Claims.ScalarStores : Prop :=
  ∀ (i : UInstr) (sp : Space) (w : Nat) (a c : SReg) (k : Tok) (imm : BitVec 5), scalarForm i = some (sp, w, false, a, c, k, imm) →
  ∀ (s s1 : State) (x : Ix) (off : DWord) (loc : Nat) (tso : Bool) (f : Front), UReady i s x s1 →
    off = sval s1 x c + immZ imm x.pfx * BitVec.ofNat 64 w →
    Passes (touchFor s1 x.t sp off.toNat w) x.t x.core (sqOf s1 x.core x.slot) .store w off.toNat loc tso sp →
    s1.front? x.core x.slot = some f →
    let s2 := touchFor s1 x.t sp off.toNat w
    let e : Entry := { loc := loc, bytes := bytesOf w (sval s1 x a).toNat, tso := tso, op := s.ids, ctx := x.t.ctx, slot := x.t.slot
                       va := if sp = .cupola then some (BitVec.ofNat 48 (Config.windowBase + off.toNat)) else none }
    let s3 := startOp (s2.setFront x.core x.slot { f with sq := f.sq ++ [e] }) x.core x.slot
      { id := s.ids, tok := k, inH := x.h, lanes := x.act, sq := 1 }
    exec (Code.u i).instr s = .next (uEnd x
      (if sp = .cupola ∧ inOutRegion x.t (Config.windowBase + off.toNat) w = false then loseStanding s3 x.t.id else s3))

/-- R225-R227, R266, R330: a GATH whose lanes all pass looks up each distinct page once, has each lane's value on its way, and
counts a request for each element that memory serves; with split its lanes park until their own values land. -/
def Sys2Proof.Claims.GatherWords : Prop :=
  ∀ (i : LInstr) (w : Nat) (split : Bool) (d a : VReg) (k : Tok), gathForm i = some (w, true, split, d, a, k) →
  ∀ (s s0 : State) (b : Bundle) (g : Group) (t : Team) (loc : Nat → Nat) (tso : Nat → Bool), LReady i s b g t →
    s0 = (pagesLooked b g a).foldl (fun s p => s.touch t.ctx (p * 0x10000)) (s.issued b g 1) →
    (∀ j ∈ lanesIn (g.activeOf b 1), GlobalPass s0 t b.core g.fe.sq true w (vaOf b g a j) (loc j) (tso j)) →
    exec (Code.l i).instr s = .next (unitEnd b (Issues.ix i b g t 1)
      (let served := (lanesIn (g.activeOf b 1)).filter (fun j => (upFrom (loc j) w).any (fromM s0 b.core g.fe.sq))
       let s2 := (launchOp (fun l => { l with split := split, fid := fidOf (loc l.lane), addr := vaOf b g a l.lane }) (Issues.ix i b g t 1) k
        ((lanesIn (g.activeOf b 1)).map (fun j => (j, { writes := wBytes d.toNat (s0.loadBytes b.core g.fe.sq (loc j) w) })))
        (served.foldl (fun s j => s.countReq (loc j)) s0) ((g.issued b 1).owes s.ids)).1
       match s2.group? b.core b.slot with
       | some h => if split then s2.setGroup (h.upd (g.activeOf b 1) (fun _ l =>
           { l with park := .splitGather, pc := b.unit, next := b.pos + 4 })) else s2
       | none => s2))

/-- R152, R225, R226: a SCAT whose lanes all pass appends one entry for each lane, in lane order. -/
def Sys2Proof.Claims.ScatterWords : Prop :=
  ∀ (i : LInstr) (w : Nat) (d a : VReg) (k : Tok), gathForm i = some (w, false, false, d, a, k) →
  ∀ (s s0 : State) (b : Bundle) (g : Group) (t : Team) (loc : Nat → Nat) (tso : Nat → Bool), LReady i s b g t →
    s0 = (pagesLooked b g a).foldl (fun s p => s.touch t.ctx (p * 0x10000)) (s.issued b g 1) →
    (∀ j ∈ lanesIn (g.activeOf b 1), GlobalPass s0 t b.core [] false w (vaOf b g a j) (loc j) (tso j)) →
    let entry (j : Nat) : Entry :=
      { loc := loc j, bytes := ((g.issued b 1).lane j).regBytes d.toNat (w / 4), tso := tso j, op := s.ids, ctx := t.ctx
        va := some (addrOf (vaOf b g a j)), slot := t.slot }
    let s2 := startOp (s0.setGroup { (g.issued b 1) with fe := { g.fe with sq := g.fe.sq ++ (lanesIn (g.activeOf b 1)).map entry } })
      b.core b.slot { id := s.ids, tok := k, inH := (Issues.ix i b g t 1).h, lanes := g.activeOf b 1, sq := (lanesIn (g.activeOf b 1)).length
                      owed := (g.issued b 1).owes s.ids }
    exec (Code.l i).instr s = .next (unitEnd b (Issues.ix i b g t 1)
      (if ∃ j ∈ lanesIn (g.activeOf b 1), inOutRegion t (vaOf b g a j).toNat w = false then loseStanding s2 t.id else s2))

/-- R144-R147, R169: FENCE releases and then acquires at its scope; while a release is not complete the word stands again
(the model's way to wait: log 18). -/
def Sys2Proof.Claims.FenceWord : Prop :=
  (∀ (c : BitVec 6) (s s1 s2 : State) (x : Ix), UReady (.fence c) s x s1 → release s1 x.core x.slot c.toNat = (s2, true) →
    exec (Code.u (.fence c)).instr s = .next (uEnd x (s2.acquire x.core c.toNat))) ∧
  (∀ (c : BitVec 6) (s s1 s2 : State) (x : Ix), UReady (.fence c) s x s1 → release s1 x.core x.slot c.toNat = (s2, false) →
    exec (Code.u (.fence c)).instr s = .next (uEnd x (standAgain s2 x)))

/-- R31, R137, R138: a load, store, atomic, GATH or SCAT may perform in parts, its lowest lanes first, and other steps may come
between them: each lane belongs to one part, the parts share one operation, which its token counts once and which completes
after the last part, and a load does for the lanes of a part what it does for all of them. The agenda's way to name a part is
the model's own (log 2). -/
def Obligations.PartsOfAWord : Prop :=
  (∀ (b x y : Bundle) (n : Nat) (s : State), b.split n s = some (x, y) → ∃ g, s.group? b.core b.slot = some g ∧
    x = { b with lanes := x.lanes, more := true } ∧ y = { b with lanes := y.lanes } ∧
    x.lanes ≠ 0 ∧ activeAt g y ≠ 0 ∧ activeAt g x = x.lanes ∧ x.lanes &&& y.lanes = 0 ∧ x.lanes ||| y.lanes = b.lanes ∧
    ∀ i ∈ lanesIn (activeAt g x), ∀ j ∈ lanesIn (activeAt g y), i < j) ∧
  (∀ (s : State) (core slot n : Nat) (b x y : Bundle), s.bundleOf core slot = some b → runsFirst s b = b → b.present s = b →
    b.duty = .word → (∀ g, s.group? b.core b.slot = some g → reportHits g b.lanes = []) →
    b.left s = false → b.split n s = some (x, y) →
    takeTurn (.part core slot n) s = runWord x { s with issue := x :: y :: s.issue.erase b }) ∧
  (∀ (x : Ix) (k : Tok) (ls : List Nat) (w : Nat → List (Dest × DWord)) (s : State) (g : Group) (y : Bundle) (rest : List Bundle),
    x.slot < 128 → s.group? x.core x.slot = some g → (∀ j ∈ ls, j < 64) → x.b.hits = [] →
    (x.b.more = true → s.issue = y :: rest ∧ y.core = x.core ∧ y.slot = x.slot ∧ y.unit = x.b.unit) →
    (x.b.op = none → x.b.more = true →
      let op := { inFlight x g k s.ids ls w with owed := true }
      launch x k (ls.map (fun j => (j, { writes := w j }))) s =
        { (s.setGroup { g with fe := (g.fe.start op).finish op.id, spec := countedIn g op }).fresh with
            issue := { y with op := some op.id, hits := [] } :: rest }) ∧
    (∀ id, x.b.op = some id →
      let op := inFlight x g k id ls w
      let f := g.fe.updOp id (fun o => { o with
        lanes := o.lanes ||| op.lanes
        lands := o.lands ++ op.lands
        spec := o.spec || op.spec
        owed := x.b.more })
      let s1 := s.setGroup { g with fe := f.finish id, spec := countedIn g op }
      launch x k (ls.map (fun j => (j, { writes := w j }))) s =
        if x.b.more then { s1 with issue := { y with op := some id, hits := [] } :: rest } else s1)) ∧
  (∀ (i : LInstr) (m : MemForm), loadForm i = some m →
  ∀ (s : State) (b : Bundle) (g : Group) (t : Team) (loc : Nat → Nat) (tso : Nat → Bool), LPart i s b g t →
    (∀ j ∈ lanesIn (g.activeOf b 1),
      Passes (looked i s b g t m) t b.core g.fe.sq .load m.w (offOf b g m (sourceLane i.use.u (g.activeOf b 1) j)) (loc j) (tso j) m.sp ∧
      (m.sp = .slice → ((g.issued b 1).lane j).sliceBad (loc j) m.w = false)) →
    exec (Code.l i).instr s = .next (endUnit (Issues.ix i b g t 1)
      (let bytes (j : Nat) : List Byte := if m.sp = .slice then ((g.issued b 1).lane j).slice.read (loc j) m.w
         else (looked i s b g t m).loadBytes b.core g.fe.sq (loc j) m.w
       let s2 := launch (Issues.ix i b g t 1) m.k
         ((lanesIn (g.activeOf b 1)).map (fun j => (j, { writes := loadWrites m.d.toNat m.sign (bytes j) }))) (looked i s b g t m)
       if m.ord then s2.acquire b.core 4 else s2)))

namespace Sys2Proof.Claims

/-! ### Cross-lane words (R172-R182) -/

/-- An exchange takes va of lane `s`, or `other` where that lane is no contributor (R175). -/
def takeFrom (c : CrossIn) (s : Int) (other : Word) : Option Word :=
  some (if 0 ≤ s ∧ s < c.width ∧ s.toNat ∈ c.cs then c.va s.toNat else other)

/-- A contributor's flag (R176). -/
def CrossIn.flag (c : CrossIn) (j : Nat) : Bool := decide (c.va j ≠ 0)

/-- Bit b says whether lane 32 sub + b satisfies a property (R176, R180). -/
def laneWord (sub : BitVec 3) (p : Nat → Bool) : Word := BitVec.ofNat 32 (((List.range 32).map (fun k => if p (32 * sub.toNat + k) then 2 ^ k else 0)).sum)

/-- The smaller and the larger of signed words (R177). -/
def least (x y : Word) : Word := if x.toInt ≤ y.toInt then x else y
def most (x y : Word) : Word := if x.toInt ≤ y.toInt then y else x

/-- The FP32 combines of R177: value and flags. -/
def fadd32 (r : Rnd) (x y : Word) : Word × Flags := (BitVec.ofNat 32 (fAdd fp32 r x.toNat y.toNat).1, (fAdd fp32 r x.toNat y.toNat).2)
def fext32 (big : Bool) (x y : Word) : Word × Flags := (BitVec.ofNat 32 (fMinMax fp32 big x.toNat y.toNat).1, (fMinMax fp32 big x.toNat y.toNat).2)

/-- A participant's own tree of R111 over the contributors that it counts, and every such tree's flags. -/
def ownTrees (f : Word → Word → Word × Flags) (ls : List Nat) (c : CrossIn) (on : Nat → Nat → Bool) : CrossOut :=
  (fun i => if i ∈ ls then some (treeOf f 0 c (on i)).1 else none, ls.foldl (fun fl i => fl ||| (treeOf f 0 c (on i)).2) 0)

/-- The head of a contributor's segment (R179): the last contributor up to it whose vd is not zero, else the lowest. -/
def segHead (c : CrossIn) (i : Nat) : Nat := ((c.cs.filter (fun j => decide (j ≤ i ∧ c.vd j ≠ 0))).getLast?).getD (c.cs.headD 0)

/-- Whether one contributor comes before another in LSORT's order (R182). -/
def sortedBefore (sub : BitVec 3) (c : CrossIn) (i j : Nat) : Bool :=
  let key (k : Nat) : Int := if sub.getLsbD 0 then (c.va k).toInt else (c.va k).toNat
  decide (if sub.getLsbD 1 then key j < key i else key i < key j) || (decide (key i = key j) && decide (i < j))

/-- The tables of R174 to R182: vd, va and mask, and what each participant receives from the contributors, none where it
keeps vd, with the flags of the whole word. -/
def crossResult : LInstr → Option (VReg × VReg × MReg × (CrossIn → CrossOut))
  | .xchPick d a m => some (d, a, m, fun c => (fun i => takeFrom c (c.vd i).toNat (c.va i), 0))
  | .xchMove d a m e => some (d, a, m, fun c => (fun i =>
      let s : Int := i + (c.vd i).toInt
      takeFrom c (if e = 1 then s % c.width else s) (if e = 2 then 0 else c.va i), 0))
  | .xchFlip d a m e => some (d, a, m, fun c => (fun i =>
      takeFrom c (BitVec.ofNat 32 i ^^^ (if e = 6 then c.vd i else BitVec.ofNat 32 (2 ^ e.toNat))).toNat (c.va i), 0))
  | .xchEdge d a m e => some (d, a, m, fun c => (fun i =>
      match (if e = 0 then c.cs.head? else c.cs.getLast?) with
      | some s => takeFrom c s (c.va i)
      | none => some (c.va i), 0))
  | .qryCnt d a m => some (d, a, m, fun c => (fun _ => some (BitVec.ofNat 32 (c.cs.filter (fun j => CrossIn.flag c j)).length), 0))
  | .qryEvery d a m => some (d, a, m, fun c => (fun _ => some (if ∀ j ∈ c.cs, CrossIn.flag c j = true then 1 else 0), 0))
  | .qryBits d a m e => some (d, a, m, fun c => (fun _ => some (laneWord e (fun j => c.cs.contains j && CrossIn.flag c j)), 0))
  | .redIadd d a m => some (d, a, m, fun c => (fun _ => some ((c.cs.map c.va).sum), 0))
  | .redImin d a m => some (d, a, m, fun c => (fun _ => some ((c.cs.map c.va).foldl least 0x7FFFFFFF), 0))
  | .redImax d a m => some (d, a, m, fun c => (fun _ => some ((c.cs.map c.va).foldl most 0x80000000), 0))
  | .redFadd d a m => some (d, a, m, fun c => let r := treeOf (fadd32 c.rnd) 0 c (fun _ => true); (fun _ => some r.1, r.2))
  | .redFmin d a m => some (d, a, m, fun c => let r := treeOf (fext32 false) 0x7FC00000 c (fun _ => true); (fun _ => some r.1, r.2))
  | .redFmax d a m => some (d, a, m, fun c => let r := treeOf (fext32 true) 0x7FC00000 c (fun _ => true); (fun _ => some r.1, r.2))
  | .scanIadd d a m e => some (d, a, m, fun c => (fun i =>
      some (((c.cs.filter (fun j => decide (j < i ∨ (j = i ∧ e = 0)))).map c.va).sum), 0))
  | .scanFadd d a m e => some (d, a, m, fun c => ownTrees (fadd32 c.rnd) c.ps c (fun i j => decide (j < i ∨ (j = i ∧ e = 0))))
  | .maxloc d a m e => some (d, a, m, fun c =>
      let fm := if e.toNat % 4 = 0 then fp32 else if e.toNat % 4 = 1 then fp16 else bf16
      let x (j : Nat) : Nat := if e.toNat % 4 = 0 then (c.va j).toNat else (c.va j).toNat % 2 ^ 16
      let key (j : Nat) : Nat := packedKey (if e.getLsbD 2 then minkey fm (x j) else ordkey fm (x j)) j
      (fun _ => some (match c.cs.find? (fun j => c.cs.all (fun k => decide (key k ≤ key j))) with
        | some j => BitVec.ofNat 32 j
        | none => 0xFFFFFFFF), 0))
  | .segredIadd d a m => some (d, a, m, fun c => (fun i =>
      if i ∈ c.cs then some (((c.cs.filter (fun j => decide (segHead c j = segHead c i))).map c.va).sum) else none, 0))
  | .segredFadd d a m => some (d, a, m, fun c => ownTrees (fadd32 c.rnd) c.cs c (fun i j => decide (segHead c j = segHead c i)))
  | .segscanFadd d a m => some (d, a, m, fun c => ownTrees (fadd32 c.rnd) c.cs c (fun i j => decide (segHead c j = segHead c i ∧ j ≤ i)))
  | .matchLanes d a m e => some (d, a, m, fun c => (fun i => some (laneWord e (fun j => c.cs.contains j && decide (c.va j = c.va i))), 0))
  | .compact d a m e => some (d, a, m, fun c =>
      let fs := c.cs.filter (fun j => CrossIn.flag c j)
      (fun i => if e = 0 then (fs[c.ps.idxOf i]?).map c.vd
                else some (BitVec.ofNat 32 (fs.filter (fun j => decide (j < i))).length), 0))
  | .lsort d a m e => some (d, a, m, fun c => (fun i =>
      (c.cs.find? (fun j => (c.cs.filter (fun k => sortedBefore e c k j)).length = c.ps.idxOf i)).map (fun j =>
        if e.getLsbD 2 then BitVec.ofNat 32 j else c.va j), 0))
  | _ => none

/-- A cross-lane unit can issue as a bundle's lanes arrive at it or return to it (R172): the group as they stand there, and
the lanes that issue it together. -/
structure CrossReady (i : LInstr) (m : MReg) (s : State) (b : Bundle) (g g1 : Group) (t : Team) (h : Bool) (set : LaneSet) : Prop
    extends Issues s b g t where
  legal : legality t false g.fe.handler (.l i) i.encode = none
  split : h = decide ((b.lanes &&& g.members true) ≠ 0)
  stand : g1 = (if b.gathered then g else arriveCross g b m)
  lanes : set = g1.crossAt h b.unit m
  full  : set ≠ 0

/-- The group once the unit has issued (R172): its lanes have settled and gone on, and the requirement holds only what
lanes outside the issuing split ask of it. -/
def crossed (g1 : Group) (b : Bundle) (m : MReg) (h : Bool) (set : LaneSet) : Group :=
  { (leaveJoin g1 set (b.pos + 4)) with x := g1.x.set m.toNat (if h then g1.x.getD m.toNat 0 &&&
      ~~~((leaveJoin g1 set (b.pos + 4)).members true) else 0) }

/-- Participants and contributors (R172). -/
def participants (g1 : Group) (set : LaneSet) : LaneSet := set &&& g1.where (fun _ l => match l.gather with | .cross _ a => a | _ => false)
def contributors (g1 : Group) (set : LaneSet) (m : MReg) : LaneSet := participants g1 set &&& g1.x.getD m.toNat 0

/-- What a cross-lane word computes from, once its lanes have settled. -/
def crossIn (g1 g2 : Group) (set : LaneSet) (d a : VReg) (m : MReg) : CrossIn :=
  { width := g2.width, ps := lanesIn (participants g1 set), cs := lanesIn (contributors g1 set m)
    va := fun j => (g2.lane j).reg a.toNat, vd := fun j => (g2.lane j).reg d.toNat
    rnd := g2.rnd (g2.lane ((lanesIn (participants g1 set)).headD 0)) }

/-- The issue of a cross-lane unit, as its traps name it. -/
def crossAtUnit (i : LInstr) (b : Bundle) : At := { unit := b.unit, word := i.encode, pfx := b.pfx }

end Sys2Proof.Claims

open Sys2Proof.Claims

/-- R172-R182, R111, R112: when every live lane of the requirement stands at the unit, it issues once; each participant's vd
takes the member's result eight instructions later, and a lane that is no participant keeps its own. That in a handler the
requirement keeps what lanes outside it ask (log 17), and that a GUARD is taken as a lane arrives (log 83), are the model's
choices. -/
def Sys2Proof.Claims.CrossLaneWords : Prop :=
  ∀ (i : LInstr) (d a : VReg) (m : MReg) (f : CrossIn → CrossOut), crossResult i = some (d, a, m, f) →
  ∀ (s : State) (b : Bundle) (g g1 g2 : Group) (t : Team) (h : Bool) (set : LaneSet), CrossReady i m s b g g1 t h set →
    g2 = crossed g1 b m h set → participants g1 set ≠ 0 →
    underWait g2 i.use (participants g1 set) = [] →
    fpcEnables (g2.fpcFor (g2.lane ((lanesIn (participants g1 set)).headD 0))) &&& (f (crossIn g1 g2 set d a m)).2 = 0 →
    exec (Code.l i).instr s = .next (afterUnit
      (s.pop.setGroup ((g2.raiseFlags ((lanesIn (participants g1 set)).headD 0) (f (crossIn g1 g2 set d a m)).2).upd (participants g1 set)
        (fun j l => match (f (crossIn g1 g2 set d a m)).1 j with | some v => l.pendAll 8 (w32 d v) | none => l)))
      b.core b.slot (crossAtUnit i b) set)

/-- R172: lanes that arrive before the requirement is complete park at the unit and add the mask they read to it; their GUARD is
taken then (the model's choice: log 83). -/
def Sys2Proof.Claims.CrossLaneArrival : Prop :=
  ∀ (i : LInstr) (d a : VReg) (m : MReg) (f : CrossIn → CrossOut), crossResult i = some (d, a, m, f) →
  ∀ (s : State) (b : Bundle) (g : Group) (t : Team), Issues s b g t → legality t false g.fe.handler (.l i) i.encode = none →
    b.gathered = false → (arriveCross g b m).crossAt (decide ((b.lanes &&& g.members true) ≠ 0)) b.unit m = 0 →
    exec (Code.l i).instr s = .next (settleJoins (s.pop.setGroup (arriveCross g b m)) b.core b.slot) ∧
    (∀ j ∈ lanesIn b.lanes, j < g.lanes.length →
      ((arriveCross g b m).lane j).park = .join ∧ ((arriveCross g b m).lane j).pc = b.unit ∧ ((arriveCross g b m).lane j).next = b.pos + 4) ∧
    (m.toNat < g.x.length → ∀ j ∈ lanesIn b.lanes, ∀ n,
      ((g.atIssue b).maskFor ((g.atIssue b).lane j) m).getLsbD n = true → ((arriveCross g b m).x.getD m.toNat 0).getLsbD n = true)

/-- R111: the tree of a reduction over lanes 0 to 63 pairs neighbours level by level; an absent side leaves the other
unchanged, and no contributor leaves the stated value. -/
def Obligations.TreeIsTheFixedBinaryTree : Prop :=
  ∀ (f : Word → Word → Word × Flags) (e : Word) (c : CrossIn) (on : Nat → Bool) (node : Nat → Nat → Option Word),
    (∀ j, node 0 j = if j < 64 ∧ j ∈ c.cs ∧ on j = true then some (c.va j) else none) →
    (∀ l j, node (l + 1) j = match node l (2 * j), node l (2 * j + 1) with
      | some x, some y => some (f x y).1
      | some x, none => some x
      | none, y => y) →
    (treeOf f e c on).1 = (node 6 0).getD e

namespace Sys2Proof.Claims

/-! ### Control words (R50, R61-R78) -/

/-- The lanes of a set in which a predicate holds, or fails for neg = 1 (R61). -/
def whereHolds (g : Group) (set : LaneSet) (p : PReg) (n : BitVec 1) : LaneSet := set &&& g.where (fun _ l => l.pred p.toNat != decide (n = 1))

/-- A branch's target (R48, R61): the word's address plus 4 plus 4 times the signed displacement, in 48 bits. -/
def branchTo {n : Nat} (b : Bundle) (d : BitVec n) : Addr :=
  BitVec.ofInt 48 (b.pos.toNat + 4 + 4 * (match b.pfx with | some p => (p ++ d).toInt | none => d.toInt))

/-- Active lanes park at a join of their unit, and will go on past it. -/
def parked (b : Bundle) (g : Group) (set : LaneSet) (k : Lane → Gather) : Group :=
  g.upd set (fun _ l => { l with park := .join, gather := k l, pc := b.unit, next := b.pos + 4 })

/-! ### Scalar words (R88-R92, R64) -/

/-- The tables of R88 to R90 with the immediates of R48: each is a function of the issuer's scalars. -/
def scalarResult (pfx : Option (BitVec 25)) : UInstr → Option (SReg × ((SReg → DWord) → DWord))
  | .sadd d a b => some (d, fun r => r a + r b)
  | .ssub d a b => some (d, fun r => r a - r b)
  | .smul d a b => some (d, fun r => BitVec.ofNat 64 ((r a).toNat * (r b).toNat))
  | .smulh d a b => some (d, fun r => BitVec.ofInt 64 ((r a).toInt * (r b).toInt / 2 ^ 64))
  | .sand d a b => some (d, fun r => r a &&& r b)
  | .sor d a b => some (d, fun r => r a ||| r b)
  | .sxor d a b => some (d, fun r => r a ^^^ r b)
  | .sandn d a b => some (d, fun r => r a &&& ~~~(r b))
  | .sshl d a b => some (d, fun r => BitVec.ofNat 64 ((r a).toNat * 2 ^ ((r b).toNat % 256)))
  | .sshr d a b => some (d, fun r => BitVec.ofNat 64 ((r a).toNat / 2 ^ ((r b).toNat % 256)))
  | .ssar d a b => some (d, fun r => BitVec.ofInt 64 ((r a).toInt / 2 ^ ((r b).toNat % 256)))
  | .smin d a b => some (d, fun r => if (r a).toInt ≤ (r b).toInt then r a else r b)
  | .smax d a b => some (d, fun r => if (r a).toInt ≤ (r b).toInt then r b else r a)
  | .sminz d a b => some (d, fun r => if (r a).toNat ≤ (r b).toNat then r a else r b)
  | .smaxz d a b => some (d, fun r => if (r a).toNat ≤ (r b).toNat then r b else r a)
  | .smov d a => some (d, fun r => r a)
  | .saddi d a i => some (d, fun r => r a + immS i pfx)
  | .sandi d a i => some (d, fun r => r a &&& immS i pfx)
  | .sori d a i => some (d, fun r => r a ||| immS i pfx)
  | .sshli d a n => some (d, fun r => BitVec.ofNat 64 ((r a).toNat * 2 ^ n.toNat))
  | .sshri d a n => some (d, fun r => BitVec.ofNat 64 ((r a).toNat / 2 ^ n.toNat))
  | .ssari d a n => some (d, fun r => BitVec.ofInt 64 ((r a).toInt / 2 ^ n.toNat))
  | .smovi d i => some (d, fun _ => immS i pfx)
  | .scmp c d a b => some (d, fun r => if holds c (r a) (r b) then 1 else 0)
  | _ => none

/-- The conditions of SBR (R64): eqz, nez, ltz, gez, gtz and lez on the signed 64-bit value. -/
def sbrTakes (c : BitVec 4) (x : DWord) : Bool :=
  match c.toNat with
  | 0 => x.toInt = 0
  | 1 => x.toInt ≠ 0
  | 2 => x.toInt < 0
  | 3 => 0 ≤ x.toInt
  | 4 => 0 < x.toInt
  | _ => x.toInt ≤ 0

end Sys2Proof.Claims

open Sys2Proof.Claims

/-- R76: NOP counts as one instruction in its active lanes and DLY n as n; neither has another effect. The word of DLY is R45's, and
DLY 0 is illegal. -/
def Sys2Proof.Claims.NopAndDelay : Prop :=
  (∀ n : BitVec 5, encode (Code.l (.dly n)).instr = some (0x32E00000 ||| n.setWidth 32)) ∧ decodeWord 0x32E00000 = .error (.illegal 10) ∧
  ∀ (s : State) (b : Bundle) (g : Group) (t : Team),
    (LReady .nop s b g t → exec (Code.l .nop).instr s = .next (unitEnd b (Issues.ix .nop b g t 1) (s.issued b g 1))) ∧
    (∀ n : BitVec 5, LReady (.dly n) s b g t n.toNat →
      exec (Code.l (.dly n)).instr s = .next (unitEnd b (Issues.ix (.dly n) b g t n.toNat) (s.issued b g n.toNat)))

/-- R61, R62: a branch without a token sends the active lanes in which its condition holds to its target, and so does one
whose token counts nothing, after its lanes that waited have settled and acquired. While the token counts something the
lanes wait at the branch where CTXC.SPEC is clear or SSTEP is set. -/
def Sys2Proof.Claims.Branches : Prop :=
  ∀ (p : PReg) (n : BitVec 1) (k : Tok) (d : BitVec 14) (s : State) (b : Bundle) (g : Group) (t : Team),
    let i : LInstr := .bra p n k d
    LReady i s b g t →
    (k = 15 → exec (Code.l i).instr s = .next (unitEnd b (Issues.ix i b g t 1) ((s.issued b g 1).setGroup
      ((g.issued b 1).upd (whereHolds (g.issued b 1) (g.activeOf b 1) p n) (fun _ l => { l with pc := branchTo b d }))))) ∧
    (k ≠ 15 → g.spec = none → g.fe.count k = 0 →
      exec (Code.l i).instr s = .next (unitEnd b (Issues.ix i b g t 1) (
        let g1 := { ((g.issued b 1).upd (g.activeOf b 1) (fun j l => if (g.lane j).waited then l.settle else l)) with fe := g.fe.clearDone (some k) }
        ((s.issued b g 1).setGroup (g1.upd (whereHolds g1 (g.activeOf b 1) p n) (fun _ l => { l with pc := branchTo b d }))).acquire
          b.core (g.fe.acquireScope (some k))))) ∧
    (k ≠ 15 → g.spec = none → g.fe.count k ≠ 0 → (s.ctx t.ctx).ctxc.getLsbD 3 = false ∨ g.dbgc.getLsbD 0 = true →
      exec (Code.l i).instr s = .next (s.pop.setGroup (g.upd (g.activeOf b 1) (fun _ l => { l with waited := true }))))

/-- R33, R62: with CTXC.SPEC set and SSTEP clear, a branch whose token still counts something starts the group's speculation
record: each active lane goes on along a predicted path or is held at the branch, settled. -/
def Sys2Proof.Claims.BranchesSpeculate : Prop :=
  ∀ (p : PReg) (n : BitVec 1) (k : Tok) (d : BitVec 14) (s : State) (b : Bundle) (g : Group) (t : Team),
    LReady (.bra p n k d) s b g t → k ≠ 15 → g.spec = none → g.fe.count k ≠ 0 → (s.ctx t.ctx).ctxc.getLsbD 3 = true →
    g.dbgc.getLsbD 0 = false →
    ∃ u h, exec (Code.l (.bra p n k d)).instr s = .next u ∧ u.group? b.core b.slot = some h ∧
      h.spec = some { pc := b.pos, tok := k, p := p, neg := decide (n = 1), disp := branchTo b d, incs := List.replicate 15 0 } ∧
      (∀ j ∈ lanesIn (g.activeOf b 1), j < g.lanes.length → ∃ c,
        h.lane j = { ((g.issued b 1).lane j).settle with
          spec := some { taken := c }
          pc := match c with | some true => branchTo b d | some false => b.pos + 4 | none => b.unit }) ∧
      (∀ j, (g.activeOf b 1).getLsbD j = false → h.lane j = (g.issued b 1).lane j) ∧
      u.mem = s.mem ∧ u.teams = s.teams ∧ u.outb = s.outb

/-- R17, R68: RJM gives a mask the active lanes and RJADD adds them, live lanes only; a second write of one issue cycle combines
with the first, two RJMs by union. The lanes of the bundle read the value from before the cycle for three more instructions,
those of the cycle's other bundle that wrote the mask go on reading theirs, and every other lane reads the new mask at once. -/
def Obligations.RejoinMaskWrites : Prop :=
  ∀ (m : MReg) (add : Bool) (s : State) (b : Bundle) (g : Group) (t : Team) (i : LInstr), i = (if add then .rjadd m else .rjm m) →
    LReady i s b g t →
    let first := g.cyc.find? (fun w => w.m = m.toNat)
    let now := g.m.getD m.toNat 0
    let old := match first with | some w => w.old | none => now
    let act := g.activeOf b 1
    let new := match first with
      | none => if add then now ||| act else act
      | some w => if add = false ∧ w.rjm = false then w.lanes ||| act else now ||| act
    let g1 := g.issued b 1
    exec (Code.l i).instr s = .next (unitEnd b (Issues.ix i b g t 1) ((s.issued b g 1).setGroup
      { (g1.upd (~~~0) (fun j l =>
          if b.lanes.getLsbD j then l.keepOld (.mask m.toNat) old
          else if ∃ w ∈ g.cyc, w.m = m.toNat ∧ w.through.getLsbD j = true then l
          else { l with olds := l.olds.filter (fun o => o.reg ≠ .mask m.toNat) })) with
        m := g.m.set m.toNat (new &&& g1.liveLanes)
        cyc := g.cyc ++ [{ m := m.toNat, lanes := act, through := b.lanes, rjm := !add, old := old }] }))

/-- R69: the active lanes of a JOIN park, the requirement takes the mask as each of them reads it, and joins that can
complete do. -/
def Sys2Proof.Claims.JoinWord : Prop :=
  ∀ (m : MReg) (s : State) (b : Bundle) (g : Group) (t : Team), LReady (.join m) s b g t →
    let g1 := g.issued b 1
    exec (Code.l (.join m)).instr s = .next (unitEnd b (Issues.ix (.join m) b g t 1) (settleJoins ((s.issued b g 1).setGroup
      { (parked b g1 (g.activeOf b 1) (fun _ => .join m)) with
        q := g.q.set m.toNat ((lanesIn (g.activeOf b 1)).foldl (fun q j => q ||| g1.maskFor (g1.lane j) m) (g.q.getD m.toNat 0)) })
      b.core b.slot))

/-- R69: JOINs on a mask release exactly when every live lane of the requirement is parked at one of them; then each lane
parked there is settled and stands at its own fall-through, every other lane is as it was, and the requirement is empty. -/
def Sys2Proof.Claims.JoinRelease : Prop :=
  ∀ (g : Group) (m : MReg),
    ((g.tryJoin false m).2 ≠ 0 ↔ g.atJoin false m ≠ 0 ∧ ∀ j, (g.q.getD m.toNat 0).getLsbD j = true → (g.lane j).live = true →
      (g.atJoin false m).getLsbD j = true) ∧
    ((g.tryJoin false m).2 ≠ 0 → (g.tryJoin false m).2 = g.atJoin false m ∧
      (m.toNat < g.q.length → (g.tryJoin false m).1.q.getD m.toNat 0 = 0) ∧
      ∀ j, (g.tryJoin false m).1.lane j = if (g.atJoin false m).getLsbD j
        then { (g.lane j).settle with park := .none, gather := .none, pc := (g.lane j).settle.next } else g.lane j) ∧
    ((g.tryJoin false m).2 = 0 → (g.tryJoin false m).1 = g)

/-- R72: EXIT retires its active lanes and evaluates again what waited for them. -/
def Sys2Proof.Claims.ExitWord : Prop :=
  ∀ (s : State) (b : Bundle) (g : Group) (t : Team), LReady .exit s b g t →
    exec (Code.l .exit).instr s = .next (unitEnd b (Issues.ix .exit b g t 1) (loseLanes (s.issued b g 1) b.core b.slot (g.activeOf b 1)))

/-- R70, R72: lanes that retire are not live, hold what they had settled, and are gone from every mask and requirement; the
other lanes stay, but for what they still see of a mask. -/
def Sys2Proof.Claims.RetiredLanesAreForgotten : Prop :=
  ∀ (g : Group) (set : LaneSet),
    (∀ j ∈ lanesIn set, (((g.retireLanes set).lane j).live = false ∧ ((g.retireLanes set).lane j).park = .none) ∧
      (j < g.lanes.length → ((g.retireLanes set).lane j).v = (g.lane j).settle.v ∧ ((g.retireLanes set).lane j).p = (g.lane j).settle.p)) ∧
    (∀ j, set.getLsbD j = false → ((g.retireLanes set).lane j).v = (g.lane j).v ∧ ((g.retireLanes set).lane j).p = (g.lane j).p ∧
      ((g.retireLanes set).lane j).live = (g.lane j).live ∧ ((g.retireLanes set).lane j).pc = (g.lane j).pc) ∧
    (∀ k j, set.getLsbD j = true → ((g.retireLanes set).m.getD k 0).getLsbD j = false ∧
      ((g.retireLanes set).q.getD k 0).getLsbD j = false ∧ ((g.retireLanes set).x.getD k 0).getLsbD j = false) ∧
    (∀ k j, set.getLsbD j = false → ((g.retireLanes set).m.getD k 0).getLsbD j = (g.m.getD k 0).getLsbD j) ∧
    (g.retireLanes set).fe = g.fe

/-- R73, R74: lanes park at EXITS with the successor that each reads and n, and at REGROUP with p and n. -/
def Sys2Proof.Claims.ExitsAndRegroupPark : Prop :=
  ∀ (s : State) (b : Bundle) (g : Group) (t : Team),
    (∀ (a : SReg) (n : BitVec 8), LReady (.exits a n) s b g t →
      exec (Code.l (.exits a n)).instr s = .next (unitEnd b (Issues.ix (.exits a n) b g t 1) (settleJoins ((s.issued b g 1).setGroup
        (parked b (g.issued b 1) (g.activeOf b 1) (fun l => .exits (if a = 0 then 0 else l.sees (.scalar a.toNat) (g.fe.sreg a.toNat)) n.toNat)))
        b.core b.slot))) ∧
    (∀ (p : PReg) (n : BitVec 5), LReady (.regroup p n) s b g t →
      exec (Code.l (.regroup p n)).instr s = .next (unitEnd b (Issues.ix (.regroup p n) b g t 1) (settleJoins ((s.issued b g 1).setGroup
        (parked b (g.issued b 1) (g.activeOf b 1) (fun _ => .regroup p n.toNat))) b.core b.slot)))

/-- R75: YIELD settles its active lanes and withholds their PC from the group's next issue cycle. -/
def Sys2Proof.Claims.YieldWord : Prop :=
  ∀ (s : State) (b : Bundle) (g : Group) (t : Team), LReady .yield s b g t →
    exec (Code.l .yield).instr s = .next (unitEnd b (Issues.ix .yield b g t 1) ((s.issued b g 1).setGroup
      { ((g.issued b 1).upd (g.activeOf b 1) (fun _ l => l.settle)) with withheld := g.withheld ++ [b.pos + 4] }))

/-- R30, R77, R147: a WAITK whose count is low enough lets its active lanes go on, settled if they had to wait, and acquires
at the scope of what completed; one whose count is too high keeps them at it. -/
def Sys2Proof.Claims.WaitOnTokens : Prop :=
  ∀ (k : Tok) (n : BitVec 4) (s : State) (b : Bundle) (g : Group) (t : Team), k ≠ 15 → LReady (.waitk k n) s b g t →
    (g.fe.count k ≤ n.toNat →
      exec (Code.l (.waitk k n)).instr s = .next (unitEnd b (Issues.ix (.waitk k n) b g t 1)
        (((s.issued b g 1).setGroup { ((g.issued b 1).upd (g.activeOf b 1) (fun j l => if (g.lane j).waited then l.settle else l)) with
            fe := g.fe.clearDone (some k) }).acquire b.core (g.fe.acquireScope (some k))))) ∧
    (n.toNat < g.fe.count k →
      exec (Code.l (.waitk k n)).instr s = .next (s.pop.setGroup (g.upd (g.activeOf b 1) (fun _ l => { l with waited := true }))))

/-- R50: a GUARD whose next word is an L-set word, or a PFX and then one, makes that word active where its predicate holds,
or fails for neg = 1; it changes nothing else. -/
def Sys2Proof.Claims.GuardWord : Prop :=
  ∀ (p : PReg) (n : BitVec 1) (s : State) (b : Bundle) (g : Group) (t : Team) (w : Word), Issues s b g t →
    legality t false false (.l (.guard p n)) (LInstr.encode (.guard p n)) = none →
    fetch s t.ctx (b.pos + 4) = .word w → isGuardWord w = false →
    (isPfxWord w = false ∧ isLset w = true ∨ isPfxWord w = true ∧ ∃ w2, fetch s t.ctx (b.pos + 8) = .word w2 ∧ isLset w2 = true) →
    exec (Code.l (.guard p n)).instr s = .next { s with issue := { b with pos := b.pos + 4, guard := some (p, decide (n = 1)) } :: s.issue.drop 1 }

/-- R48, R49: a PFX before a word that admits one gives that word its payload; it changes nothing else. -/
def Sys2Proof.Claims.PrefixWord : Prop :=
  ∀ (p : BitVec 25) (s : State) (b : Bundle) (t : Team) (w : Word), s.bundle? = some b → s.teamOf b.core b.slot = some t →
    fetch s t.ctx (b.pos + 4) = .word w → pfxAdmits w = true →
    exec (Code.u (.pfx p)).instr s = .next { s with issue := { b with pos := b.pos + 4, pfx := some p } :: s.issue.drop 1 }

/-- R78, R315: BKPT traps its active lanes at 0x480 with cause 1, and TRAP at 0x500 with cause 1 and its code; both return to
the next unit. -/
def Sys2Proof.Claims.SoftwareTraps : Prop :=
  ∀ (s : State) (b : Bundle) (g : Group) (t : Team),
    (LReady .bkpt s b g t → exec (Code.l .bkpt).instr s = .next (unitEnd b (Issues.ix .bkpt b g t 1) (raise (s.issued b g 1) b.core b.slot
      { unit := b.unit, word := LInstr.encode .bkpt, pfx := b.pfx, next := true }
      ((lanesIn (g.activeOf b 1)).map (fun j => { lane := j, vec := 0x480, cause := 1 }))))) ∧
    (∀ c : BitVec 16, LReady (.trap c) s b g t →
      exec (Code.l (.trap c)).instr s = .next (unitEnd b (Issues.ix (.trap c) b g t 1) (raise (s.issued b g 1) b.core b.slot
      { unit := b.unit, word := LInstr.encode (.trap c), pfx := b.pfx, tcode := c.setWidth 32, next := true }
      ((lanesIn (g.activeOf b 1)).map (fun j => { lane := j, vec := 0x500, cause := 1 })))))

/-- R15, R29, R88-R90: a scalar word gives sd the table's value of the issuer's scalars, visible four instructions later; s0
discards it. -/
def Sys2Proof.Claims.ScalarWords : Prop :=
  ∀ (i : UInstr) (s s1 : State) (x : Ix) (d : SReg) (f : (SReg → DWord) → DWord), UReady i s x s1 → scalarResult x.pfx i = some (d, f) →
    exec (Code.u i).instr s = .next (uEnd x (setSval s1 x d (f (sval s1 x))))

/-- R64, R65: SBR, JMP and CALL send the group's lanes, or the lantern, to their targets; CALL puts the return address into
s63 at once and raises the call depth; RET above depth 0 lowers it and goes to its register's address, at depth 0 the lanes
exit or the lantern retires. -/
def Sys2Proof.Claims.ScalarTransfers : Prop :=
  ∀ (s s1 : State) (x : Ix),
    (∀ (c : BitVec 4) (a : SReg) (d : BitVec 15), UReady (.sbr c a d) s x s1 →
      exec (Code.u (.sbr c a d)).instr s = .next (uEnd x (if sbrTakes c (sval s1 x a) then jumpTo s1 x (branchTo x.b d) else s1))) ∧
    (∀ d : BitVec 25, UReady (.jmp d) s x s1 → exec (Code.u (.jmp d)).instr s = .next (uEnd x (jumpTo s1 x (branchTo x.b d)))) ∧
    (∀ d : BitVec 25, UReady (.call d) s x s1 →
      exec (Code.u (.call d)).instr s = .next (uEnd x (jumpTo (enterCall s1 x) x (branchTo x.b d)))) ∧
    (∀ (a : SReg) (f : Front), UReady (.ret a) s x s1 → s1.front? x.core x.slot = some f →
      (x.lan = true ∨ ∀ g, s1.group? x.core x.slot = some g → fpcChk g.fpc = false ∨ ∀ n ∈ f.tok.drop 8, n = 0) →
      exec (Code.u (.ret a)).instr s = .next (uEnd x (
        if f.cdepth = 0 then (if x.lan then retireLantern s1 x.core x.slot else loseLanes s1 x.core x.slot x.act)
        else jumpTo (s1.setFront x.core x.slot { f with cdepth := f.cdepth - 1 }) x
          (BitVec.ofNat 48 ((sval s1 x a).toNat % 2 ^ 48 / 4 * 4)))))

/-- R65: CALL leaves the address of the word after it in s63 and raises CDEPTH by one, short of its top; no other scalar
changes. -/
def Sys2Proof.Claims.CallLinks : Prop :=
  ∀ (s : State) (x : Ix) (g : Group), x.lan = false → x.slot < 128 → s.group? x.core x.slot = some g →
    ∃ h, (enterCall s x).group? x.core x.slot = some h ∧ h.fe.s = g.fe.s.set 63 ((x.b.pos + 4).setWidth 64) ∧
      (∀ r, r ≠ 63 → h.fe.sreg r = g.fe.sreg r) ∧
      (g.fe.cdepth.toNat < 2 ^ 32 - 1 → h.fe.cdepth.toNat = g.fe.cdepth.toNat + 1) ∧ (g.fe.cdepth.toNat = 2 ^ 32 - 1 → h.fe.cdepth = g.fe.cdepth) ∧
      h.lanes = g.lanes ∧ h.m = g.m ∧ h.fpc = g.fpc

/-- R91: in a group, VBCAST writes half of s to every live lane, VREAD reads one lane as held, MREAD a mask, MWRITE sets a mask
to s AND the live lanes, PREAD a predicate of the live lanes, KREAD a token's count. Which lanes are live for these words in a
handler is the model's choice (log 106). -/
def Sys2Proof.Claims.LaneAndGroupMoves : Prop :=
  ∀ (s s1 : State) (x : Ix) (g : Group), x.lan = false → s1.group? x.core x.slot = some g →
    (∀ (v : VReg) (r : SReg) (n : BitVec 8), UReady (.vbcast v r n) s x s1 →
      exec (Code.u (.vbcast v r n)).instr s = .next (uEnd x (s1.setGroup (g.upd x.act (fun _ l =>
        l.pendAll 4 (w32 v (if n = 0 then (sval s1 x r).setWidth 32 else ((sval s1 x r) >>> 32).setWidth 32))))))) ∧
    (∀ (v : VReg) (r : SReg) (n : BitVec 8), UReady (.vread v r n) s x s1 →
      exec (Code.u (.vread v r n)).instr s = .next (uEnd x (setSval s1 x r (((g.lane n.toNat).reg v.toNat).setWidth 64)))) ∧
    (∀ (r : SReg) (n : BitVec 8), UReady (.mread r n) s x s1 →
      exec (Code.u (.mread r n)).instr s = .next (uEnd x (setSval s1 x r (g.m.getD n.toNat 0)))) ∧
    (∀ (r : SReg) (n : BitVec 8), UReady (.mwrite r n) s x s1 →
      exec (Code.u (.mwrite r n)).instr s = .next (uEnd x (s1.setGroup
        { (g.upd g.liveLanes (fun _ l => l.keepOld (.mask n.toNat) (g.m.getD n.toNat 0))) with
          m := g.m.set n.toNat (sval s1 x r &&& g.liveLanes) }))) ∧
    (∀ (r : SReg) (n : BitVec 8), UReady (.pread r n) s x s1 →
      exec (Code.u (.pread r n)).instr s = .next (uEnd x (setSval s1 x r (g.where (fun _ l => l.live && l.pred n.toNat))))) ∧
    (∀ (r : SReg) (n : BitVec 8), UReady (.kread r n) s x s1 → x.t.det = false → x.slot < 128 →
      exec (Code.u (.kread r n)).instr s = .next (uEnd x (setSval s1 x r (BitVec.ofNat 64 (g.fe.tok.getD n.toNat 0)))))

/-- R92: in the lantern, VBCAST and MWRITE change nothing, VREAD, MREAD and PREAD write 0, and KREAD writes the count of one of the
lantern's own tokens (in a deterministic task KREAD traps, R335, and is not meant here). -/
def Sys2Proof.Claims.LanternMoves : Prop :=
  ∀ (s s1 : State) (x : Ix), x.lan = true →
    (∀ (v : VReg) (r : SReg) (n : BitVec 8), UReady (.vbcast v r n) s x s1 → exec (Code.u (.vbcast v r n)).instr s = .next s1) ∧
    (∀ (r : SReg) (n : BitVec 8), UReady (.mwrite r n) s x s1 → exec (Code.u (.mwrite r n)).instr s = .next s1) ∧
    (∀ (v : VReg) (r : SReg) (n : BitVec 8), UReady (.vread v r n) s x s1 → exec (Code.u (.vread v r n)).instr s = .next (setSval s1 x r 0)) ∧
    (∀ (r : SReg) (n : BitVec 8), UReady (.mread r n) s x s1 → exec (Code.u (.mread r n)).instr s = .next (setSval s1 x r 0)) ∧
    (∀ (r : SReg) (n : BitVec 8), UReady (.pread r n) s x s1 → exec (Code.u (.pread r n)).instr s = .next (setSval s1 x r 0)) ∧
    (∀ (r : SReg) (n : BitVec 8) (l : Lantern), UReady (.kread r n) s x s1 → x.t.det = false → s1.lantern? x.core x.slot = some l →
      exec (Code.u (.kread r n)).instr s = .next (setSval s1 x r (BitVec.ofNat 64 (l.fe.tok.getD n.toNat 0))))

namespace Sys2Proof.Claims

/-! ### What the commands of the tile unit do (R113-R117, R198-R217) -/

/-- Two sides of a team agree in everything but some of their tile registers, companions and accumulators. -/
structure KeepsRegs (d r : Side) (tiles comps accs : List Nat) : Prop where
  tiles  : ∀ m, m ∉ tiles → r.tile m = d.tile m
  comps  : ∀ m, m ∉ comps → r.comp m = d.comp m
  accs   : ∀ m, m ∉ accs → r.acc m = d.acc m
  shapes : r.shapes = d.shapes

/-- R204, R206: the bytes that a load has read from its rows go to the places of those rows in its tile, companion or accumulator, with
their poison in a tile; every other byte stays. -/
def LoadResults : Prop :=
  ∀ (d : Side) (c : TileCmd) (ag : Agent),
    let r := (runCmd d c (some ag)).1
    let sh := d.shape c.n
    (c.kind = 0 → shapeUsable sh = true → c.n < d.tiles.length → (d.tile c.n).data.wf = true → KeepsRegs d r [c.n] [] [] ∧
      ∀ i k, k < 256 → let p := 256 * i + k
        (r.tile c.n).data.get p = (if i < shRows sh ∧ k < rowBytes sh then ag.buf.get p else (d.tile c.n).data.get p) ∧
        (p ∈ (r.tile c.n).poison ↔ if i < shRows sh ∧ k < rowBytes sh then p ∈ ag.bad else p ∈ (d.tile c.n).poison)) ∧
    (c.kind = 9 → c.n < d.comps.length → (d.comp c.n).data.wf = true → KeepsRegs d r [] [c.n] [] ∧
      ∀ i k, k < 64 → let p := 64 * i + k
        (r.comp c.n).data.get p = (if i < shRows sh then ag.buf.get p else (d.comp c.n).data.get p)) ∧
    (let rows := c.b.toNat / 2 ^ 24 % 2 ^ 7
     let cols := c.b.toNat / 2 ^ 31 % 2 ^ 7
     let wide := decide (c.n / 16 % 2 = 1)
     let e := if wide then 8 else 4
     let n := c.n % 16
     c.kind = 3 → rows ≤ 64 → cols ≤ 64 → n + (if wide then 1 else 0) < d.accs.length → (d.acc n).data.wf = true →
     (d.acc (n + 1)).data.wf = true → KeepsRegs d r [] [] (if wide then [n, n + 1] else [n]) ∧
      ∀ i j, i < 64 → j < 64 →
        accElem r wide n i j = if i < rows ∧ j < cols then natOf (ag.buf.read (e * (64 * i + j)) e) else accElem d wide n i j)

/-- Byte k of row i that a TST or an ACCST stores (R204, R206): the unused half of a last byte is zero. -/
def rowByte (d : Side) (c : TileCmd) (i k : Nat) : Byte :=
  if c.kind = 1 then
    let sh := d.shape c.n
    let x := (d.tile c.n).data.get (256 * i + k)
    if shEw sh = 0 ∧ shCols sh % 2 = 1 ∧ k = shCols sh / 2 then x &&& 0x0F else x
  else
    let wide := decide (c.n / 16 % 2 = 1)
    let e := if wide then 8 else 4
    BitVec.ofNat 8 (accElem d wide (c.n % 16) i (k / e) / 256 ^ (k % e))

/-- R201, R204, R206: a store takes the bytes of its rows from its tile or accumulator; where rows overlap, the highest one that has a
byte gives it. Rows apart are written each at its own place. -/
def StoreResults : Prop :=
  ∀ (s : State) (t : Team) (core : Nat) (d : Side) (c : TileCmd) (ag : Agent), (c.kind = 1 ∨ c.kind = 4) → c.agentIn s = some ag →
    (c.kind = 1 → shapeUsable (d.shape c.n) = true) →
    let sh := d.shape c.n
    let e := if c.n / 16 % 2 = 1 then 8 else 4
    let rows := if c.kind = 1 then shRows sh else c.b.toNat / 2 ^ 24 % 2 ^ 7
    let n := if c.kind = 1 then rowBytes sh else e * (c.b.toNat / 2 ^ 31 % 2 ^ 7)
    let stride : DWord := if c.kind = 1 then c.b else BitVec.ofNat 64 (c.b.toNat % 2 ^ 24)
    let off (i : Nat) : Nat := (c.a + BitVec.ofNat 64 i * stride).toNat
    let lo := lowest ((upFrom 0 rows).map off)
    ∃ ag1 : Agent, primeStore s t core d c = s.setAgent ag1 ∧ ag1.id = ag.id ∧ ag1.fin = ag.fin ∧
      (∀ i k, i < rows → k < n → (∀ i2, i < i2 → i2 < rows → ¬(off i2 ≤ off i + k ∧ off i + k < off i2 + n)) →
        ag1.buf.get (off i + k - lo) = rowByte d c i k) ∧
      (n ≤ min stride.toNat (2 ^ 64 - stride.toNat) → ∀ st ∈ ag1.steps, ∃ i k len, i < rows ∧ k + len ≤ n ∧
        st = .write (rowLoc t core n (off i) + k) len (off i - lo + k) false)

/-- The zero point of a group of a companion row (R198). -/
def zeroPoint (b : Block) (q4 : Bool) (row g : Nat) : Nat :=
  let z := (b.data.get (64 * row + 32 + g)).toNat
  if q4 then z % 16 else z

/-- What TCVT makes of element (i, j), and its flags (R207, R208). -/
def convertedElem (d : Side) (c : TileCmd) (i j : Nat) : Nat × Flags :=
  let w := c.a.toNat
  let src := w % 2 ^ 5
  let sf := w / 2 ^ 6 % 2 ^ 4
  let df := w / 2 ^ 10 % 2 ^ 4
  let mode := w / 2 ^ 14 % 2 ^ 3
  let g := j / (32 * 2 ^ (w / 2 ^ 17 % 4))
  let x := if c.a.getLsbD 5 then accElem d (decide (sf = 0)) src i j else tileElem (d.tile src) (ewBits (fmtEw sf)) i j
  let r : Rnd := if mode = 4 then .dither (ditherT (8 * (i % 8) + j % 8) c.phi) else rndOf (BitVec.ofNat 2 (if mode = 5 then c.rnd else mode))
  if df = 6 ∨ df = 7 then
    quantise (decodeF (fmtOf sf) x) (compScale (d.comp c.n) i g) (zeroPoint (d.comp c.n) (decide (df = 7)) i g) (ewBits (fmtEw df)) r
  else if sf = 6 ∨ sf = 7 then
    narrow (fmtOf df) r (dequant (compScale (d.comp src) i g) x (zeroPoint (d.comp src) (decide (sf = 7)) i g))
  else fConvert (fmtOf sf) (fmtOf df) r x

/-- R208: TCVT converts the elements within xN's ROWS and COLS, keeps those beyond, and raises the flags of all of them together. -/
def ConversionResults : Prop :=
  ∀ (d : Side) (c : TileCmd) (a : Option Agent), c.kind = 7 →
    let r := runCmd d c a
    let rows := shRows (d.shape c.n)
    let cols := shCols (d.shape c.n)
    let bits := ewBits (fmtEw (c.a.toNat / 2 ^ 10 % 2 ^ 4))
    rows ≤ 64 → cols * bits ≤ 2048 → c.n < d.tiles.length → (d.tile c.n).data.wf = true →
    KeepsRegs d r.1 [c.n] [] [] ∧
    (∀ i j, i < 64 → (j + 1) * bits ≤ 2048 → tileElem (r.1.tile c.n) bits i j =
      if i < rows ∧ j < cols then (convertedElem d c i j).1 % 2 ^ bits else tileElem (d.tile c.n) bits i j) ∧
    (∀ f < 5, r.2.1.getLsbD f = true ↔ ∃ i < rows, ∃ j < cols, (convertedElem d c i j).2.getLsbD f = true)

/-- R100, R208: a code q stands for s (q - z), exact before it is rounded to a format; a float becomes z + round (x / s), clamped, or z
with NV. -/
def QuantisedValues : Prop :=
  (∀ (f : Fmt) (r : Rnd) (n : Bool) (m q z : Nat) (e : Int),
    (q ≠ z → m ≠ 0 → narrow f r (dequant (.fin n m e) q z) = roundF f r (n != decide (q < z)) (m * ((q : Int) - z).natAbs) e) ∧
    (narrow f r (dequant (.fin n m e) z z)).1 = zeroOf f n) ∧
  (∀ (z bits : Nat) (r : Rnd) (sc v : Fv) (ns : Bool) (es : Int),
    (∀ b, quantise (.nan b) sc z bits r = (z, flagNV) ∧ quantise v (.nan b) z bits r = (z, flagNV) ∧ quantise v (.inf b) z bits r = (z, flagNV)) ∧
    quantise v (.fin ns 0 es) z bits r = (z, flagNV) ∧
    (∀ (b : Bool) (m : Nat), m ≠ 0 → quantise (.inf b) (.fin ns m es) z bits r = (if b = ns then 2 ^ bits - 1 else 0, flagOF ||| flagNX)) ∧
    (z < 2 ^ bits → (quantise v sc z bits r).1 < 2 ^ bits)) ∧
  (∀ (nx ns : Bool) (mx ms k z bits : Nat) (ex es : Int) (r : Rnd), ms ≠ 0 → (∀ t, r = .dither t → t < 64) →
    mx * 2 ^ (ex - es).toNat = k * ms * 2 ^ (es - ex).toNat →
    let t : Int := if nx = ns then (z : Int) + k else (z : Int) - k
    quantise (.fin nx mx ex) (.fin ns ms es) z bits r =
      if t < 0 then (0, flagOF ||| flagNX) else if 2 ^ bits - 1 < t then (2 ^ bits - 1, flagOF ||| flagNX) else (t.toNat, 0))

/-- Where a bitmap-sparse tile of a shape keeps element k of row j (R209): nowhere where its bit is clear, else in the group's slot, or
past S stored elements in the metadata (`true`). -/
def keptAt (sh : Word) (md : Block) (j k : Nat) : Option (Bool × Nat) :=
  let e := ewBits (shEw sh) / 8
  let size := if shDb sh then 16 else 32
  let bits := natOf (md.data.read (256 * j + 8 * (k / 64)) 8)
  let n := ((List.range (k % 64)).filter (fun t => bits.testBit t)).length
  if bits.testBit (k % 64) = false then none
  else if n < size then some (false, 256 * j + (k / 64 * size + n) * e)
  else some (true, 256 * j + 32 + (k / 64 * (64 - size) + (n - size)) * e)

/-- The element that a sparse tile `x` with metadata `md` holds at (j, k), none where it is not stored. -/
def keptElem (sh : Word) (x md : Block) (j k : Nat) : Option Nat :=
  (keptAt sh md j k).map (fun p => natOf ((if p.1 then md else x).data.read p.2 (ewBits (shEw sh) / 8)))

/-- R209, R210: TSPK stores the elements that are no zeros at the places of R209, and zeros in the places left; for q8 codes it compares
with the zero points and copies the companion rows. Whether they are q8 codes, and the size of their groups, are free values of
the model (log 48). -/
def PackResults : Prop :=
  ∀ (d : Side) (c : TileCmd) (a : Option Agent), c.kind = 8 →
    let r := (runCmd d c a).1
    let src := c.a.toNat % 2 ^ 5
    let md := c.a.toNat / 2 ^ 5 % 2 ^ 5
    let sh := d.shape c.n
    let w := ewBits (shEw sh)
    let e := w / 8
    let size := if shDb sh then 16 else 32
    let q8 : Bool := shEw sh = 1 && Config.packsCodes c.a (d.comp src).data
    let gs := 32 * 2 ^ (Config.packsGroup c.a (d.comp src).data).val
    let v (j k : Nat) : Nat := tileElem (d.tile src) w j k
    let keep (j k : Nat) : Bool := if q8 then decide (v j k ≠ zeroPoint (d.comp src) false j (k / gs)) else decide (v j k ≠ 0 ∧ v j k ≠ 2 ^ (w - 1))
    shapeUsable sh = true → shLay sh = true → src ≠ md → src ≠ c.n → md ≠ c.n → c.n < d.tiles.length → md < d.tiles.length →
    c.n < d.comps.length → (d.tile c.n).data.wf = true → (d.tile md).data.wf = true → (d.comp c.n).data.wf = true →
    KeepsRegs d r [c.n, md] [c.n] [] ∧ (runCmd d c a).2.1 = 0 ∧
    (∀ j k, j < shRows sh → k < shCols sh → keptElem sh (r.tile c.n) (r.tile md) j k = if keep j k then some (v j k) else none) ∧
    (∀ j g, j < shRows sh → g < shCols sh / 64 → let n := ((List.range 64).filter (fun t => keep j (64 * g + t))).length
      (∀ i, n ≤ i → i < size → natOf ((r.tile c.n).data.read (256 * j + (g * size + i) * e) e) = 0) ∧
      (∀ i, n ≤ size + i → i < 64 - size → natOf ((r.tile md).data.read (256 * j + 32 + (g * (64 - size) + i) * e) e) = 0)) ∧
    (∀ p, 256 * shRows sh ≤ p → (r.tile md).data.get p = (d.tile md).data.get p ∧ (r.tile c.n).data.get p = (d.tile c.n).data.get p) ∧
    (∀ i k, k < 64 → (r.comp c.n).data.get (64 * i + k) =
      if q8 = true ∧ i < shRows sh then (d.comp src).data.get (64 * i + k) else (d.comp c.n).data.get (64 * i + k))

/-- An output element of an MXGO (R113-R117, R215), over the registers `d` as a bypass has left them: quantised, FP64, or with a float
dot product; what a sparse B does not store counts as an exact zero. -/
def productElem (d : Side) (c : TileCmd) (i j : Nat) : Nat :=
  let b := c.block
  let w : Word := c.b.setWidth 32
  let fa := fmtOf (fwAf w)
  let fb := fmtOf (fwBf w)
  let wa := ewBits (fmtEw (fwAf w))
  let wb := ewBits (fmtEw (fwBf w))
  let size := 32 * 2 ^ fwG w
  let ks := List.range (blkK b)
  let old := if blkZa b then 0 else accElem d (decide (fwCf w = 0)) (blkCid b) i j
  let x (k : Nat) : Nat := tileElem (d.tile (blkAid b)) wa i k
  let y (k : Nat) : Option Nat :=
    if blkOp b % 2 = 0 then some (tileElem (d.tile (blkBid b)) wb j k)
    else keptElem (d.shape (blkBid b)) (d.tile (blkBid b)) (d.tile (blkMid b)) j k
  if 2 ≤ blkOp b then
    dotQuant fa size (d.comp (blkBid b)) (decide (fwBf w = 7)) j old (ks.map (fun k =>
      (decodeF fa (x k), (y k).getD (zeroPoint (d.comp (blkBid b)) (decide (fwBf w = 7)) j (k / size)))))
  else if fwCf w = 0 then ks.foldl (fun acc k => (fFma fp64 .rne (x k) ((y k).getD 0) acc).1) old
  else
    dotFloat fa fb (if fwAf w = 1 then 8 else if wa = 8 ∨ wb = 8 then 64 else 32) old
      (ks.map (fun k => (decodeF fa (x k), ((y k).map (decodeF fb)).getD (.fin false 0 0))))

/-- R215: an MXGO with a bypass first converts M by K elements of accumulator SID into A's tile, or takes them as they are in FP64; then
each element of the accumulator's M by N corner is the product's, and every other element stays. -/
def ProductResults : Prop :=
  ∀ (d : Side) (c : TileCmd) (a : Option Agent), c.kind = 10 →
    let b := c.block
    let w : Word := c.b.setWidth 32
    let wide := decide (fwCf w = 0)
    let fa := fmtOf (fwAf w)
    let wa := ewBits (fmtEw (fwAf w))
    let r := (runCmd d c a).1
    let rnd (i k : Nat) : Rnd := if fwRnd w = 2 then .dither (ditherT (8 * (i % 8) + k % 8) c.phi) else rndOf (BitVec.ofNat 2 (fwRnd w))
    blkM b ≤ 64 → blkN b ≤ 64 → blkCid b + (if wide then 1 else 0) < d.accs.length → (d.acc (blkCid b)).data.wf = true →
    (d.acc (blkCid b + 1)).data.wf = true → (blkOp b % 2 = 1 → shEw (d.shape (blkBid b)) = fmtEw (fwBf w)) →
    (blkByp b = true → blkAid b < d.tiles.length ∧ (d.tile (blkAid b)).data.wf = true ∧ blkK b * wa ≤ 2048 ∧ fwAf w ≠ 7) →
    ∃ d1 : Side, r.tiles = d1.tiles ∧ KeepsRegs d d1 (if blkByp b then [blkAid b] else []) [] [] ∧
      (blkByp b = true → ∀ i k, i < 64 → (k + 1) * wa ≤ 2048 → tileElem (d1.tile (blkAid b)) wa i k =
        if i < blkM b ∧ k < blkK b then
          (if fwAf w = 0 then accElem d true (blkSid b) i k else (fConvert fp32 fa (rnd i k) (accElem d false (blkSid b) i k)).1) % 2 ^ wa
        else tileElem (d.tile (blkAid b)) wa i k) ∧
      KeepsRegs d1 r [] [] (if wide then [blkCid b, blkCid b + 1] else [blkCid b]) ∧
      ∀ i j, i < 64 → j < 64 → accElem r wide (blkCid b) i j =
        if i < blkM b ∧ j < blkN b then productElem d1 c i j % 2 ^ (if wide then 64 else 32) else accElem d wide (blkCid b) i j

/-- A finite value in units of 2^emin. -/
def inUnits (emin : Int) : Fv → Int
  | .fin n m e => if n then -(m * 2 ^ (e - emin).toNat : Int) else (m * 2 ^ (e - emin).toNat : Int)
  | _ => 0

/-- R116: a quantised element takes the groups in increasing order; over finite activations a group's product is the exact sum of
(q - z) a, which leaves the accumulator as it is where it is 0, and else enters it times the scale with one rounding. -/
def GroupProducts : Prop :=
  (∀ (fa : Fmt) (size : Nat) (comp : Block) (q4 : Bool) (j acc : Nat) (xs : List (Fv × Nat)), 0 < size →
    let e : Int := 1 - (fa.bias : Int) - fa.fb
    dotQuant fa size comp q4 j acc xs = (List.range ((xs.length + size - 1) / size)).foldl (fun acc g =>
      scaleInto e acc (compScale comp j g) (groupSum e (zeroPoint comp q4 j g) ((xs.drop (size * g)).take size))) acc) ∧
  (∀ (emin : Int) (z : Nat) (xs : List (Fv × Nat)), (∀ p ∈ xs, ∃ n m e, p.1 = .fin n m e ∧ emin ≤ e) →
    groupSum emin z xs = .fin (xs.map (fun p => ((p.2 : Int) - z) * inUnits emin p.1)).sum) ∧
  (∀ (emin : Int) (acc m : Nat) (n : Bool) (e v : Int),
    scaleInto emin acc (.fin n m e) (.fin 0) = acc ∧
    (v ≠ 0 → scaleInto emin acc (.fin n m e) (.fin v) =
      (addV fp32 .rne (decodeF fp32 acc) (.fin (n != decide (v < 0)) (m * v.natAbs) (e + emin))).1))

/-- R205: TZERO empties a tile, ACCZ an accumulator or a pair, and MOVSH gives a shape. R215: an MXGO with M = 0 changes nothing; one of
two dense operands with an FP32 accumulator gives each element of the M by N corner the dot product of R113. -/
def TileCommandResults : Prop :=
  ∀ (d : Side) (c : TileCmd) (a : Option Agent),
    (c.kind = 2 → runCmd d c a = (d.setTile c.n {}, 0, false)) ∧
    (c.kind = 6 → runCmd d c a = ({ d with shapes := d.shapes.set c.n (c.a.setWidth 32) }, 0, false)) ∧
    (c.kind = 5 → let n := c.n % 16
      let cleared := if c.n / 16 % 2 = 1 then [n, n + 1] else [n]
      KeepsRegs d (runCmd d c a).1 [] [] cleared ∧ (∀ m ∈ cleared, m < d.accs.length → (runCmd d c a).1.acc m = {}) ∧ (runCmd d c a).2 = (0, false)) ∧
    (c.kind = 10 → blkM c.block = 0 → runCmd d c a = (d, 0, false)) ∧
    (let b := c.block
     let w : Word := c.b.setWidth 32
     let fa := fmtOf (fwAf w)
     let fb := fmtOf (fwBf w)
     let wa := ewBits (fmtEw (fwAf w))
     let wb := ewBits (fmtEw (fwBf w))
     c.kind = 10 → blkOp b = 0 → blkByp b = false → fwCf w ≠ 0 → blkM b ≤ 64 → blkN b ≤ 64 → blkCid b < d.accs.length →
     (d.acc (blkCid b)).data.wf = true → ∀ i j, i < 64 → j < 64 →
      accElem (runCmd d c a).1 false (blkCid b) i j =
        if i < blkM b ∧ j < blkN b then
          dotFloat fa fb (if fwAf w = 1 then 8 else if wa = 8 ∨ wb = 8 then 64 else 32)
            (if blkZa b then 0 else accElem d false (blkCid b) i j)
            ((List.range (blkK b)).map (fun k =>
              (decodeF fa (tileElem (d.tile (blkAid b)) wa i k), decodeF fb (tileElem (d.tile (blkBid b)) wb j k)))) % 2 ^ 32
        else accElem d false (blkCid b) i j)

end Sys2Proof.Claims

namespace Sys2Proof.Claims

/-! ### The keyed store (R183-R194) -/

/-- A KACC or KFIND of a configured partition executes normally: a lane is active in it, no cause of R55 applies, its pairs under the
configuration among them (R41, R187), its token has room, and the checks of checked mode pass for the registers `uses` (R32, R39). -/
structure KeyedReady (i : LInstr) (s : State) (b : Bundle) (g : Group) (t : Team) (p : Keyed) (uses : Use) : Prop extends Issues s b g t where
  whole   : b.Whole
  active  : g.activeOf b 1 ≠ 0
  part    : p = keyedOf s t b.core
  known   : p.configured = true
  legal   : keyedLegality i p t false g.fe.handler = none
  room    : ∀ k, i.use.tok = some k → g.fe.room k = true
  waited  : underWait (g.issued b 1) uses (g.activeOf b 1) = []
  uniform : notUniform (g.issued b 1) uses (g.activeOf b 1) = false

/-- What a KFIND reads and writes under a configuration (R192). -/
def kfindUse (p : Keyed) (d a : VReg) (k : Tok) : Use :=
  { src := [(a, if kWide p.cfg then 2 else 1)], dst := [(d, 1)], tok := some k }

/-- The field of an entry that KFIND selects, 0 for an absent key (R192). -/
def keyedField (p : Keyed) (sel : BitVec 7) (l : Lane) (a : VReg) : Word :=
  match p.entries.find? (fun e => e.key = if kWide p.cfg then l.pair a.toNat else (l.reg a.toNat).setWidth 64) with
  | none => 0
  | some e => if sel = 0 then e.val.setWidth 32 else if sel = 1 then (e.val >>> 32).setWidth 32 else if sel = 2 then e.count else e.aux

/-- A turn of an ordered partition (R190): the group as the lanes of a bundle arrive, `h` the split they are of; the lanes `set` that
perform it: those whose turn trapped and is replayed, or every live lane once all of them stand there; the group and the bundle
as they issue, and the state. -/
structure TurnOpens (i : LInstr) (s : State) (b : Bundle) (g : Group) (t : Team) (p : Keyed) (h : Bool) (set : LaneSet)
    (b2 : Bundle) (g2 : Group) (s2 : State) : Prop extends Issues s b g t where
  part    : p = keyedOf s t b.core
  known   : p.configured = true
  ordered : kOrd p.cfg = true
  legal   : keyedLegality i p t false g.fe.handler = none
  split   : h = decide ((b.lanes &&& g.members true) ≠ 0)
  lanes   : replayLanes (g.arrived b) b.unit = 0 ∧ (g.arrived b).fullAt h = some b.unit ∧ set = (g.arrived b).members h ∨
    replayLanes (g.arrived b) b.unit = set ∧ ∀ j ∈ lanesIn set, ((g.arrived b).lane j).park = .join ∧
      ((g.arrived b).lane j).gather = .uset ∧ ((g.arrived b).lane j).pc = b.unit
  some_   : set ≠ 0
  turn    : currentTurn (s.setGroup (g.arrived b)) t b.core = g.index
  bundle  : b2 = { b with lanes := set }
  group2  : g2 = { (leaveJoin (g.arrived b) set b.unit) with
    replay := (if activeAt (leaveJoin (g.arrived b) set b.unit) b2 = 0 then none else some (b.unit, activeAt (leaveJoin (g.arrived b) set b.unit) b2)) }
  state   : s2 = { s.setGroup g2 with issue := b2 :: s.issue.drop 1 }

/-! ### Tile commands (R201-R210) -/

/-- A command as it enters its queue (R201). -/
def command (x : Ix) (kind : Nat) (n : BitVec 5) (a b : DWord) : TileCmd :=
  { id := 0, word := x.word, kind := kind, a := a, b := b, n := n.toNat, slot := x.slot, op := 0 }

/-- What a move of rows registers (R204, R251): for a load its reads, for a store its lines; its ranges in either case. -/
def rowUse (x : Ix) (n : Nat) (offs : List Nat) (load : Bool) (place : Nat → Nat) : TileUse :=
  { steps := if load then rowReads x.t x.core n offs place else [], ranges := rowRanges x.t n offs, dst := !load
    lines := if load then [] else (rowRanges x.t n offs).flatMap (fun r =>
      let core := if r.1 = 1 then partnerOf x.core else x.core
      linesOf (scratchLoc core ((x.t.side core).base * 64 + r.2.1)) r.2.2) }

/-- The moves of R204 and R206: kind, number, scalars, and whether they load. -/
def moveForm : UInstr → Option (Nat × BitVec 5 × SReg × SReg × Tok)
  | .tld a b k n => some (0, n, a, b, k)
  | .tst a b k n => some (1, n, a, b, k)
  | .accld a b k n => some (3, n, a, b, k)
  | .accst a b k n => some (4, n, a, b, k)
  | .tqld a k n => some (9, n, a, 0, k)
  | _ => none

end Sys2Proof.Claims

open Sys2Proof.Claims

/-- R183-R192: KACC over an unordered partition takes its active lanes in lane order, each seeing the lanes before it; the
statuses are on their way, and the stream's records go to an agent. With room in the stream it releases first and its range
must be free, mapped and writable. -/
def Sys2Proof.Claims.KeyedAccumulate : Prop :=
  ∀ (d a c : VReg) (k : Tok) (s s0 : State) (b : Bundle) (g : Group) (t : Team) (p : Keyed),
    s.bundle? = some b → s.teamOf b.core b.slot = some t → p = keyedOf s t b.core → kOrd p.cfg = false →
    (streamRoom p = 0 ∧ s0 = s ∨ streamRoom p ≠ 0 ∧ release s b.core b.slot 4 = (s0, true)) →
    let i : LInstr := .kacc d a c k
    let x := Issues.ix i b g t 1
    KeyedReady i s0 b g t p (kaccUse p d a c k) →
    let s1 := if streamRoom p = 0 then s0.issued b g 1 else (s0.issued b g 1).touchRange t.ctx (streamVa p) (streamRoom p)
    (streamRoom p ≠ 0 → rangeFault s1 t.ctx (streamVa p) (streamRoom p) .write = none ∧ mayLock s1 b.core (ticketOf s1 x) 1 = true) →
    exec (Code.l i).instr s = .next (unitEnd b x (kaccRun d a c k x s1 (g.issued b 1) p))

/-- R187, R188: one lane's turn. A key that is present is combined; an absent one is allocated below the limit; at the limit
EVICT-OLDEST appends the entry of lowest sequence and takes its place, SPILL-INCOMING appends the incoming record, TRAP traps
with cause 3, and an append without a free record traps with cause 2. -/
def Sys2Proof.Claims.KeyedTurn : Prop :=
  ∀ (t : Team) (core : Nat) (r : KeyedRun) (x : KeyedIn), r.trap = none →
    (∀ e, r.part.entries.find? (fun e => e.key = x.key) = some e →
      (keyedLane t core r x).part.entries = r.part.entries.map (fun o => if o.key = x.key then
        { e with val := (kCombine (kOp r.part.cfg) e.val x.val e.aux).1, aux := (kCombine (kOp r.part.cfg) e.val x.val e.aux).2
                 count := if e.count = 0xFFFFFFFF then e.count else e.count + 1 } else o) ∧
      (keyedLane t core r x).res = r.res ++ [(x.lane, 0, if e.count = 0xFFFFFFFF then e.count else e.count + 1)] ∧
      (keyedLane t core r x).part.next = r.part.next ∧ (keyedLane t core r x).recs = r.recs ∧ (keyedLane t core r x).trap = none) ∧
    ((∀ e ∈ r.part.entries, e.key ≠ x.key) →
      (r.part.entries.length < kLimit r.part.cfg →
        ∃ e, (keyedLane t core r x).part.entries = r.part.entries ++ [e] ∧ e.key = x.key ∧ e.count = 1 ∧ e.seqNo = r.part.next ∧
          (keyedLane t core r x).part.next = r.part.next + 1 ∧ (keyedLane t core r x).res = r.res ++ [(x.lane, 1, 1)] ∧
          (keyedLane t core r x).trap = none) ∧
      (kLimit r.part.cfg ≤ r.part.entries.length →
        (kPol r.part.cfg = 2 → keyedLane t core r x = { r with trap := some 3, left := [x.lane] }) ∧
        (kPol r.part.cfg ≠ 2 → r.part.len.toNat ≤ r.part.pos.toNat → keyedLane t core r x = { r with trap := some 2, left := [x.lane] }) ∧
        (kPol r.part.cfg = 0 → r.part.pos.toNat < r.part.len.toNat → r.part.entries ≠ [] → ∃ o e, o ∈ r.part.entries ∧
          (∀ q ∈ r.part.entries, o.seqNo.toNat ≤ q.seqNo.toNat) ∧ e.key = x.key ∧ e.count = 1 ∧ e.seqNo = r.part.next ∧
          (keyedLane t core r x).part.entries = r.part.entries.filter (fun q => q.key ≠ o.key) ++ [e] ∧
          (keyedLane t core r x).recs = r.recs ++ [keyedRecord t core 1 o] ∧ (keyedLane t core r x).part.pos = r.part.pos + 1 ∧
          (keyedLane t core r x).res = r.res ++ [(x.lane, 3, 1)]) ∧
        (kPol r.part.cfg = 1 → r.part.pos.toNat < r.part.len.toNat → ∃ e : KeyedEntry, e.key = x.key ∧ e.count = 1 ∧ e.seqNo = r.part.next ∧
          (keyedLane t core r x).part.entries = r.part.entries ∧ (keyedLane t core r x).part.next = r.part.next + 1 ∧
          (keyedLane t core r x).recs = r.recs ++ [keyedRecord t core 2 e] ∧ (keyedLane t core r x).res = r.res ++ [(x.lane, 2, 0)])))

/-- R190: over an ordered partition KACC and KFIND are turns. The lanes park until every live lane stands at the unit and the
turnstile is at the group's index; then the turn is performed once, and passes the turnstile on when no lane is left to replay
it. A turn with no lane active passes it at once. -/
def Sys2Proof.Claims.KeyedTurns : Prop :=
  ∀ (d a c : VReg) (k : Tok) (s : State) (b : Bundle) (g : Group) (t : Team) (p : Keyed) (h : Bool),
    (∀ (i : LInstr) (sel : BitVec 7), (i = .kfind d a sel k ∨ (i = .kacc d a c k ∧ streamRoom p = 0)) → Issues s b g t →
      p = keyedOf s t b.core → p.configured = true → kOrd p.cfg = true →
      keyedLegality i p t false g.fe.handler = none → h = decide ((b.lanes &&& g.members true) ≠ 0) →
      replayLanes (g.arrived b) b.unit = 0 →
      ((g.arrived b).fullAt h ≠ some b.unit ∨ currentTurn (s.setGroup (g.arrived b)) t b.core ≠ g.index) →
      exec (Code.l i).instr s = .next (settleJoins (s.pop.setGroup (g.arrived b)) b.core b.slot)) ∧
    (∀ (sel : BitVec 7) (set : LaneSet) (b2 : Bundle) (g2 : Group) (s2 : State),
      let i : LInstr := .kfind d a sel k
      let x := Issues.ix i b2 g2 t 1
      TurnOpens i s b g t p h set b2 g2 s2 → KeyedReady i s2 b2 g2 t p (kfindUse p d a k) →
      exec (Code.l i).instr s = .next (unitEnd b2 x (launch x k
        ((lanesIn (g2.activeOf b2 1)).map (fun j => (j, { writes := w32 d (keyedField p sel ((g2.issued b2 1).lane j) a) })))
        (passTurn ((s2.issued b2 g2 1).setGroup { (g2.issued b2 1) with replay := none }) t b.core)))) ∧
    (∀ (s0 : State) (set : LaneSet) (b2 : Bundle) (g2 : Group) (s2 : State),
      let i : LInstr := .kacc d a c k
      let x := Issues.ix i b2 g2 t 1
      s.bundle? = some b → s.teamOf b.core b.slot = some t → p = keyedOf s t b.core →
      (streamRoom p = 0 ∧ s0 = s ∨ streamRoom p ≠ 0 ∧ release s b.core b.slot 4 = (s0, true)) →
      TurnOpens i s0 b g t p h set b2 g2 s2 → KeyedReady i s2 b2 g2 t p (kaccUse p d a c k) →
      let s1 := if streamRoom p = 0 then s2.issued b2 g2 1 else (s2.issued b2 g2 1).touchRange t.ctx (streamVa p) (streamRoom p)
      (streamRoom p ≠ 0 → rangeFault s1 t.ctx (streamVa p) (streamRoom p) .write = none ∧ mayLock s1 b.core (ticketOf s1 x) 1 = true) →
      exec (Code.l i).instr s = .next (unitEnd b2 x (kaccRun d a c k x s1 (g2.issued b2 1) p))) ∧
    (∀ (sel : BitVec 7) (set : LaneSet) (b2 : Bundle) (g2 : Group) (s2 : State),
      let i : LInstr := .kfind d a sel k
      TurnOpens i s b g t p h set b2 g2 s2 → b.Whole → activeAt g2 b2 = 0 →
      exec (Code.l i).instr s = .next (unitEnd b2 (Issues.ix i b2 g2 t 1) ((passTurn s2 t b.core).issued b2 g2 1)))

/-- R190: how a turn ends: with no lane left the turnstile goes to the next live group index of the team on the core, wrapping
from the highest to the lowest; with lanes left it stays, and they alone replay the unit. -/
def Sys2Proof.Claims.TurnstileAdvances : Prop :=
  ∀ (x : Ix) (s : State) (g : Group) (t : Team), s.group? x.core x.slot = some g → s.team? x.t.id = some t →
    kOrd (keyedOf s x.t x.core).cfg = true → x.b.hits = [] →
    (∀ left : LaneSet, left ≠ 0 → endTurn x left s = s.setGroup { g with replay := some (x.b.unit, left) }) ∧
    (let s1 := s.setGroup { g with replay := none }
     let ls := liveIndexes s1 t.id x.core
     let now := currentTurn s1 x.t x.core
     let next := match ls.find? (fun j => decide (now < j)) with | some j => j | none => ls.headD 0
     x.t.id = t.id → endTurn x 0 s = s1.setTeam (t.setSide { t.side x.core with turnstile := next }))

/-- R192: KFIND gives the selected field of the entry of each lane's key, 0 for an absent one, and changes nothing else. -/
def Sys2Proof.Claims.KeyedFind : Prop :=
  ∀ (d a : VReg) (sel : BitVec 7) (k : Tok) (s : State) (b : Bundle) (g : Group) (t : Team) (p : Keyed),
    let i : LInstr := .kfind d a sel k
    KeyedReady i s b g t p (kfindUse p d a k) → kOrd p.cfg = false →
    exec (Code.l i).instr s = .next (unitEnd b (Issues.ix i b g t 1) (launch (Issues.ix i b g t 1) k
      ((lanesIn (g.activeOf b 1)).map (fun j => (j, { writes := w32 d (keyedField p sel ((g.issued b 1).lane j) a) })))
      (s.issued b g 1)))

/-- R184, R185, R194: KCFG configures the partition empty, KCFG.stream replaces its stream, KCLR empties it, KSTAT reads
it. -/
def Sys2Proof.Claims.KeyedControl : Prop :=
  ∀ (s s1 : State) (x : Ix) (k : Tok) (p : Keyed), p = keyedOf s1 x.t x.core →
    (∀ (a b : SReg), UReady (.kcfg a b k) s x s1 → (x.t.det = true → kOrd (sval s1 x a) = true ∨ groupsOnCore x.t x.core ≤ 1) →
      configOk (sval s1 x a) x.t.kas = true → streamOk (sval s1 x b) = true →
      exec (Code.u (.kcfg a b k)).instr s = .next (uEnd x (opAtOnce x k (setKeyed s1 x.t x.core
        { configured := true, cfg := sval s1 x a, base := BitVec.ofNat 64 ((sval s1 x b).toNat % 2 ^ 29)
          len := BitVec.ofNat 64 ((sval s1 x b).toNat / 2 ^ 32) })))) ∧
    (∀ b : SReg, UReady (.kcfgStream b k) s x s1 → p.configured = true → streamOk (sval s1 x b) = true →
      exec (Code.u (.kcfgStream b k)).instr s = .next (uEnd x (opAtOnce x k (setKeyed s1 x.t x.core
        { p with base := BitVec.ofNat 64 ((sval s1 x b).toNat % 2 ^ 29), len := BitVec.ofNat 64 ((sval s1 x b).toNat / 2 ^ 32), pos := 0 })))) ∧
    (UReady (.kclr k) s x s1 → exec (Code.u (.kclr k)).instr s = .next (uEnd x (opAtOnce x k
      (if p.configured then setKeyed s1 x.t x.core { p with entries := [], next := 0, pos := 0 } else s1)))) ∧
    (∀ (a : SReg) (n : BitVec 5), UReady (.kstat a k n) s x s1 →
      exec (Code.u (.kstat a k n)).instr s = .next (uEnd x (launchScalar x k a
        (if p.configured = false then 0
         else if n = 0 then BitVec.ofNat 64 (p.entries.length % 2 ^ 32 + 2 ^ 32 * (p.pos.toNat % 2 ^ 32))
         else if n = 1 then p.next.setWidth 64 else p.cfg) s1)))

/-- R193: KDRAIN takes every entry, by increasing sequence, and hands the records to an agent with its destination locked;
the partition is empty, its next sequence number and its stream are kept. -/
def Sys2Proof.Claims.KeyedDrain : Prop :=
  ∀ (a b : SReg) (k : Tok) (n : BitVec 5) (s s1 s2 s3 : State) (x : Ix) (p : Keyed) (off cap : Nat), UReady (.kdrain a b k n) s x s1 →
    p = keyedOf s1 x.t x.core → p.configured = true → off = (sval s1 x a).toNat → cap = (sval s1 x b).toNat →
    p.entries.length ≤ cap → off % 32 = 0 →
    (n = 0 → off + 32 * cap ≤ Config.windowBytes ∧ s2 = s1.touchRange x.t.ctx (Config.windowBase + off) (32 * cap) ∧
      rangeFault s2 x.t.ctx (Config.windowBase + off) (32 * cap) .write = none) →
    (n ≠ 0 → s2 = s1 ∧ (scratchAt x.t x.core off (32 * cap)).isSome) →
    mayLock s2 x.core (ticketOf s2 x) (if cap = 0 then 0 else 1) = true → release s2 x.core x.slot (if n = 0 then 4 else 1) = (s3, true) →
    ∃ u, exec (Code.u (.kdrain a b k n)).instr s = .next (uEnd x u) ∧
      (cap = 0 → u = opAtOnce x k (leaveLocks (setKeyed s3 x.t x.core { (p) with entries := [] }) x)) ∧
      (cap ≠ 0 → ∃ ag ∈ u.agents, ∃ lk ∈ u.locks,
        ag.buf = Memory.write [] 0 ((bySeq p.entries).map (keyedRecord x.t x.core 4)).flatten ∧ ag.kind = 4 ∧ ag.ctx = x.t.ctx ∧
        lk.dst = true ∧ lk.len = 32 * cap ∧ lk.agent = ag.id ∧ lk.core = x.core ∧ lk.kind = 4 ∧
        u.agents = s3.agents ++ [ag] ∧ u.locks = s3.locks ++ [lk])

/-- R202-R206, R251: a move of a tile, a companion or an accumulator block whose rows pass their checks enters the queue with
its ranges. -/
def Sys2Proof.Claims.TileMoves : Prop :=
  ∀ (i : UInstr) (kind : Nat) (n : BitVec 5) (a b : SReg) (k : Tok), moveForm i = some (kind, n, a, b, k) →
  ∀ (s s1 : State) (x : Ix) (rows : List Nat) (sh : Word) (w : DWord), UReady i s x s1 →
    sh = queuedShape (sideOf s1 x) n.toNat → w = sval s1 x b →
    (kind = 0 ∨ kind = 1 → shapeUsable sh = true ∧ rows = (List.range (shRows sh)).map (fun r => ((sval s1 x a).toNat + r * w.toNat) % 2 ^ 64) ∧
      rowFault x.t x.core (elemBytes (shEw sh)) (rowBytes sh) rows = none →
      exec (Code.u i).instr s = .next (uEnd x (enqueue x k (command x kind n (sval s1 x a) w)
        (rowUse x (rowBytes sh) rows (decide (kind = 0)) (fun r => 256 * r)) s1))) ∧
    (kind = 9 → shapeUsable sh = true ∧ rows = (List.range (shRows sh)).map (fun r => ((sval s1 x a).toNat + r * 64) % 2 ^ 64) ∧
      rowFault x.t x.core 64 64 rows = none →
      exec (Code.u i).instr s = .next (uEnd x (enqueue x k (command x kind n (sval s1 x a) 64)
        (rowUse x 64 rows true (fun r => 64 * r)) s1))) ∧
    (kind = 3 ∨ kind = 4 → blockBad w (if accWide n.toNat then 8 else 4) = false ∧
      rows = (List.range (w.toNat / 2 ^ 24 % 2 ^ 7)).map (fun r => ((sval s1 x a).toNat + r * (w.toNat % 2 ^ 24)) % 2 ^ 64) ∧
      rowFault x.t x.core (if accWide n.toNat then 8 else 4) ((if accWide n.toNat then 8 else 4) * (w.toNat / 2 ^ 31 % 2 ^ 7)) rows = none →
      exec (Code.u i).instr s = .next (uEnd x (enqueue x k (command x kind n (sval s1 x a) w)
        (rowUse x ((if accWide n.toNat then 8 else 4) * (w.toNat / 2 ^ 31 % 2 ^ 7)) rows (decide (kind = 3))
          (fun r => (if accWide n.toNat then 8 else 4) * 64 * r)) s1)))

/-- R203, R205, R207, R210: TZERO, ACCZ, MOVSH, TCVT and TSPK whose operands pass their checks enter the queue with the values
they took at issue; a dithered TCVT takes the phase and advances it. -/
def Sys2Proof.Claims.TileOperations : Prop :=
  ∀ (s s1 : State) (x : Ix) (k : Tok) (n : BitVec 5),
    (UReady (.tzero k n) s x s1 → exec (Code.u (.tzero k n)).instr s = .next (uEnd x (enqueue x k (command x 2 n 0 0) {} s1))) ∧
    (UReady (.accz k n) s x s1 → exec (Code.u (.accz k n)).instr s = .next (uEnd x (enqueue x k (command x 5 n 0 0) {} s1))) ∧
    (∀ a, UReady (.movsh a k n) s x s1 → (sval s1 x a).toNat < 2 ^ 32 → shapeValid ((sval s1 x a).setWidth 32) = true →
      exec (Code.u (.movsh a k n)).instr s = .next (uEnd x (enqueue x k (command x 6 n (sval s1 x a) 0) {} s1))) ∧
    (∀ a, UReady (.tspk a k n) s x s1 → tspkCauses x.t (sideOf s1 x) (sval s1 x a) n.toNat = [] →
      exec (Code.u (.tspk a k n)).instr s = .next (uEnd x (enqueue x k (command x 8 n (sval s1 x a) 0) {} s1))) ∧
    (∀ a g, UReady (.tcvt a k n) s x s1 → s1.group? x.core x.slot = some g → x.lan = false →
      tcvtCauses x.t (sideOf s1 x) false (sval s1 x a) n.toNat = [] →
      exec (Code.u (.tcvt a k n)).instr s = .next (uEnd x (enqueue x k
        { (command x 7 n (sval s1 x a) 0) with phi := g.phase x.act, rnd := (fpcRm (g.fpcFor (g.lane ((lanesIn x.act).headD 0)))).toNat } {}
        (if tcvtRnd (sval s1 x a) = 4 then s1.setGroup (advancePhase g x.act 1) else s1)))) ∧
    (∀ a, UReady (.tcvt a k n) s x s1 → s1.group? x.core x.slot = none → x.lan = true →
      tcvtCauses x.t (sideOf s1 x) true (sval s1 x a) n.toNat = [] →
      exec (Code.u (.tcvt a k n)).instr s = .next (uEnd x (enqueue x k (command x 7 n (sval s1 x a) 0) {} s1)))

/-- R31, R201, R202: a command that needs no range-lock entry stands last in its queue, with an operation that its token counts; the
team's registers and the earlier commands stay, but that a store may take its bytes. -/
def Sys2Proof.Claims.TileCommandQueues : Prop :=
  ∀ (x : Ix) (k : Tok) (c : TileCmd) (s : State) (t : Team) (f : Front), s.team? x.t.id = some t → (∃ d ∈ t.sides, d.core = x.core) →
    (drainQueue s x.core x.slot).front? x.core x.slot = some f → (∀ o ∈ f.ops, o.id ≠ (drainQueue s x.core x.slot).ids) →
    (x.lan = true ↔ ¬ x.slot < 128) →
    let unprimed (c : TileCmd) : TileCmd := { c with primed := false }
    let op : LongOp := { id := (drainQueue s x.core x.slot).ids, tok := k, inH := x.h, lanes := x.act, owed := true, scope := 1 }
    ∃ t1 f1 n, (enqueue x k c {} s).team? x.t.id = some t1 ∧ (enqueue x k c {} s).front? x.core x.slot = some f1 ∧
      (t1.side x.core).queue.map unprimed = (t.side x.core).queue.map unprimed ++
        [unprimed { c with id := n, slot := x.slot, op := op.id, agent := none }] ∧
      f1.ops = f.ops ++ [op] ∧ f1.tok = bump k f.tok ∧ f1.sq = f.sq ∧
      (t1.side x.core).tiles = (t.side x.core).tiles ∧ (t1.side x.core).comps = (t.side x.core).comps ∧
      (t1.side x.core).accs = (t.side x.core).accs ∧ (t1.side x.core).shapes = (t.side x.core).shapes

/-- R211-R213, R217: an MXGO whose active lanes agree on the format word, and whose block is present and passes every check of
R213, enters the queue with its block and phase; a bypass that dithers with the phase of DPH advances it, when there is a tile to
make (R110, R215). -/
def Sys2Proof.Claims.MatrixWord : Prop :=
  ∀ (a : VReg) (r : SReg) (k : Tok) (s : State) (b : Bundle) (g : Group) (t : Team) (w : Word) (off : DWord) (loc : Nat) (blk : List Byte),
    let i : LInstr := .mxgo a r k
    let x := Issues.ix i b g t 1
    let s1 := s.issued b g 1
    let g1 := g.issued b 1
    LReady i s b g t → (∀ j ∈ lanesIn (g.activeOf b 1), (g1.lane j).reg a.toNat = w) →
    off = g1.scalarFor (g1.lane ((lanesIn (g.activeOf b 1)).headD 0)) r.toNat →
    Passes s1 t b.core g.fe.sq .load 64 off.toNat loc false .scratch → blk = s1.loadBytes b.core g.fe.sq loc 64 →
    mxgoFault s1 t (sideOf s1 x) w blk = none →
    exec (Code.l i).instr s = .next (unitEnd b x (enqueue x k
      { id := 0, word := i.encode, kind := 10, a := off, b := w.setWidth 64, slot := b.slot, op := 0, block := blk
        phi := if blkDps blk then blkPh blk % 64 else g1.phase (g.activeOf b 1)
        lane := (lanesIn (g.activeOf b 1)).headD 0, addr := b.unit.setWidth 64 } {}
      (if blkByp blk = true ∧ fwRnd w = 2 ∧ blkDps blk = false ∧ blkM blk ≠ 0 then s1.setGroup (advancePhase g1 (g.activeOf b 1) 1) else s1)))

/-- R110-R117, R211-R215, R217: MXGO, as it issues and as its command completes. -/
def Obligations.MatrixWord : Prop := Claims.MatrixWord ∧ ProductResults ∧ GroupProducts

/-- R219-R221: a CPY whose checks pass supplies its slice to the team's instance. -/
def Sys2Proof.Claims.TeamCopies : Prop :=
  ∀ (i : UInstr) (fn : Nat) (a b : SReg) (k : Tok),
    (i = .cpyIn a b k ∧ fn = 0 ∨ i = .cpyOut a b k ∧ fn = 1 ∨ i = .cpyCc a b k ∧ fn = 2) →
  ∀ (s s1 s2 : State) (x : Ix) (src dst len desc : DWord), UReady i s x s1 →
    src = sval s1 x a → dst = sval s1 x (a + 1) → len = sval s1 x (a + 2) → desc = sval s1 x b →
    arvIllegal desc = false → cpyEarly s1 x.t x.core fn src dst len desc = none →
    s2 = (let s := if fn = 1 then s1 else s1.touchRange x.t.ctx src.toNat len.toNat
          if fn = 0 then s else s.touchRange x.t.ctx dst.toNat len.toNat) →
    cpyPages s2 x.t fn src dst len = .ok →
    exec (Code.u i).instr s = .next (uEnd x (supply x k (mkSlice s2 x fn
      (if x.lan then 0 else ((s2.group? x.core x.slot).map (fun (h : Machine.Group) => h.index)).getD 0) src dst len desc) s2))

/-- R153, R220, R222, R223, R317: an instance that starts has one agent, whose steps are its slices' in the order of their groups,
those that reach TSO pages by rising address,
one journal entry for each slice, and its ranges in the lock tables; the lines it will write read as absent. -/
def Sys2Proof.Claims.CopyInstanceStarts : Prop :=
  ∀ (s : State) (t : Team) (n : Nat) (xs : List Slice),
    let u := startInstance s t n xs
    let ys := xs.foldr insertByGroup []
    (∃ ag, u.agents = s.agents ++ [ag] ∧ ag.steps = instanceSteps ys ∧ ag.kind = 0 ∧ ag.ctx = t.ctx ∧ ag.lines = ys.flatMap (sliceLines t) ∧
      u.locks.length = s.locks.length + (ys.map (fun y => y.locks.length)).sum ∧ (∀ l ∈ s.locks, l ∈ u.locks)) ∧
    (ys.length ≤ 1 → instanceSteps ys = joinSteps 0 ys) ∧
    (1 < ys.length → ∃ ts, List.Perm ts (tsoSteps 0 ys) ∧ ts.Pairwise (fun x y => x.1 ≤ y.1) ∧
      instanceSteps ys = (joinSteps 0 ys).filter (fun st => !(st.tsoRead || st.tsoWrite)) ++ ts.map (·.2)) ∧
    u.journal.length = s.journal.length + xs.length ∧ (∀ l ∈ ys.flatMap (sliceLines t), l ∈ u.absent) ∧ (∀ l ∈ s.absent, l ∈ u.absent) ∧
    u.mem = s.mem

/-- R224: a CUPOP whose checks pass starts an agent that takes its source by lines and its elements in address order, with
its ranges locked. -/
def Sys2Proof.Claims.BankOperations : Prop :=
  ∀ (a b : SReg) (k : Tok) (n : BitVec 5) (s s1 s2 s3 : State) (x : Ix) (dst src cnt c : DWord) (e : Nat),
    UReady (.cupop a b k n) s x s1 → dst = sval s1 x a → src = sval s1 x (a + 1) → cnt = sval s1 x (a + 2) → c = sval s1 x b →
    e = cupBytes n.toNat → (x.t.det = true → n.toNat < 3) → dst.toNat % e = 0 → dst.toNat + e * cnt.toNat ≤ Config.windowBytes →
    (2 ≤ n.toNat → src.toNat % e = 0 ∧ src.toNat + e * cnt.toNat ≤ Config.windowBytes) →
    s2 = (let s := s1.touchRange x.t.ctx (Config.windowBase + dst.toNat) (e * cnt.toNat)
          if n.toNat < 2 then s else s.touchRange x.t.ctx (Config.windowBase + src.toNat) (e * cnt.toNat)) →
    rangeFault s2 x.t.ctx (Config.windowBase + dst.toNat) (e * cnt.toNat) .write = none →
    (2 ≤ n.toNat → rangeFault s2 x.t.ctx (Config.windowBase + src.toNat) (e * cnt.toNat) .read = none) →
    mayLock s2 x.core (ticketOf s2 x) (if cnt = 0 then 0 else if n.toNat < 2 then 1 else 2) = true → release s2 x.core x.slot 4 = (s3, true) →
    ∃ u, exec (Code.u (.cupop a b k n)).instr s = .next (uEnd x u) ∧
      (cnt = 0 → u = opAtOnce x k (leaveLocks s3 x)) ∧
      (cnt ≠ 0 → ∃ ag, u.agents = s3.agents ++ [ag] ∧ ag.kind = 1 ∧
        ag.steps = cupSteps s3 x.t.ctx n.toNat c (Config.windowBase + dst.toNat) (Config.windowBase + src.toNat) cnt.toNat ∧
        u.locks.length = s3.locks.length + (if n.toNat < 2 then 1 else 2) ∧ u.mem = s3.mem)

namespace Sys2Proof.Claims

/-! ### Control registers (R240) -/

/-- The registers of R240 as a group reads them: `f` its front, `g` the group, `h` whether it is in its handler. -/
def registerOf (s : State) (x : Ix) (f : Front) (g : Group) (h : Bool) : Nat → DWord
  | 0 => g.fpc.setWidth 64
  | 1 => g.dph.setWidth 64
  | 2 => g.dbgc.setWidth 64
  | 3 => g.specm.setWidth 64
  | 4 => g.specr.setWidth 64
  | 5 => f.cdepth.setWidth 64
  | 6 => if h then f.epc.setWidth 64 else 0
  | 7 => if h then f.ecause.setWidth 64 else 0
  | 8 => (s.ctx x.t.ctx).hbase
  | 9 => (s.ctx x.t.ctx).sideb
  | 10 => (s.ctx x.t.ctx).ctxc.setWidth 64
  | 11 => seedOf s x.t
  | 12 => Config.archv.setWidth 64
  | 13 => BitVec.ofNat 64 x.t.slot
  | 14 => BitVec.ofNat 64 x.t.ctx
  | 15 => BitVec.ofNat 64 x.core
  | _ => BitVec.ofNat 64 x.slot

/-- s60 to s63 as the record holds them, at offset 64 of the slot's 256 bytes (R305, R306). -/
def savedScalars (bs : List Byte) : List DWord := (List.range 4).map (fun i => BitVec.ofNat 64 (natOf ((bs.drop (8 * i)).take 8)))

end Sys2Proof.Claims

open Sys2Proof.Claims

/-- R232, R233, R241: POST with CTXC.DPOST set, its record aligned and readable, releases at device scope and starts an agent
that reads the record; the result reaches sb when that completes. -/
def Sys2Proof.Claims.PostWord : Prop :=
  ∀ (a b : SReg) (k : Tok) (n : BitVec 5) (s s1 s2 s3 : State) (x : Ix) (off : Nat) (parts : List (Nat × Nat × Nat)),
    UReady (.post a b k n) s x s1 → (s1.ctx x.t.ctx).ctxc.getLsbD 2 = true → off = (sval s1 x a).toNat → off % 64 = 0 →
    s2 = (if n = 1 ∧ off + 128 ≤ Config.windowBytes then s1.touchRange x.t.ctx (Config.windowBase + off) 128 else s1) →
    (n = 1 → off + 128 ≤ Config.windowBytes ∧ rangeFault s2 x.t.ctx (Config.windowBase + off) 128 .read = none ∧
      parts = (virtParts s2 x.t.ctx (Config.windowBase + off) 128 0).map (fun p => (p.1, p.2.1, p.2.2.1))) →
    (n ≠ 1 → ∃ loc, scratchAt x.t x.core off 128 = some loc ∧ parts = lineParts 4 loc 128 0) →
    release s2 x.core x.slot 4 = (s3, true) →
    ∃ u ag, exec (Code.u (.post a b k n)).instr s = .next (uEnd x u) ∧ u.agents = s3.agents ++ [ag] ∧ ag.kind = 8 ∧ ag.ctx = x.t.ctx ∧
      ag.steps = parts.map (fun p => .read p.1 p.2.1 p.2.2 false) ∧ (∃ op, ag.fin = .post x.core x.slot op b) ∧ u.tasks = s3.tasks ∧ u.mem = s3.mem

/-- R232, R234: ARRIVE on a slot of the context's range releases at device scope, subtracts its count and completes. -/
def Sys2Proof.Claims.ArriveWord : Prop :=
  ∀ (a b : SReg) (k : Tok) (s s1 s2 : State) (x : Ix), UReady (.arrive a b k) s x s1 → (sval s1 x b).toNat < 2 ^ 32 →
    slotIn s1 x.t.ctx (sval s1 x a).toNat = true → release s1 x.core x.slot 4 = (s2, true) →
    exec (Code.u (.arrive a b k)).instr s = .next (uEnd x (opAtOnce x k
      (loseStanding (arriveTask s2 (sval s1 x a).toNat (sval s1 x b).toNat) x.t.id)))

/-- R234: what a count does to a counter: nothing for 0 or a FREE slot, the difference above 0, and at 0 or below it the
counter is 0, a WAITING task is READY, and the overrun bit is set below 0. Of another task nothing changes but that it blocks no
lower-ranked one, and counts no skips, once a task that goes before it is in the order (R288). -/
def Obligations.CountersCountDown : Prop :=
  ∀ (s : State) (slot n : Nat),
    (s.task? slot = none ∨ n = 0 → arriveOnce s slot n = s) ∧
    (∀ t, s.task? slot = some t → 0 < n →
      (n < t.counter.toNat → (arriveOnce s slot n).task? slot = some { t with counter := BitVec.ofNat 32 (t.counter.toNat - n) } ∧
        ∀ m, m ≠ slot → (arriveOnce s slot n).task? m = s.task? m) ∧
      (t.counter.toNat ≤ n → ∃ u, (arriveOnce s slot n).task? slot = some u ∧ u.counter = 0 ∧
        (t.state = .waiting → u.state = .ready) ∧ (t.counter.toNat < n → u.overrun = true) ∧ (t.counter.toNat = n → u.overrun = t.overrun) ∧
        u.record = t.record ∧ u.ctx = t.ctx) ∧
      (∀ m v, m ≠ slot → s.task? m = some v → ∃ u, (arriveOnce s slot n).task? m = some u ∧
        { u with blocking := false, skipped := none } = { v with blocking := false, skipped := none }))

/-- R235: APPEND to an unsealed ragged task of the context puts the record behind the last one and raises the count word, by which
the task may enter the dispatch order (R288); SEAL seals it. -/
def Sys2Proof.Claims.AppendAndSeal : Prop :=
  ∀ (s s1 : State) (x : Ix) (a : SReg) (k : Tok) (task : Task), (s1.ctx x.t.ctx).ctxc.getLsbD 2 = true →
    raggedTask s1 x.t.ctx (sval s1 x a).toNat = some task →
    (∀ (b : SReg) (n : BitVec 5) (s2 s3 s4 s5 : State) (off num : Nat) (parts : List (Nat × Nat × Nat)) (cnt : List Byte),
      UReady (.append a b k n) s x s1 → task.sealed = false → off = (sval s1 x b).toNat →
      s2 = (if n = 1 ∧ off + 32 ≤ Config.windowBytes then s1.touchRange x.t.ctx (Config.windowBase + off) 32 else s1) →
      (n = 1 → off + 32 ≤ Config.windowBytes ∧ rangeFault s2 x.t.ctx (Config.windowBase + off) 32 .read = none ∧
        parts = (virtParts s2 x.t.ctx (Config.windowBase + off) 32 0).map (fun p => (p.1, p.2.1, p.2.2.1))) →
      (n ≠ 1 → ∃ loc, scratchAt x.t x.core off 32 = some loc ∧ parts = lineParts 2 loc 32 0) →
      let u2 := s2.windowTouch x.t.ctx (recTeams task.record) 4
      windowFault u2 x.t.ctx (recTeams task.record) 4 .both = none → release u2 x.core x.slot 4 = (s3, true) →
      windowBytes s3 x.t.ctx (recTeams task.record) 4 = some cnt → num = natOf cnt →
      let u3 := s3.windowTouch x.t.ctx (recTeams task.record + 32 + 32 * num) 32
      windowFault u3 x.t.ctx (recTeams task.record + 32 + 32 * num) 32 .write = none →
      (∀ p ∈ parts, u3.anyPoison p.1 p.2.1 = false) →
      windowWrite u3 x.t.ctx (recTeams task.record + 32 + 32 * num) (parts.flatMap (fun p => u3.bytes p.1 p.2.1)) = some s4 →
      windowWrite s4 x.t.ctx (recTeams task.record) (bytesOf 4 (num + 1)) = some s5 →
      exec (Code.u (.append a b k n)).instr s =
        .next (uEnd x (opAtOnce x k (loseStanding (appended s3 (sval s1 x a).toNat s5) x.t.id)))) ∧
    (∀ (s2 : State) (t : Task), UReady (.seal a k) s x s1 → release s1 x.core x.slot 4 = (s2, true) → s2.task? (sval s1 x a).toNat = some t →
      exec (Code.u (.seal a k)).instr s = .next (uEnd x (opAtOnce x k
        (loseStanding (closeTask (s2.setTask { t with sealed := true }) (sval s1 x a).toNat) x.t.id).settled)))

/-- R236: WAITBM goes on with an acquire when its bit is set, and else parks the group or lantern until it is. -/
def Sys2Proof.Claims.WaitOnBitmap : Prop :=
  ∀ (a b : SReg) (s s1 : State) (x : Ix) (off : Nat) (bit : Nat) (p : Page), UReady (.waitbm a b) s x s1 →
    off = ((sval s1 x a).toNat + (sval s1 x b).toNat / 8) % 2 ^ 64 → bit = (sval s1 x b).toNat % 8 → off < Config.windowBytes →
    (x.t.det = true → ownLaterBit s1 x.t off bit = false) →
    let s2 := s1.touch x.t.ctx (Config.windowBase + off)
    windowPage s2 x.t.ctx off .read = .ok p →
    ((s2.byte p.loc).getLsbD bit = true → exec (Code.u (.waitbm a b)).instr s = .next (uEnd x (s2.acquire x.core 4))) ∧
    ((s2.byte p.loc).getLsbD bit = false →
      exec (Code.u (.waitbm a b)).instr s = .next (uEnd x (waitAtUnit s2 x .bitmap (.bitmap off bit))))

/-- R237: TBAR and PBAR release at team and pair scope, and wait; the barrier is complete when every live group of the team waits
at one. -/
def Sys2Proof.Claims.Barriers : Prop :=
  ∀ (i : UInstr) (scope : Nat), (i = .tbar ∧ scope = 1 ∨ i = .pbar ∧ scope = 2) →
  ∀ (s s1 s2 : State) (x : Ix) (g : Group) (ok : Bool), UReady i s x s1 → x.lan = false → release s1 x.core x.slot scope = (s2, ok) →
    s2.group? x.core x.slot = some g →
    exec (Code.u i).instr s = .next (uEnd x (finishBarrier (s2.setGroup
      { (g.upd x.act (fun _ l => { l with park := .wait, gather := .uset, pc := x.b.unit, next := x.b.pos + 4 })) with
        waiting := .barrier scope }) x.t.id))

/-- R36, R238: DQPUSH and DQPOP with a token are held in order of issue, their token counting them. Without one DQPUSH puts its
value into the queue where it has room and no earlier push waits, and else parks the lantern; DQPOP parks its group until its
entry comes. Then one operation that can take effect does. -/
def Sys2Proof.Claims.QueueWords : Prop :=
  ∀ (s s1 : State) (x : Ix) (a : SReg) (k : Tok) (t : Team), s1.team? x.t.id = some t →
    (UReady (.dqpush a k) s x s1 → k = 15 →
      let s2 := drainQueue s1 x.core x.slot
      (t.dq.length < 16 ∧ (∀ h ∈ t.held, h.push = false) →
        exec (Code.u (.dqpush a k)).instr s = .next (uEnd x (servePush (s2.setTeam { t with dq := t.dq ++ [sval s1 x a] }) x.t.id))) ∧
      (16 ≤ t.dq.length ∨ (∃ h ∈ t.held, h.push = true) →
        exec (Code.u (.dqpush a k)).instr s = .next (uEnd x (servePush (waitAtUnit s2 x .queue (.push (sval s1 x a))) x.t.id)))) ∧
    (UReady (.dqpush a k) s x s1 → k ≠ 15 → t.held.length < 32 →
      let s2 := drainQueue s1 x.core x.slot
      let s3 := startOp s2 x.core x.slot { id := s2.ids, tok := k, inH := x.h, lanes := x.act, owed := true, scope := 1 }
      exec (Code.u (.dqpush a k)).instr s = .next (uEnd x (servePush (s3.setTeam { t with held := t.held ++
        [{ push := true, slot := x.slot, core := x.core, sa := a, tok := k, op := s2.ids, value := sval s1 x a }] }) x.t.id))) ∧
    (UReady (.dqpop a k) s x s1 → k = 15 →
      exec (Code.u (.dqpop a k)).instr s = .next (uEnd x (servePop (waitAtUnit s1 x .queue (.queue a)) x.t.id))) ∧
    (UReady (.dqpop a k) s x s1 → k ≠ 15 → t.held.length < 32 →
      let s3 := startOp s1 x.core x.slot
        { id := s1.ids, tok := k, inH := x.h, lanes := x.act, owed := true, scope := 1, dst := if a = 0 then [] else [.s a.toNat] }
      exec (Code.u (.dqpop a k)).instr s = .next (uEnd x (servePop (s3.setTeam { t with held := t.held ++
        [{ push := false, slot := x.slot, core := x.core, sa := a, tok := k, op := s1.ids }] }) x.t.id)))

/-- R36, R238: a push takes effect only while fewer than 16 entries are queued, and puts its value last; a pop takes the first
entry, or all ones from an empty queue whose lantern has retired or was never declared. None takes effect during a save (R318). -/
def Sys2Proof.Claims.QueueOrder : Prop :=
  ∀ (s : State) (t : Team), s.team? t.id = some t →
    (s.saving t.ctx = true → servePush s t.id = s ∧ servePop s t.id = s) ∧ (16 ≤ t.dq.length → servePush s t.id = s) ∧
    (∀ v h, s.saving t.ctx = false → t.dq.length < 16 → nextPush s t = some (v, some h) → ∃ t1, (servePush s t.id).team? t.id = some t1 ∧ t1.dq = t.dq ++ [v]) ∧
    (∀ v l, s.saving t.ctx = false → t.dq.length < 16 → nextPush s t = some (v, none) → s.lanterns.find? (fun (l : Lantern) => l.team = t.id) = some l →
      servePush s t.id = goOn (s.setTeam { t with dq := t.dq ++ [v] }) l.core l.slot) ∧
    (∀ c n a h v rest, s.saving t.ctx = false → nextPop s t = some (c, n, a, some h) → t.dq = v :: rest →
      ∃ t1, (servePop s t.id).team? t.id = some t1 ∧ t1.dq = rest) ∧
    (∀ v rest, t.dq = v :: rest → popValue t = some (v, rest)) ∧
    (t.dq = [] → (t.lantern = true ∧ t.lanternRetired = false → popValue t = none) ∧
      (t.lantern = false ∨ t.lanternRetired = true → popValue t = some (0xFFFFFFFFFFFFFFFF, [])))

/-- R239, R240: GETC gives the registers of R240, in a group and in the lantern, where registers 0 to 4 read 0. In a
deterministic task SPECM, SPECR, TASK, CTXID, CORE and GSLOT trap (R335) and are not meant here. -/
def Sys2Proof.Claims.ReadControl : Prop :=
  ∀ (d : SReg) (n : BitVec 6) (s s1 : State) (x : Ix) (f : Front), UReady (.getc d n) s x s1 → s1.front? x.core x.slot = some f →
    (x.t.det = true → n.toNat ≠ 3 ∧ n.toNat ≠ 4 ∧ n.toNat < 13) →
    (∀ g, x.lan = false → s1.group? x.core x.slot = some g →
      exec (Code.u (.getc d n)).instr s = .next (uEnd x (setSval s1 x d (registerOf s1 x f g x.h n.toNat)))) ∧
    (x.lan = true → exec (Code.u (.getc d n)).instr s = .next (uEnd x (setSval s1 x d
      (if n.toNat < 5 then 0 else registerOf s1 x f { core := 0, slot := 0, team := 0, index := 0, width := 0, lanes := [] } x.h n.toNat))))

/-- R18, R19, R239, R240: SETC writes FPC (without its reserved bits), DPH.PHASE, SPECM and SPECR, each seen by every live lane
from its 4th instruction on, and in a handler EPC (outside one it is illegal: the model's reading, log 85); in the lantern it writes EPC only. -/
def Sys2Proof.Claims.WriteControl : Prop :=
  ∀ (d : BitVec 6) (a : SReg) (s s1 : State) (x : Ix), UReady (.setc d a) s x s1 →
    (∀ g, x.lan = false → s1.group? x.core x.slot = some g →
      let w : Word := (sval s1 x a).setWidth 32
      let g1 (r : GReg) (old : Word) := g.upd g.liveLanes (fun _ l => l.keepOld r (old.setWidth 64))
      (d = 0 → exec (Code.u (.setc d a)).instr s = .next (uEnd x (s1.setGroup { (g1 .fpc g.fpc) with fpc := w &&& 0x3F7F }))) ∧
      (d = 1 → exec (Code.u (.setc d a)).instr s = .next (uEnd x (s1.setGroup { (g1 .dph g.dph) with dph := w &&& 0x3F }))) ∧
      (d = 3 → exec (Code.u (.setc d a)).instr s = .next (uEnd x (s1.setGroup { (g1 .specm g.specm) with specm := w }))) ∧
      (d = 4 → exec (Code.u (.setc d a)).instr s = .next (uEnd x (s1.setGroup { (g1 .specr g.specr) with specr := w }))) ∧
      (d = 6 → exec (Code.u (.setc d a)).instr s = .next (uEnd x (s1.setGroup { g with fe := { g.fe with epc := (sval s1 x a).setWidth 48 } })))) ∧
    (∀ l, x.lan = true → s1.lantern? x.core x.slot = some l →
      exec (Code.u (.setc d a)).instr s = .next (if d = 6 then s1.setLantern { l with pend := l.pend ++ [{ dst := .s 64, val := sval s1 x a, left := 4 }] } else s1))

/-- R312, R313: ERET over the split, with nothing left of the handler's operations or checked mode off, and no other split
waiting: the handler ends, the split's lanes stand settled at EPC, and s60 to s63 come back from the record. -/
def Sys2Proof.Claims.ReturnFromHandler : Prop :=
  ∀ (s s1 : State) (x : Ix) (g : Group) (o : Nat) (bs : List Byte), UReady .eret s x s1 → x.lan = false → x.slot < 128 → s1.group? x.core x.slot = some g →
    g.traps = [] → g.dbgc.getLsbD 0 = false → (fpcChk g.fpc = false ∨ ∀ n ∈ g.fe.hk, n = 0) →
    recordOff s1 x.t.ctx x.core x.slot = some o → windowBytes s1 x.t.ctx (o + 64) 32 = some bs →
    ∃ u h, exec (Code.u .eret).instr s = .next u ∧ u.group? x.core x.slot = some h ∧
      h.fe.handler = false ∧ h.fe.s = g.fe.s.take 60 ++ savedScalars bs ∧ h.fe.tok = g.fe.tok ∧
      (∀ j ∈ lanesIn x.act, j < g.lanes.length → (h.lane j).pc = BitVec.ofNat 48 (g.fe.epc.toNat / 4 * 4) ∧ (h.lane j).park = .none ∧
        (h.lane j).handler = false ∧ (h.lane j).v = (g.lane j).settle.v ∧ (h.lane j).p = (g.lane j).settle.p) ∧ u.mem = s1.mem

/-- R242: SYNCE waits at its join for every operation in flight, and with none goes on with an acquire at their scopes, its pending
writes settled: a group's at the join, the lantern's by SYNCE itself. -/
def Sys2Proof.Claims.WaitForOperations : Prop :=
  ∀ (s s1 : State) (x : Ix) (f : Front), UReady .synce s x s1 → s1.front? x.core x.slot = some f →
    (f.ops = [] → x.lan = false → exec (Code.u .synce).instr s = .next (uEnd x
      ((s1.setFront x.core x.slot { f with acqs := [] }).acquire x.core (f.acqs.foldl (fun m d => max m d.2) 0)))) ∧
    (∀ l, f.ops = [] → x.lan = true → s1.lantern? x.core x.slot = some l → exec (Code.u .synce).instr s = .next
      ((s1.setLantern ({ l with fe := { l.fe with acqs := [] } } : Lantern).settle).acquire x.core (f.acqs.foldl (fun m d => max m d.2) 0))) ∧
    (f.ops ≠ [] → exec (Code.u .synce).instr s = .next (uEnd x (waitAtUnit s1 x .wait .synce)))

namespace Sys2Proof.Claims

/-! ### The front end and its events (R28, R31, R33, R59-R61) -/

/-- A PC is aged (R59): it has been passed over in 64 of its group's issue cycles in which it was ready. -/
def aged (g : Machine.Group) (pc : Addr) : Bool := (ageOf g pc).aged || decide (64 ≤ (ageOf g pc).missed)

/-- R59: of the units at which a group is ready it chooses at most two, both among them; none goes before the first, and
none but the first before the second. It chooses none only where it is ready at none. An aged PC goes before one that is not;
of two aged ones that selected longest ago, of two others the more populous, and a tie goes to the lower PC. R17: of two that
count on one token with room for one more, the one with more lanes issues. R75: PCs that a YIELD withholds are left out, and
the model leaves out none where all would be (log 105). -/
def UnitSelection : Prop :=
  ∀ (g : Machine.Group) (cs : List Cand),
    (chosen g cs = [] ↔ cs = []) ∧
    (∀ a rest, chosen g cs = a :: rest → a ∈ cs ∧ (∀ c ∈ cs, before g c a = false) ∧ rest.length ≤ 1 ∧
      ∀ b ∈ rest, b ∈ cs ∧ b ≠ a ∧ ∀ c ∈ cs, c ≠ a → before g c b = false) ∧
    (∀ a b : Cand,
      (aged g a.pc = true → aged g b.pc = false → before g a b = true ∧ before g b a = false) ∧
      (aged g a.pc = true → aged g b.pc = true → (before g a b = true ↔
        (ageOf g a.pc).last < (ageOf g b.pc).last ∨ ((ageOf g a.pc).last = (ageOf g b.pc).last ∧ a.pc.toNat < b.pc.toNat))) ∧
      (aged g a.pc = false → aged g b.pc = false → (before g a b = true ↔
        (lanesIn b.lanes).length < (lanesIn a.lanes).length ∨ ((lanesIn b.lanes).length = (lanesIn a.lanes).length ∧ a.pc.toNat < b.pc.toNat)))) ∧
    (∀ (a b : Cand) (k : Tok), a.counts g = some k → b.counts g = some k → k ≠ 15 → g.fe.count k = 14 →
      countLanes b.lanes < countLanes a.lanes → fitToken g [a, b] = [a] ∧ fitToken g [b, a] = [a]) ∧
    (∀ (a b : Cand) (k : Tok), a.counts g = some k → b.counts g = some k → g.fe.count k ≤ 13 → fitToken g [a, b] = [a, b]) ∧
    (∀ c : Cand, c ∈ candidates g cs ↔ c ∈ cs ∧ (c.pc ∉ g.withheld ∨ ∀ e ∈ cs, e.pc ∈ g.withheld))

/-- R59, R134, R138, R161, R295-R297: a core cycle in which one group of the core is ready, once what it begins with is past
(`beginCycle`): the core counts it; accesses that have waited, and lanes that only arrive at a join, have bundles of their own; the
group issues the units it chooses past those a YIELD withholds, the lower PC first; the ages of its ready PCs go on, and its bay's
classes count this cycle but for those of the units that issue. A group of 64 lanes keeps its bay for the next cycle too. -/
def OneGroupIssues : Prop :=
  ∀ (core : Nat) (s : State) (g : Machine.Group) (cs : List Cand),
    (∀ b ∈ s.issue, b.core ≠ core) → core < 256 →
    let s2 := beginCycle s core
    s2.groups.filter (fun (x : Machine.Group) => x.core = core) = [g] → (∀ l ∈ s2.lanterns, l.core ≠ core) →
    g.retired = false → g.bay < 4 → readyUnits s2 g = cs → cs ≠ [] → (s2.coreState core).busy.getD g.bay false = false →
    let old := s2.coreState core
    let picks : List Cand := match fitToken g (chosen g (candidates g cs)) with
      | [a, b] => if a.pc.toNat < b.pc.toNat then [a, b] else [b, a]
      | l => l
    let kinds : List Nat := picks.map (fun c => classIn s2 g c.unit.word)
    exec (.issueCycle core) s = .next
      { ((s2.setGroup { g with ages := nextAges g cs picks, issues := g.issues + 1, lastIssue := old.cycles.toNat + 1, withheld := [] }).setCoreState
          { old with cycles := old.cycles + 1
                     ages := (upFrom 0 4).map (fun b => (upFrom 0 8).map (fun k =>
                       if b = g.bay ∧ k ∈ kinds then 0 else (old.ages.getD b []).getD k 0 + 1))
                     busy := (upFrom 0 4).map (fun b => decide (b = g.bay ∧ g.width = 64)) }) with
        issue := s2.issue ++ g.wakes s2 ++ (arrivals s2 g).map (fun c => c.bundle core g.slot) ++ picks.map (fun c => c.bundle core g.slot) }

/-- R59: a PC that has been passed over 64 times is aged. -/
def PcAges : Prop :=
  ∀ (core slot : Nat) (pc : Addr) (s : State) (g : Machine.Group), s.group? core slot = some g →
    exec (.pcAged core slot pc) s = .next (s.setGroup { g with ages := g.ages.map (fun a =>
      if a.pc = pc ∧ 64 ≤ a.missed then { a with aged := true } else a) })

/-- R31, R227: a result of a long-latency operation lands in its lane's registers, and the operation owes one landing less; with
its last it completes. A lane of a split GATH then goes on, settled. Here the lane is live and not speculated, its group takes
no single step, and nothing of the result comes from a device found unreachable. -/
def ResultsLand : Prop :=
  ∀ (core slot op lane : Nat) (s : State) (g : Machine.Group) (t : Team) (o : LongOp) (d : Land),
    slot < 128 → s.group? core slot = some g → s.teamOf core slot = some t → g.fe.ops.find? (fun x => x.id = op) = some o →
    o.lands.find? (fun x => x.lane = lane) = some d → d.fid = none → (d.split = true → g.dbgc.getLsbD 0 = false) →
    (∀ w ∈ d.writes, ∀ r, w.1 ≠ .s r) → (g.lane lane).live = true → (g.lane lane).spec = none →
    exec (.longLatencyComplete core slot op lane) s = .next (tryEntry (s.setGroup
      { (g.upd (laneBit lane) (fun _ l =>
          let l1 := d.writes.foldl (fun l w => l.landOne w.1 w.2 0) l
          if d.split = true ∧ l.park = .splitGather then { l1.settle with park := .none, pc := l1.next } else l1)) with
        fe := (g.fe.updOp op (fun o => { o with lands := o.lands.filter (fun x => x.lane ≠ lane) })).finish op }) core slot)

/-- R72: the slot of a retired group whose operations have completed is free. -/
def SlotFrees : Prop :=
  ∀ (core slot : Nat) (s : State) (g : Machine.Group), s.group? core slot = some g → g.retired = true → g.liveLanes = 0 →
    g.fe.ops = [] → g.poison = [] →
    ∃ u, exec (.groupSlotFree core slot) s = .next u ∧ u.group? core slot = none ∧
      (∀ c n, ¬(c = core ∧ n = slot) → u.group? c n = s.group? c n) ∧ u.mem = s.mem ∧ u.teams = s.teams

/-! ### Speculation (R34) -/

/-- What the resolution makes of one lane: whether it was predicted wrongly, and the lane. -/
def resolved (rec : SpecRec) (l : Lane) (sp : SpecLane) : Bool × Lane :=
  let take := l.predBefore rec.p.toNat != rec.neg
  let pc := if take then rec.disp else rec.pc + 4
  match sp.taken with
  | none => (false, { l with spec := none, pc := pc, waited := false })
  | some t =>
    if t = take then (false, { l with spec := none, pend := l.pend.map (fun p => { p with spec := 0 }) })
    else
      let l1 := sp.undo.foldl (fun (l : Lane) u => l.put u.dst u.val) l
      (true, { l1 with spec := none, pend := l1.pend.filter (fun p => p.spec = 0), olds := [], park := .none, gather := .none
                       want := none, ticket := none, waited := false, pc := pc })

/-- R34: once the branch's token counts nothing, each lane of the record is resolved: one held at the branch takes its true
path, one predicted rightly goes on as it is, and one predicted wrongly has its writes undone and goes back to its true
path. SPECR grows by the instructions of the wrong ones and SPECM by one if there are any; the token's completions are
acquired, deferred traps are taken, those of the unit at the lower PC first (R309), and joins settle. -/
def SpeculationEnds : Prop :=
  (∀ (rec : SpecRec) (g : Machine.Group) (wrong : Bool) (ds : List (Nat × Deferred)) (i : Nat) (sp : SpecLane),
    i < g.lanes.length → i < 64 → (g.lane i).spec = some sp →
    let r := resolveLane rec (g, wrong, ds) i
    r.1.lane i = (if (resolved rec (g.lane i) sp).1 ∧ (∃ l ∈ g.lanes, ∃ o ∈ l.olds, o.reg = .specr) then r.1.lane i
                  else (resolved rec (g.lane i) sp).2) ∧
    r.2.1 = (wrong || (resolved rec (g.lane i) sp).1) ∧
    (∀ j, j ≠ i → (∀ l ∈ g.lanes, ∀ o ∈ l.olds, o.reg ≠ .specr) → r.1.lane j = g.lane j) ∧
    ((∀ l ∈ g.lanes, ∀ o ∈ l.olds, o.reg ≠ .specr) →
      r.1.specr = g.specr + (if (resolved rec (g.lane i) sp).1 then BitVec.ofNat 32 sp.count else 0)) ∧
    r.2.2 = ds ++ (if (resolved rec (g.lane i) sp).1 ∨ sp.taken = none then [] else (sp.deferred.map (fun d => (i, d))).toList)) ∧
  (∀ (core slot : Nat) (s : State) (g g1 : Machine.Group) (t : Team) (rec : SpecRec) (wrong : Bool) (ds : List (Nat × Deferred)),
    s.group? core slot = some g → s.teamOf core slot = some t → g.spec = some rec → g.fe.count rec.tok = 0 →
    (lanesIn (g.where (fun _ l => l.spec.isSome))).foldl (resolveLane rec) (g, false, []) = (g1, wrong, ds) →
    exec (.speculationResolve core slot) s = .next (tryEntry (settleJoins (takeDeferred core slot t
      (acquireToken (s.setGroup { (if wrong then g1.growSpec .specm 1 else g1) with spec := none }) core slot (some rec.tok)) ds)
      core slot) core slot)) ∧
  (∀ (core slot : Nat) (t : Team) (s : State) (ds : List (Nat × Deferred)), ∃ es : List (Nat × Deferred), List.Perm es ds ∧
    es.Pairwise (fun x y => x.2.unit.toNat ≤ y.2.unit.toNat) ∧ takeDeferred core slot t s ds = takeDeferred core slot t s es ∧
    ∀ d : Nat × Deferred, takeDeferred core slot t s [(d.1, d.2)] = (if d.2.vec = 0xFFFF
      then killBadLanes (laterIx core slot t d.2.unit (d.2.unit + 4) d.2.word d.2.pfx 0 false) [d.1] s
      else raise s core slot { unit := d.2.unit, word := d.2.word, pfx := d.2.pfx, tcode := d.2.tcode, next := d.2.next }
        [{ lane := d.1, vec := d.2.vec, cause := d.2.cause, addr := d.2.addr, report := d.2.report }]))

/-! ### Units that go on (R69, R73, R74, R236, R237, R242, R253) -/

/-- R30: lanes that waited at their unit go on past it, settled, and the unit has the effect that it waited for. -/
def WaitersGoOn : Prop :=
  ∀ (s : State) (core slot : Nat) (g : Machine.Group) (act : State → State), slot < 128 → s.group? core slot = some g →
    let s1 := s.setGroup { (g.upd (g.where (fun _ l => l.live && l.want.isNone && l.ticket.isNone &&
      (l.park = .wait || l.park = .bitmap || l.park = .queue || l.park = .presence)))
        (fun _ l => { l.settle with park := .none, pc := l.next })) with waiting := .none }
    (∀ h, (act s1).group? core slot = some h → h.dbgc.getLsbD 0 = false) → goOn s core slot act = act s1

/-- The events by which parked lanes go on, each when its condition holds. Each look at a bit that WAITBM waits for translates its
byte again, and goes on only where the bit is set (the model's reading: log 111). Those that wait for range-lock entries perform their unit again in the order in which they
came, when none of the core waits before them (R253). -/
def ParkedUnitsGoOn : Prop :=
  ∀ (core slot : Nat) (s : State) (g : Machine.Group) (t : Team), slot < 128 → s.group? core slot = some g → s.teamOf core slot = some t →
    (∀ m, (g.tryJoin false m).2 ≠ 0 → exec (.joinRelease core slot m) s = .next (settleJoins s core slot)) ∧
    (∀ off bit, g.waiting = .bitmap off bit → let s1 := s.touch t.ctx (Config.windowBase + off)
      (∀ p, windowPage s1 t.ctx off .read = .ok p → (s1.byte p.loc).getLsbD bit = true →
        exec (.waitbmProceed core slot) s = .next (goOn (s1.acquire core 4) core slot)) ∧
      ((∀ p, windowPage s1 t.ctx off .read = .ok p → (s1.byte p.loc).getLsbD bit = false) →
        exec (.waitbmProceed core slot) s = .next s1)) ∧
    (g.waiting = .synce → g.fe.ops = [] → exec (.synceProceed core slot) s =
      .next (goOn ((s.setFront core slot { g.fe with acqs := [] }).acquire core (g.fe.acqs.foldl (fun m d => max m d.2) 0)) core slot)) ∧
    (∀ n, g.lanes.length ≤ 64 → (∃ l ∈ g.lanes, l.live = true ∧ l.park = .wait ∧ l.ticket = some n) →
      (∀ l ∈ g.lanes, l.live = true → l.park = .wait → ∀ m, l.ticket = some m → n ≤ m) →
      (mayLock s core (some n) 1 = true → exec (.rangeLockGrant core slot) s = .next (s.setGroup
        (g.upd (g.where (fun _ l => l.live && l.want.isNone && l.park = .wait && decide (l.ticket = some n)))
          (fun _ l => { l.settle with park := if l.gather = .uset then .join else .none })))) ∧
      (mayLock s core (some n) 1 = false → exec (.rangeLockGrant core slot) s = .next s)) ∧
    (∀ (mine : Option Nat) (n : Nat), 0 < n → (mayLock s core mine n = true ↔ s.lockFree core n = true ∧
      ∀ w ∈ lockWaiters s core, ∃ m, mine = some m ∧ m ≤ w))

/-- R237, R238: a barrier at which every live group of the team waits completes, each group going on with an acquire at its
scope; the queue serves its pops and pushes in order. -/
def TeamEvents : Prop :=
  ∀ (team : Nat) (s : State),
    (∀ sc : Machine.Group → Nat, (∃ g ∈ s.groups, g.team = team ∧ g.liveLanes ≠ 0) →
      (∀ g ∈ s.groups, g.team = team → g.liveLanes ≠ 0 → g.waiting = .barrier (sc g)) →
      exec (.barrierComplete team) s = .next ((s.groups.filter (fun g => g.team = team && g.liveLanes ≠ 0)).foldl
        (fun s g => goOn (s.acquire g.core (sc g)) g.core g.slot) s)) ∧
    exec (.dqpopDeliver team) s = .next (servePush (servePop s team) team)

/-- The first registers of a lane as its group starts (R27): v0 the lane, v1 the thread, the others zero. -/
def freshRegs (index width lane n : Nat) : List Word :=
  (upFrom 0 n).map (fun r => if r = 0 then BitVec.ofNat 32 lane else if r = 1 then BitVec.ofNat 32 (index * width + lane) else 0)

/-- R73: a group whose live lanes all stand at EXITS with one successor starts again there: every lane is live, keeps its
first n vector registers, has p0 alone set, and every mask and requirement is empty. Under SSTEP its lanes trap at the successor
(R315), which is not meant here. -/
def ExitsRestarts : Prop :=
  ∀ (core slot : Nat) (s : State) (g : Machine.Group) (a : DWord) (n : Nat), s.group? core slot = some g →
    g.exitsAt false = some (a, n) → g.fe.ops = [] → g.lanes.length ≤ 64 → g.dbgc.getLsbD 0 = false →
    ∃ u h, exec (.exitsRestart core slot) s = .next u ∧ u.group? core slot = some h ∧
      h.m = List.replicate 16 0 ∧ h.q = List.replicate 16 0 ∧ h.x = List.replicate 16 0 ∧ h.lanes.length = g.lanes.length ∧
      (∀ j < g.lanes.length,
        (h.lane j).live = true ∧ (h.lane j).park = .none ∧ (h.lane j).pc = BitVec.ofNat 48 (a.toNat / 4 * 4) ∧ (h.lane j).p = 1 ∧
        (h.lane j).v = (g.lane j).settle.v.take n ++ (freshRegs g.index g.width j (g.lane j).settle.v.length).drop n ∧
        (h.lane j).draws = (g.lane j).draws ∧ (h.lane j).rng = (g.lane j).rng) ∧
      h.fe = g.fe ∧ u.mem = s.mem ∧ u.teams = s.teams

/-- R74: a team's one live group at REGROUP: the lanes in which p holds fill lanes 0 upwards, in lane order, with their first
n registers, their draw counters and their thread identities; the lanes above retire. The model reads p as each lane had it when it
arrived (log 104). Under SSTEP the lanes trap at the fall-through (R315), which is not meant here. -/
def RegroupPacks : Prop :=
  ∀ (team : Nat) (s : State) (g : Machine.Group) (pc : Addr) (p : PReg) (n : Nat),
    s.groups.filter (fun g => g.team = team && g.liveLanes ≠ 0) = [g] → s.group? g.core g.slot = some g → g.regroupAt = some (pc, p, n) →
    g.fe.ops = [] → g.lanes.length ≤ 64 → g.dbgc.getLsbD 0 = false →
    let old := lanesIn (g.where (fun _ l => l.live && l.pred p.toNat))
    ∃ u h, exec (.regroupPack team) s = .next u ∧ u.group? g.core g.slot = some h ∧ h.lanes.length = g.lanes.length ∧
      (∀ j k, old[j]? = some k →
        (h.lane j).live = true ∧ (h.lane j).park = .none ∧ (h.lane j).pc = (g.lane ((lanesIn g.liveLanes).headD 0)).next ∧
        (h.lane j).v = (g.lane k).settle.v.take n ++ (freshRegs g.index g.width j (g.lane j).v.length).drop n ∧
        (h.lane j).draws = (g.lane k).draws ∧ (h.lane j).rng = (g.lane k).rng) ∧
      (∀ j, old.length ≤ j → (h.lane j).live = false)

/-! ### Entering a handler (R305, R306, R309, R310) -/

/-- The bytes of a side-buffer record (R306), by offset: size and value. -/
def recordFields (t : TrapSplit) (flags : Nat) (epc : Addr) (f : Front) : List (Nat × Nat × Nat) :=
  [(0, 8, epc.toNat), (8, 4, t.word.toNat), (12, 4, (t.pfx.map (fun p => 2 ^ 31 + p.toNat)).getD 0), (16, 2, t.vec), (18, 1, flags), (19, 1, 0)
   , (20, 4, t.tcode.toNat), (24, 8, t.lanes.toNat), (40, 8, t.addr.toNat), (48, 8, 0), (56, 8, 0)
   , (64, 8, (f.sreg 60).toNat), (72, 8, (f.sreg 61).toNat), (80, 8, (f.sreg 62).toNat), (88, 8, (f.sreg 63).toNat)]

/-- R306: the record has 256 bytes: its fields, a cause byte for each of 64 lanes at 96, and zeros. -/
def RecordLayout : Prop :=
  ∀ (t : TrapSplit) (flags : Nat) (epc : Addr) (f : Front),
    (recordBytes t flags epc f).length = 256 ∧
    (∀ e ∈ recordFields t flags epc f, ((recordBytes t flags epc f).drop e.1).take e.2.1 = bytesOf e.2.1 e.2.2) ∧
    (∀ k < 15, (natOf (((recordBytes t flags epc f).drop 32).take 8)) / 16 ^ k % 16 = f.tok.getD k 0 % 16 ∨ f.tok.length ≠ 15) ∧
    (∀ j < 64, (recordBytes t flags epc f).getD (96 + j) 0 = BitVec.ofNat 8 (((t.causes.find? (fun c => c.1 = j)).map (·.2)).getD 0)) ∧
    (∀ j, 160 ≤ j → j < 256 → (recordBytes t flags epc f).getD j 0 = 0)

/-- R309, R310, R316: the oldest split of a group enters its handler when no handler runs, no branch is speculated and the
operations its lanes issued before have completed; in a stopped group, the oldest that stops it. The record is written, EPC and
ECAUSE are set, and its lanes, settled, stand at HBASE plus the vector with an acquire at device scope; the other splits wait.
The lantern's record holds its scalars settled. Here no store of the group is queued. -/
def HandlersStart : Prop :=
  (∀ (core slot : Nat) (s s1 : State) (g : Machine.Group) (t : TrapSplit) (team : Team),
    slot < 128 → s.group? core slot = some g → s.team? g.team = some team → g.fe.handler = false → g.spec = none →
    g.traps.find? (fun t => !g.stopped || t.stops) = some t → t.marks = 0 → (∀ o ∈ g.fe.ops, o.id ∉ t.ops) →
    writeRecord (touchRecord s team.ctx core slot) team.ctx core slot 0 (recordBytes t (1 + (if t.wide then 8 else 0)) t.epc g.fe) = some s1 →
    exec (.trapEntry core slot) s = .next ((s1.setGroup
      { (g.upd t.lanes (fun _ l => { l.settle with
          park := .none, gather := .none, handler := true, waited := false, want := none, ticket := none
          pc := addrOf ((s.ctx team.ctx).hbase + BitVec.ofNat 64 t.vec) })) with
        traps := g.traps.filter (fun x => x ≠ t)
        fe := { g.fe with handler := true, epc := t.epc, ecause := BitVec.ofNat 32 t.vec } }).acquire core 4)) ∧
  (∀ (core slot : Nat) (s s1 : State) (l : Lantern) (t : TrapSplit) (rest : List TrapSplit) (team : Team),
    ¬ slot < 128 → s.lantern? core slot = some l → s.team? l.team = some team → l.fe.handler = false →
    l.traps = t :: rest → t.marks = 0 → (∀ o ∈ l.fe.ops, o.id ∉ t.ops) →
    writeRecord (touchRecord s team.ctx core slot) team.ctx core slot 0
      (recordBytes t (5 + (if t.wide then 8 else 0)) t.epc l.settle.fe) = some s1 →
    exec (.trapEntry core slot) s = .next ((s1.setLantern
      { l.settle with
        park := .none, traps := rest, counted := false, pc := addrOf ((s.ctx team.ctx).hbase + BitVec.ofNat 64 t.vec)
        fe := { l.settle.fe with handler := true, epc := t.epc, ecause := BitVec.ofNat 32 t.vec } }).acquire core 4))

/-! ### Stores on their way (R139-R143) -/

/-- R139, R140: the oldest entry of a store queue leaves: into the scratchpad, or to the end of the core's outbound channel;
its operation has one store less. -/
def EntriesLeave : Prop :=
  ∀ (core slot : Nat) (s : State) (g : Machine.Group) (e : Entry) (rest : List Entry), slot < 128 → s.group? core slot = some g →
    g.fe.sq = e :: rest → g.traps = [] →
    let s1 := s.setGroup { g with fe := ((({ g.fe with sq := rest } : Front).updOp e.op (fun o => { o with sq := o.sq - 1 })).finish e.op) }
    (isScratch e.loc = true → exec (.sqEntryLeave core slot) s = .next (tryEntry (s1.store e.loc e.bytes) core slot)) ∧
    (isScratch e.loc = false → exec (.sqEntryLeave core slot) s = .next (tryEntry { s1 with outb := s.outb ++ [{ core := core, entry := e }] } core slot))

/-- R141-R143, R153, R269: an entry of a core's channel reaches memory when no older one meets its bytes, none stands before it
that a release or a TSO order puts first; the core's stale copy takes its bytes. One to a held page waits. -/
def EntriesReachMemory : Prop :=
  ∀ (core n : Nat) (s : State) (e : Entry), (s.channel core)[n]? = some e →
    (∀ x ∈ (s.channel core).take n, overlaps x.loc x.bytes.length e.loc e.bytes.length = false ∧
      (e.rel = true → inScope 4 x.loc = false) ∧ (e.tso = true → x.tso = false)) →
    (held s.care e.loc = false → s.deadLoc e.loc = false →
      exec (.outboundToMemory core n) s =
        .next ((({ s with outb := removeOut core e s.outb } : State).put e.loc e.bytes).refreshStale core e.loc e.bytes)) ∧
    (held s.care e.loc = true → ∃ u, exec (.outboundToMemory core n) s = .next u ∧ u.mem = s.mem ∧ u.outb = s.outb ∧
      ∀ w, holder s.care e.loc = some w → ∃ x ∈ u.care.swaps, x.group = w.group ∧ Waiter.out core e ∈ x.waits)

/-- R141: a core may take a copy of a line of a page without T, as memory holds it, and may discard one. -/
def StaleCopies : Prop :=
  (∀ (core ctx : Nat) (va : Addr) (s : State) (p : Page), xlate s ctx va.toNat = .ok p → p.t = false →
    isScratch (lineOf p.loc) = false → s.anyPoison (lineOf p.loc) 64 = false → s.deadLoc (lineOf p.loc) = false → core < 256 →
    exec (.staleCopyInstall core ctx va) s = .next { s with stale := s.stale.filter (fun c => !(c.core = core && c.line = lineOf p.loc)) ++
      [{ core := core, line := lineOf p.loc, bytes := s.bytes (lineOf p.loc) 64 }] }) ∧
  (∀ (core line : Nat) (s : State),
    exec (.staleCopyDiscard core line) s = .next { s with stale := s.stale.filter (fun c => !(c.core = core && c.line = line)) })

/-! ### Agents (R149, R216, R220, R222, R233, R289) -/

/-- The value of a CUPOP element (R224, R257): `c` the constant, `d` the element that the destination holds and `v` the source's. -/
def bankValue (op c d v : Nat) : Nat :=
  match op with
  | 0 => c % 2 ^ 32
  | 1 => c
  | 2 => (fMul fp32 .rne (c % 2 ^ 32) v).1
  | 3 => (d + v) % 2 ^ 32
  | 4 => (fAdd fp32 .rne d v).1
  | 5 => (fAdd fp64 .rne d v).1
  | 6 => (fFma fp32 .rne (c % 2 ^ 32) v d).1
  | 7 => (fFma fp64 .rne c v d).1
  | 8 => (fMinMax fp32 true d v).1
  | _ => (fMinMax fp32 false d v).1

/-- R149: an agent's read takes bytes of memory into its buffer, and notes those of poisoned units; from a device found unreachable it
takes poison alone (R354). Its write, when the bytes it needs have been read, puts bytes of the buffer into memory, poisoned ones as
poison (R222); the write of the last of its bytes in a line that no other operation registers sets the line's presence bit (R150). An
element of a CUPOP is one read-modify-write in its bank (R224, R257). Each step is taken once. A tile load whose bytes have all come
may let a later store of its queue take its bytes (R201). -/
def AgentSteps : Prop :=
  ∀ (id n : Nat) (s : State) (a : Agent), s.agents.find? (fun a => a.id = id) = some a → a.stepReady n = true →
    (∀ c ∈ s.fabric.insts, c.agent ≠ id) →
    let rest := a.steps.take n ++ a.steps.drop (n + 1)
    (∀ loc len off t, a.steps[n]? = some (.read loc len off t) → ∃ bad : List Nat,
      exec (.agentStep id n) s = .next (primeAfter ((if s.deadLoc loc then s.event 13 (ctx := a.ctx) (slot := a.task) else s.countReq loc).setAgent
        { a with steps := rest, buf := (a.buf.clear off len).write off (s.bytes loc len), bad := bad }) id) ∧
      ∀ k, k ∈ bad ↔ k ∈ a.bad ∨ (off ≤ k ∧ k < off + len ∧ (s.deadLoc loc = true ∨ s.poisoned (unitOf (loc + (k - off))) = true))) ∧
    (∀ loc len off t, a.steps[n]? = some (.write loc len off t) → held s.care loc = false →
      (s.deadLoc loc = true → exec (.agentStep id n) s = .next (primeAfter
        ((s.event 13 (ctx := a.ctx) (slot := a.task)).setAgent { a with steps := rest }) id)) ∧
      (s.deadLoc loc = false →
        let u := ((s.put loc (a.buf.read off len)).poisonAt loc ((upFrom 0 len).filter (fun i => a.bad.contains (off + i)))).setAgent
          { a with steps := rest }
        let lastOfLine := isScratch loc = true ∧ lineOf loc ∈ a.lines ∧ (∀ l k o t2, AStep.write l k o t2 ∈ rest → lineOf l ≠ lineOf loc) ∧
          ∀ x ∈ s.agents, x.id ≠ id → lineOf loc ∉ x.lines
        (lastOfLine → exec (.agentStep id n) s = .next (primeAfter { u with absent := u.absent.filter (fun l => l ≠ lineOf loc) } id)) ∧
        (¬ lastOfLine → exec (.agentStep id n) s = .next (primeAfter u id)))) ∧
    (∀ dst off e op c t, a.steps[n]? = some (.elem dst off e op c t) → held s.care dst = false → op < 10 → e = (if op = 1 ∨ op = 5 ∨ op = 7 then 8 else 4) →
      let u := (s.store dst (bytesOf e (bankValue op c.toNat (natOf (s.bytes dst e)) (natOf (a.buf.read off e))))).setAgent { a with steps := rest }
      let spoilt := (2 ≤ op ∧ ∃ i < e, off + i ∈ a.bad) ∨ (3 ≤ op ∧ s.anyPoison dst e = true)
      (spoilt → exec (.agentStep id n) s = .next (primeAfter (u.poison1 (unitOf dst)) id)) ∧
      (¬ spoilt → exec (.agentStep id n) s = .next (primeAfter u id)))

/-- R220: a copy instance that every live group has supplied starts when its entries are free and its releases complete. Slices that a
restored team had supplied take their pages again as it starts, and their checks must pass still (log 57). -/
def InstancesStart : Prop :=
  ∀ (team : Nat) (s s1 : State) (t t1 : Team) (n : CpyInst), s.team? team = some t →
    t.insts.find? (fun x => instanceFull s team x.number) = some n →
    let u := touchAgain t.ctx n.slices s
    let xs := n.slices.map (fun y => y.renew u t)
    (∀ y ∈ n.slices, y.passes u t.ctx = true) → instanceFits u n.ticket xs = true →
    releaseAll (instanceScope xs) (xs.map (fun y => (y.core, y.slot))) u = (s1, true) → s1.team? team = some t1 →
    (exec (.cpyInstanceStart team) s = .next (startInstance (s1.setTeam { t1 with insts := t1.insts.filter (fun m => m.number ≠ n.number) }) t1 n.number xs)) ∧
    ((∀ y ∈ n.slices, y.again = false) → u = s ∧ xs = n.slices)

/-- R147, R222, R223: an instance whose bytes have all moved completes the operations of its slices, gives back its entries and its
journal entries, and then performs its ARRIVEs in order, which cost its team the idempotent standing. With an ARRIVE its
suppliers have released at device scope. -/
def InstancesComplete : Prop :=
  ∀ (id : Nat) (s s0 : State) (a : Agent) (ops : List (Nat × Nat × Nat)) (arrives : List (Nat × Word)),
    s.agents.find? (fun a => a.id = id) = some a → a.fin = .cpy ops arrives → a.steps = [] →
    (arrives = [] ∧ s0 = s ∨ arrives ≠ [] ∧ releaseAll 4 (ops.map (fun o => (o.1, o.2.1))) s = (s0, true)) →
    let s1 := (ops.foldl (fun s o => s.opDone o.1 o.2.1 o.2.2) s0).dropAgent a
    let s2 := arrives.foldl (fun s r => arriveTask s r.1 r.2.toNat) { s1 with journal := s1.journal.filter (fun j => j.agent ≠ id) }
    exec (.cpyInstanceComplete id) s = .next (match a.team with
      | some t => if arrives = [] then s2 else loseStanding s2 t
      | none => s2)

/-- R148, R289, R294: an agent with no step left completes its operation, or leaves with its range-lock and journal entries; a copy
task then completes. An operation whose results have not all landed keeps its agent and the range that it holds (R187). -/
def AgentsComplete : Prop :=
  ∀ (id : Nat) (s : State) (a : Agent), s.agents.find? (fun a => a.id = id) = some a → a.steps = [] →
    let gone : State := { (s.dropAgent a) with journal := (s.dropAgent a).journal.filter (fun j => j.agent ≠ id) }
    (∀ core slot op, a.fin = .op core slot op →
      ((∃ f, s.front? core slot = some f ∧ ∃ o ∈ f.ops, o.id = op ∧ o.lands ≠ []) → exec (.agentComplete id) s = .next s) ∧
      ((∀ f, s.front? core slot = some f → ∀ o ∈ f.ops, o.id = op → o.lands = []) →
        exec (.agentComplete id) s = .next ((s.dropAgent a).opDone core slot op))) ∧
    (∀ core slot op sd, a.fin = .post core slot op sd → a.bad = [] → exec (.agentComplete id) s = .next
      (((postRecord s a.ctx (a.buf.read 0 128)).2.dropAgent a).opResult core slot op
        (if sd = 0 then [] else [(.s sd.toNat, (postRecord s a.ctx (a.buf.read 0 128)).1)]))) ∧
    (a.fin = .staging ∨ a.fin = .writeBack → exec (.agentComplete id) s = .next gone) ∧
    (∀ slot, a.fin = .copyTask slot → exec (.agentComplete id) s = .next (settleRequests (completeTask gone slot)))

/-- R147, R201, R216, R217: the first command of a tile queue takes effect when its agent owes no step: its ranges are free, its
operation completes, and the next comes first. An MXGO that arrives releases before, at device scope; a poisoned one is reported. -/
def TileCommandsComplete : Prop :=
  ∀ (team half : Nat) (s s0 : State) (t : Team) (c : TileCmd) (rest : List TileCmd) (d1 : Side) (fl : Flags) (bad : Bool),
    s.team? team = some t →
    let core := t.core + half
    let d := t.side core
    let ag := c.agent.bind (fun id => s0.agents.find? (fun a => a.id = id))
    d.queue = c :: rest → headReady s d = true →
    (¬(c.kind = 10 ∧ blkArrive c.block = true) → s0 = s) →
    (c.kind = 10 ∧ blkArrive c.block = true → release s core c.slot 4 = (s0, true)) →
    runCmd d c ag = (d1, fl, bad) →
    let s1 := s0.setTeam (t.setSide { d1 with queue := rest })
    let s2 := (tileFlags (match ag with | some a => s1.dropAgent a | none => s1) core c.slot fl).opDone core c.slot c.op
    let s3 := if c.kind = 10 ∧ blkArrive c.block = true
      then loseStanding (arriveTask s2 (blkTask c.block % 2 ^ 13) (blkAcnt c.block)) team else s2
    exec (.tileCommandComplete team half) s = .next (primeStores (if bad then reportPoison s3 t.ctx core c.slot c.lane c.addr else s3) team core)

end Sys2Proof.Claims

namespace Sys2Proof.Claims

/-! ### The Belfry (R27, R286-R291, R298-R300, R318) -/

/-- Scalars of a group at its start (R27): s1 to s8 the record's arguments, s9 its team's index (or tile), s10 the number of
teams (or tiles), s11 the group, s12 the groups of a team, s13 a record's address in a ragged task, s15 the slice bytes. -/
def scalarAtStart (r : List Byte) (d : NextTeam) (grp : Nat) (i : Nat) : DWord :=
  if 1 ≤ i ∧ i ≤ 8 then BitVec.ofNat 64 (recArg r (i - 1))
  else if i = 9 then BitVec.ofNat 64 (if d.ragged then d.tileIdx else d.index)
  else if i = 10 then BitVec.ofNat 64 d.s10
  else if i = 11 then BitVec.ofNat 64 grp
  else if i = 12 then BitVec.ofNat 64 (recGpt r)
  else if i = 13 then BitVec.ofNat 64 d.s13
  else if i = 15 then BitVec.ofNat 64 (recLaneb r)
  else 0

/-- R27, R244, R287: a group as it starts: its scalars, FPC, masks, tokens and lanes, each live at the record's entry, with its
thread in v0 and v1, p0 alone set, and the thread's identity for random numbers. -/
def GroupsStart : Prop :=
  ∀ (r : List Byte) (d : NextTeam) (chk : Bool) (id : Nat) (spot : Spot) (slot grp : Nat),
    let g := startGroup r d chk id spot slot grp
    (∀ i < 64, g.fe.s.getD i 0 = scalarAtStart r d grp i) ∧ g.fe.s.length = 64 ∧
    g.fpc = (if chk then 0x2000 else 0) ∧ g.dph = 0 ∧ g.specm = 0 ∧ g.specr = 0 ∧
    g.m = List.replicate 16 0 ∧ g.fe.tok = List.replicate 15 0 ∧ g.fe.cdepth = 0 ∧ g.fe.handler = false ∧
    g.lanes.length = recWidth r ∧ g.width = recWidth r ∧ g.index = grp ∧ g.team = id ∧ g.slot = slot ∧ g.bay < 4 ∧
    (∀ j < recWidth r, let l := g.lane j
      l.pc = BitVec.ofNat 48 (recEntry r) ∧ l.live = true ∧ l.park = .none ∧ l.p = 1 ∧ l.v = freshRegs grp (recWidth r) j (recVregs r) ∧
      l.rng = BitVec.ofNat 64 (d.index * recGpt r * recWidth r + (grp * recWidth r + j)) ∧ l.draws = 0)

/-- R288, R289: a decision with one grid task to place, no regions, and nothing to end or replay: its next team is placed at
one of the places that hold it. -/
def OneTeamPlaced : Prop :=
  ∀ (dt : Nat) (s : State) (t : Task), s.gang = none → s.journal = [] → s.preempts = [] → s.tasks = [t] → t.flt = false →
    t.state = .ready ∨ t.state = .active → recKind t.record = 0 → recNreg t.record = 0 → t.flushed = [] →
    t.next < recTeams t.record →
    let s1 : State := { s with now := s.now + dt }
    let spots := spotsFor s1 t.record
    spots ≠ [] →
    ∃ p ∈ spots, exec (.distributorDecision dt) s = .next
      (placeTeam s1.choose.2 t { index := t.next, s10 := recTeams t.record } p []).settled

/-- R291, R288: a task that becomes READY with a higher priority marks a gang that still reserves, and a gang so marked gives up what
it reserves; the first task of the order blocks the others once it has been skipped for 2^BCFG.SKIP cycles. -/
def DistributorEvents : Prop :=
  (∀ (s : State) (g : Gang) (t x : Task), s.gang = some g → s.task? g.slot = some t → g.placing = false →
    (recPriority t.record < recPriority x.record → s.meetGang x = { s with gang := some { g with broken := true } }) ∧
    (g.broken = true → exec .gangReservationRelease s = .next { s with gang := none })) ∧
  (∀ (slot : Nat) (s : State) (t : Task) (since : Nat), s.task? slot = some t → t.skipped = some since →
    (dispatchOrder s).head?.map (fun x => x.slot) = some slot → since + 2 ^ bcfgSkip s.plat.bcfg ≤ s.now →
    exec (.taskBlocking slot) s = .next (s.setTask { t with blocking := true }))

/-- R289: write-back of a team starts when its groups have retired and its release is complete, one agent for each output region. -/
def WriteBackStarts : Prop :=
  ∀ (team : Nat) (s s1 : State) (x x1 : Team), s.team? team = some x → x.writingBack = false → s.saving x.ctx = false →
    (∀ g ∈ s.groups, g.team = team → g.retired = true) →
    mayLock s x.core x.ticket (2 * ((x.regions.filter (fun r => r.dir = 1 || r.dir = 2)).filter (fun r => r.len ≠ 0)).length) = true →
    s.journal.length + (x.regions.filter (fun r => r.dir = 1 || r.dir = 2)).length ≤ 8192 →
    releaseTeam s x = (s1, true) → s1.team? team = some x1 →
    exec (.teamWriteBackStart team) s = .next ((x.regions.filter (fun r => r.dir = 1 || r.dir = 2)).foldl (startRegion true team)
      (s1.setTeam { x1 with writingBack := true, ticket := none }))

/-- R231, R289: a team with nothing left in flight sets its bit, gives back what it holds, and may complete its task. -/
def TeamsRetire : Prop :=
  ∀ (team : Nat) (s : State) (x : Team) (t : Task), s.team? team = some x → s.saving x.ctx = false → x.writingBack = true →
    (∀ g ∈ s.groups, g.team ≠ team) → (∀ l ∈ s.lanterns, l.team ≠ team) → (∀ a ∈ s.agents, a.team ≠ some team) →
    (∀ j ∈ s.journal, j.teamId ≠ some team) → (∀ d ∈ x.sides, s.channel d.core = []) → s.task? x.slot = some t →
    recKind t.record ≠ 1 →
    exec (.teamRetirement team) s = .next (settleRequests ((setBitmap s t x.index).removeTeam team).settled)

/-- R300: the oldest pre-emption request whose deadline, 2^BCFG.DLX cycles after it came, has passed resets its context. That the
oldest expires first, and under the DLX of now, is the model's reading (log 20). -/
def DeadlinesExpire : Prop :=
  ∀ (s : State) (p : Preempt) (rest : List Preempt), s.preempts = p :: rest → p.start + 2 ^ bcfgDlx s.plat.bcfg ≤ s.now →
    exec (.preemptDeadlineExpiry 0) s = .next (settleRequests
      ((forcedReset { s with preempts := rest } p.ctx 1).answer 0x86 p.ctx p.seqNo 1))

/-- R318: a context that has drained and released is saved: its image goes into the buffer, its teams leave, and SAVEDONE
reports the image's length. -/
def SavesComplete : Prop :=
  ∀ (ctx : Nat) (s s1 : State) (v : Saving) (rest : List Saving), s.saves = v :: rest → v.ctx = ctx → v.gone = none →
    drained s ctx = true → releaseContext s ctx = (s1, true) →
    let s2 := beforeImage s1 ctx
    let img := contextImage s2 ctx (s2.teams.filter (fun t => t.ctx = ctx))
    let s4 := s1.touchRange ctx v.va.toNat img.1.length
    v.va.toNat + img.1.length ≤ 2 ^ 48 → dramRange s4 ctx v.va.toNat img.1.length .write = true →
    rangeHeld s4 ctx v.va.toNat img.1.length = false →
    let s3 := freeContext (putImage (s2.touchRange ctx v.va.toNat img.1.length) ctx v.va.toNat img) ctx
    exec (.contextSaveComplete ctx) s = .next (settleRequests (flushSaves
      (({ s3 with saves := s3.saves.drop 1 } : State).answer 0x88 ctx v.seqNo (BitVec.ofNat 64 img.1.length))))

/-! ### The link (R331, R343-R349) -/

/-- A message is taken (R344, R345, R362): it is of its type and well formed, the device takes it in its stage, and, unless it is
a WRITE, every earlier WRITE has reached memory. -/
structure Takes (kind : BitVec 8) (m : HostMsg) (s : State) : Prop where
  type    : m.type = kind
  power   : s.plat.powered = true
  formed  : malformed m = false
  stage   : stageTakes s m = true
  written : kind ≠ 3 → s.hostq = []

/-- A request counts as an acquire of every core (R345, log 67). -/
def acquired (s : State) : State := { s with stale := [] }

/-- R344, R346: POST is answered with the slot that its record took, or why it took none; ARRIVE counts down a slot of its
context and has no answer. -/
def HostPosts : Prop :=
  ∀ (m : HostMsg) (s : State),
    (Takes 1 m s → (s.ctx m.ctx.toNat).ptroot.getLsbD 0 = true → exec (.hostPost m) s = .next
      ((postRecord (acquired s) m.ctx.toNat m.payload).2.answer 0x81 m.ctx.toNat m.seq (postRecord (acquired s) m.ctx.toNat m.payload).1)) ∧
    (Takes 1 m s → (s.ctx m.ctx.toNat).ptroot.getLsbD 0 = false → exec (.hostPost m) s = .next
      ((acquired s).answer 0x81 m.ctx.toNat m.seq 0xFFFFFFFFFFFFFFFE)) ∧
    (Takes 2 m s → (s.ctx m.ctx.toNat).ptroot.getLsbD 0 = true → slotIn s m.ctx.toNat (m.arg.toNat % 2 ^ 13) = true →
      exec (.hostArrive m) s = .next (settleRequests (arriveTask (acquired s) (m.arg.toNat % 2 ^ 13) (m.arg.toNat / 2 ^ 32))))

/-- R233, R346: a record takes the lowest free slot of its context's range, WAITING, or READY where its counter is 0; none free
or a refused record takes none. The tables that the device reads for its checks are translated first. -/
def RecordsArePosted : Prop :=
  ∀ (s : State) (ctx : Nat) (r : List Byte),
    let range := upFrom (cslotBase (s.ctx ctx).cslot) (cslotCount (s.ctx ctx).cslot)
    let u := touchTables s ctx r
    ((∀ n ∈ range, slotIn s ctx n = true → s.task? n ≠ none) → postRecord s ctx r = (0xFFFFFFFFFFFFFFFF, s)) ∧
    (∀ n ∈ range, slotIn s ctx n = true → s.task? n = none → refused u ctx r = true → postRecord s ctx r = (0xFFFFFFFFFFFFFFFE, u)) ∧
    (∀ n ∈ range, slotIn s ctx n = true → s.task? n = none → (∀ k ∈ range, k < n → slotIn s ctx k = true → s.task? k ≠ none) →
      refused u ctx r = false →
      (postRecord s ctx r).1 = BitVec.ofNat 64 n ∧
      (recCounter r ≠ 0 → (postRecord s ctx r).2 = ({ u with tasks := u.tasks ++
        [{ slot := n, ctx := ctx, state := .waiting, record := r, counter := BitVec.ofNat 32 (recCounter r) }] } : State).settled) ∧
      (recCounter r = 0 → let t : Task := { slot := n, ctx := ctx, state := .ready, record := r, readyAt := u.readies }
        (postRecord s ctx r).2 = (({ u with readies := u.readies + 1, tasks := u.tasks ++ [t] } : State).readied t).settled))

/-- R347, R359: a WRITE that passes its checks enters the host queue; the oldest one then takes effect in the window or in
memory, or waits for a held page. One that fails with nothing queued is dropped whole, and the host is told. -/
def HostWrites : Prop :=
  ∀ (m : HostMsg) (s : State), (m.space = 0 → (s.ctx m.ctx.toNat).ptroot.getLsbD 0 = true) →
    let a := acquired s
    let s1 : State := if isMgmt m.space m.arg then a else touchHost a m.space m.ctx.toNat m.arg.toNat m.payload.length
    (Takes 3 m s → writePasses a m = true → exec (.hostWrite m) s = .next
      { s1 with hostq := s.hostq ++ [{ space := m.space, ctx := m.ctx, va := m.arg, bytes := m.payload }] }) ∧
    (Takes 3 m s → writePasses a m = false → s.hostq = [] →
      exec (.hostWrite m) s = .next (s1.event 10 (ctx := m.ctx.toNat) (detail := m.arg.toNat))) ∧
    (∀ w rest, s.hostq = w :: rest → isMgmt w.space w.va = false →
      let s0 := touchHost s w.space w.ctx.toNat w.va.toNat w.bytes.length
      (∀ ps, hostParts s0 w.space w.ctx.toNat w.va.toNat w.bytes.length .write = some ps → (∀ p ∈ ps, held s0.care p.1 = false) →
        exec .hostWriteApply s = .next (ps.foldl (fun s p => s.put p.1 ((w.bytes.drop p.2.2).take p.2.1)) { s0 with hostq := rest })) ∧
      (∀ ps p, hostParts s0 w.space w.ctx.toNat w.va.toNat w.bytes.length .write = some ps →
        ps.find? (fun p => held s0.care p.1) = some p → exec .hostWriteApply s = .next (waitFor s0 p.1 .host)) ∧
      (hostParts s0 w.space w.ctx.toNat w.va.toNat w.bytes.length .write = none →
        exec .hostWriteApply s = .next (({ s0 with hostq := rest } : State).event 10 (ctx := w.ctx.toNat) (detail := w.va.toNat)))) ∧
    (∀ w rest off, s.hostq = w :: rest → isMgmt w.space w.va = true → mgmtOffset w.va w.bytes.length = some off →
      mgmtRangeHolds s off w.bytes.length = true →
      exec .hostWriteApply s = .next (writeRegs { s with hostq := rest } off w.bytes))

/-- R347, R359: a READ is answered with the bytes of memory, poisoned ones as zero and status 1, with the registers of the window,
or with status 2. -/
def HostReads : Prop :=
  ∀ (m : HostMsg) (s : State), Takes 4 m s →
    let a := acquired s
    (isMgmt m.space m.arg = false → (m.space = 0 → (s.ctx m.ctx.toNat).ptroot.getLsbD 0 = true) →
      let s1 := touchHost a m.space m.ctx.toNat m.arg.toNat m.len.toNat
      (∀ ps, hostParts s1 m.space m.ctx.toNat m.arg.toNat m.len.toNat .read = some ps →
        exec (.hostRead m) s = .next ((countParts s1 ps).answer 0x84 m.ctx.toNat m.seq
          (if ps.any (fun p => s1.anyPoison p.1 p.2.1) then 1 else 0)
          (ps.flatMap (fun p => (upFrom p.1 p.2.1).map (fun a => if s1.poisoned (unitOf a) then 0 else s1.byte a))))) ∧
      (hostParts s1 m.space m.ctx.toNat m.arg.toNat m.len.toNat .read = none →
        exec (.hostRead m) s = .next (s1.answer 0x84 m.ctx.toNat m.seq 2))) ∧
    (∀ off ws, isMgmt m.space m.arg = true → mgmtOffset m.arg m.len.toNat = some off → mgmtRange a off m.len.toNat = some ws →
      ¬(off ≤ 0x98 ∧ 0x98 < off + m.len.toNat) →
      exec (.hostRead m) s = .next (a.answer 0x84 m.ctx.toNat m.seq 0 (ws.flatMap (fun w => bytesOf 8 w.toNat))))

/-- R298, R301, R318, R320, R321, R349: PREEMPT, RESUME, SAVE, RESTORE and RESET of a context that has tables. -/
def HostTaskRequests : Prop :=
  ∀ (m : HostMsg) (s : State), (s.ctx m.ctx.toNat).ptroot.getLsbD 0 = true →
    (∀ slots, Takes 6 m s → namedSlots (acquired s) m.ctx.toNat m.arg = some slots →
      exec (.hostPreempt m) s = .next (requestPreempt (acquired s) m.ctx.toNat slots m.seq)) ∧
    (∀ slots, Takes 7 m s → namedSlots (acquired s) m.ctx.toNat m.arg = some slots →
      exec (.hostResume m) s = .next ((resumeTasks (acquired s) slots).answer 0x87 m.ctx.toNat m.seq 0)) ∧
    (Takes 8 m s → s.saving m.ctx.toNat = false →
      exec (.hostSave m) s = .next (beginSave (acquired s) m.ctx.toNat m.arg m.seq)) ∧
    (∀ u, Takes 9 m s → restoreContext (acquired s) m.ctx.toNat m.arg.toNat = .ok u →
      exec (.hostRestore m) s = .next (u.answer 0x89 m.ctx.toNat m.seq 0)) ∧
    (Takes 10 m s → exec (.hostReset m) s = .next
      ((settleRequests (forcedReset (acquired s) m.ctx.toNat 0)).answer 0x8A m.ctx.toNat m.seq 0))

/-- R321, R350: a forced reset leaves no task, team, group, lantern, agent, channel entry, lock, journal entry or collective of its
context, and reports it last. Store-queue entries, handlers and token counts are fields of the groups and lanterns that go. -/
def ForcedResetEmptiesContext : Prop :=
  ∀ (s : State) (ctx reason : Nat), let u := forcedReset s ctx reason
    (∀ t ∈ u.tasks, t.ctx ≠ ctx) ∧ (∀ t ∈ u.teams, t.ctx ≠ ctx) ∧
    (∀ g ∈ u.groups, g ∈ s.groups ∧ ∀ t ∈ s.teams, t.ctx = ctx → g.team ≠ t.id) ∧
    (∀ l ∈ u.lanterns, l ∈ s.lanterns ∧ ∀ t ∈ s.teams, t.ctx = ctx → l.team ≠ t.id) ∧
    (∀ a ∈ u.agents, a.ctx ≠ ctx) ∧ (∀ o ∈ u.outb, o ∈ s.outb ∧ o.entry.ctx ≠ ctx) ∧
    (∀ l ∈ u.locks, l.ctx ≠ ctx) ∧ (∀ j ∈ u.journal, j.ctx ≠ ctx) ∧ (∀ c ∈ u.fabric.insts, c.ctx ≠ ctx) ∧
    (∀ k ∈ u.kept, k.ctx ≠ ctx) ∧
    u.outbox.getLast? = some (eventMsg 8 ctx 0xFFFFFFFF 0 0 0 reason)

/-- R325, R331: INV and a write of PTROOT begin an invalidation: the translations that it covers go at once, and it notes the
agents, the teams and the copies that hold one. It ends when they, the stores so translated and the writes of them that wait for a
held page have gone, with INVDONE or with the
new root. -/
def Invalidations : Prop :=
  (∀ (m : HostMsg) (s : State), Takes 5 m s → (s.ctx m.ctx.toNat).ptroot.getLsbD 0 = true →
    exec (.hostInv m) s = .next (beginInvalidation (acquired s)
      { ctx := m.ctx.toNat, seqNo := m.seq, base := natOf ((m.payload.drop 8).take 8), pages := natOf ((m.payload.drop 4).take 4)
        all := decide (m.payload.take 1 = [1]) })) ∧
  (∀ (ctx : Nat) (v : DWord) (s : State), ctx < 64 → exec (.ptrootWrite ctx v) s = .next (beginInvalidation s
    { ctx := ctx, seqNo := 0, base := 0, pages := 0, all := true, newRoot := some (v &&& 0x1FFFFFFF001) })) ∧
  (∀ (v : Invalidation) (s : State), v.ctx < s.ctxs.length →
    (∀ t ∈ ((beginInvalidation s v).ctx v.ctx).tlb, v.covers t.1 t.2.1 = false ∧ t ∈ (s.ctx v.ctx).tlb) ∧
    ∃ w, (beginInvalidation s v).invs = s.invs ++ [w] ∧ w.ctx = v.ctx ∧ w.newRoot = v.newRoot ∧ w.seqNo = v.seqNo ∧
      (∀ a ∈ s.agents, a.ctx = v.ctx → (∃ p ∈ a.pages, v.covers p.toNat 0x10000 = true) → a.id ∈ w.agents) ∧
      (∀ t ∈ s.teams, t.ctx = v.ctx →
        (∀ r ∈ t.regions, r.dir = 1 ∨ r.dir = 2 → (∃ p ∈ r.pages, v.covers p.toNat 0x10000 = true) → t.id ∈ w.teams) ∧
        (∀ n ∈ t.insts, ∀ x ∈ n.slices, (∃ p ∈ x.pages, v.covers p.toNat 0x10000 = true) → x.op ∈ w.ops))) ∧
  (∀ (s : State) (v : Invalidation) (rest : List Invalidation), s.invs = v :: rest → v.ready s = true →
    (∀ a ∈ s.agents, a.id ∉ v.agents) ∧ (∀ t ∈ s.teams, t.id ∉ v.teams) ∧
    (∀ o ∈ s.outb, ∀ va, o.entry.ctx = v.ctx → o.entry.va = some va → v.covers va.toNat o.entry.bytes.length = false) ∧
    (∀ w ∈ s.care.swaps, ∀ loc bs n bad ctx ps, Waiter.remote loc bs n bad (some (ctx, ps)) ∈ w.waits → ctx = v.ctx →
      ∀ p ∈ ps, v.covers p.toNat 0x10000 = false) ∧
    (v.newRoot = none → exec .invalidationComplete s =
      .next (({ s with invs := rest } : State).answer 0x85 v.ctx v.seqNo (BitVec.ofNat 64 v.status))) ∧
    (∀ r, v.newRoot = some r → exec .invalidationComplete s =
      .next (({ s with invs := rest } : State).setCtx v.ctx { (s.ctx v.ctx) with ptroot := r, tlb := [] })))

/-- R344: a malformed message is discarded, and the host is told. -/
def MalformedMessages : Prop :=
  ∀ (m : HostMsg) (s : State), malformed m = true → s.plat.powered = true →
    exec (.malformedMessage m) s = .next (s.event 9 (ctx := m.ctx.toNat))

/-! ### The fabric (R322, R353-R358) -/

/-- What an aborted collective's agent still owes, each step performed or not (R321, R322). -/
def stepsSettled (s : State) (c : Collective) : State :=
  match s.agents.find? (fun a => a.id = c.agent) with
  | some a => fateSteps (a.steps.length + 1) s a
  | none => s

/-- R353, R354: a remote access is translated with this device's tables, and answered with the bytes read or with what failed; a
write performs its parts, of which those of a held page wait with the pages they were translated through, and is answered with its last; a target's answer is kept for its
page, and what waited for it is performed again; a device silent for 2^20 cycles is unreachable, and the collectives that it takes
part in abort. -/
def RemoteAccesses : Prop :=
  ∀ (s : State), s.plat.powered = true → s.plat.stage = 3 →
    (∀ r : RemoteReq, r.write = false → remoteFault s r.rctx.toNat r.va.toNat r.size .read = none →
      let s1 := s.touchRange r.rctx.toNat r.va.toNat (max r.size 1)
      let ps := (virtParts s1 r.rctx.toNat r.va.toNat r.size 0).map (fun q => (q.1, q.2.1, q.2.2.1))
      (∀ loc, waitsAhead s1 r.fid.toNat ps = some loc → exec (.remoteAccessRequest r) s = .next (waitFor s1 loc
        (.remoteRead r.fid.toNat ps (r.rctx.toNat, (pagesOf r.va.toNat (max r.size 1)).map (BitVec.ofNat 48))))) ∧
      (waitsAhead s1 r.fid.toNat ps = none → exec (.remoteAccessRequest r) s = .next ((countParts s1 ps).remoteAnswer r.fid.toNat
        (if ps.any (fun p => s1.anyPoison p.1 p.2.1) then 1 else 0)
        (ps.flatMap (fun p => (upFrom p.1 p.2.1).map (fun a => if s1.poisoned (unitOf a) then 0 else s1.byte a)))))) ∧
    (∀ r : RemoteReq, r.write = true → remoteFault s r.rctx.toNat r.va.toNat r.bytes.length .write = none →
      let s1 := s.touchRange r.rctx.toNat r.va.toNat (max r.bytes.length 1)
      let ps := (virtParts s1 r.rctx.toNat r.va.toNat r.bytes.length 0).map (fun q => (q.1, q.2.1, q.2.2.1))
      let used := (r.rctx.toNat, (pagesOf r.va.toNat (max r.bytes.length 1)).map (BitVec.ofNat 48))
      (ps = [] → exec (.remoteAccessRequest r) s = .next (s1.remoteAnswer r.fid.toNat 0 [])) ∧
      (ps ≠ [] → exec (.remoteAccessRequest r) s = .next (ps.foldl
        (fun s p => performWait s (.remote p.1 ((r.bytes.drop p.2.2).take p.2.1) (some s1.ids) [] (some used)))
        { s1 with ids := s1.ids + 1, fabric := { s1.fabric with pending := s1.fabric.pending ++ [(s1.ids, r.fid.toNat, ps.length)] } }))) ∧
    (∀ (loc n fid left : Nat) (bs : List Byte) (bad : List Nat) (used : Option (Nat × List Addr)), held s.care loc = false →
      let u := (s.put loc bs).poisonAt loc bad
      u.fabric.pending.find? (fun p => p.1 = n) = some (n, fid, left) → let rest := u.fabric.pending.filter (fun p => p.1 ≠ n)
      performWait s (.remote loc bs (some n) bad used) = if left ≤ 1 then ({ u with fabric := { u.fabric with pending := rest } } : State).remoteAnswer fid 0 []
        else { u with fabric := { u.fabric with pending := rest ++ [(n, fid, left - 1)] } }) ∧
    (∀ (r : RemoteReq) (k : Nat), let n := if r.write then r.bytes.length else r.size
      remoteFault s r.rctx.toNat r.va.toNat n (if r.write then .write else .read) = some k → r.va.toNat + n ≤ 2 ^ 48 →
      exec (.remoteAccessRequest r) s = .next ((s.touchRange r.rctx.toNat r.va.toNat (max n 1)).remoteAnswer r.fid.toNat k [])) ∧
    (∀ r : RemoteReq, 2 ^ 48 < r.va.toNat + (if r.write then r.bytes.length else r.size) →
      exec (.remoteAccessRequest r) s = .next (s.remoteAnswer r.fid.toNat 3 [])) ∧
    (∀ (ctx : Nat) (page : Addr) (ans : TargetAnswer), page.toNat % 0x10000 = 0 →
      exec (.targetCheckAnswer ctx page ans) s = .next (retryTargets { s with fabric := { s.fabric with
        answers := s.fabric.answers.filter (fun a => !(a.1 = ctx && a.2.1 = page)) ++ [(ctx, page, ans)] } })) ∧
    (∀ fid dt : Nat, let s1 : State := { s with fabric := { s.fabric with dead := insertNat fid s.fabric.dead } }
      let gone := s1.fabric.insts.filter (fun c => c.parts.contains fid)
      (dt < 2 ^ 20 → exec (.fabricUnreachable fid dt) s = .next s) ∧
      (2 ^ 20 ≤ dt → exec (.fabricUnreachable fid dt) s = .next (retryTargets (gone.foldl abortInstance s1)))) ∧
    (∀ (c : Collective) (t : Task), (stepsSettled s c).task? c.slot = some t → abortInstance s c = endCollective (stepsSettled s c) t 1)

/-- R322, R356, R357: a peer's data is held by its collective and rank; a collective that has read its own data and holds that of
every other rank writes its results, and completes once they are written; an abort completes it with status 1. -/
def Collectives : Prop :=
  ∀ (s : State),
    (∀ d : PeerData, s.plat.powered = true → s.plat.stage = 3 → exec (.collectiveDataArrival d) s = .next { s with fabric := { s.fabric with
      held := s.fabric.held.filter (fun x => !(x.cid = d.cid && x.rank = d.rank)) ++ [d] } }) ∧
    (∀ (slot : Nat) (c : Collective) (t : Task) (a : Agent), s.fabric.insts.find? (fun c => c.slot = slot) = some c →
      s.task? slot = some t → s.agents.find? (fun a => a.id = c.agent) = some a → a.steps = [] →
      (c.writing = true → exec (.collectiveComplete slot) s = .next (endCollective s t 0)) ∧
      (∀ ds, c.writing = false → allData s t.record (peerData t.record a.buf a.bad) = some ds →
        let r := t.record
        let w := collBytes (collType r)
        let res := collective (collOp r) (collType r) (collRed r) (collE r) (collRank r) ds
        (ds.all (fun d => agreeing d (peerData t.record a.buf a.bad)) = true → exec (.collectiveComplete slot) s = .next
          (setInst (s.setAgent { a with
            buf := Memory.write [] 0 (res.1.flatMap (fun x => bytesOf w x.toNat)), bad := res.2.flatMap (fun i => upFrom (i * w) w)
            steps := c.dst })
            { c with writing := true })) ∧
        (ds.all (fun d => agreeing d (peerData t.record a.buf a.bad)) = false →
          exec (.collectiveComplete slot) s = .next (endCollective s t 2)))) ∧
    (∀ cid : DWord, s.plat.powered = true → s.plat.stage = 3 →
      (∀ (c : Collective) (t : Task), s.fabric.insts.find? (fun c => c.cid = cid) = some c → (stepsSettled s c).task? c.slot = some t →
        exec (.collectiveAbortReceive cid) s = .next (endCollective (stepsSettled s c) t 1)) ∧
      ((∀ c ∈ s.fabric.insts, c.cid ≠ cid) → cid ∉ s.fabric.finished → cid ∉ s.fabric.aborts →
        exec (.collectiveAbortReceive cid) s = .next { s with fabric := { s.fabric with aborts := s.fabric.aborts ++ [cid] } }))

end Sys2Proof.Claims

namespace Sys2Proof.Claims

/-! ### DRAM care (R264-R279) -/

/-- The map of a group with two members' frames exchanged, member by member. -/
def exchanged (r : Remap) (a b : Nat) : BitVec 8 :=
  BitVec.ofNat 8 (((List.range 4).map (fun i => 4 ^ i * frameOf r (if i = a then b else if i = b then a else i))).sum)

/-- R269, R273: a swap goes through its phases one at a time: both pages are read into the unit's buffers, with what the controller
finds in their lines taken first, each is written into its new frame, the map is committed with the members exchanged, and the
release performs the writes that waited. -/
def SwapPhases : Prop :=
  ∀ (s : State) (w : Swap), w.retire = false →
    let r := remapOf s.care w.group
    (s.care.swaps.find? (fun x => x.group = w.group && x.phase = .hold) = some w →
      exec (.swapRead { group := w.group }) s = .next
        (s.setSwap { w with phase := .read, bufA := readPage s (frameLoc r (frameOf r w.memA) 0), bufB := readPage s (frameLoc r (frameOf r w.memB) 0) }) ∧
      (∀ f : RowFinding, findingOk s f = true →
        (f.group, f.frame) = realFrame r (frameOf r w.memA) ∨ (f.group, f.frame) = realFrame r (frameOf r w.memB) →
        exec (.swapRead { group := w.group, finds := [f] }) s = exec (.swapRead { group := w.group }) (scrubLine s f))) ∧
    (s.care.swaps.find? (fun x => x.group = w.group && x.phase = .read) = some w →
      exec (.swapWrite w.group) s = .next ((placePage (placePage s (frameLoc r 0 0) w.bufA) (frameLoc r w.frame 0) w.bufB).setSwap { w with phase := .write })) ∧
    (s.care.swaps.find? (fun x => x.group = w.group && x.phase = .write) = some w →
      exec (.swapCommit w.group) s = .next (({ s with care := { (putRemap s.care { r with map := exchanged r w.memA w.memB }) with
        swapsDone := s.care.swapsDone + 1 } } : State).setSwap { w with phase := .commit })) ∧
    (s.care.swaps.find? (fun x => x.group = w.group && x.phase = .commit) = some w → s.care.due = [] →
      exec (.swapRelease w.group) s = .next (startDue (w.waits.foldl performWait
        { s with care := { s.care with swaps := s.care.swaps.filter (fun x => x.group ≠ w.group) } })))

/-- R271, R277: a retirement copies its page into the spare, and its commit binds the spare to the frame, marks the frame bad,
counts it, frees the score of the row that reached the threshold and tells the host. Where spare frames lie is the model's choice
(log 63). -/
def RetirementPhases : Prop :=
  ∀ (s : State) (w : Swap), w.retire = true →
    let r := remapOf s.care w.group
    (s.care.swaps.find? (fun x => x.group = w.group && x.phase = .hold) = some w → ∃ u x, exec (.swapRead { group := w.group }) s = .next u ∧
      u = s.setSwap x ∧ x.phase = .read ∧ x.bufA = readPage s (frameLoc r (frameOf r w.memA) 0)) ∧
    (s.care.swaps.find? (fun x => x.group = w.group && x.phase = .read) = some w →
      exec (.swapWrite w.group) s = .next ((placePage s (spareLoc w.spare) w.bufA).setSwap { w with phase := .write })) ∧
    (s.care.swaps.find? (fun x => x.group = w.group && x.phase = .write) = some w → ∃ u, exec (.swapCommit w.group) s = .next u ∧
      u.care.retired = s.care.retired + 1 ∧ u.mem = s.mem ∧
      remapOf u.care w.group = { r with bad := r.bad ||| BitVec.ofNat 4 (2 ^ w.frame), spares := (w.frame, w.spare) :: r.spares } ∧
      (w.frame < 4 → (remapOf u.care w.group).bad.getLsbD w.frame = true) ∧
      (∀ off, frameLoc (remapOf u.care w.group) w.frame off = spareLoc w.spare + off) ∧
      (∀ x ∈ (u.care.domains.getD w.domain {}).scores, x.row ≠ w.row) ∧
      u.outbox = s.outbox ++ [eventMsg 2 0xFF 0xFFFFFFFF (w.memA * 0x8000000000 + w.group * 0x10000)
        w.domain w.row 0])

/-- A member's page as it lies in frame storage. -/
def pageBytes (s : State) (loc n : Nat) : List Byte := (upFrom 0 n).map (fun i => s.mem.get (loc + i))

/-- R265, R269: a page that is placed reads back, byte by byte, and no byte outside it changes. -/
def PagesMoveWhole : Prop :=
  ∀ (s : State) (a b k : Nat), s.mem.wf = true → (k < 0x10000 → (placePage s b (readPage s a)).mem.get (b + k) = s.mem.get (a + k)) ∧
    (k < b ∨ b + 0x10000 ≤ k → (placePage s b (readPage s a)).mem.get k = s.mem.get k)

/-- The fault log with one more entry (R367). -/
def logged (s : State) (f : FaultLog) : State := { s with plat := logFault s.plat f }

/-- R276: points are added to the score of a row, which stays at most 0xFFFF, or give it an entry; at RETH the frame in use is retired
for that row, a spare in use too (R277); the end of a pass halves every score of the domain. A scrub logs what it finds (R367), and a row of a held page is skipped until it
is held no longer (R271). Which lines lie in which row is the model's choice (log 97). -/
def Scores : Prop :=
  (∀ (d : Domain) (group frame line n : Nat), let row := rowNumber group frame line
    (∀ x, d.scores.find? (fun y => y.row = row) = some x → (∀ y ∈ d.scores, y.row = row → y = x) →
      (addScore d group frame line n).scores.find? (fun y => y.row = row) = some { x with score := min 0xFFFF (x.score + n) }) ∧
    ((∀ y ∈ d.scores, y.row ≠ row) → d.scores.length < 4096 → (addScore d group frame line n).scores =
      d.scores ++ [{ row := row, group := group, frame := frame, score := n, born := d.born }])) ∧
  (∀ (s : State) (group frame line n : Nat), let k := frameDomain group frame
    let s1 : State := { s with care := s.care.setDomain k (fun d => addScore d group frame line n) }
    let d := s1.care.domains.getD k {}
    let row := rowNumber group frame line
    (servesFor s.care group frame = none → scoreEvent s group frame line n = s1) ∧
    (∀ g f, servesFor s.care group frame = some (g, f) → (∀ w ∈ s.care.swaps, w.group = g → w.retire = true → w.frame ≠ f) →
      scoreEvent s group frame line n = if mcareReth d.mcare ≠ 0 ∧ mcareReth d.mcare ≤ scoreOf d row then
        retirePage s1 { group := g, member := memberIn (remapOf s.care g) f, domain := k, row := row
                        spare := decide (Config.firstReservedGroup ≤ group) } else s1) ∧
    (group < Config.firstReservedGroup → servesFor s.care group frame = some (group, frame))) ∧
  (∀ (domain : Nat) (s : State), domain < s.care.domains.length → ∃ u, exec (.scrubPassEnd domain) s = .next u ∧
    (u.care.domains.getD domain {}).scores =
      ((s.care.domains.getD domain {}).scores.map (fun x => { x with score := x.score / 2 })).filter (fun x => 0 < x.score) ∧
    (∀ k, k ≠ domain → u.care.domains.getD k {} = s.care.domains.getD k {}) ∧ u.mem = s.mem) ∧
  (∀ (f : RowFinding) (s : State), findingOk s f = true → let domain := frameDomain f.group f.frame
    let row := rowNumber f.group f.frame f.line
    (s.care.domains.getD domain {}).skipped = [] →
    (rowHeld s.care domain row = true → exec (.patrolScrubStep domain [f]) s = .next
      { s with care := s.care.setDomain domain (fun d => { d with skipped := [row] }) }) ∧
    (rowHeld s.care domain row = false →
      (f.err = .oneSymbol → exec (.patrolScrubStep domain [f]) s = .next (scoreEvent (logged s f.log) f.group f.frame f.line 4)) ∧
      (f.err = .oneDevice → exec (.patrolScrubStep domain [f]) s = .next (scoreEvent (logged s f.log) f.group f.frame f.line 16)) ∧
      (f.err = .uncorrectable → exec (.patrolScrubStep domain [f]) s = .next (scoreEvent
        (({ logged s f.log with poison := insertNat (frameBase f.group f.frame + 64 * f.line) s.poison } : State).lineLoss f.group f.frame f.line)
        f.group f.frame f.line 255)))) ∧
  (∀ (domain : Nat) (s : State), exec (.patrolScrubStep domain []) s = .next
    { s with care := s.care.setDomain domain (fun d => { d with skipped := d.skipped.filter (rowHeld s.care domain) }) })

/-- R279: a row's activations are counted at its precharge; at 64 ACTH of its stack (ACTH 0 meaning 1), saturated or with a parity
error, the count is 0 again and the row's neighbours within two rows of its pseudo-channel are refreshed. A parity error is logged
and reported. -/
def Activations : Prop :=
  ∀ (stack row n : Nat) (s : State), stack < 8 → row / 64 * 8 + stack < Config.congruenceGroups →
    let acth := max 1 (((s.care.domains.getD stack {}).mcare).extractLsb' 16 11).toNat
    let rows := [-2, -1, 0, 1, 2].map (fun i => (stack, (row : Int) + 64 * i))
    (actOf s.care stack row + n < acth * 64 →
      ∃ u, exec (.precharge stack row n .good) s = .next u ∧ actOf u.care stack row = actOf s.care stack row + n ∧
        u.care.refreshed = s.care.refreshed) ∧
    (∀ read, read = .saturated ∨ (read = .good ∧ acth * 64 ≤ actOf s.care stack row + n) →
      ∃ u, exec (.precharge stack row n read) s = .next u ∧ actOf u.care stack row = 0 ∧
        u.care.refreshed = rows ∧ u.outbox = s.outbox) ∧
    (∀ f, ∃ u, exec (.precharge stack row n (.parityBad f)) s = .next u ∧ actOf u.care stack row = 0 ∧
      u.care.refreshed = rows ∧ u.plat = logFault s.plat f ∧ u.outbox.length = s.outbox.length + 1)

/-- R367: a fault is logged at FLOGP, which goes on to the next of 256 entries and keeps that it has wrapped; data it struck in the
Cupola, a scratchpad or DRAM is poisoned. -/
def FaultsAreLogged : Prop :=
  ∀ (f : FaultReport) (s : State), ∃ u, exec (.faultDetected f) s = .next u ∧
    (∀ n, n = s.plat.flogp.toNat % 256 → (s.plat.flog = [] ∨ s.plat.flog.length = 256) →
      u.plat.flog.getD n 0 = BitVec.ofNat 128 (f.log.unitCode.toNat + f.log.die.toNat * 0x10000 + f.log.cycles.toNat * 2 ^ 64) ∧
      u.plat.flogp.toNat % 256 = (n + 1) % 256 ∧ (n = 255 ∨ s.plat.flogp.getLsbD 8 = true → u.plat.flogp.getLsbD 8 = true) ∧
      (∀ k, k ≠ n → u.plat.flog.getD k 0 = s.plat.flog.getD k 0)) ∧
    (∀ loc, f.struck = .memory loc → isOutside loc = false → isDram loc = false → unitOf loc ∈ u.poison) ∧
    (∀ loc, f.struck = .memory loc → isDram loc = true → isOutside loc = false → installed s loc = true →
      frameBase (frameServing s.care loc).1 (frameServing s.care loc).2 + 64 * (loc % 0x10000 / 64) ∈ u.poison) ∧
    (f.struck = .nothing → u.mem = s.mem ∧ u.poison = s.poison)

/-! ### Start, resets, trust (R361-R370) -/

/-- Nothing is posted, resident, in flight or queued. -/
structure Idle (s : State) : Prop where
  tasks : s.tasks = []
  teams : s.teams = []
  groups : s.groups = []
  lanterns : s.lanterns = []
  agents : s.agents = []
  locks : s.locks = []
  journal : s.journal = []
  outb : s.outb = []
  stale : s.stale = []
  hostq : s.hostq = []
  issue : s.issue = []
  swaps : s.care.swaps = []
  gang : s.gang = none

/-- The stage after a start, and the fuses that every start keeps (R362, R364). -/
structure Started (s u : State) (warm : Bool) : Prop where
  idle  : Idle u
  ctxs  : u.ctxs = List.replicate 64 {}
  stage : u.plat.stage = 0
  fail  : u.plat.fail = 0
  warm  : u.plat.warm = warm
  open_ : u.plat.lock = false
  power : u.plat.powered = true
  keyh  : u.plat.keyh = s.plat.keyh
  krev  : u.plat.krev = s.plat.krev
  svn   : u.plat.svnmin = s.plat.svnmin
  idkey : u.plat.idkey = s.plat.idkey
  log   : u.plat.flogp = 0

/-- R362, R364, R368, R369: power-on and a cold reset leave nothing but the fuses; a warm reset of an idle device leaves the fuses, DRAM
with its poison and the remap table; loss of power leaves the fuses alone, of which a write in progress may not have
landed. Memory outside the device stays. -/
def Resets : Prop :=
  ∀ (s : State),
    (s.plat.powered = false → ∃ u, exec .powerOn s = .next u ∧ Started s u false ∧
      u.mem = s.mem.filter (fun c => hostBase ≤ c.1) ∧ u.care.remaps = []) ∧
    (s.plat.powered = true → ∃ u, exec .rstcCold s = .next u ∧ Started s u false ∧
      u.mem = s.mem.filter (fun c => hostBase ≤ c.1) ∧ u.care.remaps = []) ∧
    (s.plat.powered = true → ∃ u, exec .rstcWarm s = .next u ∧ Idle u ∧ u.plat.stage = 0 ∧ u.plat.warm = true ∧ u.plat.lock = false ∧
      u.plat.krev = s.plat.krev ∧ u.plat.svnmin = s.plat.svnmin ∧ u.plat.keyh = s.plat.keyh ∧ u.plat.idkey = s.plat.idkey ∧
      (Idle s → u.mem = s.mem.filter (fun c => c.1 < cupolaBase || hostBase ≤ c.1) ∧
        u.poison = s.poison.filter (fun n => n < cupolaBase || hostBase ≤ n) ∧ u.care.remaps = s.care.remaps ∧ u.care.retired = s.care.retired)) ∧
    (∀ landed, s.plat.powered = true → ∃ u, exec (.powerLoss landed) s = .next u ∧ Idle u ∧ u.plat.powered = false ∧
      (s.plat.fuseWas = none ∨ landed = true → u.plat.krev = s.plat.krev ∧ u.plat.svnmin = s.plat.svnmin) ∧
      (∀ k v, s.plat.fuseWas = some (k, v) → landed = false → u.plat.krev = k ∧ u.plat.svnmin = v) ∧
      u.mem = s.mem.filter (fun c => hostBase ≤ c.1)) ∧
    (s.plat.powered = true → ∃ u, exec .thermalShutdown s = .next u ∧ Idle u ∧ u.plat.powered = false ∧
      (s.plat.fuseWas = none → u.plat.krev = s.plat.krev ∧ u.plat.svnmin = s.plat.svnmin))

/-- R362, R366: stage 1 goes on to stage 2; stage 2 to stage 3, with the Cupola reading zero and the repair maps measured, and at a
cold start the remap table at its reset value; or stage 2 stops with FAIL 5 or 6. -/
def StagesAdvance : Prop :=
  ∀ (s : State), s.plat.powered = true → s.plat.fail = 0 →
    (s.plat.stage = 1 → exec (.stageAdvance 0) s = .next { s with plat := { s.plat with stage := 2 } }) ∧
    (s.plat.stage = 2 → ∃ u, exec (.stageAdvance 0) s = .next u ∧ u.plat.stage = 3 ∧ u.plat.fail = 0 ∧
      (s.plat.mlog.length = 4 → u.plat.mlog.getD 3 0 = sha512 Config.repairMaps) ∧
      (∀ c ∈ u.mem, isCupola c.1 = false) ∧ (∀ c ∈ s.mem, isCupola c.1 = false → c ∈ u.mem) ∧
      (s.plat.warm = false → u.care.remaps = [] ∧ u.care.acts = []) ∧ (s.plat.warm = true → u.care = s.care)) ∧
    (∀ c : BitVec 8, s.plat.stage = 2 → (c = 5 ∨ c = 6) → exec (.stageAdvance c) s = .next { s with plat := { s.plat with fail := c } })

/-- R361, R363: what the checks of the image find first: 1 its header, 2 its key, 3 its signature, 4 its version, 0 nothing. -/
def imageFailure (p : Plat) : Nat :=
  let h := p.fwbuf.read 0 256
  let field (off n : Nat) : Nat := natOf ((h.drop off).take n)
  let key := (h.drop 128).take 32
  if field 0 4 ≠ 0x43594657 ∨ field 4 4 % 64 ≠ 0 ∨ 0x800000 - 256 < field 4 4 ∨ 3 < field 12 1 ∨ field 13 51 ≠ 0 ∨ field 160 96 ≠ 0 then 1
  else if (sha512 key).extractLsb' 0 256 ≠ p.keyh.getD (field 12 1) 0 ∨ p.krev.getLsbD (field 12 1) = true then 2
  else if ed25519Verify (BitVec.ofNat 256 (natOf key))
      (bytesOf 64 (sha512 (h.take 64 ++ p.fwbuf.read 256 (field 4 4))).toNat) (BitVec.ofNat 512 (field 64 64)) = false then 3
  else if field 8 4 < p.svnmin.toNat then 4
  else 0

/-- R362-R364, R366: verification takes the device to stage 1 with its fences locked and measured, or with FAIL set (log 77); a quote is taken, and
later signed; KREV bits and SVNMIN only grow, in stage 0. -/
def TrustRequests : Prop :=
  ∀ (s : State), s.plat.powered = true →
    (s.plat.stage = 0 → s.plat.fail = 0 → imageFailure s.plat = 0 → ∃ u, exec .attcVerify s = .next u ∧ u.plat.stage = 1 ∧ u.plat.lock = true ∧
      (s.plat.mlog.length = 4 → u.plat.mlog.getD 2 0 = sha512 (s.plat.hwf.flatMap (fun w => bytesOf 8 w.toNat)) ∧
        u.plat.mlog.getD 1 0 = sha512 (s.plat.fwbuf.read 0 (256 + natOf (s.plat.fwbuf.read 4 4)))) ∧ u.mem = s.mem) ∧
    (s.plat.stage = 0 → s.plat.fail = 0 → imageFailure s.plat ≠ 0 → ∃ u, exec .attcVerify s = .next u ∧
      u.plat.fail = BitVec.ofNat 8 (imageFailure s.plat) ∧ u.plat.stage = 1 ∧ u.plat.lock = s.plat.lock) ∧
    exec .attcQuote s = .next { s with plat := { s.plat with
      quoting := true, attc := 1, quote := s.plat.attn.take 32 ++ bytesOf 2 s.plat.fid.toNat ++ List.replicate 94 0 } } ∧
    (s.plat.quoting = true → exec .quoteReady s = .next { s with plat := { s.plat with
      quoting := false, attc := 0
      quote := s.plat.quote.take 64 ++ bytesOf 64 (ed25519Sign s.plat.idkey
        (bytesOf 64 (sha512 (s.plat.quote.take 64 ++ logBytes s.plat)).toNat)).toNat } }) ∧
    (∀ bits : BitVec 4, s.plat.stage = 0 → exec (.attcRevokeKey bits) s = .next { s with plat := { s.plat with
      krev := s.plat.krev ||| bits, fuseWas := some (s.plat.krev, s.plat.svnmin) } }) ∧
    (s.plat.stage = 0 → exec .attcRaiseSvnmin s = .next { s with plat := { s.plat with
      svnmin := BitVec.ofNat 32 (max s.plat.svnmin.toNat (natOf (s.plat.attn.take 4))), fuseWas := some (s.plat.krev, s.plat.svnmin) } })

/-- R268, R315, R359, R365, R370: the watchdog, which reruns the checks of the image, firmware's window, the clamps, DBGC, TSWS, and a window write, which one that is not aligned or meets no
register answers with event 10. -/
def WindowEvents : Prop :=
  ∀ (s : State),
    (∀ v : DWord, exec (.wdogWrite v) s = .next { s with plat := { s.plat with wdogV := v, wdog := 0, restarting := false } }) ∧
    (∀ dt : Nat, 2 ≤ s.plat.stage.toNat → let run : FirmwareRun := { cycles := dt }
      (s.plat.wdog + dt < 2 ^ 24 → exec (.watchdogExpiry run) s = .next { s with plat := { s.plat with wdog := s.plat.wdog + dt } }) ∧
      (2 ^ 24 ≤ s.plat.wdog + dt → exec (.watchdogExpiry run) s = .next { s with plat := { s.plat with
        wdog := 0, restarting := true
        fail := if imageFailure s.plat = 0 then s.plat.fail else BitVec.ofNat 8 (imageFailure s.plat) } })) ∧
    (∀ pa n : Nat, fwOpen s pa n = false → firmwareRead s pa n = (List.replicate n 0, s)) ∧
    (∀ (pa : Nat) (bs : List Byte), fwOpen s pa bs.length = false → firmwareWrite s pa bs = s) ∧
    (∀ pa n : Nat, fwOpen s pa n = true → pa % 64 + n ≤ 64 → 
      (firmwareRead s pa n).1 = (upFrom pa n).map (fun a => if s.poisoned (unitOf a) then 0 else s.byte a)) ∧
    (∀ (pa : Nat) (bs : List Byte), fwOpen s pa bs.length = true → pa % 64 + bs.length ≤ 64 → held s.care pa = false →
      firmwareWrite s pa bs = s.put pa bs) ∧
    (∀ r : FirmwareRun, s.plat.powered = true → 2 ≤ s.plat.stage.toNat → s.plat.restarting = false →
      exec (.watchdogExpiry r) s = exec (.watchdogExpiry { cycles := r.cycles }) (r.acts.foldl firmwareAct s)) ∧
    exec .powerClamp s = .next { s with plat := { s.plat with clockLow := true } } ∧
    exec .thermalClamp s = .next { s with plat := { s.plat with thermalLow := true } } ∧
    (∀ (core slot : Nat) (v : Word) (g : Machine.Group), s.group? core slot = some g →
      exec (.dbgcWrite core slot v) s = .next (s.setGroup { g with dbgc := v &&& 3 })) ∧
    (∀ q : BitVec 16, ∃ u, exec (.tswsRead q) s = .next u ∧ u.care.swapsDone = 0 ∧ u.care.retired = s.care.retired ∧
      u.outbox = s.outbox ++ [{ type := 0x84, ctx := 0, seqNo := q, arg := 0
                                payload := bytesOf 8 (s.care.swapsDone.toNat + s.care.retired.toNat * 2 ^ 32) }]) ∧
    (∀ (off : BitVec 41) (v : DWord), off.toNat % 8 = 0 → mgmtHolds s off.toNat = true →
      exec (.mgmtRegisterWrite off v) s = .next (writeReg s off.toNat v)) ∧
    (∀ (off : BitVec 41) (v : DWord), off.toNat % 8 ≠ 0 ∨ mgmtHolds s off.toNat = false →
      exec (.mgmtRegisterWrite off v) s = .next (s.event 10 (detail := 2 ^ 63 + off.toNat)))

/-- R8, R26, R284, R302, R359: what a write leaves in a window register: reserved bits read zero, and read-only registers keep what
they hold. -/
def WindowRegisters : Prop :=
  ∀ (s : State) (v : DWord),
    (∀ c < s.ctxs.length, c < 64 → let at_ (r : Nat) : Nat := 0x10000 + 0x1000 * c + r
      ((writeReg s (at_ 0) v).ctx c).hbase = v &&& 0xFFFFFFFFFFFFF000 ∧ ((writeReg s (at_ 8) v).ctx c).sideb = v &&& 0xFFFFFFFFFFFFF000 ∧
      ((writeReg s (at_ 0x10) v).ctx c).ctxc = v.setWidth 32 &&& 0xF) ∧
    (writeReg s 0x80 v).plat.fid = v.setWidth 12 ∧
    (writeReg s 0x88 v).plat.bcfg = v.setWidth 32 &&& 0xF81F ∧
    (writeReg s 0 v) = s ∧ (writeReg s 0x10 v) = s ∧ (writeReg s 0xA0 v) = s

end Sys2Proof.Claims

namespace Sys2Proof.Claims

/-! ### Frames -/

/-- A table's results with a word's latency, where it raises no flag: the integer words, and, where their flags trap nowhere,
the floating-point words. -/
def registerWord (i : LInstr) (pfx : Option (BitVec 25)) : Prop :=
  (arithResult i).isSome = true ∨ (bitResult i).isSome = true ∨ (immResult pfx i).isSome = true ∨ (predResult i).isSome = true

/-- The destination registers of a word. -/
def destinations (i : LInstr) : List Dest := useDst i.use

/-- A register word leaves everything but its group's lanes as it was, every byte of memory among it; of its group it changes the
lanes of its bundle only, and those pass the word and gain writes to its destination registers alone. FPC gains flags in
a floating-point word, and is unchanged in the others. -/
def RegisterWordFrame : Prop :=
  ∀ (i : LInstr) (s : State) (b : Bundle) (g : Machine.Group) (t : Team), LReady i s b g t → g.dbgc.getLsbD 0 = false →
    (registerWord i b.pfx ∨ ∃ lat f, floatResult i = some (lat, f) ∧ (g.issued b 1).quiet (g.activeOf b 1) (laneOuts i b g f)) →
    ∃ u h, exec (Code.l i).instr s = .next u ∧ SameBut b.core b.slot s u ∧ (∀ a, u.byte a = s.byte a) ∧ u.group? b.core b.slot = some h ∧
      h.fe = g.fe ∧ h.m = g.m ∧ h.q = g.q ∧ h.x = g.x ∧ h.dph = g.dph ∧ h.dbgc = g.dbgc ∧ h.specm = g.specm ∧ h.specr = g.specr ∧
      h.traps = g.traps ∧ (registerWord i b.pfx → h.fpc = g.fpc) ∧ h.fpc &&& 0xFFFFFF83 = g.fpc &&& 0xFFFFFF83 ∧
      (∀ j, b.lanes.getLsbD j = false → h.lane j = g.lane j) ∧
      (∀ j, j < g.lanes.length → j < 64 → b.lanes.getLsbD j = true →
        (h.lane j).v = ((g.lane j).pass 1 (b.pos + 4)).v ∧ (h.lane j).p = ((g.lane j).pass 1 (b.pos + 4)).p ∧
        (h.lane j).pc = b.pos + 4 ∧ (h.lane j).slice = (g.lane j).slice ∧ (h.lane j).draws = (g.lane j).draws ∧
        (h.lane j).live = (g.lane j).live ∧
        ∃ new, (h.lane j).pend = ((g.lane j).pass 1 (b.pos + 4)).pend ++ new ∧ ∀ p ∈ new, p.dst ∈ destinations i)

/-- The words that compute one scalar, and the register that each writes: the scalar words, GETC, and the reads of R91. -/
def scalarWritten (pfx : Option (BitVec 25)) : UInstr → Option SReg
  | .getc d _ => some d
  | .vread _ d _ => some d
  | .mread d _ => some d
  | .pread d _ => some d
  | .kread d _ => some d
  | i => (scalarResult pfx i).map (fun r => r.1)

/-- What such a word may read in a deterministic task (R335). -/
def readsFixed (i : UInstr) : Prop :=
  match i with
  | .getc _ n => n.toNat ≠ 3 ∧ n.toNat ≠ 4 ∧ n.toNat < 13
  | .kread _ _ => False
  | _ => True

/-- A scalar word, a control-register read and the other U-set words that compute one scalar leave everything but their group or
lantern as it was, and of it the vector registers, the predicates and every scalar but the destination. -/
def ScalarWordFrame : Prop :=
  ∀ (i : UInstr) (s s1 : State) (x : Ix) (d : SReg), UReady i s x s1 → scalarWritten x.pfx i = some d → (x.t.det = true → readsFixed i) →
    (x.lan = false → (∀ g, s1.group? x.core x.slot = some g → g.dbgc.getLsbD 0 = false) →
      ∃ u, exec (Code.u i).instr s = .next u ∧ SameBut x.core x.slot s u ∧ (∀ a, u.byte a = s.byte a) ∧
        ∀ g h, s1.group? x.core x.slot = some g → u.group? x.core x.slot = some h →
          h.fpc = g.fpc ∧ h.m = g.m ∧ h.q = g.q ∧ h.x = g.x ∧ h.fe.tok = g.fe.tok ∧ h.fe.ops = g.fe.ops ∧ h.fe.sq = g.fe.sq ∧
          h.fe.epc = g.fe.epc ∧ h.fe.handler = g.fe.handler ∧ (∀ r, r ≠ d.toNat → h.fe.sreg r = g.fe.sreg r) ∧
          (∀ j, (h.lane j).v = (g.lane j).v ∧ (h.lane j).p = (g.lane j).p ∧ (h.lane j).pend = (g.lane j).pend ∧ (h.lane j).pc = (g.lane j).pc)) ∧
    (x.lan = true → ∃ u, exec (Code.u i).instr s = .next u ∧ SameBut x.core x.slot s u ∧ (∀ a, u.byte a = s.byte a) ∧
      ∀ l h, s1.lantern? x.core x.slot = some l → u.lantern? x.core x.slot = some h →
        ∃ new, h = { l with pend := l.pend ++ new } ∧ ∀ p ∈ new, p.dst = .s d.toNat)

/-- A store changes no byte of memory as it issues: its bytes stand in the group's store queue. A slice store changes slices
alone. -/
def StoreWordFrame : Prop :=
  ∀ (i : LInstr) (m : MemForm), storeForm i = some m →
  ∀ (s : State) (b : Bundle) (g : Machine.Group) (t : Team) (loc : Nat → Nat) (tso : Nat → Bool), LReady i s b g t → g.dbgc.getLsbD 0 = false →
    (∀ j ∈ lanesIn (g.activeOf b 1), Passes (looked i s b g t m) t b.core g.fe.sq .store m.w (offOf b g m j) (loc j) (tso j) m.sp) →
    ∃ u h, exec (Code.l i).instr s = .next u ∧ u.mem = s.mem ∧ u.poison = s.poison ∧ u.outb = s.outb ∧ u.stale = s.stale ∧ u.agents = s.agents ∧
      (∀ c n, ¬(c = b.core ∧ n = b.slot) → u.group? c n = s.group? c n) ∧ u.lanterns = s.lanterns ∧ u.group? b.core b.slot = some h ∧
      h.fpc = g.fpc ∧ h.m = g.m ∧ h.fe.s = g.fe.s ∧
      (m.sp ≠ .slice → (∀ o ∈ g.fe.ops, o.id ≠ s.ids) → h.fe.tok = bump m.k g.fe.tok) ∧
      (∀ j, (h.lane j).v = ((g.issued b 1).lane j).v ∧ (h.lane j).p = ((g.issued b 1).lane j).p ∧ (h.lane j).pend = ((g.issued b 1).lane j).pend) ∧
      (m.sp ≠ .slice → ∀ j, (h.lane j).slice = (g.lane j).slice) ∧
      (m.sp = .slice → h.fe.sq = g.fe.sq ∧ ∀ j, (g.activeOf b 1).getLsbD j = false → (h.lane j).slice = (g.lane j).slice)

/-- No page has been moved or replaced: every remap entry holds its reset map and no spare, and no swap has written a page. -/
def Unmoved (s : State) : Prop :=
  (∀ r ∈ s.care.remaps, r.map = 0xE4 ∧ r.spares = []) ∧ (∀ w ∈ s.care.swaps, w.phase = .hold ∨ w.phase = .read)

/-- A write that reaches memory puts its bytes where it was sent, and every byte outside them reads as before. -/
def StoredBytes : Prop :=
  ∀ (s : State) (loc : Nat) (bs : List Byte), Unmoved s → s.poison = [] → s.mem.wf = true → (loc + bs.length ≤ dramTop ∨ cupolaBase ≤ loc) →
    (∀ a, (a < dramTop ∨ cupolaBase ≤ a) → (s.put loc bs).byte a = if loc ≤ a ∧ a < loc + bs.length then bs.getD (a - loc) 0 else s.byte a) ∧
    (s.put loc bs).poison = [] ∧ (s.put loc bs).groups = s.groups ∧ (s.put loc bs).outb = s.outb ∧ (s.put loc bs).ctxs = s.ctxs

/-! ### When writes are seen (R12, R15, R28-R30) -/

/-- A lane after it has issued `k` more instructions of one count. -/
def later (pc : Addr) (l : Lane) : Nat → Lane
  | 0 => l
  | k + 1 => (later pc l k).pass 1 pc

/-- R28: the write of a word of latency `n` is not seen by the lane's next n - 1 instructions and is seen from the n-th on, and
at once where the lane settles; no other register changes. Here nothing else is pending in the lane. -/
def VectorWritesShow : Prop :=
  ∀ (l : Lane) (d : VReg) (v : Word) (n k : Nat) (pc : Addr), l.pend = [] → l.spec = none → d.toNat < l.v.length → 0 < n →
    let l1 := later pc (l.pendAll n (w32 d v)) k
    (k < n → l1.v = l.v) ∧ (n ≤ k → l1.v = l.v.set d.toNat v) ∧ l1.settle.v = l.v.set d.toNat v ∧ l1.p = l.p ∧ l1.settle.p = l.p

/-- R12, R28: a predicate write likewise; p0 reads 1 and discards writes. -/
def PredicateWritesShow : Prop :=
  ∀ (l : Lane) (p : PReg) (v : Bool) (n k : Nat) (pc : Addr), l.pend = [] → l.spec = none → p.toNat < 48 → 0 < n →
    let l1 := later pc (l.pendAll n (wp p v)) k
    (k < n → l1.p = l.p) ∧ (n ≤ k → l1.pred p.toNat = (v || decide (p.toNat = 0))) ∧ (∀ q, q ≠ p.toNat → l1.pred q = l.pred q) ∧
    l1.settle.pred p.toNat = (v || decide (p.toNat = 0)) ∧ l1.pred 0 = true ∧ l1.v = l.v

/-- R15, R29: a live lane sees the old value of a written scalar in its next three instructions, and the new one after them or
once it settles; s0 reads zero and discards writes. -/
def ScalarWritesShow : Prop :=
  ∀ (g : Machine.Group) (r j k : Nat) (v : DWord) (pc : Addr), r < g.fe.s.length → (g.lane j).live = true → j < 64 →
    (∀ o ∈ (g.lane j).olds, o.reg ≠ .scalar r) → (g.lane j).pend = [] →
    let h := g.setScalar r v
    let l := later pc (h.lane j) k
    (k < 4 → h.scalarFor l r = g.fe.sreg r) ∧ (4 ≤ k → h.scalarFor l r = if r = 0 then 0 else v) ∧
    h.scalarFor l.settle r = (if r = 0 then 0 else v) ∧ h.fe.sreg 0 = 0 ∧ (∀ q, q ≠ r → h.fe.sreg q = g.fe.sreg q)

/-! ### Illegal words, and words whose lanes are inactive (R50, R55, R56) -/

/-- R55, R56: an illegal L-set word traps its active lanes at vector 0 with the lowest cause; a lane that its guard leaves out only
passes it. -/
def IllegalLaneWordsTrap : Prop :=
  ∀ (w : Word) (c k : Nat) (s : State) (b : Bundle) (g : Machine.Group) (t : Team), Issues s b g t → b.Whole → isLset w = true →
    g.activeOf b 1 ≠ 0 → causeOf w t b.core false g.fe.handler = some k →
    let x : Ix := { b := b, core := b.core, slot := b.slot, t := t, act := g.activeOf b 1, word := w
                    h := (b.lanes &&& g.members true) ≠ 0, pfx := b.pfx }
    illegalWord w c s = .next (unitEnd b x (raise (s.issued b g 1) b.core b.slot { unit := b.unit, word := w, pfx := b.pfx }
      ((lanesIn (g.activeOf b 1)).map (fun j => { lane := j, vec := 0, cause := k }))))

/-- R55, R56, R67: at an illegal U-set word the lanes wait as at a legal one, and once every live lane stands there each of them traps at
vector 0 with the lowest cause. -/
def IllegalUnitWordsTrap : Prop :=
  ∀ (w : Word) (c : Nat) (s : State) (b : Bundle) (g : Machine.Group) (t : Team), Issues s b g t → isLset w = false →
    let h := decide ((b.lanes &&& g.members true) ≠ 0)
    let g1 := g.arrived b
    (∀ k, g1.fullAt h = some b.unit → causeOf w t b.core false h = some k →
      let x : Ix := { b := b, core := b.core, slot := b.slot, t := t, act := g1.members h, word := w, h := h, pfx := b.pfx }
      illegalWord w c s = .next (uEnd x (raise (s.pop.setGroup (leaveJoin g1 (g1.members h) (b.pos + 4))) b.core b.slot
        { unit := b.unit, word := w, pfx := b.pfx, wide := true }
        ((lanesIn (g1.members h)).map (fun j => { lane := j, vec := 0, cause := k }))))) ∧
    (g1.fullAt h ≠ some b.unit → illegalWord w c s = .next (settleJoins (s.pop.setGroup g1) b.core b.slot))

/-- R35, R55, R56: an illegal word traps the lantern at vector 0 with the lowest cause; an L-set word has cause 11 there, if it has none
that is lower. -/
def IllegalLanternWordsTrap : Prop :=
  ∀ (w : Word) (c k : Nat) (s : State) (b : Bundle) (l : Lantern) (t : Team), s.bundle? = some b → ¬ b.slot < 128 →
    s.lantern? b.core b.slot = some l → s.teamOf b.core b.slot = some t → causeOf w t b.core true l.fe.handler = some k →
    (isLset w = true → illegalWord w c s = .next (raiseLantern (s.pop.setLantern l.tick) b.core b.slot
      { unit := b.unit, word := w, pfx := b.pfx } 0 (min k 11) 0)) ∧
    (isLset w = false → illegalWord w c s = .next (raiseLantern (s.pop.setLantern { l.count with pc := b.pos + 4 }) b.core b.slot
      { unit := b.unit, word := w, pfx := b.pfx, wide := true } 0 k 0))

/-- R50: an L-set word that no lane is active in does nothing but pass its lanes on. -/
def InactiveWordsPass : Prop :=
  ∀ (i : LInstr) (s : State) (b : Bundle) (g : Machine.Group) (t : Team), registerWord i b.pfx → Issues s b g t → b.Whole → g.activeOf b 1 = 0 →
    exec (Code.l i).instr s = .next (unitEnd b (Issues.ix i b g t 1) (s.issued b g 1))

/-- R307, R308, R309: checks that fail in lanes outside a handler and not speculated park them at the unit in one split for each
vector, in increasing order of it, each with its lanes from the lowest up; the poison reports that lanes take with it leave the group
(R217). Where no handler can start yet, the splits wait. -/
def SplitsForm : Prop :=
  ∀ (s : State) (core slot : Nat) (g : Machine.Group) (t : Team) (a : At) (hits : List Hit), slot < 128 → s.group? core slot = some g →
    s.team? g.team = some t → hits ≠ [] → (∀ h ∈ hits, h.lane < g.lanes.length ∧ h.lane < 64) →
    (∀ h ∈ hits, (g.lane h.lane).spec = none ∧ (g.lane h.lane).handler = false) → g.fe.handler = true → a.next = false →
    ∃ h xs, raise s core slot a hits = s.setGroup h ∧ h.traps = g.traps ++ xs ∧ (xs.map (·.vec)).Pairwise (· < ·) ∧
      (∀ v, v ∈ xs.map (·.vec) ↔ ∃ k ∈ hits, k.vec = v) ∧
      (∀ x ∈ xs, let mine := (List.range 64).flatMap (fun j => hits.filter (fun k => k.lane = j ∧ k.vec = x.vec))
        x.unit = a.unit ∧ x.epc = a.unit ∧ x.lanes = laneSet (mine.map (·.lane)) ∧ x.causes = mine.map (fun k => (k.lane, k.cause)) ∧
        x.word = a.word ∧ x.pfx = a.pfx ∧ (mine.head?).map (·.addr) = some x.addr ∧ x.reports = mine.filterMap (·.report) ∧
        x.tcode = ((x.reports.head?).map (fun r => r.2.setWidth 32)).getD a.tcode) ∧
      ((∀ k ∈ hits, k.report = none) → h.poison = g.poison) ∧
      (∀ k ∈ hits, (h.lane k.lane).park = .trap ∧ (h.lane k.lane).pc = a.unit) ∧
      (∀ j, (∀ k ∈ hits, k.lane ≠ j) → h.lane j = g.lane j) ∧ h.fe = g.fe

end Sys2Proof.Claims

open Sys2Proof.Claims

/-! ### Encoding and stepping -/

/-- R38: the word of a well-formed instruction decodes to it, with every operand at every value. -/
def Obligations.EncodedWordsDecode : Prop :=
  ∀ (i : Instr) (w : Word), i.wf → encode i = some w → decodeWord w = .ok i

/-- R38, R55: what a word decodes to is well formed and has that word alone. -/
def Obligations.DecodedWordsEncode : Prop :=
  ∀ (w : Word) (i : Instr), decodeWord w = .ok i → i.wf ∧ encode i = some w

/-- Every step keeps the canonical form of memory, poison and absent lines. -/
def Obligations.StepsKeepTheCanonicalForm : Prop :=
  ∀ (s t : State), s.Canonical → step s = .next t → t.Canonical

/-- The state at reset: canonical, stage 0, nothing posted or resident, 64 contexts with their register values, and BCFG, TSWC and
MCARE at theirs. The registers for which the manual states none are zero (log 7), memory
reads zero (log 5), and the ordering code is CY9400-M (log 6): choices of the model. -/
def Obligations.ResetState : Prop :=
  State.reset.Canonical ∧ Idle State.reset ∧ State.reset.plat.stage = 0 ∧ State.reset.plat.fail = 0 ∧ State.reset.plat.lock = false ∧
  State.reset.plat.bcfg = 0xC00C ∧ State.reset.ctxs = List.replicate 64 {} ∧ (State.reset.ctx 0).ctxc = 0xE ∧ (State.reset.ctx 63).ptroot = 0 ∧
  tswcEn State.reset.care.tswc = true ∧ (∀ d < 16, ((State.reset.care.domains.getD d {}).mcare) = 0x0020401B) ∧
  (∀ a, State.reset.byte a = 0) ∧ State.reset.care.remaps = []

/-- Words that the manual's listings give beside their assembly (R51, R85, R118, R155, R172, R185, R206, R218, R239), one or more of each
family, and what they decode to. -/
def Obligations.ListedWordsDecode : Prop :=
  decodeWord 0x40014307#32 = .ok (.iadd true 5 6 7) ∧
  decodeWord 0x0408000A#32 = .ok (.iaddi false 2 0 10) ∧
  decodeWord 0x18610103#32 = .ok (.ffma false 4 2 3) ∧
  decodeWord 0x1E024398#32 = .ok (.frcp false 9 7 3) ∧
  decodeWord 0x22E1440B#32 = .ok (.ldsZ16 false 5 8 1 3) ∧
  decodeWord 0x29A28620#32 = .ok (.atomcMaxloc 10 12 4 0) ∧
  decodeWord 0x2D410188#32 = .ok (.redFadd 4 3 1) ∧
  decodeWord 0x33020000#32 = .ok (.waitk 1 0) ∧
  decodeWord 0x34141032#32 = .ok (.kacc 5 2 3 2) ∧
  decodeWord 0x9C0DB5E1#32 = .ok (.tld 27 26 15 1) ∧
  decodeWord 0xA021B3E0#32 = .ok (.arrive 3 25 15) ∧
  decodeWord 0x83E78004#32 = .ok (.saddi 60 60 4) ∧
  decodeWord 0xA2400000#32 = .ok .eret

/-- R9, R51, R61: with no turn asked for, a step fetches the word at the next place of the bundle that issues first, through its
team's context; a bundle of lanes that have waited for an access performs it, and lanes with a poison report take it first. A word that decodes runs as `exec` of its instruction, at that state with the translation cached that the fetch
took; an illegal one and a fetch that fails trap. A turn of the agenda comes before, and names a step of the device or the bundle
that goes on. The order of steps (log 2), the vectors and causes of failed fetches (log 11) and the cached translation (log 16)
are the model's choices. -/
def Obligations.StepRunsTheDecodedWord : Prop :=
  ∀ (s : State),
    (∀ (b : Bundle) (rest : List Bundle) (t : Team), s.agenda = [] → s.issue = b :: rest → s.teamOf b.core b.slot = some t →
      runsFirst s b = b → b.duty = .word → b.present s = b → b.left s = false →
      (∀ g, s.group? b.core b.slot = some g → reportHits g b.lanes = []) →
      (∀ w i, fetch s t.ctx b.pos = .word w → decodeWord w = .ok i → step s = exec i (s.touch t.ctx b.pos.toNat)) ∧
      (∀ w c, fetch s t.ctx b.pos = .word w → decodeWord w = .error (.illegal c) → step s = illegalWord w c (s.touch t.ctx b.pos.toNat)) ∧
      (∀ v k, fetch s t.ctx b.pos = .trap v k → step s = .next (fetchFault b v k (s.touch t.ctx b.pos.toNat)))) ∧
    (∀ b rest, s.agenda = [] → s.issue = b :: rest → runsFirst s b = b → b.duty ≠ .word → step s = .next (runWake b none { s with issue := rest })) ∧
    (∀ i rest, s.agenda = .event i :: rest → i.code = none → step s = exec i { s with agenda := rest }) ∧
    (∀ core slot rest b t, s.agenda = .word core slot :: rest → s.bundleOf core slot = some b → s.teamOf b.core b.slot = some t →
      let s0 : State := { s with agenda := rest }
      let s1 : State := { s0 with issue := b :: s.issue.erase b }
      runsFirst s0 b = b → b.duty = .word → b.present s0 = b → b.left s0 = false →
      (∀ g, s.group? b.core b.slot = some g → reportHits g b.lanes = []) →
      (∀ w i, fetch s1 t.ctx b.pos = .word w → decodeWord w = .ok i → step s = exec i (s1.touch t.ctx b.pos.toNat)) ∧
      (∀ w c, fetch s1 t.ctx b.pos = .word w → decodeWord w = .error (.illegal c) → step s = illegalWord w c (s1.touch t.ctx b.pos.toNat)) ∧
      (∀ v k, fetch s1 t.ctx b.pos = .trap v k → step s = .next (fetchFault b v k (s1.touch t.ctx b.pos.toNat))))

/-! ### The families together -/

/-- R48, R79-R87: the integer words of a lane and the predicate words each give every active lane the result of its table, visible to
its 4th instruction; and the words of the compares. -/
def Obligations.IntegerWords : Prop := ArithmeticWords ∧ ShiftAndFieldWords ∧ ImmediateWords ∧ PredicateWords ∧ ConditionCodes

/-- R53, R67, R110, R128-R130, R336: CVT, and the join that a dithered one makes in a deterministic task. -/
def Obligations.ConversionWords : Prop := ConversionWord ∧ DitheredConversionJoins

/-- R31, R33, R125, R126, R132-R134: special functions, random numbers and counts issue on their token, and leave their lanes' registers as they
were until they land. -/
def Obligations.LongLatencyWords : Prop := SpecialFunctionWords ∧ LongLatencyIssue ∧ RandomAndCountWords

/-- R150, R155-R163: the loads and PRS, and how a load waits for its line and is performed. -/
def Obligations.LoadWords : Prop := Claims.LoadWords ∧ LoadsPark ∧ ParkedLoadsWake ∧ PresenceWord

/-- R139, R168: the scalar loads and stores. -/
def Obligations.ScalarAccesses : Prop := ScalarLoads ∧ ScalarStores

/-- R152, R225-R227: GATH and SCAT. -/
def Obligations.GlobalAccesses : Prop := GatherWords ∧ ScatterWords

/-- R111, R112, R172-R182: the cross-lane words. What a handler keeps of a requirement (log 17) and when a GUARD is taken (log 83) are the
model's choices. -/
def Obligations.CrossLaneWords : Prop := Claims.CrossLaneWords ∧ CrossLaneArrival

/-- R69, R72-R76: NOP, DLY, YIELD, EXIT, JOIN, EXITS and REGROUP. -/
def Obligations.ControlWords : Prop := NopAndDelay ∧ YieldWord ∧ ExitWord ∧ JoinWord ∧ ExitsAndRegroupPark

/-- R61, R62, R33: BRA, with a token and without. -/
def Obligations.BranchWord : Prop := Branches ∧ BranchesSpeculate

/-- R69, R70, R72: when a join releases, and what retiring lanes leave behind. -/
def Obligations.JoinsAndRetirement : Prop := JoinRelease ∧ RetiredLanesAreForgotten

/-- R30, R77, R147, R169, R236, R242: WAITK, SYNCE, FENCE and WAITBM. -/
def Obligations.WaitingWords : Prop := WaitOnTokens ∧ WaitForOperations ∧ FenceWord ∧ WaitOnBitmap

/-- R48-R50: GUARD and PFX. -/
def Obligations.PrefixWords : Prop := GuardWord ∧ PrefixWord

/-- R78, R312, R313: BKPT, TRAP and ERET. -/
def Obligations.TrapAndReturnWords : Prop := SoftwareTraps ∧ ReturnFromHandler

/-- R15, R29, R64-R66, R88-R90: the scalar words, with SBR, JMP, CALL and RET. -/
def Obligations.ScalarWords : Prop := Claims.ScalarWords ∧ ScalarTransfers ∧ CallLinks ∧ ConditionCodes

/-- R91, R92: VBCAST, VREAD and the moves of masks, predicates and token counts, in a group and in the lantern. -/
def Obligations.MoveWords : Prop := LaneAndGroupMoves ∧ LanternMoves

/-- R183-R190: KACC, one lane's turn at the partition, and, where the partition is ordered, the turns of the groups. -/
def Obligations.KeyedAccumulation : Prop := KeyedAccumulate ∧ KeyedTurn ∧ KeyedTurns ∧ TurnstileAdvances

/-- R192-R194: the other words of the keyed store. -/
def Obligations.KeyedWords : Prop := KeyedFind ∧ KeyedControl ∧ KeyedDrain

/-- R200-R217: the tile words, the queues they go through, and what each command but MXGO does as it completes. -/
def Obligations.TileWords : Prop := TileMoves ∧ TileOperations ∧ TileCommandQueues ∧ TileCommandsComplete ∧ TileCommandResults ∧ LoadResults ∧ StoreResults ∧ ConversionResults ∧ QuantisedValues ∧ PackResults

/-- R218-R224: CPY and CUPOP. -/
def Obligations.CopyWords : Prop := TeamCopies ∧ CopyInstanceStarts ∧ BankOperations

/-- R228-R235: POST, ARRIVE, APPEND and SEAL, and how a record is posted. -/
def Obligations.TaskWords : Prop := PostWord ∧ ArriveWord ∧ AppendAndSeal ∧ RecordsArePosted

/-- R237: TBAR and PBAR. -/
def Obligations.BarrierWords : Prop := Barriers

/-- R36, R237, R238: the decision queue, in order, and what its events do. -/
def Obligations.QueueWords : Prop := Claims.QueueWords ∧ QueueOrder ∧ TeamEvents

/-- R239, R240: GETC and SETC. That EPC is written in a handler only is the model's reading (log 85). -/
def Obligations.ControlRegisters : Prop := ReadControl ∧ WriteControl

/-- What the register words and the scalar words leave as it was. -/
def Obligations.RegisterFrames : Prop := RegisterWordFrame ∧ ScalarWordFrame

/-- What stores leave as it was, as they issue and as their bytes reach memory. -/
def Obligations.StoreFrames : Prop := StoreWordFrame ∧ StoredBytes

/-- R12, R15, R28, R29: when a lane sees a write. -/
def Obligations.WritesBecomeVisible : Prop := VectorWritesShow ∧ PredicateWritesShow ∧ ScalarWritesShow

/-- R35, R50, R55, R56, R67, R307-R309: illegal words, inactive words and the splits of failed checks. -/
def Obligations.FailedChecks : Prop := IllegalLaneWordsTrap ∧ IllegalUnitWordsTrap ∧ IllegalLanternWordsTrap ∧ InactiveWordsPass ∧ SplitsForm

/-! ### The steps of the device -/

/-- R31, R59, R72, R134, R138, R227, R295-R297: core cycles, ages, landings and the freeing of a slot. That the two bundles of a cycle run one
after the other is the model's reading (log 59), and what two YIELDs withhold is its choice (log 105). -/
def Obligations.FrontEndEvents : Prop := UnitSelection ∧ OneGroupIssues ∧ PcAges ∧ ResultsLand ∧ SlotFrees

/-- R34: the end of a speculation. -/
def Obligations.SpeculationEnds : Prop := Claims.SpeculationEnds

/-- R30, R69, R73, R74, R236, R242, R253: how parked lanes go on. -/
def Obligations.ParkedLanesGoOn : Prop := WaitersGoOn ∧ ParkedUnitsGoOn ∧ ExitsRestarts ∧ RegroupPacks

/-- R304-R306, R309, R310: how a handler starts, and the record that it finds. -/
def Obligations.TrapEntry : Prop := RecordLayout ∧ HandlersStart

/-- R139-R143, R269: stores on their way, and stale copies; that a poisoned line is not copied is the model's choice (log 19). -/
def Obligations.StoresReachMemory : Prop := EntriesLeave ∧ EntriesReachMemory ∧ StaleCopies

/-- R148-R150, R220, R222, R224, R233, R257, R289, R294: the work of agents. -/
def Obligations.AgentEvents : Prop := AgentSteps ∧ InstancesStart ∧ InstancesComplete ∧ AgentsComplete

/-- R27, R244, R287: what a group holds as it starts. -/
def Obligations.GroupStart : Prop := GroupsStart

/-- R286-R291: what the distributor decides. -/
def Obligations.DistributorDecides : Prop := OneTeamPlaced ∧ DistributorEvents

/-- R231, R289, R300, R318: the ends of teams, of pre-emption requests and of saves. The order in which deadlines pass (log 20), what a
save keeps beside its image (log 51) and how it ends where its buffer fails (log 53) are the model's choices. -/
def Obligations.TeamsAndRequestsEnd : Prop := WriteBackStarts ∧ TeamsRetire ∧ DeadlinesExpire ∧ SavesComplete

/-- R343-R349: what the device does with the host's messages; that a request makes every core discard its stale copies is the
model's reading of R345 (log 67). -/
def Obligations.LinkEvents : Prop := HostPosts ∧ HostWrites ∧ HostReads ∧ HostTaskRequests ∧ MalformedMessages

/-- R325, R331, R332: invalidations. That INV counts as an acquire of every core is the model's reading of R345 (log 67), and that a new
root waits for everything begun under the old one is log 80. -/
def Obligations.InvalidationsRun : Prop := Invalidations

/-- R321, R322, R350: a forced reset. What queues, channels and agents of the context still owe is performed or not, entry by entry, as
the free bits say (log 3). -/
def Obligations.ForcedResetEmptiesItsContext : Prop := ForcedResetEmptiesContext

/-- R322, R353-R358: the fabric; the codes of answers to other devices are the model's choice (log 65). -/
def Obligations.FabricEvents : Prop := RemoteAccesses ∧ Collectives

/-- R264-R273, R277: swaps and retirements, phase by phase, and the pages they move; the place of spares is the model's choice
(log 63). -/
def Obligations.SwapsAndRetirements : Prop := SwapPhases ∧ RetirementPhases ∧ PagesMoveWhole

/-- R271, R275-R277, R279, R367: scores, activation counters and the fault log. -/
def Obligations.CareEvents : Prop := Scores ∧ Activations ∧ FaultsAreLogged

/-- R361-R369: starts, resets and the requests of trust. What memory (log 5) and the registers without a stated value (log 7) hold after
a reset, the bytes and the definitions of SHA-512 and Ed25519 (log 8), the fuse write that a power loss may undo (log 76) and the
stage of a failed check (log 77) are the model's choices. -/
def Obligations.StartEvents : Prop := Resets ∧ StagesAdvance ∧ TrustRequests

/-- R8, R26, R359, R365, R370: the window, the watchdog and the clamps. What a controller that is reset does until WDOG is written
(log 70), and that the accesses of firmware are named by the watchdog's step, with the Cupola's physical addresses (log 112), are the model's choices. -/
def Obligations.WindowEvents : Prop := Claims.WindowEvents ∧ WindowRegisters
end

