-- ==== Sys2Proof/Laws/State.lean ====
section
/-! SUPPORT. Each field after each update of a state, and what is found after a replacement. -/

namespace Sys2Proof.Machine

@[simp] theorem State.setGroup_moduleM (s : State) (g : Group) : (s.setGroup g).moduleM = s.moduleM := rfl
@[simp] theorem State.setGroup_plat (s : State) (g : Group) : (s.setGroup g).plat = s.plat := rfl
@[simp] theorem State.setGroup_care (s : State) (g : Group) : (s.setGroup g).care = s.care := rfl
@[simp] theorem State.setGroup_mem (s : State) (g : Group) : (s.setGroup g).mem = s.mem := rfl
@[simp] theorem State.setGroup_poison (s : State) (g : Group) : (s.setGroup g).poison = s.poison := rfl
@[simp] theorem State.setGroup_absent (s : State) (g : Group) : (s.setGroup g).absent = s.absent := rfl
@[simp] theorem State.setGroup_ctxs (s : State) (g : Group) : (s.setGroup g).ctxs = s.ctxs := rfl
@[simp] theorem State.setGroup_tasks (s : State) (g : Group) : (s.setGroup g).tasks = s.tasks := rfl
@[simp] theorem State.setGroup_now (s : State) (g : Group) : (s.setGroup g).now = s.now := rfl
@[simp] theorem State.setGroup_readies (s : State) (g : Group) : (s.setGroup g).readies = s.readies := rfl
@[simp] theorem State.setGroup_gang (s : State) (g : Group) : (s.setGroup g).gang = s.gang := rfl
@[simp] theorem State.setGroup_preempts (s : State) (g : Group) : (s.setGroup g).preempts = s.preempts := rfl
@[simp] theorem State.setGroup_saves (s : State) (g : Group) : (s.setGroup g).saves = s.saves := rfl
@[simp] theorem State.setGroup_kept (s : State) (g : Group) : (s.setGroup g).kept = s.kept := rfl
@[simp] theorem State.setGroup_invs (s : State) (g : Group) : (s.setGroup g).invs = s.invs := rfl
@[simp] theorem State.setGroup_teams (s : State) (g : Group) : (s.setGroup g).teams = s.teams := rfl
@[simp] theorem State.setGroup_groups (s : State) (g : Group) : (s.setGroup g).groups = s.groups.map (fun x => if x.core = g.core ∧ x.slot = g.slot then g else x) := rfl
@[simp] theorem State.setGroup_lanterns (s : State) (g : Group) : (s.setGroup g).lanterns = s.lanterns := rfl
@[simp] theorem State.setGroup_cores (s : State) (g : Group) : (s.setGroup g).cores = s.cores := rfl
@[simp] theorem State.setGroup_outb (s : State) (g : Group) : (s.setGroup g).outb = s.outb := rfl
@[simp] theorem State.setGroup_stale (s : State) (g : Group) : (s.setGroup g).stale = s.stale := rfl
@[simp] theorem State.setGroup_agents (s : State) (g : Group) : (s.setGroup g).agents = s.agents := rfl
@[simp] theorem State.setGroup_locks (s : State) (g : Group) : (s.setGroup g).locks = s.locks := rfl
@[simp] theorem State.setGroup_journal (s : State) (g : Group) : (s.setGroup g).journal = s.journal := rfl
@[simp] theorem State.setGroup_hostq (s : State) (g : Group) : (s.setGroup g).hostq = s.hostq := rfl
@[simp] theorem State.setGroup_outbox (s : State) (g : Group) : (s.setGroup g).outbox = s.outbox := rfl
@[simp] theorem State.setGroup_fabric (s : State) (g : Group) : (s.setGroup g).fabric = s.fabric := rfl
@[simp] theorem State.setGroup_issue (s : State) (g : Group) : (s.setGroup g).issue = s.issue := rfl
@[simp] theorem State.setGroup_agenda (s : State) (g : Group) : (s.setGroup g).agenda = s.agenda := rfl
@[simp] theorem State.setGroup_choices (s : State) (g : Group) : (s.setGroup g).choices = s.choices := rfl
@[simp] theorem State.setGroup_freeBits (s : State) (g : Group) : (s.setGroup g).freeBits = s.freeBits := rfl
@[simp] theorem State.setGroup_ids (s : State) (g : Group) : (s.setGroup g).ids = s.ids := rfl
@[simp] theorem State.setGroup_turn (s : State) (g : Group) : (s.setGroup g).turn = s.turn := rfl

@[simp] theorem State.setLantern_moduleM (s : State) (l : Lantern) : (s.setLantern l).moduleM = s.moduleM := rfl
@[simp] theorem State.setLantern_plat (s : State) (l : Lantern) : (s.setLantern l).plat = s.plat := rfl
@[simp] theorem State.setLantern_care (s : State) (l : Lantern) : (s.setLantern l).care = s.care := rfl
@[simp] theorem State.setLantern_mem (s : State) (l : Lantern) : (s.setLantern l).mem = s.mem := rfl
@[simp] theorem State.setLantern_poison (s : State) (l : Lantern) : (s.setLantern l).poison = s.poison := rfl
@[simp] theorem State.setLantern_absent (s : State) (l : Lantern) : (s.setLantern l).absent = s.absent := rfl
@[simp] theorem State.setLantern_ctxs (s : State) (l : Lantern) : (s.setLantern l).ctxs = s.ctxs := rfl
@[simp] theorem State.setLantern_tasks (s : State) (l : Lantern) : (s.setLantern l).tasks = s.tasks := rfl
@[simp] theorem State.setLantern_now (s : State) (l : Lantern) : (s.setLantern l).now = s.now := rfl
@[simp] theorem State.setLantern_readies (s : State) (l : Lantern) : (s.setLantern l).readies = s.readies := rfl
@[simp] theorem State.setLantern_gang (s : State) (l : Lantern) : (s.setLantern l).gang = s.gang := rfl
@[simp] theorem State.setLantern_preempts (s : State) (l : Lantern) : (s.setLantern l).preempts = s.preempts := rfl
@[simp] theorem State.setLantern_saves (s : State) (l : Lantern) : (s.setLantern l).saves = s.saves := rfl
@[simp] theorem State.setLantern_kept (s : State) (l : Lantern) : (s.setLantern l).kept = s.kept := rfl
@[simp] theorem State.setLantern_invs (s : State) (l : Lantern) : (s.setLantern l).invs = s.invs := rfl
@[simp] theorem State.setLantern_teams (s : State) (l : Lantern) : (s.setLantern l).teams = s.teams := rfl
@[simp] theorem State.setLantern_groups (s : State) (l : Lantern) : (s.setLantern l).groups = s.groups := rfl
@[simp] theorem State.setLantern_lanterns (s : State) (l : Lantern) : (s.setLantern l).lanterns = s.lanterns.map (fun x => if x.core = l.core ∧ x.slot = l.slot then l else x) := rfl
@[simp] theorem State.setLantern_cores (s : State) (l : Lantern) : (s.setLantern l).cores = s.cores := rfl
@[simp] theorem State.setLantern_outb (s : State) (l : Lantern) : (s.setLantern l).outb = s.outb := rfl
@[simp] theorem State.setLantern_stale (s : State) (l : Lantern) : (s.setLantern l).stale = s.stale := rfl
@[simp] theorem State.setLantern_agents (s : State) (l : Lantern) : (s.setLantern l).agents = s.agents := rfl
@[simp] theorem State.setLantern_locks (s : State) (l : Lantern) : (s.setLantern l).locks = s.locks := rfl
@[simp] theorem State.setLantern_journal (s : State) (l : Lantern) : (s.setLantern l).journal = s.journal := rfl
@[simp] theorem State.setLantern_hostq (s : State) (l : Lantern) : (s.setLantern l).hostq = s.hostq := rfl
@[simp] theorem State.setLantern_outbox (s : State) (l : Lantern) : (s.setLantern l).outbox = s.outbox := rfl
@[simp] theorem State.setLantern_fabric (s : State) (l : Lantern) : (s.setLantern l).fabric = s.fabric := rfl
@[simp] theorem State.setLantern_issue (s : State) (l : Lantern) : (s.setLantern l).issue = s.issue := rfl
@[simp] theorem State.setLantern_agenda (s : State) (l : Lantern) : (s.setLantern l).agenda = s.agenda := rfl
@[simp] theorem State.setLantern_choices (s : State) (l : Lantern) : (s.setLantern l).choices = s.choices := rfl
@[simp] theorem State.setLantern_freeBits (s : State) (l : Lantern) : (s.setLantern l).freeBits = s.freeBits := rfl
@[simp] theorem State.setLantern_ids (s : State) (l : Lantern) : (s.setLantern l).ids = s.ids := rfl
@[simp] theorem State.setLantern_turn (s : State) (l : Lantern) : (s.setLantern l).turn = s.turn := rfl

@[simp] theorem State.setTeam_moduleM (s : State) (t : Team) : (s.setTeam t).moduleM = s.moduleM := rfl
@[simp] theorem State.setTeam_plat (s : State) (t : Team) : (s.setTeam t).plat = s.plat := rfl
@[simp] theorem State.setTeam_care (s : State) (t : Team) : (s.setTeam t).care = s.care := rfl
@[simp] theorem State.setTeam_mem (s : State) (t : Team) : (s.setTeam t).mem = s.mem := rfl
@[simp] theorem State.setTeam_poison (s : State) (t : Team) : (s.setTeam t).poison = s.poison := rfl
@[simp] theorem State.setTeam_absent (s : State) (t : Team) : (s.setTeam t).absent = s.absent := rfl
@[simp] theorem State.setTeam_ctxs (s : State) (t : Team) : (s.setTeam t).ctxs = s.ctxs := rfl
@[simp] theorem State.setTeam_tasks (s : State) (t : Team) : (s.setTeam t).tasks = s.tasks := rfl
@[simp] theorem State.setTeam_now (s : State) (t : Team) : (s.setTeam t).now = s.now := rfl
@[simp] theorem State.setTeam_readies (s : State) (t : Team) : (s.setTeam t).readies = s.readies := rfl
@[simp] theorem State.setTeam_gang (s : State) (t : Team) : (s.setTeam t).gang = s.gang := rfl
@[simp] theorem State.setTeam_preempts (s : State) (t : Team) : (s.setTeam t).preempts = s.preempts := rfl
@[simp] theorem State.setTeam_saves (s : State) (t : Team) : (s.setTeam t).saves = s.saves := rfl
@[simp] theorem State.setTeam_kept (s : State) (t : Team) : (s.setTeam t).kept = s.kept := rfl
@[simp] theorem State.setTeam_invs (s : State) (t : Team) : (s.setTeam t).invs = s.invs := rfl
@[simp] theorem State.setTeam_teams (s : State) (t : Team) : (s.setTeam t).teams = s.teams.map (fun x => if x.id = t.id then t else x) := rfl
@[simp] theorem State.setTeam_groups (s : State) (t : Team) : (s.setTeam t).groups = s.groups := rfl
@[simp] theorem State.setTeam_lanterns (s : State) (t : Team) : (s.setTeam t).lanterns = s.lanterns := rfl
@[simp] theorem State.setTeam_cores (s : State) (t : Team) : (s.setTeam t).cores = s.cores := rfl
@[simp] theorem State.setTeam_outb (s : State) (t : Team) : (s.setTeam t).outb = s.outb := rfl
@[simp] theorem State.setTeam_stale (s : State) (t : Team) : (s.setTeam t).stale = s.stale := rfl
@[simp] theorem State.setTeam_agents (s : State) (t : Team) : (s.setTeam t).agents = s.agents := rfl
@[simp] theorem State.setTeam_locks (s : State) (t : Team) : (s.setTeam t).locks = s.locks := rfl
@[simp] theorem State.setTeam_journal (s : State) (t : Team) : (s.setTeam t).journal = s.journal := rfl
@[simp] theorem State.setTeam_hostq (s : State) (t : Team) : (s.setTeam t).hostq = s.hostq := rfl
@[simp] theorem State.setTeam_outbox (s : State) (t : Team) : (s.setTeam t).outbox = s.outbox := rfl
@[simp] theorem State.setTeam_fabric (s : State) (t : Team) : (s.setTeam t).fabric = s.fabric := rfl
@[simp] theorem State.setTeam_issue (s : State) (t : Team) : (s.setTeam t).issue = s.issue := rfl
@[simp] theorem State.setTeam_agenda (s : State) (t : Team) : (s.setTeam t).agenda = s.agenda := rfl
@[simp] theorem State.setTeam_choices (s : State) (t : Team) : (s.setTeam t).choices = s.choices := rfl
@[simp] theorem State.setTeam_freeBits (s : State) (t : Team) : (s.setTeam t).freeBits = s.freeBits := rfl
@[simp] theorem State.setTeam_ids (s : State) (t : Team) : (s.setTeam t).ids = s.ids := rfl
@[simp] theorem State.setTeam_turn (s : State) (t : Team) : (s.setTeam t).turn = s.turn := rfl

@[simp] theorem State.setTask_moduleM (s : State) (t : Task) : (s.setTask t).moduleM = s.moduleM := rfl
@[simp] theorem State.setTask_plat (s : State) (t : Task) : (s.setTask t).plat = s.plat := rfl
@[simp] theorem State.setTask_care (s : State) (t : Task) : (s.setTask t).care = s.care := rfl
@[simp] theorem State.setTask_mem (s : State) (t : Task) : (s.setTask t).mem = s.mem := rfl
@[simp] theorem State.setTask_poison (s : State) (t : Task) : (s.setTask t).poison = s.poison := rfl
@[simp] theorem State.setTask_absent (s : State) (t : Task) : (s.setTask t).absent = s.absent := rfl
@[simp] theorem State.setTask_ctxs (s : State) (t : Task) : (s.setTask t).ctxs = s.ctxs := rfl
@[simp] theorem State.setTask_tasks (s : State) (t : Task) : (s.setTask t).tasks = s.tasks.map (fun x => if x.slot = t.slot then t else x) := rfl
@[simp] theorem State.setTask_now (s : State) (t : Task) : (s.setTask t).now = s.now := rfl
@[simp] theorem State.setTask_readies (s : State) (t : Task) : (s.setTask t).readies = s.readies := rfl
@[simp] theorem State.setTask_gang (s : State) (t : Task) : (s.setTask t).gang = s.gang := rfl
@[simp] theorem State.setTask_preempts (s : State) (t : Task) : (s.setTask t).preempts = s.preempts := rfl
@[simp] theorem State.setTask_saves (s : State) (t : Task) : (s.setTask t).saves = s.saves := rfl
@[simp] theorem State.setTask_kept (s : State) (t : Task) : (s.setTask t).kept = s.kept := rfl
@[simp] theorem State.setTask_invs (s : State) (t : Task) : (s.setTask t).invs = s.invs := rfl
@[simp] theorem State.setTask_teams (s : State) (t : Task) : (s.setTask t).teams = s.teams := rfl
@[simp] theorem State.setTask_groups (s : State) (t : Task) : (s.setTask t).groups = s.groups := rfl
@[simp] theorem State.setTask_lanterns (s : State) (t : Task) : (s.setTask t).lanterns = s.lanterns := rfl
@[simp] theorem State.setTask_cores (s : State) (t : Task) : (s.setTask t).cores = s.cores := rfl
@[simp] theorem State.setTask_outb (s : State) (t : Task) : (s.setTask t).outb = s.outb := rfl
@[simp] theorem State.setTask_stale (s : State) (t : Task) : (s.setTask t).stale = s.stale := rfl
@[simp] theorem State.setTask_agents (s : State) (t : Task) : (s.setTask t).agents = s.agents := rfl
@[simp] theorem State.setTask_locks (s : State) (t : Task) : (s.setTask t).locks = s.locks := rfl
@[simp] theorem State.setTask_journal (s : State) (t : Task) : (s.setTask t).journal = s.journal := rfl
@[simp] theorem State.setTask_hostq (s : State) (t : Task) : (s.setTask t).hostq = s.hostq := rfl
@[simp] theorem State.setTask_outbox (s : State) (t : Task) : (s.setTask t).outbox = s.outbox := rfl
@[simp] theorem State.setTask_fabric (s : State) (t : Task) : (s.setTask t).fabric = s.fabric := rfl
@[simp] theorem State.setTask_issue (s : State) (t : Task) : (s.setTask t).issue = s.issue := rfl
@[simp] theorem State.setTask_agenda (s : State) (t : Task) : (s.setTask t).agenda = s.agenda := rfl
@[simp] theorem State.setTask_choices (s : State) (t : Task) : (s.setTask t).choices = s.choices := rfl
@[simp] theorem State.setTask_freeBits (s : State) (t : Task) : (s.setTask t).freeBits = s.freeBits := rfl
@[simp] theorem State.setTask_ids (s : State) (t : Task) : (s.setTask t).ids = s.ids := rfl
@[simp] theorem State.setTask_turn (s : State) (t : Task) : (s.setTask t).turn = s.turn := rfl

@[simp] theorem State.pop_moduleM (s : State)  : s.pop.moduleM = s.moduleM := rfl
@[simp] theorem State.pop_plat (s : State)  : s.pop.plat = s.plat := rfl
@[simp] theorem State.pop_care (s : State)  : s.pop.care = s.care := rfl
@[simp] theorem State.pop_mem (s : State)  : s.pop.mem = s.mem := rfl
@[simp] theorem State.pop_poison (s : State)  : s.pop.poison = s.poison := rfl
@[simp] theorem State.pop_absent (s : State)  : s.pop.absent = s.absent := rfl
@[simp] theorem State.pop_ctxs (s : State)  : s.pop.ctxs = s.ctxs := rfl
@[simp] theorem State.pop_tasks (s : State)  : s.pop.tasks = s.tasks := rfl
@[simp] theorem State.pop_now (s : State)  : s.pop.now = s.now := rfl
@[simp] theorem State.pop_readies (s : State)  : s.pop.readies = s.readies := rfl
@[simp] theorem State.pop_gang (s : State)  : s.pop.gang = s.gang := rfl
@[simp] theorem State.pop_preempts (s : State)  : s.pop.preempts = s.preempts := rfl
@[simp] theorem State.pop_saves (s : State)  : s.pop.saves = s.saves := rfl
@[simp] theorem State.pop_kept (s : State)  : s.pop.kept = s.kept := rfl
@[simp] theorem State.pop_invs (s : State)  : s.pop.invs = s.invs := rfl
@[simp] theorem State.pop_teams (s : State)  : s.pop.teams = s.teams := rfl
@[simp] theorem State.pop_groups (s : State)  : s.pop.groups = s.groups := rfl
@[simp] theorem State.pop_lanterns (s : State)  : s.pop.lanterns = s.lanterns := rfl
@[simp] theorem State.pop_cores (s : State)  : s.pop.cores = s.cores := rfl
@[simp] theorem State.pop_outb (s : State)  : s.pop.outb = s.outb := rfl
@[simp] theorem State.pop_stale (s : State)  : s.pop.stale = s.stale := rfl
@[simp] theorem State.pop_agents (s : State)  : s.pop.agents = s.agents := rfl
@[simp] theorem State.pop_locks (s : State)  : s.pop.locks = s.locks := rfl
@[simp] theorem State.pop_journal (s : State)  : s.pop.journal = s.journal := rfl
@[simp] theorem State.pop_hostq (s : State)  : s.pop.hostq = s.hostq := rfl
@[simp] theorem State.pop_outbox (s : State)  : s.pop.outbox = s.outbox := rfl
@[simp] theorem State.pop_fabric (s : State)  : s.pop.fabric = s.fabric := rfl
@[simp] theorem State.pop_issue (s : State)  : s.pop.issue = s.issue.drop 1 := rfl
@[simp] theorem State.pop_agenda (s : State)  : s.pop.agenda = s.agenda := rfl
@[simp] theorem State.pop_choices (s : State)  : s.pop.choices = s.choices := rfl
@[simp] theorem State.pop_freeBits (s : State)  : s.pop.freeBits = s.freeBits := rfl
@[simp] theorem State.pop_ids (s : State)  : s.pop.ids = s.ids := rfl
@[simp] theorem State.pop_turn (s : State)  : s.pop.turn = s.turn := rfl

@[simp] theorem State.send_moduleM (s : State) (m : OutMsg) : (s.send m).moduleM = s.moduleM := rfl
@[simp] theorem State.send_plat (s : State) (m : OutMsg) : (s.send m).plat = s.plat := rfl
@[simp] theorem State.send_care (s : State) (m : OutMsg) : (s.send m).care = s.care := rfl
@[simp] theorem State.send_mem (s : State) (m : OutMsg) : (s.send m).mem = s.mem := rfl
@[simp] theorem State.send_poison (s : State) (m : OutMsg) : (s.send m).poison = s.poison := rfl
@[simp] theorem State.send_absent (s : State) (m : OutMsg) : (s.send m).absent = s.absent := rfl
@[simp] theorem State.send_ctxs (s : State) (m : OutMsg) : (s.send m).ctxs = s.ctxs := rfl
@[simp] theorem State.send_tasks (s : State) (m : OutMsg) : (s.send m).tasks = s.tasks := rfl
@[simp] theorem State.send_now (s : State) (m : OutMsg) : (s.send m).now = s.now := rfl
@[simp] theorem State.send_readies (s : State) (m : OutMsg) : (s.send m).readies = s.readies := rfl
@[simp] theorem State.send_gang (s : State) (m : OutMsg) : (s.send m).gang = s.gang := rfl
@[simp] theorem State.send_preempts (s : State) (m : OutMsg) : (s.send m).preempts = s.preempts := rfl
@[simp] theorem State.send_saves (s : State) (m : OutMsg) : (s.send m).saves = s.saves := rfl
@[simp] theorem State.send_kept (s : State) (m : OutMsg) : (s.send m).kept = s.kept := rfl
@[simp] theorem State.send_invs (s : State) (m : OutMsg) : (s.send m).invs = s.invs := rfl
@[simp] theorem State.send_teams (s : State) (m : OutMsg) : (s.send m).teams = s.teams := rfl
@[simp] theorem State.send_groups (s : State) (m : OutMsg) : (s.send m).groups = s.groups := rfl
@[simp] theorem State.send_lanterns (s : State) (m : OutMsg) : (s.send m).lanterns = s.lanterns := rfl
@[simp] theorem State.send_cores (s : State) (m : OutMsg) : (s.send m).cores = s.cores := rfl
@[simp] theorem State.send_outb (s : State) (m : OutMsg) : (s.send m).outb = s.outb := rfl
@[simp] theorem State.send_stale (s : State) (m : OutMsg) : (s.send m).stale = s.stale := rfl
@[simp] theorem State.send_agents (s : State) (m : OutMsg) : (s.send m).agents = s.agents := rfl
@[simp] theorem State.send_locks (s : State) (m : OutMsg) : (s.send m).locks = s.locks := rfl
@[simp] theorem State.send_journal (s : State) (m : OutMsg) : (s.send m).journal = s.journal := rfl
@[simp] theorem State.send_hostq (s : State) (m : OutMsg) : (s.send m).hostq = s.hostq := rfl
@[simp] theorem State.send_outbox (s : State) (m : OutMsg) : (s.send m).outbox = s.outbox ++ [m] := rfl
@[simp] theorem State.send_fabric (s : State) (m : OutMsg) : (s.send m).fabric = s.fabric := rfl
@[simp] theorem State.send_issue (s : State) (m : OutMsg) : (s.send m).issue = s.issue := rfl
@[simp] theorem State.send_agenda (s : State) (m : OutMsg) : (s.send m).agenda = s.agenda := rfl
@[simp] theorem State.send_choices (s : State) (m : OutMsg) : (s.send m).choices = s.choices := rfl
@[simp] theorem State.send_freeBits (s : State) (m : OutMsg) : (s.send m).freeBits = s.freeBits := rfl
@[simp] theorem State.send_ids (s : State) (m : OutMsg) : (s.send m).ids = s.ids := rfl
@[simp] theorem State.send_turn (s : State) (m : OutMsg) : (s.send m).turn = s.turn := rfl

@[simp] theorem State.event_moduleM (s : State) (code ctx slot phys domain row detail : Nat) : (s.event code ctx slot phys domain row detail).moduleM = s.moduleM := rfl
@[simp] theorem State.event_plat (s : State) (code ctx slot phys domain row detail : Nat) : (s.event code ctx slot phys domain row detail).plat = s.plat := rfl
@[simp] theorem State.event_care (s : State) (code ctx slot phys domain row detail : Nat) : (s.event code ctx slot phys domain row detail).care = s.care := rfl
@[simp] theorem State.event_mem (s : State) (code ctx slot phys domain row detail : Nat) : (s.event code ctx slot phys domain row detail).mem = s.mem := rfl
@[simp] theorem State.event_poison (s : State) (code ctx slot phys domain row detail : Nat) : (s.event code ctx slot phys domain row detail).poison = s.poison := rfl
@[simp] theorem State.event_absent (s : State) (code ctx slot phys domain row detail : Nat) : (s.event code ctx slot phys domain row detail).absent = s.absent := rfl
@[simp] theorem State.event_ctxs (s : State) (code ctx slot phys domain row detail : Nat) : (s.event code ctx slot phys domain row detail).ctxs = s.ctxs := rfl
@[simp] theorem State.event_tasks (s : State) (code ctx slot phys domain row detail : Nat) : (s.event code ctx slot phys domain row detail).tasks = s.tasks := rfl
@[simp] theorem State.event_now (s : State) (code ctx slot phys domain row detail : Nat) : (s.event code ctx slot phys domain row detail).now = s.now := rfl
@[simp] theorem State.event_readies (s : State) (code ctx slot phys domain row detail : Nat) : (s.event code ctx slot phys domain row detail).readies = s.readies := rfl
@[simp] theorem State.event_gang (s : State) (code ctx slot phys domain row detail : Nat) : (s.event code ctx slot phys domain row detail).gang = s.gang := rfl
@[simp] theorem State.event_preempts (s : State) (code ctx slot phys domain row detail : Nat) : (s.event code ctx slot phys domain row detail).preempts = s.preempts := rfl
@[simp] theorem State.event_saves (s : State) (code ctx slot phys domain row detail : Nat) : (s.event code ctx slot phys domain row detail).saves = s.saves := rfl
@[simp] theorem State.event_kept (s : State) (code ctx slot phys domain row detail : Nat) : (s.event code ctx slot phys domain row detail).kept = s.kept := rfl
@[simp] theorem State.event_invs (s : State) (code ctx slot phys domain row detail : Nat) : (s.event code ctx slot phys domain row detail).invs = s.invs := rfl
@[simp] theorem State.event_teams (s : State) (code ctx slot phys domain row detail : Nat) : (s.event code ctx slot phys domain row detail).teams = s.teams := rfl
@[simp] theorem State.event_groups (s : State) (code ctx slot phys domain row detail : Nat) : (s.event code ctx slot phys domain row detail).groups = s.groups := rfl
@[simp] theorem State.event_lanterns (s : State) (code ctx slot phys domain row detail : Nat) : (s.event code ctx slot phys domain row detail).lanterns = s.lanterns := rfl
@[simp] theorem State.event_cores (s : State) (code ctx slot phys domain row detail : Nat) : (s.event code ctx slot phys domain row detail).cores = s.cores := rfl
@[simp] theorem State.event_outb (s : State) (code ctx slot phys domain row detail : Nat) : (s.event code ctx slot phys domain row detail).outb = s.outb := rfl
@[simp] theorem State.event_stale (s : State) (code ctx slot phys domain row detail : Nat) : (s.event code ctx slot phys domain row detail).stale = s.stale := rfl
@[simp] theorem State.event_agents (s : State) (code ctx slot phys domain row detail : Nat) : (s.event code ctx slot phys domain row detail).agents = s.agents := rfl
@[simp] theorem State.event_locks (s : State) (code ctx slot phys domain row detail : Nat) : (s.event code ctx slot phys domain row detail).locks = s.locks := rfl
@[simp] theorem State.event_journal (s : State) (code ctx slot phys domain row detail : Nat) : (s.event code ctx slot phys domain row detail).journal = s.journal := rfl
@[simp] theorem State.event_hostq (s : State) (code ctx slot phys domain row detail : Nat) : (s.event code ctx slot phys domain row detail).hostq = s.hostq := rfl
@[simp] theorem State.event_outbox (s : State) (code ctx slot phys domain row detail : Nat) : (s.event code ctx slot phys domain row detail).outbox = s.outbox ++ [eventMsg code ctx slot phys domain row detail] := rfl
@[simp] theorem State.event_fabric (s : State) (code ctx slot phys domain row detail : Nat) : (s.event code ctx slot phys domain row detail).fabric = s.fabric := rfl
@[simp] theorem State.event_issue (s : State) (code ctx slot phys domain row detail : Nat) : (s.event code ctx slot phys domain row detail).issue = s.issue := rfl
@[simp] theorem State.event_agenda (s : State) (code ctx slot phys domain row detail : Nat) : (s.event code ctx slot phys domain row detail).agenda = s.agenda := rfl
@[simp] theorem State.event_choices (s : State) (code ctx slot phys domain row detail : Nat) : (s.event code ctx slot phys domain row detail).choices = s.choices := rfl
@[simp] theorem State.event_freeBits (s : State) (code ctx slot phys domain row detail : Nat) : (s.event code ctx slot phys domain row detail).freeBits = s.freeBits := rfl
@[simp] theorem State.event_ids (s : State) (code ctx slot phys domain row detail : Nat) : (s.event code ctx slot phys domain row detail).ids = s.ids := rfl
@[simp] theorem State.event_turn (s : State) (code ctx slot phys domain row detail : Nat) : (s.event code ctx slot phys domain row detail).turn = s.turn := rfl

@[simp] theorem State.fresh_moduleM (s : State)  : s.fresh.moduleM = s.moduleM := rfl
@[simp] theorem State.fresh_plat (s : State)  : s.fresh.plat = s.plat := rfl
@[simp] theorem State.fresh_care (s : State)  : s.fresh.care = s.care := rfl
@[simp] theorem State.fresh_mem (s : State)  : s.fresh.mem = s.mem := rfl
@[simp] theorem State.fresh_poison (s : State)  : s.fresh.poison = s.poison := rfl
@[simp] theorem State.fresh_absent (s : State)  : s.fresh.absent = s.absent := rfl
@[simp] theorem State.fresh_ctxs (s : State)  : s.fresh.ctxs = s.ctxs := rfl
@[simp] theorem State.fresh_tasks (s : State)  : s.fresh.tasks = s.tasks := rfl
@[simp] theorem State.fresh_now (s : State)  : s.fresh.now = s.now := rfl
@[simp] theorem State.fresh_readies (s : State)  : s.fresh.readies = s.readies := rfl
@[simp] theorem State.fresh_gang (s : State)  : s.fresh.gang = s.gang := rfl
@[simp] theorem State.fresh_preempts (s : State)  : s.fresh.preempts = s.preempts := rfl
@[simp] theorem State.fresh_saves (s : State)  : s.fresh.saves = s.saves := rfl
@[simp] theorem State.fresh_kept (s : State)  : s.fresh.kept = s.kept := rfl
@[simp] theorem State.fresh_invs (s : State)  : s.fresh.invs = s.invs := rfl
@[simp] theorem State.fresh_teams (s : State)  : s.fresh.teams = s.teams := rfl
@[simp] theorem State.fresh_groups (s : State)  : s.fresh.groups = s.groups := rfl
@[simp] theorem State.fresh_lanterns (s : State)  : s.fresh.lanterns = s.lanterns := rfl
@[simp] theorem State.fresh_cores (s : State)  : s.fresh.cores = s.cores := rfl
@[simp] theorem State.fresh_outb (s : State)  : s.fresh.outb = s.outb := rfl
@[simp] theorem State.fresh_stale (s : State)  : s.fresh.stale = s.stale := rfl
@[simp] theorem State.fresh_agents (s : State)  : s.fresh.agents = s.agents := rfl
@[simp] theorem State.fresh_locks (s : State)  : s.fresh.locks = s.locks := rfl
@[simp] theorem State.fresh_journal (s : State)  : s.fresh.journal = s.journal := rfl
@[simp] theorem State.fresh_hostq (s : State)  : s.fresh.hostq = s.hostq := rfl
@[simp] theorem State.fresh_outbox (s : State)  : s.fresh.outbox = s.outbox := rfl
@[simp] theorem State.fresh_fabric (s : State)  : s.fresh.fabric = s.fabric := rfl
@[simp] theorem State.fresh_issue (s : State)  : s.fresh.issue = s.issue := rfl
@[simp] theorem State.fresh_agenda (s : State)  : s.fresh.agenda = s.agenda := rfl
@[simp] theorem State.fresh_choices (s : State)  : s.fresh.choices = s.choices := rfl
@[simp] theorem State.fresh_freeBits (s : State)  : s.fresh.freeBits = s.freeBits := rfl
@[simp] theorem State.fresh_ids (s : State)  : s.fresh.ids = s.ids + 1 := rfl
@[simp] theorem State.fresh_turn (s : State)  : s.fresh.turn = s.turn := rfl

@[simp] theorem State.setCtx_moduleM (s : State) (c : Nat) (x : Context) : (s.setCtx c x).moduleM = s.moduleM := rfl
@[simp] theorem State.setCtx_plat (s : State) (c : Nat) (x : Context) : (s.setCtx c x).plat = s.plat := rfl
@[simp] theorem State.setCtx_care (s : State) (c : Nat) (x : Context) : (s.setCtx c x).care = s.care := rfl
@[simp] theorem State.setCtx_mem (s : State) (c : Nat) (x : Context) : (s.setCtx c x).mem = s.mem := rfl
@[simp] theorem State.setCtx_poison (s : State) (c : Nat) (x : Context) : (s.setCtx c x).poison = s.poison := rfl
@[simp] theorem State.setCtx_absent (s : State) (c : Nat) (x : Context) : (s.setCtx c x).absent = s.absent := rfl
@[simp] theorem State.setCtx_ctxs (s : State) (c : Nat) (x : Context) : (s.setCtx c x).ctxs = s.ctxs.set c x := rfl
@[simp] theorem State.setCtx_tasks (s : State) (c : Nat) (x : Context) : (s.setCtx c x).tasks = s.tasks := rfl
@[simp] theorem State.setCtx_now (s : State) (c : Nat) (x : Context) : (s.setCtx c x).now = s.now := rfl
@[simp] theorem State.setCtx_readies (s : State) (c : Nat) (x : Context) : (s.setCtx c x).readies = s.readies := rfl
@[simp] theorem State.setCtx_gang (s : State) (c : Nat) (x : Context) : (s.setCtx c x).gang = s.gang := rfl
@[simp] theorem State.setCtx_preempts (s : State) (c : Nat) (x : Context) : (s.setCtx c x).preempts = s.preempts := rfl
@[simp] theorem State.setCtx_saves (s : State) (c : Nat) (x : Context) : (s.setCtx c x).saves = s.saves := rfl
@[simp] theorem State.setCtx_kept (s : State) (c : Nat) (x : Context) : (s.setCtx c x).kept = s.kept := rfl
@[simp] theorem State.setCtx_invs (s : State) (c : Nat) (x : Context) : (s.setCtx c x).invs = s.invs := rfl
@[simp] theorem State.setCtx_teams (s : State) (c : Nat) (x : Context) : (s.setCtx c x).teams = s.teams := rfl
@[simp] theorem State.setCtx_groups (s : State) (c : Nat) (x : Context) : (s.setCtx c x).groups = s.groups := rfl
@[simp] theorem State.setCtx_lanterns (s : State) (c : Nat) (x : Context) : (s.setCtx c x).lanterns = s.lanterns := rfl
@[simp] theorem State.setCtx_cores (s : State) (c : Nat) (x : Context) : (s.setCtx c x).cores = s.cores := rfl
@[simp] theorem State.setCtx_outb (s : State) (c : Nat) (x : Context) : (s.setCtx c x).outb = s.outb := rfl
@[simp] theorem State.setCtx_stale (s : State) (c : Nat) (x : Context) : (s.setCtx c x).stale = s.stale := rfl
@[simp] theorem State.setCtx_agents (s : State) (c : Nat) (x : Context) : (s.setCtx c x).agents = s.agents := rfl
@[simp] theorem State.setCtx_locks (s : State) (c : Nat) (x : Context) : (s.setCtx c x).locks = s.locks := rfl
@[simp] theorem State.setCtx_journal (s : State) (c : Nat) (x : Context) : (s.setCtx c x).journal = s.journal := rfl
@[simp] theorem State.setCtx_hostq (s : State) (c : Nat) (x : Context) : (s.setCtx c x).hostq = s.hostq := rfl
@[simp] theorem State.setCtx_outbox (s : State) (c : Nat) (x : Context) : (s.setCtx c x).outbox = s.outbox := rfl
@[simp] theorem State.setCtx_fabric (s : State) (c : Nat) (x : Context) : (s.setCtx c x).fabric = s.fabric := rfl
@[simp] theorem State.setCtx_issue (s : State) (c : Nat) (x : Context) : (s.setCtx c x).issue = s.issue := rfl
@[simp] theorem State.setCtx_agenda (s : State) (c : Nat) (x : Context) : (s.setCtx c x).agenda = s.agenda := rfl
@[simp] theorem State.setCtx_choices (s : State) (c : Nat) (x : Context) : (s.setCtx c x).choices = s.choices := rfl
@[simp] theorem State.setCtx_freeBits (s : State) (c : Nat) (x : Context) : (s.setCtx c x).freeBits = s.freeBits := rfl
@[simp] theorem State.setCtx_ids (s : State) (c : Nat) (x : Context) : (s.setCtx c x).ids = s.ids := rfl
@[simp] theorem State.setCtx_turn (s : State) (c : Nat) (x : Context) : (s.setCtx c x).turn = s.turn := rfl

@[simp] theorem State.setFront_moduleM (s : State) (core slot : Nat) (f : Front) : (s.setFront core slot f).moduleM = s.moduleM := by
  unfold State.setFront
  repeat' split
  all_goals rfl
@[simp] theorem State.setFront_plat (s : State) (core slot : Nat) (f : Front) : (s.setFront core slot f).plat = s.plat := by
  unfold State.setFront
  repeat' split
  all_goals rfl
@[simp] theorem State.setFront_care (s : State) (core slot : Nat) (f : Front) : (s.setFront core slot f).care = s.care := by
  unfold State.setFront
  repeat' split
  all_goals rfl
@[simp] theorem State.setFront_mem (s : State) (core slot : Nat) (f : Front) : (s.setFront core slot f).mem = s.mem := by
  unfold State.setFront
  repeat' split
  all_goals rfl
@[simp] theorem State.setFront_poison (s : State) (core slot : Nat) (f : Front) : (s.setFront core slot f).poison = s.poison := by
  unfold State.setFront
  repeat' split
  all_goals rfl
@[simp] theorem State.setFront_absent (s : State) (core slot : Nat) (f : Front) : (s.setFront core slot f).absent = s.absent := by
  unfold State.setFront
  repeat' split
  all_goals rfl
@[simp] theorem State.setFront_ctxs (s : State) (core slot : Nat) (f : Front) : (s.setFront core slot f).ctxs = s.ctxs := by
  unfold State.setFront
  repeat' split
  all_goals rfl
@[simp] theorem State.setFront_tasks (s : State) (core slot : Nat) (f : Front) : (s.setFront core slot f).tasks = s.tasks := by
  unfold State.setFront
  repeat' split
  all_goals rfl
@[simp] theorem State.setFront_now (s : State) (core slot : Nat) (f : Front) : (s.setFront core slot f).now = s.now := by
  unfold State.setFront
  repeat' split
  all_goals rfl
@[simp] theorem State.setFront_readies (s : State) (core slot : Nat) (f : Front) : (s.setFront core slot f).readies = s.readies := by
  unfold State.setFront
  repeat' split
  all_goals rfl
@[simp] theorem State.setFront_gang (s : State) (core slot : Nat) (f : Front) : (s.setFront core slot f).gang = s.gang := by
  unfold State.setFront
  repeat' split
  all_goals rfl
@[simp] theorem State.setFront_preempts (s : State) (core slot : Nat) (f : Front) : (s.setFront core slot f).preempts = s.preempts := by
  unfold State.setFront
  repeat' split
  all_goals rfl
@[simp] theorem State.setFront_saves (s : State) (core slot : Nat) (f : Front) : (s.setFront core slot f).saves = s.saves := by
  unfold State.setFront
  repeat' split
  all_goals rfl
@[simp] theorem State.setFront_kept (s : State) (core slot : Nat) (f : Front) : (s.setFront core slot f).kept = s.kept := by
  unfold State.setFront
  repeat' split
  all_goals rfl
@[simp] theorem State.setFront_invs (s : State) (core slot : Nat) (f : Front) : (s.setFront core slot f).invs = s.invs := by
  unfold State.setFront
  repeat' split
  all_goals rfl
@[simp] theorem State.setFront_teams (s : State) (core slot : Nat) (f : Front) : (s.setFront core slot f).teams = s.teams := by
  unfold State.setFront
  repeat' split
  all_goals rfl
@[simp] theorem State.setFront_cores (s : State) (core slot : Nat) (f : Front) : (s.setFront core slot f).cores = s.cores := by
  unfold State.setFront
  repeat' split
  all_goals rfl
@[simp] theorem State.setFront_outb (s : State) (core slot : Nat) (f : Front) : (s.setFront core slot f).outb = s.outb := by
  unfold State.setFront
  repeat' split
  all_goals rfl
@[simp] theorem State.setFront_stale (s : State) (core slot : Nat) (f : Front) : (s.setFront core slot f).stale = s.stale := by
  unfold State.setFront
  repeat' split
  all_goals rfl
@[simp] theorem State.setFront_agents (s : State) (core slot : Nat) (f : Front) : (s.setFront core slot f).agents = s.agents := by
  unfold State.setFront
  repeat' split
  all_goals rfl
@[simp] theorem State.setFront_locks (s : State) (core slot : Nat) (f : Front) : (s.setFront core slot f).locks = s.locks := by
  unfold State.setFront
  repeat' split
  all_goals rfl
@[simp] theorem State.setFront_journal (s : State) (core slot : Nat) (f : Front) : (s.setFront core slot f).journal = s.journal := by
  unfold State.setFront
  repeat' split
  all_goals rfl
@[simp] theorem State.setFront_hostq (s : State) (core slot : Nat) (f : Front) : (s.setFront core slot f).hostq = s.hostq := by
  unfold State.setFront
  repeat' split
  all_goals rfl
@[simp] theorem State.setFront_outbox (s : State) (core slot : Nat) (f : Front) : (s.setFront core slot f).outbox = s.outbox := by
  unfold State.setFront
  repeat' split
  all_goals rfl
@[simp] theorem State.setFront_fabric (s : State) (core slot : Nat) (f : Front) : (s.setFront core slot f).fabric = s.fabric := by
  unfold State.setFront
  repeat' split
  all_goals rfl
@[simp] theorem State.setFront_issue (s : State) (core slot : Nat) (f : Front) : (s.setFront core slot f).issue = s.issue := by
  unfold State.setFront
  repeat' split
  all_goals rfl
@[simp] theorem State.setFront_agenda (s : State) (core slot : Nat) (f : Front) : (s.setFront core slot f).agenda = s.agenda := by
  unfold State.setFront
  repeat' split
  all_goals rfl
@[simp] theorem State.setFront_choices (s : State) (core slot : Nat) (f : Front) : (s.setFront core slot f).choices = s.choices := by
  unfold State.setFront
  repeat' split
  all_goals rfl
@[simp] theorem State.setFront_freeBits (s : State) (core slot : Nat) (f : Front) : (s.setFront core slot f).freeBits = s.freeBits := by
  unfold State.setFront
  repeat' split
  all_goals rfl
@[simp] theorem State.setFront_ids (s : State) (core slot : Nat) (f : Front) : (s.setFront core slot f).ids = s.ids := by
  unfold State.setFront
  repeat' split
  all_goals rfl
@[simp] theorem State.setFront_turn (s : State) (core slot : Nat) (f : Front) : (s.setFront core slot f).turn = s.turn := by
  unfold State.setFront
  repeat' split
  all_goals rfl

/-! ### Replacement -/

theorem find_replaced {α : Type} {p q : α → Bool} {l : List α} {a b : α} (hf : l.find? p = some b) (hq : ∀ x, q x = p x) (ha : p a = true) :
    (l.map (fun x => if q x = true then a else x)).find? p = some a := by
  have hp : (p ∘ fun x => if q x = true then a else x) = p := by
    funext x
    cases h : p x <;> simp [hq, h, ha]
  rw [List.find?_map, hp, hf]
  simp [hq, List.find?_some hf]

theorem find_kept {α : Type} {p q : α → Bool} {l : List α} {a : α} (hq : ∀ x, p x = true → q x = false) (ha : p a = false) :
    (l.map (fun x => if q x = true then a else x)).find? p = l.find? p := by
  have hp : (p ∘ fun x => if q x = true then a else x) = p := by
    funext x
    cases h : q x with
    | false => simp [h]
    | true =>
      cases h2 : p x with
      | true => rw [hq x h2] at h; cases h
      | false => simp [h, ha]
  rw [List.find?_map, hp]
  cases h : l.find? p with
  | none => rfl
  | some b => simp [hq b (List.find?_some h)]

/-- A replaced group is the one found in its slot. -/
theorem State.group?_setGroup {s : State} {core slot : Nat} {g g0 : Group} (h : s.group? core slot = some g0) (hc : g.core = core)
    (hs : g.slot = slot) : (s.setGroup g).group? core slot = some g := by
  subst hc hs
  have := find_replaced (q := fun x : Group => decide (x.core = g.core ∧ x.slot = g.slot)) (a := g) h
    (fun x => by simp [Bool.decide_and]) (by simp)
  simpa [State.group?, State.setGroup] using this

theorem State.group?_core {s : State} {core slot : Nat} {g : Group} (h : s.group? core slot = some g) : g.core = core ∧ g.slot = slot := by
  have := List.find?_some h
  simpa using this

/-- Other slots keep their groups. -/
theorem State.group?_setGroup_other {s : State} {core slot : Nat} {g : Group} (h : ¬(g.core = core ∧ g.slot = slot)) :
    (s.setGroup g).group? core slot = s.group? core slot := by
  have := find_kept (l := s.groups) (p := fun x : Group => decide (x.core = core) && decide (x.slot = slot))
    (q := fun x : Group => decide (x.core = g.core ∧ x.slot = g.slot)) (a := g)
    (fun x hx => by
      have hx' : x.core = core ∧ x.slot = slot := by simpa using hx
      simp only [decide_eq_false_iff_not]
      exact fun hh => h ⟨hh.1 ▸ hx'.1, hh.2 ▸ hx'.2⟩) (by simpa using h)
  simpa [State.group?, State.setGroup] using this

theorem State.lantern?_setLantern {s : State} {core slot : Nat} {l l0 : Lantern} (h : s.lantern? core slot = some l0) (hc : l.core = core)
    (hs : l.slot = slot) : (s.setLantern l).lantern? core slot = some l := by
  subst hc hs
  have := find_replaced (q := fun x : Lantern => decide (x.core = l.core ∧ x.slot = l.slot)) (a := l) h
    (fun x => by simp [Bool.decide_and]) (by simp)
  simpa [State.lantern?, State.setLantern] using this

theorem State.lantern?_core {s : State} {core slot : Nat} {l : Lantern} (h : s.lantern? core slot = some l) : l.core = core ∧ l.slot = slot := by
  have := List.find?_some h
  simpa using this

@[simp] theorem State.group?_setLantern (s : State) (core slot : Nat) (l : Lantern) : (s.setLantern l).group? core slot = s.group? core slot := rfl
@[simp] theorem State.lantern?_setGroup (s : State) (core slot : Nat) (g : Group) : (s.setGroup g).lantern? core slot = s.lantern? core slot := rfl
@[simp] theorem State.team?_setGroup (s : State) (id : Nat) (g : Group) : (s.setGroup g).team? id = s.team? id := rfl
@[simp] theorem State.team?_setLantern (s : State) (id : Nat) (l : Lantern) : (s.setLantern l).team? id = s.team? id := rfl
@[simp] theorem State.task?_setGroup (s : State) (slot : Nat) (g : Group) : (s.setGroup g).task? slot = s.task? slot := rfl
@[simp] theorem State.group?_pop (s : State) (core slot : Nat) : s.pop.group? core slot = s.group? core slot := rfl
@[simp] theorem State.lantern?_pop (s : State) (core slot : Nat) : s.pop.lantern? core slot = s.lantern? core slot := rfl
@[simp] theorem State.team?_pop (s : State) (id : Nat) : s.pop.team? id = s.team? id := rfl
@[simp] theorem State.teamOf_pop (s : State) (core slot : Nat) : s.pop.teamOf core slot = s.teamOf core slot := rfl
@[simp] theorem State.front?_pop (s : State) (core slot : Nat) : s.pop.front? core slot = s.front? core slot := rfl
@[simp] theorem State.group?_fresh (s : State) (core slot : Nat) : s.fresh.group? core slot = s.group? core slot := rfl
@[simp] theorem State.lantern?_fresh (s : State) (core slot : Nat) : s.fresh.lantern? core slot = s.lantern? core slot := rfl
@[simp] theorem State.ctx_setGroup (s : State) (c : Nat) (g : Group) : (s.setGroup g).ctx c = s.ctx c := rfl
@[simp] theorem State.ctx_setLantern (s : State) (c : Nat) (l : Lantern) : (s.setLantern l).ctx c = s.ctx c := rfl

/-- Replacing a slot's group twice replaces it once. -/
theorem State.setGroup_setGroup (s : State) {g h : Group} (hc : h.core = g.core) (hs : h.slot = g.slot) :
    (s.setGroup g).setGroup h = s.setGroup h := by
  unfold State.setGroup
  simp only [List.map_map]
  congr 1
  apply List.map_congr_left
  intro x _
  simp only [Function.comp, hc, hs]
  by_cases hx : x.core = g.core ∧ x.slot = g.slot
  · simp [hx]
  · simp [hx]

@[simp] theorem Group.upd_core (g : Group) (set : LaneSet) (f : Nat → Lane → Lane) : (g.upd set f).core = g.core := rfl
@[simp] theorem Group.upd_slot (g : Group) (set : LaneSet) (f : Nat → Lane → Lane) : (g.upd set f).slot = g.slot := rfl
@[simp] theorem Group.upd_team (g : Group) (set : LaneSet) (f : Nat → Lane → Lane) : (g.upd set f).team = g.team := rfl
@[simp] theorem Group.upd_fe (g : Group) (set : LaneSet) (f : Nat → Lane → Lane) : (g.upd set f).fe = g.fe := rfl
@[simp] theorem Group.upd_fpc (g : Group) (set : LaneSet) (f : Nat → Lane → Lane) : (g.upd set f).fpc = g.fpc := rfl
@[simp] theorem Group.upd_dbgc (g : Group) (set : LaneSet) (f : Nat → Lane → Lane) : (g.upd set f).dbgc = g.dbgc := rfl

end Sys2Proof.Machine
end

