-- ==== Sys2Proof/Laws/Frames.lean ====
section
/-! SUPPORT. What an instruction word does that executes normally: its own effect, in the state its lanes have passed
into, and the end of its unit. -/

namespace Sys2Proof.Machine

@[simp] theorem raise_nil (s : State) (core slot : Nat) (a : At) : raise s core slot a [] = s := rfl

theorem BitVec.and_not_zero {n : Nat} (x : BitVec n) : x &&& ~~~(0 : BitVec n) = x := by simp

/-- Where the checks of checked mode pass, they find nothing. -/
theorem checkedHits_nil {g : Group} {u : Use} {act : LaneSet} (hw : underWait g u act = []) (hu : notUniform g u act = false) :
    checkedHits g u act = [] := by
  unfold checkedHits
  rw [hw, hu]
  rfl

/-- The checks of a unit that issues whole trap at once; with none failed nothing happens. -/
theorem raiseUnit_nil {x : Ix} (h : x.b.Whole) (wide : Bool) (s : State) : raiseUnit x wide [] s = s := by
  unfold raiseUnit
  simp [h.more, h.hits]

/-- The end of a unit that issues whole. -/
theorem endUnit_whole {x : Ix} (h : x.b.Whole) (s : State) : endUnit x s = afterUnit s x.core x.slot x.at x.b.lanes := by
  unfold endUnit
  simp [h.more, h.earlier]

/-- An L-set word that executes normally has its own effect. -/
theorem lset_ready {i : LInstr} {s : State} {b : Bundle} {g : Group} {t : Team} {n : Nat} (h : LReady i s b g t n)
    {r : Bool} (body : Ix → State → State) :
    lset i s body n i.use r = .next (unitEnd b (Issues.ix i b g t n) (body (Issues.ix i b g t n) (s.issued b g n))) := by
  have ha := h.active
  have hc := checkedHits_nil h.waited h.uniform
  unfold Group.activeOf Group.issued at ha hc
  have hr := h.room
  have e1 : ∀ x : Ix, x.b = b → ∀ s, raiseUnit x false [] s = s := fun x hx s => raiseUnit_nil (hx ▸ h.whole) false s
  have e2 : ∀ x : Ix, x.b = b → ∀ s, endUnit x s = afterUnit s x.core x.slot x.at b.lanes := fun x hx s => by
    rw [endUnit_whole (hx ▸ h.whole), hx]
  unfold lset lsetAs
  simp only [h.head, h.slot, if_true, h.group, h.team]
  cases hk : i.use.tok <;> cases r <;> simp_all only [h.legal, hc, Bool.not_true, Bool.and_false, List.map_nil, laneSet, List.foldl_nil,
    BitVec.and_not_zero, ha, if_false, if_true, unitEnd, Issues.ix, State.issued, Group.issued, Group.activeOf, Bool.false_eq_true,
    List.append_nil, reduceCtorEq, Option.some.injEq, forall_eq', IsEmpty.forall_iff, implies_true, forall_const]

theorem parkAt_fe (g : Group) (set : LaneSet) (b : Bundle) (k : Gather) : (parkAt g set b k).fe = g.fe := rfl

theorem Group.arrived_fe (g : Group) (b : Bundle) : (g.arrived b).fe = g.fe := by
  unfold Group.arrived
  split <;> rfl

theorem Group.arrived_core (g : Group) (b : Bundle) : (g.arrived b).core = g.core := by
  unfold Group.arrived
  split <;> rfl

theorem Group.arrived_slot (g : Group) (b : Bundle) : (g.arrived b).slot = g.slot := by
  unfold Group.arrived
  split <;> rfl

/-- A U-set word that executes normally has its own effect. -/
theorem uset_ready {i : UInstr} {s s1 : State} {x : Ix} (h : UReady i s x s1) (body : Ix → State → State) :
    uset i s body = .next (uEnd x (body x s1)) := by
  cases h with
  | group b g t h iss split full room legal waited =>
    have e : (if b.gathered then g else parkAt g b.lanes b .uset) = g.arrived b := rfl
    unfold uset usetAs runGathered
    simp only [iss.head, iss.slot, if_true, iss.group, iss.team, e, ← split, full, Group.arrived_fe]
    rw [State.setGroup_setGroup _ (by rfl) (by rfl)]
    cases hk : i.use.tok with
    | none => simp only [legal, waited, Bool.not_true, Bool.false_eq_true, if_false, uEnd]
    | some k => simp only [room k hk, legal, waited, Bool.not_true, Bool.false_eq_true, if_false, uEnd]
  | lantern b l t head slot found team room legal =>
    unfold uset usetAs
    simp only [head, slot, if_false, found, team]
    cases hk : i.use.tok with
    | none => simp only [legal, Bool.not_true, Bool.false_eq_true, if_false, uEnd, if_true]
    | some k => simp only [room k hk, legal, Bool.not_true, Bool.false_eq_true, if_false, uEnd, if_true]

end Sys2Proof.Machine
end

