-- ==== Sys2Proof/Laws/Lanes.lean ====
section
/-! SUPPORT. Updates of a group's lanes: one lane after an update, and an update of each lane of a set in turn. -/

namespace Sys2Proof.Machine

@[simp] theorem mapLanes_length (f : Nat → Lane → Lane) (n : Nat) (ls : List Lane) : (mapLanes f n ls).length = ls.length := by
  induction ls generalizing n with
  | nil => rfl
  | cons l ls ih => simp [mapLanes, ih]

theorem mapLanes_get (f : Nat → Lane → Lane) (n i : Nat) (ls : List Lane) : (mapLanes f n ls)[i]? = (ls[i]?).map (f (n + i)) := by
  induction ls generalizing n i with
  | nil => rfl
  | cons l ls ih =>
    cases i with
    | zero => rfl
    | succ i =>
      simp only [mapLanes, List.getElem?_cons_succ, ih]
      congr 2
      omega

theorem mapLanes_mapLanes (f g : Nat → Lane → Lane) (n : Nat) (ls : List Lane) :
    mapLanes f n (mapLanes g n ls) = mapLanes (fun i l => f i (g i l)) n ls := by
  induction ls generalizing n with
  | nil => rfl
  | cons l ls ih => simp [mapLanes, ih]

theorem mapLanes_congr {f g : Nat → Lane → Lane} (n : Nat) (ls : List Lane) (h : ∀ i l, f i l = g i l) : mapLanes f n ls = mapLanes g n ls := by
  have : f = g := funext fun i => funext fun l => h i l
  rw [this]

theorem mapLanes_same (n : Nat) (ls : List Lane) : mapLanes (fun _ l => l) n ls = ls := by
  induction ls generalizing n with
  | nil => rfl
  | cons l ls ih => simp [mapLanes, ih]

/-- A lane after an update of a set. -/
theorem Group.lane_upd (g : Group) (set : LaneSet) (f : Nat → Lane → Lane) (i : Nat) (hi : i < g.lanes.length) :
    (g.upd set f).lane i = if set.getLsbD i then f i (g.lane i) else g.lane i := by
  unfold Group.lane Group.upd
  simp only [List.getD_eq_getElem?_getD, mapLanes_get, Nat.zero_add, List.getElem?_eq_getElem hi, Option.map_some, Option.getD_some]

/-- A lane outside the set keeps everything. -/
theorem Group.lane_upd_other (g : Group) (set : LaneSet) (f : Nat → Lane → Lane) (i : Nat) (h : set.getLsbD i = false) :
    (g.upd set f).lane i = g.lane i := by
  unfold Group.lane Group.upd
  simp only [List.getD_eq_getElem?_getD, mapLanes_get, Nat.zero_add, h]
  cases g.lanes[i]? <;> rfl

@[simp] theorem Group.upd_length (g : Group) (set : LaneSet) (f : Nat → Lane → Lane) : (g.upd set f).lanes.length = g.lanes.length := by
  simp [Group.upd]

theorem Group.upd_same (g : Group) (set : LaneSet) (f : Nat → Lane → Lane) (h : ∀ i l, f i l = l) : g.upd set f = g := by
  unfold Group.upd
  have : mapLanes (fun i l => if set.getLsbD i then f i l else l) 0 g.lanes = g.lanes := by
    rw [mapLanes_congr (g := fun _ l => l) 0 g.lanes (fun i l => by split <;> simp [h]), mapLanes_same]
  rw [this]

theorem laneBit_get {i : Nat} (h : i < 64) (j : Nat) : (laneBit i).getLsbD j = decide (j = i) := by
  unfold laneBit
  rw [BitVec.getLsbD_ofNat, Nat.testBit_two_pow]
  by_cases hj : j = i
  · simp [hj, h]
  · have : ¬ i = j := fun e => hj e.symm
    simp [hj, this]

theorem upFrom_mem (n k i : Nat) : i ∈ upFrom n k ↔ n ≤ i ∧ i < n + k := by
  induction k generalizing n with
  | zero => simp [upFrom]
  | succ k ih =>
    simp only [upFrom, List.mem_cons, ih]
    omega

theorem upFrom_nodup (n k : Nat) : (upFrom n k).Nodup := by
  induction k generalizing n with
  | zero => simp [upFrom]
  | succ k ih =>
    simp only [upFrom, List.nodup_cons, ih, and_true, upFrom_mem]
    omega

theorem lanesIn_mem (set : LaneSet) (i : Nat) : i ∈ lanesIn set ↔ i < 64 ∧ set.getLsbD i = true := by
  simp [lanesIn, upFrom_mem]

theorem lanesIn_nodup (set : LaneSet) : (lanesIn set).Nodup := (upFrom_nodup 0 64).filter _

theorem lanesIn_bound {set : LaneSet} {i : Nat} (h : i ∈ lanesIn set) : i < 64 := ((lanesIn_mem set i).1 h).1

theorem getLsbD_lanesIn (set : LaneSet) (i : Nat) : set.getLsbD i = decide (i ∈ lanesIn set) := by
  apply Bool.eq_iff_iff.2
  rw [decide_eq_true_iff, lanesIn_mem]
  exact ⟨fun h => ⟨BitVec.lt_of_getLsbD h, h⟩, And.right⟩

/-- Updating each of several lanes in turn. -/
theorem foldl_upd (F : Nat → Lane → Lane) (ls : List Nat) (hn : ls.Nodup) (hb : ∀ i ∈ ls, i < 64) (g : Group) :
    ls.foldl (fun g j => g.upd (laneBit j) (fun _ l => F j l)) g =
      { g with lanes := mapLanes (fun i l => if i ∈ ls then F i l else l) 0 g.lanes } := by
  induction ls generalizing g with
  | nil => simp [mapLanes_same]
  | cons j ls ih =>
    have hj := (List.nodup_cons.1 hn).1
    rw [List.foldl_cons, ih (List.nodup_cons.1 hn).2 (fun i hi => hb i (List.mem_cons_of_mem _ hi))]
    unfold Group.upd
    simp only [mapLanes_mapLanes]
    congr 1
    apply mapLanes_congr
    intro i l
    rw [laneBit_get (hb j (List.mem_cons_self ..))]
    by_cases h : i = j
    · subst h
      simp [hj]
    · simp [h]

/-- Updating the lanes of a set one after another is updating the set. -/
theorem foldl_upd_set (F : Nat → Lane → Lane) (set : LaneSet) (g : Group) :
    (lanesIn set).foldl (fun g j => g.upd (laneBit j) (fun _ l => F j l)) g = g.upd set F := by
  rw [foldl_upd F _ (lanesIn_nodup _) (fun _ h => lanesIn_bound h)]
  unfold Group.upd
  congr 1
  apply mapLanes_congr
  intro i l
  rw [getLsbD_lanesIn]
  by_cases h : i ∈ lanesIn set <;> simp [h]

end Sys2Proof.Machine
end

