-- ==== Sys2Proof/Laws/Alu.lean ====
section
/-! SUPPORT. What a fixed-latency word does that executes normally and raises no flag that traps. -/

namespace Sys2Proof.Machine

theorem fpcEnables_orFlags (w : Word) (f : BitVec 5) : fpcEnables (orFlags w f) = fpcEnables w := by
  apply BitVec.eq_of_getLsbD_eq
  intro i hi
  simp only [fpcEnables, orFlags, BitVec.getLsbD_extractLsb', BitVec.getLsbD_or, BitVec.getLsbD_shiftLeft, BitVec.getLsbD_setWidth, hi,
    decide_true, Bool.true_and]
  have : f.getLsbD (8 + i - 2) = false := BitVec.getLsbD_of_ge _ _ (by omega)
  simp [this]

theorem orFlags_zero (w : Word) : orFlags w 0 = w := by simp [orFlags]

theorem Lane.addFlags_zero (l : Lane) : l.addFlags 0 = l := by
  have : l.spec.map (fun sp => { sp with flags := sp.flags ||| 0 }) = l.spec := by cases l.spec <;> simp
  unfold Lane.addFlags
  rw [this]

theorem Group.raiseFlags_eq (g : Group) (i : Nat) (hi : i < 64) (f : BitVec 5) :
    g.raiseFlags i f = { (g.upd (laneBit i) (fun _ l => l.addFlags f)) with
      fpc := if (g.lane i).spec.isSome || (g.lane i).olds.any (fun o => o.reg = .fpc) then g.fpc else orFlags g.fpc f } := by
  unfold Group.raiseFlags
  dsimp only
  by_cases h : (g.lane i).spec.isSome
  · simp only [h, if_true, Bool.true_or]
    rfl
  · have hn : (g.lane i).spec = none := by simpa using h
    have hl : g.upd (laneBit i) (fun _ l => l.addFlags f) = g := by
      unfold Group.upd
      have : mapLanes (fun k l => if (laneBit i).getLsbD k then l.addFlags f else l) 0 g.lanes = g.lanes := by
        apply List.ext_getElem?
        intro k
        rw [mapLanes_get]
        cases hk : g.lanes[k]? with
        | none => rfl
        | some l =>
          simp only [Nat.zero_add, Option.map_some, laneBit_get hi]
          by_cases e : k = i
          · subst e
            have : g.lane k = l := by simp [Group.lane, List.getD_eq_getElem?_getD, hk]
            have hs : l.spec = none := this ▸ hn
            have e2 : l.spec.map (fun sp => { sp with flags := sp.flags ||| f }) = l.spec := by rw [hs]; rfl
            simp only [Lane.addFlags, e2, ite_self]
          · simp [e]
      rw [this]
    rw [hl]
    by_cases ho : (g.lane i).olds.any (fun o => o.reg = .fpc)
    · simp [h, ho]
    · simp [h, ho]

theorem Group.fpcFor_enables {a g : Group} (l : Lane) (h : fpcEnables a.fpc = fpcEnables g.fpc) :
    fpcEnables (a.fpcFor l) = fpcEnables (g.fpcFor l) := by
  unfold Group.fpcFor Lane.sees
  cases l.olds.find? (fun o => o.reg = .fpc) with
  | none => simpa using h
  | some o => rfl

/-- The results of a word in lane order, when no flag traps. -/
theorem results_fold (lat : Nat) (out : Nat → LaneOut) (g : Group) (ls : List Nat) (hn : ls.Nodup) (hb : ∀ i ∈ ls, i < 64)
    (a : Group) (hits : List Hit) (hl : ∀ j ∈ ls, a.lane j = g.lane j) (he : fpcEnables a.fpc = fpcEnables g.fpc)
    (hq : ∀ j ∈ ls, fpcEnables (g.fpcFor (g.lane j)) &&& (out j).flags = 0) :
    (ls.map (fun j => (j, out j))).foldl (fun (acc : Group × List Hit) (o : Nat × LaneOut) =>
      let en := fpcEnables (acc.1.fpcFor (acc.1.lane o.1)) &&& o.2.flags
      let g1 := acc.1.raiseFlags o.1 o.2.flags
      if en = 0 then (g1.upd (laneBit o.1) (fun _ l => l.pendAll lat o.2.writes), acc.2)
      else (g1, acc.2 ++ [{ lane := o.1, vec := 0x200, cause := en.toNat }])) (a, hits) =
    ({ a with lanes := mapLanes (fun i l => if i ∈ ls then (l.addFlags (out i).flags).pendAll lat (out i).writes else l) 0 a.lanes
              fpc := ls.foldl (fun w j => if (g.lane j).spec.isSome || (g.lane j).olds.any (fun o => o.reg = .fpc) then w
                else orFlags w (out j).flags) a.fpc }, hits) := by
  induction ls generalizing a with
  | nil => simp [mapLanes_same]
  | cons j ls ih =>
    have hj := (List.nodup_cons.1 hn).1
    have hjb := hb j (List.mem_cons_self ..)
    have hen : fpcEnables (a.fpcFor (a.lane j)) &&& (out j).flags = 0 := by
      rw [Group.fpcFor_enables _ he, hl j (List.mem_cons_self ..)]
      exact hq j (List.mem_cons_self ..)
    rw [List.map_cons, List.foldl_cons]
    simp only [hen, if_true]
    rw [ih (List.nodup_cons.1 hn).2 (fun i hi => hb i (List.mem_cons_of_mem _ hi))]
    · rw [Group.raiseFlags_eq _ _ hjb, hl j (List.mem_cons_self ..)]
      simp only [List.foldl_cons, Prod.mk.injEq, and_true]
      unfold Group.upd
      simp only [mapLanes_mapLanes]
      congr 1
      apply mapLanes_congr
      intro i l
      rw [laneBit_get hjb]
      by_cases h : i = j
      · subst h
        simp [hj]
      · simp [h]
    · intro k hk
      have hne : ¬ k = j := fun e => hj (e ▸ hk)
      rw [Group.lane_upd_other _ _ _ _ (by rw [laneBit_get hjb]; simpa using hne), Group.raiseFlags_eq _ _ hjb]
      have := Group.lane_upd_other a (laneBit j) (fun _ l => l.addFlags (out j).flags) k (by rw [laneBit_get hjb]; simpa using hne)
      exact this.trans (hl k (List.mem_cons_of_mem _ hk))
    · rw [Group.upd_fpc, Group.raiseFlags_eq _ _ hjb]
      dsimp only
      split
      · exact he
      · rw [fpcEnables_orFlags]; exact he
    · exact fun k hk => hq k (List.mem_cons_of_mem _ hk)

/-- A fixed-latency word whose flags trap nowhere: its group has its results. -/
theorem finishAlu_quiet {x : Ix} {s : State} {g : Group} (lat : Nat) (out : Nat → LaneOut) (hb : x.b.Whole) (hg : s.group? x.core x.slot = some g)
    (hq : g.quiet x.act out) :
    finishAlu x lat ((lanesIn x.act).map (fun j => (j, out j))) s = s.setGroup (g.results x.act lat out) := by
  unfold finishAlu
  simp only [hg]
  rw [results_fold lat out g (lanesIn x.act) (lanesIn_nodup _) (fun i h => lanesIn_bound h) g [] (fun _ _ => rfl) rfl hq]
  rw [raiseUnit_nil hb]
  dsimp only
  congr 1
  unfold Group.results Group.upd
  congr 1
  apply mapLanes_congr
  intro i l
  rw [getLsbD_lanesIn]
  by_cases h : i ∈ lanesIn x.act <;> simp [h]

theorem State.issued_group {s : State} {b : Bundle} {g : Group} {t : Team} (h : Issues s b g t) (n : Nat) :
    (s.issued b g n).group? b.core b.slot = some (g.issued b n) :=
  State.group?_setGroup (g0 := g) h.group (State.group?_core h.group).1 (State.group?_core h.group).2

/-- A fixed-latency word that executes normally and raises no flag that traps. -/
theorem alu_ready {i : LInstr} {s : State} {b : Bundle} {g : Group} {t : Team} (h : LReady i s b g t) (lat : Nat)
    (f : Group → Lane → LaneOut)
    (hq : (g.issued b 1).quiet (g.activeOf b 1)
      (fun j => f (g.issued b 1) ((g.issued b 1).lane (sourceLane i.use.u (g.activeOf b 1) j)))) :
    alu i lat f s = .next (unitEnd b (Issues.ix i b g t 1) ((s.issued b g 1).setGroup ((g.issued b 1).results (g.activeOf b 1) lat
      (fun j => f (g.issued b 1) ((g.issued b 1).lane (sourceLane i.use.u (g.activeOf b 1) j)))))) := by
  unfold alu
  rw [lset_ready h]
  congr 2
  have hg := State.issued_group h.toIssues 1
  have hx : (Issues.ix i b g t 1).core = b.core ∧ (Issues.ix i b g t 1).slot = b.slot := ⟨rfl, rfl⟩
  simp only [hx.1, hx.2, hg]
  refine Eq.trans ?_ (finishAlu_quiet (x := Issues.ix i b g t 1) lat _ h.whole hg hq)
  congr 1
  cases hu : i.use.u with
  | false => simp [sourceLane, Issues.ix]
  | true => simp [sourceLane, Issues.ix]

/-- A word that raises no flag leaves FPC and its lanes' shadow flags alone. -/
theorem Group.results_plain (g : Group) (act : LaneSet) (lat : Nat) (out : Nat → LaneOut) (h : ∀ j, (out j).flags = 0) :
    g.results act lat out = g.upd act (fun j l => l.pendAll lat (out j).writes) := by
  have hf : ∀ ls : List Nat, ∀ w : Word, ls.foldl (fun w j => if (g.lane j).spec.isSome || (g.lane j).olds.any (fun o => o.reg = .fpc)
      then w else orFlags w (out j).flags) w = w := by
    intro ls
    induction ls with
    | nil => exact fun w => rfl
    | cons j ls ih =>
      intro w
      rw [List.foldl_cons, h, orFlags_zero]
      simpa using ih w
  unfold Group.results Group.fpcAfter
  rw [hf]
  simp only [h, Lane.addFlags_zero]
  rfl

/-- A fixed-latency word whose results are writes alone: each active lane has them, visible to its `lat`-th instruction. -/
theorem alu_plain {i : LInstr} {s : State} {b : Bundle} {g : Group} {t : Team} (h : LReady i s b g t) (lat : Nat)
    (f : Group → Lane → LaneOut) (w : Lane → List (Dest × DWord)) (hf : ∀ g l, f g l = { writes := w l }) :
    alu i lat f s = .next (unitEnd b (Issues.ix i b g t 1) ((s.issued b g 1).setGroup ((g.issued b 1).upd (g.activeOf b 1) (fun j l =>
      l.pendAll lat (w ((g.issued b 1).lane (sourceLane i.use.u (g.activeOf b 1) j))))))) := by
  rw [alu_ready h lat f (fun j _ => by simp [hf]), Group.results_plain _ _ _ _ (fun j => by simp [hf])]
  simp only [hf]

end Sys2Proof.Machine
end

