-- ==== Sys2Proof/Laws/Memory.lean ====
section
/-! SUPPORT. Laws of the canonical memory and of rising lists: every operation on a memory keeps its form, and a read after a
write. -/

namespace Sys2Proof.Machine

/-! ### The canonical form -/

/-- Every listed location of a memory lies at or above a bound. -/
def Memory.from (n : Nat) (m : Memory) : Prop := ∀ c ∈ m, n ≤ c.1

theorem Memory.wf_nil : Memory.wf [] = true := rfl

theorem Memory.wf_cons (a : Nat) (b : Byte) (m : Memory) :
    Memory.wf ((a, b) :: m) = true ↔ b ≠ 0 ∧ Memory.from (a + 1) m ∧ Memory.wf m = true := by
  induction m generalizing a b with
  | nil => simp [Memory.wf, Memory.from]
  | cons c rest ih =>
    obtain ⟨a', b'⟩ := c
    rw [Memory.wf, Bool.and_eq_true, Bool.and_eq_true, ih a' b']
    simp only [bne_iff_ne, ne_eq, decide_eq_true_eq, Memory.from, List.mem_cons, forall_eq_or_imp]
    constructor
    · rintro ⟨⟨hb, hlt⟩, hb', hf, hw⟩
      exact ⟨hb, ⟨hlt, fun c hc => by have := hf c hc; omega⟩, hb', hf, hw⟩
    · rintro ⟨hb, ⟨hlt, _⟩, hb', hf, hw⟩
      exact ⟨⟨hb, hlt⟩, hb', hf, hw⟩

theorem Memory.from_set {n x : Nat} {v : Byte} {m : Memory} (hm : Memory.from n m) (hx : n ≤ x) : Memory.from n (m.set x v) := by
  induction m with
  | nil => unfold Memory.set; split <;> simp_all [Memory.from]
  | cons c rest ih =>
    obtain ⟨a, b⟩ := c
    have hr : Memory.from n rest := fun d hd => hm d (List.mem_cons_of_mem _ hd)
    have ha : n ≤ a := hm (a, b) (by simp)
    have hi := ih hr
    unfold Memory.set
    split
    · split <;> (intro d hd; simp only [List.mem_cons] at hd; grind [Memory.from])
    · split
      · split <;> (intro d hd; grind [Memory.from])
      · intro d hd; simp only [List.mem_cons] at hd; grind [Memory.from]

/-- Putting a byte keeps the canonical form. -/
theorem Memory.wf_set {m : Memory} (h : m.wf = true) (x : Nat) (v : Byte) : (m.set x v).wf = true := by
  induction m with
  | nil => unfold Memory.set; split <;> simp_all [Memory.wf]
  | cons c rest ih =>
    obtain ⟨a, b⟩ := c
    obtain ⟨hb, hf, hw⟩ := (Memory.wf_cons a b rest).1 h
    unfold Memory.set
    split
    · split
      · exact h
      · rename_i hlt hv
        refine (Memory.wf_cons _ _ _).2 ⟨hv, ?_, h⟩
        intro d hd
        rcases List.mem_cons.1 hd with rfl | hd
        · exact hlt
        · have := hf d hd; omega
    · split
      · split
        · exact hw
        · rename_i hv
          exact (Memory.wf_cons _ _ _).2 ⟨hv, hf, hw⟩
      · exact (Memory.wf_cons _ _ _).2 ⟨hb, Memory.from_set hf (by omega), ih hw⟩

theorem Memory.wf_write {m : Memory} (h : m.wf = true) (x : Nat) (bs : List Byte) : (m.write x bs).wf = true := by
  induction bs generalizing m x with
  | nil => exact h
  | cons b bs ih => exact ih (Memory.wf_set h x b) (x + 1)

theorem Memory.wf_filter {m : Memory} (h : m.wf = true) (p : Host.Cell → Bool) : Memory.wf (m.filter p) = true := by
  induction m with
  | nil => rfl
  | cons c rest ih =>
    obtain ⟨a, b⟩ := c
    obtain ⟨hb, hf, hw⟩ := (Memory.wf_cons a b rest).1 h
    rw [List.filter_cons]
    split
    · exact (Memory.wf_cons _ _ _).2 ⟨hb, fun d hd => hf d (List.mem_of_mem_filter hd), ih hw⟩
    · exact ih hw

theorem Memory.wf_clear {m : Memory} (h : m.wf = true) (a n : Nat) : (m.clear a n).wf = true := Memory.wf_filter h _

/-! ### Reads after writes -/

theorem Memory.get_from {n x : Nat} {m : Memory} (hm : Memory.from n m) (hx : x < n) : m.get x = 0 := by
  induction m with
  | nil => rfl
  | cons c rest ih =>
    obtain ⟨a, b⟩ := c
    have ha : n ≤ a := hm (a, b) (by simp)
    unfold Memory.get
    rw [if_neg (by omega)]
    exact ih (fun d hd => hm d (List.mem_cons_of_mem _ hd))

/-- A byte reads as what was last put there, and every other one as before. -/
theorem Memory.get_set {m : Memory} (h : m.wf = true) (x : Nat) (v : Byte) (y : Nat) :
    (m.set x v).get y = if y = x then v else m.get y := by
  induction m with
  | nil =>
    unfold Memory.set
    split <;> grind [Memory.get]
  | cons c rest ih =>
    obtain ⟨a, b⟩ := c
    obtain ⟨hb, hf, hw⟩ := (Memory.wf_cons a b rest).1 h
    have hi := ih hw
    have low : ∀ z, z ≤ a → Memory.get rest z = 0 := fun z hz => Memory.get_from hf (by omega)
    unfold Memory.set
    split
    · split <;> grind [Memory.get]
    · split
      · split <;> grind [Memory.get]
      · grind [Memory.get]

theorem Memory.get_write {m : Memory} (h : m.wf = true) (x : Nat) (bs : List Byte) (y : Nat) :
    (m.write x bs).get y = if x ≤ y ∧ y < x + bs.length then bs.getD (y - x) 0 else m.get y := by
  induction bs generalizing m x with
  | nil => simp only [Memory.write, List.length_nil]; rw [if_neg (by omega)]
  | cons b bs ih =>
    rw [Memory.write, ih (Memory.wf_set h x b) (x + 1), Memory.get_set h]
    simp only [List.length_cons]
    by_cases h1 : y = x
    · subst h1; rw [if_neg (by omega), if_pos rfl, if_pos (by omega)]; simp
    · by_cases h2 : x + 1 ≤ y ∧ y < x + 1 + bs.length
      · rw [if_pos h2, if_pos (by omega)]
        obtain ⟨k, rfl⟩ : ∃ k, y = x + 1 + k := ⟨y - (x + 1), by omega⟩
        simp [show x + 1 + k - x = k + 1 by omega]
      · rw [if_neg h2, if_neg h1, if_neg (by omega)]

/-! ### Rising lists -/

/-- A list of numbers rises strictly. -/
abbrev Rising (l : List Nat) : Prop := l.Pairwise (· < ·)

theorem mem_insertNat (x y : Nat) (l : List Nat) : y ∈ insertNat x l ↔ y = x ∨ y ∈ l := by
  induction l with
  | nil => simp [insertNat]
  | cons z zs ih => unfold insertNat; split <;> (try split) <;> grind

theorem rising_insertNat {l : List Nat} (h : Rising l) (x : Nat) : Rising (insertNat x l) := by
  induction l with
  | nil => simp [insertNat, Rising]
  | cons z zs ih =>
    have ⟨hz, hs⟩ := List.pairwise_cons.1 h
    unfold insertNat
    split
    · exact List.pairwise_cons.2 ⟨fun y hy => by grind, h⟩
    · split
      · exact h
      · refine List.pairwise_cons.2 ⟨fun y hy => ?_, ih hs⟩
        rcases (mem_insertNat x y zs).1 hy with rfl | hy
        · omega
        · exact hz y hy

theorem rising_filter {l : List Nat} (h : Rising l) (p : Nat → Bool) : Rising (l.filter p) := h.filter p

theorem rising_inserts {α : Type} (f : α → Nat) (as : List α) {l : List Nat} (h : Rising l) :
    Rising (as.foldl (fun l a => insertNat (f a) l) l) := by
  induction as generalizing l with
  | nil => exact h
  | cons a as ih => exact ih (rising_insertNat h _)

end Sys2Proof.Machine
end

