-- ==== Sys2Proof/Laws/Canonical.lean ====
section
/-! SUPPORT. The canonical form of a state: what keeps it, one lemma for each operation over states. -/

namespace Sys2Proof.Machine

@[simp] theorem State.canonical_mem {s : State} (h : s.Canonical) : s.mem.wf = true := h.mem
@[simp] theorem State.canonical_poison {s : State} (h : s.Canonical) : s.poison.Pairwise (· < ·) := h.poison
@[simp] theorem State.canonical_absent {s : State} (h : s.Canonical) : s.absent.Pairwise (· < ·) := h.absent

@[simp] theorem State.canonical_mk moduleM plat care mem poison absent ctxs tasks now readies gang preempts saves kept invs teams
    groups lanterns cores outb stale agents locks journal hostq outbox fabric issue agenda choices
    freeBits ids turn :
    (State.mk moduleM plat care mem poison absent ctxs tasks now readies gang preempts saves kept invs teams
      groups lanterns cores outb stale agents locks journal hostq outbox fabric issue agenda choices
      freeBits ids turn).Canonical ↔
      Memory.wf mem = true ∧ poison.Pairwise (· < ·) ∧ absent.Pairwise (· < ·) :=
  ⟨fun h => ⟨h.mem, h.poison, h.absent⟩, fun h => ⟨h.1, h.2.1, h.2.2⟩⟩

@[simp] theorem State.canonical_set {m : Memory} (h : m.wf = true) (x : Nat) (v : Byte) : (m.set x v).wf = true := Memory.wf_set h x v
@[simp] theorem State.canonical_write {m : Memory} (h : m.wf = true) (x : Nat) (bs : List Byte) : (m.write x bs).wf = true :=
  Memory.wf_write h x bs
@[simp] theorem State.canonical_filter {m : Memory} (h : m.wf = true) (p : Host.Cell → Bool) : Memory.wf (m.filter p) = true :=
  Memory.wf_filter h p
@[simp] theorem State.canonical_clear {m : Memory} (h : m.wf = true) (a n : Nat) : (m.clear a n).wf = true := Memory.wf_clear h a n
@[simp] theorem State.rising_insert {l : List Nat} (h : l.Pairwise (· < ·)) (x : Nat) : (insertNat x l).Pairwise (· < ·) :=
  rising_insertNat h x
@[simp] theorem State.rising_filter {l : List Nat} (h : l.Pairwise (· < ·)) (p : Nat → Bool) : (l.filter p).Pairwise (· < ·) := h.filter p

/-- An update of other fields keeps the form. -/
theorem canon_same {s t : State} (h : s.Canonical) (hm : t.mem = s.mem := by rfl) (hp : t.poison = s.poison := by rfl)
    (ha : t.absent = s.absent := by rfl) : t.Canonical := ⟨hm ▸ h.mem, hp ▸ h.poison, ha ▸ h.absent⟩

theorem foldl_canon {α : Type} {f : State → α → State} {l : List α} {s : State}
    (hf : ∀ s a, s.Canonical → (f s a).Canonical) (h : s.Canonical) : (l.foldl f s).Canonical := by
  induction l generalizing s with
  | nil => exact h
  | cons a l ih => exact ih (hf s a h)

theorem foldl_fst_canon {α β : Type} {f : State × β → α → State × β} {l : List α} {x : State × β}
    (hf : ∀ x a, x.1.Canonical → (f x a).1.Canonical) (h : x.1.Canonical) : (l.foldl f x).1.Canonical := by
  induction l generalizing x with
  | nil => exact h
  | cons a l ih => exact ih (hf x a h)

theorem foldl_snd_canon {α β : Type} {f : β × State → α → β × State} {l : List α} {x : β × State}
    (hf : ∀ x a, x.2.Canonical → (f x a).2.Canonical) (h : x.2.Canonical) : (l.foldl f x).2.Canonical := by
  induction l generalizing x with
  | nil => exact h
  | cons a l ih => exact ih (hf x a h)

theorem canon_of_fst {β : Type} {p : State × β} {a : State} {b : β} (e : p = (a, b)) (h : p.1.Canonical) : a.Canonical := by
  subst e; exact h

theorem canon_of_snd {β : Type} {p : β × State} {a : State} {b : β} (e : p = (b, a)) (h : p.2.Canonical) : a.Canonical := by
  subst e; exact h

theorem canon_of_some {o : Option State} {a : State} (e : o = some a) (h : ∀ t, o = some t → t.Canonical) : a.Canonical := h a e

theorem getD_canon {o : Option State} {s : State} (hs : s.Canonical) (h : ∀ t, o = some t → t.Canonical) : (o.getD s).Canonical := by
  cases o with
  | none => exact hs
  | some t => exact h t rfl

/-- Whatever next state an outcome holds is canonical. -/
def Keeps (o : Host.Outcome State Fault Refusal) : Prop := ∀ t, o = .next t → t.Canonical

@[simp] theorem keeps_next (s : State) : Keeps (.next s) ↔ s.Canonical :=
  ⟨fun h => h s rfl, fun h t e => by cases e; exact h⟩

@[simp] theorem keeps_fault (f : Fault) : Keeps (.fault f) := fun _ e => by cases e

@[simp] theorem keeps_refused (r : Refusal) : Keeps (.refused r) := fun _ e => by cases e

end Sys2Proof.Machine
end

