-- ==== Sys2Proof/Laws/Canon/Mem.lean ====
section
/-! SUPPORT. The canonical form is kept by the operations of Machine/Mem.lean. -/

set_option linter.unusedTactic false
set_option linter.unreachableTactic false
set_option linter.unusedSimpArgs false
set_option linter.unusedVariables false

namespace Sys2Proof.Machine

@[simp] theorem State.send_canon (s : State) (m : OutMsg) (hs : s.Canonical)  : (State.send s m).Canonical := by
  simp [State.send, *]

@[simp] theorem State.event_canon (s : State) (code : Nat) (ctx : Nat) (slot : Nat) (phys : Nat) (domain : Nat) (row : Nat) (detail : Nat) (hs : s.Canonical)  : (State.event s code ctx slot phys domain row detail).Canonical := by
  simp [State.event, *]

@[simp] theorem State.lineLoss_canon (s : State) (group frame line : Nat) (hs : s.Canonical)  : (State.lineLoss s group frame line).Canonical := by
  simp [State.lineLoss, *]

@[simp] theorem State.dataLoss_canon (s : State) (loc : Nat) (hs : s.Canonical)  : (State.dataLoss s loc).Canonical := by
  unfold State.dataLoss
  split <;> simp [*]

@[simp] theorem State.poison1_canon (s : State) (unit : Nat) (hs : s.Canonical)  : (State.poison1 s unit).Canonical := by
  simp [State.poison1, *]

@[simp] theorem State.write1_canon (s : State) (loc : Nat) (bs : List Byte) (hs : s.Canonical)  : (State.write1 s loc bs).Canonical := by
  unfold State.write1
  dsimp only
  repeat' split
  all_goals simp [*]

@[simp] theorem State.store_canon (s : State) (loc : Nat) (bs : List Byte) (hs : s.Canonical)  : (State.store s loc bs).Canonical := by
  unfold State.store
  refine foldl_canon (fun _ _ _ => ?_) ?_ <;> simp [*]

@[simp] theorem State.countReq_canon (s : State) (loc : Nat) (hs : s.Canonical)  : (State.countReq s loc).Canonical := by
  unfold State.countReq
  split <;> simp [*]

@[simp] theorem State.request_canon (s : State) (loc n : Nat) (hs : s.Canonical)  : (State.request s loc n).1.Canonical := by
  simp [State.request, *]

@[simp] theorem State.put_canon (s : State) (loc : Nat) (bs : List Byte) (hs : s.Canonical)  : (State.put s loc bs).Canonical := by
  simp [State.put, *]

@[simp] theorem State.refreshStale_canon (s : State) (core loc : Nat) (bs : List Byte) (hs : s.Canonical)  : (State.refreshStale s core loc bs).Canonical := by
  simp [State.refreshStale, *]

end Sys2Proof.Machine
end

