-- ==== Sys2Proof/Laws/Canon/Translate.lean ====
section
/-! SUPPORT. The canonical form is kept by the operations of Machine/Translate.lean. -/

set_option linter.unusedTactic false
set_option linter.unreachableTactic false
set_option linter.unusedSimpArgs false
set_option linter.unusedVariables false

namespace Sys2Proof.Machine

@[simp] theorem State.setCtx_canon (s : State) (c : Nat) (x : Context) (hs : s.Canonical)  : (State.setCtx s c x).Canonical := by
  simp [State.setCtx, *]

@[simp] theorem State.touch_canon (s : State) (c va : Nat) (hs : s.Canonical) : (State.touch s c va).Canonical := by
  unfold State.touch
  split
  · exact hs
  · dsimp only
    have h1 := foldl_canon (l := (walk s c va).1) (f := fun s a => s.countReq a) (fun s a h => State.countReq_canon s a h) hs
    split <;> simp [*]

@[simp] theorem State.touchRange_canon (s : State) (c va n : Nat) (hs : s.Canonical)  : (State.touchRange s c va n).Canonical := by
  unfold State.touchRange
  refine foldl_canon (fun _ _ _ => ?_) ?_ <;> simp [*]

@[simp] theorem State.windowTouch_canon (s : State) (c off n : Nat) (hs : s.Canonical)  : (State.windowTouch s c off n).Canonical := by
  unfold State.windowTouch
  split <;> simp [*]

@[simp] theorem windowWrite_canon (s : State) (c off : Nat) (bs : List Byte) (hs : s.Canonical) :
    ∀ t, windowWrite s c off bs = some t → t.Canonical := by
  intro t h
  unfold windowWrite at h
  split at h
  · cases h
  · split at h
    · cases h
      refine foldl_canon (fun s q h => ?_) hs
      split <;> simp [*]
    · cases h

end Sys2Proof.Machine
end

