-- ==== Sys2Proof/Laws/Canon/Engine.lean ====
section
/-! SUPPORT. The canonical form is kept by the operations of Machine/Engine.lean. -/

set_option linter.unusedTactic false
set_option linter.unreachableTactic false
set_option linter.unusedSimpArgs false
set_option linter.unusedVariables false

namespace Sys2Proof.Machine

@[simp] theorem State.clearPresence_canon (s : State) (lines : List Nat) (hs : s.Canonical) : (State.clearPresence s lines).Canonical := by
  have h := rising_inserts id lines hs.absent
  simp_all [State.clearPresence]

@[simp] theorem State.setPresence_canon (s : State) (lines : List Nat) (hs : s.Canonical)  : (State.setPresence s lines).Canonical := by
  simp [State.setPresence, *]

@[simp] theorem State.poisonAt_canon (s : State) (loc : Nat) (bad : List Nat) (hs : s.Canonical)  : (State.poisonAt s loc bad).Canonical := by
  unfold State.poisonAt
  refine foldl_canon (fun _ _ _ => ?_) ?_ <;> simp [*]

@[simp] theorem State.setAgent_canon (s : State) (a : Agent) (hs : s.Canonical)  : (State.setAgent s a).Canonical := by
  simp [State.setAgent, *]

theorem State.Canonical.markFrom {s : State} {p : Nat → Bool} (hs : s.Canonical) :
    ({ s with absent := s.absent.filter p } : State).Canonical :=
  ⟨hs.mem, hs.poison, List.Pairwise.filter _ hs.absent⟩

@[simp] theorem takeStep_canon (s : State) (a : Agent) (n : Nat) (hs : s.Canonical) : (takeStep s a n).Canonical := by
  unfold takeStep
  dsimp only
  split
  · exact hs
  · split
    · split <;> simp [hs]
    · split
      · simp [hs]
      · have h1 : ∀ loc bs bad r, (((s.put loc bs).poisonAt loc bad).setAgent r).Canonical := 
          fun loc bs bad r => State.setAgent_canon _ r (State.poisonAt_canon _ loc bad (by simp [hs]))
        split
        · exact State.Canonical.markFrom (h1 _ _ _ _)
        · exact h1 _ _ _ _
    · have h1 : ∀ loc bs r, ((s.store loc bs).setAgent r).Canonical :=
        fun loc bs r => State.setAgent_canon _ r (State.store_canon s loc bs hs)
      split
      · exact State.poison1_canon _ _ (h1 _ _ _)
      · exact h1 _ _ _

@[simp] theorem State.dropAgent_canon (s : State) (a : Agent) (hs : s.Canonical)  : (State.dropAgent s a).Canonical := by
  simp [State.dropAgent, *]

@[simp] theorem State.startAgent_canon (s : State) (a : Agent) (locks : List RangeLock) (hs : s.Canonical)  : (State.startAgent s a locks).Canonical := by
  simp [State.startAgent, *]

@[simp] theorem State.fresh_canon (s : State) (hs : s.Canonical)  : (State.fresh s).Canonical := by
  simp [State.fresh, *]

@[simp] theorem State.choose_canon (s : State) (hs : s.Canonical)  : (State.choose s).2.Canonical := by
  unfold State.choose
  split <;> simp [*]

@[simp] theorem landOut_canon (s : State) (core : Nat) (e : Entry) (hs : s.Canonical) : (landOut s core e).Canonical := by
  unfold landOut
  dsimp only
  have h : State.Canonical { s with outb := removeOut core e s.outb } := by simp [*]
  split <;> simp [*]

@[simp] theorem outStep_canon (s : State) (core n : Nat) (hs : s.Canonical)  : (outStep s core n).Canonical := by
  unfold outStep
  dsimp only
  repeat' split
  all_goals simp [*]

@[simp] theorem drainMarked_canon (core : Nat) (ms : List Bool) (n : Nat) (s : State) (hs : s.Canonical) :
    (drainMarked core ms n s).Canonical := by
  induction ms generalizing n s with
  | nil => exact hs
  | cons m ms ih => exact ih _ _ (by split <;> simp [*])

@[simp] theorem drainOut_canon (s : State) (core : Nat) (p : Entry → Bool) (hs : s.Canonical) : (drainOut s core p).Canonical := by
  simp [drainOut, *]

@[simp] theorem State.acquire_canon (s : State) (core scope : Nat) (hs : s.Canonical)  : (State.acquire s core scope).Canonical := by
  unfold State.acquire
  split <;> simp [*]

end Sys2Proof.Machine
end

