-- ==== Sys2Proof/Laws/Canon/Tasks.lean ====
section
/-! SUPPORT. The canonical form is kept by the operations of Machine/Tasks.lean. -/

set_option linter.unusedTactic false
set_option linter.unreachableTactic false
set_option linter.unusedSimpArgs false
set_option linter.unusedVariables false

namespace Sys2Proof.Machine

@[simp] theorem State.takeBit_canon (s : State) (hs : s.Canonical)  : (State.takeBit s).2.Canonical := by
  simp [State.takeBit, *]

@[simp] theorem State.waitWrite_canon (s : State) (loc : Nat) (bs : List Byte) (bad : List Nat) (used : Option (Nat × List Addr))
    (hs : s.Canonical) : (State.waitWrite s loc bs bad used).Canonical := by
  simp [State.waitWrite, *]

@[simp] theorem fateOf_canon (s : State) (e : Entry) (hs : s.Canonical)  : (fateOf s e).Canonical := by
  unfold fateOf
  dsimp only
  repeat' split
  all_goals simp [*]

@[simp] theorem fateSteps_canon (n : Nat) (s : State) (a : Agent) (hs : s.Canonical) : (fateSteps n s a).Canonical := by
  induction n generalizing s a with
  | zero => exact hs
  | succ k ih =>
    have hb := State.takeBit_canon s hs
    unfold fateSteps
    dsimp only
    repeat' split
    all_goals
      first
      | exact hb
      | exact ih _ _ (by simp [*])
      | exact ih _ _ (by repeat' split
                         all_goals simp [*])

@[simp] theorem sendAborts_canon (s : State) (t : Task) (hs : s.Canonical)  : (sendAborts s t).Canonical := by
  simp [sendAborts, *]

@[simp] theorem State.removeTeam_canon (s : State) (id : Nat) (hs : s.Canonical)  : (State.removeTeam s id).Canonical := by
  unfold State.removeTeam
  refine foldl_canon (fun _ _ _ => ?_) ?_ <;> simp [*]

@[simp] theorem flushSaves_canon (s : State) (hs : s.Canonical)  : (flushSaves s).Canonical := by
  unfold flushSaves
  refine foldl_canon (fun _ _ _ => ?_) ?_ <;> simp [*]

@[simp] theorem forcedReset_canon (s : State) (ctx reason : Nat) (hs : s.Canonical) : (forcedReset s ctx reason).Canonical := by
  unfold forcedReset
  dsimp only
  refine State.event_canon _ _ _ _ _ _ _ _ (flushSaves_canon _ ?_)
  simp only [State.canonical_mk]
  refine ⟨?_, ?_, ?_⟩
  · refine State.Canonical.mem (foldl_canon (fun s a h => by simp [h]) (foldl_canon (fun s a h => by simp [h])
      (foldl_canon (fun s a h => by simp [h]) (foldl_canon (fun s a h => by simp [h]) ?_))))
    simp only [State.canonical_mk]
    have h := foldl_canon (f := sendAborts) (l := s.tasks.filter (fun t => t.ctx = ctx && recKind t.record = 4 && t.started)) (fun s t h => sendAborts_canon s t h) hs
    exact ⟨h.mem, h.poison, h.absent⟩
  · refine State.Canonical.poison (foldl_canon (fun s a h => by simp [h]) (foldl_canon (fun s a h => by simp [h])
      (foldl_canon (fun s a h => by simp [h]) (foldl_canon (fun s a h => by simp [h]) ?_))))
    simp only [State.canonical_mk]
    have h := foldl_canon (f := sendAborts) (l := s.tasks.filter (fun t => t.ctx = ctx && recKind t.record = 4 && t.started)) (fun s t h => sendAborts_canon s t h) hs
    exact ⟨h.mem, h.poison, h.absent⟩
  · refine State.Canonical.absent (foldl_canon (fun s a h => by simp [h]) (foldl_canon (fun s a h => by simp [h])
      (foldl_canon (fun s a h => by simp [h]) (foldl_canon (fun s a h => by simp [h]) ?_))))
    simp only [State.canonical_mk]
    have h := foldl_canon (f := sendAborts) (l := s.tasks.filter (fun t => t.ctx = ctx && recKind t.record = 4 && t.started)) (fun s t h => sendAborts_canon s t h) hs
    exact ⟨h.mem, h.poison, h.absent⟩

end Sys2Proof.Machine
end

