-- ==== Sys2Proof/Laws/Canon/Ops.lean ====
section
/-! SUPPORT. The canonical form is kept by the operations of Machine/Ops.lean. -/

set_option linter.unusedTactic false
set_option linter.unreachableTactic false
set_option linter.unusedSimpArgs false
set_option linter.unusedVariables false

namespace Sys2Proof.Machine

@[simp] theorem State.setGroup_canon (s : State) (g : Group) (hs : s.Canonical)  : (State.setGroup s g).Canonical := by
  simp [State.setGroup, *]

@[simp] theorem State.setLantern_canon (s : State) (l : Lantern) (hs : s.Canonical)  : (State.setLantern s l).Canonical := by
  simp [State.setLantern, *]

@[simp] theorem State.setTeam_canon (s : State) (t : Team) (hs : s.Canonical)  : (State.setTeam s t).Canonical := by
  simp [State.setTeam, *]

@[simp] theorem State.setTask_canon (s : State) (t : Task) (hs : s.Canonical)  : (State.setTask s t).Canonical := by
  simp [State.setTask, *]

@[simp] theorem State.setFront_canon (s : State) (core slot : Nat) (f : Front) (hs : s.Canonical)  : (State.setFront s core slot f).Canonical := by
  unfold State.setFront
  repeat' split
  all_goals simp [*]

@[simp] theorem State.opDone_canon (s : State) (core slot id : Nat) (hs : s.Canonical)  : (State.opDone s core slot id).Canonical := by
  unfold State.opDone
  split <;> simp [*]

@[simp] theorem State.opResult_canon (s : State) (core slot id : Nat) (ws : List (Dest × DWord)) (hs : s.Canonical)  : (State.opResult s core slot id ws).Canonical := by
  unfold State.opResult
  split <;> simp [*]

@[simp] theorem sqLeave_canon (s : State) (core slot : Nat) (hs : s.Canonical) : (sqLeave s core slot).Canonical := by
  unfold sqLeave
  dsimp only
  split
  · exact hs
  · split
    · exact hs
    · rename_i f _ e rest _
      have h1 : ∀ f, (s.setFront core slot f).Canonical := fun f => by simp [hs]
      repeat' split
      all_goals simp [h1]
      all_goals exact ⟨hs.mem, hs.poison, hs.absent⟩

@[simp] theorem drainSq_canon (core slot n : Nat) (s : State) (hs : s.Canonical) : (drainSq core slot n s).Canonical := by
  induction n generalizing s with
  | zero => exact hs
  | succ k ih => exact ih _ (by simp [*])

@[simp] theorem drainQueue_canon (s : State) (core slot : Nat) (hs : s.Canonical)  : (drainQueue s core slot).Canonical := by
  unfold drainQueue
  split <;> simp [*]

@[simp] theorem release_canon (s : State) (core slot scope : Nat) (hs : s.Canonical)  : (release s core slot scope).1.Canonical := by
  unfold release
  repeat' split
  all_goals simp [*]

@[simp] theorem State.pop_canon (s : State) (hs : s.Canonical)  : (State.pop s).Canonical := by
  simp [State.pop, *]

@[simp] theorem writeRecord_canon (s : State) (ctx core slot off : Nat) (bs : List Byte) (hs : s.Canonical)  : ∀ t, (writeRecord s ctx core slot off bs) = some t → t.Canonical := by
  unfold writeRecord
  repeat' first
    | assumption
    | with_reducible apply windowWrite_canon
    | split
    | dsimp only
    | refine foldl_canon (fun _ _ _ => ?_) ?_
  all_goals simp [*]

@[simp] theorem touchRecord_canon (s : State) (ctx core slot : Nat) (hs : s.Canonical)  : (touchRecord s ctx core slot).Canonical := by
  unfold touchRecord
  split <;> simp [*]

theorem writeRecord_bind_canon {o : Option State} (ho : ∀ t, o = some t → t.Canonical) (ctx core slot off : Nat) (bs : List Byte) :
    ∀ t, o.bind (fun s => writeRecord s ctx core slot off bs) = some t → t.Canonical := by
  cases o with
  | none => intro t h; cases h
  | some s => exact writeRecord_canon s ctx core slot off bs (ho s rfl)

@[simp] theorem logRecord_canon (s : State) (ctx core slot bits : Nat) (code : Option Word) (hs : s.Canonical) :
    (logRecord s ctx core slot bits code).Canonical := by
  have h := touchRecord_canon s ctx core slot hs
  have h2 : ∀ (o : Option (List Byte)) (f : List Byte → List Byte) t,
      (o.bind fun bs => writeRecord (touchRecord s ctx core slot) ctx core slot 18 (f bs)) = some t → t.Canonical := by
    intro o f t ht
    cases o with
    | none => cases ht
    | some bs => exact writeRecord_canon _ _ _ _ _ _ h t ht
  unfold logRecord
  dsimp only
  cases code with
  | none => exact getD_canon (by simp [h]) (h2 _ (fun bs => bytesOf 1 (natOf bs ||| bits)))
  | some c =>
    exact getD_canon (by simp [h]) (writeRecord_bind_canon (h2 _ (fun bs => bytesOf 1 (natOf bs ||| bits))) _ _ _ _ _)

@[simp] theorem enterGroup_canon (s : State) (g : Group) (t : TrapSplit) (team : Team) (hs : s.Canonical) : (enterGroup s g t team).Canonical := by
  have h := touchRecord_canon _ team.ctx g.core g.slot (drainSq_canon g.core g.slot t.marks s hs)
  unfold enterGroup
  dsimp only
  split
  · exact h
  · split
    · simp [h]
    · rename_i s2 h2
      have := writeRecord_canon _ _ _ _ _ _ h s2 h2
      simp [this]

@[simp] theorem enterLantern_canon (s : State) (l : Lantern) (t : TrapSplit) (team : Team) (hs : s.Canonical) : (enterLantern s l t team).Canonical := by
  have h := touchRecord_canon _ team.ctx l.core l.slot (drainSq_canon l.core l.slot t.marks s hs)
  unfold enterLantern
  dsimp only
  split
  · exact h
  · split
    · simp [h]
    · rename_i s2 h2
      have := writeRecord_canon _ _ _ _ _ _ h s2 h2
      simp [this]

@[simp] theorem tryEntry_canon (s : State) (core slot : Nat) (hs : s.Canonical)  : (tryEntry s core slot).Canonical := by
  unfold tryEntry
  dsimp only
  repeat' split
  all_goals simp [*]

@[simp] theorem formSplits_canon (s : State) (g : Group) (a : At) (hits : List Hit) (hs : s.Canonical)  : (formSplits s g a hits).Canonical := by
  unfold formSplits
  split <;> simp [*]

@[simp] theorem stepTraps_canon (s : State) (g : Group) (a : At) (lanes : List Nat) (hs : s.Canonical)  : (stepTraps s g a lanes).Canonical := by
  unfold stepTraps
  exact formSplits_canon _ _ _ _ (by simp [*])

@[simp] theorem singleStep_canon (s : State) (core slot : Nat) (units : List (Nat × Addr)) (hs : s.Canonical)  : (singleStep s core slot units).Canonical := by
  unfold singleStep
  dsimp only
  repeat' first | assumption | split | refine foldl_canon (fun _ _ _ => ?_) ?_
  all_goals simp [*]

@[simp] theorem trapDiverged_canon (s : State) (g0 : Group) (hs : s.Canonical)  : (trapDiverged s g0).Canonical := by
  unfold trapDiverged
  dsimp only
  repeat' first | assumption | split | refine foldl_canon (fun _ _ _ => ?_) ?_
  all_goals simp [*]

@[simp] theorem settleJoins_canon (s : State) (core slot : Nat) (hs : s.Canonical) : (settleJoins s core slot).Canonical := by
  unfold settleJoins
  dsimp only
  split
  · exact hs
  · split
    · simp [*]
    · split
      · exact foldl_canon (fun s g h => trapDiverged_canon s g h) (by simp [*])
      · simp [*]

@[simp] theorem endHandler_canon (s : State) (core slot : Nat) (hs : s.Canonical)  : (endHandler s core slot).Canonical := by
  unfold endHandler
  repeat' split
  all_goals simp [*]

@[simp] theorem stopLantern_canon (s : State) (teamId : Nat) (hs : s.Canonical)  : (stopLantern s teamId).Canonical := by
  unfold stopLantern
  repeat' split
  all_goals simp [*]

@[simp] theorem loseLanes_canon (s : State) (core slot : Nat) (set : LaneSet) (hs : s.Canonical)  : (loseLanes s core slot set).Canonical := by
  unfold loseLanes
  repeat' first
    | assumption
    | with_reducible apply State.setGroup_canon
    | with_reducible apply settleJoins_canon
    | with_reducible apply endHandler_canon
    | with_reducible apply stopLantern_canon
    | with_reducible apply settleJoins_canon
    | split
    | dsimp only
    | refine foldl_canon (fun _ _ _ => ?_) ?_
  all_goals simp [*]

@[simp] theorem retireLantern_canon (s : State) (core slot : Nat) (hs : s.Canonical)  : (retireLantern s core slot).Canonical := by
  unfold retireLantern
  dsimp only
  repeat' split
  all_goals simp [*]

@[simp] theorem doubleFault_canon (s0 : State) (core slot : Nat) (t : Team) (a : At) (vec : Nat) (hits : List Hit) (hs : s0.Canonical) :
    (doubleFault s0 core slot t a vec hits).Canonical := by
  have hs := touchRecord_canon s0 t.ctx core slot hs
  unfold doubleFault
  dsimp only
  split
  · simp [hs]
  · rename_i s2 h2
    have : s2.Canonical := by
      refine writeRecord_bind_canon (writeRecord_bind_canon (writeRecord_bind_canon (writeRecord_bind_canon (writeRecord_bind_canon
        (writeRecord_bind_canon ?_ _ _ _ _ _) _ _ _ _ _) _ _ _ _ _) _ _ _ _ _) _ _ _ _ _) _ _ _ _ _ s2 h2
      intro t ht
      cases ht
      exact hs
    split <;> simp [this]

@[simp] theorem raise_canon (s : State) (core slot : Nat) (a : At) (hits : List Hit) (hs : s.Canonical)  : (raise s core slot a hits).Canonical := by
  unfold raise
  dsimp only
  repeat' first | assumption | split | refine foldl_canon (fun _ _ _ => ?_) ?_
  all_goals simp [*]

@[simp] theorem raiseLantern_canon (s : State) (core slot : Nat) (a : At) (vec cause : Nat) (addr : DWord) (hs : s.Canonical)  : (raiseLantern s core slot a vec cause addr).Canonical := by
  unfold raiseLantern
  repeat' split
  all_goals simp [*]

@[simp] theorem raiseAll_canon (s : State) (core slot : Nat) (a : At) (set : LaneSet) (vec cause : Nat) (addr : DWord) (hs : s.Canonical)  : (raiseAll s core slot a set vec cause addr).Canonical := by
  unfold raiseAll
  split <;> simp [*]

@[simp] theorem afterUnit_canon (s : State) (core slot : Nat) (a : At) (set : LaneSet) (hs : s.Canonical)  : (afterUnit s core slot a set).Canonical := by
  unfold afterUnit
  dsimp only
  repeat' first | assumption | split | refine foldl_canon (fun _ _ _ => ?_) ?_
  all_goals simp [*]

@[simp] theorem State.nextPart_canon (s : State) (x : Ix) (f : Bundle → Bundle) (hs : s.Canonical)  : (State.nextPart s x f).Canonical := by
  unfold State.nextPart
  repeat' split
  all_goals simp [*]

@[simp] theorem raiseUnit_canon (x : Ix) (wide : Bool) (hits : List Hit) (s : State) (hs : s.Canonical)  : (raiseUnit x wide hits s).Canonical := by
  unfold raiseUnit
  split <;> simp [*]

@[simp] theorem endUnit_canon (x : Ix) (s : State) (hs : s.Canonical)  : (endUnit x s).Canonical := by
  unfold endUnit
  split <;> simp [*]

@[simp] theorem lastPart_canon (x : Ix) (s : State) (hs : s.Canonical)  : (lastPart x s).Canonical := by
  unfold lastPart
  repeat' split
  all_goals simp [*]

@[simp] theorem finishAlu_canon (x : Ix) (lat : Nat) (outs : List (Nat × LaneOut)) (s : State) (hs : s.Canonical)  : (finishAlu x lat outs s).Canonical := by
  unfold finishAlu
  split <;> simp [*]

@[simp] theorem standAgain_canon (s : State) (x : Ix) (hs : s.Canonical)  : (standAgain s x).Canonical := by
  unfold standAgain
  repeat' split
  all_goals simp [*]

@[simp] theorem waitAtUnit_canon (s : State) (x : Ix) (p : Park) (w : Waiting) (hs : s.Canonical)  : (waitAtUnit s x p w).Canonical := by
  unfold waitAtUnit
  repeat' split
  all_goals simp [*]

@[simp] theorem goOn_canon (s : State) (core slot : Nat) (act : State → State) (hs : s.Canonical) (hact : ∀ s, s.Canonical → (act s).Canonical) : (goOn s core slot act).Canonical := by
  unfold goOn
  repeat' first
    | assumption
    | with_reducible apply State.setGroup_canon
    | with_reducible apply State.setLantern_canon
    | with_reducible apply singleStep_canon
    | split
    | dsimp only
    | refine foldl_canon (fun _ _ _ => ?_) ?_
  all_goals simp [*]

@[simp] theorem retryUnit_canon (s : State) (core slot : Nat) (hs : s.Canonical)  : (retryUnit s core slot).Canonical := by
  unfold retryUnit
  repeat' split
  all_goals simp [*]

@[simp] theorem waitForLocks_canon (s : State) (x : Ix) (alone : Bool) (hs : s.Canonical)  : (waitForLocks s x alone).Canonical := by
  unfold waitForLocks
  dsimp only
  repeat' split
  all_goals simp [*]

@[simp] theorem leaveLocks_canon (s : State) (x : Ix) (hs : s.Canonical)  : (leaveLocks s x).Canonical := by
  unfold leaveLocks
  repeat' split
  all_goals simp [*]

@[simp] theorem retryLocks_canon (s : State) (core slot n : Nat) (hs : s.Canonical)  : (retryLocks s core slot n).Canonical := by
  unfold retryLocks
  repeat' split
  all_goals simp [*]

@[simp] theorem setSval_canon (s : State) (x : Ix) (r : SReg) (v : DWord) (hs : s.Canonical)  : (setSval s x r v).Canonical := by
  unfold setSval
  repeat' split
  all_goals simp [*]

@[simp] theorem trapUnit_canon (s : State) (x : Ix) (vec cause : Nat) (addr : DWord) (hs : s.Canonical)  : (trapUnit s x vec cause addr).Canonical := by
  simp [trapUnit, *]

@[simp] theorem runGathered_canon (i : UInstr) (w : Word) (b : Bundle) (t : Team) (g : Group) (h : Bool) (legal : Team → Bool → Bool → Option Nat) (s : State) (body : Ix → State → State) (hs : s.Canonical) (hbody : ∀ x s, s.Canonical → (body x s).Canonical) : (runGathered i w b t g h legal s body).Canonical := by
  unfold runGathered
  repeat' first
    | assumption
    | with_reducible apply State.setGroup_canon
    | with_reducible apply afterUnit_canon
    | with_reducible apply trapUnit_canon
    | split
    | dsimp only
    | refine foldl_canon (fun _ _ _ => ?_) ?_
  all_goals simp [*]

@[simp] theorem startOp_canon (s : State) (core slot : Nat) (op : LongOp) (hs : s.Canonical)  : (startOp s core slot op).Canonical := by
  unfold startOp
  split <;> simp [*]

@[simp] theorem startPart_canon (x : Ix) (op : LongOp) (s : State) (hs : s.Canonical)  : (startPart x op s).Canonical := by
  unfold startPart
  repeat' split
  all_goals simp [*]

@[simp] theorem fetchFault_canon (b : Bundle) (vec cause : Nat) (s : State) (hs : s.Canonical)  : (fetchFault b vec cause s).Canonical := by
  unfold fetchFault
  dsimp only
  split <;> simp [*]

@[simp] theorem returnFrom_canon (x : Ix) (s0 : State) (hs0 : s0.Canonical)  : (returnFrom x s0).Canonical := by
  unfold returnFrom
  repeat' first
    | assumption
    | with_reducible apply State.setGroup_canon
    | with_reducible apply State.setLantern_canon
    | with_reducible apply touchRecord_canon
    | with_reducible apply tryEntry_canon
    | with_reducible apply settleJoins_canon
    | with_reducible apply trapUnit_canon
    | with_reducible apply settleJoins_canon
    | split
    | dsimp only
    | refine foldl_canon (fun _ _ _ => ?_) ?_
  all_goals simp [*]

end Sys2Proof.Machine
end

