-- ==== Sys2Proof/Laws/Canon/Frames.lean ====
section
/-! SUPPORT. The frames of instruction words keep the canonical form when their bodies do. -/

set_option linter.unusedTactic false
set_option linter.unreachableTactic false
set_option linter.unusedSimpArgs false
set_option linter.unusedVariables false

namespace Sys2Proof.Machine

theorem lsetAs_keeps (i : LInstr) (w : Word) (legal : Team → Bool → Bool → Option Nat) (s : State) (body : Ix → State → State) (n : Nat)
    (uses : Use) {raises : Bool} (hs : s.Canonical) (hb : ∀ x s, s.Canonical → (body x s).Canonical) :
    Keeps (lsetAs i w legal s body n uses raises) := by
  have h0 : s.pop.Canonical := by simp [hs]
  have h1 : ∀ g, (s.pop.setGroup g).Canonical := fun g => by simp [h0]
  have h2 : ∀ l, (s.pop.setLantern l).Canonical := fun l => by simp [h0]
  have h3 : ∀ x g, (lastPart x (s.pop.setGroup g)).Canonical := fun x g => lastPart_canon _ _ (h1 g)
  unfold lsetAs
  dsimp only
  repeat' split
  all_goals
    first
    | exact keeps_fault _
    | (rw [keeps_next]
       first
       | exact h0
       | exact raiseLantern_canon _ _ _ _ _ _ _ (h2 _)
       | exact endUnit_canon _ _ (raiseUnit_canon _ _ _ _ (h3 _ _))
       | exact endUnit_canon _ _ (hb _ _ (h1 _))
       | exact endUnit_canon _ _ (hb _ _ (raiseUnit_canon _ _ _ _ (h1 _))))

theorem lset_keeps (i : LInstr) (s : State) (body : Ix → State → State) (n : Nat) (uses : Use) {raises : Bool} (hs : s.Canonical)
    (hb : ∀ x s, s.Canonical → (body x s).Canonical) : Keeps (lset i s body n uses raises) := lsetAs_keeps _ _ _ _ _ _ _ hs hb

theorem alu_keeps (i : LInstr) (lat : Nat) (f : Group → Lane → LaneOut) (s : State) (hs : s.Canonical) : Keeps (alu i lat f s) :=
  lset_keeps _ _ _ _ _ hs (fun x s h => by dsimp only; split <;> simp [h])

theorem usetAs_keeps (i : UInstr) (w : Word) (legal : Team → Bool → Bool → Option Nat) (s : State) (body : Ix → State → State)
    (hs : s.Canonical) (hb : ∀ x s, s.Canonical → (body x s).Canonical) : Keeps (usetAs i w legal s body) := by
  have h0 : s.pop.Canonical := by simp [hs]
  have h1 : ∀ g, (s.pop.setGroup g).Canonical := fun g => by simp [h0]
  have h2 : ∀ l, (s.pop.setLantern l).Canonical := fun l => by simp [h0]
  unfold usetAs
  dsimp only
  repeat' split
  all_goals
    first
    | exact keeps_fault _
    | (rw [keeps_next]
       first
       | exact h0
       | exact runGathered_canon _ _ _ _ _ _ _ _ _ (h1 _) hb
       | exact settleJoins_canon _ _ _ (h1 _)
       | exact trapUnit_canon _ _ _ _ _ (h2 _)
       | exact hb _ _ (h2 _))

theorem uset_keeps (i : UInstr) (s : State) (body : Ix → State → State) (hs : s.Canonical)
    (hb : ∀ x s, s.Canonical → (body x s).Canonical) : Keeps (uset i s body) := usetAs_keeps _ _ _ _ _ hs hb

theorem scalarOp_keeps (i : UInstr) (d : SReg) (f : (SReg → DWord) → DWord) (s : State) (hs : s.Canonical) : Keeps (scalarOp i d f s) :=
  uset_keeps _ _ _ hs (fun x s h => by simp [h])

theorem illegalWord_keeps (w : Word) (c : Nat) (s : State) (hs : s.Canonical) : Keeps (illegalWord w c s) := by
  unfold illegalWord
  split
  · exact lsetAs_keeps _ _ _ _ _ _ _ hs (fun _ _ h => h)
  · exact usetAs_keeps _ _ _ _ _ hs (fun _ _ h => h)

end Sys2Proof.Machine
end

