-- ==== Sys2Proof/Laws/Canon/Integer.lean ====
section
/-! SUPPORT. The canonical form is kept by the operations of Machine/Integer.lean. -/

set_option linter.unusedTactic false
set_option linter.unreachableTactic false
set_option linter.unusedSimpArgs false
set_option linter.unusedVariables false

namespace Sys2Proof.Machine

theorem execIadd_keeps (u : Bool) (d a b : VReg) (s : State) (hs : s.Canonical)  : Keeps (execIadd u d a b s) := by
  exact alu_keeps _ _ _ _ hs

theorem execIsub_keeps (u : Bool) (d a b : VReg) (s : State) (hs : s.Canonical)  : Keeps (execIsub u d a b s) := by
  exact alu_keeps _ _ _ _ hs

theorem execImul_keeps (u : Bool) (d a b : VReg) (s : State) (hs : s.Canonical)  : Keeps (execImul u d a b s) := by
  exact alu_keeps _ _ _ _ hs

theorem execImulh_keeps (u : Bool) (d a b : VReg) (s : State) (hs : s.Canonical)  : Keeps (execImulh u d a b s) := by
  exact alu_keeps _ _ _ _ hs

theorem execImulhz_keeps (u : Bool) (d a b : VReg) (s : State) (hs : s.Canonical)  : Keeps (execImulhz u d a b s) := by
  exact alu_keeps _ _ _ _ hs

theorem execImin_keeps (u : Bool) (d a b : VReg) (s : State) (hs : s.Canonical)  : Keeps (execImin u d a b s) := by
  exact alu_keeps _ _ _ _ hs

theorem execImax_keeps (u : Bool) (d a b : VReg) (s : State) (hs : s.Canonical)  : Keeps (execImax u d a b s) := by
  exact alu_keeps _ _ _ _ hs

theorem execIminz_keeps (u : Bool) (d a b : VReg) (s : State) (hs : s.Canonical)  : Keeps (execIminz u d a b s) := by
  exact alu_keeps _ _ _ _ hs

theorem execImaxz_keeps (u : Bool) (d a b : VReg) (s : State) (hs : s.Canonical)  : Keeps (execImaxz u d a b s) := by
  exact alu_keeps _ _ _ _ hs

theorem execAnd_keeps (u : Bool) (d a b : VReg) (s : State) (hs : s.Canonical)  : Keeps (execAnd u d a b s) := by
  exact alu_keeps _ _ _ _ hs

theorem execOr_keeps (u : Bool) (d a b : VReg) (s : State) (hs : s.Canonical)  : Keeps (execOr u d a b s) := by
  exact alu_keeps _ _ _ _ hs

theorem execXor_keeps (u : Bool) (d a b : VReg) (s : State) (hs : s.Canonical)  : Keeps (execXor u d a b s) := by
  exact alu_keeps _ _ _ _ hs

theorem execAndn_keeps (u : Bool) (d a b : VReg) (s : State) (hs : s.Canonical)  : Keeps (execAndn u d a b s) := by
  exact alu_keeps _ _ _ _ hs

theorem execShl_keeps (u : Bool) (d a b : VReg) (s : State) (hs : s.Canonical)  : Keeps (execShl u d a b s) := by
  exact alu_keeps _ _ _ _ hs

theorem execShr_keeps (u : Bool) (d a b : VReg) (s : State) (hs : s.Canonical)  : Keeps (execShr u d a b s) := by
  exact alu_keeps _ _ _ _ hs

theorem execSar_keeps (u : Bool) (d a b : VReg) (s : State) (hs : s.Canonical)  : Keeps (execSar u d a b s) := by
  exact alu_keeps _ _ _ _ hs

theorem execRotl_keeps (u : Bool) (d a b : VReg) (s : State) (hs : s.Canonical)  : Keeps (execRotl u d a b s) := by
  exact alu_keeps _ _ _ _ hs

theorem execBfx_keeps (u : Bool) (d a b : VReg) (s : State) (hs : s.Canonical)  : Keeps (execBfx u d a b s) := by
  exact alu_keeps _ _ _ _ hs

theorem execIabs_keeps (u : Bool) (d a : VReg) (s : State) (hs : s.Canonical)  : Keeps (execIabs u d a s) := by
  exact alu_keeps _ _ _ _ hs

theorem execPopc_keeps (u : Bool) (d a : VReg) (s : State) (hs : s.Canonical)  : Keeps (execPopc u d a s) := by
  exact alu_keeps _ _ _ _ hs

theorem execClz_keeps (u : Bool) (d a : VReg) (s : State) (hs : s.Canonical)  : Keeps (execClz u d a s) := by
  exact alu_keeps _ _ _ _ hs

theorem execCtz_keeps (u : Bool) (d a : VReg) (s : State) (hs : s.Canonical)  : Keeps (execCtz u d a s) := by
  exact alu_keeps _ _ _ _ hs

theorem execBrev_keeps (u : Bool) (d a : VReg) (s : State) (hs : s.Canonical)  : Keeps (execBrev u d a s) := by
  exact alu_keeps _ _ _ _ hs

theorem execBswap_keeps (u : Bool) (d a : VReg) (s : State) (hs : s.Canonical)  : Keeps (execBswap u d a s) := by
  exact alu_keeps _ _ _ _ hs

theorem execMov_keeps (u : Bool) (d a : VReg) (s : State) (hs : s.Canonical)  : Keeps (execMov u d a s) := by
  exact alu_keeps _ _ _ _ hs

theorem execImad_keeps (u : Bool) (d a b : VReg) (s : State) (hs : s.Canonical)  : Keeps (execImad u d a b s) := by
  exact alu_keeps _ _ _ _ hs

theorem execBfi_keeps (u : Bool) (d a b : VReg) (s : State) (hs : s.Canonical)  : Keeps (execBfi u d a b s) := by
  exact alu_keeps _ _ _ _ hs

theorem execIadd64_keeps (u : Bool) (d a b : VReg) (s : State) (hs : s.Canonical)  : Keeps (execIadd64 u d a b s) := by
  exact alu_keeps _ _ _ _ hs

theorem execIsub64_keeps (u : Bool) (d a b : VReg) (s : State) (hs : s.Canonical)  : Keeps (execIsub64 u d a b s) := by
  exact alu_keeps _ _ _ _ hs

theorem execImulw_keeps (u : Bool) (d a b : VReg) (s : State) (hs : s.Canonical)  : Keeps (execImulw u d a b s) := by
  exact alu_keeps _ _ _ _ hs

theorem immWord_keeps (i : LInstr) (d a : VReg) (imm : BitVec 11) (f : Word → Word → Word) (s : State) (hs : s.Canonical)  : Keeps (immWord i d a imm f s) := by
  exact alu_keeps _ _ _ _ hs

theorem execIaddi_keeps (u : Bool) (d a : VReg) (i : BitVec 11) (s : State) (hs : s.Canonical)  : Keeps (execIaddi u d a i s) := by
  unfold execIaddi
  with_reducible apply immWord_keeps
  assumption

theorem execAndi_keeps (u : Bool) (d a : VReg) (i : BitVec 11) (s : State) (hs : s.Canonical)  : Keeps (execAndi u d a i s) := by
  unfold execAndi
  with_reducible apply immWord_keeps
  assumption

theorem execOri_keeps (u : Bool) (d a : VReg) (i : BitVec 11) (s : State) (hs : s.Canonical)  : Keeps (execOri u d a i s) := by
  unfold execOri
  with_reducible apply immWord_keeps
  assumption

theorem execXori_keeps (u : Bool) (d a : VReg) (i : BitVec 11) (s : State) (hs : s.Canonical)  : Keeps (execXori u d a i s) := by
  unfold execXori
  with_reducible apply immWord_keeps
  assumption

theorem execShli_keeps (u : Bool) (d a : VReg) (n : BitVec 5) (s : State) (hs : s.Canonical)  : Keeps (execShli u d a n s) := by
  exact alu_keeps _ _ _ _ hs

theorem execShri_keeps (u : Bool) (d a : VReg) (n : BitVec 5) (s : State) (hs : s.Canonical)  : Keeps (execShri u d a n s) := by
  exact alu_keeps _ _ _ _ hs

theorem execSari_keeps (u : Bool) (d a : VReg) (n : BitVec 5) (s : State) (hs : s.Canonical)  : Keeps (execSari u d a n s) := by
  exact alu_keeps _ _ _ _ hs

theorem execRotli_keeps (u : Bool) (d a : VReg) (n : BitVec 5) (s : State) (hs : s.Canonical)  : Keeps (execRotli u d a n s) := by
  exact alu_keeps _ _ _ _ hs

theorem execMovi_keeps (u : Bool) (d : VReg) (i : BitVec 18) (s : State) (hs : s.Canonical)  : Keeps (execMovi u d i s) := by
  exact alu_keeps _ _ _ _ hs

theorem execIcmp_keeps (u : Bool) (c : BitVec 4) (p : PReg) (a b : VReg) (n : BitVec 1) (s : State) (hs : s.Canonical)  : Keeps (execIcmp u c p a b n s) := by
  exact alu_keeps _ _ _ _ hs

theorem execSel_keeps (u : Bool) (d a : VReg) (p : PReg) (s : State) (hs : s.Canonical)  : Keeps (execSel u d a p s) := by
  exact alu_keeps _ _ _ _ hs

theorem execPset_keeps (u : Bool) (a : VReg) (p : PReg) (s : State) (hs : s.Canonical)  : Keeps (execPset u a p s) := by
  exact alu_keeps _ _ _ _ hs

theorem execPtest_keeps (u : Bool) (d : VReg) (p : PReg) (s : State) (hs : s.Canonical)  : Keeps (execPtest u d p s) := by
  exact alu_keeps _ _ _ _ hs

theorem execPand_keeps (u : Bool) (p q r : PReg) (s : State) (hs : s.Canonical)  : Keeps (execPand u p q r s) := by
  exact alu_keeps _ _ _ _ hs

theorem execPor_keeps (u : Bool) (p q r : PReg) (s : State) (hs : s.Canonical)  : Keeps (execPor u p q r s) := by
  exact alu_keeps _ _ _ _ hs

theorem execPxor_keeps (u : Bool) (p q r : PReg) (s : State) (hs : s.Canonical)  : Keeps (execPxor u p q r s) := by
  exact alu_keeps _ _ _ _ hs

theorem execPandn_keeps (u : Bool) (p q r : PReg) (s : State) (hs : s.Canonical)  : Keeps (execPandn u p q r s) := by
  exact alu_keeps _ _ _ _ hs

theorem execPnot_keeps (u : Bool) (p q : PReg) (s : State) (hs : s.Canonical)  : Keeps (execPnot u p q s) := by
  exact alu_keeps _ _ _ _ hs

theorem execPmov_keeps (u : Bool) (p q : PReg) (s : State) (hs : s.Canonical)  : Keeps (execPmov u p q s) := by
  exact alu_keeps _ _ _ _ hs

end Sys2Proof.Machine
end

