-- ==== Sys2Proof/Laws/Canon/Float.lean ====
section
/-! SUPPORT. The canonical form is kept by the operations of Machine/Float.lean. -/

set_option linter.unusedTactic false
set_option linter.unreachableTactic false
set_option linter.unusedSimpArgs false
set_option linter.unusedVariables false

namespace Sys2Proof.Machine

@[simp] theorem launchOp_canon (f : Land → Land) (x : Ix) (k : Tok) (rs : List LaneResult) (s : State) (owed : Bool)
    (hs : s.Canonical) : (launchOp f x k rs s owed).1.Canonical := by
  unfold launchOp
  dsimp only
  split
  · exact hs
  · exact startPart_canon _ _ _ (State.setGroup_canon _ _ hs)

@[simp] theorem launch_canon (x : Ix) (k : Tok) (rs : List LaneResult) (s : State) (hs : s.Canonical) : (launch x k rs s).Canonical :=
  raiseUnit_canon _ _ _ _ (launchOp_canon _ _ _ _ _ _ hs)

theorem longAlu_keeps (i : LInstr) (k : Tok) (f : Group → Lane → LaneOut) (s : State) (hs : s.Canonical)  : Keeps (longAlu i k f s) := by
  refine lset_keeps _ _ _ _ _ hs (fun x s h => ?_)
  dsimp only
  repeat' split
  all_goals simp [*]

theorem execFcmp_keeps (u : Bool) (c : BitVec 3) (p : PReg) (a b : VReg) (n : BitVec 1) (s : State) (hs : s.Canonical)  : Keeps (execFcmp u c p a b n s) := by
  exact alu_keeps _ _ _ _ hs

theorem execDcmp_keeps (u : Bool) (c : BitVec 3) (p : PReg) (a b : VReg) (n : BitVec 1) (s : State) (hs : s.Canonical)  : Keeps (execDcmp u c p a b n s) := by
  exact alu_keeps _ _ _ _ hs

theorem execFadd_keeps (u : Bool) (d a b : VReg) (s : State) (hs : s.Canonical)  : Keeps (execFadd u d a b s) := by
  exact alu_keeps _ _ _ _ hs

theorem execFsub_keeps (u : Bool) (d a b : VReg) (s : State) (hs : s.Canonical)  : Keeps (execFsub u d a b s) := by
  exact alu_keeps _ _ _ _ hs

theorem execFmul_keeps (u : Bool) (d a b : VReg) (s : State) (hs : s.Canonical)  : Keeps (execFmul u d a b s) := by
  exact alu_keeps _ _ _ _ hs

theorem execFfma_keeps (u : Bool) (d a b : VReg) (s : State) (hs : s.Canonical)  : Keeps (execFfma u d a b s) := by
  exact alu_keeps _ _ _ _ hs

theorem execFfms_keeps (u : Bool) (d a b : VReg) (s : State) (hs : s.Canonical)  : Keeps (execFfms u d a b s) := by
  exact alu_keeps _ _ _ _ hs

theorem execFmin_keeps (u : Bool) (d a b : VReg) (s : State) (hs : s.Canonical)  : Keeps (execFmin u d a b s) := by
  exact alu_keeps _ _ _ _ hs

theorem execFmax_keeps (u : Bool) (d a b : VReg) (s : State) (hs : s.Canonical)  : Keeps (execFmax u d a b s) := by
  exact alu_keeps _ _ _ _ hs

theorem execFabs_keeps (u : Bool) (d a : VReg) (s : State) (hs : s.Canonical)  : Keeps (execFabs u d a s) := by
  exact alu_keeps _ _ _ _ hs

theorem execFneg_keeps (u : Bool) (d a : VReg) (s : State) (hs : s.Canonical)  : Keeps (execFneg u d a s) := by
  exact alu_keeps _ _ _ _ hs

theorem execDadd_keeps (u : Bool) (d a b : VReg) (s : State) (hs : s.Canonical)  : Keeps (execDadd u d a b s) := by
  exact alu_keeps _ _ _ _ hs

theorem execDsub_keeps (u : Bool) (d a b : VReg) (s : State) (hs : s.Canonical)  : Keeps (execDsub u d a b s) := by
  exact alu_keeps _ _ _ _ hs

theorem execDmul_keeps (u : Bool) (d a b : VReg) (s : State) (hs : s.Canonical)  : Keeps (execDmul u d a b s) := by
  exact alu_keeps _ _ _ _ hs

theorem execDfma_keeps (u : Bool) (d a b : VReg) (s : State) (hs : s.Canonical)  : Keeps (execDfma u d a b s) := by
  exact alu_keeps _ _ _ _ hs

theorem execDfms_keeps (u : Bool) (d a b : VReg) (s : State) (hs : s.Canonical)  : Keeps (execDfms u d a b s) := by
  exact alu_keeps _ _ _ _ hs

theorem execDmin_keeps (u : Bool) (d a b : VReg) (s : State) (hs : s.Canonical)  : Keeps (execDmin u d a b s) := by
  exact alu_keeps _ _ _ _ hs

theorem execDmax_keeps (u : Bool) (d a b : VReg) (s : State) (hs : s.Canonical)  : Keeps (execDmax u d a b s) := by
  exact alu_keeps _ _ _ _ hs

theorem execDabs_keeps (u : Bool) (d a : VReg) (s : State) (hs : s.Canonical)  : Keeps (execDabs u d a s) := by
  exact alu_keeps _ _ _ _ hs

theorem execDneg_keeps (u : Bool) (d a : VReg) (s : State) (hs : s.Canonical)  : Keeps (execDneg u d a s) := by
  exact alu_keeps _ _ _ _ hs

theorem execFcps_keeps (u : Bool) (d a b : VReg) (s : State) (hs : s.Canonical)  : Keeps (execFcps u d a b s) := by
  exact alu_keeps _ _ _ _ hs

theorem execFrnd_keeps (u : Bool) (d a : VReg) (r : BitVec 3) (s : State) (hs : s.Canonical)  : Keeps (execFrnd u d a r s) := by
  exact alu_keeps _ _ _ _ hs

theorem execDrnd_keeps (u : Bool) (d a : VReg) (r : BitVec 3) (s : State) (hs : s.Canonical)  : Keeps (execDrnd u d a r s) := by
  exact alu_keeps _ _ _ _ hs

theorem execFclass_keeps (u : Bool) (d a : VReg) (s : State) (hs : s.Canonical)  : Keeps (execFclass u d a s) := by
  exact alu_keeps _ _ _ _ hs

theorem execDclass_keeps (u : Bool) (d a : VReg) (s : State) (hs : s.Canonical)  : Keeps (execDclass u d a s) := by
  exact alu_keeps _ _ _ _ hs

theorem execHadd2_keeps (u : Bool) (d a b : VReg) (s : State) (hs : s.Canonical)  : Keeps (execHadd2 u d a b s) := by
  exact alu_keeps _ _ _ _ hs

theorem execHmul2_keeps (u : Bool) (d a b : VReg) (s : State) (hs : s.Canonical)  : Keeps (execHmul2 u d a b s) := by
  exact alu_keeps _ _ _ _ hs

theorem execHfma2_keeps (u : Bool) (d a b : VReg) (s : State) (hs : s.Canonical)  : Keeps (execHfma2 u d a b s) := by
  exact alu_keeps _ _ _ _ hs

theorem execHmin2_keeps (u : Bool) (d a b : VReg) (s : State) (hs : s.Canonical)  : Keeps (execHmin2 u d a b s) := by
  exact alu_keeps _ _ _ _ hs

theorem execHmax2_keeps (u : Bool) (d a b : VReg) (s : State) (hs : s.Canonical)  : Keeps (execHmax2 u d a b s) := by
  exact alu_keeps _ _ _ _ hs

theorem execBadd2_keeps (u : Bool) (d a b : VReg) (s : State) (hs : s.Canonical)  : Keeps (execBadd2 u d a b s) := by
  exact alu_keeps _ _ _ _ hs

theorem execBmul2_keeps (u : Bool) (d a b : VReg) (s : State) (hs : s.Canonical)  : Keeps (execBmul2 u d a b s) := by
  exact alu_keeps _ _ _ _ hs

theorem execBfma2_keeps (u : Bool) (d a b : VReg) (s : State) (hs : s.Canonical)  : Keeps (execBfma2 u d a b s) := by
  exact alu_keeps _ _ _ _ hs

theorem execBmin2_keeps (u : Bool) (d a b : VReg) (s : State) (hs : s.Canonical)  : Keeps (execBmin2 u d a b s) := by
  exact alu_keeps _ _ _ _ hs

theorem execBmax2_keeps (u : Bool) (d a b : VReg) (s : State) (hs : s.Canonical)  : Keeps (execBmax2 u d a b s) := by
  exact alu_keeps _ _ _ _ hs

theorem execFrcp_keeps (u : Bool) (d a : VReg) (k : Tok) (s : State) (hs : s.Canonical)  : Keeps (execFrcp u d a k s) := by
  unfold execFrcp
  with_reducible apply longAlu_keeps
  assumption

theorem execFrsq_keeps (u : Bool) (d a : VReg) (k : Tok) (s : State) (hs : s.Canonical)  : Keeps (execFrsq u d a k s) := by
  unfold execFrsq
  with_reducible apply longAlu_keeps
  assumption

theorem execFsqrt_keeps (u : Bool) (d a : VReg) (k : Tok) (s : State) (hs : s.Canonical)  : Keeps (execFsqrt u d a k s) := by
  unfold execFsqrt
  with_reducible apply longAlu_keeps
  assumption

theorem execFexp2_keeps (u : Bool) (d a : VReg) (k : Tok) (s : State) (hs : s.Canonical)  : Keeps (execFexp2 u d a k s) := by
  unfold execFexp2
  with_reducible apply longAlu_keeps
  assumption

theorem execFlog2_keeps (u : Bool) (d a : VReg) (k : Tok) (s : State) (hs : s.Canonical)  : Keeps (execFlog2 u d a k s) := by
  unfold execFlog2
  with_reducible apply longAlu_keeps
  assumption

theorem execFsinp_keeps (u : Bool) (d a : VReg) (k : Tok) (s : State) (hs : s.Canonical)  : Keeps (execFsinp u d a k s) := by
  unfold execFsinp
  with_reducible apply longAlu_keeps
  assumption

theorem execFcosp_keeps (u : Bool) (d a : VReg) (k : Tok) (s : State) (hs : s.Canonical)  : Keeps (execFcosp u d a k s) := by
  unfold execFcosp
  with_reducible apply longAlu_keeps
  assumption

theorem execDrcp_keeps (u : Bool) (d a : VReg) (k : Tok) (s : State) (hs : s.Canonical)  : Keeps (execDrcp u d a k s) := by
  unfold execDrcp
  with_reducible apply longAlu_keeps
  assumption

theorem execDrsq_keeps (u : Bool) (d a : VReg) (k : Tok) (s : State) (hs : s.Canonical)  : Keeps (execDrsq u d a k s) := by
  unfold execDrsq
  with_reducible apply longAlu_keeps
  assumption

theorem execDsqrt_keeps (u : Bool) (d a : VReg) (k : Tok) (s : State) (hs : s.Canonical)  : Keeps (execDsqrt u d a k s) := by
  unfold execDsqrt
  with_reducible apply longAlu_keeps
  assumption

@[simp] theorem cvtBody_canon (i : LInstr) (f : BitVec 4) (d a : VReg) (r : BitVec 3) (p : BitVec 4) (x : Ix) (s : State) (hs : s.Canonical)  : (cvtBody i f d a r p x s).Canonical := by
  unfold cvtBody
  repeat' split
  all_goals simp [*]

theorem joinedLset_keeps (i : LInstr) (j : Joined) (uses : Use) (s : State) (body : Ix → State → State) (hs : s.Canonical)
    (hopen : ∀ b l s, s.Canonical → (j.open_ b l s).Canonical) (hbody : ∀ x s, s.Canonical → (body x s).Canonical) :
    Keeps (joinedLset i j uses s body) := by
  have h1 : ∀ g, (s.setGroup g).Canonical := fun g => by simp [hs]
  have h2 : ∀ g k, ((s.setGroup g).setGroup k).Canonical := fun g k => by simp [h1]
  have h3 : ∀ t : State, t.Canonical → ∀ l, State.Canonical { t with issue := l } := fun t h l => by simp [h]
  have h4 : ∀ t : State, t.Canonical → t.pop.Canonical := fun t h => by simp [h]
  unfold joinedLset
  dsimp only
  repeat' split
  all_goals
    first
    | exact keeps_fault _
    | exact lsetAs_keeps _ _ _ _ _ _ _ hs (fun _ _ h => h)
    | exact lsetAs_keeps _ _ _ _ _ _ _ hs hbody
    | exact lsetAs_keeps _ _ _ _ _ _ _ (hopen _ _ _ (h3 _ (h2 _ _) _)) hbody
    | exact (keeps_next _).2 (settleJoins_canon _ _ _ (h4 _ (h1 _)))

theorem execCvt_keeps (u : Bool) (f : BitVec 4) (d a : VReg) (r : BitVec 3) (p : BitVec 4) (s : State) (hs : s.Canonical) :
    Keeps (execCvt u f d a r p s) := by
  unfold execCvt
  split
  · exact joinedLset_keeps _ _ _ _ _ hs (fun _ _ _ h => h) (fun x s h => cvtBody_canon _ _ _ _ _ _ _ _ h)
  · exact lset_keeps _ _ _ _ _ hs (fun x s h => cvtBody_canon _ _ _ _ _ _ _ _ h)

theorem rngWord_keeps (i : LInstr) (k : Tok) (f : DWord → List (Dest × DWord)) (s : State) (hs : s.Canonical)  : Keeps (rngWord i k f s) := by
  refine lset_keeps _ _ _ _ _ hs (fun x s h => ?_)
  dsimp only
  repeat' split
  all_goals simp [*]

theorem execRngB32_keeps (d : VReg) (k : Tok) (s : State) (hs : s.Canonical)  : Keeps (execRngB32 d k s) := by
  unfold execRngB32
  with_reducible apply rngWord_keeps
  assumption

theorem execRngF32_keeps (d : VReg) (k : Tok) (s : State) (hs : s.Canonical)  : Keeps (execRngF32 d k s) := by
  unfold execRngF32
  with_reducible apply rngWord_keeps
  assumption

@[simp] theorem detLanes_canon (x : Ix) (code : Nat) (s : State) (hs : s.Canonical)  : (detLanes x code s).Canonical := by
  simp [detLanes, *]

theorem execCycle_keeps (d : VReg) (k : Tok) (s : State) (hs : s.Canonical)  : Keeps (execCycle d k s) := by
  refine lset_keeps _ _ _ _ _ hs (fun x s h => ?_)
  dsimp only
  repeat' split
  all_goals simp [*]

theorem execRdspec_keeps (d : VReg) (sel : BitVec 7) (k : Tok) (s : State) (hs : s.Canonical)  : Keeps (execRdspec d sel k s) := by
  refine lset_keeps _ _ _ _ _ hs (fun x s h => ?_)
  dsimp only
  repeat' split
  all_goals simp [*]

end Sys2Proof.Machine
end

