-- ==== Sys2Proof/Laws/Canon/Control.lean ====
section
/-! SUPPORT. The canonical form is kept by the operations of Machine/Control.lean. -/

set_option linter.unusedTactic false
set_option linter.unreachableTactic false
set_option linter.unusedSimpArgs false
set_option linter.unusedVariables false

namespace Sys2Proof.Machine

@[simp] theorem acquireToken_canon (s : State) (core slot : Nat) (k : Option Tok) (hs : s.Canonical)  : (acquireToken s core slot k).Canonical := by
  unfold acquireToken
  split <;> simp [*]

@[simp] theorem predict_canon (s : State) (hs : s.Canonical)  : (predict s).2.Canonical := by
  simp [predict, *]

@[simp] theorem plainBranch_canon (x : Ix) (p : PReg) (neg : Bool) (tgt : Addr) (s : State) (hs : s.Canonical)  : (plainBranch x p neg tgt s).Canonical := by
  unfold plainBranch
  split <;> simp [*]

@[simp] theorem speculate_canon (x : Ix) (p : PReg) (neg : Bool) (k : Tok) (tgt : Addr) (s : State) (hs : s.Canonical) :
    (speculate x p neg k tgt s).Canonical := by
  have h : ∀ (f : Nat → Option Bool → Lane → Lane) (ls : List Nat) (g : Group) (s : State), s.Canonical →
      (ls.foldl (fun (acc : Group × State) i =>
        (acc.1.upd (laneBit i) (fun _ l => f i (predict acc.2).1 l), (predict acc.2).2)) (g, s)).2.Canonical := by
    intro f ls
    induction ls with
    | nil => exact fun _ _ h => h
    | cons i ls ih => exact fun g s h => ih _ _ (predict_canon s h)
  unfold speculate
  split
  · exact hs
  · refine State.setGroup_canon _ _ ?_
    exact h (fun _ c l => { l with spec := some { taken := c }
                                   pc := match c with | some true => tgt | some false => x.nextPc | none => x.b.unit }) _ _ _ hs

theorem holdAt_keeps (s : State) (b : Bundle) (g : Group) (hs : s.Canonical)  : Keeps (holdAt s b g) := by
  simp [holdAt, *]

theorem execBra_keeps (p : PReg) (n : BitVec 1) (k : Tok) (d : BitVec 14) (s : State) (hs : s.Canonical) : Keeps (execBra p n k d s) := by
  have hp : s.pop.Canonical := by simp [hs]
  unfold execBra
  dsimp only
  repeat' split
  all_goals
    first
    | exact keeps_fault _
    | exact (keeps_next _).2 hp
    | exact holdAt_keeps _ _ _ hs
    | (refine lset_keeps _ _ _ _ _ hs (fun x s h => ?_)
       refine plainBranch_canon _ _ _ _ _ (acquireToken_canon _ _ _ _ ?_)
       split <;> simp [h]
       done)
    | (refine lset_keeps _ _ _ _ _ hs (fun x s h => ?_)
       simp [h]
       done)

@[simp] theorem writeMask_canon (x : Ix) (m : MReg) (add : Bool) (s : State) (hs : s.Canonical)  : (writeMask x m add s).Canonical := by
  unfold writeMask
  split <;> simp [*]

theorem execRjm_keeps (m : MReg) (s : State) (hs : s.Canonical)  : Keeps (execRjm m s) := by
  exact lset_keeps _ _ _ _ _ hs (fun x s h => by simp [*])

theorem execRjadd_keeps (m : MReg) (s : State) (hs : s.Canonical)  : Keeps (execRjadd m s) := by
  exact lset_keeps _ _ _ _ _ hs (fun x s h => by simp [*])

theorem execJoin_keeps (m : MReg) (s : State) (hs : s.Canonical)  : Keeps (execJoin m s) := by
  refine lset_keeps _ _ _ _ _ hs (fun x s h => ?_)
  dsimp only
  repeat' split
  all_goals simp [*]

theorem execExit_keeps (s : State) (hs : s.Canonical)  : Keeps (execExit s) := by
  exact lset_keeps _ _ _ _ _ hs (fun x s h => by simp [*])

theorem execExits_keeps (a : SReg) (n : BitVec 8) (s : State) (hs : s.Canonical)  : Keeps (execExits a n s) := by
  refine lset_keeps _ _ _ _ _ hs (fun x s h => ?_)
  repeat' first
    | assumption
    | intro _
    | with_reducible apply State.setGroup_canon
    | with_reducible apply settleJoins_canon
    | with_reducible apply lset_keeps
    | (simp [*]; done)
    | split
    | dsimp only
    | refine foldl_canon ?_ ?_

theorem execRegroup_keeps (p : PReg) (n : BitVec 5) (s : State) (hs : s.Canonical)  : Keeps (execRegroup p n s) := by
  refine lset_keeps _ _ _ _ _ hs (fun x s h => ?_)
  repeat' first
    | assumption
    | intro _
    | with_reducible apply State.setGroup_canon
    | with_reducible apply settleJoins_canon
    | with_reducible apply lset_keeps
    | (simp [*]; done)
    | split
    | dsimp only
    | refine foldl_canon ?_ ?_

theorem execYield_keeps (s : State) (hs : s.Canonical)  : Keeps (execYield s) := by
  refine lset_keeps _ _ _ _ _ hs (fun x s h => ?_)
  dsimp only
  repeat' split
  all_goals simp [*]

theorem execDly_keeps (n : BitVec 5) (s : State) (hs : s.Canonical)  : Keeps (execDly n s) := by
  exact lset_keeps _ _ _ _ _ hs (fun x s h => by simp [*])

theorem execNop_keeps (s : State) (hs : s.Canonical)  : Keeps (execNop s) := by
  exact lset_keeps _ _ _ _ _ hs (fun x s h => by simp [*])

theorem execWaitk_keeps (k : Tok) (t : BitVec 4) (s : State) (hs : s.Canonical) : Keeps (execWaitk k t s) := by
  unfold execWaitk
  dsimp only
  repeat' split
  all_goals
    first
    | exact keeps_fault _
    | exact holdAt_keeps _ _ _ hs
    | exact lset_keeps _ _ _ _ _ hs (fun _ _ h => h)
    | (refine lset_keeps _ _ _ _ _ hs (fun x s h => acquireToken_canon _ _ _ _ ?_)
       split <;> simp [h])

@[simp] theorem softTrap_canon (x : Ix) (vec cause : Nat) (code : Word) (s : State) (hs : s.Canonical)  : (softTrap x vec cause code s).Canonical := by
  simp [softTrap, *]

theorem execBkpt_keeps (s : State) (hs : s.Canonical)  : Keeps (execBkpt s) := by
  exact lset_keeps _ _ _ _ _ hs (fun x s h => by simp [*])

theorem execTrap_keeps (c : BitVec 16) (s : State) (hs : s.Canonical)  : Keeps (execTrap c s) := by
  exact lset_keeps _ _ _ _ _ hs (fun x s h => by simp [*])

@[simp] theorem goPast_canon (s : State) (b : Bundle) (guard : Option (PReg × Bool)) (pfx : Option (BitVec 25)) (hs : s.Canonical)  : (goPast s b guard pfx).Canonical := by
  simp [goPast, *]

theorem execGuard_keeps (p : PReg) (n : BitVec 1) (s : State) (hs : s.Canonical) : Keeps (execGuard p n s) := by
  have hp : s.pop.Canonical := by simp [hs]
  unfold execGuard
  dsimp only
  repeat' split
  all_goals
    first
    | exact keeps_fault _
    | exact (keeps_next _).2 (raiseAll_canon _ _ _ _ _ _ _ _ hp)
    | exact (keeps_next _).2 (raise_canon _ _ _ _ _ hp)
    | exact (keeps_next _).2 (raiseLantern_canon _ _ _ _ _ _ _ (State.setLantern_canon _ _ hp))
    | exact (keeps_next _).2 (goPast_canon _ _ _ _ hs)
    | exact lset_keeps _ _ _ _ _ hs (fun _ _ h => h)

theorem execPfx_keeps (p : BitVec 25) (s : State) (hs : s.Canonical) : Keeps (execPfx p s) := by
  unfold execPfx
  repeat' split
  all_goals
    first
    | exact keeps_fault _
    | exact (keeps_next _).2 (goPast_canon _ _ _ _ hs)
    | exact lsetAs_keeps _ _ _ _ _ _ _ (goPast_canon _ _ _ _ hs) (fun _ _ h => h)
    | exact usetAs_keeps _ _ _ _ _ (goPast_canon _ _ _ _ hs) (fun _ _ h => h)

@[simp] theorem jumpTo_canon (s : State) (x : Ix) (pc : Addr) (hs : s.Canonical)  : (jumpTo s x pc).Canonical := by
  unfold jumpTo
  repeat' split
  all_goals simp [*]

theorem execSbr_keeps (c : BitVec 4) (a : SReg) (d : BitVec 15) (s : State) (hs : s.Canonical)  : Keeps (execSbr c a d s) := by
  refine uset_keeps _ _ _ hs (fun x s h => ?_)
  repeat' first
    | assumption
    | intro _
    | with_reducible apply uset_keeps
    | with_reducible apply jumpTo_canon
    | (simp [*]; done)
    | split
    | dsimp only
    | refine foldl_canon ?_ ?_

theorem execJmp_keeps (d : BitVec 25) (s : State) (hs : s.Canonical)  : Keeps (execJmp d s) := by
  exact uset_keeps _ _ _ hs (fun x s h => by simp [*])

@[simp] theorem enterCall_canon (s : State) (x : Ix) (hs : s.Canonical)  : (enterCall s x).Canonical := by
  unfold enterCall
  dsimp only
  repeat' split
  all_goals simp [*]

theorem execCall_keeps (d : BitVec 25) (s : State) (hs : s.Canonical)  : Keeps (execCall d s) := by
  exact uset_keeps _ _ _ hs (fun x s h => by simp [*])

theorem execRet_keeps (a : SReg) (s : State) (hs : s.Canonical)  : Keeps (execRet a s) := by
  refine uset_keeps _ _ _ hs (fun x s h => ?_)
  dsimp only
  repeat' split
  all_goals simp [*]

end Sys2Proof.Machine
end

