-- ==== Sys2Proof/Laws/Canon/Access.lean ====
section
/-! SUPPORT. The canonical form is kept by the operations of Machine/Access.lean. -/

set_option linter.unusedTactic false
set_option linter.unreachableTactic false
set_option linter.unusedSimpArgs false
set_option linter.unusedVariables false

namespace Sys2Proof.Machine

@[simp] theorem touchFor_canon (s : State) (t : Team) (sp : Space) (off w : Nat) (hs : s.Canonical)  : (touchFor s t sp off w).Canonical := by
  unfold touchFor
  split <;> simp [*]

@[simp] theorem parkOn_canon (x : Ix) (w : Nat) (sign : Bool) (d : VReg) (k : Tok) (i loc : Nat) (off : DWord) (uni : Bool) (s : State) (hs : s.Canonical)  : (parkOn x w sign d k i loc off uni s).Canonical := by
  unfold parkOn
  split <;> simp [*]

@[simp] theorem killBadLanes_canon (x : Ix) (lanes : List Nat) (s : State) (hs : s.Canonical) : (killBadLanes x lanes s).Canonical := by
  unfold killBadLanes
  refine foldl_canon (fun s i h => ?_) hs
  dsimp only
  split
  · exact h
  · split
    · simp [h]
    · exact loseLanes_canon _ _ _ _ (logRecord_canon _ _ _ _ _ _ (State.event_canon _ _ _ _ _ _ _ _ h))

theorem loadWord_keeps (i : LInstr) (sp : Space) (w : Nat) (sign : Bool) (d a : VReg) (k : Tok) (sc : BitVec 3) (acq : Bool) (s : State)
    (hs : s.Canonical) : Keeps (loadWord i sp w sign d a k sc acq s) := by
  refine lset_keeps _ _ _ _ _ hs (fun x s h => ?_)
  split
  · exact h
  · dsimp only
    refine raiseUnit_canon _ _ _ _ (killBadLanes_canon _ _ _ (foldl_canon (fun s j h => ?_) ?_))
    · split <;> simp [h]
    · have h1 : ∀ (rs : List LaneResult) (t : State), t.Canonical → (launchOp id x k rs t).1.Canonical :=
        fun rs t h => launchOp_canon id x k rs t _ h
      have h2 : ∀ (l : List Nat) (F : State → Nat → State), (∀ s j, s.Canonical → (F s j).Canonical) → (l.foldl F s).Canonical :=
        fun l F hF => foldl_canon hF h
      have h3 : ∀ (c : Prop) [Decidable c] (a b : State), a.Canonical → b.Canonical → (if c then a else b).Canonical :=
        fun c _ a b ha hb => by split <;> assumption
      have h4 := fun rs l F hF => h1 rs _ (h2 l F hF)
      refine h3 _ _ _ (State.acquire_canon _ _ _ (h4 _ _ _ ?_)) (h4 _ _ _ ?_)
      all_goals exact fun s j h => touchFor_canon _ _ _ _ _ h

theorem prsWord_keeps (i : LInstr) (d a : VReg) (k : Tok) (sc : BitVec 3) (s : State) (hs : s.Canonical)  : Keeps (prsWord i d a k sc s) := by
  refine lset_keeps _ _ _ _ _ hs (fun x s h => ?_)
  dsimp only
  repeat' split
  all_goals simp [*]

@[simp] theorem loseStanding_canon (s : State) (id : Nat) (hs : s.Canonical)  : (loseStanding s id).Canonical := by
  unfold loseStanding
  split <;> simp [*]

theorem storeWord_keeps (i : LInstr) (sp : Space) (w : Nat) (d a : VReg) (k : Tok) (sc : BitVec 3) (rel : Bool) (s : State) (hs : s.Canonical)  : Keeps (storeWord i sp w d a k sc rel s) := by
  refine lset_keeps _ _ _ _ _ hs (fun x s h => ?_)
  repeat' first
    | assumption
    | intro _
    | with_reducible apply State.store_canon
    | with_reducible apply State.setGroup_canon
    | with_reducible apply raiseUnit_canon
    | with_reducible apply startPart_canon
    | with_reducible apply lset_keeps
    | with_reducible apply touchFor_canon
    | with_reducible apply loseStanding_canon
    | (simp [*]; done)
    | split
    | dsimp only
    | refine foldl_canon ?_ ?_

@[simp] theorem leaveParts_canon (b : Bundle) (t : Team) (w : Word) (s : State) (hs : s.Canonical)  : (leaveParts b t w s).Canonical := by
  unfold leaveParts
  split <;> simp [*]

@[simp] theorem touchAtom_canon (s : State) (t : Team) (sp : Space) (off w : Nat) (hs : s.Canonical) : (touchAtom s t sp off w).Canonical := by
  unfold touchAtom
  split <;> simp [*]

theorem atomWord_keeps (i : LInstr) (sp : Space) (f w : Nat) (d a : VReg) (k : Tok) (sc : BitVec 3) (s : State) (hs : s.Canonical) :
    Keeps (atomWord i sp f w d a k sc s) := by
  have h4 : ∀ (s : State) (F : State × List LaneResult × List Hit → Nat → State × List LaneResult × List Hit) (l : List Nat),
      s.Canonical → (∀ y j, y.1.Canonical → (F y j).1.Canonical) → (List.foldl F (s, [], []) l).1.Canonical :=
    fun s F l h hF => foldl_fst_canon hF h
  unfold atomWord
  dsimp only
  split
  · simp
  · split
    · rename_i b _ _ _ g t _ _
      generalize (List.filterMap _ _ : List Nat) = locs
      have h2 : (if sp = Space.cupola then drainOut (drainQueue s b.core b.slot) b.core (·.meets locs w) else drainQueue s b.core b.slot).Canonical := by
        split <;> simp [hs]
      generalize (if sp = Space.cupola then drainOut (drainQueue s b.core b.slot) b.core (·.meets locs w) else drainQueue s b.core b.slot) = s2 at h2 ⊢
      split
      · simp [h2]
      · refine lset_keeps _ _ _ _ _ h2 (fun x s h => ?_)
        split
        · exact h
        · have h5 : ∀ (F : State × List LaneResult × List Hit → Nat → State × List LaneResult × List Hit) (l : List Nat) (n : Nat),
              (∀ y j, y.1.Canonical → (F y j).1.Canonical) →
              (if (List.foldl F (s, [], []) l).2.1 = [] then (List.foldl F (s, [], []) l).1
               else loseStanding (List.foldl F (s, [], []) l).1 n).Canonical := fun F l n hF => by
            split
            · exact h4 _ _ _ h hF
            · exact loseStanding_canon _ _ (h4 _ _ _ h hF)
          refine raiseUnit_canon _ _ _ _ (launchOp_canon _ _ _ _ _ _ (h5 _ _ _ (fun y j hy => ?_)))
          have ht := touchAtom_canon y.1 x.t sp ((Lane.offset (Group.lane (g.atIssue b) j) a sc b.pfx w).toNat) w hy
          split
          · dsimp only
            split
            · exact State.refreshStale_canon _ _ _ _ (State.store_canon _ _ _ ht)
            · exact State.store_canon _ _ _ ht
          · exact ht
          · exact ht
    · exact lset_keeps _ _ _ _ _ hs (fun _ _ h => h)

@[simp] theorem launchScalar_canon (x : Ix) (k : Tok) (a : SReg) (v : DWord) (s : State) (hs : s.Canonical)  : (launchScalar x k a v s).Canonical := by
  simp [launchScalar, *]

theorem scalarLoad_keeps (i : UInstr) (sp : Space) (w : Nat) (a b : SReg) (k : Tok) (imm : BitVec 5) (s : State) (hs : s.Canonical)  : Keeps (scalarLoad i sp w a b k imm s) := by
  refine uset_keeps _ _ _ hs (fun x s h => ?_)
  dsimp only
  repeat' split
  all_goals simp [*]

theorem scalarStore_keeps (i : UInstr) (sp : Space) (w : Nat) (a b : SReg) (k : Tok) (imm : BitVec 5) (s : State) (hs : s.Canonical)  : Keeps (scalarStore i sp w a b k imm s) := by
  refine uset_keeps _ _ _ hs (fun x s h => ?_)
  repeat' first
    | assumption
    | intro _
    | with_reducible apply State.store_canon
    | with_reducible apply State.setFront_canon
    | with_reducible apply trapUnit_canon
    | with_reducible apply startOp_canon
    | with_reducible apply uset_keeps
    | with_reducible apply touchFor_canon
    | with_reducible apply loseStanding_canon
    | (simp [*]; done)
    | split
    | dsimp only
    | refine foldl_canon ?_ ?_

@[simp] theorem waitForTarget_canon (x : Ix) (w : Want) (i : Nat) (s : State) (hs : s.Canonical)  : (waitForTarget x w i s).Canonical := by
  unfold waitForTarget
  split <;> simp [*]

@[simp] theorem lookUp_canon (x : Ix) (w : Nat) (vas : List DWord) (s : State) (hs : s.Canonical)  : (lookUp x w vas s).Canonical := by
  unfold lookUp
  repeat' first
    | assumption
    | with_reducible apply State.nextPart_canon
    | with_reducible apply State.touch_canon
    | split
    | dsimp only
    | refine foldl_canon (fun _ _ _ => ?_) ?_
  all_goals simp [*]

@[simp] theorem performGath_canon (x : Ix) (k : Tok) (w : Nat) (split : Bool) (d : Nat) (items : List (Nat × DWord)) (s : State) (hs : s.Canonical) :
    (performGath x k w split d items s).Canonical := by
  unfold performGath
  dsimp only
  refine raiseUnit_canon _ _ _ _ ?_
  have h3 : ∀ (f : Land → Land) (rs : List LaneResult) (o : Bool) (t : State), t.Canonical → (launchOp f x k rs t o).1.Canonical :=
    fun f rs o t h => launchOp_canon f x k rs t o h
  split
  · split
    · refine State.setGroup_canon _ _ (h3 _ _ _ _ ?_)
      refine foldl_canon (fun s e h => ?_) (foldl_canon (fun s e h => ?_) (lookUp_canon _ _ _ _ hs))
      all_goals split <;> simp [h]
    · refine h3 _ _ _ _ ?_
      refine foldl_canon (fun s e h => ?_) (foldl_canon (fun s e h => ?_) (lookUp_canon _ _ _ _ hs))
      all_goals split <;> simp [h]
  · refine h3 _ _ _ _ ?_
    refine foldl_canon (fun s e h => ?_) (foldl_canon (fun s e h => ?_) (lookUp_canon _ _ _ _ hs))
    all_goals split <;> simp [h]

@[simp] theorem performScat_canon (x : Ix) (k : Tok) (w : Nat) (items : List (Nat × DWord × List Byte)) (s : State) (hs : s.Canonical)  : (performScat x k w items s).Canonical := by
  unfold performScat
  repeat' first
    | assumption
    | with_reducible apply State.setFront_canon
    | with_reducible apply raiseUnit_canon
    | with_reducible apply startPart_canon
    | with_reducible apply loseStanding_canon
    | with_reducible apply waitForTarget_canon
    | with_reducible apply lookUp_canon
    | split
    | dsimp only
    | refine foldl_canon (fun _ _ _ => ?_) ?_
  all_goals simp [*]

theorem gathWord_keeps (i : LInstr) (w : Nat) (d a : VReg) (k : Tok) (split : Bool) (s : State) (hs : s.Canonical)  : Keeps (gathWord i w d a k split s) := by
  refine lset_keeps _ _ _ _ _ hs (fun x s h => ?_)
  repeat' first
    | assumption
    | intro _
    | with_reducible apply lset_keeps
    | with_reducible apply performGath_canon
    | (simp [*]; done)
    | split
    | dsimp only
    | refine foldl_canon ?_ ?_

theorem scatWord_keeps (i : LInstr) (w : Nat) (d a : VReg) (k : Tok) (s : State) (hs : s.Canonical)  : Keeps (scatWord i w d a k s) := by
  refine lset_keeps _ _ _ _ _ hs (fun x s h => ?_)
  repeat' first
    | assumption
    | intro _
    | with_reducible apply lset_keeps
    | with_reducible apply performScat_canon
    | (simp [*]; done)
    | split
    | dsimp only
    | refine foldl_canon ?_ ?_

@[simp] theorem endWake_canon (x : Ix) (s : State) (hs : s.Canonical)  : (endWake x s).Canonical := by
  unfold endWake
  dsimp only
  split <;> simp [*]

@[simp] theorem wakeLoads_canon (x : Ix) (k : Tok) (s : State) (hs : s.Canonical)  : (wakeLoads x k s).Canonical := by
  unfold wakeLoads
  split
  · exact hs
  · exact raiseUnit_canon _ _ _ _ (launchOp_canon _ _ _ _ _ _ (State.setGroup_canon _ _ hs))

@[simp] theorem wakeScalar_canon (s : State) (core slot : Nat) (t : Team) (w : Waiting) (unit next : Addr) (set : LaneSet) (h : Bool) (hs : s.Canonical)  : (wakeScalar s core slot t w unit next set h).Canonical := by
  unfold wakeScalar
  repeat' first
    | assumption
    | intro _
    | with_reducible apply goOn_canon
    | with_reducible apply trapUnit_canon
    | with_reducible apply launchScalar_canon
    | split
    | dsimp only
    | refine foldl_canon ?_ ?_
    | (simp [*]; done)

@[simp] theorem wakeTargets_canon (x : Ix) (w : Want) (s : State) (hs : s.Canonical)  : (wakeTargets x w s).Canonical := by
  unfold wakeTargets
  split
  · exact hs
  · dsimp only
    split <;> simp [*]

@[simp] theorem wakeLanes_canon (s : State) (b : Bundle) (t : Team) (part : Option Nat) (hs : s.Canonical)  : (wakeLanes s b t part).Canonical := by
  unfold wakeLanes
  dsimp only
  split
  · exact hs
  · split
    · refine endWake_canon _ _ (raiseUnit_canon _ _ _ _ ?_)
      repeat' split
      all_goals simp [*]
    · have h : ∀ (q : Prop) [Decidable q] (bs : List Bundle), (if q then ({ s with issue := bs } : State) else s).Canonical :=
        fun q _ bs => by split <;> simp [*]
      repeat' split
      all_goals first
        | exact hs
        | (refine endWake_canon _ _ ?_
           first | refine wakeLoads_canon _ _ _ ?_ | refine wakeTargets_canon _ _ _ ?_
           first | exact hs | exact h _ _ | simp [*])

@[simp] theorem runWake_canon (b : Bundle) (part : Option Nat) (s : State) (hs : s.Canonical)  : (runWake b part s).Canonical := by
  unfold runWake
  repeat' split
  all_goals simp [*]

theorem execLdlB32_keeps (d a : VReg) (k : Tok) (sc : BitVec 3) (s : State) (hs : s.Canonical)  : Keeps (execLdlB32 d a k sc s) := by
  unfold execLdlB32
  with_reducible apply loadWord_keeps
  assumption

theorem execLdlB64_keeps (d a : VReg) (k : Tok) (sc : BitVec 3) (s : State) (hs : s.Canonical)  : Keeps (execLdlB64 d a k sc s) := by
  unfold execLdlB64
  with_reducible apply loadWord_keeps
  assumption

theorem execStlB32_keeps (d a : VReg) (k : Tok) (sc : BitVec 3) (s : State) (hs : s.Canonical)  : Keeps (execStlB32 d a k sc s) := by
  unfold execStlB32
  with_reducible apply storeWord_keeps
  assumption

theorem execStlB64_keeps (d a : VReg) (k : Tok) (sc : BitVec 3) (s : State) (hs : s.Canonical)  : Keeps (execStlB64 d a k sc s) := by
  unfold execStlB64
  with_reducible apply storeWord_keeps
  assumption

theorem execLdsS8_keeps (u : Bool) (d a : VReg) (k : Tok) (sc : BitVec 3) (s : State) (hs : s.Canonical)  : Keeps (execLdsS8 u d a k sc s) := by
  unfold execLdsS8
  with_reducible apply loadWord_keeps
  assumption

theorem execLdsZ8_keeps (u : Bool) (d a : VReg) (k : Tok) (sc : BitVec 3) (s : State) (hs : s.Canonical)  : Keeps (execLdsZ8 u d a k sc s) := by
  unfold execLdsZ8
  with_reducible apply loadWord_keeps
  assumption

theorem execLdsS16_keeps (u : Bool) (d a : VReg) (k : Tok) (sc : BitVec 3) (s : State) (hs : s.Canonical)  : Keeps (execLdsS16 u d a k sc s) := by
  unfold execLdsS16
  with_reducible apply loadWord_keeps
  assumption

theorem execLdsZ16_keeps (u : Bool) (d a : VReg) (k : Tok) (sc : BitVec 3) (s : State) (hs : s.Canonical)  : Keeps (execLdsZ16 u d a k sc s) := by
  unfold execLdsZ16
  with_reducible apply loadWord_keeps
  assumption

theorem execLdsB32_keeps (u : Bool) (d a : VReg) (k : Tok) (sc : BitVec 3) (s : State) (hs : s.Canonical)  : Keeps (execLdsB32 u d a k sc s) := by
  unfold execLdsB32
  with_reducible apply loadWord_keeps
  assumption

theorem execLdsB64_keeps (u : Bool) (d a : VReg) (k : Tok) (sc : BitVec 3) (s : State) (hs : s.Canonical)  : Keeps (execLdsB64 u d a k sc s) := by
  unfold execLdsB64
  with_reducible apply loadWord_keeps
  assumption

theorem execLdsB128_keeps (u : Bool) (d a : VReg) (k : Tok) (sc : BitVec 3) (s : State) (hs : s.Canonical)  : Keeps (execLdsB128 u d a k sc s) := by
  unfold execLdsB128
  with_reducible apply loadWord_keeps
  assumption

theorem execStsB8_keeps (d a : VReg) (k : Tok) (sc : BitVec 3) (s : State) (hs : s.Canonical)  : Keeps (execStsB8 d a k sc s) := by
  unfold execStsB8
  with_reducible apply storeWord_keeps
  assumption

theorem execStsB16_keeps (d a : VReg) (k : Tok) (sc : BitVec 3) (s : State) (hs : s.Canonical)  : Keeps (execStsB16 d a k sc s) := by
  unfold execStsB16
  with_reducible apply storeWord_keeps
  assumption

theorem execStsB32_keeps (d a : VReg) (k : Tok) (sc : BitVec 3) (s : State) (hs : s.Canonical)  : Keeps (execStsB32 d a k sc s) := by
  unfold execStsB32
  with_reducible apply storeWord_keeps
  assumption

theorem execStsB64_keeps (d a : VReg) (k : Tok) (sc : BitVec 3) (s : State) (hs : s.Canonical)  : Keeps (execStsB64 d a k sc s) := by
  unfold execStsB64
  with_reducible apply storeWord_keeps
  assumption

theorem execStsB128_keeps (d a : VReg) (k : Tok) (sc : BitVec 3) (s : State) (hs : s.Canonical)  : Keeps (execStsB128 d a k sc s) := by
  unfold execStsB128
  with_reducible apply storeWord_keeps
  assumption

theorem execLdcB32_keeps (u : Bool) (d a : VReg) (k : Tok) (sc : BitVec 3) (s : State) (hs : s.Canonical)  : Keeps (execLdcB32 u d a k sc s) := by
  unfold execLdcB32
  with_reducible apply loadWord_keeps
  assumption

theorem execLdcB64_keeps (u : Bool) (d a : VReg) (k : Tok) (sc : BitVec 3) (s : State) (hs : s.Canonical)  : Keeps (execLdcB64 u d a k sc s) := by
  unfold execLdcB64
  with_reducible apply loadWord_keeps
  assumption

theorem execLdcB128_keeps (u : Bool) (d a : VReg) (k : Tok) (sc : BitVec 3) (s : State) (hs : s.Canonical)  : Keeps (execLdcB128 u d a k sc s) := by
  unfold execLdcB128
  with_reducible apply loadWord_keeps
  assumption

theorem execStcB32_keeps (d a : VReg) (k : Tok) (sc : BitVec 3) (s : State) (hs : s.Canonical)  : Keeps (execStcB32 d a k sc s) := by
  unfold execStcB32
  with_reducible apply storeWord_keeps
  assumption

theorem execStcB64_keeps (d a : VReg) (k : Tok) (sc : BitVec 3) (s : State) (hs : s.Canonical)  : Keeps (execStcB64 d a k sc s) := by
  unfold execStcB64
  with_reducible apply storeWord_keeps
  assumption

theorem execStcB128_keeps (d a : VReg) (k : Tok) (sc : BitVec 3) (s : State) (hs : s.Canonical)  : Keeps (execStcB128 d a k sc s) := by
  unfold execStcB128
  with_reducible apply storeWord_keeps
  assumption

theorem execStcRelB32_keeps (d a : VReg) (k : Tok) (sc : BitVec 3) (s : State) (hs : s.Canonical)  : Keeps (execStcRelB32 d a k sc s) := by
  unfold execStcRelB32
  with_reducible apply storeWord_keeps
  assumption

theorem execStcRelB64_keeps (d a : VReg) (k : Tok) (sc : BitVec 3) (s : State) (hs : s.Canonical)  : Keeps (execStcRelB64 d a k sc s) := by
  unfold execStcRelB64
  with_reducible apply storeWord_keeps
  assumption

theorem execLdcAcqB32_keeps (d a : VReg) (k : Tok) (sc : BitVec 3) (s : State) (hs : s.Canonical)  : Keeps (execLdcAcqB32 d a k sc s) := by
  unfold execLdcAcqB32
  with_reducible apply loadWord_keeps
  assumption

theorem execLdcAcqB64_keeps (d a : VReg) (k : Tok) (sc : BitVec 3) (s : State) (hs : s.Canonical)  : Keeps (execLdcAcqB64 d a k sc s) := by
  unfold execLdcAcqB64
  with_reducible apply loadWord_keeps
  assumption

theorem execPrs_keeps (d a : VReg) (k : Tok) (sc : BitVec 3) (s : State) (hs : s.Canonical)  : Keeps (execPrs d a k sc s) := by
  unfold execPrs
  with_reducible apply prsWord_keeps
  assumption

theorem execAtomsAdd_keeps (d a : VReg) (k : Tok) (sc : BitVec 3) (s : State) (hs : s.Canonical)  : Keeps (execAtomsAdd d a k sc s) := by
  unfold execAtomsAdd
  with_reducible apply atomWord_keeps
  assumption

theorem execAtomsMin_keeps (d a : VReg) (k : Tok) (sc : BitVec 3) (s : State) (hs : s.Canonical)  : Keeps (execAtomsMin d a k sc s) := by
  unfold execAtomsMin
  with_reducible apply atomWord_keeps
  assumption

theorem execAtomsMax_keeps (d a : VReg) (k : Tok) (sc : BitVec 3) (s : State) (hs : s.Canonical)  : Keeps (execAtomsMax d a k sc s) := by
  unfold execAtomsMax
  with_reducible apply atomWord_keeps
  assumption

theorem execAtomsMinz_keeps (d a : VReg) (k : Tok) (sc : BitVec 3) (s : State) (hs : s.Canonical)  : Keeps (execAtomsMinz d a k sc s) := by
  unfold execAtomsMinz
  with_reducible apply atomWord_keeps
  assumption

theorem execAtomsMaxz_keeps (d a : VReg) (k : Tok) (sc : BitVec 3) (s : State) (hs : s.Canonical)  : Keeps (execAtomsMaxz d a k sc s) := by
  unfold execAtomsMaxz
  with_reducible apply atomWord_keeps
  assumption

theorem execAtomsAnd_keeps (d a : VReg) (k : Tok) (sc : BitVec 3) (s : State) (hs : s.Canonical)  : Keeps (execAtomsAnd d a k sc s) := by
  unfold execAtomsAnd
  with_reducible apply atomWord_keeps
  assumption

theorem execAtomsOr_keeps (d a : VReg) (k : Tok) (sc : BitVec 3) (s : State) (hs : s.Canonical)  : Keeps (execAtomsOr d a k sc s) := by
  unfold execAtomsOr
  with_reducible apply atomWord_keeps
  assumption

theorem execAtomsXor_keeps (d a : VReg) (k : Tok) (sc : BitVec 3) (s : State) (hs : s.Canonical)  : Keeps (execAtomsXor d a k sc s) := by
  unfold execAtomsXor
  with_reducible apply atomWord_keeps
  assumption

theorem execAtomsXchg_keeps (d a : VReg) (k : Tok) (sc : BitVec 3) (s : State) (hs : s.Canonical)  : Keeps (execAtomsXchg d a k sc s) := by
  unfold execAtomsXchg
  with_reducible apply atomWord_keeps
  assumption

theorem execAtomsCas_keeps (d a : VReg) (k : Tok) (sc : BitVec 3) (s : State) (hs : s.Canonical)  : Keeps (execAtomsCas d a k sc s) := by
  unfold execAtomsCas
  with_reducible apply atomWord_keeps
  assumption

theorem execAtomsFadd_keeps (d a : VReg) (k : Tok) (sc : BitVec 3) (s : State) (hs : s.Canonical)  : Keeps (execAtomsFadd d a k sc s) := by
  unfold execAtomsFadd
  with_reducible apply atomWord_keeps
  assumption

theorem execAtomsAdd64_keeps (d a : VReg) (k : Tok) (sc : BitVec 3) (s : State) (hs : s.Canonical)  : Keeps (execAtomsAdd64 d a k sc s) := by
  unfold execAtomsAdd64
  with_reducible apply atomWord_keeps
  assumption

theorem execAtomcAdd_keeps (d a : VReg) (k : Tok) (sc : BitVec 3) (s : State) (hs : s.Canonical)  : Keeps (execAtomcAdd d a k sc s) := by
  unfold execAtomcAdd
  with_reducible apply atomWord_keeps
  assumption

theorem execAtomcMin_keeps (d a : VReg) (k : Tok) (sc : BitVec 3) (s : State) (hs : s.Canonical)  : Keeps (execAtomcMin d a k sc s) := by
  unfold execAtomcMin
  with_reducible apply atomWord_keeps
  assumption

theorem execAtomcMax_keeps (d a : VReg) (k : Tok) (sc : BitVec 3) (s : State) (hs : s.Canonical)  : Keeps (execAtomcMax d a k sc s) := by
  unfold execAtomcMax
  with_reducible apply atomWord_keeps
  assumption

theorem execAtomcMinz_keeps (d a : VReg) (k : Tok) (sc : BitVec 3) (s : State) (hs : s.Canonical)  : Keeps (execAtomcMinz d a k sc s) := by
  unfold execAtomcMinz
  with_reducible apply atomWord_keeps
  assumption

theorem execAtomcMaxz_keeps (d a : VReg) (k : Tok) (sc : BitVec 3) (s : State) (hs : s.Canonical)  : Keeps (execAtomcMaxz d a k sc s) := by
  unfold execAtomcMaxz
  with_reducible apply atomWord_keeps
  assumption

theorem execAtomcAnd_keeps (d a : VReg) (k : Tok) (sc : BitVec 3) (s : State) (hs : s.Canonical)  : Keeps (execAtomcAnd d a k sc s) := by
  unfold execAtomcAnd
  with_reducible apply atomWord_keeps
  assumption

theorem execAtomcOr_keeps (d a : VReg) (k : Tok) (sc : BitVec 3) (s : State) (hs : s.Canonical)  : Keeps (execAtomcOr d a k sc s) := by
  unfold execAtomcOr
  with_reducible apply atomWord_keeps
  assumption

theorem execAtomcXor_keeps (d a : VReg) (k : Tok) (sc : BitVec 3) (s : State) (hs : s.Canonical)  : Keeps (execAtomcXor d a k sc s) := by
  unfold execAtomcXor
  with_reducible apply atomWord_keeps
  assumption

theorem execAtomcXchg_keeps (d a : VReg) (k : Tok) (sc : BitVec 3) (s : State) (hs : s.Canonical)  : Keeps (execAtomcXchg d a k sc s) := by
  unfold execAtomcXchg
  with_reducible apply atomWord_keeps
  assumption

theorem execAtomcCas_keeps (d a : VReg) (k : Tok) (sc : BitVec 3) (s : State) (hs : s.Canonical)  : Keeps (execAtomcCas d a k sc s) := by
  unfold execAtomcCas
  with_reducible apply atomWord_keeps
  assumption

theorem execAtomcFadd_keeps (d a : VReg) (k : Tok) (sc : BitVec 3) (s : State) (hs : s.Canonical)  : Keeps (execAtomcFadd d a k sc s) := by
  unfold execAtomcFadd
  with_reducible apply atomWord_keeps
  assumption

theorem execAtomcDadd_keeps (d a : VReg) (k : Tok) (sc : BitVec 3) (s : State) (hs : s.Canonical)  : Keeps (execAtomcDadd d a k sc s) := by
  unfold execAtomcDadd
  with_reducible apply atomWord_keeps
  assumption

theorem execAtomcAdd64_keeps (d a : VReg) (k : Tok) (sc : BitVec 3) (s : State) (hs : s.Canonical)  : Keeps (execAtomcAdd64 d a k sc s) := by
  unfold execAtomcAdd64
  with_reducible apply atomWord_keeps
  assumption

theorem execAtomcMaxloc_keeps (d a : VReg) (k : Tok) (sc : BitVec 3) (s : State) (hs : s.Canonical)  : Keeps (execAtomcMaxloc d a k sc s) := by
  unfold execAtomcMaxloc
  with_reducible apply atomWord_keeps
  assumption

theorem execAtomcMinloc_keeps (d a : VReg) (k : Tok) (sc : BitVec 3) (s : State) (hs : s.Canonical)  : Keeps (execAtomcMinloc d a k sc s) := by
  unfold execAtomcMinloc
  with_reducible apply atomWord_keeps
  assumption

theorem execSldB32_keeps (a b : SReg) (k : Tok) (i : BitVec 5) (s : State) (hs : s.Canonical)  : Keeps (execSldB32 a b k i s) := by
  unfold execSldB32
  with_reducible apply scalarLoad_keeps
  assumption

theorem execSldB64_keeps (a b : SReg) (k : Tok) (i : BitVec 5) (s : State) (hs : s.Canonical)  : Keeps (execSldB64 a b k i s) := by
  unfold execSldB64
  with_reducible apply scalarLoad_keeps
  assumption

theorem execSstB32_keeps (a b : SReg) (k : Tok) (i : BitVec 5) (s : State) (hs : s.Canonical)  : Keeps (execSstB32 a b k i s) := by
  unfold execSstB32
  with_reducible apply scalarStore_keeps
  assumption

theorem execSstB64_keeps (a b : SReg) (k : Tok) (i : BitVec 5) (s : State) (hs : s.Canonical)  : Keeps (execSstB64 a b k i s) := by
  unfold execSstB64
  with_reducible apply scalarStore_keeps
  assumption

theorem execSldcB64_keeps (a b : SReg) (k : Tok) (i : BitVec 5) (s : State) (hs : s.Canonical)  : Keeps (execSldcB64 a b k i s) := by
  unfold execSldcB64
  with_reducible apply scalarLoad_keeps
  assumption

theorem execSstcB64_keeps (a b : SReg) (k : Tok) (i : BitVec 5) (s : State) (hs : s.Canonical)  : Keeps (execSstcB64 a b k i s) := by
  unfold execSstcB64
  with_reducible apply scalarStore_keeps
  assumption

theorem execGathB32_keeps (d a : VReg) (k : Tok) (sp : BitVec 1) (s : State) (hs : s.Canonical)  : Keeps (execGathB32 d a k sp s) := by
  unfold execGathB32
  with_reducible apply gathWord_keeps
  assumption

theorem execGathB64_keeps (d a : VReg) (k : Tok) (sp : BitVec 1) (s : State) (hs : s.Canonical)  : Keeps (execGathB64 d a k sp s) := by
  unfold execGathB64
  with_reducible apply gathWord_keeps
  assumption

theorem execScatB32_keeps (d a : VReg) (k : Tok) (s : State) (hs : s.Canonical)  : Keeps (execScatB32 d a k s) := by
  unfold execScatB32
  with_reducible apply scatWord_keeps
  assumption

theorem execScatB64_keeps (d a : VReg) (k : Tok) (s : State) (hs : s.Canonical)  : Keeps (execScatB64 d a k s) := by
  unfold execScatB64
  with_reducible apply scatWord_keeps
  assumption

theorem execFence_keeps (d : BitVec 6) (s : State) (hs : s.Canonical)  : Keeps (execFence d s) := by
  refine uset_keeps _ _ _ hs (fun x s h => ?_)
  dsimp only
  repeat' split
  all_goals simp [*]

end Sys2Proof.Machine
end

