-- ==== Sys2Proof/Laws/Canon/Cross.lean ====
section
/-! SUPPORT. The canonical form is kept by the operations of Machine/Cross.lean. -/

set_option linter.unusedTactic false
set_option linter.unreachableTactic false
set_option linter.unusedSimpArgs false
set_option linter.unusedVariables false

namespace Sys2Proof.Machine

@[simp] theorem runCross_canon (i : LInstr) (d a : VReg) (m : MReg) (b : Bundle) (t : Team) (g : Group) (h : Bool) (set : LaneSet) (f : CrossIn → CrossOut) (s : State) (hs : s.Canonical)  : (runCross i d a m b t g h set f s).Canonical := by
  unfold runCross
  repeat' first
    | assumption
    | with_reducible apply State.setGroup_canon
    | with_reducible apply raise_canon
    | with_reducible apply afterUnit_canon
    | split
    | dsimp only
    | refine foldl_canon (fun _ _ _ => ?_) ?_
  all_goals simp [*]

theorem crossWord_keeps (i : LInstr) (d a : VReg) (m : MReg) (f : CrossIn → CrossOut) (s : State) (hs : s.Canonical) :
    Keeps (crossWord i d a m f s) := by
  have h1 : ∀ g, (s.pop.setGroup g).Canonical := fun g => by simp [hs]
  unfold crossWord
  dsimp only
  repeat' split
  all_goals
    first
    | exact keeps_fault _
    | exact lset_keeps _ _ _ _ _ hs (fun _ _ h => h)
    | exact (keeps_next _).2 (runCross_canon _ _ _ _ _ _ _ _ _ _ _ (h1 _))
    | exact (keeps_next _).2 (settleJoins_canon _ _ _ (h1 _))

theorem execXchPick_keeps (d a : VReg) (m : MReg) (s : State) (hs : s.Canonical)  : Keeps (execXchPick d a m s) := by
  unfold execXchPick
  with_reducible apply crossWord_keeps
  assumption

theorem execXchMove_keeps (d a : VReg) (m : MReg) (e : BitVec 3) (s : State) (hs : s.Canonical)  : Keeps (execXchMove d a m e s) := by
  unfold execXchMove
  with_reducible apply crossWord_keeps
  assumption

theorem execXchFlip_keeps (d a : VReg) (m : MReg) (e : BitVec 3) (s : State) (hs : s.Canonical)  : Keeps (execXchFlip d a m e s) := by
  unfold execXchFlip
  with_reducible apply crossWord_keeps
  assumption

theorem execXchEdge_keeps (d a : VReg) (m : MReg) (e : BitVec 3) (s : State) (hs : s.Canonical)  : Keeps (execXchEdge d a m e s) := by
  unfold execXchEdge
  with_reducible apply crossWord_keeps
  assumption

theorem execQryCnt_keeps (d a : VReg) (m : MReg) (s : State) (hs : s.Canonical)  : Keeps (execQryCnt d a m s) := by
  unfold execQryCnt
  with_reducible apply crossWord_keeps
  assumption

theorem execQryEvery_keeps (d a : VReg) (m : MReg) (s : State) (hs : s.Canonical)  : Keeps (execQryEvery d a m s) := by
  unfold execQryEvery
  with_reducible apply crossWord_keeps
  assumption

theorem execQryBits_keeps (d a : VReg) (m : MReg) (e : BitVec 3) (s : State) (hs : s.Canonical)  : Keeps (execQryBits d a m e s) := by
  unfold execQryBits
  with_reducible apply crossWord_keeps
  assumption

theorem execRedIadd_keeps (d a : VReg) (m : MReg) (s : State) (hs : s.Canonical)  : Keeps (execRedIadd d a m s) := by
  unfold execRedIadd
  with_reducible apply crossWord_keeps
  assumption

theorem execRedImin_keeps (d a : VReg) (m : MReg) (s : State) (hs : s.Canonical)  : Keeps (execRedImin d a m s) := by
  unfold execRedImin
  with_reducible apply crossWord_keeps
  assumption

theorem execRedImax_keeps (d a : VReg) (m : MReg) (s : State) (hs : s.Canonical)  : Keeps (execRedImax d a m s) := by
  unfold execRedImax
  with_reducible apply crossWord_keeps
  assumption

theorem execRedFadd_keeps (d a : VReg) (m : MReg) (s : State) (hs : s.Canonical)  : Keeps (execRedFadd d a m s) := by
  unfold execRedFadd
  with_reducible apply crossWord_keeps
  assumption

theorem execRedFmin_keeps (d a : VReg) (m : MReg) (s : State) (hs : s.Canonical)  : Keeps (execRedFmin d a m s) := by
  unfold execRedFmin
  with_reducible apply crossWord_keeps
  assumption

theorem execRedFmax_keeps (d a : VReg) (m : MReg) (s : State) (hs : s.Canonical)  : Keeps (execRedFmax d a m s) := by
  unfold execRedFmax
  with_reducible apply crossWord_keeps
  assumption

theorem execScanIadd_keeps (d a : VReg) (m : MReg) (e : BitVec 3) (s : State) (hs : s.Canonical)  : Keeps (execScanIadd d a m e s) := by
  unfold execScanIadd
  with_reducible apply crossWord_keeps
  assumption

theorem execScanFadd_keeps (d a : VReg) (m : MReg) (e : BitVec 3) (s : State) (hs : s.Canonical)  : Keeps (execScanFadd d a m e s) := by
  unfold execScanFadd
  with_reducible apply crossWord_keeps
  assumption

theorem execMaxloc_keeps (d a : VReg) (m : MReg) (e : BitVec 3) (s : State) (hs : s.Canonical)  : Keeps (execMaxloc d a m e s) := by
  unfold execMaxloc
  with_reducible apply crossWord_keeps
  assumption

theorem execSegredIadd_keeps (d a : VReg) (m : MReg) (s : State) (hs : s.Canonical)  : Keeps (execSegredIadd d a m s) := by
  unfold execSegredIadd
  with_reducible apply crossWord_keeps
  assumption

theorem execSegredFadd_keeps (d a : VReg) (m : MReg) (s : State) (hs : s.Canonical)  : Keeps (execSegredFadd d a m s) := by
  unfold execSegredFadd
  with_reducible apply crossWord_keeps
  assumption

theorem execSegscanFadd_keeps (d a : VReg) (m : MReg) (s : State) (hs : s.Canonical)  : Keeps (execSegscanFadd d a m s) := by
  unfold execSegscanFadd
  with_reducible apply crossWord_keeps
  assumption

theorem execMatchLanes_keeps (d a : VReg) (m : MReg) (e : BitVec 3) (s : State) (hs : s.Canonical)  : Keeps (execMatchLanes d a m e s) := by
  unfold execMatchLanes
  with_reducible apply crossWord_keeps
  assumption

theorem execCompact_keeps (d a : VReg) (m : MReg) (e : BitVec 3) (s : State) (hs : s.Canonical)  : Keeps (execCompact d a m e s) := by
  unfold execCompact
  with_reducible apply crossWord_keeps
  assumption

theorem execLsort_keeps (d a : VReg) (m : MReg) (e : BitVec 3) (s : State) (hs : s.Canonical)  : Keeps (execLsort d a m e s) := by
  unfold execLsort
  with_reducible apply crossWord_keeps
  assumption

end Sys2Proof.Machine
end

