-- ==== Sys2Proof/Laws/Canon/KeyedStore.lean ====
section
/-! SUPPORT. The canonical form is kept by the operations of Machine/KeyedStore.lean. -/

set_option linter.unusedTactic false
set_option linter.unreachableTactic false
set_option linter.unusedSimpArgs false
set_option linter.unusedVariables false

namespace Sys2Proof.Machine

@[simp] theorem setKeyed_canon (s : State) (t : Team) (core : Nat) (k : Keyed) (hs : s.Canonical)  : (setKeyed s t core k).Canonical := by
  unfold setKeyed
  split <;> simp [*]

@[simp] theorem passTurn_canon (s : State) (t : Team) (core : Nat) (hs : s.Canonical)  : (passTurn s t core).Canonical := by
  unfold passTurn
  split <;> simp [*]

@[simp] theorem endTurn_canon (x : Ix) (left : LaneSet) (s : State) (hs : s.Canonical)  : (endTurn x left s).Canonical := by
  unfold endTurn
  dsimp only
  repeat' split
  all_goals simp [*]

@[simp] theorem beginTurn_canon (b : Bundle) (act : LaneSet) (s : State) (hs : s.Canonical)  : (beginTurn b act s).Canonical := by
  unfold beginTurn
  repeat' split
  all_goals simp [*]

theorem keyedWord_keeps (i : LInstr) (s : State) (body : Ix → State → State) (uses : Use) (hs : s.Canonical)
    (hbody : ∀ x s, s.Canonical → (body x s).Canonical) : Keeps (keyedWord i s body uses) := by
  unfold keyedWord
  dsimp only
  split
  · exact joinedLset_keeps _ _ _ _ _ hs (fun b l s h => beginTurn_canon b l s h) hbody
  · exact lsetAs_keeps _ _ _ _ _ _ _ hs hbody

@[simp] theorem allLanes_canon (x : Ix) (vec cause : Nat) (addr : DWord) (s : State) (hs : s.Canonical)  : (allLanes x vec cause addr s).Canonical := by
  simp [allLanes, *]

@[simp] theorem kaccRun_canon (d a b : VReg) (k : Tok) (x : Ix) (s : State) (g : Group) (p : Keyed) (hs : s.Canonical)  : (kaccRun d a b k x s g p).Canonical := by
  unfold kaccRun
  repeat' first
    | assumption
    | with_reducible apply State.setFront_canon
    | with_reducible apply raiseUnit_canon
    | with_reducible apply leaveLocks_canon
    | with_reducible apply State.startAgent_canon
    | with_reducible apply State.fresh_canon
    | with_reducible apply launchOp_canon
    | with_reducible apply loseStanding_canon
    | with_reducible apply setKeyed_canon
    | with_reducible apply endTurn_canon
    | split
    | dsimp only
    | refine foldl_canon (fun _ _ _ => ?_) ?_
  all_goals simp [*]

@[simp] theorem kaccBody_canon (d a b : VReg) (k : Tok) (x : Ix) (s : State) (hs : s.Canonical) : (kaccBody d a b k x s).Canonical := by
  unfold kaccBody
  split
  · exact hs
  · extract_lets p room s1
    split
    · exact allLanes_canon _ _ _ _ _ hs
    · have h1 : s1.Canonical := by
        dsimp only [s1]
        split <;> simp [hs]
      clear_value s1
      split
      · exact allLanes_canon _ _ _ _ _ (endTurn_canon _ _ _ h1)
      · by_cases hm : (!mayLock s1 x.core (ticketOf s1 x) (if room = 0 then 0 else 1)) = true
        · rw [if_pos hm]
          refine raiseUnit_canon _ _ _ _ ?_
          have h2 := waitForLocks_canon s1 x (!kOrd p.cfg) h1
          repeat' split
          all_goals first | exact State.setGroup_canon _ _ h2 | exact h2
        · rw [if_neg hm]
          exact kaccRun_canon _ _ _ _ _ _ _ _ h1

theorem execKacc_keeps (d a b : VReg) (k : Tok) (s : State) (hs : s.Canonical) : Keeps (execKacc d a b k s) := by
  have h : ∀ n m e, (release s n m e).1.Canonical := fun n m e => release_canon _ _ _ _ hs
  have h3 : ∀ t u, t.Canonical → Keeps (keyedWord (.kacc d a b k) t (kaccBody d a b k) u) := fun t u ht =>
    keyedWord_keeps _ _ _ _ ht (fun x s h => kaccBody_canon _ _ _ _ _ _ h)
  unfold execKacc
  dsimp only
  split
  · exact keeps_fault _
  · split
    · split
      · exact h3 _ _ (h _ _ _)
      · exact (keeps_next _).2 (State.pop_canon _ (h _ _ _))
    · exact h3 _ _ hs

theorem execKfind_keeps (d a : VReg) (sel : BitVec 7) (k : Tok) (s : State) (hs : s.Canonical) : Keeps (execKfind d a sel k s) := by
  refine keyedWord_keeps _ _ _ _ hs (fun x s h => ?_)
  split
  · exact h
  · dsimp only
    split
    · exact allLanes_canon _ _ _ _ _ h
    · exact launch_canon _ _ _ _ (endTurn_canon _ _ _ h)

@[simp] theorem opAtOnce_canon (x : Ix) (k : Tok) (s : State) (hs : s.Canonical)  : (opAtOnce x k s).Canonical := by
  simp [opAtOnce, *]

theorem execKcfg_keeps (a b : SReg) (k : Tok) (s : State) (hs : s.Canonical)  : Keeps (execKcfg a b k s) := by
  refine uset_keeps _ _ _ hs (fun x s h => ?_)
  dsimp only
  repeat' split
  all_goals simp [*]

theorem execKcfgStream_keeps (b : SReg) (k : Tok) (s : State) (hs : s.Canonical)  : Keeps (execKcfgStream b k s) := by
  refine uset_keeps _ _ _ hs (fun x s h => ?_)
  dsimp only
  repeat' split
  all_goals simp [*]

theorem execKdrain_keeps (a b : SReg) (k : Tok) (i : BitVec 5) (s : State) (hs : s.Canonical) : Keeps (execKdrain a b k i s) := by
  refine uset_keeps _ _ _ hs (fun x s h => ?_)
  extract_lets off cap n p win range outside va s1
  split
  · exact trapUnit_canon _ _ _ _ _ h
  · split
    · exact trapUnit_canon _ _ _ _ _ h
    · have h1 : s1.Canonical := by
        dsimp only [s1]
        split <;> simp [h]
      clear_value s1
      split
      · exact trapUnit_canon _ _ _ _ _ h1
      · by_cases hm : (!mayLock s1 x.core (ticketOf s1 x) (if n = 0 then 0 else 1)) = true
        · rw [if_pos hm]
          exact waitForLocks_canon _ _ _ h1
        · rw [if_neg hm]
          split
          rename_i s2 ok hr
          have h2 : s2.Canonical := by
            have := release_canon s1 x.core x.slot (if win then 4 else 1) h1
            rwa [hr] at this
          split
          · exact standAgain_canon _ _ h2
          · have h3 := fun e => leaveLocks_canon _ x (setKeyed_canon s2 x.t x.core e h2)
            dsimp only
            repeat' split
            all_goals
              repeat' first
                | with_reducible exact h3 _
                | with_reducible apply opAtOnce_canon
                | with_reducible apply loseStanding_canon
                | with_reducible apply State.startAgent_canon
                | with_reducible apply State.fresh_canon
                | with_reducible apply startOp_canon

theorem execKclr_keeps (k : Tok) (s : State) (hs : s.Canonical)  : Keeps (execKclr k s) := by
  refine uset_keeps _ _ _ hs (fun x s h => ?_)
  dsimp only
  repeat' split
  all_goals simp [*]

theorem execKstat_keeps (a : SReg) (k : Tok) (i : BitVec 5) (s : State) (hs : s.Canonical)  : Keeps (execKstat a k i s) := by
  exact uset_keeps _ _ _ hs (fun x s h => by simp [*])

end Sys2Proof.Machine
end

