-- ==== Sys2Proof/Laws/Canon/Counters.lean ====
section
/-! SUPPORT. The canonical form is kept by the operations of Machine/Counters.lean. -/

set_option linter.unusedTactic false
set_option linter.unreachableTactic false
set_option linter.unusedSimpArgs false
set_option linter.unusedVariables false

namespace Sys2Proof.Machine

@[simp] theorem State.meetGang_canon (s : State) (t : Task) (hs : s.Canonical)  : (State.meetGang s t).Canonical := by
  unfold State.meetGang
  repeat' split
  all_goals simp [*]

@[simp] theorem State.enters_canon (s : State) (t : Task) (hs : s.Canonical)  : (State.enters s t).Canonical := by
  unfold State.enters
  split
  · exact (State.canonical_mk ..).2 ⟨hs.mem, hs.poison, hs.absent⟩
  · exact hs

@[simp] theorem State.readied_canon (s : State) (t : Task) (hs : s.Canonical)  : (State.readied s t).Canonical := by
  simp [State.readied, *]

@[simp] theorem becomeReady_canon (s : State) (t : Task) (hs : s.Canonical)  : (becomeReady s t).Canonical := by
  unfold becomeReady
  repeat' split
  all_goals simp [*]

@[simp] theorem State.laterReady_canon (s : State) (hs : s.Canonical)  : (State.laterReady s).Canonical := by
  simp [State.laterReady, *]

@[simp] theorem arriveOnce_canon (s : State) (slot count : Nat) (hs : s.Canonical)  : (arriveOnce s slot count).Canonical := by
  unfold arriveOnce
  dsimp only
  repeat' split
  all_goals simp [*]

@[simp] theorem taskFault_canon (s : State) (slot : Nat) (hs : s.Canonical)  : (taskFault s slot).Canonical := by
  unfold taskFault
  split <;> simp [*]

@[simp] theorem closeTask_canon (s : State) (slot : Nat) (hs : s.Canonical)  : (closeTask s slot).Canonical := by
  unfold closeTask
  repeat' split
  all_goals simp [*]

@[simp] theorem touchChain_canon (s : State) (t : Task) (hs : s.Canonical)  : (touchChain s t).Canonical := by
  unfold touchChain
  dsimp only
  repeat' split
  all_goals simp [*]

@[simp] theorem arriveSuccessor_canon (s : State) (ctx slot : Nat) (hs : s.Canonical)  : (arriveSuccessor s ctx slot).Canonical := by
  unfold arriveSuccessor
  repeat' split
  all_goals simp [*]

theorem dropTask_canon {s : State} (l : List Task) (hs : s.Canonical) : ({ s with tasks := l } : State).Canonical :=
  ⟨hs.mem, hs.poison, hs.absent⟩

theorem chainRead_canon (s : State) (t : Task) (slot : Nat) (b : Bool) (hs : s.Canonical) :
    (if b = true then touchChain s t else taskFault (touchChain s t) slot).Canonical := by
  split <;> simp [hs]

@[simp] theorem settleTasks_canon (n : Nat) (s : State) (hs : s.Canonical) : (settleTasks n s).Canonical := by
  induction n generalizing s with
  | zero => exact hs
  | succ k ih =>
    unfold settleTasks
    split
    · exact hs
    · exact ih _ (State.laterReady_canon _ (foldl_canon (fun s a h => arriveSuccessor_canon s _ a h)
        (dropTask_canon _ (chainRead_canon _ _ _ _ hs))))

@[simp] theorem State.settled_canon (s : State) (hs : s.Canonical) : (State.settled s).Canonical := settleTasks_canon _ _ hs

@[simp] theorem completeTask_canon (s : State) (slot : Nat) (hs : s.Canonical)  : (completeTask s slot).Canonical := by
  unfold completeTask
  split
  · exact hs
  · exact State.settled_canon _ (State.laterReady_canon _ (foldl_canon (fun s a h => arriveSuccessor_canon s _ a h)
        (dropTask_canon _ (chainRead_canon _ _ _ _ hs))))

@[simp] theorem arriveTask_canon (s : State) (slot count : Nat) (hs : s.Canonical)  : (arriveTask s slot count).Canonical := by
  unfold arriveTask
  repeat' first
    | assumption
    | with_reducible apply State.laterReady_canon
    | with_reducible apply arriveOnce_canon
    | with_reducible apply State.settled_canon
    | with_reducible apply State.settled_canon
    | split
    | dsimp only
    | refine foldl_canon (fun _ _ _ => ?_) ?_
  all_goals simp [*]

end Sys2Proof.Machine
end

