-- ==== Sys2Proof/Laws/Canon/TileUnit.lean ====
section
/-! SUPPORT. The canonical form is kept by the operations of Machine/TileUnit.lean. -/

set_option linter.unusedTactic false
set_option linter.unreachableTactic false
set_option linter.unusedSimpArgs false
set_option linter.unusedVariables false

namespace Sys2Proof.Machine

@[simp] theorem tileFlags_canon (s : State) (core slot : Nat) (fl : Flags) (hs : s.Canonical)  : (tileFlags s core slot fl).Canonical := by
  unfold tileFlags
  repeat' split
  all_goals simp [*]

@[simp] theorem reportPoison_canon (s : State) (ctx core slot lane : Nat) (addr : DWord) (hs : s.Canonical)  : (reportPoison s ctx core slot lane addr).Canonical := by
  unfold reportPoison
  repeat' split
  all_goals simp [*]

@[simp] theorem primeStore_canon (s : State) (t : Team) (core : Nat) (d : Side) (c : TileCmd) (hs : s.Canonical)  : (primeStore s t core d c).Canonical := by
  unfold primeStore
  split <;> simp [*]

theorem primeFrom_canon (t : Team) (core : Nat) (cs : List TileCmd) (v : TileView) (s : State) (hs : s.Canonical) :
    (primeFrom t core cs v s).1.Canonical := by
  induction cs generalizing v s with
  | nil => exact hs
  | cons c cs ih =>
    unfold primeFrom
    refine ih _ _ ?_
    split <;> simp [hs]

@[simp] theorem primeStores_canon (s : State) (teamId core : Nat) (hs : s.Canonical) : (primeStores s teamId core).Canonical := by
  unfold primeStores
  split
  · exact hs
  · dsimp only
    split
    · exact hs
    · exact State.setTeam_canon _ _ (primeFrom_canon _ _ _ _ _ hs)

@[simp] theorem completeHead_canon (s : State) (teamId core : Nat) (hs : s.Canonical)  : (completeHead s teamId core).Canonical := by
  unfold completeHead
  repeat' first
    | assumption
    | with_reducible apply State.setTeam_canon
    | with_reducible apply State.opDone_canon
    | with_reducible apply release_canon
    | with_reducible apply State.dropAgent_canon
    | with_reducible apply arriveTask_canon
    | with_reducible apply tileFlags_canon
    | with_reducible apply reportPoison_canon
    | with_reducible apply loseStanding_canon
    | with_reducible apply tileFlags_canon
    | with_reducible apply reportPoison_canon
    | with_reducible apply primeStores_canon
    | with_reducible apply primeStores_canon
    | split
    | dsimp only
    | refine foldl_canon (fun _ _ _ => ?_) ?_
  all_goals simp [*]

end Sys2Proof.Machine
end

