-- ==== Sys2Proof/Laws/Canon/Tiles.lean ====
section
/-! SUPPORT. The canonical form is kept by the operations of Machine/Tiles.lean. -/

set_option linter.unusedTactic false
set_option linter.unreachableTactic false
set_option linter.unusedSimpArgs false
set_option linter.unusedVariables false

namespace Sys2Proof.Machine

@[simp] theorem enqueue_canon (x : Ix) (k : Tok) (c : TileCmd) (u : TileUse) (s : State) (hs : s.Canonical)  : (enqueue x k c u s).Canonical := by
  unfold enqueue
  repeat' first
    | assumption
    | with_reducible apply primeStores_canon
    | with_reducible apply State.setTeam_canon
    | with_reducible apply drainQueue_canon
    | with_reducible apply waitForLocks_canon
    | with_reducible apply leaveLocks_canon
    | with_reducible apply startOp_canon
    | with_reducible apply State.startAgent_canon
    | with_reducible apply State.fresh_canon
    | split
    | dsimp only
    | refine foldl_canon (fun _ _ _ => ?_) ?_
  all_goals simp [*]

@[simp] theorem checked_canon (s : State) (x : Ix) (causes : List Nat) (go : State → State) (hs : s.Canonical) (hgo : ∀ s, s.Canonical → (go s).Canonical) : (checked s x causes go).Canonical := by
  unfold checked
  split <;> simp [*]

@[simp] theorem moveRows_canon (x : Ix) (k : Tok) (c : TileCmd) (e n : Nat) (offs : List Nat) (load : Bool) (place : Nat → Nat) (s : State) (hs : s.Canonical)  : (moveRows x k c e n offs load place s).Canonical := by
  unfold moveRows
  split <;> simp [*]

theorem tileMove_keeps (i : UInstr) (kind : Nat) (a b : SReg) (k : Tok) (n : BitVec 5) (s : State) (hs : s.Canonical)  : Keeps (tileMove i kind a b k n s) := by
  refine uset_keeps _ _ _ hs (fun x s h => ?_)
  repeat' first
    | assumption
    | intro _
    | with_reducible apply uset_keeps
    | with_reducible apply checked_canon
    | with_reducible apply moveRows_canon
    | (simp [*]; done)
    | split
    | dsimp only
    | refine foldl_canon ?_ ?_

theorem execTld_keeps (a b : SReg) (k : Tok) (n : BitVec 5) (s : State) (hs : s.Canonical)  : Keeps (execTld a b k n s) := by
  unfold execTld
  with_reducible apply tileMove_keeps
  assumption

theorem execTst_keeps (a b : SReg) (k : Tok) (n : BitVec 5) (s : State) (hs : s.Canonical)  : Keeps (execTst a b k n s) := by
  unfold execTst
  with_reducible apply tileMove_keeps
  assumption

theorem execTqld_keeps (a : SReg) (k : Tok) (n : BitVec 5) (s : State) (hs : s.Canonical)  : Keeps (execTqld a k n s) := by
  unfold execTqld
  with_reducible apply tileMove_keeps
  assumption

theorem tileZero_keeps (i : UInstr) (kind : Nat) (k : Tok) (n : BitVec 5) (s : State) (hs : s.Canonical)  : Keeps (tileZero i kind k n s) := by
  exact uset_keeps _ _ _ hs (fun x s h => by simp [*])

theorem execTzero_keeps (k : Tok) (n : BitVec 5) (s : State) (hs : s.Canonical)  : Keeps (execTzero k n s) := by
  unfold execTzero
  with_reducible apply tileZero_keeps
  assumption

theorem execAccz_keeps (k : Tok) (n : BitVec 5) (s : State) (hs : s.Canonical)  : Keeps (execAccz k n s) := by
  unfold execAccz
  with_reducible apply tileZero_keeps
  assumption

theorem accMove_keeps (i : UInstr) (kind : Nat) (a b : SReg) (k : Tok) (n : BitVec 5) (s : State) (hs : s.Canonical)  : Keeps (accMove i kind a b k n s) := by
  refine uset_keeps _ _ _ hs (fun x s h => ?_)
  repeat' first
    | assumption
    | intro _
    | with_reducible apply uset_keeps
    | with_reducible apply checked_canon
    | with_reducible apply moveRows_canon
    | (simp [*]; done)
    | split
    | dsimp only
    | refine foldl_canon ?_ ?_

theorem execAccld_keeps (a b : SReg) (k : Tok) (n : BitVec 5) (s : State) (hs : s.Canonical)  : Keeps (execAccld a b k n s) := by
  unfold execAccld
  with_reducible apply accMove_keeps
  assumption

theorem execAccst_keeps (a b : SReg) (k : Tok) (n : BitVec 5) (s : State) (hs : s.Canonical)  : Keeps (execAccst a b k n s) := by
  unfold execAccst
  with_reducible apply accMove_keeps
  assumption

theorem execMovsh_keeps (a : SReg) (k : Tok) (n : BitVec 5) (s : State) (hs : s.Canonical)  : Keeps (execMovsh a k n s) := by
  refine uset_keeps _ _ _ hs (fun x s h => ?_)
  repeat' first
    | assumption
    | intro _
    | with_reducible apply uset_keeps
    | with_reducible apply enqueue_canon
    | with_reducible apply checked_canon
    | (simp [*]; done)
    | split
    | dsimp only
    | refine foldl_canon ?_ ?_

theorem execTcvt_keeps (a : SReg) (k : Tok) (n : BitVec 5) (s : State) (hs : s.Canonical)  : Keeps (execTcvt a k n s) := by
  refine uset_keeps _ _ _ hs (fun x s h => ?_)
  repeat' first
    | assumption
    | intro _
    | with_reducible apply State.setGroup_canon
    | with_reducible apply uset_keeps
    | with_reducible apply enqueue_canon
    | with_reducible apply checked_canon
    | (simp [*]; done)
    | split
    | dsimp only
    | refine foldl_canon ?_ ?_

theorem execTspk_keeps (a : SReg) (k : Tok) (n : BitVec 5) (s : State) (hs : s.Canonical)  : Keeps (execTspk a k n s) := by
  refine uset_keeps _ _ _ hs (fun x s h => ?_)
  repeat' first
    | assumption
    | intro _
    | with_reducible apply uset_keeps
    | with_reducible apply enqueue_canon
    | with_reducible apply checked_canon
    | (simp [*]; done)
    | split
    | dsimp only
    | refine foldl_canon ?_ ?_

@[simp] theorem parkMxgo_canon (x : Ix) (loc : Nat) (s : State) (hs : s.Canonical)  : (parkMxgo x loc s).Canonical := by
  unfold parkMxgo
  split <;> simp [*]

theorem execMxgo_keeps (a : VReg) (r : SReg) (k : Tok) (s : State) (hs : s.Canonical)  : Keeps (execMxgo a r k s) := by
  refine lset_keeps _ _ _ _ _ hs (fun x s h => ?_)
  dsimp only
  repeat' split
  all_goals first
    | (simp [*]; done)
    | exact raiseUnit_canon _ _ _ _ (enqueue_canon _ _ _ _ _ (State.setGroup_canon _ _ h))
    | exact raiseUnit_canon _ _ _ _ (enqueue_canon _ _ _ _ _ h)

end Sys2Proof.Machine
end

