-- ==== Sys2Proof/Laws/Canon/Engines.lean ====
section
/-! SUPPORT. The canonical form is kept by the operations of Machine/Engines.lean. -/

set_option linter.unusedTactic false
set_option linter.unreachableTactic false
set_option linter.unusedSimpArgs false
set_option linter.unusedVariables false

namespace Sys2Proof.Machine

@[simp] theorem releaseAll_canon (scope : Nat) (l : List (Nat × Nat)) (s : State) (hs : s.Canonical) :
    (releaseAll scope l s).1.Canonical := by
  induction l generalizing s with
  | nil => exact hs
  | cons x l ih => exact ih _ (release_canon _ _ _ _ hs)

@[simp] theorem startInstance_canon (s : State) (t : Team) (number : Nat) (slices0 : List Slice) (hs : s.Canonical) :
    (startInstance s t number slices0).Canonical := by
  unfold startInstance
  extract_lets slices scope id s1 lead agent locks entries s2 s3
  have h1 : s1.Canonical := foldl_canon (fun s x h => by split <;> simp [h]) (State.fresh_canon _ hs)
  have h2 : s2.Canonical := State.startAgent_canon _ _ _ h1
  have h3 : s3.Canonical := (State.canonical_mk ..).2 ⟨h2.mem, h2.poison, h2.absent⟩
  split
  · exact loseStanding_canon _ _ h3
  · exact h3

@[simp] theorem touchAgain_canon (ctx : Nat) (slices : List Slice) (s : State) (hs : s.Canonical)  : (touchAgain ctx slices s).Canonical := by
  unfold touchAgain
  refine foldl_canon (fun s x h => ?_) hs
  dsimp only
  repeat' split
  all_goals simp [*]

@[simp] theorem supply_canon (x : Ix) (k : Tok) (sl : Slice) (s : State) (hs : s.Canonical)  : (supply x k sl s).Canonical := by
  unfold supply
  extract_lets number given counted last s1 full others all
  have h1 : s1.Canonical := by
    unfold s1
    split
    · exact touchAgain_canon _ _ _ hs
    · exact hs
  clear_value s1 all full counted
  repeat' first
    | assumption
    | with_reducible apply State.setGroup_canon
    | with_reducible apply State.setLantern_canon
    | with_reducible apply State.setTeam_canon
    | with_reducible apply standAgain_canon
    | with_reducible apply waitForLocks_canon
    | with_reducible apply leaveLocks_canon
    | with_reducible apply startOp_canon
    | with_reducible apply startInstance_canon
    | with_reducible apply releaseAll_canon
    | refine canon_of_fst (by assumption) ?_
    | split
    | dsimp only

@[simp] theorem startWaiting_canon (s : State) (teamId : Nat) (hs : s.Canonical)  : (startWaiting s teamId).Canonical := by
  unfold startWaiting
  split
  · exact hs
  · split
    · exact hs
    · extract_lets s1 slices
      have h1 : s1.Canonical := touchAgain_canon _ _ _ hs
      clear_value s1 slices
      split
      · exact h1
      · split
        · dsimp only
          split
          · split
            · exact startInstance_canon _ _ _ _ (State.setTeam_canon _ _ (releaseAll_canon _ _ _ h1))
            · exact releaseAll_canon _ _ _ h1
          · exact releaseAll_canon _ _ _ h1
        · split
          · exact h1
          · exact State.fresh_canon _ (State.setTeam_canon _ _ h1)

@[simp] theorem completeInstance_canon (s : State) (id : Nat) (hs : s.Canonical) : (completeInstance s id).Canonical := by
  unfold completeInstance
  split
  · exact hs
  · split
    · rename_i a _ _ ops arrives _
      have h0 : (if arrives = [] then (s, true) else releaseAll 4 (ops.map (fun o => (o.1, o.2.1))) s).1.Canonical := by
        split
        · exact hs
        · exact releaseAll_canon _ _ _ hs
      have h3 : ∀ t : State, t.Canonical → ∀ l, State.Canonical { t with journal := l } := fun t h l => ⟨h.mem, h.poison, h.absent⟩
      have h4 : ∀ t : State, t.Canonical → (arrives.foldl (fun s r => arriveTask s r.1 r.2.toNat)
          { ((ops.foldl (fun s o => s.opDone o.1 o.2.1 o.2.2) t).dropAgent a) with
            journal := ((ops.foldl (fun s o => s.opDone o.1 o.2.1 o.2.2) t).dropAgent a).journal.filter (fun j => j.agent ≠ id) }).Canonical :=
        fun t h => foldl_canon (fun s o h => arriveTask_canon _ _ _ h)
          (h3 _ (State.dropAgent_canon _ _ (foldl_canon (fun s o h => State.opDone_canon _ _ _ _ h) h)) _)
      generalize (if arrives = [] then (s, true) else releaseAll 4 (ops.map (fun o => (o.1, o.2.1))) s) = r at h0 ⊢
      obtain ⟨s0, ok⟩ := r
      dsimp only
      split
      · split
        · split
          · exact h4 _ h0
          · exact loseStanding_canon _ _ (h4 _ h0)
        · exact h4 _ h0
      · split
        · exact h0
        · exact hs
    · exact hs

theorem cpyWord_keeps (i : UInstr) (fn : Nat) (a b : SReg) (k : Tok) (s : State) (hs : s.Canonical)  : Keeps (cpyWord i fn a b k s) := by
  refine uset_keeps _ _ _ hs (fun x s h => ?_)
  repeat' first
    | assumption
    | intro _
    | with_reducible apply waitAtUnit_canon
    | with_reducible apply trapUnit_canon
    | with_reducible apply State.touchRange_canon
    | with_reducible apply uset_keeps
    | with_reducible apply supply_canon
    | (simp [*]; done)
    | split
    | dsimp only
    | refine foldl_canon ?_ ?_

theorem execCpyIn_keeps (a b : SReg) (k : Tok) (s : State) (hs : s.Canonical)  : Keeps (execCpyIn a b k s) := by
  unfold execCpyIn
  with_reducible apply cpyWord_keeps
  assumption

theorem execCpyOut_keeps (a b : SReg) (k : Tok) (s : State) (hs : s.Canonical)  : Keeps (execCpyOut a b k s) := by
  unfold execCpyOut
  with_reducible apply cpyWord_keeps
  assumption

theorem execCpyCc_keeps (a b : SReg) (k : Tok) (s : State) (hs : s.Canonical)  : Keeps (execCpyCc a b k s) := by
  unfold execCpyCc
  with_reducible apply cpyWord_keeps
  assumption

theorem execCupop_keeps (a b : SReg) (k : Tok) (i : BitVec 5) (s : State) (hs : s.Canonical)  : Keeps (execCupop a b k i s) := by
  refine uset_keeps _ _ _ hs (fun x s h => ?_)
  repeat' first
    | assumption
    | intro _
    | with_reducible apply release_canon
    | with_reducible apply standAgain_canon
    | with_reducible apply waitForLocks_canon
    | with_reducible apply leaveLocks_canon
    | with_reducible apply trapUnit_canon
    | with_reducible apply startOp_canon
    | with_reducible apply State.touchRange_canon
    | with_reducible apply State.startAgent_canon
    | with_reducible apply State.fresh_canon
    | with_reducible apply uset_keeps
    | with_reducible apply loseStanding_canon
    | with_reducible apply opAtOnce_canon
    | (simp [*]; done)
    | split
    | dsimp only
    | refine foldl_canon ?_ ?_

end Sys2Proof.Machine
end

