-- ==== Sys2Proof/Laws/Canon/Placement.lean ====
section
/-! SUPPORT. The canonical form is kept by the operations of Machine/Placement.lean. -/

set_option linter.unusedTactic false
set_option linter.unreachableTactic false
set_option linter.unusedSimpArgs false
set_option linter.unusedVariables false

namespace Sys2Proof.Machine

@[simp] theorem State.emptied_canon (s : State) (hs : s.Canonical)  : (State.emptied s).Canonical := by
  simp [State.emptied, *]

@[simp] theorem touchTables_canon (s : State) (ctx : Nat) (r : List Byte) (hs : s.Canonical)  : (touchTables s ctx r).Canonical := by
  unfold touchTables
  repeat' split
  all_goals simp [*]

@[simp] theorem postRecord_canon (s0 : State) (ctx : Nat) (r : List Byte) (hs0 : s0.Canonical)  : (postRecord s0 ctx r).2.Canonical := by
  unfold postRecord
  repeat' first
    | assumption
    | with_reducible apply State.readied_canon
    | with_reducible apply State.settled_canon
    | with_reducible apply touchTables_canon
    | split
    | dsimp only
    | refine foldl_canon (fun _ _ _ => ?_) ?_
  all_goals simp [*]

end Sys2Proof.Machine
end

