-- ==== Sys2Proof/Laws/Canon/TaskOps.lean ====
section
/-! SUPPORT. The canonical form is kept by the operations of Machine/TaskOps.lean. -/

set_option linter.unusedTactic false
set_option linter.unreachableTactic false
set_option linter.unusedSimpArgs false
set_option linter.unusedVariables false

namespace Sys2Proof.Machine

@[simp] theorem touchWindow_canon (s : State) (x : Ix) (win : Bool) (off n : Nat) (hs : s.Canonical)  : (touchWindow s x win off n).Canonical := by
  unfold touchWindow
  split <;> simp [*]

@[simp] theorem afterRelease_canon (x : Ix) (s : State) (go : State → State) (hs : s.Canonical) (hgo : ∀ s, s.Canonical → (go s).Canonical) : (afterRelease x s go).Canonical := by
  unfold afterRelease
  dsimp only
  repeat' split
  all_goals simp [*]

theorem execPost_keeps (a b : SReg) (k : Tok) (i : BitVec 5) (s : State) (hs : s.Canonical)  : Keeps (execPost a b k i s) := by
  refine uset_keeps _ _ _ hs (fun x s h => ?_)
  repeat' first
    | assumption
    | intro _
    | with_reducible apply trapUnit_canon
    | with_reducible apply startOp_canon
    | with_reducible apply State.startAgent_canon
    | with_reducible apply State.fresh_canon
    | with_reducible apply uset_keeps
    | with_reducible apply loseStanding_canon
    | with_reducible apply touchWindow_canon
    | with_reducible apply afterRelease_canon
    | (simp [*]; done)
    | split
    | dsimp only
    | refine foldl_canon ?_ ?_

@[simp] theorem finishPost_canon (s : State) (a : Agent) (core slot op : Nat) (sd : SReg) (hs : s.Canonical)  : (finishPost s a core slot op sd).Canonical := by
  unfold finishPost
  repeat' first
    | assumption
    | with_reducible apply State.opResult_canon
    | with_reducible apply State.dropAgent_canon
    | with_reducible apply postRecord_canon
    | split
    | dsimp only
    | refine foldl_canon (fun _ _ _ => ?_) ?_
  all_goals simp [*]

theorem execArrive_keeps (a b : SReg) (k : Tok) (s : State) (hs : s.Canonical)  : Keeps (execArrive a b k s) := by
  refine uset_keeps _ _ _ hs (fun x s h => ?_)
  repeat' first
    | assumption
    | intro _
    | with_reducible apply trapUnit_canon
    | with_reducible apply uset_keeps
    | with_reducible apply arriveTask_canon
    | with_reducible apply loseStanding_canon
    | with_reducible apply opAtOnce_canon
    | with_reducible apply afterRelease_canon
    | (simp [*]; done)
    | split
    | dsimp only
    | refine foldl_canon ?_ ?_

@[simp] theorem appended_canon (before : State) (slot : Nat) (s : State) (hs : s.Canonical) : (appended before slot s).Canonical := by
  unfold appended
  repeat' split
  all_goals simp [*]

theorem execAppend_keeps (a b : SReg) (k : Tok) (i : BitVec 5) (s : State) (hs : s.Canonical) : Keeps (execAppend a b k i s) := by
  refine uset_keeps _ _ _ hs (fun x s h => ?_)
  extract_lets slot off win s1
  have h1 : s1.Canonical := touchWindow_canon _ _ _ _ _ h
  clear_value s1
  have h2 : ∀ o, (s1.windowTouch x.t.ctx o 4).Canonical := fun o => State.windowTouch_canon _ _ _ _ h1
  repeat' first
    | exact trapUnit_canon _ _ _ _ _ h
    | exact trapUnit_canon _ _ _ _ _ h1
    | exact trapUnit_canon _ _ _ _ _ (h2 _)
    | split
    | dsimp only
  refine afterRelease_canon _ _ _ (h2 _) (fun s0 h0 => ?_)
  have h : ∀ o, (s0.windowTouch x.t.ctx o 32).Canonical := fun o => State.windowTouch_canon _ _ _ _ h0
  split
  · exact trapUnit_canon _ _ _ _ _ (h _)
  · refine opAtOnce_canon _ _ _ (loseStanding_canon _ _ (appended_canon _ _ _ (getD_canon ?_ (windowWrite_canon _ _ _ _ ?_))))
    all_goals
      repeat' split
      all_goals
        first
        | exact getD_canon (h _) (windowWrite_canon _ _ _ _ (h _))
        | exact foldl_canon (fun s _ h => foldl_canon (fun s _ h => State.poison1_canon _ _ h) h)
            (getD_canon (h _) (windowWrite_canon _ _ _ _ (h _)))

theorem execSeal_keeps (a : SReg) (k : Tok) (s : State) (hs : s.Canonical)  : Keeps (execSeal a k s) := by
  refine uset_keeps _ _ _ hs (fun x s h => ?_)
  repeat' first
    | assumption
    | intro _
    | with_reducible apply State.setTask_canon
    | with_reducible apply trapUnit_canon
    | with_reducible apply uset_keeps
    | with_reducible apply closeTask_canon
    | with_reducible apply State.settled_canon
    | with_reducible apply loseStanding_canon
    | with_reducible apply opAtOnce_canon
    | with_reducible apply afterRelease_canon
    | (simp [*]; done)
    | split
    | dsimp only
    | refine foldl_canon ?_ ?_

theorem execWaitbm_keeps (a b : SReg) (s : State) (hs : s.Canonical)  : Keeps (execWaitbm a b s) := by
  refine uset_keeps _ _ _ hs (fun x s h => ?_)
  dsimp only
  repeat' split
  all_goals simp [*]

@[simp] theorem waitbmGo_canon (s : State) (core slot : Nat) (w : Waiting) (hs : s.Canonical)  : (waitbmGo s core slot w).Canonical := by
  unfold waitbmGo
  repeat' first
    | assumption
    | with_reducible apply goOn_canon
    | with_reducible apply State.touch_canon
    | with_reducible apply State.acquire_canon
    | split
    | dsimp only
    | refine foldl_canon (fun _ _ _ => ?_) ?_
  all_goals simp [*]

@[simp] theorem finishBarrier_canon (s : State) (team : Nat) (hs : s.Canonical)  : (finishBarrier s team).Canonical := by
  unfold finishBarrier
  dsimp only
  repeat' first | assumption | split | refine foldl_canon (fun _ _ _ => ?_) ?_
  all_goals simp [*]

theorem barrierWord_keeps (i : UInstr) (scope : Nat) (s : State) (hs : s.Canonical)  : Keeps (barrierWord i scope s) := by
  refine uset_keeps _ _ _ hs (fun x s h => ?_)
  repeat' first
    | assumption
    | intro _
    | with_reducible apply release_canon
    | with_reducible apply waitAtUnit_canon
    | with_reducible apply uset_keeps
    | with_reducible apply finishBarrier_canon
    | (simp [*]; done)
    | split
    | dsimp only
    | refine foldl_canon ?_ ?_

theorem execTbar_keeps (s : State) (hs : s.Canonical)  : Keeps (execTbar s) := by
  unfold execTbar
  with_reducible apply barrierWord_keeps
  assumption

theorem execPbar_keeps (s : State) (hs : s.Canonical)  : Keeps (execPbar s) := by
  unfold execPbar
  with_reducible apply barrierWord_keeps
  assumption

@[simp] theorem pushBody_canon (a : SReg) (k : Tok) (x : Ix) (s : State) (hs : s.Canonical)  : (pushBody a k x s).Canonical := by
  unfold pushBody
  repeat' first
    | assumption
    | intro _
    | with_reducible apply State.setTeam_canon
    | with_reducible apply release_canon
    | with_reducible apply standAgain_canon
    | with_reducible apply waitAtUnit_canon
    | with_reducible apply startOp_canon
    | refine canon_of_fst (by assumption) ?_
    | refine canon_of_snd (by assumption) ?_
    | refine canon_of_some (by assumption) ?_
    | dsimp only
    | split
    | refine foldl_canon ?_ ?_
    | (simp [*]; done)

@[simp] theorem popBody_canon (a : SReg) (k : Tok) (x : Ix) (s : State) (hs : s.Canonical)  : (popBody a k x s).Canonical := by
  unfold popBody
  dsimp only
  repeat' split
  all_goals simp [*]

@[simp] theorem servePush_canon (s : State) (teamId : Nat) (hs : s.Canonical)  : (servePush s teamId).Canonical := by
  unfold servePush
  repeat' split
  all_goals simp [*]

@[simp] theorem servePop_canon (s : State) (teamId : Nat) (hs : s.Canonical)  : (servePop s teamId).Canonical := by
  unfold servePop
  repeat' first
    | assumption
    | intro _
    | with_reducible apply State.setTeam_canon
    | with_reducible apply State.setFront_canon
    | with_reducible apply State.opResult_canon
    | with_reducible apply goOn_canon
    | with_reducible apply State.acquire_canon
    | split
    | dsimp only
    | refine foldl_canon ?_ ?_
    | (simp [*]; done)

theorem execDqpush_keeps (a : SReg) (k : Tok) (s : State) (hs : s.Canonical)  : Keeps (execDqpush a k s) := by
  exact uset_keeps _ _ _ hs (fun x s h => by simp [*])

theorem execDqpop_keeps (a : SReg) (k : Tok) (s : State) (hs : s.Canonical)  : Keeps (execDqpop a k s) := by
  exact uset_keeps _ _ _ hs (fun x s h => by simp [*])

end Sys2Proof.Machine
end

