-- ==== Sys2Proof/Laws/Canon/System.lean ====
section
/-! SUPPORT. The canonical form is kept by the operations of Machine/System.lean. -/

set_option linter.unusedTactic false
set_option linter.unreachableTactic false
set_option linter.unusedSimpArgs false
set_option linter.unusedVariables false

namespace Sys2Proof.Machine

theorem execGetc_keeps (d : SReg) (b : BitVec 6) (s : State) (hs : s.Canonical)  : Keeps (execGetc d b s) := by
  refine uset_keeps _ _ _ hs (fun x s h => ?_)
  repeat' first
    | assumption
    | intro _
    | with_reducible apply setSval_canon
    | with_reducible apply trapUnit_canon
    | with_reducible apply uset_keeps
    | (simp [*]; done)
    | split
    | dsimp only
    | refine foldl_canon ?_ ?_

theorem execSetc_keeps (d : BitVec 6) (a : SReg) (s : State) (hs : s.Canonical)  : Keeps (execSetc d a s) := by
  refine uset_keeps _ _ _ hs (fun x s h => ?_)
  dsimp only
  repeat' split
  all_goals simp [*]

theorem execEret_keeps (s : State) (hs : s.Canonical)  : Keeps (execEret s) := by
  exact uset_keeps _ _ _ hs (fun x s h => by simp [*])

@[simp] theorem synceGo_canon (s : State) (core slot : Nat) (hs : s.Canonical)  : (synceGo s core slot).Canonical := by
  simp [synceGo, *]

@[simp] theorem settleLantern_canon (s : State) (core slot : Nat) (hs : s.Canonical)  : (settleLantern s core slot).Canonical := by
  unfold settleLantern
  repeat' split
  all_goals simp [*]

theorem execSynce_keeps (s : State) (hs : s.Canonical)  : Keeps (execSynce s) := by
  refine uset_keeps _ _ _ hs (fun x s h => ?_)
  repeat' first
    | assumption
    | intro _
    | with_reducible apply waitAtUnit_canon
    | with_reducible apply uset_keeps
    | with_reducible apply synceGo_canon
    | with_reducible apply settleLantern_canon
    | (simp [*]; done)
    | split
    | dsimp only
    | refine foldl_canon ?_ ?_

end Sys2Proof.Machine
end

