-- ==== Sys2Proof/Laws/Canon/Issue.lean ====
section
/-! SUPPORT. The canonical form is kept by the operations of Machine/Issue.lean. -/

set_option linter.unusedTactic false
set_option linter.unreachableTactic false
set_option linter.unusedSimpArgs false
set_option linter.unusedVariables false

namespace Sys2Proof.Machine

@[simp] theorem landResult_canon (s : State) (core slot op lane : Nat) (hs : s.Canonical)  : (landResult s core slot op lane).Canonical := by
  unfold landResult
  repeat' first
    | assumption
    | with_reducible apply State.event_canon
    | with_reducible apply State.setGroup_canon
    | with_reducible apply State.setLantern_canon
    | with_reducible apply tryEntry_canon
    | with_reducible apply singleStep_canon
    | with_reducible apply raise_canon
    | split
    | dsimp only
    | refine foldl_canon (fun _ _ _ => ?_) ?_
  all_goals simp [*]

theorem execLongLatencyComplete_keeps (core slot op lane : Nat) (s : State) (hs : s.Canonical)  : Keeps (execLongLatencyComplete core slot op lane s) := by
  simp [execLongLatencyComplete, *]

@[simp] theorem takeDeferred_canon (core slot : Nat) (t : Team) (s : State) (late : List LateTrap) (hs : s.Canonical)  : (takeDeferred core slot t s late).Canonical := by
  unfold takeDeferred
  refine foldl_canon (fun _ _ _ => ?_) ?_ <;> simp [*]

@[simp] theorem resolveSpec_canon (s : State) (core slot : Nat) (hs : s.Canonical)  : (resolveSpec s core slot).Canonical := by
  unfold resolveSpec
  repeat' first
    | assumption
    | with_reducible apply acquireToken_canon
    | with_reducible apply State.setGroup_canon
    | with_reducible apply tryEntry_canon
    | with_reducible apply settleJoins_canon
    | with_reducible apply takeDeferred_canon
    | split
    | dsimp only
    | refine foldl_canon (fun _ _ _ => ?_) ?_
  all_goals simp [*]

theorem execSpeculationResolve_keeps (core slot : Nat) (s : State) (hs : s.Canonical)  : Keeps (execSpeculationResolve core slot s) := by
  simp [execSpeculationResolve, *]

@[simp] theorem State.setCoreState_canon (s : State) (c : CoreState) (hs : s.Canonical)  : (State.setCoreState s c).Canonical := by
  simp [State.setCoreState, *]

@[simp] theorem issueGroup_canon (s : State) (cycle : Nat) (r : Ready) (hs : s.Canonical) : (issueGroup s cycle r).Canonical := by
  unfold issueGroup
  split
  · dsimp only
    exact (State.canonical_mk ..).2 ⟨hs.mem, hs.poison, hs.absent⟩
  · exact hs

@[simp] theorem markWaits_canon (s : State) (g : Group) (hs : s.Canonical)  : (markWaits s g).Canonical := by
  unfold markWaits
  dsimp only
  repeat' split
  all_goals simp [*]

@[simp] theorem beginCycle_canon (s : State) (core : Nat) (hs : s.Canonical)  : (beginCycle s core).Canonical := by
  unfold beginCycle
  extract_lets runs mine s0 s1 s2
  have h0 : s0.Canonical := (State.canonical_mk ..).2 ⟨hs.mem, hs.poison, hs.absent⟩
  have h1 : s1.Canonical := foldl_canon (fun s g h => resolveSpec_canon _ _ _ h) h0
  have h2 : s2.Canonical := foldl_canon (fun s g h => State.setGroup_canon _ _ h) h1
  exact foldl_canon (fun s g h => markWaits_canon _ _ h) h2

@[simp] theorem coreCycle_canon (s : State) (core : Nat) (hs : s.Canonical) : (coreCycle s core).Canonical := by
  have h1 : ∀ (t : State) (l : List Bundle), t.Canonical → State.Canonical { t with issue := l } := fun t l h => ⟨h.mem, h.poison, h.absent⟩
  unfold coreCycle
  exact h1 _ _ (State.setCoreState_canon _ _ (foldl_canon (fun s r h => issueGroup_canon _ _ _ h) (h1 _ _ (beginCycle_canon _ _ hs))))

theorem execIssueCycle_keeps (core : Nat) (s : State) (hs : s.Canonical)  : Keeps (execIssueCycle core s) := by
  unfold execIssueCycle
  refine (keeps_next _).2 ?_
  repeat' first
    | assumption
    | intro _
    | with_reducible apply coreCycle_canon
    | with_reducible apply coreCycle_canon
    | refine canon_of_fst (by assumption) ?_
    | refine canon_of_snd (by assumption) ?_
    | refine canon_of_some (by assumption) ?_
    | dsimp only
    | split
    | refine foldl_canon ?_ ?_
    | (simp [*]; done)

theorem execPcAged_keeps (core slot : Nat) (pc : Addr) (s : State) (hs : s.Canonical)  : Keeps (execPcAged core slot pc s) := by
  unfold execPcAged
  refine (keeps_next _).2 ?_
  repeat' first
    | assumption
    | intro _
    | with_reducible apply State.setGroup_canon
    | refine canon_of_fst (by assumption) ?_
    | refine canon_of_snd (by assumption) ?_
    | refine canon_of_some (by assumption) ?_
    | dsimp only
    | split
    | refine foldl_canon ?_ ?_
    | (simp [*]; done)

theorem execJoinRelease_keeps (core slot : Nat) (m : MReg) (s : State) (hs : s.Canonical)  : Keeps (execJoinRelease core slot m s) := by
  unfold execJoinRelease
  refine (keeps_next _).2 ?_
  repeat' first
    | assumption
    | intro _
    | with_reducible apply settleJoins_canon
    | refine canon_of_fst (by assumption) ?_
    | refine canon_of_snd (by assumption) ?_
    | refine canon_of_some (by assumption) ?_
    | dsimp only
    | split
    | refine foldl_canon ?_ ?_
    | (simp [*]; done)

@[simp] theorem restartGroup_canon (s : State) (core slot : Nat) (hs : s.Canonical)  : (restartGroup s core slot).Canonical := by
  unfold restartGroup
  repeat' split
  all_goals simp [*]

theorem execExitsRestart_keeps (core slot : Nat) (s : State) (hs : s.Canonical)  : Keeps (execExitsRestart core slot s) := by
  simp [execExitsRestart, *]

@[simp] theorem packTeam_canon (s : State) (teamId : Nat) (hs : s.Canonical) : (packTeam s teamId).Canonical := by
  unfold packTeam
  dsimp only
  split
  · exact hs
  · split
    · exact hs
    · split
      · refine stopLantern_canon _ _ (foldl_canon (fun s g h => ?_) (foldl_canon (fun s core h => ?_) hs))
        · split
          · exact singleStep_canon _ _ _ _ h
          · exact h
        · exact foldl_fst_canon (x := (_, _)) (fun x g h => State.setGroup_canon _ _ h) h
      · exact hs

theorem execRegroupPack_keeps (team : Nat) (s : State) (hs : s.Canonical)  : Keeps (execRegroupPack team s) := by
  simp [execRegroupPack, *]

theorem execBarrierComplete_keeps (team : Nat) (s : State) (hs : s.Canonical)  : Keeps (execBarrierComplete team s) := by
  simp [execBarrierComplete, *]

theorem execDqpopDeliver_keeps (team : Nat) (s : State) (hs : s.Canonical)  : Keeps (execDqpopDeliver team s) := by
  simp [execDqpopDeliver, *]

theorem execWaitbmProceed_keeps (core slot : Nat) (s : State) (hs : s.Canonical)  : Keeps (execWaitbmProceed core slot s) := by
  simp [execWaitbmProceed, *]

theorem execSynceProceed_keeps (core slot : Nat) (s : State) (hs : s.Canonical)  : Keeps (execSynceProceed core slot s) := by
  unfold execSynceProceed
  refine (keeps_next _).2 ?_
  repeat' first
    | assumption
    | intro _
    | with_reducible apply synceGo_canon
    | with_reducible apply goOn_canon
    | refine canon_of_fst (by assumption) ?_
    | refine canon_of_snd (by assumption) ?_
    | refine canon_of_some (by assumption) ?_
    | dsimp only
    | split
    | refine foldl_canon ?_ ?_
    | (simp [*]; done)

theorem execRangeLockGrant_keeps (core slot : Nat) (s : State) (hs : s.Canonical)  : Keeps (execRangeLockGrant core slot s) := by
  unfold execRangeLockGrant
  refine (keeps_next _).2 ?_
  repeat' first
    | assumption
    | intro _
    | with_reducible apply retryLocks_canon
    | refine canon_of_fst (by assumption) ?_
    | refine canon_of_snd (by assumption) ?_
    | refine canon_of_some (by assumption) ?_
    | dsimp only
    | split
    | refine foldl_canon ?_ ?_
    | (simp [*]; done)

theorem execTrapEntry_keeps (core slot : Nat) (s : State) (hs : s.Canonical)  : Keeps (execTrapEntry core slot s) := by
  simp [execTrapEntry, *]

@[simp] theorem freeSlot_canon (s : State) (core slot : Nat) (hs : s.Canonical)  : (freeSlot s core slot).Canonical := by
  unfold freeSlot
  repeat' split
  all_goals simp [*]

theorem execGroupSlotFree_keeps (core slot : Nat) (s : State) (hs : s.Canonical)  : Keeps (execGroupSlotFree core slot s) := by
  simp [execGroupSlotFree, *]

end Sys2Proof.Machine
end

