-- ==== Sys2Proof/Laws/Canon/Ordering.lean ====
section
/-! SUPPORT. The canonical form is kept by the operations of Machine/Ordering.lean. -/

set_option linter.unusedTactic false
set_option linter.unreachableTactic false
set_option linter.unusedSimpArgs false
set_option linter.unusedVariables false

namespace Sys2Proof.Machine

theorem execSqEntryLeave_keeps (core slot : Nat) (s : State) (hs : s.Canonical)  : Keeps (execSqEntryLeave core slot s) := by
  simp [execSqEntryLeave, *]

theorem execOutboundToMemory_keeps (core n : Nat) (s : State) (hs : s.Canonical)  : Keeps (execOutboundToMemory core n s) := by
  simp [execOutboundToMemory, *]

@[simp] theorem installCopy_canon (s : State) (core ctx : Nat) (va : Addr) (hs : s.Canonical)  : (installCopy s core ctx va).Canonical := by
  unfold installCopy
  dsimp only
  repeat' split
  all_goals simp [*]

theorem execStaleCopyInstall_keeps (core ctx : Nat) (va : Addr) (s : State) (hs : s.Canonical)  : Keeps (execStaleCopyInstall core ctx va s) := by
  simp [execStaleCopyInstall, *]

theorem execStaleCopyDiscard_keeps (core line : Nat) (s : State) (hs : s.Canonical)  : Keeps (execStaleCopyDiscard core line s) := by
  simp [execStaleCopyDiscard, *]

@[simp] theorem sendSource_canon (s : State) (id : Nat) (hs : s.Canonical)  : (sendSource s id).Canonical := by
  unfold sendSource
  repeat' split
  all_goals simp [*]

@[simp] theorem waitAgent_canon (s : State) (id loc : Nat) (st : AStep) (hs : s.Canonical)  : (waitAgent s id loc st).Canonical := by
  simp [waitAgent, *]

@[simp] theorem primeAfter_canon (s : State) (id : Nat) (hs : s.Canonical)  : (primeAfter s id).Canonical := by
  unfold primeAfter
  repeat' split
  all_goals simp [*]

@[simp] theorem moveAgent_canon (s : State) (id n : Nat) (hs : s.Canonical)  : (moveAgent s id n).Canonical := by
  unfold moveAgent
  repeat' first
    | assumption
    | with_reducible apply takeStep_canon
    | with_reducible apply sendSource_canon
    | with_reducible apply waitAgent_canon
    | with_reducible apply primeAfter_canon
    | split
    | dsimp only
    | refine foldl_canon (fun _ _ _ => ?_) ?_
  all_goals simp [*]

theorem execAgentStep_keeps (agent n : Nat) (s : State) (hs : s.Canonical)  : Keeps (execAgentStep agent n s) := by
  simp [execAgentStep, *]

theorem execCpyInstanceStart_keeps (team : Nat) (s : State) (hs : s.Canonical)  : Keeps (execCpyInstanceStart team s) := by
  simp [execCpyInstanceStart, *]

theorem execCpyInstanceComplete_keeps (agent : Nat) (s : State) (hs : s.Canonical)  : Keeps (execCpyInstanceComplete agent s) := by
  simp [execCpyInstanceComplete, *]

theorem execTileCommandComplete_keeps (team half : Nat) (s : State) (hs : s.Canonical)  : Keeps (execTileCommandComplete team half s) := by
  unfold execTileCommandComplete
  refine (keeps_next _).2 ?_
  repeat' first
    | assumption
    | intro _
    | with_reducible apply completeHead_canon
    | refine canon_of_fst (by assumption) ?_
    | refine canon_of_snd (by assumption) ?_
    | refine canon_of_some (by assumption) ?_
    | dsimp only
    | split
    | refine foldl_canon ?_ ?_
    | (simp [*]; done)

end Sys2Proof.Machine
end

