-- ==== Sys2Proof/Laws/Canon/Belfry.lean ====
section
/-! SUPPORT. The canonical form is kept by the operations of Machine/Belfry.lean. -/

set_option linter.unusedTactic false
set_option linter.unreachableTactic false
set_option linter.unusedSimpArgs false
set_option linter.unusedVariables false

namespace Sys2Proof.Machine

/-- The state that the distributor leaves after a task it took, or one that waits, is canonical. -/
def Taken.Canon (x : Taken) : Prop := ∀ s1, x = .took s1 ∨ x = .waits s1 → s1.Canonical

@[simp] theorem Taken.canon_took (s : State) : (Taken.took s).Canon ↔ s.Canonical :=
  ⟨fun h => h s (.inl rfl), fun h t e => by rcases e with e | e <;> cases e; exact h⟩
@[simp] theorem Taken.canon_waits (s : State) : (Taken.waits s).Canon ↔ s.Canonical :=
  ⟨fun h => h s (.inr rfl), fun h t e => by rcases e with e | e <;> cases e; exact h⟩
@[simp] theorem Taken.canon_skipped : Taken.skipped.Canon := fun _ e => by rcases e with e | e <;> cases e

@[simp] theorem State.answer_canon (s : State) (type : BitVec 8) (ctx : Nat) (seqNo : BitVec 16) (arg : DWord) (payload : List Byte) (hs : s.Canonical)  : (State.answer s type ctx seqNo arg payload).Canonical := by
  simp [State.answer, *]

@[simp] theorem settleRequests_canon (s : State) (hs : s.Canonical)  : (settleRequests s).Canonical := by
  unfold settleRequests
  refine foldl_canon (fun _ _ _ => ?_) ?_ <;> simp [*]

@[simp] theorem discardAgent_canon (s : State) (a : Agent) (hs : s.Canonical)  : (discardAgent s a).Canonical := by
  simp [discardAgent, *]

@[simp] theorem flushTeam_canon (s : State) (x : Team) (hs : s.Canonical)  : (flushTeam s x).Canonical := by
  unfold flushTeam
  split <;> simp [*]

@[simp] theorem State.idleReplays_canon (s : State) (p : JournalEntry → Bool) (hs : s.Canonical)  : (State.idleReplays s p).Canonical := by
  simp [State.idleReplays, *]

@[simp] theorem preemptTask_canon (s : State) (slot : Nat) (hs : s.Canonical)  : (preemptTask s slot).Canonical := by
  unfold preemptTask
  split
  · exact hs
  · split
    · exact hs
    · extract_lets gang t1 s0 s1 mine all flush s2
      have h1 : s1.Canonical := canon_same (State.idleReplays_canon _ (fun j => j.slot = slot) (State.setTask_canon s t1 hs))
      exact foldl_canon (fun s a h => discardAgent_canon _ _ h) (foldl_canon (fun s x h => flushTeam_canon _ _ h) h1)

@[simp] theorem requestPreempt_canon (s : State) (ctx : Nat) (slots : List Nat) (seqNo : BitVec 16) (hs : s.Canonical)  : (requestPreempt s ctx slots seqNo).Canonical := by
  unfold requestPreempt
  repeat' first
    | assumption
    | with_reducible apply settleRequests_canon
    | with_reducible apply preemptTask_canon
    | split
    | dsimp only
    | refine foldl_canon (fun _ _ _ => ?_) ?_
  all_goals simp [*]

@[simp] theorem expirePreempt_canon (s : State) (n : Nat) (hs : s.Canonical)  : (expirePreempt s n).Canonical := by
  unfold expirePreempt
  repeat' first
    | assumption
    | with_reducible apply forcedReset_canon
    | with_reducible apply State.answer_canon
    | with_reducible apply settleRequests_canon
    | split
    | dsimp only
    | refine foldl_canon (fun _ _ _ => ?_) ?_
  all_goals simp [*]

@[simp] theorem setBitmap_canon (s0 : State) (t : Task) (b : Nat) (hs0 : s0.Canonical) : (setBitmap s0 t b).Canonical := by
  unfold setBitmap
  extract_lets off s
  have hs : s.Canonical := State.windowTouch_canon _ _ _ _ hs0
  clear_value s
  split
  · split
    · rename_i e
      exact windowWrite_canon _ _ _ _ hs _ e
    · exact taskFault_canon _ _ hs
  · exact taskFault_canon _ _ hs

@[simp] theorem touchCount_canon (s : State) (t : Task) (hs : s.Canonical)  : (touchCount s t).Canonical := by
  simp [touchCount, *]

@[simp] theorem touchRows_canon (s : State) (t : Task) (r : Nat) (hs : s.Canonical)  : (touchRows s t r).Canonical := by
  simp [touchRows, *]

@[simp] theorem expandRagged_canon (n : Nat) (s : State) (slot : Nat) (hs : s.Canonical) : (expandRagged n s slot).Canonical := by
  induction n generalizing s with
  | zero => exact hs
  | succ n ih =>
    unfold expandRagged
    dsimp only
    repeat' split
    all_goals
      first
      | exact hs
      | exact ih _ (setBitmap_canon _ _ _ (State.setTask_canon _ _ (touchRows_canon _ _ _ (touchCount_canon _ _ hs))))
      | exact State.setTask_canon _ _ (touchRows_canon _ _ _ (touchCount_canon _ _ hs))
      | exact touchRows_canon _ _ _ hs
      | exact taskFault_canon _ _ (touchRows_canon _ _ _ hs)
      | exact taskFault_canon _ _ (touchCount_canon _ _ hs)
      | exact closeTask_canon _ _ (touchCount_canon _ _ hs)
      | exact taskFault_canon _ _ (touchRows_canon _ _ _ (touchCount_canon _ _ hs))

@[simp] theorem expandAll_canon (s : State) (hs : s.Canonical)  : (expandAll s).Canonical := by
  unfold expandAll
  repeat' first
    | assumption
    | with_reducible apply expandRagged_canon
    | split
    | dsimp only
    | refine foldl_canon (fun _ _ _ => ?_) ?_
  all_goals simp [*]

@[simp] theorem touchRegions_canon (s : State) (t : Task) (index : Nat) (hs : s.Canonical)  : (touchRegions s t index).Canonical := by
  unfold touchRegions
  dsimp only
  repeat' first | assumption | split | refine foldl_canon (fun _ _ _ => ?_) ?_
  all_goals simp [*]

@[simp] theorem startRegion_canon (out : Bool) (teamId : Nat) (s : State) (g : Region) (hs : s.Canonical) :
    (startRegion out teamId s g).Canonical := by
  unfold startRegion
  split
  · exact hs
  · extract_lets loc id agent lock entry s1
    have h1 : s1.Canonical := State.startAgent_canon _ _ _ (State.fresh_canon _ hs)
    exact canon_same h1

@[simp] theorem State.presentLines_canon (s : State) (core base lines : Nat) (hs : s.Canonical)  : (State.presentLines s core base lines).Canonical := by
  simp [State.presentLines, *]

@[simp] theorem placeTeam_canon (s : State) (t : Task) (d : NextTeam) (spot : Spot) (rs : List Region) (hs : s.Canonical) :
    (placeTeam s t d spot rs).Canonical := by
  unfold placeTeam
  extract_lets r id sides team s1 s2 s3 s4 s5 s6 s7
  have h1 : s1.Canonical := State.fresh_canon _ hs
  have h2 : s2.Canonical := canon_same h1
  have h3 : s3.Canonical := foldl_canon (fun s x h => State.presentLines_canon _ _ _ _ h) h2
  have h4 : s4.Canonical := foldl_canon (fun s x h => startRegion_canon _ _ _ _ h) h3
  have h5 : s5.Canonical := foldl_canon (fun s x h => canon_same h) h4
  have h6 : s6.Canonical := by
    dsimp only [s6]
    split
    · exact canon_same h5
    · exact h5
  have h7 : s7.Canonical := foldl_canon (fun s x h => State.acquire_canon _ _ _ h) h6
  exact closeTask_canon _ _ (State.setTask_canon _ _ h7)

@[simp] theorem failTask_canon (s : State) (t : Task) (hs : s.Canonical)  : (failTask s t).Canonical := by
  simp [failTask, *]

@[simp] theorem belfryAgent_canon (s : State) (t : Task) (kind : Nat) (src n dst m : Nat) (steps : List AStep) (whole : Bool) (fin : AgentEnd) (hs : s.Canonical)  : (belfryAgent s t kind src n dst m steps whole fin).Canonical := by
  simp [belfryAgent, *]

@[simp] theorem beginCopy_canon (s : State) (t : Task) (hs : s.Canonical) : (beginCopy s t).Canonical := by
  unfold beginCopy
  extract_lets a b n s0 steps s1 entry
  have h0 : s0.Canonical := State.touchRange_canon _ _ _ _ (State.touchRange_canon _ _ _ _ hs)
  have h1 : s1.Canonical := belfryAgent_canon _ _ _ _ _ _ _ _ _ _ h0
  exact State.setTask_canon _ _ (canon_same h1)

@[simp] theorem touchCopy_canon (s : State) (t : Task) (hs : s.Canonical)  : (touchCopy s t).Canonical := by
  unfold touchCopy
  dsimp only
  repeat' split
  all_goals simp [*]

@[simp] theorem completionWord_canon (s0 : State) (t : Task) (status : Nat) (hs0 : s0.Canonical) : (completionWord s0 t status).Canonical := by
  unfold completionWord
  extract_lets off s
  have hs : s.Canonical := State.windowTouch_canon _ _ _ _ hs0
  clear_value s
  split
  · split
    · rename_i e
      exact windowWrite_canon _ _ _ _ hs _ e
    · exact taskFault_canon _ _ hs
  · exact taskFault_canon _ _ hs

@[simp] theorem endCollective_canon (s : State) (t : Task) (status : Nat) (hs : s.Canonical) : (endCollective s t status).Canonical := by
  unfold endCollective
  extract_lets cid s1 f1 s2 s3 s4
  have h1 : s1.Canonical := by
    dsimp only [s1]
    split
    · exact foldl_canon (fun s x h => State.dropAgent_canon _ _ h) hs
    · exact hs
  have h2 : s2.Canonical := canon_same h1
  have h3 : s3.Canonical := completionWord_canon _ _ _ h2
  have h4 : s4.Canonical := by
    dsimp only [s4]
    split
    · exact State.event_canon _ _ _ _ _ _ _ _ h3
    · exact h3
  exact settleRequests_canon _ (completeTask_canon _ _ h4)

@[simp] theorem touchCollective_canon (s : State) (t : Task) (hs : s.Canonical)  : (touchCollective s t).Canonical := by
  unfold touchCollective
  dsimp only
  repeat' first | assumption | split | refine foldl_canon (fun _ _ _ => ?_) ?_
  all_goals simp [*]

@[simp] theorem reserveNext_canon (s : State) (t : Task) (g : Gang) (hs : s.Canonical)  : (reserveNext s t g).Canonical := by
  unfold reserveNext
  dsimp only
  repeat' split
  all_goals simp [*]

@[simp] theorem State.waitTurn_canon (s : State) (t : Task) (core : Nat) (hs : s.Canonical)  : (State.waitTurn s t core).Canonical := by
  simp [State.waitTurn, *]

@[simp] theorem State.forGang_canon (s : State) (slot : Nat) (hs : s.Canonical)  : (State.forGang s slot).Canonical := by
  simp [State.forGang, *]

@[simp] theorem State.soleWaiter_canon (s : State) (slot : Nat) (hs : s.Canonical)  : (State.soleWaiter s slot).Canonical := by
  simp [State.soleWaiter, *]

theorem placeOn_canon (s0 : State) (t : Task) (d : NextTeam) (spots : List Spot) (hs0 : s0.Canonical) : (placeOn s0 t d spots).Canon := by
  unfold placeOn
  extract_lets s
  have hs : s.Canonical := touchRegions_canon _ _ _ hs0
  clear_value s
  split
  · exact (Taken.canon_took _).2 (taskFault_canon _ _ hs)
  · exact (Taken.canon_waits _).2 hs
  · dsimp only
    have h1 := State.choose_canon s hs
    split
    · exact (Taken.canon_took _).2 (placeTeam_canon _ _ _ _ _ h1)
    · repeat' split
      all_goals simp [hs, h1]

theorem waitBelfry_canon (s : State) (t : Task) (hs : s.Canonical) : (waitBelfry s t).Canon := by
  unfold waitBelfry
  refine (Taken.canon_waits _).2 ?_
  split <;> simp [hs]

theorem takeCopy_canon (s0 : State) (t : Task) (hs0 : s0.Canonical) : (takeCopy s0 t).Canon := by
  unfold takeCopy
  extract_lets s
  have hs : s.Canonical := touchCopy_canon _ _ hs0
  clear_value s
  repeat' split
  all_goals simp [hs, waitBelfry_canon]

theorem takeCollective_canon (s0 : State) (t : Task) (hs0 : s0.Canonical) : (takeCollective s0 t).Canon := by
  unfold takeCollective
  extract_lets s r n m cid f1 s1 parts steps s2 c f2 s3
  have hs : s.Canonical := touchCollective_canon _ _ hs0
  have h1 : s1.Canonical := canon_same hs
  have h2 : s2.Canonical := belfryAgent_canon _ _ _ _ _ _ _ _ _ _ h1
  have h3 : s3.Canonical := canon_same h2
  clear_value s s1 s2 s3
  repeat' split
  all_goals simp [hs, h1, h3, waitBelfry_canon]

theorem takeTask_canon (s : State) (t : Task) (first : Bool) (hs : s.Canonical) : (takeTask s t first).Canon := by
  unfold takeTask
  split
  · exact takeCopy_canon _ _ hs
  · exact takeCollective_canon _ _ hs
  · split <;> simp [hs]
  · split
    · exact Taken.canon_skipped
    · dsimp only
      split
      · exact Taken.canon_skipped
      · exact placeOn_canon _ _ _ _ hs

@[simp] theorem runOrder_canon (s : State) (ts : List Task) (first : Bool) (hs : s.Canonical) : (runOrder s ts first).Canonical := by
  induction ts generalizing s first with
  | nil => exact hs
  | cons t ts ih =>
    unfold runOrder
    split
    · rename_i e
      exact takeTask_canon _ _ _ hs _ (.inl e)
    · rename_i e
      exact canon_same (State.soleWaiter_canon _ t.slot (takeTask_canon _ _ _ hs _ (.inr e)))
    · extract_lets t0 t1 s1
      have h1 : s1.Canonical := State.setTask_canon _ _ hs
      split
      · exact State.soleWaiter_canon _ _ h1
      · exact ih _ _ h1

@[simp] theorem endGang_canon (s : State) (t : Task) (hs : s.Canonical) : (endGang s t).Canonical := by
  unfold endGang
  dsimp only
  split
  · exact settleRequests_canon _ (preemptTask_canon _ _ (canon_same hs))
  · exact canon_same hs

@[simp] theorem placeReserved_canon (s : State) (t : Task) (g : Gang) (hs : s.Canonical) : (placeReserved s t g).Canonical := by
  unfold placeReserved
  split
  · split
    · rename_i e
      have h1 := placeOn_canon _ _ _ _ (canon_same hs) _ (.inl e)
      dsimp only
      split
      · exact endGang_canon _ _ h1
      · exact canon_same h1
    · rename_i e
      exact canon_same (placeOn_canon _ _ _ _ (canon_same hs) _ (.inr e))
    · exact hs
  · exact endGang_canon _ _ hs

@[simp] theorem clearSkips_canon (s : State) (order : List Task) (hs : s.Canonical)  : (clearSkips s order).Canonical := by
  simp [clearSkips, *]

@[simp] theorem waitReplay_canon (s : State) (j : JournalEntry) (hs : s.Canonical)  : (waitReplay s j).Canonical := by
  unfold waitReplay
  split <;> simp [*]

@[simp] theorem replayCopy_canon (s0 : State) (t : Task) (j : JournalEntry) (hs0 : s0.Canonical)  : (replayCopy s0 t j).Canonical := by
  unfold replayCopy
  repeat' first
    | assumption
    | with_reducible apply failTask_canon
    | with_reducible apply beginCopy_canon
    | with_reducible apply touchCopy_canon
    | with_reducible apply beginCopy_canon
    | split
    | dsimp only
    | refine foldl_canon (fun _ _ _ => ?_) ?_
  all_goals simp [*]

@[simp] theorem replayInstance_canon (s : State) (x : Team) (j : JournalEntry) (hs : s.Canonical) : (replayInstance s x j).Canonical := by
  unfold replayInstance
  extract_lets mine s0 s1 slices s2
  have h0 : s0.Canonical := foldl_canon (fun s y h => by split <;> simp [h]) hs
  have h1 : s1.Canonical := foldl_canon (fun s y h => by split <;> simp [h]) h0
  have h2 : s2.Canonical := canon_same h1
  clear_value s2 s1 s0
  repeat' split
  all_goals simp [h1, h2]

@[simp] theorem replayRegion_canon (s : State) (x : Team) (j : JournalEntry) (hs : s.Canonical)  : (replayRegion s x j).Canonical := by
  unfold replayRegion
  repeat' first
    | assumption
    | with_reducible apply State.touchRange_canon
    | with_reducible apply startRegion_canon
    | with_reducible apply waitReplay_canon
    | with_reducible apply startRegion_canon
    | split
    | dsimp only
    | refine foldl_canon (fun _ _ _ => ?_) ?_
  all_goals simp [*]

@[simp] theorem replayOne_canon (s : State) (j : JournalEntry) (hs : s.Canonical) : (replayOne s j).Canonical := by
  unfold replayOne
  repeat' split
  all_goals simp [hs]

@[simp] theorem replayAll_canon (s : State) (hs : s.Canonical)  : (replayAll s).Canonical := by
  unfold replayAll
  repeat' first
    | assumption
    | with_reducible apply replayOne_canon
    | with_reducible apply replayOne_canon
    | split
    | dsimp only
    | refine foldl_canon (fun _ _ _ => ?_) ?_
  all_goals simp [*]

@[simp] theorem decide1_canon (s : State) (dt : Nat) (hs : s.Canonical) : (decide1 s dt).Canonical := by
  have h0 : (settleRequests (replayAll (expandAll { s with now := s.now + dt }).settled)).Canonical :=
    settleRequests_canon _ (replayAll_canon _ (State.settled_canon _ (expandAll_canon _ (canon_same hs))))
  unfold decide1
  dsimp only
  generalize settleRequests (replayAll (expandAll { s with now := s.now + dt }).settled) = s0 at h0 ⊢
  split
  · split
    · exact canon_same h0
    · have h1 := fun n => State.forGang_canon _ n h0
      repeat' split
      · exact placeReserved_canon _ _ _ (h1 _)
      · exact canon_same (h1 ‹Gang›.slot)
      · exact reserveNext_canon _ _ _ (h1 _)
  · exact State.settled_canon _ (runOrder_canon _ _ _ (clearSkips_canon _ _ h0))

theorem execDistributorDecision_keeps (dt : Nat) (s : State) (hs : s.Canonical)  : Keeps (execDistributorDecision dt s) := by
  simp [execDistributorDecision, *]

theorem execGangReservationRelease_keeps (s : State) (hs : s.Canonical)  : Keeps (execGangReservationRelease s) := by
  unfold execGangReservationRelease
  refine (keeps_next _).2 ?_
  repeat' first
    | assumption
    | intro _
    | assumption
    | refine canon_of_fst (by assumption) ?_
    | refine canon_of_snd (by assumption) ?_
    | refine canon_of_some (by assumption) ?_
    | dsimp only
    | split
    | refine foldl_canon ?_ ?_
    | (simp [*]; done)

theorem execTaskBlocking_keeps (slot : Nat) (s : State) (hs : s.Canonical)  : Keeps (execTaskBlocking slot s) := by
  unfold execTaskBlocking
  refine (keeps_next _).2 ?_
  repeat' first
    | assumption
    | intro _
    | with_reducible apply State.setTask_canon
    | refine canon_of_fst (by assumption) ?_
    | refine canon_of_snd (by assumption) ?_
    | refine canon_of_some (by assumption) ?_
    | dsimp only
    | split
    | refine foldl_canon ?_ ?_
    | (simp [*]; done)

theorem execPreemptDeadlineExpiry_keeps (n : Nat) (s : State) (hs : s.Canonical)  : Keeps (execPreemptDeadlineExpiry n s) := by
  simp [execPreemptDeadlineExpiry, *]

@[simp] theorem releaseTeam_canon (s : State) (x : Team) (hs : s.Canonical)  : (releaseTeam s x).1.Canonical := by
  simp [releaseTeam, *]

@[simp] theorem startWriteBack_canon (s : State) (teamId : Nat) (hs : s.Canonical)  : (startWriteBack s teamId).Canonical := by
  unfold startWriteBack
  dsimp only
  repeat' first | assumption | split | refine foldl_canon (fun _ _ _ => ?_) ?_
  all_goals simp [*]

theorem execTeamWriteBackStart_keeps (team : Nat) (s : State) (hs : s.Canonical)  : Keeps (execTeamWriteBackStart team s) := by
  simp [execTeamWriteBackStart, *]

@[simp] theorem retireTeam_canon (s : State) (teamId : Nat) (hs : s.Canonical)  : (retireTeam s teamId).Canonical := by
  unfold retireTeam
  repeat' first
    | assumption
    | with_reducible apply State.removeTeam_canon
    | with_reducible apply drainQueue_canon
    | with_reducible apply drainOut_canon
    | with_reducible apply State.settled_canon
    | with_reducible apply settleRequests_canon
    | with_reducible apply setBitmap_canon
    | with_reducible apply setBitmap_canon
    | split
    | dsimp only
    | refine foldl_canon (fun _ _ _ => ?_) ?_
  all_goals simp [*]

theorem execTeamRetirement_keeps (team : Nat) (s : State) (hs : s.Canonical)  : Keeps (execTeamRetirement team s) := by
  simp [execTeamRetirement, *]

@[simp] theorem finishAgent_canon (s : State) (id : Nat) (hs : s.Canonical)  : (finishAgent s id).Canonical := by
  unfold finishAgent
  repeat' first
    | assumption
    | with_reducible apply finishPost_canon
    | with_reducible apply State.opDone_canon
    | with_reducible apply State.dropAgent_canon
    | with_reducible apply completeTask_canon
    | with_reducible apply settleRequests_canon
    | split
    | dsimp only
    | refine foldl_canon (fun _ _ _ => ?_) ?_
  all_goals simp [*]

theorem execAgentComplete_keeps (agent : Nat) (s : State) (hs : s.Canonical)  : Keeps (execAgentComplete agent s) := by
  simp [execAgentComplete, *]

@[simp] theorem resumeTask_canon (s : State) (slot : Nat) (hs : s.Canonical)  : (resumeTask s slot).Canonical := by
  unfold resumeTask
  dsimp only
  repeat' split
  all_goals simp [*]

@[simp] theorem resumeTasks_canon (s : State) (slots : List Nat) (hs : s.Canonical)  : (resumeTasks s slots).Canonical := by
  unfold resumeTasks
  repeat' first
    | assumption
    | with_reducible apply State.settled_canon
    | with_reducible apply replayAll_canon
    | with_reducible apply resumeTask_canon
    | split
    | dsimp only
    | refine foldl_canon (fun _ _ _ => ?_) ?_
  all_goals simp [*]

end Sys2Proof.Machine
end

