-- ==== Sys2Proof/Laws/Canon/Image.lean ====
section
/-! SUPPORT. The canonical form is kept by the operations of Machine/Image.lean. -/

set_option linter.unusedTactic false
set_option linter.unreachableTactic false
set_option linter.unusedSimpArgs false
set_option linter.unusedVariables false

namespace Sys2Proof.Machine

@[simp] theorem putImage_canon (s : State) (ctx va : Nat) (p : Piece) (hs : s.Canonical)  : (putImage s ctx va p).Canonical := by
  unfold putImage
  dsimp only
  repeat' first | assumption | split | refine foldl_canon (fun _ _ _ => ?_) ?_
  all_goals simp [*]

@[simp] theorem beforeImage_canon (s : State) (ctx : Nat) (hs : s.Canonical) : (beforeImage s ctx).Canonical := by
  have h1 := foldl_canon (l := s.agents.filter (fun a => a.ctx = ctx && (a.kind = 0 || a.journalled))) (fun s a h => discardAgent_canon s a h) hs
  exact canon_same h1

@[simp] theorem releaseContext_canon (s : State) (ctx : Nat) (hs : s.Canonical) : (releaseContext s ctx).1.Canonical :=
  foldl_fst_canon (x := (_, _)) (fun _ _ h => releaseAll_canon _ _ _ h) hs

@[simp] theorem freeContext_canon (s : State) (ctx : Nat) (hs : s.Canonical)  : (freeContext s ctx).Canonical := by
  simp [freeContext, *]

@[simp] theorem failSave_canon (s : State) (v : Saving) (hs : s.Canonical)  : (failSave s v).Canonical := by
  unfold failSave
  repeat' first
    | assumption
    | with_reducible apply flushSaves_canon
    | with_reducible apply State.answer_canon
    | split
    | dsimp only
    | refine foldl_canon (fun _ _ _ => ?_) ?_
  all_goals simp [*]

theorem ite_canon {c : Prop} [Decidable c] {a b : State} (ha : a.Canonical) (hb : b.Canonical) : (if c then a else b).Canonical := by
  split <;> assumption

theorem dropSave_canon {s : State} {l : List Saving} (h : s.Canonical) : ({ s with saves := l } : State).Canonical :=
  ⟨h.mem, h.poison, h.absent⟩

@[simp] theorem finishSave_canon (s : State) (ctx : Nat) (hs : s.Canonical) : (finishSave s ctx).Canonical := by
  have h1 : (releaseContext s ctx).1.Canonical := releaseContext_canon _ _ hs
  have h2 : (beforeImage (releaseContext s ctx).1 ctx).Canonical := beforeImage_canon _ _ h1
  unfold finishSave
  generalize releaseContext s ctx = r at h1 h2 ⊢
  obtain ⟨s1, ok⟩ := r
  split
  · exact hs
  · refine ite_canon hs (ite_canon h1 (ite_canon (failSave_canon _ _ ?_) (ite_canon ?_ ?_)))
    · exact ite_canon (by simp [h1]) h1
    · exact ite_canon (by simp [h1]) h1
    · dsimp only
      refine settleRequests_canon _ (flushSaves_canon _ (State.answer_canon _ _ _ _ _ _ (dropSave_canon ?_)))
      exact freeContext_canon _ _ (putImage_canon _ _ _ _ (State.touchRange_canon _ _ _ _ h2))

theorem execContextSaveComplete_keeps (ctx : Nat) (s : State) (hs : s.Canonical)  : Keeps (execContextSaveComplete ctx s) := by
  simp [execContextSaveComplete, *]

@[simp] theorem beginSave_canon (s : State) (ctx : Nat) (va : DWord) (seqNo : BitVec 16) (hs : s.Canonical)  : (beginSave s ctx va seqNo).Canonical := by
  simp [beginSave, *]

@[simp] theorem putScratch_canon (s : State) (t : Team) (p : Piece) (core base : Nat) (hs : s.Canonical)  : (putScratch s t p core base).Canonical := by
  unfold putScratch
  repeat' first
    | assumption
    | with_reducible apply State.store_canon
    | with_reducible apply State.presentLines_canon
    | with_reducible apply State.clearPresence_canon
    | with_reducible apply State.poisonAt_canon
    | split
    | dsimp only
    | refine foldl_canon (fun _ _ _ => ?_) ?_
  all_goals simp [*]

@[simp] theorem restoreGroups_canon (s : State) (t : Team) (p : Piece) (off : Nat) (old : Option Kept) (mv : Nat → Nat) (hs : s.Canonical) :
    (restoreGroups s t p off old mv).1.Canonical :=
  foldl_fst_canon (x := (_, _)) (fun _ _ h => canon_same h) hs

@[simp] theorem restoreLantern_canon (s : State) (t : Team) (b : Piece) (old : Option Lantern) (mv : Nat → Nat) (hs : s.Canonical)  : (restoreLantern s t b old mv).1.Canonical := by
  simp [restoreLantern, *]

@[simp] theorem readHeld_canon (s : State) (t : Team) (p : Piece) (hs : s.Canonical)  : (readHeld s t p).Canonical := by
  unfold readHeld
  repeat' first
    | assumption
    | with_reducible apply State.setTeam_canon
    | with_reducible apply State.setFront_canon
    | with_reducible apply State.fresh_canon
    | split
    | dsimp only
    | refine foldl_canon (fun _ _ _ => ?_) ?_
  all_goals simp [*]

@[simp] theorem relinkEntry_canon (t : Team) (s : State) (j : JournalEntry) (hs : s.Canonical)  : (relinkEntry t s j).Canonical := by
  unfold relinkEntry
  repeat' first
    | assumption
    | with_reducible apply State.setFront_canon
    | with_reducible apply State.fresh_canon
    | split
    | dsimp only
    | refine foldl_canon (fun _ _ _ => ?_) ?_
  all_goals simp [*]

@[simp] theorem relinkJournal_canon (s : State) (t : Team) (hs : s.Canonical)  : (relinkJournal s t).Canonical := by
  unfold relinkJournal
  refine foldl_canon (fun _ _ _ => ?_) ?_ <;> simp [*]

@[simp] theorem restoreTeam_canon (s : State) (task : Task) (p : Piece) (spot : Spot) (old : Option Kept) (rs : List Region) (hs : s.Canonical) :
    (restoreTeam s task p spot old rs).1.Canonical := by
  unfold restoreTeam
  extract_lets r flags was t0 lan gsize so sides t mv f1 s1 s2 s3
  have h1 : s1.Canonical := canon_same (State.fresh_canon _ hs)
  have h2 : s2.Canonical := putScratch_canon _ _ _ _ _ h1
  have h3 : s3.Canonical := ite_canon (putScratch_canon _ _ _ _ _ h2) h2
  clear_value s1 s2 s3
  split
  rename_i s4 moves e4
  have h4 := canon_of_fst e4 (restoreGroups_canon _ _ _ _ _ _ h3)
  clear e4
  split
  rename_i s5 moves2 e5
  have h5 : s5.Canonical := by
    refine canon_of_fst e5 ?_
    split
    · exact restoreLantern_canon _ _ _ _ _ h4
    · exact h4
  clear e5
  extract_lets regions s6
  have h6 : s6.Canonical := by
    dsimp only [s6]
    split
    · exact State.setTeam_canon _ _ h5
    · exact relinkJournal_canon _ _ (readHeld_canon _ _ _ (State.setTeam_canon _ _ h5))
  exact foldl_canon (fun s d h => State.acquire_canon _ _ _ h) h6

@[simp] theorem dropTeam_canon (s : State) (t : Task) (index : Nat) (hs : s.Canonical) : (dropTeam s t index).Canonical := canon_same hs

@[simp] theorem moveRecords_canon (s0 : State) (ctx : Nat) (ms : Moves) (hs0 : s0.Canonical) : (moveRecords s0 ctx ms).Canonical := by
  have hs : (ms.foldl (fun s m => touchRecord (touchRecord s ctx m.1.1 m.1.2) ctx m.2.1 m.2.2) s0).Canonical :=
    foldl_canon (fun s m h => touchRecord_canon _ _ _ _ (touchRecord_canon _ _ _ _ h)) hs0
  have hw : ∀ (l : List (Option (List Byte) × (Nat × Nat))) (o : Option State), (∀ t, o = some t → t.Canonical) →
      ∀ t, l.foldl (fun (o : Option State) r => o.bind (fun s =>
        match r.1 with
        | some bs => writeRecord s ctx r.2.1 r.2.2 0 bs
        | none => none)) o = some t → t.Canonical := by
    intro l
    induction l with
    | nil => exact fun o h => h
    | cons r l ih =>
      refine fun o h => ih _ (fun t e => ?_)
      cases o with
      | none => cases e
      | some s1 =>
        dsimp only [Option.bind] at e
        split at e
        · exact writeRecord_canon _ _ _ _ _ _ (h s1 rfl) t e
        · cases e
  exact getD_canon (forcedReset_canon _ _ _ hs) (hw _ _ (fun t e => by cases e; exact hs))

/-- The states that a restore may leave are canonical. -/
def Restored.Canon (x : Restored) : Prop := ∀ t, x = .ok t ∨ x = .faulted t → t.Canonical

theorem Restored.canon_ok {s : State} (h : s.Canonical) : (Restored.ok s).Canon := fun t e => by
  rcases e with e | e <;> cases e
  exact h
theorem Restored.canon_faulted {s : State} (h : s.Canonical) : (Restored.faulted s).Canon := fun t e => by
  rcases e with e | e <;> cases e
  exact h
theorem Restored.canon_wait : Restored.wait.Canon := fun t e => by rcases e with e | e <;> cases e
theorem Restored.canon_refused : Restored.refused.Canon := fun t e => by rcases e with e | e <;> cases e

theorem Restored.canon_ite {c : Prop} [Decidable c] {a b : Restored} (ha : a.Canon) (hb : b.Canon) : (if c then a else b).Canon := by
  split <;> assumption

theorem restoreTeams_canon (n : Nat) (s : State) (ctx va off : Nat) (ms : Moves) (hs : s.Canonical) : (restoreTeams n s ctx va off ms).Canon := by
  induction n generalizing s off ms with
  | zero => exact Restored.canon_ok (moveRecords_canon _ _ _ hs)
  | succ n ih =>
    have ha : (s.touchRange ctx (va + off) 1024).Canonical := State.touchRange_canon _ _ _ _ hs
    unfold restoreTeams
    generalize s.touchRange ctx (va + off) 1024 = s1 at ha ⊢
    refine Restored.canon_ite (Restored.canon_faulted ha) ?_
    have hb : (if va + off + (getImage s1 ctx (va + off) 8).nat 0 8 ≤ 2 ^ 48 then
        s1.touchRange ctx (va + off) ((getImage s1 ctx (va + off) 8).nat 0 8) else s1).Canonical :=
      ite_canon (State.touchRange_canon _ _ _ _ ha) ha
    dsimp only
    generalize (if va + off + (getImage s1 ctx (va + off) 8).nat 0 8 ≤ 2 ^ 48 then
        s1.touchRange ctx (va + off) ((getImage s1 ctx (va + off) 8).nat 0 8) else s1) = s2 at hb ⊢
    refine Restored.canon_ite (Restored.canon_faulted hb) ?_
    split
    · exact ih _ _ _ hb
    · refine Restored.canon_ite (ih _ _ _ hb) ?_
      have hc := fun t i => touchRegions_canon s2 t i hb
      split
      · exact Restored.canon_wait
      · exact ih _ _ _ (dropTeam_canon _ _ _ (taskFault_canon _ _ (hc _ _)))
      · split
        · exact Restored.canon_wait
        · exact ih _ _ _ (restoreTeam_canon _ _ _ _ _ _ (State.choose_canon _ (hc _ _)))

theorem restoreContext_canon (s : State) (ctx va : Nat) (hs : s.Canonical) : (restoreContext s ctx va).Canon := by
  have ha : (s.touchRange ctx va 64).Canonical := State.touchRange_canon _ _ _ _ hs
  unfold restoreContext
  generalize s.touchRange ctx va 64 = s1 at ha ⊢
  refine Restored.canon_ite (Restored.canon_faulted ha) (Restored.canon_ite Restored.canon_refused ?_)
  have hr := restoreTeams_canon ((getImage s1 ctx va 64).nat 4 4) s1 ctx va 4096 [] ha
  split
  · rename_i e
    rw [e] at hr
    exact Restored.canon_ok (resumeTasks_canon _ _ (canon_same (hr _ (.inl rfl))))
  · exact hr

end Sys2Proof.Machine
end

