-- ==== Sys2Proof/Laws/Canon/Window.lean ====
section
/-! SUPPORT. The canonical form is kept by the operations of Machine/Window.lean. -/

set_option linter.unusedTactic false
set_option linter.unreachableTactic false
set_option linter.unusedSimpArgs false
set_option linter.unusedVariables false

namespace Sys2Proof.Machine

@[simp] theorem clearSwapCount_canon (s : State) (hs : s.Canonical)  : (clearSwapCount s).Canonical := by
  simp [clearSwapCount, *]

@[simp] theorem mgmtReadEffect_canon (s : State) (off n : Nat) (hs : s.Canonical)  : (mgmtReadEffect s off n).Canonical := by
  unfold mgmtReadEffect
  split <;> simp [*]

@[simp] theorem writeLap_canon (s : State) (c i : Nat) (second : Bool) (v : DWord) (hs : s.Canonical)  : (writeLap s c i second v).Canonical := by
  unfold writeLap
  dsimp only
  repeat' split
  all_goals simp [*]

@[simp] theorem writeContext_canon (s : State) (c r : Nat) (v : DWord) (hs : s.Canonical)  : (writeContext s c r v).Canonical := by
  unfold writeContext
  dsimp only
  repeat' split
  all_goals simp [*]

@[simp] theorem writeDevice_canon (s : State) (off : Nat) (v : DWord) (hs : s.Canonical)  : (writeDevice s off v).Canonical := by
  unfold writeDevice
  dsimp only
  repeat' split
  all_goals simp [*]

@[simp] theorem writeDbgc_canon (s : State) (core slot : Nat) (v : Word) (hs : s.Canonical)  : (writeDbgc s core slot v).Canonical := by
  unfold writeDbgc
  split <;> simp [*]

@[simp] theorem writePlain_canon (s : State) (off : Nat) (v : DWord) (hs : s.Canonical)  : (writePlain s off v).Canonical := by
  unfold writePlain
  repeat' split
  all_goals simp [*]

end Sys2Proof.Machine
end

