-- ==== Sys2Proof/Laws/Canon/Care.lean ====
section
/-! SUPPORT. The canonical form is kept by the operations of Machine/Care.lean. -/

set_option linter.unusedTactic false
set_option linter.unreachableTactic false
set_option linter.unusedSimpArgs false
set_option linter.unusedVariables false

namespace Sys2Proof.Machine

@[simp] theorem touchHost_canon (s : State) (space : BitVec 2) (ctx va n : Nat) (hs : s.Canonical)  : (touchHost s space ctx va n).Canonical := by
  unfold touchHost
  split <;> simp [*]

@[simp] theorem waitFor_canon (s : State) (loc : Nat) (w : Waiter) (hs : s.Canonical)  : (waitFor s loc w).Canonical := by
  simp [waitFor, *]

@[simp] theorem applyMemoryWrite_canon (s : State) (w : HostWr) (hs : s.Canonical)  : (applyMemoryWrite s w).Canonical := by
  unfold applyMemoryWrite
  repeat' first
    | assumption
    | with_reducible apply State.event_canon
    | with_reducible apply State.put_canon
    | with_reducible apply touchHost_canon
    | with_reducible apply waitFor_canon
    | split
    | dsimp only
    | refine foldl_canon (fun _ _ _ => ?_) ?_
  all_goals simp [*]

@[simp] theorem countParts_canon (s : State) (ps : List (Nat × Nat × Nat)) (hs : s.Canonical)  : (countParts s ps).Canonical := by
  unfold countParts
  refine foldl_canon (fun _ _ _ => ?_) ?_ <;> simp [*]

@[simp] theorem State.remoteAnswer_canon (s : State) (fid code : Nat) (bs : List Byte) (hs : s.Canonical)  : (State.remoteAnswer s fid code bs).Canonical := by
  simp [State.remoteAnswer, *]

@[simp] theorem placePage_canon (s : State) (loc : Nat) (b : Block) (hs : s.Canonical) : (placePage s loc b).Canonical := by
  unfold placePage
  rw [State.canonical_mk]
  refine ⟨?_, rising_inserts _ _ (rising_filter hs.poison _), hs.absent⟩
  have : ∀ (l : List Host.Cell) (m : Memory), m.wf = true → (l.foldl (fun (m : Memory) c => m.set (loc + c.1) c.2) m).wf = true := by
    intro l
    induction l with
    | nil => exact fun m h => h
    | cons c l ih => exact fun m h => ih _ (Memory.wf_set h _ _)
  exact this _ _ (Memory.wf_clear hs.mem _ _)

@[simp] theorem retirePage_canon (s : State) (d : Due) (hs : s.Canonical)  : (retirePage s d).Canonical := by
  unfold retirePage
  dsimp only
  repeat' split
  all_goals simp [*]

@[simp] theorem startDue_canon (s : State) (hs : s.Canonical)  : (startDue s).Canonical := by
  unfold startDue
  exact foldl_canon (fun _ _ h => retirePage_canon _ _ (canon_same h)) hs

@[simp] theorem scoreEvent_canon (s : State) (group frame line n : Nat) (hs : s.Canonical)  : (scoreEvent s group frame line n).Canonical := by
  unfold scoreEvent
  extract_lets k row s1 d
  have h1 : s1.Canonical := canon_same hs
  clear_value s1
  dsimp only
  repeat' split
  all_goals simp [h1]

@[simp] theorem spoilLine_canon (s : State) (group frame line : Nat) (hs : s.Canonical)  : (spoilLine s group frame line).Canonical := by
  unfold spoilLine
  repeat' first
    | assumption
    | with_reducible apply State.lineLoss_canon
    | with_reducible apply scoreEvent_canon
    | split
    | dsimp only
    | refine foldl_canon (fun _ _ _ => ?_) ?_
  all_goals simp [*]

@[simp] theorem scrubLine_canon (s0 : State) (f : RowFinding) (hs0 : s0.Canonical)  : (scrubLine s0 f).Canonical := by
  unfold scrubLine
  split <;> simp [*]

@[simp] theorem State.setSwap_canon (s : State) (w : Swap) (hs : s.Canonical)  : (State.setSwap s w).Canonical := by
  simp [State.setSwap, *]

@[simp] theorem swapReadPages_canon (s0 : State) (group : Nat) (finds : List RowFinding) (hs0 : s0.Canonical)  : (swapReadPages s0 group finds).Canonical := by
  unfold swapReadPages
  repeat' first
    | assumption
    | with_reducible apply scrubLine_canon
    | with_reducible apply State.setSwap_canon
    | split
    | dsimp only
    | refine foldl_canon (fun _ _ _ => ?_) ?_
  all_goals simp [*]

theorem execSwapRead_keeps (r : GroupRead) (s : State) (hs : s.Canonical)  : Keeps (execSwapRead r s) := by
  simp [execSwapRead, *]

@[simp] theorem swapWritePages_canon (s : State) (group : Nat) (hs : s.Canonical)  : (swapWritePages s group).Canonical := by
  unfold swapWritePages
  repeat' first
    | assumption
    | with_reducible apply placePage_canon
    | with_reducible apply State.setSwap_canon
    | with_reducible apply placePage_canon
    | split
    | dsimp only
    | refine foldl_canon (fun _ _ _ => ?_) ?_
  all_goals simp [*]

theorem execSwapWrite_keeps (group : Nat) (s : State) (hs : s.Canonical)  : Keeps (execSwapWrite group s) := by
  simp [execSwapWrite, *]

@[simp] theorem swapCommitMap_canon (s : State) (group : Nat) (hs : s.Canonical)  : (swapCommitMap s group).Canonical := by
  unfold swapCommitMap
  repeat' first
    | assumption
    | with_reducible apply State.event_canon
    | with_reducible apply State.setSwap_canon
    | split
    | dsimp only
    | refine foldl_canon (fun _ _ _ => ?_) ?_
  all_goals simp [*]

theorem execSwapCommit_keeps (group : Nat) (s : State) (hs : s.Canonical)  : Keeps (execSwapCommit group s) := by
  simp [execSwapCommit, *]

@[simp] theorem partDone_canon (s : State) (req : Option Nat) (hs : s.Canonical)  : (partDone s req).Canonical := by
  unfold partDone
  repeat' split
  all_goals simp [*]

@[simp] theorem remoteRead_canon (s : State) (fid : Nat) (ps : List (Nat × Nat × Nat)) (used : Nat × List Addr) (hs : s.Canonical)  : (remoteRead s fid ps used).Canonical := by
  unfold remoteRead
  split <;> simp [*]

@[simp] theorem performWait_canon (s : State) (w : Waiter) (hs : s.Canonical)  : (performWait s w).Canonical := by
  unfold performWait
  repeat' split
  all_goals first
    | (simp [*]; done)
    | exact partDone_canon _ _ (State.poisonAt_canon _ _ _ (State.put_canon _ _ _ hs))

@[simp] theorem swapReleaseHold_canon (s : State) (group : Nat) (hs : s.Canonical)  : (swapReleaseHold s group).Canonical := by
  unfold swapReleaseHold
  dsimp only
  repeat' first | assumption | split | refine foldl_canon (fun _ _ _ => ?_) ?_
  all_goals simp [*]

theorem execSwapRelease_keeps (group : Nat) (s : State) (hs : s.Canonical)  : Keeps (execSwapRelease group s) := by
  simp [execSwapRelease, *]

@[simp] theorem patrolStep_canon (s : State) (domain : Nat) (finds : List RowFinding) (hs : s.Canonical)  : (patrolStep s domain finds).Canonical := by
  unfold patrolStep
  dsimp only
  repeat' first | assumption | split | refine foldl_canon (fun _ _ _ => ?_) ?_
  all_goals simp [*]

theorem execPatrolScrubStep_keeps (domain : Nat) (finds : List RowFinding) (s : State) (hs : s.Canonical)  : Keeps (execPatrolScrubStep domain finds s) := by
  simp [execPatrolScrubStep, *]

theorem execScrubPassEnd_keeps (domain : Nat) (s : State) (hs : s.Canonical)  : Keeps (execScrubPassEnd domain s) := by
  simp [execScrubPassEnd, *]

@[simp] theorem prechargeRow_canon (s : State) (stack row activations : Nat) (read : CounterRead) (hs : s.Canonical)  : (prechargeRow s stack row activations read).Canonical := by
  unfold prechargeRow
  dsimp only
  repeat' split
  all_goals simp [*]

theorem execPrecharge_keeps (stack row activations : Nat) (read : CounterRead) (s : State) (hs : s.Canonical)  : Keeps (execPrecharge stack row activations read s) := by
  simp [execPrecharge, *]

end Sys2Proof.Machine
end

