-- ==== Sys2Proof/Laws/Canon/Platform.lean ====
section
/-! SUPPORT. The canonical form is kept by the operations of Machine/Platform.lean. -/

set_option linter.unusedTactic false
set_option linter.unreachableTactic false
set_option linter.unusedSimpArgs false
set_option linter.unusedVariables false

namespace Sys2Proof.Machine

@[simp] theorem beginInvalidation_canon (s : State) (v : Invalidation) (hs : s.Canonical)  : (beginInvalidation s v).Canonical := by
  simp [beginInvalidation, *]

@[simp] theorem endInvalidation_canon (s : State) (hs : s.Canonical)  : (endInvalidation s).Canonical := by
  unfold endInvalidation
  repeat' split
  all_goals simp [*]

theorem execInvalidationComplete_keeps (s : State) (hs : s.Canonical)  : Keeps (execInvalidationComplete s) := by
  simp [execInvalidationComplete, *]

@[simp] theorem writePtroot_canon (s : State) (ctx : Nat) (v : DWord) (hs : s.Canonical)  : (writePtroot s ctx v).Canonical := by
  unfold writePtroot
  split <;> simp [*]

theorem execPtrootWrite_keeps (ctx : Nat) (v : DWord) (s : State) (hs : s.Canonical)  : Keeps (execPtrootWrite ctx v s) := by
  simp [execPtrootWrite, *]

@[simp] theorem resetFrom_canon (s : State) (p : Plat) (c : Care) (mem : Memory) (poison : List Nat) (hm : mem.wf = true)
    (hp : poison.Pairwise (· < ·)) : (resetFrom s p c mem poison).Canonical := ⟨hm, hp, List.Pairwise.nil⟩

@[simp] theorem coldReset_canon (s : State) (hs : s.Canonical) : (coldReset s).Canonical :=
  resetFrom_canon _ _ _ _ _ (Memory.wf_filter hs.mem _) (rising_filter hs.poison _)

@[simp] theorem endSwap_canon (s : State) (w : Swap) (hs : s.Canonical)  : (endSwap s w).Canonical := by
  unfold endSwap
  dsimp only
  repeat' first | assumption | split | refine foldl_canon (fun _ _ _ => ?_) ?_
  all_goals simp [*]

@[simp] theorem endSwaps_canon (n : Nat) (s : State) (hs : s.Canonical) : (endSwaps n s).Canonical := by
  induction n generalizing s with
  | zero => exact hs
  | succ n ih =>
    unfold endSwaps
    split
    · exact hs
    · exact ih _ (endSwap_canon _ _ hs)

@[simp] theorem warmReset_canon (s : State) (hs : s.Canonical) : (warmReset s).Canonical := by
  unfold warmReset
  extract_lets c0 s0 s1 queued s2 s3 f c keep
  have h1 : s1.Canonical := endSwaps_canon _ _ (canon_same hs)
  have h2 : s2.Canonical := foldl_canon (fun s a h => fateOf_canon _ _ h) (canon_same h1)
  have h3 : s3.Canonical := foldl_canon (fun s a h => fateSteps_canon _ _ _ h) h2
  exact resetFrom_canon _ _ _ _ _ (Memory.wf_filter h3.mem _) (rising_filter h3.poison _)

theorem execPowerOn_keeps (s : State) (hs : s.Canonical)  : Keeps (execPowerOn s) := by
  unfold execPowerOn
  refine (keeps_next _).2 ?_
  repeat' first
    | assumption
    | intro _
    | with_reducible apply coldReset_canon
    | with_reducible apply coldReset_canon
    | refine canon_of_fst (by assumption) ?_
    | refine canon_of_snd (by assumption) ?_
    | refine canon_of_some (by assumption) ?_
    | dsimp only
    | split
    | refine foldl_canon ?_ ?_
    | (simp [*]; done)

theorem execRstcWarm_keeps (s : State) (hs : s.Canonical)  : Keeps (execRstcWarm s) := by
  unfold execRstcWarm
  refine (keeps_next _).2 ?_
  repeat' first
    | assumption
    | intro _
    | with_reducible apply warmReset_canon
    | with_reducible apply warmReset_canon
    | refine canon_of_fst (by assumption) ?_
    | refine canon_of_snd (by assumption) ?_
    | refine canon_of_some (by assumption) ?_
    | dsimp only
    | split
    | refine foldl_canon ?_ ?_
    | (simp [*]; done)

theorem execRstcCold_keeps (s : State) (hs : s.Canonical)  : Keeps (execRstcCold s) := by
  unfold execRstcCold
  refine (keeps_next _).2 ?_
  repeat' first
    | assumption
    | intro _
    | with_reducible apply coldReset_canon
    | with_reducible apply coldReset_canon
    | refine canon_of_fst (by assumption) ?_
    | refine canon_of_snd (by assumption) ?_
    | refine canon_of_some (by assumption) ?_
    | dsimp only
    | split
    | refine foldl_canon ?_ ?_
    | (simp [*]; done)

@[simp] theorem losePower_canon (s : State) (landed : Bool) (hs : s.Canonical) : (losePower s landed).Canonical := by
  unfold losePower
  extract_lets _ p s1
  have h1 : s1.Canonical := coldReset_canon _ (canon_same hs)
  exact canon_same h1

theorem execPowerLoss_keeps (landed : Bool) (s : State) (hs : s.Canonical)  : Keeps (execPowerLoss landed s) := by
  unfold execPowerLoss
  refine (keeps_next _).2 ?_
  repeat' first
    | assumption
    | intro _
    | with_reducible apply losePower_canon
    | with_reducible apply losePower_canon
    | refine canon_of_fst (by assumption) ?_
    | refine canon_of_snd (by assumption) ?_
    | refine canon_of_some (by assumption) ?_
    | dsimp only
    | split
    | refine foldl_canon ?_ ?_
    | (simp [*]; done)

@[simp] theorem verifyImage_canon (s : State) (hs : s.Canonical)  : (verifyImage s).Canonical := by
  unfold verifyImage
  dsimp only
  repeat' split
  all_goals simp [*]

theorem execAttcVerify_keeps (s : State) (hs : s.Canonical)  : Keeps (execAttcVerify s) := by
  simp [execAttcVerify, *]

@[simp] theorem enterCompute_canon (s : State) (hs : s.Canonical)  : (enterCompute s).Canonical := by
  simp [enterCompute, *]

@[simp] theorem advanceStage_canon (s : State) (code : BitVec 8) (hs : s.Canonical)  : (advanceStage s code).Canonical := by
  unfold advanceStage
  dsimp only
  repeat' split
  all_goals simp [*]

theorem execStageAdvance_keeps (failCode : BitVec 8) (s : State) (hs : s.Canonical)  : Keeps (execStageAdvance failCode s) := by
  simp [execStageAdvance, *]

@[simp] theorem writeFuse_canon (s : State) (f : Plat → Plat) (hs : s.Canonical)  : (writeFuse s f).Canonical := by
  unfold writeFuse
  dsimp only
  repeat' split
  all_goals simp [*]

@[simp] theorem revokeKeys_canon (s : State) (bits : BitVec 4) (hs : s.Canonical)  : (revokeKeys s bits).Canonical := by
  simp [revokeKeys, *]

theorem execAttcRevokeKey_keeps (bits : BitVec 4) (s : State) (hs : s.Canonical)  : Keeps (execAttcRevokeKey bits s) := by
  simp [execAttcRevokeKey, *]

@[simp] theorem raiseSvnmin_canon (s : State) (hs : s.Canonical)  : (raiseSvnmin s).Canonical := by
  simp [raiseSvnmin, *]

theorem execAttcRaiseSvnmin_keeps (s : State) (hs : s.Canonical)  : Keeps (execAttcRaiseSvnmin s) := by
  simp [execAttcRaiseSvnmin, *]

@[simp] theorem beginQuote_canon (s : State) (hs : s.Canonical)  : (beginQuote s).Canonical := by
  unfold beginQuote
  dsimp only
  repeat' split
  all_goals simp [*]

theorem execAttcQuote_keeps (s : State) (hs : s.Canonical)  : Keeps (execAttcQuote s) := by
  simp [execAttcQuote, *]

@[simp] theorem endQuote_canon (s : State) (hs : s.Canonical)  : (endQuote s).Canonical := by
  unfold endQuote
  dsimp only
  repeat' split
  all_goals simp [*]

theorem execQuoteReady_keeps (s : State) (hs : s.Canonical)  : Keeps (execQuoteReady s) := by
  simp [execQuoteReady, *]

@[simp] theorem writeWdog_canon (s : State) (v : DWord) (hs : s.Canonical)  : (writeWdog s v).Canonical := by
  simp [writeWdog, *]

theorem execWdogWrite_keeps (v : DWord) (s : State) (hs : s.Canonical)  : Keeps (execWdogWrite v s) := by
  simp [execWdogWrite, *]

@[simp] theorem watchdogPass_canon (s : State) (dt : Nat) (hs : s.Canonical)  : (watchdogPass s dt).Canonical := by
  unfold watchdogPass
  dsimp only
  repeat' split
  all_goals simp [*]

@[simp] theorem firmwareRead_canon (s : State) (pa n : Nat) (hs : s.Canonical)  : (firmwareRead s pa n).2.Canonical := by
  unfold firmwareRead
  split
  · exact countParts_canon _ _ hs
  · exact hs

@[simp] theorem firmwareWrite_canon (s : State) (pa : Nat) (bs : List Byte) (hs : s.Canonical)  : (firmwareWrite s pa bs).Canonical := by
  unfold firmwareWrite
  split
  · exact foldl_canon (fun s p h => performWait_canon _ _ h) hs
  · exact hs

@[simp] theorem firmwareAct_canon (s : State) (a : FirmwareAct) (hs : s.Canonical)  : (firmwareAct s a).Canonical := by
  cases a with
  | read pa n => exact canon_same (firmwareRead_canon s pa n hs)
  | write pa bs => exact firmwareWrite_canon _ _ _ hs

@[simp] theorem controllerRun_canon (s : State) (r : FirmwareRun) (hs : s.Canonical)  : (controllerRun s r).Canonical :=
  watchdogPass_canon _ _ (foldl_canon (fun s a h => firmwareAct_canon _ _ h) hs)

theorem execWatchdogExpiry_keeps (r : FirmwareRun) (s : State) (hs : s.Canonical)  : Keeps (execWatchdogExpiry r s) := by
  simp [execWatchdogExpiry, *]

theorem execPowerClamp_keeps (s : State) (hs : s.Canonical)  : Keeps (execPowerClamp s) := by
  simp [execPowerClamp, *]

theorem execThermalClamp_keeps (s : State) (hs : s.Canonical)  : Keeps (execThermalClamp s) := by
  simp [execThermalClamp, *]

theorem execThermalShutdown_keeps (s : State) (hs : s.Canonical)  : Keeps (execThermalShutdown s) := by
  unfold execThermalShutdown
  dsimp only
  repeat' split
  all_goals simp [*]

@[simp] theorem strike_canon (s : State) (x : Struck) (hs : s.Canonical)  : (strike s x).Canonical := by
  unfold strike
  repeat' split
  all_goals simp [*]

theorem execFaultDetected_keeps (f : FaultReport) (s : State) (hs : s.Canonical)  : Keeps (execFaultDetected f s) := by
  simp [execFaultDetected, *]

@[simp] theorem writeAttc_canon (s : State) (v : DWord) (hs : s.Canonical)  : (writeAttc s v).Canonical := by
  unfold writeAttc
  repeat' split
  all_goals simp [*]

@[simp] theorem writeReg_canon (s : State) (off : Nat) (v : DWord) (hs : s.Canonical)  : (writeReg s off v).Canonical := by
  unfold writeReg
  repeat' split
  all_goals simp [*]

@[simp] theorem writeRegs_canon (s : State) (off : Nat) (bs : List Byte) (hs : s.Canonical)  : (writeRegs s off bs).Canonical := by
  unfold writeRegs
  refine foldl_canon (fun _ _ _ => ?_) ?_ <;> simp [*]

theorem execMgmtRegisterWrite_keeps (off : BitVec 41) (v : DWord) (s : State) (hs : s.Canonical)  : Keeps (execMgmtRegisterWrite off v s) := by
  unfold execMgmtRegisterWrite
  refine (keeps_next _).2 ?_
  repeat' first
    | assumption
    | intro _
    | with_reducible apply State.event_canon
    | with_reducible apply writeReg_canon
    | refine canon_of_fst (by assumption) ?_
    | refine canon_of_snd (by assumption) ?_
    | refine canon_of_some (by assumption) ?_
    | dsimp only
    | split
    | refine foldl_canon ?_ ?_
    | (simp [*]; done)

theorem execDbgcWrite_keeps (core slot : Nat) (v : Word) (s : State) (hs : s.Canonical)  : Keeps (execDbgcWrite core slot v s) := by
  simp [execDbgcWrite, *]

theorem execTswsRead_keeps (seqNo : BitVec 16) (s : State) (hs : s.Canonical)  : Keeps (execTswsRead seqNo s) := by
  simp [execTswsRead, *]

end Sys2Proof.Machine
end

