-- ==== Sys2Proof/Laws/Canon/Link.lean ====
section
/-! SUPPORT. The canonical form is kept by the operations of Machine/Link.lean. -/

set_option linter.unusedTactic false
set_option linter.unreachableTactic false
set_option linter.unusedSimpArgs false
set_option linter.unusedVariables false

namespace Sys2Proof.Machine

@[simp] theorem discard_canon (s : State) (m : HostMsg) (hs : s.Canonical)  : (discard s m).Canonical := by
  simp [discard, *]

@[simp] theorem acquireAll_canon (s : State) (hs : s.Canonical)  : (acquireAll s).Canonical := by
  simp [acquireAll, *]

theorem onMessage_keeps (type : BitVec 8) (m : HostMsg) (s : State) (act : State → State) (hs : s.Canonical) (hact : ∀ s, s.Canonical → (act s).Canonical) : Keeps (onMessage type m s act) := by
  unfold onMessage
  refine (keeps_next _).2 ?_
  repeat' first
    | assumption
    | intro _
    | with_reducible apply discard_canon
    | with_reducible apply acquireAll_canon
    | refine canon_of_fst (by assumption) ?_
    | refine canon_of_snd (by assumption) ?_
    | refine canon_of_some (by assumption) ?_
    | dsimp only
    | split
    | refine foldl_canon ?_ ?_
    | (simp [*]; done)

theorem execMalformedMessage_keeps (m : HostMsg) (s : State) (hs : s.Canonical)  : Keeps (execMalformedMessage m s) := by
  unfold execMalformedMessage
  refine (keeps_next _).2 ?_
  repeat' first
    | assumption
    | intro _
    | with_reducible apply discard_canon
    | refine canon_of_fst (by assumption) ?_
    | refine canon_of_snd (by assumption) ?_
    | refine canon_of_some (by assumption) ?_
    | dsimp only
    | split
    | refine foldl_canon ?_ ?_
    | (simp [*]; done)

theorem execHostPost_keeps (m : HostMsg) (s : State) (hs : s.Canonical)  : Keeps (execHostPost m s) := by
  unfold execHostPost
  refine (keeps_next _).2 ?_
  repeat' first
    | assumption
    | intro _
    | with_reducible apply State.answer_canon
    | with_reducible apply postRecord_canon
    | with_reducible apply onMessage_keeps
    | refine canon_of_fst (by assumption) ?_
    | refine canon_of_snd (by assumption) ?_
    | refine canon_of_some (by assumption) ?_
    | dsimp only
    | split
    | refine foldl_canon ?_ ?_
    | (simp [*]; done)

theorem execHostArrive_keeps (m : HostMsg) (s : State) (hs : s.Canonical)  : Keeps (execHostArrive m s) := by
  unfold execHostArrive
  refine (keeps_next _).2 ?_
  repeat' first
    | assumption
    | intro _
    | with_reducible apply settleRequests_canon
    | with_reducible apply arriveTask_canon
    | with_reducible apply onMessage_keeps
    | refine canon_of_fst (by assumption) ?_
    | refine canon_of_snd (by assumption) ?_
    | refine canon_of_some (by assumption) ?_
    | dsimp only
    | split
    | refine foldl_canon ?_ ?_
    | (simp [*]; done)

@[simp] theorem takeWrite_canon (s : State) (m : HostMsg) (hs : s.Canonical)  : (takeWrite s m).Canonical := by
  unfold takeWrite
  repeat' split
  all_goals simp [*]

theorem execHostWrite_keeps (m : HostMsg) (s : State) (hs : s.Canonical)  : Keeps (execHostWrite m s) := by
  unfold execHostWrite
  refine (keeps_next _).2 ?_
  repeat' first
    | assumption
    | intro _
    | with_reducible apply onMessage_keeps
    | with_reducible apply takeWrite_canon
    | refine canon_of_fst (by assumption) ?_
    | refine canon_of_snd (by assumption) ?_
    | refine canon_of_some (by assumption) ?_
    | dsimp only
    | split
    | refine foldl_canon ?_ ?_
    | (simp [*]; done)

@[simp] theorem applyWrite_canon (s : State) (hs : s.Canonical)  : (applyWrite s).Canonical := by
  unfold applyWrite
  repeat' split
  all_goals simp [*]

theorem execHostWriteApply_keeps (s : State) (hs : s.Canonical)  : Keeps (execHostWriteApply s) := by
  simp [execHostWriteApply, *]

@[simp] theorem takeRead_canon (s : State) (m : HostMsg) (hs : s.Canonical)  : (takeRead s m).Canonical := by
  unfold takeRead
  repeat' first
    | assumption
    | with_reducible apply touchHost_canon
    | with_reducible apply countParts_canon
    | with_reducible apply mgmtReadEffect_canon
    | with_reducible apply State.answer_canon
    | split
    | dsimp only
    | refine foldl_canon (fun _ _ _ => ?_) ?_
  all_goals simp [*]

theorem execHostRead_keeps (m : HostMsg) (s : State) (hs : s.Canonical)  : Keeps (execHostRead m s) := by
  unfold execHostRead
  refine (keeps_next _).2 ?_
  repeat' first
    | assumption
    | intro _
    | with_reducible apply onMessage_keeps
    | with_reducible apply takeRead_canon
    | refine canon_of_fst (by assumption) ?_
    | refine canon_of_snd (by assumption) ?_
    | refine canon_of_some (by assumption) ?_
    | dsimp only
    | split
    | refine foldl_canon ?_ ?_
    | (simp [*]; done)

theorem execHostInv_keeps (m : HostMsg) (s : State) (hs : s.Canonical)  : Keeps (execHostInv m s) := by
  unfold execHostInv
  refine (keeps_next _).2 ?_
  repeat' first
    | assumption
    | intro _
    | with_reducible apply beginInvalidation_canon
    | with_reducible apply onMessage_keeps
    | refine canon_of_fst (by assumption) ?_
    | refine canon_of_snd (by assumption) ?_
    | refine canon_of_some (by assumption) ?_
    | dsimp only
    | split
    | refine foldl_canon ?_ ?_
    | (simp [*]; done)

theorem execHostPreempt_keeps (m : HostMsg) (s : State) (hs : s.Canonical)  : Keeps (execHostPreempt m s) := by
  unfold execHostPreempt
  refine (keeps_next _).2 ?_
  repeat' first
    | assumption
    | intro _
    | with_reducible apply settleRequests_canon
    | with_reducible apply requestPreempt_canon
    | with_reducible apply onMessage_keeps
    | refine canon_of_fst (by assumption) ?_
    | refine canon_of_snd (by assumption) ?_
    | refine canon_of_some (by assumption) ?_
    | dsimp only
    | split
    | refine foldl_canon ?_ ?_
    | (simp [*]; done)

theorem execHostResume_keeps (m : HostMsg) (s : State) (hs : s.Canonical)  : Keeps (execHostResume m s) := by
  unfold execHostResume
  refine (keeps_next _).2 ?_
  repeat' first
    | assumption
    | intro _
    | with_reducible apply State.answer_canon
    | with_reducible apply resumeTasks_canon
    | with_reducible apply onMessage_keeps
    | refine canon_of_fst (by assumption) ?_
    | refine canon_of_snd (by assumption) ?_
    | refine canon_of_some (by assumption) ?_
    | dsimp only
    | split
    | refine foldl_canon ?_ ?_
    | (simp [*]; done)

theorem execHostSave_keeps (m : HostMsg) (s : State) (hs : s.Canonical)  : Keeps (execHostSave m s) := by
  unfold execHostSave
  refine (keeps_next _).2 ?_
  repeat' first
    | assumption
    | intro _
    | with_reducible apply flushSaves_canon
    | with_reducible apply beginSave_canon
    | with_reducible apply onMessage_keeps
    | refine canon_of_fst (by assumption) ?_
    | refine canon_of_snd (by assumption) ?_
    | refine canon_of_some (by assumption) ?_
    | dsimp only
    | split
    | refine foldl_canon ?_ ?_
    | (simp [*]; done)

theorem execHostRestore_keeps (m : HostMsg) (s : State) (hs : s.Canonical) : Keeps (execHostRestore m s) := by
  refine onMessage_keeps _ _ _ _ hs (fun s h => ?_)
  split
  · exact State.answer_canon _ _ _ _ _ _ h
  · have hr := restoreContext_canon s m.ctx.toNat m.arg.toNat h
    split
    · rename_i e
      exact State.answer_canon _ _ _ _ _ _ (hr _ (.inl e))
    · exact State.answer_canon _ _ _ _ _ _ h
    · rename_i e
      exact State.answer_canon _ _ _ _ _ _ (hr _ (.inr e))
    · exact h

theorem execHostReset_keeps (m : HostMsg) (s : State) (hs : s.Canonical)  : Keeps (execHostReset m s) := by
  unfold execHostReset
  refine (keeps_next _).2 ?_
  repeat' first
    | assumption
    | intro _
    | with_reducible apply forcedReset_canon
    | with_reducible apply State.answer_canon
    | with_reducible apply settleRequests_canon
    | with_reducible apply onMessage_keeps
    | refine canon_of_fst (by assumption) ?_
    | refine canon_of_snd (by assumption) ?_
    | refine canon_of_some (by assumption) ?_
    | dsimp only
    | split
    | refine foldl_canon ?_ ?_
    | (simp [*]; done)

end Sys2Proof.Machine
end

