-- ==== Sys2Proof/Laws/Canon/Fabric.lean ====
section
/-! SUPPORT. The canonical form is kept by the operations of Machine/Fabric.lean. -/

set_option linter.unusedTactic false
set_option linter.unreachableTactic false
set_option linter.unusedSimpArgs false
set_option linter.unusedVariables false

namespace Sys2Proof.Machine

@[simp] theorem remoteAccess_canon (s : State) (r : RemoteReq) (hs : s.Canonical) : (remoteAccess s r).Canonical := by
  unfold remoteAccess
  dsimp only
  split
  · exact State.remoteAnswer_canon _ _ _ _ (ite_canon hs (State.touchRange_canon _ _ _ _ hs))
  · have h1 := fun n => State.touchRange_canon s r.rctx.toNat r.va.toNat n hs
    exact ite_canon (remoteRead_canon _ _ _ _ (h1 _)) (ite_canon (State.remoteAnswer_canon _ _ _ _ (h1 _))
      (foldl_canon (fun s p h => performWait_canon _ _ h) (canon_same (State.fresh_canon _ (h1 _)))))

theorem execRemoteAccessRequest_keeps (r : RemoteReq) (s : State) (hs : s.Canonical)  : Keeps (execRemoteAccessRequest r s) := by
  unfold execRemoteAccessRequest
  refine (keeps_next _).2 ?_
  repeat' first
    | assumption
    | intro _
    | with_reducible apply remoteAccess_canon
    | with_reducible apply remoteAccess_canon
    | refine canon_of_fst (by assumption) ?_
    | refine canon_of_snd (by assumption) ?_
    | refine canon_of_some (by assumption) ?_
    | dsimp only
    | split
    | refine foldl_canon ?_ ?_
    | (simp [*]; done)

@[simp] theorem retryTargets_canon (s : State) (hs : s.Canonical)  : (retryTargets s).Canonical := by
  unfold retryTargets
  dsimp only
  repeat' first | assumption | split | refine foldl_canon (fun _ _ _ => ?_) ?_
  all_goals simp [*]

@[simp] theorem targetAnswer_canon (s : State) (ctx page : Nat) (ans : TargetAnswer) (hs : s.Canonical)  : (targetAnswer s ctx page ans).Canonical := by
  simp [targetAnswer, *]

theorem execTargetCheckAnswer_keeps (ctx : Nat) (page : Addr) (ans : TargetAnswer) (s : State) (hs : s.Canonical)  : Keeps (execTargetCheckAnswer ctx page ans s) := by
  unfold execTargetCheckAnswer
  refine (keeps_next _).2 ?_
  repeat' first
    | assumption
    | intro _
    | with_reducible apply targetAnswer_canon
    | refine canon_of_fst (by assumption) ?_
    | refine canon_of_snd (by assumption) ?_
    | refine canon_of_some (by assumption) ?_
    | dsimp only
    | split
    | refine foldl_canon ?_ ?_
    | (simp [*]; done)

@[simp] theorem abortInstance_canon (s : State) (c : Collective) (hs : s.Canonical)  : (abortInstance s c).Canonical := by
  unfold abortInstance
  dsimp only
  repeat' split
  all_goals simp [*]

@[simp] theorem targetDead_canon (s : State) (fid dt : Nat) (hs : s.Canonical)  : (targetDead s fid dt).Canonical := by
  unfold targetDead
  dsimp only
  repeat' first | assumption | split | refine foldl_canon (fun _ _ _ => ?_) ?_
  all_goals simp [*]

theorem execFabricUnreachable_keeps (fid dt : Nat) (s : State) (hs : s.Canonical)  : Keeps (execFabricUnreachable fid dt s) := by
  unfold execFabricUnreachable
  refine (keeps_next _).2 ?_
  repeat' first
    | assumption
    | intro _
    | with_reducible apply targetDead_canon
    | refine canon_of_fst (by assumption) ?_
    | refine canon_of_snd (by assumption) ?_
    | refine canon_of_some (by assumption) ?_
    | dsimp only
    | split
    | refine foldl_canon ?_ ?_
    | (simp [*]; done)

theorem execCollectiveDataArrival_keeps (d : PeerData) (s : State) (hs : s.Canonical)  : Keeps (execCollectiveDataArrival d s) := by
  unfold execCollectiveDataArrival
  dsimp only
  repeat' split
  all_goals simp [*]

@[simp] theorem setInst_canon (s : State) (c : Collective) (hs : s.Canonical)  : (setInst s c).Canonical := by
  simp [setInst, *]

@[simp] theorem collectiveStep_canon (s : State) (slot : Nat) (hs : s.Canonical)  : (collectiveStep s slot).Canonical := by
  unfold collectiveStep
  dsimp only
  repeat' split
  all_goals simp [*]

theorem execCollectiveComplete_keeps (slot : Nat) (s : State) (hs : s.Canonical)  : Keeps (execCollectiveComplete slot s) := by
  simp [execCollectiveComplete, *]

@[simp] theorem abortArrives_canon (s : State) (cid : DWord) (hs : s.Canonical)  : (abortArrives s cid).Canonical := by
  unfold abortArrives
  repeat' split
  all_goals simp [*]

theorem execCollectiveAbortReceive_keeps (cid : DWord) (s : State) (hs : s.Canonical)  : Keeps (execCollectiveAbortReceive cid s) := by
  unfold execCollectiveAbortReceive
  refine (keeps_next _).2 ?_
  repeat' first
    | assumption
    | intro _
    | with_reducible apply abortArrives_canon
    | refine canon_of_fst (by assumption) ?_
    | refine canon_of_snd (by assumption) ?_
    | refine canon_of_some (by assumption) ?_
    | dsimp only
    | split
    | refine foldl_canon ?_ ?_
    | (simp [*]; done)

end Sys2Proof.Machine
end

