-- ==== Sys2Proof/Laws/Canon/Scalar.lean ====
section
/-! SUPPORT. The canonical form is kept by the operations of Machine/Scalar.lean. -/

set_option linter.unusedTactic false
set_option linter.unreachableTactic false
set_option linter.unusedSimpArgs false
set_option linter.unusedVariables false

namespace Sys2Proof.Machine

theorem bin64s_keeps (i : UInstr) (d a b : SReg) (f : DWord → DWord → DWord) (s : State) (hs : s.Canonical)  : Keeps (bin64s i d a b f s) := by
  exact scalarOp_keeps _ _ _ _ hs

theorem execSadd_keeps (d a b : SReg) (s : State) (hs : s.Canonical)  : Keeps (execSadd d a b s) := by
  unfold execSadd
  with_reducible apply bin64s_keeps
  assumption

theorem execSsub_keeps (d a b : SReg) (s : State) (hs : s.Canonical)  : Keeps (execSsub d a b s) := by
  unfold execSsub
  with_reducible apply bin64s_keeps
  assumption

theorem execSmul_keeps (d a b : SReg) (s : State) (hs : s.Canonical)  : Keeps (execSmul d a b s) := by
  unfold execSmul
  with_reducible apply bin64s_keeps
  assumption

theorem execSmulh_keeps (d a b : SReg) (s : State) (hs : s.Canonical)  : Keeps (execSmulh d a b s) := by
  unfold execSmulh
  with_reducible apply bin64s_keeps
  assumption

theorem execSand_keeps (d a b : SReg) (s : State) (hs : s.Canonical)  : Keeps (execSand d a b s) := by
  unfold execSand
  with_reducible apply bin64s_keeps
  assumption

theorem execSor_keeps (d a b : SReg) (s : State) (hs : s.Canonical)  : Keeps (execSor d a b s) := by
  unfold execSor
  with_reducible apply bin64s_keeps
  assumption

theorem execSxor_keeps (d a b : SReg) (s : State) (hs : s.Canonical)  : Keeps (execSxor d a b s) := by
  unfold execSxor
  with_reducible apply bin64s_keeps
  assumption

theorem execSandn_keeps (d a b : SReg) (s : State) (hs : s.Canonical)  : Keeps (execSandn d a b s) := by
  unfold execSandn
  with_reducible apply bin64s_keeps
  assumption

theorem execSshl_keeps (d a b : SReg) (s : State) (hs : s.Canonical)  : Keeps (execSshl d a b s) := by
  unfold execSshl
  with_reducible apply bin64s_keeps
  assumption

theorem execSshr_keeps (d a b : SReg) (s : State) (hs : s.Canonical)  : Keeps (execSshr d a b s) := by
  unfold execSshr
  with_reducible apply bin64s_keeps
  assumption

theorem execSsar_keeps (d a b : SReg) (s : State) (hs : s.Canonical)  : Keeps (execSsar d a b s) := by
  unfold execSsar
  with_reducible apply bin64s_keeps
  assumption

theorem execSmin_keeps (d a b : SReg) (s : State) (hs : s.Canonical)  : Keeps (execSmin d a b s) := by
  unfold execSmin
  with_reducible apply bin64s_keeps
  assumption

theorem execSmax_keeps (d a b : SReg) (s : State) (hs : s.Canonical)  : Keeps (execSmax d a b s) := by
  unfold execSmax
  with_reducible apply bin64s_keeps
  assumption

theorem execSminz_keeps (d a b : SReg) (s : State) (hs : s.Canonical)  : Keeps (execSminz d a b s) := by
  unfold execSminz
  with_reducible apply bin64s_keeps
  assumption

theorem execSmaxz_keeps (d a b : SReg) (s : State) (hs : s.Canonical)  : Keeps (execSmaxz d a b s) := by
  unfold execSmaxz
  with_reducible apply bin64s_keeps
  assumption

theorem execSmov_keeps (d a : SReg) (s : State) (hs : s.Canonical)  : Keeps (execSmov d a s) := by
  exact scalarOp_keeps _ _ _ _ hs

theorem immScalar_keeps (i : UInstr) (d a : SReg) (imm : BitVec 13) (f : DWord → DWord → DWord) (s : State) (hs : s.Canonical)  : Keeps (immScalar i d a imm f s) := by
  exact scalarOp_keeps _ _ _ _ hs

theorem execSaddi_keeps (d a : SReg) (i : BitVec 13) (s : State) (hs : s.Canonical)  : Keeps (execSaddi d a i s) := by
  unfold execSaddi
  with_reducible apply immScalar_keeps
  assumption

theorem execSandi_keeps (d a : SReg) (i : BitVec 13) (s : State) (hs : s.Canonical)  : Keeps (execSandi d a i s) := by
  unfold execSandi
  with_reducible apply immScalar_keeps
  assumption

theorem execSori_keeps (d a : SReg) (i : BitVec 13) (s : State) (hs : s.Canonical)  : Keeps (execSori d a i s) := by
  unfold execSori
  with_reducible apply immScalar_keeps
  assumption

theorem execSshli_keeps (d a : SReg) (n : BitVec 6) (s : State) (hs : s.Canonical)  : Keeps (execSshli d a n s) := by
  exact scalarOp_keeps _ _ _ _ hs

theorem execSshri_keeps (d a : SReg) (n : BitVec 6) (s : State) (hs : s.Canonical)  : Keeps (execSshri d a n s) := by
  exact scalarOp_keeps _ _ _ _ hs

theorem execSsari_keeps (d a : SReg) (n : BitVec 6) (s : State) (hs : s.Canonical)  : Keeps (execSsari d a n s) := by
  exact scalarOp_keeps _ _ _ _ hs

theorem execSmovi_keeps (d : SReg) (i : BitVec 19) (s : State) (hs : s.Canonical)  : Keeps (execSmovi d i s) := by
  exact scalarOp_keeps _ _ _ _ hs

theorem execScmp_keeps (c : BitVec 4) (d a b : SReg) (s : State) (hs : s.Canonical)  : Keeps (execScmp c d a b s) := by
  exact scalarOp_keeps _ _ _ _ hs

theorem execVbcast_keeps (v : VReg) (r : SReg) (i : BitVec 8) (s : State) (hs : s.Canonical)  : Keeps (execVbcast v r i s) := by
  refine uset_keeps _ _ _ hs (fun x s h => ?_)
  dsimp only
  repeat' split
  all_goals simp [*]

theorem execVread_keeps (v : VReg) (r : SReg) (i : BitVec 8) (s : State) (hs : s.Canonical)  : Keeps (execVread v r i s) := by
  exact uset_keeps _ _ _ hs (fun x s h => by simp [*])

theorem execMread_keeps (r : SReg) (i : BitVec 8) (s : State) (hs : s.Canonical)  : Keeps (execMread r i s) := by
  exact uset_keeps _ _ _ hs (fun x s h => by simp [*])

theorem execMwrite_keeps (r : SReg) (i : BitVec 8) (s : State) (hs : s.Canonical)  : Keeps (execMwrite r i s) := by
  refine uset_keeps _ _ _ hs (fun x s h => ?_)
  dsimp only
  repeat' split
  all_goals simp [*]

theorem execPread_keeps (r : SReg) (i : BitVec 8) (s : State) (hs : s.Canonical)  : Keeps (execPread r i s) := by
  exact uset_keeps _ _ _ hs (fun x s h => by simp [*])

theorem execKread_keeps (r : SReg) (i : BitVec 8) (s : State) (hs : s.Canonical)  : Keeps (execKread r i s) := by
  refine uset_keeps _ _ _ hs (fun x s h => ?_)
  repeat' first
    | assumption
    | intro _
    | with_reducible apply setSval_canon
    | with_reducible apply trapUnit_canon
    | with_reducible apply uset_keeps
    | (simp [*]; done)
    | split
    | dsimp only
    | refine foldl_canon ?_ ?_

end Sys2Proof.Machine
end

