-- ==== Sys2Proof/Laws/Canon/Exec.lean ====
section
/-! SUPPORT. Every instruction and event keeps the canonical form. -/

namespace Sys2Proof.Machine

theorem exec_keeps (i : Instr) (s : State) (hs : s.Canonical) : Keeps (exec i s) :=
  match i with
  | .iadd u d a b => execIadd_keeps u d a b s hs
  | .isub u d a b => execIsub_keeps u d a b s hs
  | .imul u d a b => execImul_keeps u d a b s hs
  | .imulh u d a b => execImulh_keeps u d a b s hs
  | .imulhz u d a b => execImulhz_keeps u d a b s hs
  | .imin u d a b => execImin_keeps u d a b s hs
  | .imax u d a b => execImax_keeps u d a b s hs
  | .iminz u d a b => execIminz_keeps u d a b s hs
  | .imaxz u d a b => execImaxz_keeps u d a b s hs
  | .iabs u d a => execIabs_keeps u d a s hs
  | .and u d a b => execAnd_keeps u d a b s hs
  | .or u d a b => execOr_keeps u d a b s hs
  | .xor u d a b => execXor_keeps u d a b s hs
  | .andn u d a b => execAndn_keeps u d a b s hs
  | .shl u d a b => execShl_keeps u d a b s hs
  | .shr u d a b => execShr_keeps u d a b s hs
  | .sar u d a b => execSar_keeps u d a b s hs
  | .rotl u d a b => execRotl_keeps u d a b s hs
  | .popc u d a => execPopc_keeps u d a s hs
  | .clz u d a => execClz_keeps u d a s hs
  | .ctz u d a => execCtz_keeps u d a s hs
  | .brev u d a => execBrev_keeps u d a s hs
  | .bswap u d a => execBswap_keeps u d a s hs
  | .imad u d a b => execImad_keeps u d a b s hs
  | .bfx u d a b => execBfx_keeps u d a b s hs
  | .bfi u d a b => execBfi_keeps u d a b s hs
  | .iadd64 u d a b => execIadd64_keeps u d a b s hs
  | .isub64 u d a b => execIsub64_keeps u d a b s hs
  | .imulw u d a b => execImulw_keeps u d a b s hs
  | .mov u d a => execMov_keeps u d a s hs
  | .iaddi u d a im => execIaddi_keeps u d a im s hs
  | .andi u d a im => execAndi_keeps u d a im s hs
  | .ori u d a im => execOri_keeps u d a im s hs
  | .xori u d a im => execXori_keeps u d a im s hs
  | .shli u d a n => execShli_keeps u d a n s hs
  | .shri u d a n => execShri_keeps u d a n s hs
  | .sari u d a n => execSari_keeps u d a n s hs
  | .rotli u d a n => execRotli_keeps u d a n s hs
  | .movi u d im => execMovi_keeps u d im s hs
  | .icmp u c p a b n => execIcmp_keeps u c p a b n s hs
  | .fcmp u c p a b n => execFcmp_keeps u c p a b n s hs
  | .dcmp u c p a b n => execDcmp_keeps u c p a b n s hs
  | .sel u d a p => execSel_keeps u d a p s hs
  | .pset u a p => execPset_keeps u a p s hs
  | .ptest u d p => execPtest_keeps u d p s hs
  | .pand u p q r => execPand_keeps u p q r s hs
  | .por u p q r => execPor_keeps u p q r s hs
  | .pxor u p q r => execPxor_keeps u p q r s hs
  | .pandn u p q r => execPandn_keeps u p q r s hs
  | .pnot u p q => execPnot_keeps u p q s hs
  | .pmov u p q => execPmov_keeps u p q s hs
  | .fadd u d a b => execFadd_keeps u d a b s hs
  | .fsub u d a b => execFsub_keeps u d a b s hs
  | .fmul u d a b => execFmul_keeps u d a b s hs
  | .ffma u d a b => execFfma_keeps u d a b s hs
  | .ffms u d a b => execFfms_keeps u d a b s hs
  | .fmin u d a b => execFmin_keeps u d a b s hs
  | .fmax u d a b => execFmax_keeps u d a b s hs
  | .fabs u d a => execFabs_keeps u d a s hs
  | .fneg u d a => execFneg_keeps u d a s hs
  | .fcps u d a b => execFcps_keeps u d a b s hs
  | .frnd u d a r => execFrnd_keeps u d a r s hs
  | .fclass u d a => execFclass_keeps u d a s hs
  | .dadd u d a b => execDadd_keeps u d a b s hs
  | .dsub u d a b => execDsub_keeps u d a b s hs
  | .dmul u d a b => execDmul_keeps u d a b s hs
  | .dfma u d a b => execDfma_keeps u d a b s hs
  | .dfms u d a b => execDfms_keeps u d a b s hs
  | .dmin u d a b => execDmin_keeps u d a b s hs
  | .dmax u d a b => execDmax_keeps u d a b s hs
  | .dabs u d a => execDabs_keeps u d a s hs
  | .dneg u d a => execDneg_keeps u d a s hs
  | .drnd u d a r => execDrnd_keeps u d a r s hs
  | .dclass u d a => execDclass_keeps u d a s hs
  | .hadd2 u d a b => execHadd2_keeps u d a b s hs
  | .hmul2 u d a b => execHmul2_keeps u d a b s hs
  | .hfma2 u d a b => execHfma2_keeps u d a b s hs
  | .hmin2 u d a b => execHmin2_keeps u d a b s hs
  | .hmax2 u d a b => execHmax2_keeps u d a b s hs
  | .badd2 u d a b => execBadd2_keeps u d a b s hs
  | .bmul2 u d a b => execBmul2_keeps u d a b s hs
  | .bfma2 u d a b => execBfma2_keeps u d a b s hs
  | .bmin2 u d a b => execBmin2_keeps u d a b s hs
  | .bmax2 u d a b => execBmax2_keeps u d a b s hs
  | .frcp u d a k => execFrcp_keeps u d a k s hs
  | .frsq u d a k => execFrsq_keeps u d a k s hs
  | .fsqrt u d a k => execFsqrt_keeps u d a k s hs
  | .fexp2 u d a k => execFexp2_keeps u d a k s hs
  | .flog2 u d a k => execFlog2_keeps u d a k s hs
  | .fsinp u d a k => execFsinp_keeps u d a k s hs
  | .fcosp u d a k => execFcosp_keeps u d a k s hs
  | .drcp u d a k => execDrcp_keeps u d a k s hs
  | .drsq u d a k => execDrsq_keeps u d a k s hs
  | .dsqrt u d a k => execDsqrt_keeps u d a k s hs
  | .cvt u f d a r p => execCvt_keeps u f d a r p s hs
  | .ldlB32 d a k sc => execLdlB32_keeps d a k sc s hs
  | .ldlB64 d a k sc => execLdlB64_keeps d a k sc s hs
  | .stlB32 d a k sc => execStlB32_keeps d a k sc s hs
  | .stlB64 d a k sc => execStlB64_keeps d a k sc s hs
  | .ldsS8 u d a k sc => execLdsS8_keeps u d a k sc s hs
  | .ldsZ8 u d a k sc => execLdsZ8_keeps u d a k sc s hs
  | .ldsS16 u d a k sc => execLdsS16_keeps u d a k sc s hs
  | .ldsZ16 u d a k sc => execLdsZ16_keeps u d a k sc s hs
  | .ldsB32 u d a k sc => execLdsB32_keeps u d a k sc s hs
  | .ldsB64 u d a k sc => execLdsB64_keeps u d a k sc s hs
  | .ldsB128 u d a k sc => execLdsB128_keeps u d a k sc s hs
  | .stsB8 d a k sc => execStsB8_keeps d a k sc s hs
  | .stsB16 d a k sc => execStsB16_keeps d a k sc s hs
  | .stsB32 d a k sc => execStsB32_keeps d a k sc s hs
  | .stsB64 d a k sc => execStsB64_keeps d a k sc s hs
  | .stsB128 d a k sc => execStsB128_keeps d a k sc s hs
  | .ldcB32 u d a k sc => execLdcB32_keeps u d a k sc s hs
  | .ldcB64 u d a k sc => execLdcB64_keeps u d a k sc s hs
  | .ldcB128 u d a k sc => execLdcB128_keeps u d a k sc s hs
  | .stcB32 d a k sc => execStcB32_keeps d a k sc s hs
  | .stcB64 d a k sc => execStcB64_keeps d a k sc s hs
  | .stcB128 d a k sc => execStcB128_keeps d a k sc s hs
  | .ldcAcqB32 d a k sc => execLdcAcqB32_keeps d a k sc s hs
  | .ldcAcqB64 d a k sc => execLdcAcqB64_keeps d a k sc s hs
  | .stcRelB32 d a k sc => execStcRelB32_keeps d a k sc s hs
  | .stcRelB64 d a k sc => execStcRelB64_keeps d a k sc s hs
  | .prs d a k sc => execPrs_keeps d a k sc s hs
  | .atomsAdd d a k sc => execAtomsAdd_keeps d a k sc s hs
  | .atomsMin d a k sc => execAtomsMin_keeps d a k sc s hs
  | .atomsMax d a k sc => execAtomsMax_keeps d a k sc s hs
  | .atomsMinz d a k sc => execAtomsMinz_keeps d a k sc s hs
  | .atomsMaxz d a k sc => execAtomsMaxz_keeps d a k sc s hs
  | .atomsAnd d a k sc => execAtomsAnd_keeps d a k sc s hs
  | .atomsOr d a k sc => execAtomsOr_keeps d a k sc s hs
  | .atomsXor d a k sc => execAtomsXor_keeps d a k sc s hs
  | .atomsXchg d a k sc => execAtomsXchg_keeps d a k sc s hs
  | .atomsCas d a k sc => execAtomsCas_keeps d a k sc s hs
  | .atomsFadd d a k sc => execAtomsFadd_keeps d a k sc s hs
  | .atomsAdd64 d a k sc => execAtomsAdd64_keeps d a k sc s hs
  | .atomcAdd d a k sc => execAtomcAdd_keeps d a k sc s hs
  | .atomcMin d a k sc => execAtomcMin_keeps d a k sc s hs
  | .atomcMax d a k sc => execAtomcMax_keeps d a k sc s hs
  | .atomcMinz d a k sc => execAtomcMinz_keeps d a k sc s hs
  | .atomcMaxz d a k sc => execAtomcMaxz_keeps d a k sc s hs
  | .atomcAnd d a k sc => execAtomcAnd_keeps d a k sc s hs
  | .atomcOr d a k sc => execAtomcOr_keeps d a k sc s hs
  | .atomcXor d a k sc => execAtomcXor_keeps d a k sc s hs
  | .atomcXchg d a k sc => execAtomcXchg_keeps d a k sc s hs
  | .atomcCas d a k sc => execAtomcCas_keeps d a k sc s hs
  | .atomcFadd d a k sc => execAtomcFadd_keeps d a k sc s hs
  | .atomcDadd d a k sc => execAtomcDadd_keeps d a k sc s hs
  | .atomcAdd64 d a k sc => execAtomcAdd64_keeps d a k sc s hs
  | .atomcMaxloc d a k sc => execAtomcMaxloc_keeps d a k sc s hs
  | .atomcMinloc d a k sc => execAtomcMinloc_keeps d a k sc s hs
  | .gathB32 d a k sc => execGathB32_keeps d a k sc s hs
  | .gathB64 d a k sc => execGathB64_keeps d a k sc s hs
  | .scatB32 d a k => execScatB32_keeps d a k s hs
  | .scatB64 d a k => execScatB64_keeps d a k s hs
  | .xchPick d a m => execXchPick_keeps d a m s hs
  | .xchMove d a m e => execXchMove_keeps d a m e s hs
  | .xchFlip d a m e => execXchFlip_keeps d a m e s hs
  | .xchEdge d a m e => execXchEdge_keeps d a m e s hs
  | .qryCnt d a m => execQryCnt_keeps d a m s hs
  | .qryEvery d a m => execQryEvery_keeps d a m s hs
  | .qryBits d a m e => execQryBits_keeps d a m e s hs
  | .redIadd d a m => execRedIadd_keeps d a m s hs
  | .redImin d a m => execRedImin_keeps d a m s hs
  | .redImax d a m => execRedImax_keeps d a m s hs
  | .redFadd d a m => execRedFadd_keeps d a m s hs
  | .redFmin d a m => execRedFmin_keeps d a m s hs
  | .redFmax d a m => execRedFmax_keeps d a m s hs
  | .scanIadd d a m e => execScanIadd_keeps d a m e s hs
  | .scanFadd d a m e => execScanFadd_keeps d a m e s hs
  | .maxloc d a m e => execMaxloc_keeps d a m e s hs
  | .segredIadd d a m => execSegredIadd_keeps d a m s hs
  | .segredFadd d a m => execSegredFadd_keeps d a m s hs
  | .segscanFadd d a m => execSegscanFadd_keeps d a m s hs
  | .matchLanes d a m e => execMatchLanes_keeps d a m e s hs
  | .compact d a m e => execCompact_keeps d a m e s hs
  | .lsort d a m e => execLsort_keeps d a m e s hs
  | .bra p n k sc => execBra_keeps p n k sc s hs
  | .rjm m => execRjm_keeps m s hs
  | .rjadd m => execRjadd_keeps m s hs
  | .join m => execJoin_keeps m s hs
  | .exit => execExit_keeps s hs
  | .exits a n => execExits_keeps a n s hs
  | .regroup p n => execRegroup_keeps p n s hs
  | .yield => execYield_keeps s hs
  | .dly n => execDly_keeps n s hs
  | .waitk k t => execWaitk_keeps k t s hs
  | .guard p n => execGuard_keeps p n s hs
  | .bkpt => execBkpt_keeps s hs
  | .trap c => execTrap_keeps c s hs
  | .nop => execNop_keeps s hs
  | .kacc d a b k => execKacc_keeps d a b k s hs
  | .kfind d a sc k => execKfind_keeps d a sc k s hs
  | .rngB32 d k => execRngB32_keeps d k s hs
  | .rngF32 d k => execRngF32_keeps d k s hs
  | .rdspec d sc k => execRdspec_keeps d sc k s hs
  | .cycle d k => execCycle_keeps d k s hs
  | .mxgo a sc k => execMxgo_keeps a sc k s hs
  | .sadd d a b => execSadd_keeps d a b s hs
  | .ssub d a b => execSsub_keeps d a b s hs
  | .smul d a b => execSmul_keeps d a b s hs
  | .smulh d a b => execSmulh_keeps d a b s hs
  | .sand d a b => execSand_keeps d a b s hs
  | .sor d a b => execSor_keeps d a b s hs
  | .sxor d a b => execSxor_keeps d a b s hs
  | .sandn d a b => execSandn_keeps d a b s hs
  | .sshl d a b => execSshl_keeps d a b s hs
  | .sshr d a b => execSshr_keeps d a b s hs
  | .ssar d a b => execSsar_keeps d a b s hs
  | .smin d a b => execSmin_keeps d a b s hs
  | .smax d a b => execSmax_keeps d a b s hs
  | .sminz d a b => execSminz_keeps d a b s hs
  | .smaxz d a b => execSmaxz_keeps d a b s hs
  | .smov d a => execSmov_keeps d a s hs
  | .saddi d a im => execSaddi_keeps d a im s hs
  | .sandi d a im => execSandi_keeps d a im s hs
  | .sori d a im => execSori_keeps d a im s hs
  | .sshli d a n => execSshli_keeps d a n s hs
  | .sshri d a n => execSshri_keeps d a n s hs
  | .ssari d a n => execSsari_keeps d a n s hs
  | .smovi d im => execSmovi_keeps d im s hs
  | .scmp c d a b => execScmp_keeps c d a b s hs
  | .sbr c a sc => execSbr_keeps c a sc s hs
  | .jmp im => execJmp_keeps im s hs
  | .call im => execCall_keeps im s hs
  | .ret a => execRet_keeps a s hs
  | .pfx p => execPfx_keeps p s hs
  | .vbcast v sc im => execVbcast_keeps v sc im s hs
  | .vread v sc im => execVread_keeps v sc im s hs
  | .mread sc im => execMread_keeps sc im s hs
  | .mwrite sc im => execMwrite_keeps sc im s hs
  | .pread sc im => execPread_keeps sc im s hs
  | .kread sc im => execKread_keeps sc im s hs
  | .sldB32 a b k im => execSldB32_keeps a b k im s hs
  | .sldB64 a b k im => execSldB64_keeps a b k im s hs
  | .sstB32 a b k im => execSstB32_keeps a b k im s hs
  | .sstB64 a b k im => execSstB64_keeps a b k im s hs
  | .sldcB64 a b k im => execSldcB64_keeps a b k im s hs
  | .sstcB64 a b k im => execSstcB64_keeps a b k im s hs
  | .tld a b k n => execTld_keeps a b k n s hs
  | .tst a b k n => execTst_keeps a b k n s hs
  | .tzero k n => execTzero_keeps k n s hs
  | .accld a b k n => execAccld_keeps a b k n s hs
  | .accst a b k n => execAccst_keeps a b k n s hs
  | .accz k n => execAccz_keeps k n s hs
  | .movsh a k n => execMovsh_keeps a k n s hs
  | .tcvt a k n => execTcvt_keeps a k n s hs
  | .tspk a k n => execTspk_keeps a k n s hs
  | .tqld a k n => execTqld_keeps a k n s hs
  | .cpyIn a b k => execCpyIn_keeps a b k s hs
  | .cpyOut a b k => execCpyOut_keeps a b k s hs
  | .cpyCc a b k => execCpyCc_keeps a b k s hs
  | .cupop a b k o => execCupop_keeps a b k o s hs
  | .kcfg a b k => execKcfg_keeps a b k s hs
  | .kcfgStream b k => execKcfgStream_keeps b k s hs
  | .kdrain a b k im => execKdrain_keeps a b k im s hs
  | .kclr k => execKclr_keeps k s hs
  | .kstat a k im => execKstat_keeps a k im s hs
  | .post a b k im => execPost_keeps a b k im s hs
  | .arrive a b k => execArrive_keeps a b k s hs
  | .append a b k im => execAppend_keeps a b k im s hs
  | .seal a k => execSeal_keeps a k s hs
  | .waitbm a b => execWaitbm_keeps a b s hs
  | .tbar => execTbar_keeps s hs
  | .pbar => execPbar_keeps s hs
  | .dqpush a k => execDqpush_keeps a k s hs
  | .dqpop a k => execDqpop_keeps a k s hs
  | .getc d b => execGetc_keeps d b s hs
  | .setc d a => execSetc_keeps d a s hs
  | .eret => execEret_keeps s hs
  | .fence d => execFence_keeps d s hs
  | .synce => execSynce_keeps s hs
  | .issueCycle core => execIssueCycle_keeps core s hs
  | .pcAged core slot pc => execPcAged_keeps core slot pc s hs
  | .longLatencyComplete core slot op lane => execLongLatencyComplete_keeps core slot op lane s hs
  | .speculationResolve core slot => execSpeculationResolve_keeps core slot s hs
  | .joinRelease core slot m => execJoinRelease_keeps core slot m s hs
  | .exitsRestart core slot => execExitsRestart_keeps core slot s hs
  | .regroupPack team => execRegroupPack_keeps team s hs
  | .barrierComplete team => execBarrierComplete_keeps team s hs
  | .dqpopDeliver team => execDqpopDeliver_keeps team s hs
  | .waitbmProceed core slot => execWaitbmProceed_keeps core slot s hs
  | .synceProceed core slot => execSynceProceed_keeps core slot s hs
  | .rangeLockGrant core slot => execRangeLockGrant_keeps core slot s hs
  | .trapEntry core slot => execTrapEntry_keeps core slot s hs
  | .sqEntryLeave core slot => execSqEntryLeave_keeps core slot s hs
  | .outboundToMemory core n => execOutboundToMemory_keeps core n s hs
  | .staleCopyInstall core ctx va => execStaleCopyInstall_keeps core ctx va s hs
  | .staleCopyDiscard core line => execStaleCopyDiscard_keeps core line s hs
  | .agentStep agent n => execAgentStep_keeps agent n s hs
  | .cpyInstanceStart team => execCpyInstanceStart_keeps team s hs
  | .cpyInstanceComplete agent => execCpyInstanceComplete_keeps agent s hs
  | .agentComplete agent => execAgentComplete_keeps agent s hs
  | .tileCommandComplete team half => execTileCommandComplete_keeps team half s hs
  | .groupSlotFree core slot => execGroupSlotFree_keeps core slot s hs
  | .distributorDecision dt => execDistributorDecision_keeps dt s hs
  | .gangReservationRelease => execGangReservationRelease_keeps s hs
  | .taskBlocking slot => execTaskBlocking_keeps slot s hs
  | .teamWriteBackStart team => execTeamWriteBackStart_keeps team s hs
  | .teamRetirement team => execTeamRetirement_keeps team s hs
  | .preemptDeadlineExpiry n => execPreemptDeadlineExpiry_keeps n s hs
  | .contextSaveComplete ctx => execContextSaveComplete_keeps ctx s hs
  | .hostPost m => execHostPost_keeps m s hs
  | .hostArrive m => execHostArrive_keeps m s hs
  | .hostWrite m => execHostWrite_keeps m s hs
  | .hostWriteApply => execHostWriteApply_keeps s hs
  | .hostRead m => execHostRead_keeps m s hs
  | .hostInv m => execHostInv_keeps m s hs
  | .invalidationComplete => execInvalidationComplete_keeps s hs
  | .hostPreempt m => execHostPreempt_keeps m s hs
  | .hostResume m => execHostResume_keeps m s hs
  | .hostSave m => execHostSave_keeps m s hs
  | .hostRestore m => execHostRestore_keeps m s hs
  | .hostReset m => execHostReset_keeps m s hs
  | .remoteAccessRequest r => execRemoteAccessRequest_keeps r s hs
  | .targetCheckAnswer ctx page ans => execTargetCheckAnswer_keeps ctx page ans s hs
  | .fabricUnreachable fid dt => execFabricUnreachable_keeps fid dt s hs
  | .collectiveDataArrival d => execCollectiveDataArrival_keeps d s hs
  | .collectiveComplete slot => execCollectiveComplete_keeps slot s hs
  | .collectiveAbortReceive cid => execCollectiveAbortReceive_keeps cid s hs
  | .swapRead r => execSwapRead_keeps r s hs
  | .swapWrite group => execSwapWrite_keeps group s hs
  | .swapCommit group => execSwapCommit_keeps group s hs
  | .swapRelease group => execSwapRelease_keeps group s hs
  | .patrolScrubStep domain finds => execPatrolScrubStep_keeps domain finds s hs
  | .scrubPassEnd domain => execScrubPassEnd_keeps domain s hs
  | .precharge stack row activations read => execPrecharge_keeps stack row activations read s hs
  | .faultDetected f => execFaultDetected_keeps f s hs
  | .powerOn => execPowerOn_keeps s hs
  | .rstcWarm => execRstcWarm_keeps s hs
  | .rstcCold => execRstcCold_keeps s hs
  | .attcQuote => execAttcQuote_keeps s hs
  | .quoteReady => execQuoteReady_keeps s hs
  | .attcVerify => execAttcVerify_keeps s hs
  | .attcRevokeKey bits => execAttcRevokeKey_keeps bits s hs
  | .attcRaiseSvnmin => execAttcRaiseSvnmin_keeps s hs
  | .stageAdvance failCode => execStageAdvance_keeps failCode s hs
  | .wdogWrite v => execWdogWrite_keeps v s hs
  | .watchdogExpiry dt => execWatchdogExpiry_keeps dt s hs
  | .ptrootWrite ctx v => execPtrootWrite_keeps ctx v s hs
  | .dbgcWrite core slot v => execDbgcWrite_keeps core slot v s hs
  | .tswsRead seq => execTswsRead_keeps seq s hs
  | .mgmtRegisterWrite off v => execMgmtRegisterWrite_keeps off v s hs
  | .powerClamp => execPowerClamp_keeps s hs
  | .thermalClamp => execThermalClamp_keeps s hs
  | .thermalShutdown => execThermalShutdown_keeps s hs
  | .malformedMessage m => execMalformedMessage_keeps m s hs
  | .powerLoss landed => execPowerLoss_keeps landed s hs

end Sys2Proof.Machine
end

