-- ==== Sys2Proof/Laws/Encoding.lean ====
section
/-! SUPPORT. Fields of a concatenation: what reads a field back from an encoded word. -/

set_option linter.unusedTactic false
set_option linter.unreachableTactic false
set_option linter.unusedSimpArgs false
set_option linter.unusedVariables false

namespace Sys2Proof

set_option Elab.async false

/-- A field that lies in the low part. -/
theorem field_lo {m n : Nat} (x : BitVec m) (y : BitVec n) (lo k : Nat) (h : lo + k ≤ n) :
    (no_index (x ++ y)).extractLsb' lo k = y.extractLsb' lo k := by
  apply BitVec.eq_of_getLsbD_eq
  intro i hi
  have : lo + i < n := by omega
  simp [BitVec.getLsbD_extractLsb', BitVec.getLsbD_append, hi, this]

/-- A field that lies in the high part. -/
theorem field_hi {m n : Nat} (x : BitVec m) (y : BitVec n) (lo k : Nat) (h : n ≤ lo) :
    (no_index (x ++ y)).extractLsb' lo k = x.extractLsb' (lo - n) k := by
  apply BitVec.eq_of_getLsbD_eq
  intro i hi
  have h1 : ¬ (lo + i < n) := by omega
  have h2 : lo + i - n = lo - n + i := by omega
  simp [BitVec.getLsbD_extractLsb', BitVec.getLsbD_append, hi, h1, h2]

theorem bit_of_bool (u : Bool) : decide (BitVec.ofBool u = 1#1) = u := by cases u <;> rfl

end Sys2Proof
end

