-- ==== Sys2Proof/Laws/Run.lean ====
section
/-! SUPPORT. A word does what exec does with the instruction it stands for. -/

namespace Sys2Proof.Machine

/-- The meaning of a word is that of its instruction. -/
theorem LInstr.run_eq (i : LInstr) (s : State) : exec (Code.l i).instr s = LInstr.run i s :=
  match i with
  | .iadd _ _ _ _ => rfl
  | .isub _ _ _ _ => rfl
  | .imul _ _ _ _ => rfl
  | .imulh _ _ _ _ => rfl
  | .imulhz _ _ _ _ => rfl
  | .imin _ _ _ _ => rfl
  | .imax _ _ _ _ => rfl
  | .iminz _ _ _ _ => rfl
  | .imaxz _ _ _ _ => rfl
  | .iabs _ _ _ => rfl
  | .and _ _ _ _ => rfl
  | .or _ _ _ _ => rfl
  | .xor _ _ _ _ => rfl
  | .andn _ _ _ _ => rfl
  | .shl _ _ _ _ => rfl
  | .shr _ _ _ _ => rfl
  | .sar _ _ _ _ => rfl
  | .rotl _ _ _ _ => rfl
  | .popc _ _ _ => rfl
  | .clz _ _ _ => rfl
  | .ctz _ _ _ => rfl
  | .brev _ _ _ => rfl
  | .bswap _ _ _ => rfl
  | .imad _ _ _ _ => rfl
  | .bfx _ _ _ _ => rfl
  | .bfi _ _ _ _ => rfl
  | .iadd64 _ _ _ _ => rfl
  | .isub64 _ _ _ _ => rfl
  | .imulw _ _ _ _ => rfl
  | .mov _ _ _ => rfl
  | .iaddi _ _ _ _ => rfl
  | .andi _ _ _ _ => rfl
  | .ori _ _ _ _ => rfl
  | .xori _ _ _ _ => rfl
  | .shli _ _ _ _ => rfl
  | .shri _ _ _ _ => rfl
  | .sari _ _ _ _ => rfl
  | .rotli _ _ _ _ => rfl
  | .movi _ _ _ => rfl
  | .icmp _ _ _ _ _ _ => rfl
  | .fcmp _ _ _ _ _ _ => rfl
  | .dcmp _ _ _ _ _ _ => rfl
  | .sel _ _ _ _ => rfl
  | .pset _ _ _ => rfl
  | .ptest _ _ _ => rfl
  | .pand _ _ _ _ => rfl
  | .por _ _ _ _ => rfl
  | .pxor _ _ _ _ => rfl
  | .pandn _ _ _ _ => rfl
  | .pnot _ _ _ => rfl
  | .pmov _ _ _ => rfl
  | .fadd _ _ _ _ => rfl
  | .fsub _ _ _ _ => rfl
  | .fmul _ _ _ _ => rfl
  | .ffma _ _ _ _ => rfl
  | .ffms _ _ _ _ => rfl
  | .fmin _ _ _ _ => rfl
  | .fmax _ _ _ _ => rfl
  | .fabs _ _ _ => rfl
  | .fneg _ _ _ => rfl
  | .fcps _ _ _ _ => rfl
  | .frnd _ _ _ _ => rfl
  | .fclass _ _ _ => rfl
  | .dadd _ _ _ _ => rfl
  | .dsub _ _ _ _ => rfl
  | .dmul _ _ _ _ => rfl
  | .dfma _ _ _ _ => rfl
  | .dfms _ _ _ _ => rfl
  | .dmin _ _ _ _ => rfl
  | .dmax _ _ _ _ => rfl
  | .dabs _ _ _ => rfl
  | .dneg _ _ _ => rfl
  | .drnd _ _ _ _ => rfl
  | .dclass _ _ _ => rfl
  | .hadd2 _ _ _ _ => rfl
  | .hmul2 _ _ _ _ => rfl
  | .hfma2 _ _ _ _ => rfl
  | .hmin2 _ _ _ _ => rfl
  | .hmax2 _ _ _ _ => rfl
  | .badd2 _ _ _ _ => rfl
  | .bmul2 _ _ _ _ => rfl
  | .bfma2 _ _ _ _ => rfl
  | .bmin2 _ _ _ _ => rfl
  | .bmax2 _ _ _ _ => rfl
  | .frcp _ _ _ _ => rfl
  | .frsq _ _ _ _ => rfl
  | .fsqrt _ _ _ _ => rfl
  | .fexp2 _ _ _ _ => rfl
  | .flog2 _ _ _ _ => rfl
  | .fsinp _ _ _ _ => rfl
  | .fcosp _ _ _ _ => rfl
  | .drcp _ _ _ _ => rfl
  | .drsq _ _ _ _ => rfl
  | .dsqrt _ _ _ _ => rfl
  | .cvt _ _ _ _ _ _ => rfl
  | .ldlB32 _ _ _ _ => rfl
  | .ldlB64 _ _ _ _ => rfl
  | .stlB32 _ _ _ _ => rfl
  | .stlB64 _ _ _ _ => rfl
  | .ldsS8 _ _ _ _ _ => rfl
  | .ldsZ8 _ _ _ _ _ => rfl
  | .ldsS16 _ _ _ _ _ => rfl
  | .ldsZ16 _ _ _ _ _ => rfl
  | .ldsB32 _ _ _ _ _ => rfl
  | .ldsB64 _ _ _ _ _ => rfl
  | .ldsB128 _ _ _ _ _ => rfl
  | .stsB8 _ _ _ _ => rfl
  | .stsB16 _ _ _ _ => rfl
  | .stsB32 _ _ _ _ => rfl
  | .stsB64 _ _ _ _ => rfl
  | .stsB128 _ _ _ _ => rfl
  | .ldcB32 _ _ _ _ _ => rfl
  | .ldcB64 _ _ _ _ _ => rfl
  | .ldcB128 _ _ _ _ _ => rfl
  | .stcB32 _ _ _ _ => rfl
  | .stcB64 _ _ _ _ => rfl
  | .stcB128 _ _ _ _ => rfl
  | .ldcAcqB32 _ _ _ _ => rfl
  | .ldcAcqB64 _ _ _ _ => rfl
  | .stcRelB32 _ _ _ _ => rfl
  | .stcRelB64 _ _ _ _ => rfl
  | .prs _ _ _ _ => rfl
  | .atomsAdd _ _ _ _ => rfl
  | .atomsMin _ _ _ _ => rfl
  | .atomsMax _ _ _ _ => rfl
  | .atomsMinz _ _ _ _ => rfl
  | .atomsMaxz _ _ _ _ => rfl
  | .atomsAnd _ _ _ _ => rfl
  | .atomsOr _ _ _ _ => rfl
  | .atomsXor _ _ _ _ => rfl
  | .atomsXchg _ _ _ _ => rfl
  | .atomsCas _ _ _ _ => rfl
  | .atomsFadd _ _ _ _ => rfl
  | .atomsAdd64 _ _ _ _ => rfl
  | .atomcAdd _ _ _ _ => rfl
  | .atomcMin _ _ _ _ => rfl
  | .atomcMax _ _ _ _ => rfl
  | .atomcMinz _ _ _ _ => rfl
  | .atomcMaxz _ _ _ _ => rfl
  | .atomcAnd _ _ _ _ => rfl
  | .atomcOr _ _ _ _ => rfl
  | .atomcXor _ _ _ _ => rfl
  | .atomcXchg _ _ _ _ => rfl
  | .atomcCas _ _ _ _ => rfl
  | .atomcFadd _ _ _ _ => rfl
  | .atomcDadd _ _ _ _ => rfl
  | .atomcAdd64 _ _ _ _ => rfl
  | .atomcMaxloc _ _ _ _ => rfl
  | .atomcMinloc _ _ _ _ => rfl
  | .gathB32 _ _ _ _ => rfl
  | .gathB64 _ _ _ _ => rfl
  | .scatB32 _ _ _ => rfl
  | .scatB64 _ _ _ => rfl
  | .xchPick _ _ _ => rfl
  | .xchMove _ _ _ _ => rfl
  | .xchFlip _ _ _ _ => rfl
  | .xchEdge _ _ _ _ => rfl
  | .qryCnt _ _ _ => rfl
  | .qryEvery _ _ _ => rfl
  | .qryBits _ _ _ _ => rfl
  | .redIadd _ _ _ => rfl
  | .redImin _ _ _ => rfl
  | .redImax _ _ _ => rfl
  | .redFadd _ _ _ => rfl
  | .redFmin _ _ _ => rfl
  | .redFmax _ _ _ => rfl
  | .scanIadd _ _ _ _ => rfl
  | .scanFadd _ _ _ _ => rfl
  | .maxloc _ _ _ _ => rfl
  | .segredIadd _ _ _ => rfl
  | .segredFadd _ _ _ => rfl
  | .segscanFadd _ _ _ => rfl
  | .matchLanes _ _ _ _ => rfl
  | .compact _ _ _ _ => rfl
  | .lsort _ _ _ _ => rfl
  | .bra _ _ _ _ => rfl
  | .rjm _ => rfl
  | .rjadd _ => rfl
  | .join _ => rfl
  | .exit => rfl
  | .exits _ _ => rfl
  | .regroup _ _ => rfl
  | .yield => rfl
  | .dly _ => rfl
  | .waitk _ _ => rfl
  | .guard _ _ => rfl
  | .bkpt => rfl
  | .trap _ => rfl
  | .nop => rfl
  | .kacc _ _ _ _ => rfl
  | .kfind _ _ _ _ => rfl
  | .rngB32 _ _ => rfl
  | .rngF32 _ _ => rfl
  | .rdspec _ _ _ => rfl
  | .cycle _ _ => rfl
  | .mxgo _ _ _ => rfl

/-- The meaning of a word is that of its instruction. -/
theorem UInstr.run_eq (i : UInstr) (s : State) : exec (Code.u i).instr s = UInstr.run i s :=
  match i with
  | .sadd _ _ _ => rfl
  | .ssub _ _ _ => rfl
  | .smul _ _ _ => rfl
  | .smulh _ _ _ => rfl
  | .sand _ _ _ => rfl
  | .sor _ _ _ => rfl
  | .sxor _ _ _ => rfl
  | .sandn _ _ _ => rfl
  | .sshl _ _ _ => rfl
  | .sshr _ _ _ => rfl
  | .ssar _ _ _ => rfl
  | .smin _ _ _ => rfl
  | .smax _ _ _ => rfl
  | .sminz _ _ _ => rfl
  | .smaxz _ _ _ => rfl
  | .smov _ _ => rfl
  | .saddi _ _ _ => rfl
  | .sandi _ _ _ => rfl
  | .sori _ _ _ => rfl
  | .sshli _ _ _ => rfl
  | .sshri _ _ _ => rfl
  | .ssari _ _ _ => rfl
  | .smovi _ _ => rfl
  | .scmp _ _ _ _ => rfl
  | .sbr _ _ _ => rfl
  | .jmp _ => rfl
  | .call _ => rfl
  | .ret _ => rfl
  | .pfx _ => rfl
  | .vbcast _ _ _ => rfl
  | .vread _ _ _ => rfl
  | .mread _ _ => rfl
  | .mwrite _ _ => rfl
  | .pread _ _ => rfl
  | .kread _ _ => rfl
  | .sldB32 _ _ _ _ => rfl
  | .sldB64 _ _ _ _ => rfl
  | .sstB32 _ _ _ _ => rfl
  | .sstB64 _ _ _ _ => rfl
  | .sldcB64 _ _ _ _ => rfl
  | .sstcB64 _ _ _ _ => rfl
  | .tld _ _ _ _ => rfl
  | .tst _ _ _ _ => rfl
  | .tzero _ _ => rfl
  | .accld _ _ _ _ => rfl
  | .accst _ _ _ _ => rfl
  | .accz _ _ => rfl
  | .movsh _ _ _ => rfl
  | .tcvt _ _ _ => rfl
  | .tspk _ _ _ => rfl
  | .tqld _ _ _ => rfl
  | .cpyIn _ _ _ => rfl
  | .cpyOut _ _ _ => rfl
  | .cpyCc _ _ _ => rfl
  | .cupop _ _ _ _ => rfl
  | .kcfg _ _ _ => rfl
  | .kcfgStream _ _ => rfl
  | .kdrain _ _ _ _ => rfl
  | .kclr _ => rfl
  | .kstat _ _ _ => rfl
  | .post _ _ _ _ => rfl
  | .arrive _ _ _ => rfl
  | .append _ _ _ _ => rfl
  | .seal _ _ => rfl
  | .waitbm _ _ => rfl
  | .tbar => rfl
  | .pbar => rfl
  | .dqpush _ _ => rfl
  | .dqpop _ _ => rfl
  | .getc _ _ => rfl
  | .setc _ _ => rfl
  | .eret => rfl
  | .fence _ => rfl
  | .synce => rfl

/-- The meaning of a word is that of its instruction. -/
theorem Code.run_eq (c : Code) (s : State) : exec c.instr s = Code.run c s :=
  match c with
  | .l i => LInstr.run_eq i s
  | .u i => UInstr.run_eq i s

/-! ### The meaning of each instruction -/

theorem exec_iadd (u : Bool) (d : VReg) (a : VReg) (b : VReg) (st : State) : exec (Code.l (.iadd u d a b)).instr st = execIadd u d a b st := rfl
theorem exec_isub (u : Bool) (d : VReg) (a : VReg) (b : VReg) (st : State) : exec (Code.l (.isub u d a b)).instr st = execIsub u d a b st := rfl
theorem exec_imul (u : Bool) (d : VReg) (a : VReg) (b : VReg) (st : State) : exec (Code.l (.imul u d a b)).instr st = execImul u d a b st := rfl
theorem exec_imulh (u : Bool) (d : VReg) (a : VReg) (b : VReg) (st : State) : exec (Code.l (.imulh u d a b)).instr st = execImulh u d a b st := rfl
theorem exec_imulhz (u : Bool) (d : VReg) (a : VReg) (b : VReg) (st : State) : exec (Code.l (.imulhz u d a b)).instr st = execImulhz u d a b st := rfl
theorem exec_imin (u : Bool) (d : VReg) (a : VReg) (b : VReg) (st : State) : exec (Code.l (.imin u d a b)).instr st = execImin u d a b st := rfl
theorem exec_imax (u : Bool) (d : VReg) (a : VReg) (b : VReg) (st : State) : exec (Code.l (.imax u d a b)).instr st = execImax u d a b st := rfl
theorem exec_iminz (u : Bool) (d : VReg) (a : VReg) (b : VReg) (st : State) : exec (Code.l (.iminz u d a b)).instr st = execIminz u d a b st := rfl
theorem exec_imaxz (u : Bool) (d : VReg) (a : VReg) (b : VReg) (st : State) : exec (Code.l (.imaxz u d a b)).instr st = execImaxz u d a b st := rfl
theorem exec_iabs (u : Bool) (d : VReg) (a : VReg) (st : State) : exec (Code.l (.iabs u d a)).instr st = execIabs u d a st := rfl
theorem exec_and (u : Bool) (d : VReg) (a : VReg) (b : VReg) (st : State) : exec (Code.l (.and u d a b)).instr st = execAnd u d a b st := rfl
theorem exec_or (u : Bool) (d : VReg) (a : VReg) (b : VReg) (st : State) : exec (Code.l (.or u d a b)).instr st = execOr u d a b st := rfl
theorem exec_xor (u : Bool) (d : VReg) (a : VReg) (b : VReg) (st : State) : exec (Code.l (.xor u d a b)).instr st = execXor u d a b st := rfl
theorem exec_andn (u : Bool) (d : VReg) (a : VReg) (b : VReg) (st : State) : exec (Code.l (.andn u d a b)).instr st = execAndn u d a b st := rfl
theorem exec_shl (u : Bool) (d : VReg) (a : VReg) (b : VReg) (st : State) : exec (Code.l (.shl u d a b)).instr st = execShl u d a b st := rfl
theorem exec_shr (u : Bool) (d : VReg) (a : VReg) (b : VReg) (st : State) : exec (Code.l (.shr u d a b)).instr st = execShr u d a b st := rfl
theorem exec_sar (u : Bool) (d : VReg) (a : VReg) (b : VReg) (st : State) : exec (Code.l (.sar u d a b)).instr st = execSar u d a b st := rfl
theorem exec_rotl (u : Bool) (d : VReg) (a : VReg) (b : VReg) (st : State) : exec (Code.l (.rotl u d a b)).instr st = execRotl u d a b st := rfl
theorem exec_popc (u : Bool) (d : VReg) (a : VReg) (st : State) : exec (Code.l (.popc u d a)).instr st = execPopc u d a st := rfl
theorem exec_clz (u : Bool) (d : VReg) (a : VReg) (st : State) : exec (Code.l (.clz u d a)).instr st = execClz u d a st := rfl
theorem exec_ctz (u : Bool) (d : VReg) (a : VReg) (st : State) : exec (Code.l (.ctz u d a)).instr st = execCtz u d a st := rfl
theorem exec_brev (u : Bool) (d : VReg) (a : VReg) (st : State) : exec (Code.l (.brev u d a)).instr st = execBrev u d a st := rfl
theorem exec_bswap (u : Bool) (d : VReg) (a : VReg) (st : State) : exec (Code.l (.bswap u d a)).instr st = execBswap u d a st := rfl
theorem exec_imad (u : Bool) (d : VReg) (a : VReg) (b : VReg) (st : State) : exec (Code.l (.imad u d a b)).instr st = execImad u d a b st := rfl
theorem exec_bfx (u : Bool) (d : VReg) (a : VReg) (b : VReg) (st : State) : exec (Code.l (.bfx u d a b)).instr st = execBfx u d a b st := rfl
theorem exec_bfi (u : Bool) (d : VReg) (a : VReg) (b : VReg) (st : State) : exec (Code.l (.bfi u d a b)).instr st = execBfi u d a b st := rfl
theorem exec_iadd64 (u : Bool) (d : VReg) (a : VReg) (b : VReg) (st : State) : exec (Code.l (.iadd64 u d a b)).instr st = execIadd64 u d a b st := rfl
theorem exec_isub64 (u : Bool) (d : VReg) (a : VReg) (b : VReg) (st : State) : exec (Code.l (.isub64 u d a b)).instr st = execIsub64 u d a b st := rfl
theorem exec_imulw (u : Bool) (d : VReg) (a : VReg) (b : VReg) (st : State) : exec (Code.l (.imulw u d a b)).instr st = execImulw u d a b st := rfl
theorem exec_mov (u : Bool) (d : VReg) (a : VReg) (st : State) : exec (Code.l (.mov u d a)).instr st = execMov u d a st := rfl
theorem exec_iaddi (u : Bool) (d : VReg) (a : VReg) (i : BitVec 11) (st : State) : exec (Code.l (.iaddi u d a i)).instr st = execIaddi u d a i st := rfl
theorem exec_andi (u : Bool) (d : VReg) (a : VReg) (i : BitVec 11) (st : State) : exec (Code.l (.andi u d a i)).instr st = execAndi u d a i st := rfl
theorem exec_ori (u : Bool) (d : VReg) (a : VReg) (i : BitVec 11) (st : State) : exec (Code.l (.ori u d a i)).instr st = execOri u d a i st := rfl
theorem exec_xori (u : Bool) (d : VReg) (a : VReg) (i : BitVec 11) (st : State) : exec (Code.l (.xori u d a i)).instr st = execXori u d a i st := rfl
theorem exec_shli (u : Bool) (d : VReg) (a : VReg) (n : BitVec 5) (st : State) : exec (Code.l (.shli u d a n)).instr st = execShli u d a n st := rfl
theorem exec_shri (u : Bool) (d : VReg) (a : VReg) (n : BitVec 5) (st : State) : exec (Code.l (.shri u d a n)).instr st = execShri u d a n st := rfl
theorem exec_sari (u : Bool) (d : VReg) (a : VReg) (n : BitVec 5) (st : State) : exec (Code.l (.sari u d a n)).instr st = execSari u d a n st := rfl
theorem exec_rotli (u : Bool) (d : VReg) (a : VReg) (n : BitVec 5) (st : State) : exec (Code.l (.rotli u d a n)).instr st = execRotli u d a n st := rfl
theorem exec_movi (u : Bool) (d : VReg) (i : BitVec 18) (st : State) : exec (Code.l (.movi u d i)).instr st = execMovi u d i st := rfl
theorem exec_icmp (u : Bool) (c : BitVec 4) (p : PReg) (a : VReg) (b : VReg) (n : BitVec 1) (st : State) : exec (Code.l (.icmp u c p a b n)).instr st = execIcmp u c p a b n st := rfl
theorem exec_fcmp (u : Bool) (c : BitVec 3) (p : PReg) (a : VReg) (b : VReg) (n : BitVec 1) (st : State) : exec (Code.l (.fcmp u c p a b n)).instr st = execFcmp u c p a b n st := rfl
theorem exec_dcmp (u : Bool) (c : BitVec 3) (p : PReg) (a : VReg) (b : VReg) (n : BitVec 1) (st : State) : exec (Code.l (.dcmp u c p a b n)).instr st = execDcmp u c p a b n st := rfl
theorem exec_sel (u : Bool) (d : VReg) (a : VReg) (p : PReg) (st : State) : exec (Code.l (.sel u d a p)).instr st = execSel u d a p st := rfl
theorem exec_pset (u : Bool) (a : VReg) (p : PReg) (st : State) : exec (Code.l (.pset u a p)).instr st = execPset u a p st := rfl
theorem exec_ptest (u : Bool) (d : VReg) (p : PReg) (st : State) : exec (Code.l (.ptest u d p)).instr st = execPtest u d p st := rfl
theorem exec_pand (u : Bool) (p : PReg) (q : PReg) (r : PReg) (st : State) : exec (Code.l (.pand u p q r)).instr st = execPand u p q r st := rfl
theorem exec_por (u : Bool) (p : PReg) (q : PReg) (r : PReg) (st : State) : exec (Code.l (.por u p q r)).instr st = execPor u p q r st := rfl
theorem exec_pxor (u : Bool) (p : PReg) (q : PReg) (r : PReg) (st : State) : exec (Code.l (.pxor u p q r)).instr st = execPxor u p q r st := rfl
theorem exec_pandn (u : Bool) (p : PReg) (q : PReg) (r : PReg) (st : State) : exec (Code.l (.pandn u p q r)).instr st = execPandn u p q r st := rfl
theorem exec_pnot (u : Bool) (p : PReg) (q : PReg) (st : State) : exec (Code.l (.pnot u p q)).instr st = execPnot u p q st := rfl
theorem exec_pmov (u : Bool) (p : PReg) (q : PReg) (st : State) : exec (Code.l (.pmov u p q)).instr st = execPmov u p q st := rfl
theorem exec_fadd (u : Bool) (d : VReg) (a : VReg) (b : VReg) (st : State) : exec (Code.l (.fadd u d a b)).instr st = execFadd u d a b st := rfl
theorem exec_fsub (u : Bool) (d : VReg) (a : VReg) (b : VReg) (st : State) : exec (Code.l (.fsub u d a b)).instr st = execFsub u d a b st := rfl
theorem exec_fmul (u : Bool) (d : VReg) (a : VReg) (b : VReg) (st : State) : exec (Code.l (.fmul u d a b)).instr st = execFmul u d a b st := rfl
theorem exec_ffma (u : Bool) (d : VReg) (a : VReg) (b : VReg) (st : State) : exec (Code.l (.ffma u d a b)).instr st = execFfma u d a b st := rfl
theorem exec_ffms (u : Bool) (d : VReg) (a : VReg) (b : VReg) (st : State) : exec (Code.l (.ffms u d a b)).instr st = execFfms u d a b st := rfl
theorem exec_fmin (u : Bool) (d : VReg) (a : VReg) (b : VReg) (st : State) : exec (Code.l (.fmin u d a b)).instr st = execFmin u d a b st := rfl
theorem exec_fmax (u : Bool) (d : VReg) (a : VReg) (b : VReg) (st : State) : exec (Code.l (.fmax u d a b)).instr st = execFmax u d a b st := rfl
theorem exec_fabs (u : Bool) (d : VReg) (a : VReg) (st : State) : exec (Code.l (.fabs u d a)).instr st = execFabs u d a st := rfl
theorem exec_fneg (u : Bool) (d : VReg) (a : VReg) (st : State) : exec (Code.l (.fneg u d a)).instr st = execFneg u d a st := rfl
theorem exec_fcps (u : Bool) (d : VReg) (a : VReg) (b : VReg) (st : State) : exec (Code.l (.fcps u d a b)).instr st = execFcps u d a b st := rfl
theorem exec_frnd (u : Bool) (d : VReg) (a : VReg) (r : BitVec 3) (st : State) : exec (Code.l (.frnd u d a r)).instr st = execFrnd u d a r st := rfl
theorem exec_fclass (u : Bool) (d : VReg) (a : VReg) (st : State) : exec (Code.l (.fclass u d a)).instr st = execFclass u d a st := rfl
theorem exec_dadd (u : Bool) (d : VReg) (a : VReg) (b : VReg) (st : State) : exec (Code.l (.dadd u d a b)).instr st = execDadd u d a b st := rfl
theorem exec_dsub (u : Bool) (d : VReg) (a : VReg) (b : VReg) (st : State) : exec (Code.l (.dsub u d a b)).instr st = execDsub u d a b st := rfl
theorem exec_dmul (u : Bool) (d : VReg) (a : VReg) (b : VReg) (st : State) : exec (Code.l (.dmul u d a b)).instr st = execDmul u d a b st := rfl
theorem exec_dfma (u : Bool) (d : VReg) (a : VReg) (b : VReg) (st : State) : exec (Code.l (.dfma u d a b)).instr st = execDfma u d a b st := rfl
theorem exec_dfms (u : Bool) (d : VReg) (a : VReg) (b : VReg) (st : State) : exec (Code.l (.dfms u d a b)).instr st = execDfms u d a b st := rfl
theorem exec_dmin (u : Bool) (d : VReg) (a : VReg) (b : VReg) (st : State) : exec (Code.l (.dmin u d a b)).instr st = execDmin u d a b st := rfl
theorem exec_dmax (u : Bool) (d : VReg) (a : VReg) (b : VReg) (st : State) : exec (Code.l (.dmax u d a b)).instr st = execDmax u d a b st := rfl
theorem exec_dabs (u : Bool) (d : VReg) (a : VReg) (st : State) : exec (Code.l (.dabs u d a)).instr st = execDabs u d a st := rfl
theorem exec_dneg (u : Bool) (d : VReg) (a : VReg) (st : State) : exec (Code.l (.dneg u d a)).instr st = execDneg u d a st := rfl
theorem exec_drnd (u : Bool) (d : VReg) (a : VReg) (r : BitVec 3) (st : State) : exec (Code.l (.drnd u d a r)).instr st = execDrnd u d a r st := rfl
theorem exec_dclass (u : Bool) (d : VReg) (a : VReg) (st : State) : exec (Code.l (.dclass u d a)).instr st = execDclass u d a st := rfl
theorem exec_hadd2 (u : Bool) (d : VReg) (a : VReg) (b : VReg) (st : State) : exec (Code.l (.hadd2 u d a b)).instr st = execHadd2 u d a b st := rfl
theorem exec_hmul2 (u : Bool) (d : VReg) (a : VReg) (b : VReg) (st : State) : exec (Code.l (.hmul2 u d a b)).instr st = execHmul2 u d a b st := rfl
theorem exec_hfma2 (u : Bool) (d : VReg) (a : VReg) (b : VReg) (st : State) : exec (Code.l (.hfma2 u d a b)).instr st = execHfma2 u d a b st := rfl
theorem exec_hmin2 (u : Bool) (d : VReg) (a : VReg) (b : VReg) (st : State) : exec (Code.l (.hmin2 u d a b)).instr st = execHmin2 u d a b st := rfl
theorem exec_hmax2 (u : Bool) (d : VReg) (a : VReg) (b : VReg) (st : State) : exec (Code.l (.hmax2 u d a b)).instr st = execHmax2 u d a b st := rfl
theorem exec_badd2 (u : Bool) (d : VReg) (a : VReg) (b : VReg) (st : State) : exec (Code.l (.badd2 u d a b)).instr st = execBadd2 u d a b st := rfl
theorem exec_bmul2 (u : Bool) (d : VReg) (a : VReg) (b : VReg) (st : State) : exec (Code.l (.bmul2 u d a b)).instr st = execBmul2 u d a b st := rfl
theorem exec_bfma2 (u : Bool) (d : VReg) (a : VReg) (b : VReg) (st : State) : exec (Code.l (.bfma2 u d a b)).instr st = execBfma2 u d a b st := rfl
theorem exec_bmin2 (u : Bool) (d : VReg) (a : VReg) (b : VReg) (st : State) : exec (Code.l (.bmin2 u d a b)).instr st = execBmin2 u d a b st := rfl
theorem exec_bmax2 (u : Bool) (d : VReg) (a : VReg) (b : VReg) (st : State) : exec (Code.l (.bmax2 u d a b)).instr st = execBmax2 u d a b st := rfl
theorem exec_frcp (u : Bool) (d : VReg) (a : VReg) (k : Tok) (st : State) : exec (Code.l (.frcp u d a k)).instr st = execFrcp u d a k st := rfl
theorem exec_frsq (u : Bool) (d : VReg) (a : VReg) (k : Tok) (st : State) : exec (Code.l (.frsq u d a k)).instr st = execFrsq u d a k st := rfl
theorem exec_fsqrt (u : Bool) (d : VReg) (a : VReg) (k : Tok) (st : State) : exec (Code.l (.fsqrt u d a k)).instr st = execFsqrt u d a k st := rfl
theorem exec_fexp2 (u : Bool) (d : VReg) (a : VReg) (k : Tok) (st : State) : exec (Code.l (.fexp2 u d a k)).instr st = execFexp2 u d a k st := rfl
theorem exec_flog2 (u : Bool) (d : VReg) (a : VReg) (k : Tok) (st : State) : exec (Code.l (.flog2 u d a k)).instr st = execFlog2 u d a k st := rfl
theorem exec_fsinp (u : Bool) (d : VReg) (a : VReg) (k : Tok) (st : State) : exec (Code.l (.fsinp u d a k)).instr st = execFsinp u d a k st := rfl
theorem exec_fcosp (u : Bool) (d : VReg) (a : VReg) (k : Tok) (st : State) : exec (Code.l (.fcosp u d a k)).instr st = execFcosp u d a k st := rfl
theorem exec_drcp (u : Bool) (d : VReg) (a : VReg) (k : Tok) (st : State) : exec (Code.l (.drcp u d a k)).instr st = execDrcp u d a k st := rfl
theorem exec_drsq (u : Bool) (d : VReg) (a : VReg) (k : Tok) (st : State) : exec (Code.l (.drsq u d a k)).instr st = execDrsq u d a k st := rfl
theorem exec_dsqrt (u : Bool) (d : VReg) (a : VReg) (k : Tok) (st : State) : exec (Code.l (.dsqrt u d a k)).instr st = execDsqrt u d a k st := rfl
theorem exec_cvt (u : Bool) (f : BitVec 4) (d : VReg) (a : VReg) (r : BitVec 3) (p : BitVec 4) (st : State) : exec (Code.l (.cvt u f d a r p)).instr st = execCvt u f d a r p st := rfl
theorem exec_ldlB32 (d : VReg) (a : VReg) (k : Tok) (s : BitVec 3) (st : State) : exec (Code.l (.ldlB32 d a k s)).instr st = execLdlB32 d a k s st := rfl
theorem exec_ldlB64 (d : VReg) (a : VReg) (k : Tok) (s : BitVec 3) (st : State) : exec (Code.l (.ldlB64 d a k s)).instr st = execLdlB64 d a k s st := rfl
theorem exec_stlB32 (d : VReg) (a : VReg) (k : Tok) (s : BitVec 3) (st : State) : exec (Code.l (.stlB32 d a k s)).instr st = execStlB32 d a k s st := rfl
theorem exec_stlB64 (d : VReg) (a : VReg) (k : Tok) (s : BitVec 3) (st : State) : exec (Code.l (.stlB64 d a k s)).instr st = execStlB64 d a k s st := rfl
theorem exec_ldsS8 (u : Bool) (d : VReg) (a : VReg) (k : Tok) (s : BitVec 3) (st : State) : exec (Code.l (.ldsS8 u d a k s)).instr st = execLdsS8 u d a k s st := rfl
theorem exec_ldsZ8 (u : Bool) (d : VReg) (a : VReg) (k : Tok) (s : BitVec 3) (st : State) : exec (Code.l (.ldsZ8 u d a k s)).instr st = execLdsZ8 u d a k s st := rfl
theorem exec_ldsS16 (u : Bool) (d : VReg) (a : VReg) (k : Tok) (s : BitVec 3) (st : State) : exec (Code.l (.ldsS16 u d a k s)).instr st = execLdsS16 u d a k s st := rfl
theorem exec_ldsZ16 (u : Bool) (d : VReg) (a : VReg) (k : Tok) (s : BitVec 3) (st : State) : exec (Code.l (.ldsZ16 u d a k s)).instr st = execLdsZ16 u d a k s st := rfl
theorem exec_ldsB32 (u : Bool) (d : VReg) (a : VReg) (k : Tok) (s : BitVec 3) (st : State) : exec (Code.l (.ldsB32 u d a k s)).instr st = execLdsB32 u d a k s st := rfl
theorem exec_ldsB64 (u : Bool) (d : VReg) (a : VReg) (k : Tok) (s : BitVec 3) (st : State) : exec (Code.l (.ldsB64 u d a k s)).instr st = execLdsB64 u d a k s st := rfl
theorem exec_ldsB128 (u : Bool) (d : VReg) (a : VReg) (k : Tok) (s : BitVec 3) (st : State) : exec (Code.l (.ldsB128 u d a k s)).instr st = execLdsB128 u d a k s st := rfl
theorem exec_stsB8 (d : VReg) (a : VReg) (k : Tok) (s : BitVec 3) (st : State) : exec (Code.l (.stsB8 d a k s)).instr st = execStsB8 d a k s st := rfl
theorem exec_stsB16 (d : VReg) (a : VReg) (k : Tok) (s : BitVec 3) (st : State) : exec (Code.l (.stsB16 d a k s)).instr st = execStsB16 d a k s st := rfl
theorem exec_stsB32 (d : VReg) (a : VReg) (k : Tok) (s : BitVec 3) (st : State) : exec (Code.l (.stsB32 d a k s)).instr st = execStsB32 d a k s st := rfl
theorem exec_stsB64 (d : VReg) (a : VReg) (k : Tok) (s : BitVec 3) (st : State) : exec (Code.l (.stsB64 d a k s)).instr st = execStsB64 d a k s st := rfl
theorem exec_stsB128 (d : VReg) (a : VReg) (k : Tok) (s : BitVec 3) (st : State) : exec (Code.l (.stsB128 d a k s)).instr st = execStsB128 d a k s st := rfl
theorem exec_ldcB32 (u : Bool) (d : VReg) (a : VReg) (k : Tok) (s : BitVec 3) (st : State) : exec (Code.l (.ldcB32 u d a k s)).instr st = execLdcB32 u d a k s st := rfl
theorem exec_ldcB64 (u : Bool) (d : VReg) (a : VReg) (k : Tok) (s : BitVec 3) (st : State) : exec (Code.l (.ldcB64 u d a k s)).instr st = execLdcB64 u d a k s st := rfl
theorem exec_ldcB128 (u : Bool) (d : VReg) (a : VReg) (k : Tok) (s : BitVec 3) (st : State) : exec (Code.l (.ldcB128 u d a k s)).instr st = execLdcB128 u d a k s st := rfl
theorem exec_stcB32 (d : VReg) (a : VReg) (k : Tok) (s : BitVec 3) (st : State) : exec (Code.l (.stcB32 d a k s)).instr st = execStcB32 d a k s st := rfl
theorem exec_stcB64 (d : VReg) (a : VReg) (k : Tok) (s : BitVec 3) (st : State) : exec (Code.l (.stcB64 d a k s)).instr st = execStcB64 d a k s st := rfl
theorem exec_stcB128 (d : VReg) (a : VReg) (k : Tok) (s : BitVec 3) (st : State) : exec (Code.l (.stcB128 d a k s)).instr st = execStcB128 d a k s st := rfl
theorem exec_ldcAcqB32 (d : VReg) (a : VReg) (k : Tok) (s : BitVec 3) (st : State) : exec (Code.l (.ldcAcqB32 d a k s)).instr st = execLdcAcqB32 d a k s st := rfl
theorem exec_ldcAcqB64 (d : VReg) (a : VReg) (k : Tok) (s : BitVec 3) (st : State) : exec (Code.l (.ldcAcqB64 d a k s)).instr st = execLdcAcqB64 d a k s st := rfl
theorem exec_stcRelB32 (d : VReg) (a : VReg) (k : Tok) (s : BitVec 3) (st : State) : exec (Code.l (.stcRelB32 d a k s)).instr st = execStcRelB32 d a k s st := rfl
theorem exec_stcRelB64 (d : VReg) (a : VReg) (k : Tok) (s : BitVec 3) (st : State) : exec (Code.l (.stcRelB64 d a k s)).instr st = execStcRelB64 d a k s st := rfl
theorem exec_prs (d : VReg) (a : VReg) (k : Tok) (s : BitVec 3) (st : State) : exec (Code.l (.prs d a k s)).instr st = execPrs d a k s st := rfl
theorem exec_atomsAdd (d : VReg) (a : VReg) (k : Tok) (s : BitVec 3) (st : State) : exec (Code.l (.atomsAdd d a k s)).instr st = execAtomsAdd d a k s st := rfl
theorem exec_atomsMin (d : VReg) (a : VReg) (k : Tok) (s : BitVec 3) (st : State) : exec (Code.l (.atomsMin d a k s)).instr st = execAtomsMin d a k s st := rfl
theorem exec_atomsMax (d : VReg) (a : VReg) (k : Tok) (s : BitVec 3) (st : State) : exec (Code.l (.atomsMax d a k s)).instr st = execAtomsMax d a k s st := rfl
theorem exec_atomsMinz (d : VReg) (a : VReg) (k : Tok) (s : BitVec 3) (st : State) : exec (Code.l (.atomsMinz d a k s)).instr st = execAtomsMinz d a k s st := rfl
theorem exec_atomsMaxz (d : VReg) (a : VReg) (k : Tok) (s : BitVec 3) (st : State) : exec (Code.l (.atomsMaxz d a k s)).instr st = execAtomsMaxz d a k s st := rfl
theorem exec_atomsAnd (d : VReg) (a : VReg) (k : Tok) (s : BitVec 3) (st : State) : exec (Code.l (.atomsAnd d a k s)).instr st = execAtomsAnd d a k s st := rfl
theorem exec_atomsOr (d : VReg) (a : VReg) (k : Tok) (s : BitVec 3) (st : State) : exec (Code.l (.atomsOr d a k s)).instr st = execAtomsOr d a k s st := rfl
theorem exec_atomsXor (d : VReg) (a : VReg) (k : Tok) (s : BitVec 3) (st : State) : exec (Code.l (.atomsXor d a k s)).instr st = execAtomsXor d a k s st := rfl
theorem exec_atomsXchg (d : VReg) (a : VReg) (k : Tok) (s : BitVec 3) (st : State) : exec (Code.l (.atomsXchg d a k s)).instr st = execAtomsXchg d a k s st := rfl
theorem exec_atomsCas (d : VReg) (a : VReg) (k : Tok) (s : BitVec 3) (st : State) : exec (Code.l (.atomsCas d a k s)).instr st = execAtomsCas d a k s st := rfl
theorem exec_atomsFadd (d : VReg) (a : VReg) (k : Tok) (s : BitVec 3) (st : State) : exec (Code.l (.atomsFadd d a k s)).instr st = execAtomsFadd d a k s st := rfl
theorem exec_atomsAdd64 (d : VReg) (a : VReg) (k : Tok) (s : BitVec 3) (st : State) : exec (Code.l (.atomsAdd64 d a k s)).instr st = execAtomsAdd64 d a k s st := rfl
theorem exec_atomcAdd (d : VReg) (a : VReg) (k : Tok) (s : BitVec 3) (st : State) : exec (Code.l (.atomcAdd d a k s)).instr st = execAtomcAdd d a k s st := rfl
theorem exec_atomcMin (d : VReg) (a : VReg) (k : Tok) (s : BitVec 3) (st : State) : exec (Code.l (.atomcMin d a k s)).instr st = execAtomcMin d a k s st := rfl
theorem exec_atomcMax (d : VReg) (a : VReg) (k : Tok) (s : BitVec 3) (st : State) : exec (Code.l (.atomcMax d a k s)).instr st = execAtomcMax d a k s st := rfl
theorem exec_atomcMinz (d : VReg) (a : VReg) (k : Tok) (s : BitVec 3) (st : State) : exec (Code.l (.atomcMinz d a k s)).instr st = execAtomcMinz d a k s st := rfl
theorem exec_atomcMaxz (d : VReg) (a : VReg) (k : Tok) (s : BitVec 3) (st : State) : exec (Code.l (.atomcMaxz d a k s)).instr st = execAtomcMaxz d a k s st := rfl
theorem exec_atomcAnd (d : VReg) (a : VReg) (k : Tok) (s : BitVec 3) (st : State) : exec (Code.l (.atomcAnd d a k s)).instr st = execAtomcAnd d a k s st := rfl
theorem exec_atomcOr (d : VReg) (a : VReg) (k : Tok) (s : BitVec 3) (st : State) : exec (Code.l (.atomcOr d a k s)).instr st = execAtomcOr d a k s st := rfl
theorem exec_atomcXor (d : VReg) (a : VReg) (k : Tok) (s : BitVec 3) (st : State) : exec (Code.l (.atomcXor d a k s)).instr st = execAtomcXor d a k s st := rfl
theorem exec_atomcXchg (d : VReg) (a : VReg) (k : Tok) (s : BitVec 3) (st : State) : exec (Code.l (.atomcXchg d a k s)).instr st = execAtomcXchg d a k s st := rfl
theorem exec_atomcCas (d : VReg) (a : VReg) (k : Tok) (s : BitVec 3) (st : State) : exec (Code.l (.atomcCas d a k s)).instr st = execAtomcCas d a k s st := rfl
theorem exec_atomcFadd (d : VReg) (a : VReg) (k : Tok) (s : BitVec 3) (st : State) : exec (Code.l (.atomcFadd d a k s)).instr st = execAtomcFadd d a k s st := rfl
theorem exec_atomcDadd (d : VReg) (a : VReg) (k : Tok) (s : BitVec 3) (st : State) : exec (Code.l (.atomcDadd d a k s)).instr st = execAtomcDadd d a k s st := rfl
theorem exec_atomcAdd64 (d : VReg) (a : VReg) (k : Tok) (s : BitVec 3) (st : State) : exec (Code.l (.atomcAdd64 d a k s)).instr st = execAtomcAdd64 d a k s st := rfl
theorem exec_atomcMaxloc (d : VReg) (a : VReg) (k : Tok) (s : BitVec 3) (st : State) : exec (Code.l (.atomcMaxloc d a k s)).instr st = execAtomcMaxloc d a k s st := rfl
theorem exec_atomcMinloc (d : VReg) (a : VReg) (k : Tok) (s : BitVec 3) (st : State) : exec (Code.l (.atomcMinloc d a k s)).instr st = execAtomcMinloc d a k s st := rfl
theorem exec_gathB32 (d : VReg) (a : VReg) (k : Tok) (s : BitVec 1) (st : State) : exec (Code.l (.gathB32 d a k s)).instr st = execGathB32 d a k s st := rfl
theorem exec_gathB64 (d : VReg) (a : VReg) (k : Tok) (s : BitVec 1) (st : State) : exec (Code.l (.gathB64 d a k s)).instr st = execGathB64 d a k s st := rfl
theorem exec_scatB32 (d : VReg) (a : VReg) (k : Tok) (st : State) : exec (Code.l (.scatB32 d a k)).instr st = execScatB32 d a k st := rfl
theorem exec_scatB64 (d : VReg) (a : VReg) (k : Tok) (st : State) : exec (Code.l (.scatB64 d a k)).instr st = execScatB64 d a k st := rfl
theorem exec_xchPick (d : VReg) (a : VReg) (m : MReg) (st : State) : exec (Code.l (.xchPick d a m)).instr st = execXchPick d a m st := rfl
theorem exec_xchMove (d : VReg) (a : VReg) (m : MReg) (e : BitVec 3) (st : State) : exec (Code.l (.xchMove d a m e)).instr st = execXchMove d a m e st := rfl
theorem exec_xchFlip (d : VReg) (a : VReg) (m : MReg) (e : BitVec 3) (st : State) : exec (Code.l (.xchFlip d a m e)).instr st = execXchFlip d a m e st := rfl
theorem exec_xchEdge (d : VReg) (a : VReg) (m : MReg) (e : BitVec 3) (st : State) : exec (Code.l (.xchEdge d a m e)).instr st = execXchEdge d a m e st := rfl
theorem exec_qryCnt (d : VReg) (a : VReg) (m : MReg) (st : State) : exec (Code.l (.qryCnt d a m)).instr st = execQryCnt d a m st := rfl
theorem exec_qryEvery (d : VReg) (a : VReg) (m : MReg) (st : State) : exec (Code.l (.qryEvery d a m)).instr st = execQryEvery d a m st := rfl
theorem exec_qryBits (d : VReg) (a : VReg) (m : MReg) (e : BitVec 3) (st : State) : exec (Code.l (.qryBits d a m e)).instr st = execQryBits d a m e st := rfl
theorem exec_redIadd (d : VReg) (a : VReg) (m : MReg) (st : State) : exec (Code.l (.redIadd d a m)).instr st = execRedIadd d a m st := rfl
theorem exec_redImin (d : VReg) (a : VReg) (m : MReg) (st : State) : exec (Code.l (.redImin d a m)).instr st = execRedImin d a m st := rfl
theorem exec_redImax (d : VReg) (a : VReg) (m : MReg) (st : State) : exec (Code.l (.redImax d a m)).instr st = execRedImax d a m st := rfl
theorem exec_redFadd (d : VReg) (a : VReg) (m : MReg) (st : State) : exec (Code.l (.redFadd d a m)).instr st = execRedFadd d a m st := rfl
theorem exec_redFmin (d : VReg) (a : VReg) (m : MReg) (st : State) : exec (Code.l (.redFmin d a m)).instr st = execRedFmin d a m st := rfl
theorem exec_redFmax (d : VReg) (a : VReg) (m : MReg) (st : State) : exec (Code.l (.redFmax d a m)).instr st = execRedFmax d a m st := rfl
theorem exec_scanIadd (d : VReg) (a : VReg) (m : MReg) (e : BitVec 3) (st : State) : exec (Code.l (.scanIadd d a m e)).instr st = execScanIadd d a m e st := rfl
theorem exec_scanFadd (d : VReg) (a : VReg) (m : MReg) (e : BitVec 3) (st : State) : exec (Code.l (.scanFadd d a m e)).instr st = execScanFadd d a m e st := rfl
theorem exec_maxloc (d : VReg) (a : VReg) (m : MReg) (e : BitVec 3) (st : State) : exec (Code.l (.maxloc d a m e)).instr st = execMaxloc d a m e st := rfl
theorem exec_segredIadd (d : VReg) (a : VReg) (m : MReg) (st : State) : exec (Code.l (.segredIadd d a m)).instr st = execSegredIadd d a m st := rfl
theorem exec_segredFadd (d : VReg) (a : VReg) (m : MReg) (st : State) : exec (Code.l (.segredFadd d a m)).instr st = execSegredFadd d a m st := rfl
theorem exec_segscanFadd (d : VReg) (a : VReg) (m : MReg) (st : State) : exec (Code.l (.segscanFadd d a m)).instr st = execSegscanFadd d a m st := rfl
theorem exec_matchLanes (d : VReg) (a : VReg) (m : MReg) (e : BitVec 3) (st : State) : exec (Code.l (.matchLanes d a m e)).instr st = execMatchLanes d a m e st := rfl
theorem exec_compact (d : VReg) (a : VReg) (m : MReg) (e : BitVec 3) (st : State) : exec (Code.l (.compact d a m e)).instr st = execCompact d a m e st := rfl
theorem exec_lsort (d : VReg) (a : VReg) (m : MReg) (e : BitVec 3) (st : State) : exec (Code.l (.lsort d a m e)).instr st = execLsort d a m e st := rfl
theorem exec_bra (p : PReg) (n : BitVec 1) (k : Tok) (s : BitVec 14) (st : State) : exec (Code.l (.bra p n k s)).instr st = execBra p n k s st := rfl
theorem exec_rjm (m : MReg) (st : State) : exec (Code.l (.rjm m)).instr st = execRjm m st := rfl
theorem exec_rjadd (m : MReg) (st : State) : exec (Code.l (.rjadd m)).instr st = execRjadd m st := rfl
theorem exec_join (m : MReg) (st : State) : exec (Code.l (.join m)).instr st = execJoin m st := rfl
theorem exec_exit  (st : State) : exec (Code.l (.exit)).instr st = execExit  st := rfl
theorem exec_exits (a : SReg) (n : BitVec 8) (st : State) : exec (Code.l (.exits a n)).instr st = execExits a n st := rfl
theorem exec_regroup (p : PReg) (n : BitVec 5) (st : State) : exec (Code.l (.regroup p n)).instr st = execRegroup p n st := rfl
theorem exec_yield  (st : State) : exec (Code.l (.yield)).instr st = execYield  st := rfl
theorem exec_dly (n : BitVec 5) (st : State) : exec (Code.l (.dly n)).instr st = execDly n st := rfl
theorem exec_waitk (k : Tok) (t : BitVec 4) (st : State) : exec (Code.l (.waitk k t)).instr st = execWaitk k t st := rfl
theorem exec_guard (p : PReg) (n : BitVec 1) (st : State) : exec (Code.l (.guard p n)).instr st = execGuard p n st := rfl
theorem exec_bkpt  (st : State) : exec (Code.l (.bkpt)).instr st = execBkpt  st := rfl
theorem exec_trap (c : BitVec 16) (st : State) : exec (Code.l (.trap c)).instr st = execTrap c st := rfl
theorem exec_nop  (st : State) : exec (Code.l (.nop)).instr st = execNop  st := rfl
theorem exec_kacc (d : VReg) (a : VReg) (b : VReg) (k : Tok) (st : State) : exec (Code.l (.kacc d a b k)).instr st = execKacc d a b k st := rfl
theorem exec_kfind (d : VReg) (a : VReg) (s : BitVec 7) (k : Tok) (st : State) : exec (Code.l (.kfind d a s k)).instr st = execKfind d a s k st := rfl
theorem exec_rngB32 (d : VReg) (k : Tok) (st : State) : exec (Code.l (.rngB32 d k)).instr st = execRngB32 d k st := rfl
theorem exec_rngF32 (d : VReg) (k : Tok) (st : State) : exec (Code.l (.rngF32 d k)).instr st = execRngF32 d k st := rfl
theorem exec_rdspec (d : VReg) (s : BitVec 7) (k : Tok) (st : State) : exec (Code.l (.rdspec d s k)).instr st = execRdspec d s k st := rfl
theorem exec_cycle (d : VReg) (k : Tok) (st : State) : exec (Code.l (.cycle d k)).instr st = execCycle d k st := rfl
theorem exec_mxgo (a : VReg) (s : SReg) (k : Tok) (st : State) : exec (Code.l (.mxgo a s k)).instr st = execMxgo a s k st := rfl
theorem exec_sadd (d : SReg) (a : SReg) (b : SReg) (st : State) : exec (Code.u (.sadd d a b)).instr st = execSadd d a b st := rfl
theorem exec_ssub (d : SReg) (a : SReg) (b : SReg) (st : State) : exec (Code.u (.ssub d a b)).instr st = execSsub d a b st := rfl
theorem exec_smul (d : SReg) (a : SReg) (b : SReg) (st : State) : exec (Code.u (.smul d a b)).instr st = execSmul d a b st := rfl
theorem exec_smulh (d : SReg) (a : SReg) (b : SReg) (st : State) : exec (Code.u (.smulh d a b)).instr st = execSmulh d a b st := rfl
theorem exec_sand (d : SReg) (a : SReg) (b : SReg) (st : State) : exec (Code.u (.sand d a b)).instr st = execSand d a b st := rfl
theorem exec_sor (d : SReg) (a : SReg) (b : SReg) (st : State) : exec (Code.u (.sor d a b)).instr st = execSor d a b st := rfl
theorem exec_sxor (d : SReg) (a : SReg) (b : SReg) (st : State) : exec (Code.u (.sxor d a b)).instr st = execSxor d a b st := rfl
theorem exec_sandn (d : SReg) (a : SReg) (b : SReg) (st : State) : exec (Code.u (.sandn d a b)).instr st = execSandn d a b st := rfl
theorem exec_sshl (d : SReg) (a : SReg) (b : SReg) (st : State) : exec (Code.u (.sshl d a b)).instr st = execSshl d a b st := rfl
theorem exec_sshr (d : SReg) (a : SReg) (b : SReg) (st : State) : exec (Code.u (.sshr d a b)).instr st = execSshr d a b st := rfl
theorem exec_ssar (d : SReg) (a : SReg) (b : SReg) (st : State) : exec (Code.u (.ssar d a b)).instr st = execSsar d a b st := rfl
theorem exec_smin (d : SReg) (a : SReg) (b : SReg) (st : State) : exec (Code.u (.smin d a b)).instr st = execSmin d a b st := rfl
theorem exec_smax (d : SReg) (a : SReg) (b : SReg) (st : State) : exec (Code.u (.smax d a b)).instr st = execSmax d a b st := rfl
theorem exec_sminz (d : SReg) (a : SReg) (b : SReg) (st : State) : exec (Code.u (.sminz d a b)).instr st = execSminz d a b st := rfl
theorem exec_smaxz (d : SReg) (a : SReg) (b : SReg) (st : State) : exec (Code.u (.smaxz d a b)).instr st = execSmaxz d a b st := rfl
theorem exec_smov (d : SReg) (a : SReg) (st : State) : exec (Code.u (.smov d a)).instr st = execSmov d a st := rfl
theorem exec_saddi (d : SReg) (a : SReg) (i : BitVec 13) (st : State) : exec (Code.u (.saddi d a i)).instr st = execSaddi d a i st := rfl
theorem exec_sandi (d : SReg) (a : SReg) (i : BitVec 13) (st : State) : exec (Code.u (.sandi d a i)).instr st = execSandi d a i st := rfl
theorem exec_sori (d : SReg) (a : SReg) (i : BitVec 13) (st : State) : exec (Code.u (.sori d a i)).instr st = execSori d a i st := rfl
theorem exec_sshli (d : SReg) (a : SReg) (n : BitVec 6) (st : State) : exec (Code.u (.sshli d a n)).instr st = execSshli d a n st := rfl
theorem exec_sshri (d : SReg) (a : SReg) (n : BitVec 6) (st : State) : exec (Code.u (.sshri d a n)).instr st = execSshri d a n st := rfl
theorem exec_ssari (d : SReg) (a : SReg) (n : BitVec 6) (st : State) : exec (Code.u (.ssari d a n)).instr st = execSsari d a n st := rfl
theorem exec_smovi (d : SReg) (i : BitVec 19) (st : State) : exec (Code.u (.smovi d i)).instr st = execSmovi d i st := rfl
theorem exec_scmp (c : BitVec 4) (d : SReg) (a : SReg) (b : SReg) (st : State) : exec (Code.u (.scmp c d a b)).instr st = execScmp c d a b st := rfl
theorem exec_sbr (c : BitVec 4) (a : SReg) (s : BitVec 15) (st : State) : exec (Code.u (.sbr c a s)).instr st = execSbr c a s st := rfl
theorem exec_jmp (i : BitVec 25) (st : State) : exec (Code.u (.jmp i)).instr st = execJmp i st := rfl
theorem exec_call (i : BitVec 25) (st : State) : exec (Code.u (.call i)).instr st = execCall i st := rfl
theorem exec_ret (a : SReg) (st : State) : exec (Code.u (.ret a)).instr st = execRet a st := rfl
theorem exec_pfx (p : BitVec 25) (st : State) : exec (Code.u (.pfx p)).instr st = execPfx p st := rfl
theorem exec_vbcast (v : VReg) (s : SReg) (i : BitVec 8) (st : State) : exec (Code.u (.vbcast v s i)).instr st = execVbcast v s i st := rfl
theorem exec_vread (v : VReg) (s : SReg) (i : BitVec 8) (st : State) : exec (Code.u (.vread v s i)).instr st = execVread v s i st := rfl
theorem exec_mread (s : SReg) (i : BitVec 8) (st : State) : exec (Code.u (.mread s i)).instr st = execMread s i st := rfl
theorem exec_mwrite (s : SReg) (i : BitVec 8) (st : State) : exec (Code.u (.mwrite s i)).instr st = execMwrite s i st := rfl
theorem exec_pread (s : SReg) (i : BitVec 8) (st : State) : exec (Code.u (.pread s i)).instr st = execPread s i st := rfl
theorem exec_kread (s : SReg) (i : BitVec 8) (st : State) : exec (Code.u (.kread s i)).instr st = execKread s i st := rfl
theorem exec_sldB32 (a : SReg) (b : SReg) (k : Tok) (i : BitVec 5) (st : State) : exec (Code.u (.sldB32 a b k i)).instr st = execSldB32 a b k i st := rfl
theorem exec_sldB64 (a : SReg) (b : SReg) (k : Tok) (i : BitVec 5) (st : State) : exec (Code.u (.sldB64 a b k i)).instr st = execSldB64 a b k i st := rfl
theorem exec_sstB32 (a : SReg) (b : SReg) (k : Tok) (i : BitVec 5) (st : State) : exec (Code.u (.sstB32 a b k i)).instr st = execSstB32 a b k i st := rfl
theorem exec_sstB64 (a : SReg) (b : SReg) (k : Tok) (i : BitVec 5) (st : State) : exec (Code.u (.sstB64 a b k i)).instr st = execSstB64 a b k i st := rfl
theorem exec_sldcB64 (a : SReg) (b : SReg) (k : Tok) (i : BitVec 5) (st : State) : exec (Code.u (.sldcB64 a b k i)).instr st = execSldcB64 a b k i st := rfl
theorem exec_sstcB64 (a : SReg) (b : SReg) (k : Tok) (i : BitVec 5) (st : State) : exec (Code.u (.sstcB64 a b k i)).instr st = execSstcB64 a b k i st := rfl
theorem exec_tld (a : SReg) (b : SReg) (k : Tok) (n : BitVec 5) (st : State) : exec (Code.u (.tld a b k n)).instr st = execTld a b k n st := rfl
theorem exec_tst (a : SReg) (b : SReg) (k : Tok) (n : BitVec 5) (st : State) : exec (Code.u (.tst a b k n)).instr st = execTst a b k n st := rfl
theorem exec_tzero (k : Tok) (n : BitVec 5) (st : State) : exec (Code.u (.tzero k n)).instr st = execTzero k n st := rfl
theorem exec_accld (a : SReg) (b : SReg) (k : Tok) (n : BitVec 5) (st : State) : exec (Code.u (.accld a b k n)).instr st = execAccld a b k n st := rfl
theorem exec_accst (a : SReg) (b : SReg) (k : Tok) (n : BitVec 5) (st : State) : exec (Code.u (.accst a b k n)).instr st = execAccst a b k n st := rfl
theorem exec_accz (k : Tok) (n : BitVec 5) (st : State) : exec (Code.u (.accz k n)).instr st = execAccz k n st := rfl
theorem exec_movsh (a : SReg) (k : Tok) (n : BitVec 5) (st : State) : exec (Code.u (.movsh a k n)).instr st = execMovsh a k n st := rfl
theorem exec_tcvt (a : SReg) (k : Tok) (n : BitVec 5) (st : State) : exec (Code.u (.tcvt a k n)).instr st = execTcvt a k n st := rfl
theorem exec_tspk (a : SReg) (k : Tok) (n : BitVec 5) (st : State) : exec (Code.u (.tspk a k n)).instr st = execTspk a k n st := rfl
theorem exec_tqld (a : SReg) (k : Tok) (n : BitVec 5) (st : State) : exec (Code.u (.tqld a k n)).instr st = execTqld a k n st := rfl
theorem exec_cpyIn (a : SReg) (b : SReg) (k : Tok) (st : State) : exec (Code.u (.cpyIn a b k)).instr st = execCpyIn a b k st := rfl
theorem exec_cpyOut (a : SReg) (b : SReg) (k : Tok) (st : State) : exec (Code.u (.cpyOut a b k)).instr st = execCpyOut a b k st := rfl
theorem exec_cpyCc (a : SReg) (b : SReg) (k : Tok) (st : State) : exec (Code.u (.cpyCc a b k)).instr st = execCpyCc a b k st := rfl
theorem exec_cupop (a : SReg) (b : SReg) (k : Tok) (o : BitVec 5) (st : State) : exec (Code.u (.cupop a b k o)).instr st = execCupop a b k o st := rfl
theorem exec_kcfg (a : SReg) (b : SReg) (k : Tok) (st : State) : exec (Code.u (.kcfg a b k)).instr st = execKcfg a b k st := rfl
theorem exec_kcfgStream (b : SReg) (k : Tok) (st : State) : exec (Code.u (.kcfgStream b k)).instr st = execKcfgStream b k st := rfl
theorem exec_kdrain (a : SReg) (b : SReg) (k : Tok) (i : BitVec 5) (st : State) : exec (Code.u (.kdrain a b k i)).instr st = execKdrain a b k i st := rfl
theorem exec_kclr (k : Tok) (st : State) : exec (Code.u (.kclr k)).instr st = execKclr k st := rfl
theorem exec_kstat (a : SReg) (k : Tok) (i : BitVec 5) (st : State) : exec (Code.u (.kstat a k i)).instr st = execKstat a k i st := rfl
theorem exec_post (a : SReg) (b : SReg) (k : Tok) (i : BitVec 5) (st : State) : exec (Code.u (.post a b k i)).instr st = execPost a b k i st := rfl
theorem exec_arrive (a : SReg) (b : SReg) (k : Tok) (st : State) : exec (Code.u (.arrive a b k)).instr st = execArrive a b k st := rfl
theorem exec_append (a : SReg) (b : SReg) (k : Tok) (i : BitVec 5) (st : State) : exec (Code.u (.append a b k i)).instr st = execAppend a b k i st := rfl
theorem exec_seal (a : SReg) (k : Tok) (st : State) : exec (Code.u (.seal a k)).instr st = execSeal a k st := rfl
theorem exec_waitbm (a : SReg) (b : SReg) (st : State) : exec (Code.u (.waitbm a b)).instr st = execWaitbm a b st := rfl
theorem exec_tbar  (st : State) : exec (Code.u (.tbar)).instr st = execTbar  st := rfl
theorem exec_pbar  (st : State) : exec (Code.u (.pbar)).instr st = execPbar  st := rfl
theorem exec_dqpush (a : SReg) (k : Tok) (st : State) : exec (Code.u (.dqpush a k)).instr st = execDqpush a k st := rfl
theorem exec_dqpop (a : SReg) (k : Tok) (st : State) : exec (Code.u (.dqpop a k)).instr st = execDqpop a k st := rfl
theorem exec_getc (d : SReg) (b : BitVec 6) (st : State) : exec (Code.u (.getc d b)).instr st = execGetc d b st := rfl
theorem exec_setc (d : BitVec 6) (a : SReg) (st : State) : exec (Code.u (.setc d a)).instr st = execSetc d a st := rfl
theorem exec_eret  (st : State) : exec (Code.u (.eret)).instr st = execEret  st := rfl
theorem exec_fence (d : BitVec 6) (st : State) : exec (Code.u (.fence d)).instr st = execFence d st := rfl
theorem exec_synce  (st : State) : exec (Code.u (.synce)).instr st = execSynce  st := rfl
theorem exec_issueCycle (core : Nat) (st : State) : exec (.issueCycle core) st = execIssueCycle core st := rfl
theorem exec_pcAged (core slot : Nat) (pc : Addr) (st : State) : exec (.pcAged core slot pc) st = execPcAged core slot pc st := rfl
theorem exec_longLatencyComplete (core slot op lane : Nat) (st : State) : exec (.longLatencyComplete core slot op lane) st = execLongLatencyComplete core slot op lane st := rfl
theorem exec_speculationResolve (core slot : Nat) (st : State) : exec (.speculationResolve core slot) st = execSpeculationResolve core slot st := rfl
theorem exec_joinRelease (core slot : Nat) (m : MReg) (st : State) : exec (.joinRelease core slot m) st = execJoinRelease core slot m st := rfl
theorem exec_exitsRestart (core slot : Nat) (st : State) : exec (.exitsRestart core slot) st = execExitsRestart core slot st := rfl
theorem exec_regroupPack (team : Nat) (st : State) : exec (.regroupPack team) st = execRegroupPack team st := rfl
theorem exec_barrierComplete (team : Nat) (st : State) : exec (.barrierComplete team) st = execBarrierComplete team st := rfl
theorem exec_dqpopDeliver (team : Nat) (st : State) : exec (.dqpopDeliver team) st = execDqpopDeliver team st := rfl
theorem exec_waitbmProceed (core slot : Nat) (st : State) : exec (.waitbmProceed core slot) st = execWaitbmProceed core slot st := rfl
theorem exec_synceProceed (core slot : Nat) (st : State) : exec (.synceProceed core slot) st = execSynceProceed core slot st := rfl
theorem exec_rangeLockGrant (core slot : Nat) (st : State) : exec (.rangeLockGrant core slot) st = execRangeLockGrant core slot st := rfl
theorem exec_trapEntry (core slot : Nat) (st : State) : exec (.trapEntry core slot) st = execTrapEntry core slot st := rfl
theorem exec_sqEntryLeave (core slot : Nat) (st : State) : exec (.sqEntryLeave core slot) st = execSqEntryLeave core slot st := rfl
theorem exec_outboundToMemory (core n : Nat) (st : State) : exec (.outboundToMemory core n) st = execOutboundToMemory core n st := rfl
theorem exec_staleCopyInstall (core ctx : Nat) (va : Addr) (st : State) : exec (.staleCopyInstall core ctx va) st = execStaleCopyInstall core ctx va st := rfl
theorem exec_staleCopyDiscard (core line : Nat) (st : State) : exec (.staleCopyDiscard core line) st = execStaleCopyDiscard core line st := rfl
theorem exec_agentStep (agent n : Nat) (st : State) : exec (.agentStep agent n) st = execAgentStep agent n st := rfl
theorem exec_cpyInstanceStart (team : Nat) (st : State) : exec (.cpyInstanceStart team) st = execCpyInstanceStart team st := rfl
theorem exec_cpyInstanceComplete (agent : Nat) (st : State) : exec (.cpyInstanceComplete agent) st = execCpyInstanceComplete agent st := rfl
theorem exec_agentComplete (agent : Nat) (st : State) : exec (.agentComplete agent) st = execAgentComplete agent st := rfl
theorem exec_tileCommandComplete (team half : Nat) (st : State) : exec (.tileCommandComplete team half) st = execTileCommandComplete team half st := rfl
theorem exec_groupSlotFree (core slot : Nat) (st : State) : exec (.groupSlotFree core slot) st = execGroupSlotFree core slot st := rfl
theorem exec_distributorDecision (dt : Nat) (st : State) : exec (.distributorDecision dt) st = execDistributorDecision dt st := rfl
theorem exec_gangReservationRelease  (st : State) : exec (.gangReservationRelease) st = execGangReservationRelease  st := rfl
theorem exec_taskBlocking (slot : Nat) (st : State) : exec (.taskBlocking slot) st = execTaskBlocking slot st := rfl
theorem exec_teamWriteBackStart (team : Nat) (st : State) : exec (.teamWriteBackStart team) st = execTeamWriteBackStart team st := rfl
theorem exec_teamRetirement (team : Nat) (st : State) : exec (.teamRetirement team) st = execTeamRetirement team st := rfl
theorem exec_preemptDeadlineExpiry (n : Nat) (st : State) : exec (.preemptDeadlineExpiry n) st = execPreemptDeadlineExpiry n st := rfl
theorem exec_contextSaveComplete (ctx : Nat) (st : State) : exec (.contextSaveComplete ctx) st = execContextSaveComplete ctx st := rfl
theorem exec_hostPost (m : HostMsg) (st : State) : exec (.hostPost m) st = execHostPost m st := rfl
theorem exec_hostArrive (m : HostMsg) (st : State) : exec (.hostArrive m) st = execHostArrive m st := rfl
theorem exec_hostWrite (m : HostMsg) (st : State) : exec (.hostWrite m) st = execHostWrite m st := rfl
theorem exec_hostWriteApply  (st : State) : exec (.hostWriteApply) st = execHostWriteApply  st := rfl
theorem exec_hostRead (m : HostMsg) (st : State) : exec (.hostRead m) st = execHostRead m st := rfl
theorem exec_hostInv (m : HostMsg) (st : State) : exec (.hostInv m) st = execHostInv m st := rfl
theorem exec_invalidationComplete  (st : State) : exec (.invalidationComplete) st = execInvalidationComplete  st := rfl
theorem exec_hostPreempt (m : HostMsg) (st : State) : exec (.hostPreempt m) st = execHostPreempt m st := rfl
theorem exec_hostResume (m : HostMsg) (st : State) : exec (.hostResume m) st = execHostResume m st := rfl
theorem exec_hostSave (m : HostMsg) (st : State) : exec (.hostSave m) st = execHostSave m st := rfl
theorem exec_hostRestore (m : HostMsg) (st : State) : exec (.hostRestore m) st = execHostRestore m st := rfl
theorem exec_hostReset (m : HostMsg) (st : State) : exec (.hostReset m) st = execHostReset m st := rfl
theorem exec_remoteAccessRequest (r : RemoteReq) (st : State) : exec (.remoteAccessRequest r) st = execRemoteAccessRequest r st := rfl
theorem exec_targetCheckAnswer (ctx : Nat) (page : Addr) (ans : TargetAnswer) (st : State) : exec (.targetCheckAnswer ctx page ans) st = execTargetCheckAnswer ctx page ans st := rfl
theorem exec_fabricUnreachable (fid dt : Nat) (st : State) : exec (.fabricUnreachable fid dt) st = execFabricUnreachable fid dt st := rfl
theorem exec_collectiveDataArrival (d : PeerData) (st : State) : exec (.collectiveDataArrival d) st = execCollectiveDataArrival d st := rfl
theorem exec_collectiveComplete (slot : Nat) (st : State) : exec (.collectiveComplete slot) st = execCollectiveComplete slot st := rfl
theorem exec_collectiveAbortReceive (cid : DWord) (st : State) : exec (.collectiveAbortReceive cid) st = execCollectiveAbortReceive cid st := rfl
theorem exec_swapRead (r : GroupRead) (st : State) : exec (.swapRead r) st = execSwapRead r st := rfl
theorem exec_swapWrite (group : Nat) (st : State) : exec (.swapWrite group) st = execSwapWrite group st := rfl
theorem exec_swapCommit (group : Nat) (st : State) : exec (.swapCommit group) st = execSwapCommit group st := rfl
theorem exec_swapRelease (group : Nat) (st : State) : exec (.swapRelease group) st = execSwapRelease group st := rfl
theorem exec_patrolScrubStep (domain : Nat) (finds : List RowFinding) (st : State) : exec (.patrolScrubStep domain finds) st = execPatrolScrubStep domain finds st := rfl
theorem exec_scrubPassEnd (domain : Nat) (st : State) : exec (.scrubPassEnd domain) st = execScrubPassEnd domain st := rfl
theorem exec_precharge (stack row activations : Nat) (read : CounterRead) (st : State) : exec (.precharge stack row activations read) st = execPrecharge stack row activations read st := rfl
theorem exec_faultDetected (f : FaultReport) (st : State) : exec (.faultDetected f) st = execFaultDetected f st := rfl
theorem exec_powerOn  (st : State) : exec (.powerOn) st = execPowerOn  st := rfl
theorem exec_rstcWarm  (st : State) : exec (.rstcWarm) st = execRstcWarm  st := rfl
theorem exec_rstcCold  (st : State) : exec (.rstcCold) st = execRstcCold  st := rfl
theorem exec_attcQuote  (st : State) : exec (.attcQuote) st = execAttcQuote  st := rfl
theorem exec_quoteReady  (st : State) : exec (.quoteReady) st = execQuoteReady  st := rfl
theorem exec_attcVerify  (st : State) : exec (.attcVerify) st = execAttcVerify  st := rfl
theorem exec_attcRevokeKey (bits : BitVec 4) (st : State) : exec (.attcRevokeKey bits) st = execAttcRevokeKey bits st := rfl
theorem exec_attcRaiseSvnmin  (st : State) : exec (.attcRaiseSvnmin) st = execAttcRaiseSvnmin  st := rfl
theorem exec_stageAdvance (failCode : BitVec 8) (st : State) : exec (.stageAdvance failCode) st = execStageAdvance failCode st := rfl
theorem exec_wdogWrite (v : DWord) (st : State) : exec (.wdogWrite v) st = execWdogWrite v st := rfl
theorem exec_watchdogExpiry (r : FirmwareRun) (st : State) : exec (.watchdogExpiry r) st = execWatchdogExpiry r st := rfl
theorem exec_ptrootWrite (ctx : Nat) (v : DWord) (st : State) : exec (.ptrootWrite ctx v) st = execPtrootWrite ctx v st := rfl
theorem exec_dbgcWrite (core slot : Nat) (v : Word) (st : State) : exec (.dbgcWrite core slot v) st = execDbgcWrite core slot v st := rfl
theorem exec_tswsRead (seq : BitVec 16) (st : State) : exec (.tswsRead seq) st = execTswsRead seq st := rfl
theorem exec_mgmtRegisterWrite (off : BitVec 41) (v : DWord) (st : State) : exec (.mgmtRegisterWrite off v) st = execMgmtRegisterWrite off v st := rfl
theorem exec_powerClamp  (st : State) : exec (.powerClamp) st = execPowerClamp  st := rfl
theorem exec_thermalClamp  (st : State) : exec (.thermalClamp) st = execThermalClamp  st := rfl
theorem exec_thermalShutdown  (st : State) : exec (.thermalShutdown) st = execThermalShutdown  st := rfl
theorem exec_malformedMessage (m : HostMsg) (st : State) : exec (.malformedMessage m) st = execMalformedMessage m st := rfl
theorem exec_powerLoss (landed : Bool) (st : State) : exec (.powerLoss landed) st = execPowerLoss landed st := rfl

end Sys2Proof.Machine
end

