-- ==== Sys2Proof/Tests/World.lean ====
section
/-! SUPPORT. A small machine for the tests: one team of two groups' worth of registers, a group of two lanes that issues a
bundle, a lantern, and a context whose pages are cached. -/

open Sys2Proof Sys2Proof.Machine Sys2Proof.Claims

namespace Sys2Proof.Tests

set_option Elab.async false

/-- A lane with 16 vector registers: v2 holds its number, v4 the last word of a slice, v5 that of the scratchpad, v6 that of the
window, v8 and v9 a virtual address, v10 a format word. -/
def la (j : Nat) : Lane :=
  { pc := 0x10000, v := [0, 1, BitVec.ofNat 32 j, 0, 508, 65532, 0x1FFFFFFC, 64, 0x20000, 0, 0x122, 0, 0, 0, 0, 0] }

def sd : Side :=
  { core := 0, tiles := List.replicate 4 {}, comps := List.replicate 4 {}, shapes := [65570, 65570, 262177, 1114146], accs := List.replicate 2 {} }

def tm : Team :=
  { id := 1, slot := 0, ctx := 0, core := 0, lines := 1024, laneb := 512, vregs := 16, tiles := 4, accs := 2, kas := 64, width := 2, sides := [sd] }

def gr : Machine.Group := { core := 0, slot := 0, team := 1, index := 0, width := 2, lanes := [la 0, la 1] }

/-- A bundle of both lanes, at the first word of its unit. -/
def bd : Bundle := { core := 0, slot := 0, lanes := 3, unit := 0x10000, pos := 0x10000 }

/-- The bundle of a U-set unit whose join is complete. -/
def bu : Bundle := { bd with gathered := true }

/-- A context with a code page, a page of DRAM and the first page of the window, all cached. -/
def cx : Context :=
  { ptroot := 0x100001, sideb := 0x7E0000000000, hbase := 0x10000, cslot := 0x38008000, tlb := [(0x10000, 0x10000, 0x11000F), (0x20000, 0x10000, 0x12000F), (Config.windowBase, 0x10000, 0x2F),
    (Config.windowBase + 0x1FFF0000, 0x10000, 0x1FFF002F)] }

/-- A machine in which a group issues a bundle. -/
def wd (g : Machine.Group) (b : Bundle) : State :=
  { State.reset with plat := { State.reset.plat with stage := 3 }, ctxs := State.reset.ctxs.set 0 cx, teams := [tm], groups := [g], issue := [b] }

def st : State := wd gr bd

/-- Its lanes stand at the join of a U-set unit. -/
def gj : Machine.Group :=
  { gr with lanes := gr.lanes.map (fun l => { l with park := .join, gather := .uset, next := 0x10004 }) }

def su : State := wd gj bu

/-- A lantern context of the team. -/
def ln : Lantern := { core := 0, slot := 128, team := 1, pc := 0x10000 }
def bl : Bundle := { core := 0, slot := 128, unit := 0x10000, pos := 0x10000 }
def sl : State := { st with lanterns := [ln], issue := [bl] }

theorem la_fpc (g : Machine.Group) (h : ∀ l ∈ g.lanes, l.olds = []) (c : fpcChk g.fpc = false) (j : Nat) :
    fpcChk (g.fpcFor (g.lane j)) = false := by
  have : (g.lane j).olds = [] := by
    unfold Group.lane
    rw [List.getD_eq_getElem?_getD]
    rcases hj : g.lanes[j]? with _ | l
    · rfl
    · exact h l (List.mem_of_getElem? hj)
  simp only [Group.fpcFor, Lane.sees, this, List.find?_nil]
  simpa [fpcChk] using c

theorem gr_room : ∀ k : Tok, gr.fe.room k = true := by decide

theorem bd_whole : bd.Whole := ⟨rfl, rfl, rfl, rfl, rfl⟩

/-- A word executes normally in the small machine as soon as it is legal there. -/
theorem lready (i : LInstr) (legal : legality tm false false (.l i) i.encode = none) (n : Nat := 1) : LReady i st bd gr tm n where
  head := rfl
  slot := by decide
  group := rfl
  team := rfl
  whole := bd_whole
  active := by show (3 : LaneSet) ≠ 0; decide
  legal := legal
  room := fun k _ => gr_room k
  waited := by
    have h : ∀ j, fpcChk ((gr.issued bd n).fpcFor ((gr.issued bd n).lane j)) = false :=
      la_fpc _ (by simp [gr, Group.issued, Group.upd, mapLanes, bd, la, Lane.pass, Lane.tick, landDue]) (by simp [Group.issued, Group.upd, gr, fpcChk])
    simp [underWait, h]
  uniform := by
    have h : ∀ j, fpcChk ((gr.issued bd n).fpcFor ((gr.issued bd n).lane j)) = false :=
      la_fpc _ (by simp [gr, Group.issued, Group.upd, mapLanes, bd, la, Lane.pass, Lane.tick, landDue]) (by simp [Group.issued, Group.upd, gr, fpcChk])
    unfold notUniform
    split <;> simp [h]

theorem gj_room : ∀ k : Tok, gj.fe.room k = true := by decide
theorem ln_room : ∀ k : Tok, ln.fe.room k = true := by decide

/-- How a U-set word issues in the small machine's group, and in its lantern. -/
def xg (i : UInstr) : Ix := { b := bu, core := 0, slot := 0, t := tm, act := 3, word := i.encode }
def xl (i : UInstr) : Ix := { b := bl, core := 0, slot := 128, t := tm, act := 0, word := i.encode, lan := true }

/-- The state in which its own effect is computed. -/
def s1g : State := su.pop.setGroup (leaveJoin gj 3 0x10004)
def s1l : State := sl.pop.setLantern { ln.tick with pc := 0x10004 }

theorem uready (i : UInstr) (legal : legality tm false false (.u i) i.encode = none) : UReady i su (xg i) s1g := by
  have h := UReady.group (i := i) (s := su) bu gj tm false ⟨rfl, by decide, rfl, rfl⟩ rfl rfl (fun k _ => gj_room k) legal
    (by simp [unitUnderWait, Group.arrived, bu, gj, gr, fpcChk])
  exact h

theorem lready_lantern (i : UInstr) (legal : legality tm true false (.u i) i.encode = none) : UReady i sl (xl i) s1l :=
  UReady.lantern bl ln tm rfl (by decide) rfl rfl (fun k _ => ln_room k) legal

/-- The same with four scalars from s16 up, another team, and the machine as some change leaves it. -/
def fs (a b c d : DWord) : Front :=
  { s := List.replicate 16 0 ++ [a, b, c, d] ++ List.replicate 44 0 }
def gw (f : Front) : Machine.Group := { gj with fe := f }
def sv (f : Front) (t : Team) (u : State → State) : State := u { (wd (gw f) bu) with teams := [t] }
def xv (i : UInstr) (t : Team) : Ix := { b := bu, core := 0, slot := 0, t := t, act := 3, word := i.encode }
def s1v (f : Front) (t : Team) (u : State → State) : State := (sv f t u).pop.setGroup (leaveJoin (gw f) 3 0x10004)

theorem gw_members (f : Front) (h : Bool) : (gw f).members h = gj.members h := by cases h <;> rfl
theorem gw_full (f : Front) : (gw f).fullAt false = some bu.unit := by
  have e : (gw f).fullAt false = gj.fullAt false := by unfold Group.fullAt; rw [gw_members]; rfl
  rw [e]; rfl

theorem ureadyV (i : UInstr) (f : Front) (t : Team) (u : State → State) (iss : Issues (sv f t u) bu (gw f) t)
    (room : ∀ k, f.room k = true) (legal : legality t false false (.u i) i.encode = none) :
    UReady i (sv f t u) (xv i t) (s1v f t u) := by
  have m : ((gw f).arrived bu).members false = 3 := by
    show (gw f).members false = 3
    rw [gw_members]; rfl
  have h := UReady.group (i := i) (s := sv f t u) bu (gw f) t false iss (by rw [gw_members]; rfl) (gw_full f) (fun k _ => room k) legal
    (by simp [unitUnderWait, Group.arrived, bu, gw, gj, gr, fpcChk])
  rw [m] at h
  exact h

theorem fs_room (a b c d : DWord) (k : Tok) : (fs a b c d).room k = true := gr_room k

/-- A property of both lanes. -/
theorem both_of {P : Nat → Prop} {l : List Nat} (e : l = [0, 1]) (h0 : P 0) (h1 : P 1) : ∀ j ∈ l, P j := by
  intro j hj
  simp only [e, List.mem_cons, List.not_mem_nil, or_false] at hj
  rcases hj with rfl | rfl
  · exact h0
  · exact h1
theorem both {P : Nat → Prop} (h0 : P 0) (h1 : P 1) : ∀ j ∈ lanesIn (gr.activeOf bd 1), P j := both_of (by decide) h0 h1

end Sys2Proof.Tests
end

