-- ==== Sys2Proof/Tests/Device.lean ====
section
/-! SUPPORT. Machines that meet the hypotheses of the statements about frames, the front end, traps, stores and agents, clause by
clause. -/

open Sys2Proof Sys2Proof.Machine Sys2Proof.Claims

namespace Sys2Proof.Tests

set_option Elab.async false

/-! ### Frames -/

theorem test_registerFrames_witness :
    (LReady (.iadd false 0 15 1) st bd gr tm ∧ gr.dbgc.getLsbD 0 = false ∧ registerWord (.iadd false 0 15 1) bd.pfx) ∧
    (∃ lat f, floatResult (.fadd false 3 0 1) = some (lat, f) ∧ (gr.issued bd 1).quiet (gr.activeOf bd 1) (laneOuts (.fadd false 3 0 1) bd gr f)) ∧
    (UReady (.sadd 63 0 0) su (xg (.sadd 63 0 0)) s1g ∧ scalarWritten none (.sadd 63 0 0) = some 63 ∧
      UReady (.getc 63 16) su (xg (.getc 63 16)) s1g ∧ scalarWritten none (.getc 63 16) = some 63 ∧ tm.det = false ∧
      ∀ g, s1g.group? 0 0 = some g → g.dbgc.getLsbD 0 = false) ∧
    (UReady (.getc 63 4) sl (xl (.getc 63 4)) s1l ∧ scalarWritten none (.getc 63 4) = some 63 ∧ (xl (.getc 63 4)).t.det = false) :=
  ⟨⟨lready _ rfl, rfl, Or.inl rfl⟩, ⟨_, _, rfl, both (by rfl) (by rfl)⟩, ⟨uready _ rfl, rfl, uready _ rfl, rfl, rfl, fun g h => by cases h; rfl⟩,
   lready_lantern _ rfl, rfl, rfl⟩

theorem test_storeFrames_witness :
    (∃ m, storeForm (.stcB32 3 6 0 0) = some m ∧ LReady (.stcB32 3 6 0 0) st bd gr tm ∧ gr.dbgc.getLsbD 0 = false ∧ ∀ j ∈ lanesIn (gr.activeOf bd 1),
      Passes (looked (.stcB32 3 6 0 0) st bd gr tm m) tm 0 gr.fe.sq .store m.w (offOf bd gr m j) (cupolaBase + 0x1FFFFFFC) false m.sp) ∧
    (Unmoved State.reset ∧ State.reset.poison = [] ∧ State.reset.mem.wf = true ∧
      dramTop - 4 + [1, 2, 3, 4].length ≤ dramTop ∧ cupolaBase ≤ cupolaBase) :=
  ⟨⟨_, rfl, lready _ rfl, rfl, both ⟨nofun, rfl, by decide, ⟨_, rfl, rfl, rfl⟩, nofun, rfl⟩ ⟨nofun, rfl, by decide, ⟨_, rfl, rfl, rfl⟩, nofun, rfl⟩⟩,
   ⟨nofun, nofun⟩, rfl, rfl, by decide, by decide⟩

theorem test_writesBecomeVisible_witness : (la 0).pend = [] ∧ (la 0).spec = none ∧ (15 : VReg).toNat < (la 0).v.length ∧ (47 : PReg).toNat < 48 ∧
    (63 : Nat) < gr.fe.s.length ∧ (gr.lane 1).live = true ∧ (gr.lane 1).olds = [] ∧ (gr.lane 1).pend = [] := by decide

/-- A register of v16 to v127 in a kernel of 16, in the active lanes; and both lanes left out by a guard. -/
theorem test_failedChecks_witness :
    (Issues st bd gr tm ∧ bd.Whole ∧ isLset 0x1FC001 = true ∧ gr.activeOf bd 1 ≠ 0 ∧ causeOf 0x1FC001 tm 0 false gr.fe.handler = some 6) ∧
    (let b : Bundle := { bd with guard := some (1, false) }
     Issues (wd gr b) b gr tm ∧ b.Whole ∧ gr.activeOf b 1 = 0 ∧ registerWord (.iadd false 0 15 1) b.pfx) ∧
    (let g : Machine.Group := { gr with fe := { gr.fe with handler := true } }
     let hits : List Hit := [{ lane := 0, vec := 0x180, cause := 4 }, { lane := 1, vec := 0x100, cause := 3 }, { lane := 1, vec := 0x280, cause := 2, report := some (1, 5) }]
     (wd g bd).group? 0 0 = some g ∧ (wd g bd).team? g.team = some tm ∧ g.fe.handler = true ∧
      (∀ h ∈ hits, h.lane < g.lanes.length ∧ h.lane < 64) ∧ (∀ h ∈ hits, (g.lane h.lane).spec = none ∧ (g.lane h.lane).handler = false)) :=
  ⟨⟨⟨rfl, by decide, rfl, rfl⟩, bd_whole, by decide, by decide, by decide +kernel⟩,
   ⟨⟨rfl, by decide, rfl, rfl⟩, ⟨rfl, rfl, rfl, rfl, rfl⟩, by decide, Or.inl rfl⟩, rfl, rfl, rfl, by decide, by decide⟩

/-- At an illegal U-set word one lane of two, both, and the lantern. -/
theorem test_illegalUnitWords_witness : isLset 0xFE000000 = false ∧
    (let b : Bundle := { bd with lanes := 1 }
     Issues (wd gr b) b gr tm ∧ (gr.arrived b).fullAt false ≠ some b.unit) ∧
    (Issues (wd gr bd) bd gr tm ∧ (gr.arrived bd).fullAt false = some bd.unit ∧ (bd.lanes &&& gr.members true) = 0 ∧ causeOf 0xFE000000 tm 0 false false = some 1) ∧
    (sl.bundle? = some bl ∧ sl.lantern? 0 128 = some ln ∧ sl.teamOf 0 128 = some tm ∧ causeOf 0xFE000000 tm 0 true ln.fe.handler = some 1 ∧
      isLset 0x1FC001 = true ∧ causeOf 0x1FC001 tm 0 true ln.fe.handler = some 6) :=
  ⟨by decide, ⟨⟨rfl, by decide, rfl, rfl⟩, by decide⟩, ⟨⟨rfl, by decide, rfl, rfl⟩, by decide, by decide, by decide +kernel⟩,
   rfl, rfl, rfl, by decide +kernel, by decide, by decide +kernel⟩

/-! ### Encoding and stepping -/

theorem test_encoding_witness : (Code.l (.dsqrt true 126 0 14)).instr.wf ∧ encode (Code.l (.dsqrt true 126 0 14)).instr = some 0x5F3F8070 ∧
    decodeWord 0x5F3F8070 = .ok (Code.l (.dsqrt true 126 0 14)).instr := by decide +kernel

theorem test_stepsKeepTheCanonicalForm_witness : State.reset.Canonical ∧ ∃ t, step State.reset = .next t :=
  ⟨⟨rfl, .nil, .nil⟩, _, rfl⟩

/-- A word at the code page's first place, and an illegal one; a page that is not mapped; an event on the agenda. -/
def sf (w : Nat) : State := { st with mem := Memory.write [] 0x110000 (bytesOf 4 w) }
def sfar : State := { st with issue := [{ bd with pos := 0x30000 }] }

/-- A word with no turn asked for, a step of the device, and the turn of a bundle. -/
theorem test_stepRunsTheDecodedWord_witness :
    ((sf 0x0408000A).agenda = [] ∧ (sf 0x0408000A).issue = bd :: [] ∧ (sf 0x0408000A).teamOf 0 0 = some tm ∧ runsFirst (sf 0x0408000A) bd = bd ∧
      bd.duty = .word ∧ (sf 0x0408000A).group? 0 0 = some gr ∧ reportHits gr bd.lanes = [] ∧ bd.present (sf 0x0408000A) = bd ∧ bd.left (sf 0x0408000A) = false ∧ fetch (sf 0x0408000A) 0 bd.pos = .word 0x0408000A ∧
      decodeWord 0x0408000A = .ok (.iaddi false 2 0 10)) ∧
    (runsFirst (sf 0xFFFFFFFF) bd = bd ∧ fetch (sf 0xFFFFFFFF) 0 bd.pos = .word 0xFFFFFFFF ∧ (∃ c, decodeWord 0xFFFFFFFF = .error (.illegal c))) ∧
    (let b : Bundle := { bd with pos := 0x30000 }
     runsFirst sfar b = b ∧ b.present sfar = b ∧ b.left sfar = false ∧ fetch sfar 0 0x30000 = .trap 0x100 3) ∧
    Instr.powerClamp.code = none ∧ (let b : Bundle := { bd with duty := .lanes }
      runsFirst (wd gr b) b = b ∧ b.duty ≠ .word) ∧
    (let s : State := { sf 0x0408000A with agenda := [.word 0 0] }
     let s0 : State := { s with agenda := [] }
     s.bundleOf 0 0 = some bd ∧ s.teamOf 0 0 = some tm ∧ runsFirst s0 bd = bd ∧ bd.present s0 = bd ∧ bd.left s0 = false ∧
      fetch { s0 with issue := bd :: s.issue.erase bd } 0 bd.pos = .word 0x0408000A) :=
  ⟨⟨rfl, rfl, rfl, by decide +kernel, rfl, rfl, rfl, by decide +kernel, by decide +kernel, by decide +kernel, rfl⟩,
   ⟨by decide +kernel, by decide +kernel, 1, by decide +kernel⟩, ⟨by decide +kernel, by decide +kernel, by decide +kernel, by decide +kernel⟩, rfl,
   ⟨by decide +kernel, by decide⟩, by decide +kernel, rfl, by decide +kernel, by decide +kernel, by decide +kernel, by decide +kernel⟩

/-! ### The front end -/

/-- Between bundles, with another group. -/
def sr (g : Machine.Group) : State := { (wd g bd) with issue := [] }
def pick1 : Cand := { pc := 0x10000, lanes := 3, full := false, unit := unitAt (sr gr) 0 4 0x10000 {} }
def pick2 : Cand := { pick1 with pc := 0x10040, lanes := 1 }

/-- The PC with the more lanes goes first; the other one, once it is aged. -/
theorem test_unitSelection_witness : chosen gr [pick2, pick1] = [pick1, pick2] ∧ aged gr 0x10000 = false ∧ aged gr 0x10040 = false ∧
    before gr pick1 pick2 = true ∧
    (let g : Machine.Group := { gr with ages := [{ pc := 0x10040, missed := 64, last := 0, aged := false }] }
     aged g 0x10040 = true ∧ aged g 0x10000 = false ∧ chosen g [pick1, pick2] = [pick2, pick1]) ∧
    (let g : Machine.Group := { gr with withheld := [0x10040] }
     candidates g [pick1, pick2] = [pick1] ∧ candidates g [pick2] = [pick2]) := by decide +kernel

/-- A unit that counts on k1, and the group with so many on k1. -/
def ldCand (n : LaneSet) (pc : Addr) : Cand := { pick1 with pc := pc, lanes := n, unit := { pick1.unit with guard := none, word := 0x22E1440B } }
def gTok (n : Nat) : Machine.Group := { gr with fe := { gr.fe with tok := gr.fe.tok.set 1 n } }

theorem test_fitToken_witness : (ldCand 1 0x10000).counts (gTok 14) = some 1 ∧ (ldCand 3 0x10040).counts (gTok 14) = some 1 ∧ (gTok 14).fe.count 1 = 14 ∧
    fitToken (gTok 14) [ldCand 1 0x10000, ldCand 3 0x10040] = [ldCand 3 0x10040] ∧ fitToken (gTok 14) [ldCand 1 0x10040, ldCand 1 0x10000] = [ldCand 1 0x10000] ∧
    (gTok 13).fe.count 1 ≤ 13 ∧ fitToken (gTok 13) [ldCand 1 0x10000, ldCand 3 0x10040] = [ldCand 1 0x10000, ldCand 3 0x10040] := by decide +kernel

theorem test_oneGroupIssues_witness :
    (sr gr).issue = [] ∧ (255 : Nat) < 256 ∧ (sr gr).groups.filter (fun (x : Machine.Group) => x.core = 0) = [gr] ∧ (∀ l ∈ (sr gr).lanterns, l.core ≠ 0) ∧
    (sr gr).team? gr.team = some tm ∧ beginCycle (sr gr) 0 = sr gr ∧ gr.retired = false ∧ gr.poison = [] ∧ gr.bay < 4 ∧
    readyUnits (sr gr) gr = [pick1] ∧ pick1.lanes ≠ 0 ∧ ((sr gr).coreState 0).busy.getD gr.bay false = false := by
  decide +kernel

def age (pc : Addr) (n : Nat) : PcAge := { pc := pc, missed := n, last := 0, aged := false }

theorem test_pcAges_witness : (sr { gr with ages := [age 0x10000 64] }).group? 0 0 = some { gr with ages := [age 0x10000 64] } := rfl

def lop : LongOp := { id := 5, tok := 0, lands := [{ lane := 0, writes := w32 3 7 }, { lane := 1, writes := [] }] }
def gl : Machine.Group := { gr with fe := { gr.fe with ops := [lop], tok := gr.fe.tok.set 0 1 } }

/-- A result of a load, and one of a split GATH. -/
theorem test_resultsLand_witness : ((sr gl).group? 0 0 = some gl ∧ (sr gl).teamOf 0 0 = some tm ∧ gl.fe.ops.find? (fun x => x.id = 5) = some lop ∧
    lop.lands.find? (fun x => x.lane = 0) = some { lane := 0, writes := w32 3 7 } ∧ (∀ w ∈ w32 3 7, ∀ r < 64, w.1 ≠ .s r) ∧ (gl.lane 0).live = true ∧
    (gl.lane 0).spec = none) ∧
    (let d : Land := { lane := 0, writes := w32 3 7, split := true }
     let o : LongOp := { id := 5, tok := 0, lands := [d] }
     let g : Machine.Group := { gl with fe := { gl.fe with ops := [o] }, lanes := gl.lanes.set 0 { la 0 with park := .splitGather } }
     g.fe.ops.find? (fun x => x.id = 5) = some o ∧ o.lands.find? (fun x => x.lane = 0) = some d ∧ d.fid = none ∧ g.dbgc.getLsbD 0 = false ∧
      (g.lane 0).park = .splitGather) := by decide +kernel

theorem test_slotFrees_witness : let g : Machine.Group := { gr with retired := true, lanes := gr.lanes.map (fun l => { l with live := false }) }
    (sr g).group? 0 0 = some g ∧ g.retired = true ∧ g.liveLanes = 0 ∧ g.fe.ops = [] ∧ g.poison = [] := by decide +kernel

/-! ### Speculation -/

/-- A lane predicted wrongly, that has written v3, and one held at its branch. -/
def rec0 : SpecRec := { pc := 0x10000, tok := 0, p := 1, neg := false, disp := 0x10040, incs := List.replicate 15 0 }
def gsp : Machine.Group :=
  { gr with spec := some rec0, lanes := [{ la 0 with spec := some { taken := some true, count := 1, undo := [{ dst := .v 3, val := 9, unit := 1 }] } },
      { la 1 with spec := some { taken := none } }] }

theorem test_speculationEnds_witness : (0 : Nat) < gsp.lanes.length ∧ (gsp.lane 0).spec.isSome = true ∧ (gsp.lane 1).spec = some { taken := none } ∧
    (resolved rec0 (gsp.lane 0) { taken := some true, count := 1, undo := [{ dst := .v 3, val := 9, unit := 1 }] }).1 = true ∧
    (∀ l ∈ gsp.lanes, ∀ o ∈ l.olds, o.reg ≠ .specr) ∧
    (sr gsp).group? 0 0 = some gsp ∧ (sr gsp).teamOf 0 0 = some tm ∧ gsp.spec = some rec0 ∧ gsp.fe.count rec0.tok = 0 ∧
    ((lanesIn (gsp.where (fun _ l => l.spec.isSome))).foldl (resolveLane rec0) (gsp, false, [])).2.1 = true := by decide +kernel

/-! ### Parked lanes -/

def gp (p : Park) (k : Gather) (w : Waiting) : Machine.Group :=
  { gr with waiting := w, q := gr.q.set 15 3, lanes := gr.lanes.map (fun l => { l with park := p, gather := k, next := 0x10004 }) }
def ones : State → State := fun s => { s with mem := [(cupolaBase, 0x80)] }

theorem test_waitersGoOn_witness : (sr (gp .bitmap .none .none)).group? 0 0 = some (gp .bitmap .none .none) ∧ (gp .bitmap .none .none).dbgc.getLsbD 0 = false :=
  ⟨rfl, rfl⟩

/-- Lanes that wait for a range-lock entry: the lowest came first. -/
def gtk : Machine.Group :=
  { gr with lanes := [{ la 0 with park := .wait, ticket := some 3 }, { la 1 with park := .wait, gather := .uset, ticket := some 4 }] }

/-- The window's byte 0 has its bit 7 set, and clear; entries are free, and all taken. -/
theorem test_parkedUnitsGoOn_witness : ((gp .join (.join 15) .none).tryJoin false 15).2 ≠ 0 ∧
    ((ones (sr (gp .bitmap .none (.bitmap 0 7)))).group? 0 0 = some (gp .bitmap .none (.bitmap 0 7)) ∧
      (let s1 := (ones (sr (gp .bitmap .none (.bitmap 0 7)))).touch 0 Config.windowBase
       ∃ p, windowPage s1 0 0 .read = .ok p ∧ (s1.byte p.loc).getLsbD 7 = true) ∧
      (let s1 := (sr (gp .bitmap .none (.bitmap 0 7))).touch 0 Config.windowBase
       ∃ p, windowPage s1 0 0 .read = .ok p ∧ (s1.byte p.loc).getLsbD 7 = false)) ∧
    ((gp .wait .none .synce).waiting = .synce ∧ (gp .wait .none .synce).fe.ops = []) ∧
    (gtk.lanes.length ≤ 64 ∧ (∃ l ∈ gtk.lanes, l.live = true ∧ l.park = .wait ∧ l.ticket = some 3) ∧
      (∀ l ∈ gtk.lanes, l.live = true → l.park = .wait → ∀ m, l.ticket = some m → 3 ≤ m) ∧ mayLock (sr gtk) 0 (some 3) 1 = true ∧
      mayLock (sr gtk) 0 (some 4) 1 = false) := by
  refine ⟨by decide +kernel, ⟨rfl, ⟨_, rfl, by decide +kernel⟩, _, rfl, by decide +kernel⟩, by decide, by decide, by decide, ?_, by decide +kernel, by decide +kernel⟩
  intro l h _ _ m e
  simp only [gtk, List.mem_cons, List.not_mem_nil, or_false] at h
  rcases h with rfl | rfl <;> cases e <;> decide

def gbar : Machine.Group := gp .wait .uset (.barrier 2)

theorem test_teamEvents_witness : (∃ g ∈ (sr gbar).groups, g.team = 1 ∧ g.liveLanes ≠ 0) ∧
    ∀ x ∈ (sr gbar).groups, x.team = 1 → x.liveLanes ≠ 0 → x.waiting = .barrier 2 :=
  ⟨⟨gbar, List.mem_singleton.mpr rfl, rfl, by decide +kernel⟩, fun x h _ _ => by rw [List.mem_singleton.mp h]; rfl⟩

theorem test_exitsRestarts_witness : (sr (gp .join (.exits 0x10003 2) .none)).group? 0 0 = some (gp .join (.exits 0x10003 2) .none) ∧
    (gp .join (.exits 0x10003 2) .none).exitsAt false = some (0x10003, 2) ∧ (gp .join (.exits 0x10003 2) .none).fe.ops = [] ∧
    (gp .join (.exits 0x10003 2) .none).lanes.length ≤ 64 ∧ (gp .join (.exits 0x10003 2) .none).dbgc.getLsbD 0 = false := by decide +kernel

theorem test_regroupPacks_witness : let g := gp .join (.regroup 0 16) .none
    (sr g).groups.filter (fun g => g.team = 1 && g.liveLanes ≠ 0) = [g] ∧ (sr g).group? g.core g.slot = some g ∧
    g.regroupAt = some (0x10000, 0, 16) ∧ g.fe.ops = [] ∧ g.dbgc.getLsbD 0 = false ∧ (lanesIn (g.where (fun _ l => l.live && l.pred 0)))[1]? = some 1 := by decide +kernel

/-! ### Entering a handler -/

def tsp : TrapSplit := { lanes := 1, vec := 0x480, causes := [(0, 1)], unit := 0x10000, epc := 0x10004, word := 0x33400000 }
def gt : Machine.Group := { gr with traps := [tsp], lanes := gr.lanes.set 0 { la 0 with park := .trap } }
def lt0 : Lantern := { ln with traps := [{ tsp with lanes := 0 }], park := .trap }

/-- The oldest split of a group; in a stopped one, that which stops it; and the lantern's. -/
theorem test_handlersStart_witness :
    ((sr gt).group? 0 0 = some gt ∧ (sr gt).team? gt.team = some tm ∧ gt.fe.handler = false ∧ gt.spec = none ∧
      gt.traps.find? (fun t => !gt.stopped || t.stops) = some tsp ∧ tsp.marks = 0 ∧ (∀ o ∈ gt.fe.ops, o.id ∉ tsp.ops) ∧
      (writeRecord (touchRecord (sr gt) tm.ctx 0 0) tm.ctx 0 0 0 (recordBytes tsp 1 tsp.epc gt.fe)).isSome = true) ∧
    (let t2 : TrapSplit := { tsp with stops := true, lanes := 2 }
     let g : Machine.Group := { gt with stopped := true, traps := [tsp, t2] }
     g.traps.find? (fun t => !g.stopped || t.stops) = some t2) ∧
    (({ sl with lanterns := [lt0] } : State).lantern? 0 128 = some lt0 ∧ lt0.traps = { tsp with lanes := 0 } :: [] ∧ lt0.fe.handler = false ∧
      (writeRecord (touchRecord { sl with lanterns := [lt0] } tm.ctx 0 128) tm.ctx 0 128 0
        (recordBytes { tsp with lanes := 0 } 5 tsp.epc lt0.settle.fe)).isSome = true) := by decide +kernel

/-! ### Stores and agents -/

def en (loc : Nat) : Entry := { loc := loc, bytes := [1, 2, 3, 4] }
def gq (loc : Nat) : Machine.Group := { gr with fe := { gr.fe with sq := [en loc] } }

theorem test_entriesLeave_witness : (sr (gq scratchBase)).group? 0 0 = some (gq scratchBase) ∧ (gq scratchBase).fe.sq = en scratchBase :: [] ∧
    (gq scratchBase).traps = [] ∧ isScratch (en scratchBase).loc = true ∧ isScratch (en cupolaBase).loc = false ∧
    (gq cupolaBase).fe.sq = en cupolaBase :: [] := by decide +kernel

def sout (es : List Entry) (ws : List Swap) : State :=
  { st with outb := es.map (fun e => { core := 0, entry := e }), care := { st.care with swaps := ws } }
def swp : Swap := { group := 18, retire := false, frame := 1, memA := 0, memB := 1 }

/-- The second entry passes the first; one to a held page waits. -/
theorem test_entriesReachMemory_witness :
    (((sout [en 0x120000, en 0x120004] []).channel 0)[1]? = some (en 0x120004) ∧ (∀ x ∈ ((sout [en 0x120000, en 0x120004] []).channel 0).take 1,
        overlaps x.loc x.bytes.length (en 0x120004).loc (en 0x120004).bytes.length = false ∧ (en 0x120004).rel = false ∧ (en 0x120004).tso = false) ∧
      held (sout [en 0x120000, en 0x120004] []).care 0x120004 = false ∧ (sout [en 0x120000, en 0x120004] []).deadLoc 0x120004 = false) ∧
    (((sout [en 0x120000] [swp]).channel 0)[0]? = some (en 0x120000) ∧ held (sout [en 0x120000] [swp]).care 0x120000 = true) := by decide +kernel

theorem test_staleCopies_witness : xlate st 0 0x20000 = .ok { loc := 0x120000, r := true, w := true, t := false } ∧ isScratch (lineOf 0x120000) = false ∧
    st.anyPoison (lineOf 0x120000) 64 = false ∧ st.deadLoc (lineOf 0x120000) = false := by decide +kernel

def ag (steps : List AStep) (fin : AgentEnd) : Agent := { id := 2, kind := 0, ctx := 0, task := 0, steps := steps, fin := fin }
def sa (a : Agent) : State := { st with agents := [a] }

/-- An agent's write to a line of the scratchpad that it registers, of bytes of which one is poisoned; another one registers the line. -/
def agl (steps : List AStep) : Agent := { ag steps .staging with lines := [scratchBase], bad := [3] }
def ag9 : Agent := { agl [] with id := 9 }

theorem test_agentSteps_witness :
    (let a := ag [.read 0x120000 64 0 false] .staging
     (sa a).agents.find? (fun a => a.id = 2) = some a ∧ a.stepReady 0 = true ∧ (∀ c ∈ (sa a).fabric.insts, c.agent ≠ 2) ∧
      (sa a).deadLoc 0x120000 = false ∧ ∀ i < 64, (sa a).poisoned (unitOf (0x120000 + i)) = false) ∧
    (let a := ag [.read 0x120000 64 64 false, .write scratchBase 64 0 false] .staging
     a.stepReady 1 = true ∧ a.steps[1]? = some (.write scratchBase 64 0 false) ∧ (sa a).deadLoc scratchBase = false ∧ held (sa a).care scratchBase = false ∧
      a.bad = [] ∧ a.lines = []) ∧
    (let a := agl [.write scratchBase 64 0 false]
     a.stepReady 0 = true ∧ isScratch scratchBase = true ∧ lineOf scratchBase ∈ a.lines ∧ a.bad.contains (0 + 3) = true ∧
      (∀ x ∈ (sa a).agents, x.id ≠ 2 → lineOf scratchBase ∉ x.lines) ∧ ¬ ∀ x ∈ ({ st with agents := [a, ag9] } : State).agents, x.id ≠ 2 → lineOf scratchBase ∉ x.lines) ∧
    (let a := ag [.elem cupolaBase 0 8 7 5 false] .staging
     a.stepReady 0 = true ∧ a.steps[0]? = some (.elem cupolaBase 0 8 7 5 false) ∧ held (sa a).care cupolaBase = false ∧
      (sa a).anyPoison cupolaBase 8 = false ∧ ({ sa a with poison := [cupolaBase] } : State).anyPoison cupolaBase 8 = true) ∧
    (let s : State := { sa (ag [.write (remoteBase + 5 * 2 ^ 54) 64 0 false] .staging) with fabric := { st.fabric with dead := [5] } }
     s.deadLoc (remoteBase + 5 * 2 ^ 54) = true ∧ held s.care (remoteBase + 5 * 2 ^ 54) = false) := by decide +kernel

def sli : Slice := { core := 0, slot := 0, grp := 0, op := 1, len := 64 }
def ti : Team := { tm with insts := [{ number := 0, slices := [sli] }] }
def si : State := { (sr { gr with cpys := 1 }) with teams := [ti] }

theorem test_instancesStart_witness : si.team? 1 = some ti ∧ ti.insts.find? (fun x => instanceFull si 1 x.number) = some { number := 0, slices := [sli] } ∧
    instanceFits si none [sli] = true ∧ (releaseAll (instanceScope [sli]) [(0, 0)] si).2 = true ∧
    ((releaseAll (instanceScope [sli]) [(0, 0)] si).1.team? 1).isSome = true := by decide +kernel

/-- A slice that is reissued, as a restored team has it: its page is mapped. -/
theorem test_instancesReissued_witness : let y : Slice := { sli with again := true, a := 0x20000 }
    let t : Team := { tm with insts := [{ number := 0, slices := [y] }] }
    let s : State := { (sr { gl with cpys := 1, fe := { gl.fe with ops := [{ lop with id := 1, lands := [] }] } }) with teams := [t] }
    let u := touchAgain 0 [y] s
    y.passes u 0 = true ∧ instanceFits u none [y.renew u t] = true ∧ (y.renew u t).again = false ∧
      (releaseAll (instanceScope [y.renew u t]) [(0, 0)] u).2 = true := by decide +kernel

/-- With an ARRIVE, and without. -/
theorem test_instancesComplete_witness : (sa (ag [] (.cpy [(0, 0, 1)] [(3, 1)]))).agents.find? (fun a => a.id = 2) = some (ag [] (.cpy [(0, 0, 1)] [(3, 1)])) ∧
    (releaseAll 4 [(0, 0)] (sa (ag [] (.cpy [(0, 0, 1)] [(3, 1)])))).2 = true ∧
    (sa (ag [] (.cpy [(0, 0, 1)] []))).agents.find? (fun a => a.id = 2) = some (ag [] (.cpy [(0, 0, 1)] [])) ∧
    (ag [] (.cpy [(0, 0, 1)] [(3, 1)])).team = none := by decide +kernel

/-- One whose results have not all landed, and every other kind. -/
theorem test_agentsComplete_witness :
    (let s : State := { sa (ag [] (.op 0 0 5)) with groups := [gl] }
     s.agents.find? (fun a => a.id = 2) = some (ag [] (.op 0 0 5)) ∧ s.front? 0 0 = some gl.fe ∧ lop ∈ gl.fe.ops ∧ lop.id = 5 ∧ lop.lands ≠ []) ∧
    (∀ f, (sa (ag [] (.op 0 0 1))).front? 0 0 = some f → ∀ o ∈ f.ops, o.id = 1 → o.lands = []) ∧
    ∀ e ∈ [AgentEnd.op 0 0 1, .post 0 0 1 63, .staging, .writeBack, .copyTask 3],
      (sa (ag [] e)).agents.find? (fun a => a.id = 2) = some (ag [] e) ∧ (ag [] e).steps = [] ∧ (ag [] e).bad = [] :=
  ⟨by decide +kernel, fun f h => by cases h; exact nofun, by decide +kernel⟩

def tcm : TileCmd := { id := 1, word := 0, kind := 2, slot := 0, op := 0, n := 3 }

/-- An MXGO of no row with an ARRIVE on slot 3. -/
def mxc : TileCmd :=
  { id := 1, word := 0, kind := 10, slot := 0, op := 0, block := [0, 0, 0, 0, 0, 0, 16, 0, 0, 0, 0, 0, 3, 0, 0, 0x80] ++ List.replicate 48 0 }

theorem test_tileCommandsComplete_witness :
    (let t : Team := { tm with sides := [{ sd with queue := [tcm] }] }
     ({ st with teams := [t] } : State).team? 1 = some t ∧ (t.side (t.core + 0)).queue = tcm :: [] ∧ headReady { st with teams := [t] } (t.side 0) = true ∧
      ¬(tcm.kind = 10 ∧ blkArrive tcm.block = true) ∧ tcm.agent = none ∧ (runCmd (t.side 0) tcm none).2.2 = false) ∧
    (let t : Team := { tm with sides := [{ sd with queue := [mxc] }] }
     (t.side (t.core + 0)).queue = mxc :: [] ∧ headReady { st with teams := [t] } (t.side 0) = true ∧ blkArrive mxc.block = true ∧
      (release { st with teams := [t] } 0 0 4).2 = true) := by decide +kernel

/-- The corner of the last accumulator's block. -/
theorem test_tileCommandResults_witness :
    (let c : TileCmd := { mxc with b := 0x122, block := [0, 0, 1, 0, 64, 64, 16, 0] ++ List.replicate 56 0 }
     c.kind = 10 ∧ blkOp c.block = 0 ∧ blkByp c.block = false ∧ fwCf (c.b.setWidth 32) ≠ 0 ∧ blkM c.block ≤ 64 ∧ blkN c.block ≤ 64 ∧
      blkCid c.block < sd.accs.length ∧ (sd.acc (blkCid c.block)).data.wf = true) ∧ blkM mxc.block = 0 ∧ mxc.kind = 10 ∧ tcm.kind = 2 ∧
    ({ tcm with kind := 6 } : TileCmd).kind = 6 := by decide +kernel

/-- A load of a tile, of its companion, and of all of a pair of accumulators; a store of a tile whose rows lie apart, and of a block. -/
theorem test_tileMoveResults_witness : let pairB : DWord := 0x2040000100
    (shapeUsable (sd.shape 0) = true ∧ (0 : Nat) < sd.tiles.length ∧ (sd.tile 0).data.wf = true ∧ (2 : Nat) < sd.comps.length ∧ (sd.comp 2).data.wf = true ∧
      pairB.toNat / 2 ^ 24 % 2 ^ 7 = 64 ∧ pairB.toNat / 2 ^ 31 % 2 ^ 7 = 64 ∧ 0 + 1 < sd.accs.length ∧ (sd.acc 0).data.wf = true ∧ (sd.acc 1).data.wf = true) ∧
    (let c : TileCmd := { tcm with kind := 1, n := 0, b := 128, agent := some 2 }
     c.agentIn (sa (ag [] .staging)) = some (ag [] .staging) ∧ rowBytes (sd.shape 0) ≤ min c.b.toNat (2 ^ 64 - c.b.toNat)) ∧
    ({ tcm with kind := 4, n := 16, b := pairB, agent := some 2 } : TileCmd).agentIn (sa (ag [] .staging)) = some (ag [] .staging) := by decide +kernel

/-- A conversion within the last columns of a tile; a pack; an MXGO with a bypass, and one of FP64. -/
theorem test_tileProductResults_witness :
    (shRows (sd.shape 1) ≤ 64 ∧ shCols (sd.shape 1) * ewBits (fmtEw ((67712 : DWord).toNat / 2 ^ 10 % 2 ^ 4)) ≤ 2048 ∧ (1 : Nat) < sd.tiles.length) ∧
    (shapeUsable (sd.shape 3) = true ∧ shLay (sd.shape 3) = true ∧ (64 : DWord).toNat % 2 ^ 5 = 0 ∧ (64 : DWord).toNat / 2 ^ 5 % 2 ^ 5 = 2 ∧
      (3 : Nat) < sd.comps.length) ∧
    (let c : TileCmd := { mxc with b := 0x122, block := [0, 128, 1, 0, 64, 64, 16, 0] ++ List.replicate 56 0 }
     blkByp c.block = true ∧ blkAid c.block < sd.tiles.length ∧ blkK c.block * ewBits (fmtEw (fwAf (c.b.setWidth 32))) ≤ 2048 ∧ fwAf (c.b.setWidth 32) ≠ 7 ∧
      blkM c.block ≤ 64 ∧ blkN c.block ≤ 64 ∧ blkOp c.block % 2 = 0) ∧
    (fwCf (0 : Word) = 0 ∧ blkCid mxc.block + 1 < sd.accs.length ∧ (sd.acc (blkCid mxc.block + 1)).data.wf = true) := by decide +kernel

/-- A value twice the scale, and a group of two finite activations. -/
theorem test_quantisedValues_witness : (3 : Nat) ≠ 0 ∧ (∀ t, Rnd.dither 63 = .dither t → t < 64) ∧ (6 : Nat) * 2 ^ ((0 : Int) - 0).toNat = 2 * 3 * 2 ^ ((0 : Int) - 0).toNat ∧
    ∀ p ∈ [(Fv.fin false 1 (-149), 3), (Fv.fin true 5 0, 0)], ∃ n m e, p.1 = .fin n m e ∧ (-149 : Int) ≤ e := by
  refine ⟨by decide, fun t h => by cases h; decide, by decide, fun p h => ?_⟩
  simp only [List.mem_cons, List.not_mem_nil, or_false] at h
  rcases h with rfl | rfl
  · exact ⟨_, _, _, rfl, by decide⟩
  · exact ⟨_, _, _, rfl, by decide⟩

end Sys2Proof.Tests
end

