-- ==== Sys2Proof/Tests/Host.lean ====
section
/-! SUPPORT. Machines and messages that meet the hypotheses of the statements about the Belfry, the link, the fabric, DRAM care, starts
and the window, clause by clause. -/

open Sys2Proof Sys2Proof.Machine Sys2Proof.Claims

namespace Sys2Proof.Tests

set_option Elab.async false

/-! ### The Belfry -/

/-- A record of `teams` teams with one group of 16 and a scratchpad of 64 lines; its kind, priority and counter. -/
def rec1 (kind prio teams counter : Nat) : List Byte :=
  bytesOf 1 kind ++ bytesOf 1 prio ++ bytesOf 2 0 ++ bytesOf 4 counter ++ bytesOf 6 0x10000 ++ [1, 0] ++ bytesOf 4 teams ++ [16, 0, 0, 0] ++
    bytesOf 2 0 ++ bytesOf 2 64 ++ bytesOf 2 512 ++ bytesOf 4 0 ++ bytesOf 4 0 ++ bytesOf 4 0xFFFFFFFF ++ List.replicate 86 0
def tk1 (slot : Nat) (st : TaskState) (prio : Nat) : Task := { slot := slot, ctx := 0, state := st, record := rec1 0 prio 2 0 }
def idle : State := { st with issue := [], groups := [], teams := [] }

theorem test_oneTeamPlaced_witness : let s : State := { idle with tasks := [tk1 3 .ready 0] }
    s.gang = none ∧ s.journal = [] ∧ s.preempts = [] ∧ s.tasks = [tk1 3 .ready 0] ∧ (tk1 3 .ready 0).flt = false ∧ (tk1 3 .ready 0).state = .ready ∧
    recKind (tk1 3 .ready 0).record = 0 ∧ recNreg (tk1 3 .ready 0).record = 0 ∧ (tk1 3 .ready 0).flushed = [] ∧
    (tk1 3 .ready 0).next < recTeams (tk1 3 .ready 0).record ∧ ({ core := 255, bay := 3, base := 0 } : Spot) ∈ spotsFor { s with now := s.now + 1 } (tk1 3 .ready 0).record := by
  decide +kernel

/-- A task of higher priority meets a gang that reserves; the first task of the order has been passed over for long enough. -/
theorem test_distributorEvents_witness :
    (let g : Gang := { slot := 0, cores := [], placing := false, broken := true }
     let x : Task := tk1 1 .ready 7
     let s : State := { idle with gang := some g, tasks := [tk1 0 .ready 0, x] }
     s.gang = some g ∧ s.task? g.slot = some (tk1 0 .ready 0) ∧ g.placing = false ∧ g.broken = true ∧
      recPriority (tk1 0 .ready 0).record < recPriority x.record) ∧
    (let x : Task := { tk1 1 .ready 7 with skipped := some 0 }
     let s : State := { idle with tasks := [x], now := 2 ^ bcfgSkip idle.plat.bcfg }
     s.task? 1 = some x ∧ x.skipped = some 0 ∧ (dispatchOrder s).head?.map (fun x => x.slot) = some 1 ∧ 0 + 2 ^ bcfgSkip s.plat.bcfg ≤ s.now) := by
  decide +kernel

/-- A team whose groups have all gone, with one region to write back. -/
def tw (b : Bool) : Team :=
  { tm with writingBack := b, regions := [{ va := 0x20000, len := 64, off := 0, dir := 1, steps := [.read scratchBase 64 0 false, .write 0x120000 64 0 false] }] }
def swb (b : Bool) : State := { idle with teams := [tw b], tasks := [tk1 0 .closing 0] }

theorem test_writeBackStarts_witness : (swb false).team? 1 = some (tw false) ∧ (tw false).writingBack = false ∧ (swb false).saving 0 = false ∧
    (∀ g ∈ (swb false).groups, g.retired = true) ∧
    mayLock (swb false) 0 (tw false).ticket (2 * (((tw false).regions.filter (fun r => r.dir = 1 || r.dir = 2)).filter (fun r => r.len ≠ 0)).length) = true ∧
    (swb false).journal.length + ((tw false).regions.filter (fun r => r.dir = 1 || r.dir = 2)).length ≤ 8192 ∧
    (releaseTeam (swb false) (tw false)).2 = true ∧ ((releaseTeam (swb false) (tw false)).1.team? 1).isSome = true := by decide +kernel

theorem test_teamsRetire_witness : (swb true).team? 1 = some (tw true) ∧ (tw true).writingBack = true ∧ (swb true).groups = [] ∧ (swb true).lanterns = [] ∧
    (swb true).agents = [] ∧ (swb true).journal = [] ∧ (∀ d ∈ (tw true).sides, (swb true).channel d.core = []) ∧
    (swb true).task? (tw true).slot = some (tk1 0 .closing 0) ∧ recKind (tk1 0 .closing 0).record ≠ 1 := by decide +kernel

theorem test_deadlinesExpire_witness : let p : Preempt := { ctx := 0, slots := [0], seqNo := 1, start := 3 }
    ({ idle with preempts := [p], now := 3 + 2 ^ bcfgDlx idle.plat.bcfg } : State).preempts = p :: [] ∧
    p.start + 2 ^ bcfgDlx idle.plat.bcfg ≤ 3 + 2 ^ bcfgDlx idle.plat.bcfg := by decide +kernel

theorem test_savesComplete_witness : let v : Saving := { ctx := 0, seqNo := 1, va := 0x20000 }
    let s : State := { idle with saves := [v] }
    s.saves = v :: [] ∧ v.gone = none ∧ drained s 0 = true ∧ (releaseContext s 0).2 = true ∧
    (let s1 := (releaseContext s 0).1
     let img := contextImage (beforeImage s1 0) 0 ((beforeImage s1 0).teams.filter (fun t => t.ctx = 0))
     let s4 := s1.touchRange 0 0x20000 img.1.length
     0x20000 + img.1.length ≤ 2 ^ 48 ∧ dramRange s4 0 0x20000 img.1.length .write = true ∧ rangeHeld s4 0 0x20000 img.1.length = false) := by decide +kernel

/-! ### The link -/

def msg (ty : BitVec 8) (sp : BitVec 2) (arg : DWord) (pl : List Byte) : HostMsg :=
  { type := ty, ctx := 0, space := sp, seq := 0xFFFF, len := BitVec.ofNat 32 pl.length, arg := arg, payload := pl }
def ht (ts : List Task) : State := { idle with tasks := ts }

theorem takes (kind : BitVec 8) (m : HostMsg) (s : State) (h : m.type = kind ∧ s.plat.powered = true ∧ malformed m = false ∧ stageTakes s m = true ∧ s.hostq = []) :
    Takes kind m s := ⟨h.1, h.2.1, h.2.2.1, h.2.2.2.1, fun _ => h.2.2.2.2⟩

theorem test_hostPosts_witness : Takes 1 (msg 1 0 0 (rec1 0 0 2 1)) idle ∧ ((idle.ctx 0).ptroot.getLsbD 0 = true) ∧
    (Takes 1 { (msg 1 0 0 (rec1 0 0 2 1)) with ctx := 63 } idle ∧ (idle.ctx 63).ptroot.getLsbD 0 = false) ∧
    (Takes 2 (msg 2 0 0xFFFFFFFF00000003 []) idle ∧ slotIn idle 0 3 = true) :=
  ⟨takes _ _ _ (by decide +kernel), rfl, ⟨takes _ _ _ (by decide +kernel), rfl⟩, takes _ _ _ (by decide +kernel), by decide⟩

/-- No slot free, the first three taken, and a record that is refused. -/
theorem test_recordsArePosted_witness :
    (∀ n ∈ upFrom (cslotBase (idle.ctx 0).cslot) (cslotCount (idle.ctx 0).cslot), (ht [tk1 0 .ready 0, tk1 1 .ready 0, tk1 2 .ready 0, tk1 3 .ready 0]).task? n ≠ none) ∧
    (let s := ht [tk1 0 .ready 0, tk1 1 .ready 0, tk1 2 .ready 0]
     s.task? 3 = none ∧ slotIn s 0 3 = true ∧ 3 ∈ upFrom (cslotBase (idle.ctx 0).cslot) (cslotCount (idle.ctx 0).cslot) ∧
      (∀ k ∈ upFrom 0 4, k < 3 → s.task? k ≠ none) ∧ refused (touchTables s 0 (rec1 0 0 2 1)) 0 (rec1 0 0 2 1) = false ∧ recCounter (rec1 0 0 2 1) ≠ 0 ∧
      refused (touchTables s 0 (rec1 0 0 2 0)) 0 (rec1 0 0 2 0) = false ∧ recCounter (rec1 0 0 2 0) = 0 ∧
      refused (touchTables s 0 (rec1 7 0 2 0)) 0 (rec1 7 0 2 0) = true) := by decide +kernel

def hw (sp : BitVec 2) (va : DWord) (bs : List Byte) : HostWr := { space := sp, ctx := 0, va := va, bytes := bs }

/-- The page of the DRAM writes is held by a swap. -/
def heldBy : State := { idle with care := { idle.care with swaps := [{ group := 18, retire := false, frame := 1, memA := 0, memB := 1 }] } }

/-- Into memory and past its end, into a held page, and into the window. -/
theorem test_hostWrites_witness :
    (Takes 3 (msg 3 0 0x2FFFF [7]) idle ∧ writePasses (acquired idle) (msg 3 0 0x2FFFF [7]) = true) ∧
    (Takes 3 (msg 3 0 0x30000 [7]) idle ∧ writePasses (acquired idle) (msg 3 0 0x30000 [7]) = false ∧ idle.hostq = []) ∧
    (let s0 := touchHost { idle with hostq := [hw 0 0x20000 [7]] } 0 0 0x20000 1
     isMgmt 0 0x20000 = false ∧ (∃ ps, hostParts s0 0 0 0x20000 1 .write = some ps ∧ ∀ p ∈ ps, held s0.care p.1 = false)) ∧
    (let s0 := touchHost { heldBy with hostq := [hw 0 0x20000 [7]] } 0 0 0x20000 1
     ∃ ps p, hostParts s0 0 0 0x20000 1 .write = some ps ∧ ps.find? (fun p => held s0.care p.1) = some p) ∧
    (let s0 := touchHost { idle with hostq := [hw 0 0x30000 [7]] } 0 0 0x30000 1
     hostParts s0 0 0 0x30000 1 .write = none) ∧
    (isMgmt 1 0x8000000000000088 = true ∧ mgmtOffset 0x8000000000000088 8 = some 0x88 ∧ mgmtRangeHolds idle 0x88 8 = true) :=
  ⟨⟨takes _ _ _ (by decide +kernel), by decide +kernel⟩, ⟨takes _ _ _ (by decide +kernel), by decide +kernel, rfl⟩,
   ⟨by decide, [(0x120000, 1, 0)], by decide +kernel, by decide +kernel⟩, ⟨[(0x120000, 1, 0)], (0x120000, 1, 0), by decide +kernel, by decide +kernel⟩,
   by decide +kernel, by decide, by decide, by decide +kernel⟩

def msgr (sp : BitVec 2) (arg : DWord) (n : BitVec 32) : HostMsg := { (msg 4 sp arg []) with len := n }

theorem test_hostReads_witness :
    (Takes 4 (msgr 0 0x2F000 4096) idle ∧ (hostParts (touchHost (acquired idle) 0 0 0x2F000 4096) 0 0 0x2F000 4096 .read).isSome = true) ∧
    (Takes 4 (msgr 0 0x2FFFF 2) idle ∧ hostParts (touchHost (acquired idle) 0 0 0x2FFFF 2) 0 0 0x2FFFF 2 .read = none) ∧
    (Takes 4 (msgr 1 0x8000000000000088 16) idle ∧ mgmtOffset 0x8000000000000088 16 = some 0x88 ∧ (mgmtRange (acquired idle) 0x88 16).isSome = true ∧
      ¬(0x88 ≤ 0x98 ∧ 0x98 < 0x88 + 16)) :=
  ⟨⟨takes _ _ _ (by decide +kernel), by decide +kernel⟩, ⟨takes _ _ _ (by decide +kernel), by decide +kernel⟩,
   takes _ _ _ (by decide +kernel), by decide, by decide +kernel, by decide⟩

/-- An image of no team, at the DRAM page. -/
def simg : State := { idle with mem := Memory.write [] 0x120000 (bytesOf 4 1 ++ bytesOf 4 0 ++ bytesOf 8 64) }

theorem test_hostTaskRequests_witness : (idle.ctx 0).ptroot.getLsbD 0 = true ∧
    (Takes 6 (msg 6 0 0xFFFFFFFFFFFFFFFF []) idle ∧ namedSlots (acquired idle) 0 0xFFFFFFFFFFFFFFFF = some []) ∧
    (Takes 7 (msg 7 0 3 []) idle ∧ namedSlots (acquired idle) 0 3 = some [3]) ∧ (Takes 8 (msg 8 0 0x20000 []) idle ∧ idle.saving 0 = false) ∧
    (Takes 9 (msg 9 0 0x20000 []) simg ∧ ∃ u, restoreContext (acquired simg) 0 0x20000 = .ok u) ∧ Takes 10 (msg 10 0 0 []) idle :=
  ⟨rfl, ⟨takes _ _ _ (by decide +kernel), rfl⟩, ⟨takes _ _ _ (by decide +kernel), rfl⟩, ⟨takes _ _ _ (by decide +kernel), rfl⟩,
   ⟨takes _ _ _ (by decide +kernel), by
     have e : (match restoreContext (acquired simg) 0 0x20000 with | .ok _ => true | _ => false) = true := by decide +kernel
     cases h : restoreContext (acquired simg) 0 0x20000 with
     | ok u => exact ⟨u, rfl⟩
     | refused => rw [h] at e; cases e
     | faulted => rw [h] at e; cases e
     | wait => rw [h] at e; cases e⟩, takes _ _ _ (by decide +kernel)⟩

def inv (all : Bool) (r : Option DWord) : Invalidation := { ctx := 0, seqNo := 5, base := 0x20000, pages := 1, all := all, newRoot := r }

theorem test_invalidations_witness : Takes 5 (msg 5 0 0 (bytesOf 4 0 ++ bytesOf 4 1 ++ bytesOf 8 0x20000)) idle ∧ (inv true none).ctx < idle.ctxs.length ∧
    (inv false none).ready { idle with invs := [inv false none] } = true ∧ (inv true (some 0x200001)).ready { idle with invs := [inv true (some 0x200001)] } = true :=
  ⟨takes _ _ _ (by decide +kernel), by decide, by decide +kernel, by decide +kernel⟩

theorem test_malformedMessages_witness : malformed (msg 11 0 0 []) = true ∧ malformed (msg 3 0 0 []) = true ∧ idle.plat.powered = true := by decide

/-! ### The fabric -/

def rrq (w : Bool) (va : Addr) (bs : List Byte) (n : Nat) : RemoteReq := { fid := 4095, rctx := 0, va := va, write := w, bytes := bs, size := n }

/-- A read that nothing waits before, a write of bytes and one of none, the last and an earlier part of a write, an access that fails and one
past the end of the address space. -/
theorem test_remoteAccesses_witness : idle.plat.powered = true ∧ idle.plat.stage = 3 ∧
    ((rrq false 0x2FFFF [] 1).write = false ∧ remoteFault idle 0 0x2FFFF 1 .read = none ∧
      waitsAhead (idle.touchRange 0 0x2FFFF 1) 4095 ((virtParts (idle.touchRange 0 0x2FFFF 1) 0 0x2FFFF 1 0).map (fun q => (q.1, q.2.1, q.2.2.1))) = none) ∧
    ((rrq true 0x20000 [1, 2] 0).write = true ∧ remoteFault idle 0 0x20000 2 .write = none ∧ virtParts (idle.touchRange 0 0x20000 2) 0 0x20000 2 0 ≠ []) ∧
    (remoteFault idle 0 0x20000 0 .write = none ∧ virtParts (idle.touchRange 0 0x20000 1) 0 0x20000 0 0 = []) ∧
    (∀ left ∈ [1, 2], let s : State := { idle with fabric := { idle.fabric with pending := [(7, 4095, left)] } }
      held s.care 0x120000 = false ∧ (s.put 0x120000 [1]).fabric.pending.find? (fun p => p.1 = 7) = some (7, 4095, left)) ∧
    ((remoteFault idle 0 0x30000 1 .read).isSome = true ∧ (0x30000 : Addr).toNat + 1 ≤ 2 ^ 48) ∧ 2 ^ 48 < (0xFFFFFFFFFFFF : Addr).toNat + 2 ∧
    (0x20000 : Addr).toNat % 0x10000 = 0 ∧ (2 : Nat) ^ 20 ≤ 2 ^ 20 := by
  decide +kernel

/-- A read behind a write of its device that waits for the held page. -/
theorem test_remoteReadWaits_witness :
    let s : State := { heldBy with fabric := { idle.fabric with pending := [(7, 4095, 1)] }
                                   care := { heldBy.care with swaps := heldBy.care.swaps.map (fun w => { w with waits := [.remote 0x120000 [9] (some 7) [] none] }) } }
    s.plat.powered = true ∧ remoteFault s 0 0x20000 1 .read = none ∧
    waitsAhead (s.touchRange 0 0x20000 1) 4095 ((virtParts (s.touchRange 0 0x20000 1) 0 0x20000 1 0).map (fun q => (q.1, q.2.1, q.2.2.1))) = some 0x120000 := by
  decide +kernel

/-- An agent and a team's output region that hold a translation which an invalidation removes. -/
theorem test_invalidationHolds_witness : let a : Agent := { id := 2, kind := 0, ctx := 0, task := 0, fin := .staging, pages := [0x20000] }
    a.ctx = (inv false none).ctx ∧ (∃ p ∈ a.pages, (inv false none).covers p.toNat 0x10000 = true) ∧
    (tw false).ctx = (inv false none).ctx ∧ ∀ r ∈ (tw false).regions, r.dir = 1 :=
  ⟨rfl, ⟨0x20000, List.mem_singleton.mpr rfl, by decide +kernel⟩, rfl, by decide⟩

/-- A collective of one device, its own data read. -/
def rcol : List Byte := bytesOf 1 4 ++ List.replicate 95 0 ++ bytesOf 8 0x10000 ++ List.replicate 24 0
def tcol : Task := { slot := 0, ctx := 0, state := .active, record := rcol }
def ccol (w : Bool) : Collective := { slot := 0, ctx := 0, cid := BitVec.ofNat 64 (recArg rcol 3), agent := 2, writing := w }
def acol : Agent := { id := 2, kind := 7, ctx := 0, task := 0, fin := .collective 0 }
def scol (w : Bool) (as : List Agent) : State := { idle with tasks := [tcol], agents := as, fabric := { idle.fabric with insts := [ccol w] } }

theorem test_collectives_witness :
    ((scol true [acol]).fabric.insts.find? (fun c => c.slot = 0) = some (ccol true) ∧ (scol true [acol]).task? 0 = some tcol ∧
      (scol true [acol]).agents.find? (fun a => a.id = 2) = some acol ∧ acol.steps = [] ∧ (ccol true).writing = true ∧ (ccol false).writing = false ∧
      allData (scol false [acol]) rcol (peerData rcol acol.buf acol.bad) = some [peerData rcol acol.buf acol.bad] ∧
      agreeing (peerData rcol [] []) (peerData rcol [] []) = true ∧ agreeing { (peerData rcol [] []) with e := 2 } (peerData rcol [] []) = false) ∧
    ((scol true [acol]).fabric.insts.find? (fun c => c.cid = (ccol true).cid) = some (ccol true) ∧ (stepsSettled (scol true [acol]) (ccol true)).task? 0 = some tcol) ∧
    ((∀ c ∈ idle.fabric.insts, c.cid ≠ 9) ∧ (9 : DWord) ∉ idle.fabric.finished ∧ (9 : DWord) ∉ idle.fabric.aborts) := by decide +kernel

/-! ### DRAM care -/

def sw0 (r : Bool) (p : SwapPhase) : Swap := { group := 18, retire := r, frame := 1, memA := 1, memB := 0, phase := p }
def scare (w : Swap) : State := { idle with care := { idle.care with swaps := [w] } }

theorem test_swapsAndRetirements_witness : ∀ r : Bool,
    (∀ p ∈ [SwapPhase.hold, .read, .write, .commit], (scare (sw0 r p)).care.swaps.find? (fun x => x.group = 18 && x.phase = p) = some (sw0 r p)) ∧
    (scare (sw0 r .commit)).care.due = [] ∧ (sw0 r .commit).waits = [] := by decide +kernel

theorem test_pagesMoveWhole_witness : idle.mem.wf = true ∧ (0xFFFF : Nat) < 0x10000 := by decide

/-- A finding, and the number of its row in its domain. -/
def fnd (frame line : Nat) (e : ErrKind) : RowFinding := { group := 18, frame := frame, line := line, err := e, log := { unitCode := 5, die := 1, cycles := 2 } }

theorem row_of_frame (line : Nat) : rowNumber 18 0 line / 64 = 2 := by
  have h := (Config.linePlace (Fin.ofNat 1024 line)).isLt
  simp only [rowNumber, if_true, Config.pseudoChannelOf]
  omega

/-- What the controller finds in a page as a swap reads it. -/
theorem test_swapFindings_witness : findingOk (scare (sw0 false .hold)) (fnd 1 5 .oneDevice) = true ∧
    ((fnd 1 5 .oneDevice).group, (fnd 1 5 .oneDevice).frame) = realFrame (remapOf idle.care 18) (frameOf (remapOf idle.care 18) (sw0 false .hold).memA) ∧
    (sw0 true .write).frame < 4 := by decide +kernel

/-- A spare that serves a frame, one that serves none, and a frame in use. -/
theorem test_servesFor_witness :
    servesFor idle.care Config.firstReservedGroup 0 = none ∧ servesFor idle.care 18 3 = some (18, 3) ∧
    (let c : Care := { idle.care with remaps := [{ group := 18, map := 0xE4, spares := [(2, 5)] }] }
     servesFor c (spareFrame 5).1 (spareFrame 5).2 = some (18, 2)) := by decide +kernel

/-- The rows of a frame that a swap holds. -/
theorem test_heldRows (line : Nat) : rowHeld (scare (sw0 false .hold)).care 2 (rowNumber 18 0 line) = true := by
  have h : Swap.frames (scare (sw0 false .hold)).care (sw0 false .hold) = [(18, 1), (18, 0)] := by decide +kernel
  have e : rowHeld (scare (sw0 false .hold)).care 2 (rowNumber 18 0 line) =
      ((Swap.frames (scare (sw0 false .hold)).care (sw0 false .hold)).any (rowIn 2 (rowNumber 18 0 line)) || false) := rfl
  have d : frameDomain 18 0 = 2 := by decide
  simp [e, h, rowIn, row_of_frame, d]

theorem test_scores_witness (line : Nat) :
    (let x : Score := { row := rowNumber 18 0 line, group := 18, frame := 0, score := 0xFFFF, born := 0 }
     let d : Domain := { scores := [x] }
     d.scores.find? (fun y => y.row = rowNumber 18 0 line) = some x ∧ ∀ y ∈ d.scores, y.row = rowNumber 18 0 line → y = x) ∧
    (18 < Config.firstReservedGroup ∧ ∀ w ∈ idle.care.swaps, w.group = 18 → w.retire = true → w.frame ≠ 0) ∧ (15 : Nat) < idle.care.domains.length ∧
    (∀ e ∈ [ErrKind.oneSymbol, .oneDevice, .uncorrectable], findingOk idle (fnd 0 1023 e) = true) ∧ (idle.care.domains.getD 2 {}).skipped = [] ∧
    rowHeld idle.care 2 (rowNumber 18 0 1023) = false := by
  refine ⟨⟨by simp, fun y h _ => List.mem_singleton.mp h⟩, ⟨by decide, nofun⟩, by decide, by decide +kernel, rfl, rfl⟩

/-- Below the threshold, at it, and saturated; the log's last entry; a scratchpad and the DRAM of the device. -/
theorem test_careEvents_witness : (7 : Nat) < 8 ∧ 321 / 64 * 8 + 7 < Config.congruenceGroups ∧
    actOf idle.care 7 5 + 2047 < max 1 (((idle.care.domains.getD 7 {}).mcare).extractLsb' 16 11).toNat * 64 ∧
    max 1 (((idle.care.domains.getD 7 {}).mcare).extractLsb' 16 11).toNat * 64 ≤ actOf idle.care 7 5 + 2048 ∧
    (255 : Nat) = (0x1FF : Word).toNat % 256 ∧ idle.plat.flog = [] ∧ isOutside (scratchBase + 8) = false ∧ isDram (scratchBase + 8) = false ∧
    isDram 0x120008 = true ∧ isOutside 0x120008 = false ∧ installed idle 0x120008 = true := by
  decide +kernel

/-! ### Starts, resets, trust, the window -/

def pl (stage : BitVec 2) (f : Plat → Plat) : State := { State.reset with plat := f { State.reset.plat with stage := stage } }

theorem test_resets_witness : (pl 0 (fun p => { p with powered := false })).plat.powered = false ∧ (pl 3 id).plat.powered = true ∧ (pl 3 id).plat.fuseWas = none ∧
    (pl 0 (fun p => { p with fuseWas := some (1, 2) })).plat.fuseWas = some (1, 2) := by decide

theorem test_resets_idle_witness : Idle State.reset := ⟨rfl, rfl, rfl, rfl, rfl, rfl, rfl, rfl, rfl, rfl, rfl, rfl, rfl⟩

theorem test_stagesAdvance_witness : (pl 1 id).plat.powered = true ∧ (pl 1 id).plat.fail = 0 ∧ (pl 1 id).plat.stage = 1 ∧ (pl 2 id).plat.stage = 2 ∧
    (pl 2 (fun p => { p with warm := true })).plat.warm = true ∧ (pl 2 id).plat.mlog.length = 4 := by decide

/-- An image of one block of 64 bytes, version 1, under key 3, signed with the first key of RFC 8032's test vectors. -/
def fw : List Byte :=
  bytesOf 4 0x43594657 ++ bytesOf 4 64 ++ bytesOf 4 1 ++ [3] ++ List.replicate 51 0 ++
    bytesOf 64 0x0a5132639e6e78d7917517364adfc082af204a0114ed8f657af065e46ceb188a2219525dac059673d9164079d59905e5e88b0d12d5e4fb8a3d1082cf231e660c ++
    bytesOf 32 0x1a5107f7681a02af2523a6daf372e10e3a0764c9d3fe4bd5b70ab18201985ad7 ++ List.replicate 160 0
def signed : Plat :=
  { State.reset.plat with fwbuf := Memory.write [] 0 fw, keyh := [0, 0, 0, 0x0906752fc3f2c4237ae419e824172f03dcc7bfd90e47a018aabab42502a5020e] }

/-- SHA-512 of abc and the first key pair and signature of RFC 8032 (its section 7.1). -/
theorem test_digest : sha512 [0x61, 0x62, 0x63] =
    0x9fa44ca54fc99a2a0ee83c6423444d45bdebfea3233cba36a8c14f272a9992219ad3554be6ee9e0aa27ea9894efae612314120ae497341ccba7a6193a135afdd := by
  decide +kernel
theorem test_signature : ed25519Sign 0x607fae1c03ac3b701969327b69c54944c42cec92f44a84ba605afdef9db1619d [] =
    0x0b107a8e4341516524be5b59f0f55bd26bb4f91c70391ec6ac3ba3901582b85f5501492265e073d874d9e5b81e7f87848a826e80cce2869072ac60c3004356e5 := by
  decide +kernel

theorem test_imagePasses_witness : imageFailure signed = 0 := by decide +kernel

theorem test_trustRequests_witness : (pl 0 id).plat.stage = 0 ∧ (pl 0 id).plat.fail = 0 ∧ imageFailure (pl 0 id).plat = 1 ∧
    (pl 0 (fun p => { p with quoting := true })).plat.quoting = true := by decide +kernel

theorem test_windowEvents_witness : 2 ≤ (pl 2 id).plat.stage.toNat ∧ (pl 2 id).plat.wdog + (2 ^ 24 - 1) < 2 ^ 24 ∧ 2 ^ 24 ≤ (pl 2 id).plat.wdog + 2 ^ 24 ∧
    (st.group? 0 0).isSome = true ∧ (0x88 : BitVec 41).toNat % 8 = 0 ∧ mgmtHolds idle 0x88 = true ∧ (0x8C : BitVec 41).toNat % 8 ≠ 0 ∧
    mgmtHolds idle 0x8000 = false ∧ 63 < idle.ctxs.length ∧ fwOpen idle 0x120000 64 = false := by decide +kernel

/-- Firmware's window over a page of DRAM, over some of the Cupola, and one that reaches a place that is neither. -/
def sfw (base size : DWord) : State := pl 3 (fun p => { p with fwopen := [base, size] })

theorem test_firmware_witness :
    (fwOpen (sfw 0x120000 64) 0x120000 64 = true ∧ 0x120000 % 64 + 64 ≤ 64 ∧ held (sfw 0x120000 64).care 0x120000 = false) ∧
    fwOpen (sfw (BitVec.ofNat 64 cupolaBase) 64) cupolaBase 64 = true ∧ fwOpen (sfw 0x120000 64) 0x12003F 2 = false ∧
    fwOpen (sfw (BitVec.ofNat 64 scratchBase) 64) scratchBase 64 = false ∧
    ((sfw 0 0).plat.powered = true ∧ 2 ≤ (sfw 0 0).plat.stage.toNat ∧ (sfw 0 0).plat.restarting = false) := by decide +kernel

end Sys2Proof.Tests
end

