-- ==== Sys2Proof/Tests/Slice0.lean ====
section
/-! SUPPORT. Tests: words that the manual writes out beside their assembly, a term that each legality check refuses, one step on a
placed word, and results worked out by hand from the tables. -/

open Sys2Proof Sys2Proof.Machine Sys2Proof.Claims

namespace Sys2Proof.Tests

set_option Elab.async false

/-! ### Words from the manual's listings -/

theorem test_decodeIaddi : decodeWord 0x0408000A = .ok (.iaddi false 2 0 10) := rfl
theorem test_decodeLdsB32 : decodeWord 0x2300C27A = .ok (.ldsB32 false 3 4 15 2) := rfl
theorem test_decodeIadd : decodeWord 0x40014307 = .ok (.iadd true 5 6 7) := rfl
theorem test_decodeFfma : decodeWord 0x18610103 = .ok (.ffma false 4 2 3) := rfl
theorem test_decodeDcmp : decodeWord 0x13410610 = .ok (.dcmp false 2 2 6 8 0) := rfl
theorem test_decodeFrcp : decodeWord 0x1E024398 = .ok (.frcp false 9 7 3) := rfl
theorem test_decodeCvt : decodeWord 0x20C28442 = .ok (.cvt false 6 10 8 4 2) := rfl
theorem test_decodeLdsZ16 : decodeWord 0x22E1440B = .ok (.ldsZ16 false 5 8 1 3) := rfl
theorem test_decodeStcRelB32 : decodeWord 0x250144F8 = .ok (.stcRelB32 5 9 15 0) := rfl
theorem test_decodeAtomcMaxloc : decodeWord 0x29A28620 = .ok (.atomcMaxloc 10 12 4 0) := rfl
theorem test_decodeFence : decodeWord 0xA2620000 = .ok (.fence 4) := rfl
theorem test_decodeXchFlip : decodeWord 0x2C418208 = .ok (.xchFlip 6 4 1 0) := rfl
theorem test_decodeRedFadd : decodeWord 0x2D410188 = .ok (.redFadd 4 3 1) := rfl
theorem test_decodeKcfg : decodeWord 0x9E8A2BE0 = .ok (.kcfg 20 21 15) := rfl
theorem test_decodeKacc : decodeWord 0x34141032 = .ok (.kacc 5 2 3 2) := rfl
theorem test_decodeMovsh : decodeWord 0x9CCC01E0 = .ok (.movsh 24 15 0) := rfl
theorem test_decodeTld : decodeWord 0x9C0DB5E1 = .ok (.tld 27 26 15 1) := rfl
theorem test_decodeMxgo : decodeWord 0x3A354200 = .ok (.mxgo 13 20 2) := rfl
theorem test_decodeAccst : decodeWord 0x9C8E3A60 = .ok (.accst 28 29 3 0) := rfl
theorem test_decodeCpyIn : decodeWord 0x9E0A0020 = .ok (.cpyIn 20 0 1) := rfl
theorem test_decodeCpyOut : decodeWord 0x9E2A2E60 = .ok (.cpyOut 20 23 3) := rfl
theorem test_decodeGathB32 : decodeWord 0x2A018211 = .ok (.gathB32 6 4 2 1) := rfl
theorem test_decodeArrive : decodeWord 0xA021B3E0 = .ok (.arrive 3 25 15) := rfl
theorem test_decodeGetc : decodeWord 0xA20F0008 = .ok (.getc 30 1) := rfl
theorem test_decodeRjm : decodeWord 0x32020000 = .ok (.rjm 1) := rfl
theorem test_decodeGuard : decodeWord 0x33208000 = .ok (.guard 1 0) := rfl
theorem test_decodeWaitk : decodeWord 0x33020000 = .ok (.waitk 1 0) := rfl
theorem test_decodeJoin : decodeWord 0x32420000 = .ok (.join 1) := rfl
theorem test_decodeGetc2 : decodeWord 0xA21E0030 = .ok (.getc 60 6) := rfl
theorem test_decodeSaddi : decodeWord 0x83E78004 = .ok (.saddi 60 60 4) := rfl
theorem test_decodeSetc : decodeWord 0xA2237800 = .ok (.setc 6 60) := rfl
theorem test_decodeMovi : decodeWord 0x0E0FFFFF = .ok (.movi false 3 (-1)) := rfl
theorem test_decodeEret : decodeWord 0xA2400000 = .ok (.eret) := rfl
theorem test_decodeBkpt : decodeWord 0x33400000 = .ok (.bkpt) := rfl
theorem test_decodePfx : decodeWord 0x96000030 = .ok (.pfx 48) := rfl
theorem test_decodeIcmp : decodeWord 0x1041850D = .ok (.icmp false 2 3 5 6 1) := rfl

/-! ### One ill-formed term for each check (R40, R41, R55) -/

theorem test_wf_integerCondition : ¬(Instr.icmp false 10 1 2 3 0).wf := by decide +kernel
theorem test_wf_scalarCondition : ¬(Instr.scmp 10 1 2 3).wf := by decide +kernel
theorem test_wf_branchCondition : ¬(Instr.sbr 6 1 0).wf := by decide +kernel
theorem test_wf_waitToken : ¬(Instr.waitk 15 0).wf := by decide +kernel
theorem test_wf_accumulatorPair : ¬(Instr.accz 0 17).wf := by decide +kernel
theorem test_wf_pair : ¬(Instr.iadd64 false 2 4 5).wf := by decide +kernel
theorem test_wf_quad : ¬(Instr.ldsB128 false 6 1 0 0).wf := by decide +kernel
theorem test_wf_predicate : ¬(Instr.pmov false 48 0).wf := by decide +kernel
theorem test_wf_delay : ¬(Instr.dly 0).wf := by decide +kernel
theorem test_wf_modifier : ¬(Instr.xchFlip 1 2 3 7).wf := by decide +kernel
theorem test_wf_rounding : ¬(Instr.frnd false 1 2 4).wf := by decide +kernel
theorem test_wf_convert : ¬(Instr.cvt false 1 2 4 4 0).wf := by decide +kernel
theorem test_wf_regroup : ¬(Instr.regroup 0 17).wf := by decide +kernel
theorem test_wf_maxloc : ¬(Instr.maxloc 1 2 3 3).wf := by decide +kernel
theorem test_wf_kfind : ¬(Instr.kfind 1 2 4 0).wf := by decide +kernel
theorem test_wf_rdspec : ¬(Instr.rdspec 1 2 0).wf := by decide +kernel
theorem test_wf_moves : ¬(Instr.vbcast 1 2 2).wf ∧ ¬(Instr.mread 1 16).wf ∧ ¬(Instr.pread 1 48).wf ∧ ¬(Instr.kread 1 15).wf := by decide +kernel
theorem test_wf_copies : ¬(Instr.cpyIn 62 0 0).wf ∧ ¬(Instr.cupop 1 2 0 10).wf ∧ ¬(Instr.kdrain 1 2 0 2).wf ∧ ¬(Instr.kstat 1 0 3).wf := by decide +kernel
theorem test_wf_controlRegisters : ¬(Instr.getc 1 17).wf ∧ ¬(Instr.setc 2 1).wf ∧ ¬(Instr.fence 6).wf := by decide +kernel

/-- Causes 1, 2, 3 and 8 of R55: a reserved major, an unassigned fn, a reserved field, and U = 1 where it is forbidden. -/
theorem test_illegalWords : decodeWord 0x3C000000 = .error (.illegal 1) ∧ decodeWord 0x01E00000 = .error (.illegal 2) ∧
    decodeWord 0xA2400001 = .error (.illegal 3) ∧ decodeWord 0x72420000 = .error (.illegal 8) := by decide +kernel

/-! ### A placed word -/

/-- The word of IADDI v2, v0, 10 runs as the first step after reset, and v2 of lane 3 is 13 three instructions later. -/
theorem test_placedWordRuns :
    (match step (State.reset.withFetchWord 32 0x0408000A) with
     | .next s => (s.group? 0 0).map (fun g => ((g.lane 3).pend, (g.lane 3).pc))
     | _ => none) = some ([{ dst := .v 2, val := 13, left := 4 }], 0x10004) := by decide +kernel

theorem test_tableWord : decodeTableWord 32 0x0408000A = some (.iaddi false 2 0 10) := rfl

/-! ### Results by hand -/

theorem test_imulh : (arithResult (.imulh false 3 0 1)).map (fun f => f { v := [0xFFFFFFFF, 2] }) = some (w32 3 0xFFFFFFFF) := by decide +kernel
theorem test_sar : (bitResult (.sar false 3 0 1)).map (fun f => f { v := [0x80000000, 40] }) = some (w32 3 0xFFFFFFFF) := by decide +kernel
theorem test_bfx : (bitResult (.bfx false 3 0 1)).map (fun f => f { v := [0x00000F00, 0x10408] }) = some (w32 3 0xFFFFFFFF) := by decide +kernel
theorem test_fadd_rounds : (fAdd fp32 .rne 0x3F800000 0x33800000).1 = 0x3F800000 := by decide +kernel
theorem test_fadd_inexact : (fAdd fp32 .rup 0x3F800000 0x33800000).1 = 0x3F800001 := by decide +kernel
theorem test_fmin_zeros : (fMinMax fp32 false 0x00000000 0x80000000).1 = 0x80000000 := by decide +kernel

end Sys2Proof.Tests
end

