-- ==== Sys2Proof/Tests/Units.lean ====
section
/-! SUPPORT. Machines and operands that meet the hypotheses of the statements about the keyed store, the matrix unit, the engines,
tasks and control registers, clause by clause. -/

open Sys2Proof Sys2Proof.Machine Sys2Proof.Claims

namespace Sys2Proof.Tests

set_option Elab.async false

/-! ### The keyed store -/

/-- A partition of up to 64 entries: its configuration word, what it lists, the length of its stream and the place in it. -/
def ky (cfg : DWord) (es : List KeyedEntry) (len pos : DWord) : Keyed :=
  { configured := true, cfg := cfg, entries := es, next := 7, len := len, pos := pos }
def tk (k : Keyed) : Team := { tm with sides := [{ sd with keyed := k }] }
def sk (k : Keyed) : State := { st with teams := [tk k] }
def e0 : KeyedEntry := { key := 0, val := 5, count := 0xFFFFFFFF, aux := 0, seqNo := 3 }

theorem kready (i : LInstr) (k : Keyed) (uses : Use) (hk : k.configured = true) (legal : keyedLegality i k (tk k) false false = none) :
    KeyedReady i (sk k) bd gr (tk k) k uses where
  toIssues := ⟨rfl, by decide, rfl, rfl⟩
  whole := bd_whole
  active := (lready .nop rfl).active
  part := rfl
  known := hk
  legal := legal
  room := fun k _ => gr_room k
  waited := by
    have h : ∀ j, fpcChk ((gr.issued bd 1).fpcFor ((gr.issued bd 1).lane j)) = false :=
      la_fpc _ (by simp [gr, Group.issued, Group.upd, mapLanes, bd, la, Lane.pass, Lane.tick, landDue]) (by simp [Group.issued, Group.upd, gr, fpcChk])
    simp [underWait, h]
  uniform := by
    have h : ∀ j, fpcChk ((gr.issued bd 1).fpcFor ((gr.issued bd 1).lane j)) = false :=
      la_fpc _ (by simp [gr, Group.issued, Group.upd, mapLanes, bd, la, Lane.pass, Lane.tick, landDue]) (by simp [Group.issued, Group.upd, gr, fpcChk])
    unfold notUniform
    split <;> simp [h]

/-- A stream of which one record is free, in an unordered partition and in an ordered one. -/
def ks (cfg : DWord) : Keyed := ky cfg [] 1024 1023

/-- Without a stream, and with one whose last record is free. -/
theorem test_keyedAccumulate_witness :
    (kOrd (ky 64 [] 0 0).cfg = false ∧ streamRoom (ky 64 [] 0 0) = 0 ∧
      KeyedReady (.kacc 3 0 1 0) (sk (ky 64 [] 0 0)) bd gr (tk (ky 64 [] 0 0)) (ky 64 [] 0 0) (kaccUse (ky 64 [] 0 0) 3 0 1 0)) ∧
    (let k := ks 0x12040
     streamRoom k = 32 ∧ release (sk k) 0 0 4 = (sk k, true) ∧ KeyedReady (.kacc 4 0 2 14) (sk k) bd gr (tk k) k (kaccUse k 4 0 2 14) ∧
     rangeFault (((sk k).issued bd gr 1).touchRange 0 (streamVa k) 32) 0 (streamVa k) 32 .write = none ∧
     mayLock (((sk k).issued bd gr 1).touchRange 0 (streamVa k) 32) 0
      (ticketOf (((sk k).issued bd gr 1).touchRange 0 (streamVa k) 32) (Issues.ix (.kacc 4 0 2 14) bd gr (tk k) 1)) 1 = true) :=
  ⟨⟨rfl, rfl, kready _ _ _ rfl rfl⟩, rfl, rfl, kready _ _ _ rfl rfl, by decide +kernel, by decide +kernel⟩

/-- The lowest lane alone, and both behind a GUARD that neither passes. -/
def b1 : Bundle := { bd with lanes := 1 }
def bz : Bundle := { bd with pos := 0x10004, guard := some (1, false) }

/-- A group whose lowest lane has its turn to replay. -/
def gz : Machine.Group := { gr with replay := some (0x10000, 1) }

/-- An ordered partition's machine, and a bundle's group and machine once its turn opens. -/
def so (k : Keyed) (g : Machine.Group) (b : Bundle) : State := { (wd g b) with teams := [tk k] }
def opened (g : Machine.Group) (b : Bundle) (set : LaneSet) : Machine.Group :=
  { (leaveJoin (g.arrived b) set b.unit) with
    replay := (if activeAt (leaveJoin (g.arrived b) set b.unit) { b with lanes := set } = 0 then none
      else some (b.unit, activeAt (leaveJoin (g.arrived b) set b.unit) { b with lanes := set })) }
def turned (k : Keyed) (g : Machine.Group) (b : Bundle) (set : LaneSet) : State :=
  { (so k g b).setGroup (opened g b set) with issue := [{ b with lanes := set }] }

/-- Lanes that wait for their join or for the turnstile; a turn of both words, with and without a record to append; the replay
of a turn; a turn with no lane active. -/
theorem test_keyedTurns_witness :
    (let k := ky 0x400040 [] 0 0
     Issues (so k gr b1) b1 gr (tk k) ∧ k.configured = true ∧ kOrd k.cfg = true ∧ keyedLegality (.kfind 3 0 3 0) k (tk k) false false = none ∧
      streamRoom k = 0 ∧ keyedLegality (.kacc 3 0 1 0) k (tk k) false false = none ∧ replayLanes (gr.arrived b1) b1.unit = 0 ∧
      (gr.arrived b1).fullAt false ≠ some b1.unit) ∧
    (let k := ky 0x400040 [e0] 0 0
     TurnOpens (.kfind 3 0 3 0) (so k gr bd) bd gr (tk k) k false 3 bd (opened gr bd 3) (turned k gr bd 3) ∧
      KeyedReady (.kfind 3 0 3 0) (turned k gr bd 3) bd (opened gr bd 3) (tk k) k (kfindUse k 3 0 0)) ∧
    (let k := ky 0x400040 [e0] 0 0
     streamRoom k = 0 ∧ TurnOpens (.kacc 3 0 1 0) (so k gz b1) b1 gz (tk k) k false 1 b1 (opened gz b1 1) (turned k gz b1 1) ∧
      KeyedReady (.kacc 3 0 1 0) (turned k gz b1 1) b1 (opened gz b1 1) (tk k) k (kaccUse k 3 0 1 0)) ∧
    (let k := ks 0x400040
     let s1 := ((turned k gr bd 3).issued bd (opened gr bd 3) 1).touchRange 0 (streamVa k) 32
     streamRoom k = 32 ∧ release (so k gr bd) 0 0 4 = (so k gr bd, true) ∧
      TurnOpens (.kacc 3 0 1 0) (so k gr bd) bd gr (tk k) k false 3 bd (opened gr bd 3) (turned k gr bd 3) ∧
      KeyedReady (.kacc 3 0 1 0) (turned k gr bd 3) bd (opened gr bd 3) (tk k) k (kaccUse k 3 0 1 0) ∧
      rangeFault s1 0 (streamVa k) 32 .write = none ∧ mayLock s1 0 (ticketOf s1 (Issues.ix (.kacc 3 0 1 0) bd (opened gr bd 3) (tk k) 1)) 1 = true) ∧
    (let k := ky 0x400040 [] 0 0
     TurnOpens (.kfind 3 0 3 0) (so k gr bz) bz gr (tk k) k false 3 bz (opened gr bz 3) (turned k gr bz 3) ∧ bz.Whole ∧
      activeAt (opened gr bz 3) bz = 0) := by
  refine ⟨⟨⟨rfl, by decide, rfl, rfl⟩, rfl, rfl, rfl, rfl, rfl, rfl, by decide⟩, ?_, ?_, ?_, ?_⟩
  · exact ⟨⟨⟨rfl, by decide, rfl, rfl⟩, rfl, rfl, rfl, rfl, by decide, .inl ⟨by decide, by decide, by decide⟩, by decide, by decide +kernel, rfl, rfl, rfl⟩,
      ⟨rfl, by decide, rfl, rfl⟩, bd_whole, by decide, rfl, rfl, rfl, fun k _ => gr_room k, by rfl, by rfl⟩
  · exact ⟨rfl, ⟨⟨rfl, by decide, rfl, rfl⟩, rfl, rfl, rfl, rfl, by decide, .inr ⟨by decide, by decide⟩, by decide, by decide +kernel, rfl, rfl, rfl⟩,
      ⟨rfl, by decide, rfl, rfl⟩, ⟨rfl, rfl, rfl, rfl, rfl⟩, by decide, rfl, rfl, rfl, fun k _ => gr_room k, by rfl, by rfl⟩
  · exact ⟨rfl, rfl, ⟨⟨rfl, by decide, rfl, rfl⟩, rfl, rfl, rfl, rfl, by decide, .inl ⟨by decide, by decide, by decide⟩, by decide, by decide +kernel, rfl, rfl, rfl⟩,
      ⟨⟨rfl, by decide, rfl, rfl⟩, bd_whole, by decide, rfl, rfl, rfl, fun k _ => gr_room k, by rfl, by rfl⟩, by decide +kernel, by decide +kernel⟩
  · exact ⟨⟨⟨rfl, by decide, rfl, rfl⟩, rfl, rfl, rfl, rfl, by decide, .inl ⟨by decide, by decide, by decide⟩, by decide, by decide +kernel, rfl, rfl, rfl⟩,
      ⟨rfl, rfl, rfl, rfl, rfl⟩, by decide⟩

theorem test_turnstileAdvances_witness :
    let k := ky 0x400040 [] 0 0
    let x : Ix := { b := bd, core := 0, slot := 0, t := tk k, act := 3, word := 0 }
    (so k gr bd).group? 0 0 = some gr ∧ (so k gr bd).team? 1 = some (tk k) ∧ kOrd (keyedOf (so k gr bd) (tk k) 0).cfg = true ∧ x.b.hits = [] ∧
      (3 : LaneSet) ≠ 0 ∧ x.t.id = (tk k).id := ⟨rfl, rfl, rfl, rfl, by decide, rfl⟩

def kr (cfg len pos : DWord) : KeyedRun := { part := ky cfg [e0] len pos }
def ki (key : DWord) : KeyedIn := { lane := 63, key := key, val := 1, aux := 0 }

/-- A hit, a miss with room, and a miss at the limit under each policy, with and without a free record. -/
theorem test_keyedTurn_witness : (kr 1 0 0).trap = none ∧ (kr 1 0 0).part.entries.find? (fun e => e.key = (ki 0).key) = some e0 ∧
    (∀ e ∈ (kr 1 0 0).part.entries, e.key ≠ (ki 1).key) ∧ (kr 2 0 0).part.entries.length < kLimit (kr 2 0 0).part.cfg ∧
    kLimit (kr 0x200001 0 0).part.cfg ≤ (kr 0x200001 0 0).part.entries.length ∧ kPol (kr 0x200001 0 0).part.cfg = 2 ∧
    (kr 1 4 4).part.len.toNat ≤ (kr 1 4 4).part.pos.toNat ∧ kPol (kr 1 4 3).part.cfg = 0 ∧ (kr 1 4 3).part.pos.toNat < (kr 1 4 3).part.len.toNat ∧
    (kr 1 4 3).part.entries ≠ [] ∧ kPol (kr 0x100001 4 3).part.cfg = 1 := by decide

theorem test_keyedFind_witness :
    (let k := ky 64 [e0] 0 0
     kOrd k.cfg = false ∧ KeyedReady (.kfind 3 0 3 0) (sk k) bd gr (tk k) k (kfindUse k 3 0 0)) ∧
    (let k := ky 0x2040 [e0] 0 0
     kOrd k.cfg = false ∧ KeyedReady (.kfind 3 0 0 0) (sk k) bd gr (tk k) k (kfindUse k 3 0 0)) :=
  ⟨⟨rfl, kready _ _ _ rfl rfl⟩, rfl, kready _ _ _ rfl rfl⟩

theorem test_keyedControl_witness :
    (UReady (.kcfg 16 17 0) (sv (fs 64 (0x400 * 0x100000000) 0 0) tm id) (xv (.kcfg 16 17 0) tm) (s1v (fs 64 (0x400 * 0x100000000) 0 0) tm id) ∧
      configOk 64 tm.kas = true ∧ streamOk (0x400 * 0x100000000) = true ∧ tm.det = false) ∧
    (let k := tk (ky 64 [e0] 0 0)
     UReady (.kcfgStream 17 0) (sv (fs 0 0 0 0) k id) (xv (.kcfgStream 17 0) k) (s1v (fs 0 0 0 0) k id) ∧ streamOk 0 = true ∧
      UReady (.kclr 15) (sv (fs 0 0 0 0) k id) (xv (.kclr 15) k) (s1v (fs 0 0 0 0) k id) ∧
      UReady (.kstat 63 0 2) (sv (fs 0 0 0 0) k id) (xv (.kstat 63 0 2) k) (s1v (fs 0 0 0 0) k id) ∧
      (keyedOf (s1v (fs 0 0 0 0) k id) k 0).configured = true) :=
  ⟨⟨ureadyV _ _ _ _ ⟨rfl, by decide, rfl, rfl⟩ gr_room rfl, by decide, by decide, rfl⟩,
   ureadyV _ _ _ _ ⟨rfl, by decide, rfl, rfl⟩ gr_room rfl, by decide, ureadyV _ _ _ _ ⟨rfl, by decide, rfl, rfl⟩ gr_room rfl,
   ureadyV _ _ _ _ ⟨rfl, by decide, rfl, rfl⟩ gr_room rfl, rfl⟩

/-- Into the window and into the scratchpad, with the room that the entries need, and with nothing to drain. -/
theorem test_keyedDrain_witness :
    (let k := tk (ky 64 [e0] 0 0)
     let f := fs 0xFFE0 1 0 0
     let s := s1v f k id
     UReady (.kdrain 16 17 0 0) (sv f k id) (xv (.kdrain 16 17 0 0) k) s ∧ (keyedOf s k 0).configured = true ∧ (keyedOf s k 0).entries.length ≤ 1 ∧
      rangeFault (s.touchRange 0 (Config.windowBase + 0xFFE0) 32) 0 (Config.windowBase + 0xFFE0) 32 .write = none ∧
      mayLock (s.touchRange 0 (Config.windowBase + 0xFFE0) 32) 0 (ticketOf (s.touchRange 0 (Config.windowBase + 0xFFE0) 32) (xv (.kdrain 16 17 0 0) k)) 1 = true ∧
      (release (s.touchRange 0 (Config.windowBase + 0xFFE0) 32) 0 0 4).2 = true ∧
      UReady (.kdrain 16 17 0 1) (sv f k id) (xv (.kdrain 16 17 0 1) k) s ∧ (scratchAt k 0 0xFFE0 32).isSome = true ∧
      mayLock s 0 (ticketOf s (xv (.kdrain 16 17 0 1) k)) 1 = true ∧ (release s 0 0 1).2 = true) ∧
    (let k := tk (ky 64 [] 0 0)
     let s := s1v (fs 0 0 0 0) k id
     UReady (.kdrain 16 17 0 1) (sv (fs 0 0 0 0) k id) (xv (.kdrain 16 17 0 1) k) s ∧ (keyedOf s k 0).entries.length ≤ 0 ∧
      (scratchAt k 0 0 0).isSome = true ∧ mayLock s 0 (ticketOf s (xv (.kdrain 16 17 0 1) k)) 0 = true) :=
  ⟨⟨ureadyV _ _ _ _ ⟨rfl, by decide, rfl, rfl⟩ gr_room rfl, rfl, by decide, by decide +kernel, by decide +kernel, by decide +kernel,
    ureadyV _ _ _ _ ⟨rfl, by decide, rfl, rfl⟩ gr_room rfl, by decide, by decide +kernel, by decide +kernel⟩,
   ureadyV _ _ _ _ ⟨rfl, by decide, rfl, rfl⟩ gr_room rfl, by decide, by decide, by decide +kernel⟩

/-! ### The matrix unit and the engines -/

theorem u0 (i : UInstr) (a b c d : DWord) (legal : legality tm false false (.u i) i.encode = none) :
    UReady i (sv (fs a b c d) tm id) (xv i tm) (s1v (fs a b c d) tm id) :=
  ureadyV i _ _ _ ⟨rfl, by decide, rfl, rfl⟩ gr_room legal

theorem test_tileMoves_witness :
    (∃ n, moveForm (.tld 16 17 0 0) = some (0, n, 16, 17, 0) ∧ UReady (.tld 16 17 0 0) (sv (fs 0xFE00 128 0 0) tm id) (xv (.tld 16 17 0 0) tm) (s1v (fs 0xFE00 128 0 0) tm id) ∧
      shapeUsable (queuedShape sd 0) = true ∧ (List.range (shRows 65570)).map (fun r => (0xFE00 + r * 128) % 2 ^ 64) = [0xFE00, 0xFE80, 0xFF00, 0xFF80] ∧
      rowFault tm 0 2 (rowBytes 65570) [0xFE00, 0xFE80, 0xFF00, 0xFF80] = none) ∧
    UReady (.tst 16 17 0 3) (sv (fs 0 128 0 0) tm id) (xv (.tst 16 17 0 3) tm) (s1v (fs 0 128 0 0) tm id) ∧
    (UReady (.tqld 16 0 2) (sv (fs 0 0 0 0) tm id) (xv (.tqld 16 0 2) tm) (s1v (fs 0 0 0 0) tm id) ∧ shapeUsable (queuedShape sd 2) = true ∧
      rowFault tm 0 64 64 [0, 64, 128, 192] = none) ∧
    (∀ n : BitVec 5, n = 0 ∨ n = 16 →
      UReady (.accld 16 17 0 n) (sv (fs 0 0x2040000100 0 0) tm id) (xv (.accld 16 17 0 n) tm) (s1v (fs 0 0x2040000100 0 0) tm id) ∧
      UReady (.accst 16 17 0 n) (sv (fs 0 0x2040000100 0 0) tm id) (xv (.accst 16 17 0 n) tm) (s1v (fs 0 0x2040000100 0 0) tm id) ∧
      blockBad 0x2040000100 (if accWide n.toNat then 8 else 4) = false) := by
  refine ⟨⟨_, rfl, u0 _ _ _ _ _ rfl, by decide +kernel, by decide, by decide +kernel⟩, u0 _ _ _ _ _ rfl, ⟨u0 _ _ _ _ _ rfl, by decide +kernel, by decide +kernel⟩, ?_⟩
  rintro n (rfl | rfl)
  · exact ⟨u0 _ _ _ _ _ rfl, u0 _ _ _ _ _ rfl, by decide⟩
  · exact ⟨u0 _ _ _ _ _ rfl, u0 _ _ _ _ _ rfl, by decide⟩

theorem test_tileOperations_witness :
    UReady (.tzero 0 3) (sv (fs 0 0 0 0) tm id) (xv (.tzero 0 3) tm) (s1v (fs 0 0 0 0) tm id) ∧
    UReady (.accz 15 16) (sv (fs 0 0 0 0) tm id) (xv (.accz 15 16) tm) (s1v (fs 0 0 0 0) tm id) ∧
    (UReady (.movsh 16 0 0) (sv (fs 65570 0 0 0) tm id) (xv (.movsh 16 0 0) tm) (s1v (fs 65570 0 0 0) tm id) ∧ shapeValid 65570 = true) ∧
    (UReady (.tspk 16 0 3) (sv (fs 64 0 0 0) tm id) (xv (.tspk 16 0 3) tm) (s1v (fs 64 0 0 0) tm id) ∧ tspkCauses tm sd 64 3 = []) ∧
    (UReady (.tcvt 16 0 1) (sv (fs 67712 0 0 0) tm id) (xv (.tcvt 16 0 1) tm) (s1v (fs 67712 0 0 0) tm id) ∧
      ((s1v (fs 67712 0 0 0) tm id).group? 0 0).isSome = true ∧ tcvtCauses tm sd false 67712 1 = []) ∧
    (UReady (.tcvt 0 0 1) { sl with teams := [{ tm with sides := [{ sd with shapes := [262177, 262177, 0, 0], tiles := sd.tiles }] }] }
      { (xl (.tcvt 0 0 1)) with t := { tm with sides := [{ sd with shapes := [262177, 262177, 0, 0], tiles := sd.tiles }] } }
      { s1l with teams := [{ tm with sides := [{ sd with shapes := [262177, 262177, 0, 0], tiles := sd.tiles }] }] }) :=
  ⟨u0 _ _ _ _ _ rfl, u0 _ _ _ _ _ rfl, ⟨u0 _ _ _ _ _ rfl, by decide⟩, ⟨u0 _ _ _ _ _ rfl, by decide +kernel⟩,
   ⟨u0 _ _ _ _ _ rfl, rfl, by decide +kernel⟩, UReady.lantern bl ln _ rfl (by decide) rfl rfl (fun k _ => ln_room k) rfl⟩

/-- A command of a group, and one of the lantern. -/
theorem test_tileCommandQueues_witness : st.team? 1 = some tm ∧ (∃ d ∈ tm.sides, d.core = 0) ∧
    (∃ f, (drainQueue st 0 0).front? 0 0 = some f ∧ (∀ o ∈ f.ops, o.id ≠ (drainQueue st 0 0).ids) ∧ ((xg (.tzero 0 3)).lan = true ↔ ¬ (0 : Nat) < 128)) ∧
    (∃ f, (drainQueue sl 0 128).front? 0 128 = some f ∧ (∀ o ∈ f.ops, o.id ≠ (drainQueue sl 0 128).ids) ∧
      ((xl (.tzero 0 3)).lan = true ↔ ¬ (128 : Nat) < 128)) :=
  ⟨rfl, ⟨sd, List.mem_singleton.mpr rfl, rfl⟩, ⟨_, rfl, by decide, by decide⟩, _, rfl, by decide, by decide⟩

/-- A block for a product of 4 by 4 over K = 16 of two bfloat16 tiles, at the start of the scratchpad. -/
def blk : List Byte := [0, 0, 1, 0, 4, 4, 16, 0] ++ List.replicate 56 0
def sm : State := { st with mem := Memory.write [] scratchBase blk }

theorem test_matrixWord_witness : LReady (.mxgo 10 0 0) sm bd gr tm ∧ (∀ j ∈ lanesIn (gr.activeOf bd 1), ((gr.issued bd 1).lane j).reg 10 = 0x122) ∧
    Passes (sm.issued bd gr 1) tm 0 gr.fe.sq .load 64 0 scratchBase false .scratch ∧ (sm.issued bd gr 1).loadBytes 0 gr.fe.sq scratchBase 64 = blk ∧
    mxgoFault (sm.issued bd gr 1) tm sd 0x122 blk = none :=
  ⟨⟨⟨rfl, by decide, rfl, rfl⟩, bd_whole, by decide, rfl, fun k _ => gr_room k, (lready (.mxgo 10 0 0) rfl).waited, (lready (.mxgo 10 0 0) rfl).uniform⟩,
   both (by decide) (by decide), ⟨by decide, by decide, by decide +kernel, by decide +kernel, fun _ => by decide +kernel, rfl⟩, by decide +kernel, by decide +kernel⟩

/-- A team's copy, as nobody and as two groups have supplied a slice. -/
theorem test_copyInstanceStarts_witness : (([] : List Slice).foldr insertByGroup []).length ≤ 1 ∧
    1 < (([{ grp := 1 }, {}] : List Slice).foldr insertByGroup []).length := by decide

theorem test_teamCopies_witness :
    (UReady (.cpyIn 16 0 0) (sv (fs 0x20000 0 64 0) tm id) (xv (.cpyIn 16 0 0) tm) (s1v (fs 0x20000 0 64 0) tm id) ∧ arvIllegal 0 = false ∧
      cpyEarly (s1v (fs 0x20000 0 64 0) tm id) tm 0 0 0x20000 0 64 0 = none ∧ cpyPages (s1v (fs 0x20000 0 64 0) tm id) tm 0 0x20000 0 64 = .ok) ∧
    (UReady (.cpyOut 16 0 0) (sv (fs 0xFFC0 0x2FFC0 64 0) tm id) (xv (.cpyOut 16 0 0) tm) (s1v (fs 0xFFC0 0x2FFC0 64 0) tm id) ∧
      cpyEarly (s1v (fs 0xFFC0 0x2FFC0 64 0) tm id) tm 0 1 0xFFC0 0x2FFC0 64 0 = none ∧
      cpyPages (s1v (fs 0xFFC0 0x2FFC0 64 0) tm id) tm 1 0xFFC0 0x2FFC0 64 = .ok) ∧
    (UReady (.cpyCc 16 0 0) (sv (fs 0x20000 0x20000 0 0) tm id) (xv (.cpyCc 16 0 0) tm) (s1v (fs 0x20000 0x20000 0 0) tm id) ∧
      cpyEarly (s1v (fs 0x20000 0x20000 0 0) tm id) tm 0 2 0x20000 0x20000 0 0 = none ∧
      cpyPages (s1v (fs 0x20000 0x20000 0 0) tm id) tm 2 0x20000 0x20000 0 = .ok) :=
  ⟨⟨u0 _ _ _ _ _ rfl, by decide, by decide +kernel, by decide +kernel⟩, ⟨u0 _ _ _ _ _ rfl, by decide +kernel, by decide +kernel⟩,
   u0 _ _ _ _ _ rfl, by decide +kernel, by decide +kernel⟩

/-- A fill of nothing, a fill, and an addition of one array to another. -/
theorem test_bankOperations_witness :
    (UReady (.cupop 16 0 0 0) (sv (fs 0 0 0 0) tm id) (xv (.cupop 16 0 0 0) tm) (s1v (fs 0 0 0 0) tm id) ∧ mayLock (s1v (fs 0 0 0 0) tm id) 0 (ticketOf (s1v (fs 0 0 0 0) tm id) (xv (.cupop 16 0 0 0) tm)) 0 = true ∧
      release (s1v (fs 0 0 0 0) tm id) 0 0 4 = (s1v (fs 0 0 0 0) tm id, true)) ∧
    (UReady (.cupop 16 0 0 1) (sv (fs 0xFFF8 0 1 0) tm id) (xv (.cupop 16 0 0 1) tm) (s1v (fs 0xFFF8 0 1 0) tm id) ∧
      rangeFault (s1v (fs 0xFFF8 0 1 0) tm id) 0 (Config.windowBase + 0xFFF8) 8 .write = none ∧ mayLock (s1v (fs 0xFFF8 0 1 0) tm id) 0 (ticketOf (s1v (fs 0xFFF8 0 1 0) tm id) (xv (.cupop 16 0 0 1) tm)) 1 = true) ∧
    (UReady (.cupop 16 0 0 2) (sv (fs 0 0x8000 16 0) tm id) (xv (.cupop 16 0 0 2) tm) (s1v (fs 0 0x8000 16 0) tm id) ∧
      rangeFault (s1v (fs 0 0x8000 16 0) tm id) 0 Config.windowBase 64 .write = none ∧
      rangeFault (s1v (fs 0 0x8000 16 0) tm id) 0 (Config.windowBase + 0x8000) 64 .read = none ∧ mayLock (s1v (fs 0 0x8000 16 0) tm id) 0 (ticketOf (s1v (fs 0 0x8000 16 0) tm id) (xv (.cupop 16 0 0 2) tm)) 2 = true) :=
  ⟨⟨u0 _ _ _ _ _ rfl, by decide +kernel, rfl⟩, ⟨u0 _ _ _ _ _ rfl, by decide +kernel, by decide +kernel⟩,
   u0 _ _ _ _ _ rfl, by decide +kernel, by decide +kernel, by decide +kernel⟩

/-! ### Tasks -/

/-- A record: its kind, the word at its offset 16 (its teams, or a list's place), and its counter. -/
def rc (kind teams counter : Nat) : List Byte :=
  bytesOf 4 kind ++ bytesOf 4 counter ++ bytesOf 6 0x10000 ++ [1, 0] ++ bytesOf 4 teams ++ [16, 0, 0, 0] ++ bytesOf 2 0 ++ bytesOf 2 64 ++ bytesOf 2 512 ++
    List.replicate 98 0
def tsk (n : Nat) (st : TaskState) (kind counter : Nat) : Task :=
  { slot := n, ctx := 0, state := st, record := rc kind 0x100 counter, counter := BitVec.ofNat 32 counter }
def ws (ts : List Task) (s : State) : State := { s with tasks := ts }

theorem u1 (i : UInstr) (a b c d : DWord) (ts : List Task) (legal : legality tm false false (.u i) i.encode = none) :
    UReady i (sv (fs a b c d) tm (ws ts)) (xv i tm) (s1v (fs a b c d) tm (ws ts)) :=
  ureadyV i _ _ _ ⟨rfl, by decide, rfl, rfl⟩ gr_room legal

theorem test_postWord_witness :
    (UReady (.post 16 17 0 0) (sv (fs 0xFF80 0 0 0) tm id) (xv (.post 16 17 0 0) tm) (s1v (fs 0xFF80 0 0 0) tm id) ∧
      ((s1v (fs 0xFF80 0 0 0) tm id).ctx 0).ctxc.getLsbD 2 = true ∧ (scratchAt tm 0 0xFF80 128).isSome = true ∧
      (release (s1v (fs 0xFF80 0 0 0) tm id) 0 0 4).2 = true) ∧
    (UReady (.post 16 17 0 1) (sv (fs 0x1FFFFF80 0 0 0) tm id) (xv (.post 16 17 0 1) tm) (s1v (fs 0x1FFFFF80 0 0 0) tm id) ∧
      rangeFault ((s1v (fs 0x1FFFFF80 0 0 0) tm id).touchRange 0 (Config.windowBase + 0x1FFFFF80) 128) 0 (Config.windowBase + 0x1FFFFF80) 128 .read = none) :=
  ⟨⟨u0 _ _ _ _ _ rfl, rfl, by decide, by decide +kernel⟩, u0 _ _ _ _ _ rfl, by decide +kernel⟩

theorem test_arriveWord_witness : UReady (.arrive 16 17 0) (sv (fs 3 0xFFFFFFFF 0 0) tm id) (xv (.arrive 16 17 0) tm) (s1v (fs 3 0xFFFFFFFF 0 0) tm id) ∧
    slotIn (s1v (fs 3 0xFFFFFFFF 0 0) tm id) 0 3 = true ∧ (release (s1v (fs 3 0xFFFFFFFF 0 0) tm id) 0 0 4).2 = true :=
  ⟨u0 _ _ _ _ _ rfl, by decide, by decide +kernel⟩

theorem test_countersCountDown_witness : (ws [tsk 3 .waiting 0 2] st).task? 0 = none ∧ (ws [tsk 3 .waiting 0 2] st).task? 3 = some (tsk 3 .waiting 0 2) ∧
    (tsk 3 .waiting 0 2).counter.toNat = 2 := ⟨rfl, rfl, rfl⟩

/-- A ragged task whose list of records is in the window at 0x100. -/
theorem test_appendAndSeal_witness :
    let s := s1v (fs 3 0 0 0) tm (ws [tsk 3 .ready 1 0])
    (s.ctx 0).ctxc.getLsbD 2 = true ∧ raggedTask s 0 3 = some (tsk 3 .ready 1 0) ∧
    UReady (.append 16 17 0 0) (sv (fs 3 0 0 0) tm (ws [tsk 3 .ready 1 0])) (xv (.append 16 17 0 0) tm) s ∧ (tsk 3 .ready 1 0).sealed = false ∧
    scratchAt tm 0 0 32 = some scratchBase ∧ windowFault (s.windowTouch 0 0x100 4) 0 0x100 4 .both = none ∧ (release s 0 0 4).2 = true ∧
    windowBytes s 0 0x100 4 = some [0, 0, 0, 0] ∧ windowFault (s.windowTouch 0 0x120 32) 0 0x120 32 .write = none ∧ (windowWrite (s.windowTouch 0 0x120 32) 0 0x120 (List.replicate 32 0)).isSome = true ∧
    UReady (.append 16 17 0 1) (sv (fs 3 0 0 0) tm (ws [tsk 3 .ready 1 0])) (xv (.append 16 17 0 1) tm) s ∧
    rangeFault s 0 Config.windowBase 32 .read = none ∧
    UReady (.seal 16 0) (sv (fs 3 0 0 0) tm (ws [tsk 3 .ready 1 0])) (xv (.seal 16 0) tm) s :=
  ⟨rfl, by decide +kernel, u1 _ _ _ _ _ _ rfl, rfl, by decide, by decide +kernel, by decide +kernel, by decide +kernel, by decide +kernel, by decide +kernel,
   u1 _ _ _ _ _ _ rfl, by decide +kernel, u1 _ _ _ _ _ _ rfl⟩

/-- A bit of the window's last byte, set and clear. -/
theorem test_waitOnBitmap_witness :
    UReady (.waitbm 16 17) (sv (fs 0x1FFFFFF0 127 0 0) tm id) (xv (.waitbm 16 17) tm) (s1v (fs 0x1FFFFFF0 127 0 0) tm id) ∧ tm.det = false ∧
    (∃ p, windowPage ((s1v (fs 0x1FFFFFF0 127 0 0) tm id).touch 0 (Config.windowBase + 0x1FFFFFFF)) 0 0x1FFFFFFF .read = .ok p ∧
      ((s1v (fs 0x1FFFFFF0 127 0 0) tm id).byte p.loc).getLsbD 7 = false) ∧
    (∃ p, let u := (fun s : State => { s with mem := [(cupolaBase, 1)] })
      windowPage ((s1v (fs 0 0 0 0) tm u).touch 0 Config.windowBase) 0 0 .read = .ok p ∧ ((s1v (fs 0 0 0 0) tm u).byte p.loc).getLsbD 0 = true) :=
  ⟨u0 _ _ _ _ _ rfl, rfl, ⟨_, rfl, by decide +kernel⟩, _, rfl, by decide +kernel⟩

theorem test_barriers_witness : UReady .tbar su (xg .tbar) s1g ∧ UReady .pbar su (xg .pbar) s1g ∧ ((release s1g 0 0 1).1.group? 0 0).isSome = true ∧
    ((release s1g 0 0 2).1.group? 0 0).isSome = true :=
  ⟨uready _ rfl, uready _ rfl, by decide +kernel, by decide +kernel⟩

theorem test_queueWords_witness : s1l.team? 1 = some tm ∧ UReady (.dqpush 63 15) sl (xl (.dqpush 63 15)) s1l ∧ UReady (.dqpush 0 0) sl (xl (.dqpush 0 0)) s1l ∧
    tm.held.length < 32 ∧ s1g.team? 1 = some tm ∧ UReady (.dqpop 63 15) su (xg (.dqpop 63 15)) s1g ∧ UReady (.dqpop 0 14) su (xg (.dqpop 0 14)) s1g :=
  ⟨rfl, lready_lantern _ rfl, lready_lantern _ rfl, by decide, rfl, uready _ rfl, uready _ rfl⟩

/-- A queue that is full; one with a push held; one that the lantern is parked on; one with a pop held; one that is empty. -/
def tq (n : Nat) (h : List HeldOp) : Team := { tm with dq := List.replicate n 9, held := h }
def hp (push : Bool) : HeldOp := { push := push, slot := if push then 128 else 0, core := 0, sa := 5, tok := 0, op := 0, value := 8 }
def sq (t : Team) (w : Waiting) : State := { sl with teams := [t], lanterns := [{ ln with waiting := w, park := .queue }] }

theorem test_queueOrder_witness :
    ((sq (tq 16 []) .none).team? 1 = some (tq 16 []) ∧ 16 ≤ (tq 16 []).dq.length) ∧
    ((sq (tq 15 [hp true]) .none).team? 1 = some (tq 15 [hp true]) ∧ (tq 15 [hp true]).dq.length < 16 ∧
      nextPush (sq (tq 15 [hp true]) .none) (tq 15 [hp true]) = some (8, some (hp true))) ∧
    (nextPush (sq (tq 0 []) (.push 7)) (tq 0 []) = some (7, none) ∧
      ((sq (tq 0 []) (.push 7)).lanterns.find? (fun (l : Lantern) => l.team = (tq 0 []).id)).isSome = true) ∧
    (nextPop (sq (tq 1 [hp false]) .none) (tq 1 [hp false]) = some (0, 0, 5, some (hp false)) ∧ (tq 1 [hp false]).dq = [9]) ∧
    ((tq 0 []).dq = [] ∧ (tq 0 []).lantern = false) ∧
    ((sq (tq 0 []) .none).saving 0 = false ∧ ({ sq (tq 0 []) .none with saves := [{ ctx := 0, seqNo := 1, va := 0 }] } : State).saving 0 = true) := by decide +kernel

/-! ### Control registers -/

theorem test_readControl_witness : UReady (.getc 0 0) su (xg (.getc 0 0)) s1g ∧ UReady (.getc 63 16) su (xg (.getc 63 16)) s1g ∧
    UReady (.getc 63 4) sl (xl (.getc 63 4)) s1l ∧ UReady (.getc 63 5) sl (xl (.getc 63 5)) s1l ∧ (s1g.front? 0 0).isSome = true ∧
    (s1l.front? 0 128).isSome = true ∧ (s1g.group? 0 0).isSome = true ∧ tm.det = false :=
  ⟨uready _ rfl, uready _ rfl, lready_lantern _ rfl, lready_lantern _ rfl, rfl, rfl, rfl, rfl⟩

/-- A group whose lanes are in their handler, at the join of a U-set unit. -/
def gh : Machine.Group :=
  { gj with fe := { gj.fe with handler := true, epc := 0x20003 }, lanes := gj.lanes.map (fun l => { l with handler := true }) }
def xh (i : UInstr) : Ix := { b := bu, core := 0, slot := 0, t := tm, act := 3, word := i.encode, h := true }
def s1h : State := (wd gh bu).pop.setGroup (leaveJoin gh 3 0x10004)

theorem uready_handler (i : UInstr) (legal : legality tm false true (.u i) i.encode = none) : UReady i (wd gh bu) (xh i) s1h := by
  have h := UReady.group (i := i) (s := wd gh bu) bu gh tm true ⟨rfl, by decide, rfl, rfl⟩ rfl rfl (fun k _ => gj_room k) legal
    (by simp [unitUnderWait, Group.arrived, bu, gh, gj, gr, fpcChk])
  exact h

theorem test_writeControl_witness : UReady (.setc 0 63) su (xg (.setc 0 63)) s1g ∧ UReady (.setc 1 0) su (xg (.setc 1 0)) s1g ∧
    UReady (.setc 3 0) su (xg (.setc 3 0)) s1g ∧ UReady (.setc 4 0) su (xg (.setc 4 0)) s1g ∧ UReady (.setc 6 0) (wd gh bu) (xh (.setc 6 0)) s1h ∧
    UReady (.setc 0 0) sl (xl (.setc 0 0)) s1l ∧
    (∃ l, UReady (.setc 6 0) { sl with lanterns := [{ ln with fe := { ln.fe with handler := true } }] } { (xl (.setc 6 0)) with h := true }
      ({ sl with lanterns := [{ ln with fe := { ln.fe with handler := true } }] } |>.pop.setLantern l)) :=
  ⟨uready _ rfl, uready _ rfl, uready _ rfl, uready _ rfl, uready_handler _ rfl, lready_lantern _ rfl,
   _, UReady.lantern bl { ln with fe := { ln.fe with handler := true } } tm rfl (by decide) rfl rfl (fun k _ => ln_room k) rfl⟩

theorem test_returnFromHandler_witness : UReady .eret (wd gh bu) (xh .eret) s1h ∧ s1h.group? 0 0 = some (leaveJoin gh 3 0x10004) ∧
    (leaveJoin gh 3 0x10004).traps = [] ∧ (leaveJoin gh 3 0x10004).dbgc.getLsbD 0 = false ∧ fpcChk (leaveJoin gh 3 0x10004).fpc = false ∧
    recordOff s1h 0 0 0 = some 0 ∧ windowBytes s1h 0 64 32 = some (List.replicate 32 0) :=
  ⟨uready_handler _ rfl, rfl, rfl, rfl, rfl, by decide, by decide +kernel⟩

/-- Nothing in flight in a group and in the lantern, and an operation in flight. -/
theorem test_waitForOperations_witness : UReady .synce su (xg .synce) s1g ∧ (∃ f, s1g.front? 0 0 = some f ∧ f.ops = []) ∧
    UReady .synce sl (xl .synce) s1l ∧ (∃ f l, s1l.front? 0 128 = some f ∧ f.ops = [] ∧ s1l.lantern? 0 128 = some l) ∧
    (let f : Front := { (fs 0 0 0 0) with ops := [{ id := 1, tok := 15, owed := true }] }
     UReady .synce (sv f tm id) (xv .synce tm) (s1v f tm id) ∧ ∃ h, (s1v f tm id).front? 0 0 = some h ∧ h.ops ≠ []) :=
  ⟨uready _ rfl, ⟨_, rfl, rfl⟩, lready_lantern _ rfl, ⟨_, _, rfl, rfl, rfl⟩, ureadyV _ _ _ _ ⟨rfl, by decide, rfl, rfl⟩ gr_room rfl, _, rfl, by decide⟩

end Sys2Proof.Tests
end

