-- ==== Sys2Proof/Tests/Words.lean ====
section
/-! SUPPORT. For each statement about instruction words, a machine and operands that meet its hypotheses, clause by clause. -/

open Sys2Proof Sys2Proof.Machine Sys2Proof.Claims

namespace Sys2Proof.Tests

set_option Elab.async false

/-! ### Integer words -/

theorem test_arithmeticWords_witness : ∃ w, arithResult (.iadd true 0 15 1) = some w ∧ LReady (.iadd true 0 15 1) st bd gr tm :=
  ⟨_, rfl, lready _ rfl⟩
theorem test_shiftAndFieldWords_witness : ∃ w, bitResult (.iadd64 false 14 0 2) = some w ∧ LReady (.iadd64 false 14 0 2) st bd gr tm :=
  ⟨_, rfl, lready _ rfl⟩
theorem test_immediateWords_witness : ∃ w, immResult bd.pfx (.movi false 15 0x7FFFF) = some w ∧ LReady (.movi false 15 0x7FFFF) st bd gr tm :=
  ⟨_, rfl, lready _ rfl⟩
theorem test_predicateWords_witness : ∃ w, predResult (.icmp false 9 0 1 2 1) = some w ∧ LReady (.icmp false 9 0 1 2 1) st bd gr tm :=
  ⟨_, rfl, lready _ rfl⟩

/-! ### Floating-point words -/

theorem test_floatWords_witness : ∃ lat f, floatResult (.ffma false 3 0 1) = some (lat, f) ∧ LReady (.ffma false 3 0 1) st bd gr tm ∧
    (gr.issued bd 1).quiet (gr.activeOf bd 1) (laneOuts (.ffma false 3 0 1) bd gr f) :=
  ⟨_, _, rfl, lready _ rfl, both (by rfl) (by rfl)⟩

/-- A group that enables every flag, with infinities in v0 and v1. -/
def ge : Machine.Group := { gr with fpc := 0x1F00, lanes := gr.lanes.map (fun l => { l with v := (l.v.set 0 0x7F800000).set 1 0xFF800000 }) }

theorem test_enabledFlagsTrap_witness : ∃ lat f, floatResult (.fadd false 3 0 1) = some (lat, f) ∧ LReady (.fadd false 3 0 1) (wd ge bd) bd ge tm ∧
    trapping (ge.issued bd 1) (ge.activeOf bd 1) (laneOuts (.fadd false 3 0 1) bd ge f) =
      [{ lane := 0, vec := 0x200, cause := 1 }, { lane := 1, vec := 0x200, cause := 1 }] :=
  ⟨_, _, rfl, ⟨⟨rfl, by decide, rfl, rfl⟩, bd_whole, by decide, rfl, fun k _ => gr_room k, by rfl, by rfl⟩, by rfl⟩

theorem test_arithmeticNans_witness : isNan (decodeF fp32 (fAdd fp32 .rne 0x7F800000 0xFF800000).1) = true ∧
    isNan (decodeF fp64 (fMul fp64 .rz 0x7FF0000000000000 0).1) = true := ⟨by rfl, by rfl⟩

theorem test_conversionWord_witness : ∀ r : BitVec 3, r = 0 ∨ r = 4 → ∃ gd out,
    LReady (.cvt false 6 9 3 r 2) st bd gr tm ∧ ¬(r = 4 ∧ tm.det = true) ∧ Converts false 6 9 3 r 2 bd gr gd out := by
  rintro r (rfl | rfl)
  · exact ⟨_, fun _ => _, lready _ rfl, by decide, rfl, fun _ => rfl, both (by rfl) (by rfl)⟩
  · exact ⟨_, fun _ => _, lready _ rfl, by decide, rfl, fun _ => rfl, both (by rfl) (by rfl)⟩

/-- The team in a deterministic task. -/
def td : Team := { tm with det := true }
/-- The bundle of lane 0 alone. -/
def b0 : Bundle := { bd with lanes := 1 }

/-- Lane 0 arrives alone, and both lanes arrive. -/
theorem test_ditheredConversionJoins_witness :
    (Issues { (wd gr b0) with teams := [td] } b0 gr td ∧ td.det = true ∧
      legality td false gr.fe.handler (.l (.cvt false 6 9 3 4 2)) (LInstr.encode (.cvt false 6 9 3 4 2)) = none ∧
      (gr.arrived b0).fullAt false ≠ some b0.unit) ∧
    (∃ g2 s2 gd out, Issues { st with teams := [td] } bd gr td ∧ (gr.arrived bd).fullAt false = some bd.unit ∧
      g2 = leaveJoin (gr.arrived bd) ((gr.arrived bd).members false) bd.unit ∧
      s2 = { ({ st with teams := [td] } : State).setGroup g2 with issue := [{ bd with lanes := (gr.arrived bd).members false }] } ∧
      LReady (.cvt false 6 9 3 4 2) s2 { bd with lanes := (gr.arrived bd).members false } g2 td ∧
      Converts false 6 9 3 4 2 { bd with lanes := (gr.arrived bd).members false } g2 gd out) :=
  ⟨⟨⟨rfl, by decide, rfl, rfl⟩, rfl, rfl, by decide⟩, _, _, _, fun _ => _, ⟨rfl, by decide, rfl, rfl⟩, rfl, rfl, rfl,
   ⟨⟨rfl, by decide, rfl, rfl⟩, ⟨rfl, rfl, rfl, rfl, rfl⟩, by decide, rfl, fun k _ => gr_room k, by rfl, by rfl⟩, rfl, fun _ => rfl,
   both_of (by decide) (by rfl) (by rfl)⟩

/-! ### Special functions, random numbers and counts -/

theorem test_specialFunctionWords_witness : ∃ f, specialResult (.dsqrt true 14 2 14) = some (14, f) ∧ LReady (.dsqrt true 14 2 14) st bd gr tm :=
  ⟨_, rfl, lready _ rfl⟩
theorem test_longLatencyIssue_witness : (0 : Nat) < 128 ∧ st.group? 0 0 = some gr ∧ (∀ j ∈ [0, 63], j < 64) ∧ bd.Whole :=
  ⟨by decide, rfl, by decide, bd_whole⟩
theorem test_randomAndCountWords_witness : LReady (.rngB32 3 0) st bd gr tm ∧ LReady (.rngF32 3 15) st bd gr tm ∧
    LReady (.cycle 3 0) st bd gr tm ∧ LReady (.rdspec 3 0 0) st bd gr tm ∧ LReady (.rdspec 3 1 0) st bd gr tm ∧ tm.det = false :=
  ⟨lready _ rfl, lready _ rfl, lready _ rfl, lready _ rfl, lready _ rfl, rfl⟩

/-! ### Memory words: the last word of the slice, of the scratchpad and of the window -/

theorem test_loadWords_witness :
    (∃ m, loadForm (.ldlB32 3 4 0 0) = some m ∧ LReady (.ldlB32 3 4 0 0) st bd gr tm ∧ ∀ j ∈ lanesIn (gr.activeOf bd 1),
      Passes (looked (.ldlB32 3 4 0 0) st bd gr tm m) tm 0 gr.fe.sq .load m.w (offOf bd gr m j) 508 false m.sp ∧
      ((gr.issued bd 1).lane j).sliceBad 508 m.w = false) ∧
    (∃ m, loadForm (.ldsB32 false 3 5 0 0) = some m ∧ LReady (.ldsB32 false 3 5 0 0) st bd gr tm ∧ ∀ j ∈ lanesIn (gr.activeOf bd 1),
      Passes (looked (.ldsB32 false 3 5 0 0) st bd gr tm m) tm 0 gr.fe.sq .load m.w (offOf bd gr m j) (scratchBase + 65532) false m.sp) ∧
    (∃ m, loadForm (.ldcAcqB32 3 6 14 0) = some m ∧ LReady (.ldcAcqB32 3 6 14 0) st bd gr tm ∧ ∀ j ∈ lanesIn (gr.activeOf bd 1),
      Passes (looked (.ldcAcqB32 3 6 14 0) st bd gr tm m) tm 0 gr.fe.sq .load m.w (offOf bd gr m j) (cupolaBase + 0x1FFFFFFC) false m.sp) :=
  ⟨⟨_, rfl, lready _ rfl, both ⟨⟨rfl, by decide, rfl, rfl⟩, rfl⟩ ⟨⟨rfl, by decide, rfl, rfl⟩, rfl⟩⟩,
   ⟨_, rfl, lready _ rfl, both ⟨rfl, rfl, nofun, rfl, fun _ => rfl, rfl⟩ ⟨rfl, rfl, nofun, rfl, fun _ => rfl, rfl⟩⟩,
   ⟨_, rfl, lready _ rfl, both ⟨nofun, rfl, by decide, ⟨_, rfl, rfl, rfl⟩, nofun, rfl⟩ ⟨nofun, rfl, by decide, ⟨_, rfl, rfl, rfl⟩, nofun, rfl⟩⟩⟩

/-- The scratchpad's last line is absent; a lane of the group that has parked for it, and the one that has not. -/
def sab : State := { st with absent := [scratchBase + 65472] }
def wan : Want := { kind := .load false, addr := scratchBase + 65532, n := 4, reg := 3, tok := 0, unit := 0x10000, word := 0 }
def gpk : Machine.Group := { gr with lanes := [{ la 0 with park := .presence, next := 0x10004, want := some wan }, la 1] }

theorem test_loadsPark_witness : ∃ m, loadForm (.ldsB32 false 3 5 0 0) = some m ∧ m.sp = .scratch ∧ LReady (.ldsB32 false 3 5 0 0) sab bd gr tm ∧
    gr.dbgc.getLsbD 0 = false ∧ sab.lineAbsent (scratchBase + 65532) = true ∧
    ∀ j ∈ lanesIn (gr.activeOf bd 1), offOf bd gr m j % m.w = 0 ∧ scratchAt tm 0 (offOf bd gr m j) m.w = some (scratchBase + 65532) ∧
      lockScratch sab tm.id (scratchBase + 65532) m.w true ≠ .trap ∧ readBad sab 0 gr.fe.sq (scratchBase + 65532) m.w .load = false :=
  ⟨_, rfl, rfl, ⟨⟨rfl, by decide, rfl, rfl⟩, bd_whole, by decide, rfl, fun k _ => gr_room k, by rfl, by rfl⟩, rfl, by decide,
    both ⟨rfl, rfl, nofun, rfl⟩ ⟨rfl, rfl, nofun, rfl⟩⟩

theorem test_parkedLoadsWake_witness : let b : Bundle := { bd with duty := .lanes }
    let s : State := wd gpk b
    s.group? 0 0 = some gpk ∧ s.teamOf 0 0 = some tm ∧ s.saving tm.ctx = false ∧ b.Whole ∧ gpk.dbgc.getLsbD 0 = false ∧
    (gpk.lane 0).live = true ∧ (gpk.lane 0).park = .presence ∧ (gpk.lane 1).park = .none ∧ s.lineAbsent wan.addr = false ∧
    (∀ j, b.lanes.getLsbD j = true → ∀ x, (gpk.lane j).want = some x → ∃ sg, x.kind = .load sg) ∧ (lanesIn 1).head? = some 0 ∧
    (gpk.lane 0).want = some wan ∧ gpk.fe.room wan.tok = true ∧ loadBad s 0 gpk.fe.sq (gpk.wantOf 0).addr (gpk.wantOf 0).n = false := by
  refine ⟨rfl, rfl, rfl, ⟨rfl, rfl, rfl, rfl, rfl⟩, rfl, rfl, rfl, rfl, by decide +kernel, ?_, by decide, rfl, by decide, by decide +kernel⟩
  intro j _ x e
  match j, e with
  | 0, e => exact ⟨false, (congrArg Want.kind (Option.some.inj e)).symm⟩
  | 1, e => exact absurd e (by rintro ⟨⟩)
  | _ + 2, e => exact absurd e (by rintro ⟨⟩)

theorem test_storeWords_witness :
    (∃ m, storeForm (.stlB32 3 4 0 0) = some m ∧ LReady (.stlB32 3 4 0 0) st bd gr tm ∧ ∀ j ∈ lanesIn (gr.activeOf bd 1),
      Passes (looked (.stlB32 3 4 0 0) st bd gr tm m) tm 0 gr.fe.sq .store m.w (offOf bd gr m j) 508 false m.sp) ∧
    (∃ m, storeForm (.stsB128 12 7 0 7) = some m ∧ LReady (.stsB128 12 7 0 7) st bd gr tm ∧ ∀ j ∈ lanesIn (gr.activeOf bd 1),
      Passes (looked (.stsB128 12 7 0 7) st bd gr tm m) tm 0 gr.fe.sq .store m.w (offOf bd gr m j) (scratchBase + 176) false m.sp) ∧
    (∃ m, storeForm (.stcRelB32 3 6 15 0) = some m ∧ LReady (.stcRelB32 3 6 15 0) st bd gr tm ∧ ∀ j ∈ lanesIn (gr.activeOf bd 1),
      Passes (looked (.stcRelB32 3 6 15 0) st bd gr tm m) tm 0 gr.fe.sq .store m.w (offOf bd gr m j) (cupolaBase + 0x1FFFFFFC) false m.sp) :=
  ⟨⟨_, rfl, lready _ rfl, both ⟨rfl, by decide, rfl, rfl⟩ ⟨rfl, by decide, rfl, rfl⟩⟩,
   ⟨_, rfl, lready _ rfl, both ⟨rfl, rfl, nofun, rfl, nofun, rfl⟩ ⟨rfl, rfl, nofun, rfl, nofun, rfl⟩⟩,
   ⟨_, rfl, lready _ rfl, both ⟨nofun, rfl, by decide, ⟨_, rfl, rfl, rfl⟩, nofun, rfl⟩ ⟨nofun, rfl, by decide, ⟨_, rfl, rfl, rfl⟩, nofun, rfl⟩⟩⟩

theorem test_presenceWord_witness : LReady (.prs 3 5 0 0) st bd gr tm ∧ tm.det = false ∧
    ∀ j ∈ lanesIn (gr.activeOf bd 1), offOf bd gr { sp := .scratch, w := 4, d := 3, a := 5, k := 0, sc := 0 } j % 4 = 0 ∧
      scratchAt tm 0 (offOf bd gr { sp := .scratch, w := 4, d := 3, a := 5, k := 0, sc := 0 } j) 4 = some (scratchBase + 65532) :=
  ⟨lready _ rfl, rfl, both ⟨rfl, rfl⟩ ⟨rfl, rfl⟩⟩

/-- An atomic of the scratchpad and one of the Cupola; both lanes meet at one word. -/
theorem test_atomicWords_witness :
    (∃ m f, atomForm (.atomsCas 14 5 0 0) = some (m, f) ∧ Issues st bd gr tm ∧ LReady (.atomsCas 14 5 0 0) (drainQueue st 0 0) bd gr tm ∧
      atomsPass (Issues.ix (.atomsCas 14 5 0 0) bd gr tm 1) tm m f (offOf bd gr m) (fun j => ((gr.issued bd 1).lane j).pair m.d.toNat)
        (fun _ => scratchBase + 65532) (fun _ => false) (lanesIn (gr.activeOf bd 1)) ((drainQueue st 0 0).issued bd gr 1)) ∧
    (∃ m f s2, atomForm (.atomcAdd 3 6 0 0) = some (m, f) ∧
      s2 = drainOut (drainQueue st 0 0) 0 (fun e => (atomLocs (drainQueue st 0 0) tm bd gr m).any (fun l => overlaps l m.w e.loc e.bytes.length)) ∧
      LReady (.atomcAdd 3 6 0 0) s2 bd gr tm ∧ (s2.channel 0 = []) ∧
      atomsPass (Issues.ix (.atomcAdd 3 6 0 0) bd gr tm 1) tm m f (offOf bd gr m) (fun j => ((gr.issued bd 1).lane j).pair m.d.toNat)
        (fun _ => cupolaBase + 0x1FFFFFFC) (fun _ => false) (lanesIn (gr.activeOf bd 1)) (s2.issued bd gr 1)) :=
  ⟨⟨_, _, rfl, ⟨rfl, by decide, rfl, rfl⟩, lready _ rfl,
    ⟨rfl, rfl, nofun, rfl, nofun, rfl⟩, ⟨rfl, rfl, nofun, rfl, nofun, rfl⟩, trivial⟩,
   ⟨_, _, st, rfl, rfl, lready _ rfl, rfl,
    ⟨fun _ => rfl, rfl, by decide, ⟨_, rfl, rfl, rfl⟩, nofun, rfl⟩, ⟨fun _ => rfl, rfl, by decide, ⟨_, rfl, rfl, rfl⟩, nofun, rfl⟩, trivial⟩⟩

/-- What an atomic makes of an entry on its way to its bytes, and of one that lies elsewhere. -/
theorem test_atomicDrains : (let e (loc : Nat) : Entry := { loc := loc, bytes := [7], op := 9, ctx := 0 }
    let s : State := { st with outb := [{ core := 0, entry := e (cupolaBase + 128) }, { core := 0, entry := e (cupolaBase + 0x1FFFFFFD) }] }
    (drainOut s 0 (fun e => (atomLocs s tm bd gr { sp := .cupola, w := 4, d := 3, a := 6, k := 0, sc := 0 }).any (fun l => overlaps l 4 e.loc e.bytes.length))).channel 0 =
      [e (cupolaBase + 128)]) := by decide +kernel

theorem test_scalarLoads_witness :
    (∃ sp w, scalarForm (.sldB64 0 0 0 31) = some (sp, w, true, 0, 0, 0, 31) ∧ UReady (.sldB64 0 0 0 31) su (xg (.sldB64 0 0 0 31)) s1g ∧
      Passes (touchFor s1g tm sp 248 w) tm 0 (sqOf s1g 0 0) .load w 248 (scratchBase + 248) false sp ∧
      sval s1g (xg (.sldB64 0 0 0 31)) 0 + immZ (31 : BitVec 5) none * 8 = 248) ∧
    (∃ sp w, scalarForm (.sldcB64 63 0 15 0) = some (sp, w, true, 63, 0, 15, 0) ∧ UReady (.sldcB64 63 0 15 0) sl (xl (.sldcB64 63 0 15 0)) s1l ∧
      Passes (touchFor s1l tm sp 0 w) tm 0 (sqOf s1l 0 128) .load w 0 cupolaBase false sp) :=
  ⟨⟨_, _, rfl, uready _ rfl, ⟨rfl, rfl, nofun, rfl, fun _ => rfl, rfl⟩, rfl⟩,
   ⟨_, _, rfl, lready_lantern _ rfl, ⟨nofun, rfl, by decide, ⟨_, rfl, rfl, rfl⟩, nofun, rfl⟩⟩⟩

theorem test_scalarStores_witness :
    (∃ sp w, scalarForm (.sstB32 5 0 0 31) = some (sp, w, false, 5, 0, 0, 31) ∧ UReady (.sstB32 5 0 0 31) su (xg (.sstB32 5 0 0 31)) s1g ∧
      Passes (touchFor s1g tm sp 124 w) tm 0 (sqOf s1g 0 0) .store w 124 (scratchBase + 124) false sp ∧ (s1g.front? 0 0).isSome = true) ∧
    (∃ sp w, scalarForm (.sstcB64 63 0 15 0) = some (sp, w, false, 63, 0, 15, 0) ∧ UReady (.sstcB64 63 0 15 0) sl (xl (.sstcB64 63 0 15 0)) s1l ∧
      Passes (touchFor s1l tm sp 0 w) tm 0 (sqOf s1l 0 128) .store w 0 cupolaBase false sp ∧ (s1l.front? 0 128).isSome = true) :=
  ⟨⟨_, _, rfl, uready _ rfl, ⟨rfl, rfl, nofun, rfl, nofun, rfl⟩, rfl⟩,
   ⟨_, _, rfl, lready_lantern _ rfl, ⟨nofun, rfl, by decide, ⟨_, rfl, rfl, rfl⟩, nofun, rfl⟩, rfl⟩⟩

/-- Both lanes of a GATH and of a SCAT reach the first byte of a page of DRAM. -/
theorem test_globalAccesses_witness :
    (∃ w sp, gathForm (.gathB64 14 8 0 1) = some (w, true, sp, 14, 8, 0) ∧ LReady (.gathB64 14 8 0 1) st bd gr tm ∧
      ∀ j ∈ lanesIn (gr.activeOf bd 1), GlobalPass ((pagesLooked bd gr 8).foldl (fun s p => s.touch 0 (p * 0x10000)) (st.issued bd gr 1))
        tm 0 [] true w (vaOf bd gr 8 j) 0x120000 false) ∧
    (∃ w, gathForm (.scatB32 14 8 0) = some (w, false, false, 14, 8, 0) ∧ LReady (.scatB32 14 8 0) st bd gr tm ∧
      ∀ j ∈ lanesIn (gr.activeOf bd 1), GlobalPass ((pagesLooked bd gr 8).foldl (fun s p => s.touch 0 (p * 0x10000)) (st.issued bd gr 1))
        tm 0 [] false w (vaOf bd gr 8 j) 0x120000 false) :=
  ⟨⟨_, _, rfl, lready _ rfl, both ⟨by decide, rfl, rfl, ⟨_, rfl, rfl, rfl⟩, rfl, fun _ => rfl⟩ ⟨by decide, rfl, rfl, ⟨_, rfl, rfl, rfl⟩, rfl, fun _ => rfl⟩⟩,
   ⟨_, rfl, lready _ rfl, both ⟨by decide, rfl, rfl, ⟨_, rfl, rfl, rfl⟩, rfl, nofun⟩ ⟨by decide, rfl, rfl, ⟨_, rfl, rfl, rfl⟩, rfl, nofun⟩⟩⟩

theorem test_fenceWord_witness : ∀ c : BitVec 6, c = 1 ∨ c = 5 →
    UReady (.fence c) su (xg (.fence c)) s1g ∧ (release s1g 0 0 c.toNat).2 = true := by
  rintro c (rfl | rfl)
  · exact ⟨uready _ rfl, rfl⟩
  · exact ⟨uready _ rfl, rfl⟩

/-- A release that is not complete: an entry for a page that a swap holds stands in the core's channel. -/
def kept (s : State) : State :=
  { s with care := { s.care with swaps := [{ group := 2, retire := false, frame := 1, memA := 1 }] }
           outb := [{ core := 0, entry := { loc := 0x20000, bytes := [1], ctx := 0, va := none, slot := 0 } }] }

theorem test_fenceIncomplete_witness : UReady (.fence 4) (sv (fs 0 0 0 0) tm kept) (xv (.fence 4) tm) (s1v (fs 0 0 0 0) tm kept) ∧
    (release (s1v (fs 0 0 0 0) tm kept) 0 0 4).2 = false :=
  ⟨ureadyV _ _ _ _ ⟨rfl, by decide, rfl, rfl⟩ gr_room rfl, by decide +kernel⟩

/-! ### Parts of a word -/

/-- The word LDS v3, [v5] before the two lanes, and the bundles of its two parts. -/
def lw : LInstr := .ldsB32 false 3 5 0 0
def sp0 : State := { st with mem := Memory.write [] 0x110000 (bytesOf 4 lw.encode.toNat) }
def p0 : Bundle := { b0 with more := true }
def p1 : Bundle := { bd with lanes := 2 }

theorem test_partsOfAWord_witness :
    (bd.split 1 sp0 = some (p0, p1) ∧ sp0.bundleOf 0 0 = some bd ∧ runsFirst sp0 bd = bd ∧ bd.present sp0 = bd ∧ bd.left sp0 = false) ∧
    (let x : Ix := { b := p0, core := 0, slot := 0, t := tm, act := 1, word := lw.encode }
     let s : State := { st with issue := [p1] }
     s.group? x.core x.slot = some gr ∧ x.b.hits = [] ∧ x.b.op = none ∧ x.b.more = true ∧ s.issue = p1 :: [] ∧ p1.unit = x.b.unit) ∧
    (let x : Ix := { b := { p1 with op := some 5, earlier := 1 }, core := 0, slot := 0, t := tm, act := 2, word := lw.encode }
     x.b.hits = [] ∧ x.b.op = some 5 ∧ x.b.more = false) ∧
    (∃ m, loadForm lw = some m ∧ LPart lw { st with issue := [p0, p1] } p0 gr tm ∧ lanesIn (gr.activeOf p0 1) = [0] ∧
      Passes (looked lw { st with issue := [p0, p1] } p0 gr tm m) tm 0 gr.fe.sq .load m.w (offOf p0 gr m 0) (scratchBase + 65532) false m.sp) :=
  ⟨⟨by decide +kernel, rfl, by decide +kernel, by decide +kernel, by decide +kernel⟩, ⟨rfl, rfl, rfl, rfl, rfl, rfl⟩, ⟨rfl, rfl, rfl⟩,
   _, rfl, ⟨⟨rfl, by decide, rfl, rfl⟩, by decide, rfl, fun _ k _ => gr_room k, rfl, by rfl, by rfl⟩, by decide,
   ⟨rfl, rfl, nofun, rfl, fun _ => rfl, rfl⟩⟩

/-! ### Cross-lane words -/

/-- A group whose mask 1 holds both lanes. -/
def gx : Machine.Group := { gr with m := gr.m.set 1 3 }

theorem test_crossLaneWords_witness : ∃ f g1 g2, crossResult (.redFadd 0 2 1) = some (0, 2, 1, f) ∧
    CrossReady (.redFadd 0 2 1) 1 (wd gx bd) bd gx g1 tm false 3 ∧ g2 = crossed g1 bd 1 false 3 ∧ participants g1 3 ≠ 0 ∧
    underWait g2 (LInstr.redFadd 0 2 1).use (participants g1 3) = [] ∧
    fpcEnables (g2.fpcFor (g2.lane ((lanesIn (participants g1 3)).headD 0))) &&& (f (crossIn g1 g2 3 0 2 1)).2 = 0 :=
  ⟨_, _, _, rfl, ⟨⟨rfl, by decide, rfl, rfl⟩, rfl, rfl, rfl, rfl, by decide⟩, rfl, by decide, rfl, rfl⟩

theorem test_crossLaneArrival_witness : (∃ f, crossResult (.lsort 15 2 1 7) = some (15, 2, 1, f)) ∧ Issues (wd gx b0) b0 gx tm ∧
    legality tm false gx.fe.handler (.l (.lsort 15 2 1 7)) (LInstr.lsort 15 2 1 7).encode = none ∧ b0.gathered = false ∧
    (arriveCross gx b0 1).crossAt (decide ((b0.lanes &&& gx.members true) ≠ 0)) b0.unit 1 = 0 ∧ lanesIn b0.lanes = [0] ∧
    ((gx.atIssue b0).maskFor ((gx.atIssue b0).lane 0) 1).getLsbD 1 = true :=
  ⟨⟨_, rfl⟩, ⟨rfl, by decide, rfl, rfl⟩, rfl, rfl, by rfl, by rfl, by rfl⟩

def treeNode (f : Word → Word → Word × Flags) (c : CrossIn) (on : Nat → Bool) : Nat → Nat → Option Word
  | 0, j => if j < 64 ∧ j ∈ c.cs ∧ on j = true then some (c.va j) else none
  | l + 1, j => match treeNode f c on l (2 * j), treeNode f c on l (2 * j + 1) with
    | some x, some y => some (f x y).1
    | some x, none => some x
    | none, y => y

theorem test_treeIsTheFixedBinaryTree_witness (f : Word → Word → Word × Flags) (c : CrossIn) (on : Nat → Bool) :
    (∀ j, treeNode f c on 0 j = if j < 64 ∧ j ∈ c.cs ∧ on j = true then some (c.va j) else none) ∧
    (∀ l j, treeNode f c on (l + 1) j = match treeNode f c on l (2 * j), treeNode f c on l (2 * j + 1) with
      | some x, some y => some (f x y).1
      | some x, none => some x
      | none, y => y) := ⟨fun _ => rfl, fun _ _ => rfl⟩

/-! ### Control words -/

/-- A group whose token 0 counts one operation, and one that SSTEP stops after each unit too. -/
def gk : Machine.Group := { gr with fe := { gr.fe with tok := gr.fe.tok.set 0 1 } }
def gs : Machine.Group := { gk with dbgc := 1 }

theorem gk_room : ∀ k : Tok, gk.fe.room k = true := by decide

theorem test_nopAndDelay_witness : LReady .nop st bd gr tm ∧ LReady (.dly 1) st bd gr tm (1 : BitVec 5).toNat ∧
    LReady (.dly 31) st bd gr tm (31 : BitVec 5).toNat := ⟨lready _ rfl, lready _ rfl _, lready _ rfl _⟩

/-- A group of which lane 0 has waited at its branch. -/
def gwa : Machine.Group := { gr with lanes := [{ la 0 with waited := true }, la 1] }

theorem test_branches_witness :
    LReady (.bra 47 1 15 0x1FFF) st bd gr tm ∧
    (LReady (.bra 0 0 0 0x2000) (wd gwa bd) bd gwa tm ∧ gwa.spec = none ∧ gwa.fe.count 0 = 0 ∧ (gwa.lane 0).waited = true ∧ (gwa.lane 1).waited = false) ∧
    (LReady (.bra 0 0 0 0) (wd gs bd) bd gs tm ∧ gs.spec = none ∧ gs.fe.count 0 ≠ 0 ∧ gs.dbgc.getLsbD 0 = true) ∧
    (LReady (.bra 0 0 0 0) { (wd gk bd) with ctxs := [{ cx with ctxc := 6 }] } bd gk tm ∧
      (({ (wd gk bd) with ctxs := [{ cx with ctxc := 6 }] } : State).ctx 0).ctxc.getLsbD 3 = false) :=
  ⟨lready _ rfl, ⟨⟨⟨rfl, by decide, rfl, rfl⟩, bd_whole, by decide, rfl, fun k _ => gr_room k, by rfl, by rfl⟩, rfl, rfl, rfl, rfl⟩,
   ⟨⟨⟨rfl, by decide, rfl, rfl⟩, bd_whole, by decide, rfl, fun k _ => gk_room k, by rfl, by rfl⟩, rfl, by decide, rfl⟩,
   ⟨⟨⟨rfl, by decide, rfl, rfl⟩, bd_whole, by decide, rfl, fun k _ => gk_room k, by rfl, by rfl⟩, rfl⟩⟩

theorem test_branchesSpeculate_witness : LReady (.bra 1 0 0 0) (wd gk bd) bd gk tm ∧ gk.spec = none ∧ gk.fe.count 0 ≠ 0 ∧
    ((wd gk bd).ctx 0).ctxc.getLsbD 3 = true ∧ gk.dbgc.getLsbD 0 = false :=
  ⟨⟨⟨rfl, by decide, rfl, rfl⟩, bd_whole, by decide, rfl, fun k _ => gk_room k, by rfl, by rfl⟩, rfl, by decide, rfl, rfl⟩

/-- A group of which the cycle's other bundle has written mask 15. -/
def gcy : Machine.Group := { gr with cyc := [{ m := 15, lanes := 2, through := 2, rjm := true, old := 3 }] }

theorem test_rejoinMaskWrites_witness : LReady (.rjm 0) st bd gr tm ∧ LReady (.rjadd 15) st bd gr tm ∧
    LReady (.rjm 15) (wd gcy b0) b0 gcy tm ∧ (gcy.cyc.find? (fun w => w.m = 15)).isSome = true :=
  ⟨lready _ rfl, lready _ rfl, ⟨⟨rfl, by decide, rfl, rfl⟩, ⟨rfl, rfl, rfl, rfl, rfl⟩, by decide, rfl, fun k _ => gr_room k, by rfl, by rfl⟩, rfl⟩

theorem test_controlWords_witness : LReady .yield st bd gr tm ∧ LReady .exit st bd gr tm ∧ LReady (.join 15) st bd gr tm ∧
    LReady (.exits 0 16) st bd gr tm ∧ LReady (.exits 63 0) st bd gr tm ∧ LReady (.regroup 47 16) st bd gr tm :=
  ⟨lready _ rfl, lready _ rfl, lready _ rfl, lready _ rfl, lready _ rfl, lready _ rfl⟩

/-- Both lanes at a JOIN on mask 1 that its requirement names, and lane 0 alone. -/
def gjn (k : Nat) : Machine.Group :=
  { gr with q := gr.q.set 1 3, lanes := mapLanes (fun i l => if i < k then { l with park := .join, gather := .join 1, next := 0x10004 } else l) 0 gr.lanes }

theorem test_joinRelease_witness : ((gjn 2).tryJoin false 1).2 = 3 ∧ ((gjn 1).tryJoin false 1).2 = 0 ∧ (1 : MReg).toNat < gr.q.length :=
  ⟨by rfl, by rfl, by decide⟩

theorem test_waitOnTokens_witness : LReady (.waitk 14 0) st bd gr tm ∧ gr.fe.count 14 ≤ (0 : BitVec 4).toNat ∧
    LReady (.waitk 0 0) (wd gk bd) bd gk tm ∧ (0 : BitVec 4).toNat < gk.fe.count 0 ∧ gk.fe.count 0 ≤ (1 : BitVec 4).toNat :=
  ⟨lready _ rfl, by decide, ⟨⟨rfl, by decide, rfl, rfl⟩, bd_whole, by decide, rfl, fun k _ => gk_room k, by rfl, by rfl⟩, by decide, by decide⟩

/-- Two words behind the bundle's place. -/
def sw (w1 w2 : Nat) : State := { st with mem := Memory.write [] 0x110004 (bytesOf 4 w1 ++ bytesOf 4 w2) }

theorem test_guardWord_witness :
    (Issues (sw 0x0408000A 0) bd gr tm ∧ legality tm false false (.l (.guard 47 1)) (LInstr.encode (.guard 47 1)) = none ∧
      fetch (sw 0x0408000A 0) 0 (bd.pos + 4) = .word 0x0408000A ∧ isGuardWord 0x0408000A = false ∧ isPfxWord 0x0408000A = false ∧ isLset 0x0408000A = true) ∧
    (fetch (sw 0x96000030 0x0408000A) 0 (bd.pos + 4) = .word 0x96000030 ∧ isGuardWord 0x96000030 = false ∧ isPfxWord 0x96000030 = true ∧
      fetch (sw 0x96000030 0x0408000A) 0 (bd.pos + 8) = .word 0x0408000A) :=
  ⟨⟨⟨rfl, by decide, rfl, rfl⟩, rfl, by decide +kernel, by decide, by decide, by decide⟩, by decide +kernel, by decide, by decide, by decide +kernel⟩

theorem test_prefixWord_witness : (sw 0x0408000A 0).bundle? = some bd ∧ (sw 0x0408000A 0).teamOf 0 0 = some tm ∧
    fetch (sw 0x0408000A 0) 0 (bd.pos + 4) = .word 0x0408000A ∧ pfxAdmits 0x0408000A = true := ⟨rfl, rfl, by decide +kernel, by decide⟩

theorem test_softwareTraps_witness : LReady .bkpt st bd gr tm ∧ LReady (.trap 0xFFFF) st bd gr tm := ⟨lready _ rfl, lready _ rfl⟩

/-! ### Scalar words -/

theorem test_scalarWords_witness : (∃ f, scalarResult none (.smulh 0 63 1) = some (0, f) ∧ UReady (.smulh 0 63 1) su (xg (.smulh 0 63 1)) s1g) ∧
    (∃ f, scalarResult none (.scmp 9 63 0 0) = some (63, f) ∧ UReady (.scmp 9 63 0 0) sl (xl (.scmp 9 63 0 0)) s1l) :=
  ⟨⟨_, rfl, uready _ rfl⟩, ⟨_, rfl, lready_lantern _ rfl⟩⟩

theorem test_scalarTransfers_witness : UReady (.sbr 0 0 0x4000) su (xg (.sbr 0 0 0x4000)) s1g ∧ UReady (.sbr 5 63 1) sl (xl (.sbr 5 63 1)) s1l ∧
    UReady (.jmp 0) su (xg (.jmp 0)) s1g ∧ UReady (.call 0x1FFFFFF) su (xg (.call 0x1FFFFFF)) s1g ∧
    (UReady (.ret 63) su (xg (.ret 63)) s1g ∧ (∃ f, s1g.front? 0 0 = some f ∧ f.cdepth = 0) ∧ ∀ g, s1g.group? 0 0 = some g → fpcChk g.fpc = false) :=
  ⟨uready _ rfl, lready_lantern _ rfl, uready _ rfl, uready _ rfl, uready _ rfl, ⟨_, rfl, rfl⟩, fun g h => by cases h; rfl⟩

theorem test_callLinks_witness : (xg (.call 0)).lan = false ∧ (xg (.call 0)).slot < 128 ∧ (s1g.group? 0 0).isSome = true :=
  ⟨rfl, by decide, rfl⟩

theorem test_laneAndGroupMoves_witness : (∃ g, s1g.group? 0 0 = some g) ∧ UReady (.vbcast 15 0 1) su (xg (.vbcast 15 0 1)) s1g ∧
    UReady (.vread 15 63 1) su (xg (.vread 15 63 1)) s1g ∧ UReady (.mread 63 15) su (xg (.mread 63 15)) s1g ∧
    UReady (.mwrite 63 0) su (xg (.mwrite 63 0)) s1g ∧ UReady (.pread 63 47) su (xg (.pread 63 47)) s1g ∧
    UReady (.kread 63 14) su (xg (.kread 63 14)) s1g ∧ tm.det = false :=
  ⟨⟨_, rfl⟩, uready _ rfl, uready _ rfl, uready _ rfl, uready _ rfl, uready _ rfl, uready _ rfl, rfl⟩

theorem test_lanternMoves_witness : UReady (.vbcast 15 0 1) sl (xl (.vbcast 15 0 1)) s1l ∧ UReady (.vread 15 63 1) sl (xl (.vread 15 63 1)) s1l ∧
    UReady (.mread 63 15) sl (xl (.mread 63 15)) s1l ∧ UReady (.mwrite 63 0) sl (xl (.mwrite 63 0)) s1l ∧
    UReady (.pread 63 47) sl (xl (.pread 63 47)) s1l ∧ UReady (.kread 63 14) sl (xl (.kread 63 14)) s1l ∧ (s1l.lantern? 0 128).isSome = true :=
  ⟨lready_lantern _ rfl, lready_lantern _ rfl, lready_lantern _ rfl, lready_lantern _ rfl, lready_lantern _ rfl, lready_lantern _ rfl, rfl⟩

end Sys2Proof.Tests
end

section
/-! How a step comes to the word that it runs, and what a fetched word does (R9, R51, R61). -/

namespace Sys2Proof.Machine

/-! ### The turns of a step -/

/-- With no turn asked for, the bundle that stands first goes on. -/
theorem step_of_issue {s : State} {b : Bundle} {rest : List Bundle} (ha : s.agenda = []) (hi : s.issue = b :: rest) :
    step s = issueWord b none s := by
  simp only [step, ha, hi]

theorem step_of_event {s : State} {i : Instr} {rest : List Turn} (ha : s.agenda = .event i :: rest) (hi : i.code = none) :
    step s = exec i { s with agenda := rest } := by
  simp [step, ha, takeTurn, hi]

theorem step_of_word {s : State} {b : Bundle} {core slot : Nat} {rest : List Turn} (ha : s.agenda = .word core slot :: rest)
    (hb : s.bundleOf core slot = some b) : step s = issueWord b none { s with agenda := rest } := by
  have hb' : State.bundleOf { s with agenda := rest } core slot = some b := hb
  simp only [step, ha, takeTurn, hb']

/-! ### The bundle that issues -/

/-- Lanes without a poison report take none (R217). -/
theorem takeReports_none {s : State} {b : Bundle} (h : ∀ g, s.group? b.core b.slot = some g → reportHits g b.lanes = []) :
    takeReports s b = (s, b) := by
  unfold takeReports
  cases hg : s.group? b.core b.slot with
  | none => rfl
  | some g => simp [h g hg]

/-- A bundle issues its next word as it stands: no other goes before it, its lanes are all at their unit, and none of them has a
poison report. -/
structure Bundle.IssuesWord (b : Bundle) (s : State) : Prop where
  first   : runsFirst s b = b
  word    : b.duty = .word
  present : b.present s = b
  stays   : b.left s = false
  reports : ∀ g, s.group? b.core b.slot = some g → reportHits g b.lanes = []

theorem issueWord_of_issuesWord {s : State} {b : Bundle} (h : b.IssuesWord s) :
    issueWord b none s = runWord b { s with issue := b :: s.issue.erase b } := by
  have hp : b.present s = b := h.present
  have hr : takeReports { s with issue := s.issue.erase b } b = ({ s with issue := s.issue.erase b }, b) :=
    takeReports_none h.reports
  have hl : b.left { s with issue := s.issue.erase b } = false := h.stays
  simp [issueWord, h.first, h.word, hp, hr, hl]

/-- Lanes that have waited for an access perform it. -/
theorem issueWord_of_wake {s : State} {b : Bundle} (hf : runsFirst s b = b) (hd : b.duty ≠ .word) :
    issueWord b none s = .next (runWake b none { s with issue := s.issue.erase b }) := by
  simp [issueWord, hf, hd]

/-- The bundle that stands first is put back where it stood. -/
theorem State.issue_head_restored {s : State} {b : Bundle} {rest : List Bundle} (hi : s.issue = b :: rest) :
    { s with issue := b :: s.issue.erase b } = s := by
  rw [hi, List.erase_cons_head, ← hi]

/-! ### The word that is fetched -/

theorem Bundle.ctx_of_team {s : State} {b : Bundle} {t : Team} (h : s.teamOf b.core b.slot = some t) : b.ctx s = some t.ctx := by
  simp [Bundle.ctx, h]

theorem decodeWord_ok {w : Word} {i : Instr} (h : decodeWord w = .ok i) : ∃ c, decodeCode w = .ok c ∧ c.instr = i := by
  unfold decodeWord at h
  split at h
  case h_1 c hc => exact ⟨c, hc, Except.ok.inj h⟩
  case h_2 => cases h

theorem decodeWord_error {w : Word} {r : Reject} (h : decodeWord w = .error r) : decodeCode w = .error r := by
  unfold decodeWord at h
  split at h
  case h_1 => cases h
  case h_2 r' hr => rw [hr, Except.error.inj h]

section
variable {s : State} {b : Bundle} {c : Nat} (hc : b.ctx s = some c)
include hc

theorem touchFetch_of_ctx : touchFetch s b = s.touch c b.pos.toNat := by simp only [touchFetch, hc]

/-- A word that decodes runs as its instruction. -/
theorem runWord_of_decoded {w : Word} {i : Instr} (hf : fetch s c b.pos = .word w) (hd : decodeWord w = .ok i) :
    runWord b s = exec i (s.touch c b.pos.toNat) := by
  obtain ⟨k, hk, rfl⟩ := decodeWord_ok hd
  have hw : fetchWord s b = .instr k := by simp only [fetchWord, hc, hf, hk]
  simp only [runWord, hw, touchFetch_of_ctx hc, Code.run_eq]

/-- An illegal word traps. -/
theorem runWord_of_illegal {w : Word} {k : Nat} (hf : fetch s c b.pos = .word w) (hd : decodeWord w = .error (.illegal k)) :
    runWord b s = illegalWord w k (s.touch c b.pos.toNat) := by
  have hw : fetchWord s b = .illegal w k := by simp only [fetchWord, hc, hf, decodeWord_error hd]
  simp only [runWord, hw, touchFetch_of_ctx hc]

/-- A fetch that fails traps. -/
theorem runWord_of_trap {v k : Nat} (hf : fetch s c b.pos = .trap v k) :
    runWord b s = .next (fetchFault b v k (s.touch c b.pos.toNat)) := by
  have hw : fetchWord s b = .trap v k := by simp only [fetchWord, hc, hf]
  simp only [runWord, hw, touchFetch_of_ctx hc]

/-- What a bundle's word does, by what the fetch finds (R9, R51, R61). -/
theorem runWord_follows_fetch :
    (∀ w i, fetch s c b.pos = .word w → decodeWord w = .ok i → runWord b s = exec i (s.touch c b.pos.toNat)) ∧
    (∀ w k, fetch s c b.pos = .word w → decodeWord w = .error (.illegal k) → runWord b s = illegalWord w k (s.touch c b.pos.toNat)) ∧
    (∀ v k, fetch s c b.pos = .trap v k → runWord b s = .next (fetchFault b v k (s.touch c b.pos.toNat))) :=
  ⟨fun _ _ => runWord_of_decoded hc, fun _ _ => runWord_of_illegal hc, fun _ _ => runWord_of_trap hc⟩

end

end Sys2Proof.Machine

open Sys2Proof Sys2Proof.Machine

/-- Settles O16: each kind of turn comes to `runWord` or `runWake`, and `runWord` follows what the fetch finds. -/
theorem stepRunsTheDecodedWord : Obligations.StepRunsTheDecodedWord := by
  unfold Obligations.StepRunsTheDecodedWord
  intro s
  refine ⟨?first, ?wake, fun i rest ha hi => step_of_event ha hi, ?turn⟩
  case first =>
    intro b rest t ha hi ht hfirst hduty hpresent hleft hreports
    have hs : step s = runWord b s := by
      rw [step_of_issue ha hi, issueWord_of_issuesWord ⟨hfirst, hduty, hpresent, hleft, hreports⟩, State.issue_head_restored hi]
    rw [hs]
    exact runWord_follows_fetch (Bundle.ctx_of_team ht)
  case wake =>
    intro b rest ha hi hfirst hduty
    rw [step_of_issue ha hi, issueWord_of_wake hfirst hduty, hi, List.erase_cons_head]
  case turn =>
    intro core slot rest b t ha hb ht s0 s1 hfirst hduty hpresent hleft hreports
    have hs : step s = runWord b s1 :=
      (step_of_word ha hb).trans (issueWord_of_issuesWord (s := s0) ⟨hfirst, hduty, hpresent, hleft, hreports⟩)
    rw [hs]
    exact runWord_follows_fetch (Bundle.ctx_of_team (s := s1) ht)

end

section
/-! The window, the watchdog and the clamps (R268, R315, R359, R365, R370). -/

namespace Sys2Proof.Machine

/-! ### Firmware's accesses (R365) -/

theorem lineParts_zero (fuel loc off : Nat) : lineParts fuel loc 0 off = [] := by
  cases fuel <;> simp [lineParts]

/-- A range inside one line is one part (R137). -/
theorem lineParts_within_line {loc n : Nat} (fuel off : Nat) (hn : n ≠ 0) (h : loc % 64 + n ≤ 64) :
    lineParts (fuel + 1) loc n off = [(loc, n, off)] := by
  have hk : min n (64 - loc % 64) = n := by omega
  simp only [lineParts, hn, if_false, hk, Nat.sub_self, lineParts_zero]

theorem fwOpen_ne_zero {s : State} {pa n : Nat} (h : fwOpen s pa n = true) : n ≠ 0 := by
  rintro rfl
  simp [fwOpen] at h

theorem firmwareRead_closed {s : State} {pa n : Nat} (h : fwOpen s pa n = false) : firmwareRead s pa n = (List.replicate n 0, s) := by
  simp [firmwareRead, h]

theorem firmwareWrite_closed {s : State} {pa : Nat} {bs : List Byte} (h : fwOpen s pa bs.length = false) : firmwareWrite s pa bs = s := by
  simp [firmwareWrite, h]

theorem firmwareRead_within_line {s : State} {pa n : Nat} (ho : fwOpen s pa n = true) (h : pa % 64 + n ≤ 64) :
    (firmwareRead s pa n).1 = (upFrom pa n).map (fun a => if s.poisoned (unitOf a) then 0 else s.byte a) := by
  simp [firmwareRead, ho, lineParts_within_line _ 0 (fwOpen_ne_zero ho) h, outsideBytes]

/-- A write of a page that is not held, and that nobody waits for, is performed at once (R269). -/
theorem performWait_remote_free {s : State} {loc : Nat} (bs : List Byte) (used : Option (Nat × List Addr)) (h : held s.care loc = false) :
    performWait s (.remote loc bs none [] used) = s.put loc bs := by
  simp [performWait, h, partDone, State.poisonAt]

theorem firmwareWrite_within_line {s : State} {pa : Nat} {bs : List Byte} (ho : fwOpen s pa bs.length = true)
    (h : pa % 64 + bs.length ≤ 64) (hh : held s.care pa = false) : firmwareWrite s pa bs = s.put pa bs := by
  simp [firmwareWrite, ho, lineParts_within_line _ 0 (fwOpen_ne_zero ho) h, performWait_remote_free bs none hh]

/-! ### The watchdog (R365) -/

theorem controllerRun_cycles (s : State) (dt : Nat) : controllerRun s { cycles := dt } = watchdogPass s dt := by
  simp [controllerRun]

/-- A controller that is not reset runs its firmware, and then its cycles pass. -/
theorem controllerRun_acts {s : State} (r : FirmwareRun) (hp : s.plat.powered = true) (hs : 2 ≤ s.plat.stage.toNat)
    (hr : s.plat.restarting = false) : controllerRun s r = watchdogPass (r.acts.foldl firmwareAct s) r.cycles := by
  simp [controllerRun, hp, hs, hr]

theorem watchdogPass_running {s : State} {dt : Nat} (hs : 2 ≤ s.plat.stage.toNat) (h : s.plat.wdog + dt < 2 ^ 24) :
    watchdogPass s dt = { s with plat := { s.plat with wdog := s.plat.wdog + dt } } := by
  simp only [watchdogPass, Nat.not_lt.mpr hs, Nat.not_le.mpr h, if_false]

theorem watchdogPass_expired {s : State} {dt : Nat} (hs : 2 ≤ s.plat.stage.toNat) (h : 2 ^ 24 ≤ s.plat.wdog + dt) :
    watchdogPass s dt = { s with plat := { s.plat with
      wdog := 0, restarting := true
      fail := if verifyCode s.plat = 0 then s.plat.fail else BitVec.ofNat 8 (verifyCode s.plat) } } := by
  simp only [watchdogPass, Nat.not_lt.mpr hs, h, if_false, if_true, ne_eq, ite_not]

/-! ### Registers (R8, R20, R268, R359) -/

theorem writeDbgc_of_group {s : State} {core slot : Nat} {g : Group} (v : Word) (h : s.group? core slot = some g) :
    writeDbgc s core slot v = s.setGroup { g with dbgc := v &&& 3 } := by
  simp only [writeDbgc, h]

/-- TSWS holds both counts whole. -/
theorem tsws_toNat (c : Care) : (tsws c).toNat = c.swapsDone.toNat + c.retired.toNat * 2 ^ 32 := by
  have h1 := c.swapsDone.isLt
  have h2 := c.retired.isLt
  rw [tsws, BitVec.toNat_ofNat, Nat.mod_eq_of_lt (by omega)]

theorem State.ctx_setCtx {s : State} {c : Nat} (x : Context) (h : c < s.ctxs.length) : (s.setCtx c x).ctx c = x := by
  simp [State.ctx, h]

/-- A register below 0x1_0000 that needs no step of its own. -/
theorem writeReg_device {off : Nat} (s : State) (v : DWord) (h : off < 0x10000) (hr : off ∉ [0x08, 0x18, 0x120]) :
    writeReg s off v = writeDevice s off v := by
  simp only [List.mem_cons, List.not_mem_nil, or_false, not_or] at hr
  obtain ⟨h1, h2, h3⟩ := hr
  have h4 : ¬ 0x10000 ≤ off := by omega
  simp [writeReg, writePlain, h, h1, h2, h3, h4]

/-- A register of a context, PTROOT aside. -/
theorem writeReg_context {c r : Nat} (s : State) (v : DWord) (hc : c < 64) (hr : r < 0x1000) (hp : r ≠ 0x20) :
    writeReg s (0x10000 + 0x1000 * c + r) v = writeContext s c r v := by
  have hmod : (0x10000 + 0x1000 * c + r) % 0x1000 = r := by omega
  have hdiv : (0x10000 + 0x1000 * c + r) / 0x1000 - 0x10 = c := by omega
  have hge : ¬ 0x10000 + 0x1000 * c + r < 0x10000 := by omega
  have hlt : 0x10000 + 0x1000 * c + r < 0x50000 := by omega
  have hne : ∀ k < 0x10000, 0x10000 + 0x1000 * c + r ≠ k := by omega
  simp only [writeReg, hne 0x08 (by decide), hne 0x18 (by decide), hne 0x120 (by decide), if_false, hmod, hp, decide_false,
    Bool.and_false, Bool.false_eq_true, writePlain, hge, hlt, if_true, hdiv]

end Sys2Proof.Machine

open Sys2Proof Sys2Proof.Machine

namespace Sys2Proof.Claims

/-- The checks of the image that the watchdog reruns are those of R363. -/
theorem verifyCode_eq_imageFailure (p : Plat) : verifyCode p = imageFailure p := by
  simp only [verifyCode, imageFailure, Bool.or_eq_true, decide_eq_true_eq, or_assoc, Bool.not_eq_true']
  rfl

/-! ### The window's events, one by one -/

theorem watchdogExpiry_counts_and_expires {s : State} {dt : Nat} (hs : 2 ≤ s.plat.stage.toNat) :
    (s.plat.wdog + dt < 2 ^ 24 →
      exec (.watchdogExpiry { cycles := dt }) s = .next { s with plat := { s.plat with wdog := s.plat.wdog + dt } }) ∧
    (2 ^ 24 ≤ s.plat.wdog + dt → exec (.watchdogExpiry { cycles := dt }) s = .next { s with plat := { s.plat with
      wdog := 0, restarting := true
      fail := if imageFailure s.plat = 0 then s.plat.fail else BitVec.ofNat 8 (imageFailure s.plat) } }) := by
  rw [exec_watchdogExpiry, execWatchdogExpiry, controllerRun_cycles]
  refine ⟨fun h => ?_, fun h => ?_⟩
  · rw [watchdogPass_running hs h]
  · rw [watchdogPass_expired hs h, verifyCode_eq_imageFailure]

theorem watchdogExpiry_runs_firmware {s : State} (r : FirmwareRun) (hp : s.plat.powered = true) (hs : 2 ≤ s.plat.stage.toNat)
    (hr : s.plat.restarting = false) :
    exec (.watchdogExpiry r) s = exec (.watchdogExpiry { cycles := r.cycles }) (r.acts.foldl firmwareAct s) := by
  rw [exec_watchdogExpiry, exec_watchdogExpiry, execWatchdogExpiry, execWatchdogExpiry, controllerRun_acts r hp hs hr,
    controllerRun_cycles]

theorem dbgcWrite_sets_bits {s : State} {core slot : Nat} {g : Machine.Group} (v : Word) (h : s.group? core slot = some g) :
    exec (.dbgcWrite core slot v) s = .next (s.setGroup { g with dbgc := v &&& 3 }) := by
  rw [exec_dbgcWrite, execDbgcWrite, writeDbgc_of_group v h]

theorem tswsRead_answers_and_clears (s : State) (q : BitVec 16) :
    ∃ u, exec (.tswsRead q) s = .next u ∧ u.care.swapsDone = 0 ∧ u.care.retired = s.care.retired ∧
      u.outbox = s.outbox ++ [{ type := 0x84, ctx := 0, seqNo := q, arg := 0
                                payload := bytesOf 8 (s.care.swapsDone.toNat + s.care.retired.toNat * 2 ^ 32) }] := by
  refine ⟨_, rfl, rfl, rfl, ?_⟩
  rw [← tsws_toNat]
  rfl

theorem mgmtRegisterWrite_of_register {s : State} {off : BitVec 41} (v : DWord) (ha : off.toNat % 8 = 0)
    (hm : mgmtHolds s off.toNat = true) : exec (.mgmtRegisterWrite off v) s = .next (writeReg s off.toNat v) := by
  simp [exec_mgmtRegisterWrite, execMgmtRegisterWrite, ha, hm]

theorem mgmtRegisterWrite_of_none {s : State} {off : BitVec 41} (v : DWord) (h : off.toNat % 8 ≠ 0 ∨ mgmtHolds s off.toNat = false) :
    exec (.mgmtRegisterWrite off v) s = .next (s.event 10 (detail := 2 ^ 63 + off.toNat)) := by
  have hb : (decide (off.toNat % 8 = 0) && mgmtHolds s off.toNat) = false := by
    rcases h with h | h <;> simp [h]
  simp only [exec_mgmtRegisterWrite, execMgmtRegisterWrite, hb, Bool.false_eq_true, if_false]

theorem windowEvents_hold : WindowEvents := by
  intro s
  exact ⟨fun _ => rfl, fun _ hs => watchdogExpiry_counts_and_expires hs, fun _ _ => firmwareRead_closed, fun _ _ => firmwareWrite_closed,
    fun _ _ => firmwareRead_within_line, fun _ _ => firmwareWrite_within_line, watchdogExpiry_runs_firmware, rfl, rfl,
    fun _ _ v _ => dbgcWrite_sets_bits v, tswsRead_answers_and_clears s, fun _ v => mgmtRegisterWrite_of_register v,
    fun _ v => mgmtRegisterWrite_of_none v⟩

/-! ### What a write leaves in a register -/

/-- HBASE, SIDEB and CTXC of a context. -/
theorem writeReg_context_registers {s : State} {c : Nat} (v : DWord) (hl : c < s.ctxs.length) (hc : c < 64) :
    ((writeReg s (0x10000 + 0x1000 * c + 0) v).ctx c).hbase = v &&& 0xFFFFFFFFFFFFF000 ∧
    ((writeReg s (0x10000 + 0x1000 * c + 8) v).ctx c).sideb = v &&& 0xFFFFFFFFFFFFF000 ∧
    ((writeReg s (0x10000 + 0x1000 * c + 0x10) v).ctx c).ctxc = v.setWidth 32 &&& 0xF := by
  rw [writeReg_context s v hc (by decide) (by decide), writeReg_context s v hc (by decide) (by decide),
    writeReg_context s v hc (by decide) (by decide)]
  exact ⟨congrArg Context.hbase (State.ctx_setCtx _ hl), congrArg Context.sideb (State.ctx_setCtx _ hl),
    congrArg Context.ctxc (State.ctx_setCtx _ hl)⟩

theorem windowRegisters_hold : WindowRegisters := by
  intro s v
  have hd (off : Nat) (h : off < 0x10000) (hr : off ∉ [0x08, 0x18, 0x120]) := writeReg_device s v h hr
  refine ⟨fun c hl hc => writeReg_context_registers v hl hc, ?_⟩
  rw [hd 0x80 (by decide) (by decide), hd 0x88 (by decide) (by decide), hd 0 (by decide) (by decide),
    hd 0x10 (by decide) (by decide), hd 0xA0 (by decide) (by decide)]
  exact ⟨rfl, rfl, rfl, rfl, rfl⟩

end Sys2Proof.Claims

/-- Settles O60: the events and the registers of the window, each by its own lemma. -/
theorem windowEvents : Obligations.WindowEvents := by
  unfold Obligations.WindowEvents
  exact ⟨Sys2Proof.Claims.windowEvents_hold, Sys2Proof.Claims.windowRegisters_hold⟩

end

section
/-! Sets of lanes: the bit of a lane in each of the ways in which a set is built, and the lanes of a set in order. -/

namespace Sys2Proof.Machine

theorem getLsbD_laneBit (i j : Nat) : (laneBit i).getLsbD j = decide (j < 64 ∧ j = i) := by
  unfold laneBit
  rw [BitVec.getLsbD_ofNat, Nat.testBit_two_pow]
  by_cases hj : j < 64 <;> simp [hj, eq_comm]

/-- A set built from lane numbers has each of them below 64. -/
theorem getLsbD_laneSet (ls : List Nat) (j : Nat) : (laneSet ls).getLsbD j = decide (j < 64 ∧ j ∈ ls) := by
  have h (s : LaneSet) : (ls.foldl (fun s i => s ||| laneBit i) s).getLsbD j = (s.getLsbD j || decide (j < 64 ∧ j ∈ ls)) := by
    induction ls generalizing s with
    | nil => simp
    | cons i ls ih =>
      rw [List.foldl_cons, ih, BitVec.getLsbD_or, getLsbD_laneBit, Bool.or_assoc]
      by_cases hj : j < 64 <;> simp [hj]
  simpa [laneSet] using h 0

theorem mem_lanesIn_laneSet (ls : List Nat) (j : Nat) : j ∈ lanesIn (laneSet ls) ↔ j < 64 ∧ j ∈ ls := by
  simp only [lanesIn_mem, getLsbD_laneSet, decide_eq_true_eq]
  exact ⟨And.right, fun h => ⟨h.1, h⟩⟩

theorem getLsbD_lanesWhere (p : Nat → Lane → Bool) (n : Nat) (ls : List Lane) (j : Nat) :
    (lanesWhere p n ls).getLsbD j = (decide (j < 64 ∧ n ≤ j) && ((ls[j - n]?).map (p j)).getD false) := by
  induction ls generalizing n with
  | nil => simp [lanesWhere]
  | cons l ls ih =>
    have hbit : (if p n l then laneBit n else 0).getLsbD j = (p n l && decide (j < 64 ∧ j = n)) := by
      split <;> simp_all [getLsbD_laneBit]
    have hcons : lanesWhere p n (l :: ls) = (if p n l then laneBit n else 0) ||| lanesWhere p (n + 1) ls := rfl
    rw [hcons, BitVec.getLsbD_or, hbit, ih]
    rcases Nat.lt_trichotomy j n with h | rfl | h
    · have h1 : ¬ n ≤ j := by omega
      have h2 : ¬ n + 1 ≤ j := by omega
      have h3 : ¬ j = n := by omega
      simp [h1, h2, h3]
    · simp [Bool.and_comm]
    · obtain ⟨k, rfl⟩ : ∃ k, j = n + 1 + k := ⟨j - (n + 1), by omega⟩
      have h1 : n + 1 + k - n = k + 1 := by omega
      have h2 : n + 1 + k - (n + 1) = k := by omega
      have h3 : ¬ n + 1 + k = n := by omega
      have h4 : n ≤ n + 1 + k := by omega
      simp [h1, h2, h3, h4]

/-- The lanes of a group that satisfy a property. -/
theorem Group.getLsbD_where (g : Group) (p : Nat → Lane → Bool) (j : Nat) :
    (g.where p).getLsbD j = (decide (j < 64 ∧ j < g.lanes.length) && p j (g.lane j)) := by
  unfold Group.where Group.lane
  rw [getLsbD_lanesWhere, List.getD_eq_getElem?_getD]
  by_cases h : j < g.lanes.length
  · simp [h]
  · simp [h, List.getElem?_eq_none (Nat.le_of_not_lt h)]

/-- Two sets with the same lanes below 64 are one. -/
theorem LaneSet.ext {a b : LaneSet} (h : ∀ j < 64, a.getLsbD j = b.getLsbD j) : a = b := BitVec.eq_of_getLsbD_eq h

theorem Group.where_congr {g h : Group} {p q : Nat → Lane → Bool} (hl : h.lanes.length = g.lanes.length)
    (hp : ∀ j, j < 64 → j < g.lanes.length → q j (h.lane j) = p j (g.lane j)) : h.where q = g.where p := by
  apply LaneSet.ext
  intro j hj
  rw [Group.getLsbD_where, Group.getLsbD_where, hl]
  by_cases hk : j < g.lanes.length
  · rw [hp j hj hk]
  · simp [hk]

theorem getLsbD_liveLanes (g : Group) (j : Nat) : g.liveLanes.getLsbD j = (decide (j < 64 ∧ j < g.lanes.length) && (g.lane j).live) :=
  Group.getLsbD_where g _ j

/-- A lane that a group does not have is not live. -/
theorem Group.lane_of_ge (g : Group) {j : Nat} (h : g.lanes.length ≤ j) : g.lane j = { live := false } := by
  simp [Group.lane, List.getD_eq_getElem?_getD, List.getElem?_eq_none h]

theorem Group.lane_mem (g : Group) {j : Nat} (h : j < g.lanes.length) : g.lane j ∈ g.lanes := by
  simp [Group.lane, List.getD_eq_getElem?_getD, List.getElem?_eq_getElem h]

theorem Group.exists_lane (g : Group) {l : Lane} (h : l ∈ g.lanes) : ∃ j < g.lanes.length, g.lane j = l := by
  obtain ⟨j, hj, rfl⟩ := List.getElem_of_mem h
  exact ⟨j, hj, by simp [Group.lane, List.getD_eq_getElem?_getD, List.getElem?_eq_getElem hj]⟩

/-! ### The lanes of a set in order -/

theorem upFrom_sorted (n k : Nat) : (upFrom n k).Pairwise (· < ·) := by
  induction k generalizing n with
  | zero => simp [upFrom]
  | succ k ih =>
    refine List.pairwise_cons.2 ⟨fun i hi => ?_, ih (n + 1)⟩
    have := (upFrom_mem (n + 1) k i).1 hi
    omega

theorem lanesIn_sorted (set : LaneSet) : (lanesIn set).Pairwise (· < ·) := (upFrom_sorted 0 64).filter _

theorem lanesIn_eq_nil {set : LaneSet} : lanesIn set = [] ↔ set = 0 := by
  constructor
  · intro h
    apply LaneSet.ext
    intro j _
    rw [getLsbD_lanesIn, h]
    simp
  · rintro rfl
    simp [lanesIn]

theorem lanesIn_ne_nil {set : LaneSet} (h : set ≠ 0) : lanesIn set ≠ [] := fun e => h (lanesIn_eq_nil.1 e)

theorem lanesIn_laneBit {j : Nat} (hj : j < 64) : lanesIn (laneBit j) = [j] := by
  refine (List.Perm.eq_of_pairwise (le := (· < ·)) (fun _ _ _ _ h1 h2 => absurd h1 (Nat.lt_asymm h2)) (lanesIn_sorted _) (List.pairwise_singleton _ _)
    ((List.perm_ext_iff_of_nodup (lanesIn_nodup _) (List.nodup_singleton j)).2 fun k => ?_))
  simp only [lanesIn_mem, laneBit_get hj, List.mem_singleton, decide_eq_true_eq]
  constructor
  · exact fun h => h.2
  · rintro rfl; exact ⟨hj, rfl⟩

/-- The lowest lanes of a set are below its others. -/
theorem lowestLanes_below {n : Nat} {set : LaneSet} {i j : Nat} (hi : (lowestLanes n set).getLsbD i = true) (hj : set.getLsbD j = true)
    (hn : (lowestLanes n set).getLsbD j = false) : i < j := by
  unfold lowestLanes at hi hn
  simp only [getLsbD_laneSet, decide_eq_true_eq, decide_eq_false_iff_not, not_and] at hi hn
  have hj64 : j < 64 := BitVec.lt_of_getLsbD hj
  have hjm : j ∈ (lanesIn set).take n ++ (lanesIn set).drop n := by
    rw [List.take_append_drop]
    exact (lanesIn_mem set j).2 ⟨hj64, hj⟩
  have hjd : j ∈ (lanesIn set).drop n := (List.mem_append.1 hjm).resolve_left (hn hj64)
  have hp := lanesIn_sorted set
  rw [← List.take_append_drop n (lanesIn set), List.pairwise_append] at hp
  exact hp.2.2 i hi.2 j hjd

theorem lowestLanes_subset {n : Nat} {set : LaneSet} {i : Nat} (hi : (lowestLanes n set).getLsbD i = true) : set.getLsbD i = true := by
  unfold lowestLanes at hi
  simp only [getLsbD_laneSet, decide_eq_true_eq] at hi
  exact ((lanesIn_mem set i).1 (List.mem_of_mem_take hi.2)).2

end Sys2Proof.Machine
end

section
/-! What translations, fetches and caches read of a state and leave of it (R326-R332). -/

namespace Sys2Proof.Machine

/-! ### What a translation and a fetch read -/

/-- Two states hold the same memory, care and contexts. -/
structure SameView (s u : State) : Prop where
  moduleM : u.moduleM = s.moduleM
  care    : u.care = s.care
  mem     : u.mem = s.mem
  poison  : u.poison = s.poison
  ctxs    : u.ctxs = s.ctxs

section
variable {s u : State} (h : SameView s u)
include h

theorem SameView.byte (a : Nat) : u.byte a = s.byte a := by unfold State.byte; rw [h.care, h.mem]

theorem SameView.bytes (a n : Nat) : u.bytes a n = s.bytes a n := by
  induction n generalizing a with
  | zero => rfl
  | succ n ih => rw [State.bytes, State.bytes, h.byte, ih]

theorem SameView.poisoned (a : Nat) : u.poisoned a = s.poisoned a := by unfold State.poisoned; rw [h.care, h.poison]

theorem SameView.ctx (c : Nat) : u.ctx c = s.ctx c := by unfold State.ctx; rw [h.ctxs]

theorem SameView.installed (a : Nat) : installed u a = installed s a := by unfold Machine.installed; rw [h.moduleM]

theorem SameView.pteAt (a : Nat) : pteAt u a = pteAt s a := by unfold Machine.pteAt; rw [h.bytes]

theorem SameView.badLeaf (level : Nat) (e : DWord) (va size : Nat) : badLeaf u level e va size = badLeaf s level e va size := by
  unfold Machine.badLeaf
  rw [funext h.installed]

theorem SameView.badPointer (level : Nat) (e : DWord) (align : Nat) : badPointer u level e align = badPointer s level e align := by
  unfold Machine.badPointer
  rw [funext h.installed]

theorem SameView.walkFrom (va fuel level table : Nat) : walkFrom u va fuel level table = walkFrom s va fuel level table := by
  induction fuel generalizing level table with
  | zero => rfl
  | succ fuel ih => simp only [Machine.walkFrom, h.pteAt, h.badLeaf, h.badPointer, h.poisoned, ih]

theorem SameView.leafFor (c va : Nat) : leafFor u c va = leafFor s c va := by
  simp only [Machine.leafFor, walk, h.ctx, h.walkFrom]

theorem SameView.xlate (c va : Nat) : xlate u c va = xlate s c va := by
  simp only [Machine.xlate, lapOf, h.ctx, h.leafFor]

theorem SameView.fetch (c : Nat) (pc : Addr) : fetch u c pc = fetch s c pc := by
  simp only [Machine.fetch, h.xlate, h.poisoned, h.bytes]

theorem SameView.fetchWord {b : Bundle} (hc : b.ctx u = b.ctx s) : fetchWord u b = fetchWord s b := by
  simp only [Machine.fetchWord, h.fetch, hc]

end

theorem State.sameView_issue (s : State) (l : List Bundle) : SameView s { s with issue := l } := ⟨rfl, rfl, rfl, rfl, rfl⟩

/-! ### Translations that are cached -/

theorem State.countReq_eq (s : State) (a : Nat) : ∃ c, s.countReq a = { s with care := c } := by
  unfold State.countReq
  split <;> exact ⟨_, rfl⟩

theorem State.countReqs_eq (s : State) (as : List Nat) : ∃ c, as.foldl (fun s a => s.countReq a) s = { s with care := c } := by
  induction as generalizing s with
  | nil => exact ⟨s.care, rfl⟩
  | cons a as ih =>
    obtain ⟨c, hc⟩ := s.countReq_eq a
    obtain ⟨d, hd⟩ := ih (s.countReq a)
    exact ⟨d, by rw [List.foldl_cons, hd, hc]⟩

/-- A translation that is cached counts the walk's reads, or reports its malformed entry, and fills the cache. -/
theorem State.touch_eq (s : State) (c va : Nat) :
    ∃ cr xs ob, s.touch c va = { s with care := cr, ctxs := xs, outbox := ob } := by
  unfold State.touch
  dsimp only
  obtain ⟨d, hd⟩ := s.countReqs_eq (walk s c va).1
  split
  · exact ⟨_, _, _, rfl⟩
  · rw [hd]
    split <;> exact ⟨_, _, _, rfl⟩

/-- What no step of a fold changes is as it was. -/
theorem foldl_keeps {α β γ : Type} (F : α → γ) (f : α → β → α) (hf : ∀ a b, F (f a b) = F a) (bs : List β) (a : α) :
    F (bs.foldl f a) = F a := by
  induction bs generalizing a with
  | nil => rfl
  | cons b bs ih => rw [List.foldl_cons, ih, hf]

/-- A fold whose steps change nothing at the elements of its list. -/
theorem foldl_idle {α β : Type} {f : α → β → α} {bs : List β} (h : ∀ a, ∀ b ∈ bs, f a b = a) (a : α) : bs.foldl f a = a := by
  induction bs with
  | nil => rfl
  | cons b bs ih =>
    rw [List.foldl_cons, h a b (List.mem_cons_self ..), ih (fun a c hc => h a c (List.mem_cons_of_mem _ hc))]

section
variable (s : State) (c va : Nat)

@[simp] theorem State.touch_groups : (s.touch c va).groups = s.groups := by obtain ⟨_, _, _, h⟩ := s.touch_eq c va; rw [h]
@[simp] theorem State.touch_lanterns : (s.touch c va).lanterns = s.lanterns := by obtain ⟨_, _, _, h⟩ := s.touch_eq c va; rw [h]
@[simp] theorem State.touch_teams : (s.touch c va).teams = s.teams := by obtain ⟨_, _, _, h⟩ := s.touch_eq c va; rw [h]
@[simp] theorem State.touch_issue : (s.touch c va).issue = s.issue := by obtain ⟨_, _, _, h⟩ := s.touch_eq c va; rw [h]
@[simp] theorem State.touch_ids : (s.touch c va).ids = s.ids := by obtain ⟨_, _, _, h⟩ := s.touch_eq c va; rw [h]

@[simp] theorem State.touch_group? (core slot : Nat) : (s.touch c va).group? core slot = s.group? core slot := by
  simp only [State.group?, State.touch_groups]
@[simp] theorem State.touch_lantern? (core slot : Nat) : (s.touch c va).lantern? core slot = s.lantern? core slot := by
  simp only [State.lantern?, State.touch_lanterns]
@[simp] theorem State.touch_team? (id : Nat) : (s.touch c va).team? id = s.team? id := by simp only [State.team?, State.touch_teams]

end

@[simp] theorem touchFor_group? (s : State) (t : Team) (sp : Space) (off w core slot : Nat) :
    (touchFor s t sp off w).group? core slot = s.group? core slot := by
  unfold touchFor
  split
  · exact s.touch_group? ..
  · rfl

/-! ### Acquires (R147) -/

theorem State.acquire_eq (s : State) (core scope : Nat) : ∃ st, s.acquire core scope = { s with stale := st } := by
  unfold State.acquire
  split
  · exact ⟨_, rfl⟩
  · exact ⟨_, rfl⟩

end Sys2Proof.Machine
end

section
/-! Floating-point words whose flags trap (R18, R118). -/

namespace Sys2Proof.Machine

open Sys2Proof.Claims

/-- A lane's result without its writes where it raises a flag that traps (R118). -/
def Group.kept (g : Group) (out : Nat → LaneOut) (j : Nat) : LaneOut :=
  if fpcEnables (g.fpcFor (g.lane j)) &&& (out j).flags = 0 then out j else { writes := [], flags := (out j).flags }

/-- The failed check of a lane that raises a flag that traps (R118). -/
def Group.flagHit (g : Group) (out : Nat → LaneOut) (j : Nat) : Option Hit :=
  let en := fpcEnables (g.fpcFor (g.lane j)) &&& (out j).flags
  if en = 0 then none else some { lane := j, vec := 0x200, cause := en.toNat }

theorem trapping_eq (g : Group) (act : LaneSet) (out : Nat → LaneOut) : trapping g act out = (lanesIn act).filterMap (g.flagHit out) := rfl

theorem Lane.pendAll_nil (l : Lane) (n : Nat) : l.pendAll n [] = l := by simp [Lane.pendAll]

/-- One lane's result: its flags are raised, and its writes are pending unless the flags trap. -/
theorem aluStep_eq (lat : Nat) (out : Nat → LaneOut) {g a : Group} (hits : List Hit) {j : Nat} (hj : j < 64) (hl : a.lane j = g.lane j)
    (he : fpcEnables a.fpc = fpcEnables g.fpc) :
    (if fpcEnables (a.fpcFor (a.lane j)) &&& (out j).flags = 0
     then ((a.raiseFlags j (out j).flags).upd (laneBit j) (fun _ l => l.pendAll lat (out j).writes), hits)
     else (a.raiseFlags j (out j).flags,
       hits ++ [({ lane := j, vec := 0x200, cause := (fpcEnables (a.fpcFor (a.lane j)) &&& (out j).flags).toNat } : Hit)])) =
    ({ (a.upd (laneBit j) (fun _ l => (l.addFlags (g.kept out j).flags).pendAll lat (g.kept out j).writes)) with
        fpc := if (g.lane j).spec.isSome || (g.lane j).olds.any (fun o => o.reg = .fpc) then a.fpc
               else orFlags a.fpc (g.kept out j).flags },
      hits ++ (g.flagHit out j).toList) := by
  rw [Group.fpcFor_enables _ he, hl, Group.raiseFlags_eq _ _ hj, hl]
  unfold Group.kept Group.flagHit
  dsimp only
  split
  · simp only [Option.toList_none, List.append_nil, Prod.mk.injEq, and_true]
    unfold Group.upd
    simp only [mapLanes_mapLanes]
    congr 1
    apply mapLanes_congr
    intro i l
    split <;> rfl
  · simp only [Option.toList_some, Lane.pendAll_nil]

/-- The results of a word in lane order, flags that trap among them. -/
theorem results_fold_traps (lat : Nat) (out : Nat → LaneOut) (g : Group) (ls : List Nat) (hn : ls.Nodup) (hb : ∀ i ∈ ls, i < 64)
    (a : Group) (hits : List Hit) (hl : ∀ j ∈ ls, a.lane j = g.lane j) (he : fpcEnables a.fpc = fpcEnables g.fpc) :
    (ls.map (fun j => (j, out j))).foldl (fun (acc : Group × List Hit) (o : Nat × LaneOut) =>
      let en := fpcEnables (acc.1.fpcFor (acc.1.lane o.1)) &&& o.2.flags
      let g1 := acc.1.raiseFlags o.1 o.2.flags
      if en = 0 then (g1.upd (laneBit o.1) (fun _ l => l.pendAll lat o.2.writes), acc.2)
      else (g1, acc.2 ++ [{ lane := o.1, vec := 0x200, cause := en.toNat }])) (a, hits) =
    ({ a with lanes := mapLanes (fun i l => if i ∈ ls then (l.addFlags (g.kept out i).flags).pendAll lat (g.kept out i).writes else l) 0 a.lanes
              fpc := ls.foldl (fun w j => if (g.lane j).spec.isSome || (g.lane j).olds.any (fun o => o.reg = .fpc) then w
                else orFlags w (g.kept out j).flags) a.fpc }, hits ++ ls.filterMap (g.flagHit out)) := by
  induction ls generalizing a hits with
  | nil => simp [mapLanes_same]
  | cons j ls ih =>
    obtain ⟨hj, hn⟩ := List.nodup_cons.1 hn
    have hjb := hb j (List.mem_cons_self ..)
    have hne : ∀ k ∈ ls, (laneBit j).getLsbD k = false := fun k hk => by
      rw [laneBit_get hjb]
      exact decide_eq_false (fun e => hj (e ▸ hk))
    rw [List.map_cons, List.foldl_cons]
    dsimp only
    rw [aluStep_eq lat out hits hjb (hl j (List.mem_cons_self ..)) he, ih hn (fun i hi => hb i (List.mem_cons_of_mem _ hi))]
    · refine Prod.ext ?_ ?_
      · unfold Group.upd
        simp only [mapLanes_mapLanes, List.foldl_cons]
        congr 1
        apply mapLanes_congr
        intro i l
        rw [laneBit_get hjb]
        by_cases h : i = j
        · subst h; simp [hj]
        · simp [h]
      · simp only [List.append_assoc, List.filterMap_cons]
        cases g.flagHit out j <;> rfl
    · intro k hk
      exact (Group.lane_upd_other a (laneBit j) _ k (hne k hk)).trans (hl k (List.mem_cons_of_mem _ hk))
    · dsimp only
      split
      · exact he
      · rw [fpcEnables_orFlags]; exact he

/-- A fixed-latency word: its group has the results of the lanes that do not trap, and the others fail a check (R118). -/
theorem finishAlu_traps {x : Ix} {s : State} {g : Group} (lat : Nat) (out : Nat → LaneOut) (hg : s.group? x.core x.slot = some g) :
    finishAlu x lat ((lanesIn x.act).map (fun j => (j, out j))) s =
      raiseUnit x false (trapping g x.act out) (s.setGroup (g.results x.act lat (g.kept out))) := by
  unfold finishAlu
  simp only [hg]
  rw [results_fold_traps lat out g (lanesIn x.act) (lanesIn_nodup _) (fun i h => lanesIn_bound h) g [] (fun _ _ => rfl) rfl]
  dsimp only
  rw [List.nil_append, trapping_eq]
  congr 2
  unfold Group.results Group.upd
  congr 1
  apply mapLanes_congr
  intro i l
  rw [getLsbD_lanesIn]
  by_cases h : i ∈ lanesIn x.act <;> simp [h]

/-- The lanes' results as `alu` and `longAlu` compute them: each from its own registers, or with U = 1 from the lowest's (R39). -/
theorem laneResults_eq (u : Bool) (f : Group → Lane → LaneOut) (g : Group) (act : LaneSet) :
    (if u then (lanesIn act).map (fun j => (j, f g (g.lane ((lanesIn act).headD 0)))) else (lanesIn act).map (fun j => (j, f g (g.lane j)))) =
      (lanesIn act).map (fun j => (j, f g (g.lane (sourceLane u act j)))) := by
  cases u <;> simp [sourceLane]

/-- A fixed-latency word that executes normally, whatever flags it raises. -/
theorem alu_traps {i : LInstr} {s : State} {b : Bundle} {g : Group} {t : Team} (h : LReady i s b g t) (lat : Nat)
    (f : Group → Lane → LaneOut) :
    alu i lat f s = .next (unitEnd b (Issues.ix i b g t 1) (raise
      ((s.issued b g 1).setGroup ((g.issued b 1).results (g.activeOf b 1) lat ((g.issued b 1).kept (laneOuts i b g f))))
      b.core b.slot (Issues.ix i b g t 1).at (trapping (g.issued b 1) (g.activeOf b 1) (laneOuts i b g f)))) := by
  have hg : (s.issued b g 1).group? (Issues.ix i b g t 1).core (Issues.ix i b g t 1).slot = some (g.issued b 1) :=
    State.issued_group h.toIssues 1
  unfold alu
  rw [lset_ready h]
  dsimp only
  rw [hg]
  dsimp only
  rw [laneResults_eq, finishAlu_traps lat _ hg]
  have hm : (Issues.ix i b g t 1).b.more = false := h.whole.more
  have hh : (Issues.ix i b g t 1).b.hits = [] := h.whole.hits
  simp only [raiseUnit, hm, hh, List.nil_append]
  rfl

/-- The words of the tables of R120 to R124 are fixed-latency words. -/
theorem exec_of_floatResult {i : LInstr} {lat : Nat} {f : Group → Lane → LaneOut} (h : floatResult i = some (lat, f)) (s : State) :
    exec (Code.l i).instr s = alu i lat f s := by
  unfold floatResult at h
  split at h <;> cases h <;> rfl

end Sys2Proof.Machine

open Sys2Proof.Machine

/-- Settles O2: the results are taken in lane order, and a lane whose flags trap keeps its flags and is a failed check. -/
theorem enabledFlagsTrap : Obligations.EnabledFlagsTrap := by
  unfold Obligations.EnabledFlagsTrap
  intro i lat f hf s b g t h
  rw [exec_of_floatResult hf, alu_traps h lat f]
  rfl

end

section
/-! Long-latency words as they issue, whole or in parts, and their landing writes (R31, R33, R137). -/

namespace Sys2Proof.Machine

open Sys2Proof.Claims

/-! ### Fronts of groups -/

section
variable {s : State} {core slot : Nat} {g : Group} (hs : slot < 128) (hg : s.group? core slot = some g)
include hs hg

theorem State.front?_of_group : s.front? core slot = some g.fe := by simp only [State.front?, hs, if_true, hg, Option.map_some]

theorem State.setFront_of_group (f : Front) : s.setFront core slot f = s.setGroup { g with fe := f } := by
  simp only [State.setFront, hs, if_true, hg]

end

/-- The group of a slot after a change that keeps its slot. -/
theorem State.group?_setGroup_of {s : State} {core slot : Nat} {g : Group} (hg : s.group? core slot = some g) (h : Group)
    (hc : h.core = g.core := by rfl) (hs : h.slot = g.slot := by rfl) : (s.setGroup h).group? core slot = some h :=
  State.group?_setGroup hg (hc.trans (State.group?_core hg).1) (hs.trans (State.group?_core hg).2)

/-- A front stored in a group that has just been replaced. -/
theorem State.setFront_setGroup {s : State} {core slot : Nat} {g h : Group} (hs : slot < 128) (hg : s.group? core slot = some g)
    (hhc : h.core = g.core) (hhs : h.slot = g.slot) (f : Front) :
    (s.setGroup h).setFront core slot f = s.setGroup { h with fe := f } := by
  rw [State.setFront_of_group hs (State.group?_setGroup_of hg h hhc hhs), State.setGroup_setGroup _ (by rfl) (by rfl)]

/-! ### A word whose results raise no flag -/

theorem Group.raiseFlags_zero (g : Group) {j : Nat} (hj : j < 64) : g.raiseFlags j 0 = g := by
  rw [Group.raiseFlags_eq g j hj]
  simp only [Lane.addFlags_zero, orFlags_zero, ite_self, Group.upd_same _ _ (fun _ l => l) (fun _ _ => rfl)]

/-- What the lanes of such a word leave on its way, in lane order. -/
theorem landings_fold (f : Land → Land) (x : Ix) (w : Nat → List (Dest × DWord)) (g : Group) (ls : List Nat) (hb : ∀ j ∈ ls, j < 64)
    (hits : List Hit) (lands : List Land) :
    (ls.map (fun j => (j, ({ writes := w j } : LaneOut)))).foldl (fun (acc : Group × List Hit × List Land) (o : LaneResult) =>
      let l := acc.1.lane o.1
      let en := fpcEnables (acc.1.fpcFor l) &&& o.2.flags
      let g1 := acc.1.raiseFlags o.1 o.2.flags
      if en = 0 then
        (g1, acc.2.1, acc.2.2 ++ [f { lane := o.1, writes := o.2.writes, spec := l.specUnit, unit := x.b.unit, word := x.word }])
      else (g1, acc.2.1 ++ [{ lane := o.1, vec := 0x200, cause := en.toNat }], acc.2.2)) (g, hits, lands) =
    (g, hits, lands ++ ls.map (fun j => f { lane := j, writes := w j, spec := (g.lane j).specUnit, unit := x.b.unit, word := x.word })) := by
  induction ls generalizing lands with
  | nil => simp
  | cons j ls ih =>
    rw [List.map_cons, List.foldl_cons]
    have hz (e : BitVec 5) : e &&& ({ writes := w j } : LaneOut).flags = 0 := BitVec.and_zero
    have hr : g.raiseFlags j ({ writes := w j } : LaneOut).flags = g := Group.raiseFlags_zero g (hb j (List.mem_cons_self ..))
    simp only [hz, hr, if_true]
    rw [ih (fun i hi => hb i (List.mem_cons_of_mem _ hi)), List.map_cons, List.append_assoc, List.singleton_append]

/-- A long-latency word whose results raise no flag starts its operation, or adds its part to it; no lane fails a check. -/
theorem launchOp_plain {x : Ix} {s : State} {g : Group} (k : Tok) (ls : List Nat) (w : Nat → List (Dest × DWord))
    (hg : s.group? x.core x.slot = some g) (hb : ∀ j ∈ ls, j < 64) :
    launchOp id x k (ls.map (fun j => (j, { writes := w j }))) s =
      (startPart x (inFlight x g k (opId x s) ls w) (s.setGroup { g with spec := countedIn g (inFlight x g k (opId x s) ls w) }), []) := by
  unfold launchOp
  simp only [hg]
  rw [landings_fold id x w g ls hb]
  simp only [id, List.nil_append, List.map_map, Function.comp_def, List.any_map, List.map_id', Prod.mk.injEq, and_true]
  unfold inFlight countedIn
  simp only
  congr 2
  split <;> rfl

/-- The operation of a group starts in its front. -/
theorem startOp_of_group {s : State} {core slot : Nat} {g h : Group} (hs : slot < 128) (hg : s.group? core slot = some g)
    (hhc : h.core = g.core) (hhs : h.slot = g.slot) (op : LongOp) :
    startOp (s.setGroup h) core slot op = (s.setGroup { h with fe := (h.fe.start op).finish op.id }).fresh := by
  unfold startOp
  rw [State.front?_of_group hs (State.group?_setGroup_of hg h hhc hhs)]
  dsimp only
  rw [State.setFront_setGroup hs hg hhc hhs]

/-- The first of the bundles that issue takes over what a part before it says, when it is the part that follows. -/
theorem State.nextPart_of_head {s : State} {x : Ix} {y : Bundle} {rest : List Bundle} (f : Bundle → Bundle) (hi : s.issue = y :: rest)
    (hu : y.core = x.core ∧ y.slot = x.slot ∧ y.unit = x.b.unit) : s.nextPart x f = { s with issue := f y :: rest } := by
  simp only [State.nextPart, hi, hu, and_self, if_true]

/-- What a part says of its operation and of its failed checks. -/
theorem State.nextPart_op_hits {s : State} {x : Ix} {y : Bundle} {rest : List Bundle} (op : Nat) (hits : List Hit) (hi : s.issue = y :: rest)
    (hu : y.core = x.core ∧ y.slot = x.slot ∧ y.unit = x.b.unit) :
    (s.nextPart x (fun b => { b with op := some op })).nextPart x (fun b => { b with hits := hits }) =
      { s with issue := { y with op := some op, hits := hits } :: rest } := by
  rw [State.nextPart_of_head (s := s) _ hi hu, State.nextPart_of_head (y := { y with op := some op }) _ (by rfl) (by exact hu)]

section
variable {x : Ix} {k : Tok} {ls : List Nat} {w : Nat → List (Dest × DWord)} {s : State} {g : Group}
  (hs : x.slot < 128) (hg : s.group? x.core x.slot = some g) (hb : ∀ j ∈ ls, j < 64)
include hs hg hb

/-- A word that issues whole (R31). -/
theorem launch_whole (hw : x.b.Whole) : let op := inFlight x g k s.ids ls w
    launch x k (ls.map (fun j => (j, { writes := w j }))) s =
      (s.setGroup { g with fe := (g.fe.start op).finish op.id, spec := countedIn g op }).fresh := by
  have hid : opId x s = s.ids := by simp [opId, hw.op]
  unfold launch
  rw [launchOp_plain k ls w hg hb, hid]
  dsimp only
  rw [raiseUnit_nil hw]
  unfold startPart
  simp only [hw.op, hw.more, Bool.or_false, Bool.false_eq_true, if_false]
  rw [startOp_of_group hs hg (by rfl) (by rfl)]

variable {y : Bundle} {rest : List Bundle} (hh : x.b.hits = [])
include hh

/-- The first part of a word starts the operation, owed to the parts that follow (R137). -/
theorem launch_first (hn : x.b.op = none) (hm : x.b.more = true) (hi : s.issue = y :: rest)
    (hu : y.core = x.core ∧ y.slot = x.slot ∧ y.unit = x.b.unit) :
    let op := { inFlight x g k s.ids ls w with owed := true }
    launch x k (ls.map (fun j => (j, { writes := w j }))) s =
      { (s.setGroup { g with fe := (g.fe.start op).finish op.id, spec := countedIn g op }).fresh with
          issue := { y with op := some op.id, hits := [] } :: rest } := by
  have hid : opId x s = s.ids := by simp [opId, hn]
  unfold launch
  rw [launchOp_plain k ls w hg hb, hid]
  dsimp only
  unfold startPart raiseUnit
  simp only [hn, hm, Bool.or_true, if_true]
  rw [startOp_of_group hs hg (by rfl) (by rfl), State.nextPart_op_hits (y := y) (rest := rest) _ _ (by exact hi) hu, hh]
  rfl

/-- A later part joins the operation; the last leaves it owed to no further one (R137). -/
theorem launch_later {id : Nat} (ho : x.b.op = some id)
    (hi : x.b.more = true → s.issue = y :: rest ∧ y.core = x.core ∧ y.slot = x.slot ∧ y.unit = x.b.unit) :
    let op := inFlight x g k id ls w
    let f := g.fe.updOp id (fun o => { o with
      lanes := o.lanes ||| op.lanes
      lands := o.lands ++ op.lands
      spec := o.spec || op.spec
      owed := x.b.more })
    let s1 := s.setGroup { g with fe := f.finish id, spec := countedIn g op }
    launch x k (ls.map (fun j => (j, { writes := w j }))) s =
      if x.b.more then { s1 with issue := { y with op := some id, hits := [] } :: rest } else s1 := by
  have hid : opId x s = id := by simp [opId, ho]
  unfold launch
  rw [launchOp_plain k ls w hg hb, hid]
  dsimp only
  unfold startPart raiseUnit
  simp only [ho]
  rw [State.front?_of_group hs (State.group?_setGroup_of hg _)]
  dsimp only
  rw [State.setFront_setGroup hs hg (by rfl) (by rfl)]
  cases hm : x.b.more with
  | false =>
    simp only [Bool.false_eq_true, if_false, hh, List.append_nil, raise_nil]
    rfl
  | true =>
    obtain ⟨hi, hu⟩ := hi hm
    simp only [if_true]
    rw [State.nextPart_op_hits (y := y) (rest := rest) _ _ (by exact hi) hu, hh]
    rfl

end

/-! ### The words of R125 and R132 to R134 -/

/-- A long-latency word that computes each active lane's writes from that lane. -/
theorem longAlu_ready {i : LInstr} {s : State} {b : Bundle} {g : Group} {t : Team} (h : LReady i s b g t) (k : Tok)
    (f : Group → Lane → LaneOut) :
    longAlu i k f s = .next (unitEnd b (Issues.ix i b g t 1) (launch (Issues.ix i b g t 1) k
      ((lanesIn (g.activeOf b 1)).map (fun j => (j, f (g.issued b 1) ((g.issued b 1).lane (sourceLane i.use.u (g.activeOf b 1) j)))))
      (s.issued b g 1))) := by
  have hg : (s.issued b g 1).group? (Issues.ix i b g t 1).core (Issues.ix i b g t 1).slot = some (g.issued b 1) :=
    State.issued_group h.toIssues 1
  unfold longAlu
  rw [lset_ready h]
  dsimp only
  rw [hg]
  dsimp only
  rw [laneResults_eq]
  rfl

/-- The words of R125 are long-latency words. -/
theorem exec_of_specialResult {i : LInstr} {k : Tok} {f : Lane → LaneOut} (h : specialResult i = some (k, f)) (s : State) :
    exec (Code.l i).instr s = longAlu i k (fun _ => f) s := by
  unfold specialResult at h
  split at h <;> cases h <;> rfl

/-- A draw of each active lane (R133). -/
theorem rngWord_ready {i : LInstr} {s : State} {b : Bundle} {g : Group} {t : Team} (h : LReady i s b g t) (k : Tok)
    (f : DWord → List (Dest × DWord)) :
    rngWord i k f s = .next (unitEnd b (Issues.ix i b g t 1) (launch (Issues.ix i b g t 1) k
      ((lanesIn (g.activeOf b 1)).map (fun j => (j, { writes := f (drawOf s t ((g.issued b 1).lane j)) })))
      ((s.issued b g 1).setGroup ((g.issued b 1).upd (g.activeOf b 1) (fun _ l => { l with draws := l.draws + 1 }))))) := by
  have hg : (s.issued b g 1).group? (Issues.ix i b g t 1).core (Issues.ix i b g t 1).slot = some (g.issued b 1) :=
    State.issued_group h.toIssues 1
  unfold rngWord
  rw [lset_ready h]
  dsimp only
  rw [hg]
  rfl

end Sys2Proof.Machine

open Sys2Proof.Machine

namespace Sys2Proof.Claims

theorem specialFunctionWords_hold : SpecialFunctionWords := by
  intro i k f hf s b g t h
  rw [exec_of_specialResult hf, longAlu_ready h]

theorem longLatencyIssue_holds : LongLatencyIssue := by
  intro x k ls w s g hs hg hb hw
  exact launch_whole hs hg hb hw

/-- RNG (R133): the 32 upper bits of the number, or its 24 upper bits as a fraction. -/
theorem rngWords_draw {s : State} {b : Bundle} {g : Machine.Group} {t : Team} {d : VReg} {k : Tok} {i : LInstr} {v : DWord → Word}
    (hi : (i = .rngB32 d k ∧ v = fun w => w.extractLsb' 32 32) ∨
      (i = .rngF32 d k ∧ v = fun w => BitVec.ofNat 32 (if w.toNat / 2 ^ 40 = 0 then 0 else (roundF fp32 .rne false (w.toNat / 2 ^ 40) (-24)).1)))
    (h : LReady i s b g t) :
    exec (Code.l i).instr s = .next (unitEnd b (Issues.ix i b g t 1) (launch (Issues.ix i b g t 1) k
      ((lanesIn (g.activeOf b 1)).map (fun j => (j, { writes := w32 d (v (drawOf s t ((g.issued b 1).lane j))) })))
      ((s.issued b g 1).setGroup ((g.issued b 1).upd (g.activeOf b 1) (fun _ l => { l with draws := l.draws + 1 }))))) := by
  rcases hi with ⟨rfl, rfl⟩ | ⟨rfl, rfl⟩
  · rw [exec_rngB32, execRngB32, rngWord_ready h]
  · rw [exec_rngF32, execRngF32, rngWord_ready h]
    simp only [BitVec.toNat_ushiftRight, Nat.shiftRight_eq_div_pow]

theorem cycle_reads_count {s : State} {b : Bundle} {g : Machine.Group} {t : Team} {d : VReg} {k : Tok} (h : LReady (.cycle d k) s b g t)
    (hd : t.det = false) :
    exec (Code.l (.cycle d k)).instr s = .next (unitEnd b (Issues.ix (.cycle d k) b g t 1) (launch (Issues.ix (.cycle d k) b g t 1) k
      ((lanesIn (g.activeOf b 1)).map (fun j =>
        (j, { writes := w32 d ((((s.cores.find? (fun (c : CoreState) => c.core = b.core)).map (fun (c : CoreState) => c.cycles)).getD 0).setWidth 32) })))
      (s.issued b g 1))) := by
  rw [exec_cycle, execCycle, lset_ready h]
  simp only [Issues.ix, hd, Bool.false_eq_true, if_false]
  rfl

theorem rdspec_reads_counter {s : State} {b : Bundle} {g : Machine.Group} {t : Team} {d : VReg} {k : Tok} {sel : BitVec 7}
    (h : LReady (.rdspec d sel k) s b g t) (hd : t.det = false) :
    exec (Code.l (.rdspec d sel k)).instr s = .next (unitEnd b (Issues.ix (.rdspec d sel k) b g t 1)
      (launch (Issues.ix (.rdspec d sel k) b g t 1) k
      ((lanesIn (g.activeOf b 1)).map (fun j =>
        let l := (g.issued b 1).lane j
        (j, { writes := w32 d ((if sel = 0 then l.sees .specm (g.specm.setWidth 64) else l.sees .specr (g.specr.setWidth 64)).setWidth 32) })))
      (s.issued b g 1))) := by
  have hg := State.issued_group h.toIssues 1
  rw [exec_rdspec, execRdspec, lset_ready h]
  simp only [Issues.ix, hd, Bool.false_eq_true, if_false, hg]
  rfl

theorem randomAndCountWords_hold : RandomAndCountWords := by
  intro s b g t d k
  exact ⟨fun i v hi h => rngWords_draw hi h, cycle_reads_count, fun _ => rdspec_reads_counter⟩

end Sys2Proof.Claims

/-- Settles O19: the words' frames give the results to `launch`, and `launch` leaves them on their way. -/
theorem longLatencyWords : Obligations.LongLatencyWords := by
  unfold Obligations.LongLatencyWords
  exact ⟨Sys2Proof.Claims.specialFunctionWords_hold, Sys2Proof.Claims.longLatencyIssue_holds, Sys2Proof.Claims.randomAndCountWords_hold⟩

end

section
/-! A word that accesses memory in parts (R137, R138), and the loads (R155-R162). -/

namespace Sys2Proof.Machine

open Sys2Proof.Claims

/-! ### A bundle cut in two -/

/-- Whether the guard of a bundle leaves a lane active, as the lane is when it has issued the word (R50). -/
def Bundle.leaves (b : Bundle) (g : Group) (j : Nat) : Bool :=
  match b.guard with
  | none => true
  | some (p, neg) => decide (j < g.lanes.length) && (((g.lane j).tick 1).pred p.toNat != neg)

theorem getLsbD_activeAt (g : Group) (b : Bundle) (j : Nat) : (activeAt g b).getLsbD j = (b.lanes.getLsbD j && b.leaves g j) := by
  unfold activeAt activeIn Bundle.leaves
  cases b.guard with
  | none => simp
  | some pn =>
    obtain ⟨p, neg⟩ := pn
    dsimp only
    rw [BitVec.getLsbD_and]
    cases hb : b.lanes.getLsbD j with
    | false => rfl
    | true =>
      have h64 : j < 64 := BitVec.lt_of_getLsbD hb
      rw [Bool.true_and, Bool.true_and, Group.getLsbD_where, Group.atIssue, Group.upd_length]
      by_cases hj : j < g.lanes.length
      · simp [h64, hj, Group.lane_upd _ _ _ _ hj, hb]
      · simp [hj]

/-- A bundle of some of the lanes is active in those of them that the whole one is active in. -/
theorem activeAt_part (g : Group) (b : Bundle) {set : LaneSet} (h : ∀ j, set.getLsbD j = true → b.lanes.getLsbD j = true) (m : Bool) :
    activeAt g { b with lanes := set, more := m } = set &&& activeAt g b := by
  apply LaneSet.ext
  intro j _
  rw [BitVec.getLsbD_and, getLsbD_activeAt, getLsbD_activeAt]
  cases hs : set.getLsbD j with
  | false => rfl
  | true => rw [h j hs]; rfl

theorem activeAt_subset (g : Group) (b : Bundle) {j : Nat} (h : (activeAt g b).getLsbD j = true) : b.lanes.getLsbD j = true := by
  rw [getLsbD_activeAt, Bool.and_eq_true] at h
  exact h.1

/-- What a cut gives, where there is one: the lowest active lanes, some of them and not all, and the other lanes. -/
theorem Bundle.split_eq_some {b x y : Bundle} {n : Nat} {s : State} (h : b.split n s = some (x, y)) :
    ∃ g, s.group? b.core b.slot = some g ∧ lowestLanes n (activeAt g b) ≠ 0 ∧ lowestLanes n (activeAt g b) ≠ activeAt g b ∧
      x = { b with lanes := lowestLanes n (activeAt g b), more := true } ∧
      y = { b with lanes := b.lanes &&& ~~~(lowestLanes n (activeAt g b)) } := by
  unfold Bundle.split at h
  split at h
  case h_1 g hg =>
    dsimp only at h
    split at h
    case isTrue => cases h
    case isFalse hc =>
      simp only [Bool.or_eq_true, decide_eq_true_eq, not_or] at hc
      cases h
      exact ⟨g, hg, hc.1.1.2, hc.1.2, rfl, rfl⟩
  case h_2 => cases h

/-- The two parts of a cut (R137, R138). -/
theorem Bundle.split_parts {b x y : Bundle} {n : Nat} {s : State} (h : b.split n s = some (x, y)) :
    ∃ g, s.group? b.core b.slot = some g ∧
    x = { b with lanes := x.lanes, more := true } ∧ y = { b with lanes := y.lanes } ∧
    x.lanes ≠ 0 ∧ activeAt g y ≠ 0 ∧ activeAt g x = x.lanes ∧ x.lanes &&& y.lanes = 0 ∧ x.lanes ||| y.lanes = b.lanes ∧
    ∀ i ∈ lanesIn (activeAt g x), ∀ j ∈ lanesIn (activeAt g y), i < j := by
  obtain ⟨g, hg, hne, hall, rfl, rfl⟩ := Bundle.split_eq_some h
  have hact {j : Nat} (hj : (lowestLanes n (activeAt g b)).getLsbD j = true) : (activeAt g b).getLsbD j = true := lowestLanes_subset hj
  have hsub {j : Nat} (hj : (lowestLanes n (activeAt g b)).getLsbD j = true) : b.lanes.getLsbD j = true := activeAt_subset g b (hact hj)
  have hx : activeAt g { b with lanes := lowestLanes n (activeAt g b), more := true } = lowestLanes n (activeAt g b) := by
    rw [activeAt_part g b (fun j => hsub) true]
    apply LaneSet.ext
    intro j _
    rw [BitVec.getLsbD_and]
    cases hj : (lowestLanes n (activeAt g b)).getLsbD j with
    | false => rfl
    | true => rw [hact hj]; rfl
  have hy (j : Nat) : (activeAt g { b with lanes := b.lanes &&& ~~~(lowestLanes n (activeAt g b)) }).getLsbD j =
      ((activeAt g b).getLsbD j && !(lowestLanes n (activeAt g b)).getLsbD j) := by
    rw [activeAt_part g b (fun j hj => by simp_all) b.more, BitVec.getLsbD_and, BitVec.getLsbD_and, BitVec.getLsbD_not]
    cases hj : (activeAt g b).getLsbD j with
    | false => simp
    | true =>
      have h64 : j < 64 := BitVec.lt_of_getLsbD hj
      simp only [activeAt_subset g b hj, h64, decide_true, Bool.true_and, Bool.and_true]
  refine ⟨g, hg, rfl, rfl, hne, ?_, hx, ?_, ?_, ?_⟩
  · intro h0
    apply hall
    apply LaneSet.ext
    intro j _
    have hj := hy j
    rw [h0] at hj
    cases h1 : (lowestLanes n (activeAt g b)).getLsbD j with
    | true => exact (hact h1).symm
    | false => simpa [h1] using hj
  · apply LaneSet.ext
    intro j _
    simp only [BitVec.getLsbD_and, BitVec.getLsbD_not]
    cases (lowestLanes n (activeAt g b)).getLsbD j <;> simp
  · apply LaneSet.ext
    intro j hj
    simp only [BitVec.getLsbD_or, BitVec.getLsbD_and, BitVec.getLsbD_not, hj, decide_true, Bool.true_and]
    cases h1 : (lowestLanes n (activeAt g b)).getLsbD j with
    | true => simp [hsub h1]
    | false => simp
  · intro i hi j hj
    rw [hx, lanesIn_mem] at hi
    rw [lanesIn_mem, hy, Bool.and_eq_true, Bool.not_eq_true'] at hj
    exact lowestLanes_below hi.2 hj.2.1 hj.2.2

theorem Bundle.split_issue (s : State) (l : List Bundle) (b : Bundle) (n : Nat) : b.split n { s with issue := l } = b.split n s := by
  have hg : State.group? { s with issue := l } b.core b.slot = s.group? b.core b.slot := rfl
  have hc : b.ctx { s with issue := l } = b.ctx s := rfl
  unfold Bundle.split
  rw [hg, (s.sameView_issue l).fetchWord hc]

/-- A turn that asks for a part of a word runs the lowest lanes, and the others stand next (R137). -/
theorem takeTurn_part {s : State} {core slot n : Nat} {b x y : Bundle} (hb : s.bundleOf core slot = some b) (h : b.IssuesWord s)
    (hx : b.split n s = some (x, y)) : takeTurn (.part core slot n) s = runWord x { s with issue := x :: y :: s.issue.erase b } := by
  have hp : b.present s = b := h.present
  have hr : takeReports { s with issue := s.issue.erase b } b = ({ s with issue := s.issue.erase b }, b) := takeReports_none h.reports
  have hl : b.left { s with issue := s.issue.erase b } = false := h.stays
  have hs : b.split n { s with issue := s.issue.erase b } = some (x, y) := (Bundle.split_issue s _ b n).trans hx
  have he : issueWord b (some n) s = runWord x { s with issue := x :: y :: s.issue.erase b } := by
    simp [issueWord, h.first, h.word, hp, hr, hl, hs]
  simp only [takeTurn, hb]
  exact he

/-! ### The frame of a part -/

/-- A part of an L-set word that executes normally has its own effect. -/
theorem lset_part {i : LInstr} {s : State} {b : Bundle} {g : Group} {t : Team} (h : LPart i s b g t) (body : Ix → State → State) :
    lset i s body 1 i.use true = .next (endUnit (Issues.ix i b g t 1) (body (Issues.ix i b g t 1) (s.issued b g 1))) := by
  have ha : activeIn (g.upd b.lanes (fun _ l => l.pass 1 (b.pos + 4))) b ≠ 0 := h.active
  have hc : checkedHits (g.upd b.lanes (fun _ l => l.pass 1 (b.pos + 4))) i.use (activeIn (g.upd b.lanes (fun _ l => l.pass 1 (b.pos + 4))) b) = [] :=
    checkedHits_nil h.waited h.uniform
  have hr : (b.op.isNone && !(match i.use.tok with | some k => g.fe.room k | none => true)) = false := by
    cases ho : b.op with
    | some _ => rfl
    | none =>
      cases hk : i.use.tok with
      | none => rfl
      | some k => simp [h.room ho k hk]
  have hb : ({ b with hits := b.hits ++ [] } : Bundle) = b := by rw [List.append_nil]
  unfold lset lsetAs
  simp only [h.head, h.slot, if_true, h.group, h.team]
  rw [if_neg (fun hn => by rw [Bool.and_assoc, Bool.and_eq_true] at hn; exact Bool.false_ne_true (hr.symm.trans hn.2))]
  simp only [ha, h.legal, hc, List.map_nil, laneSet, List.foldl_nil, BitVec.and_not_zero, hb]
  rfl

/-! ### Verdicts of accesses that pass -/

/-- An access that passes the checks of R156 is performed. -/
theorem verdict_of_passes {s : State} {t : Team} {core : Nat} {sq : List Entry} {k : Access} {w off loc : Nat} {tso : Bool} {sp : Space}
    (h : Passes s t core sq k w off loc tso sp) : verdict s t core sq sp k off w = .go loc tso := by
  cases sp with
  | slice =>
    obtain ⟨hal, hin, rfl, rfl⟩ := h
    simp [verdict, hal, hin]
  | scratch =>
    obtain ⟨hal, hin, hlock, hbad, habs, rfl⟩ := h
    have hv : scratchVerdict s t core sq k loc w = .go loc false := by
      unfold scratchVerdict
      split
      · exact absurd ‹_› hlock
      · next hp =>
        have hk : k = .load := by
          unfold lockScratch at hp
          dsimp only at hp
          split at hp
          · cases hp
          · split at hp
            · simpa using ‹decide (k = .load) = true›
            · cases hp
        simp [habs hk, hbad]
      · by_cases hk : k = .load
        · subst hk
          simp [hbad, habs rfl]
        · simp [hbad, hk]
    simp only [verdict, hal, hin, hv, reduceCtorEq, decide_false, Bool.false_and, Bool.false_eq_true, if_false, ne_eq, not_true_eq_false]
  | cupola =>
    obtain ⟨hdet, hal, hin, ⟨p, hp, rfl, rfl⟩, hlock, hbad⟩ := h
    have hd : (decide (k = .atomic) && t.det) = false := by
      by_cases hk : k = .atomic
      · simp [hdet hk]
      · simp [hk]
    have hv : cupolaVerdict s t core sq k off w = .go p.loc p.t := by
      unfold cupolaVerdict
      rw [hp]
      dsimp only
      split
      · exact absurd ‹_› hlock
      · simp [hbad]
    simp only [verdict, hd, hal, hin, hv, decide_true, Bool.true_and, Bool.false_eq_true, if_false, if_true, ne_eq, not_true_eq_false]

/-! ### Loads -/

theorem filterMap_eq_map_of_mem {α β : Type} {f : α → Option β} {g : α → β} {l : List α} (h : ∀ a ∈ l, f a = some (g a)) :
    l.filterMap f = l.map g := by
  rw [List.filterMap_congr h, ← List.filterMap_eq_map]
  rfl

theorem State.nextPart_acquire (s : State) (x : Ix) (f : Bundle → Bundle) (core scope : Nat) :
    (s.acquire core scope).nextPart x f = (s.nextPart x f).acquire core scope := by
  by_cases hs : scope < 3
  · simp only [State.acquire, hs, if_true]
  · cases hi : s.issue with
    | nil => simp only [State.nextPart, State.acquire, hs, hi, if_false]
    | cons b rest =>
      by_cases hb : b.core = x.core ∧ b.slot = x.slot ∧ b.unit = x.b.unit
      · simp only [State.nextPart, State.acquire, hs, hi, hb, and_self, if_true, if_false]
      · simp only [State.nextPart, State.acquire, hs, hi, hb, if_false]

/-- An acquire does not reach what a unit says of its failed checks. -/
theorem raiseUnit_nil_acquire {x : Ix} (hh : x.b.hits = []) (wide : Bool) (s : State) (core scope : Nat) :
    raiseUnit x wide [] (s.acquire core scope) = (raiseUnit x wide [] s).acquire core scope := by
  unfold raiseUnit
  rw [hh]
  cases x.b.more with
  | true => exact s.nextPart_acquire ..
  | false => rfl

theorem group?_looked {s : State} {b : Bundle} {g : Group} {t : Team} (h : Issues s b g t) (i : LInstr) (m : MemForm) :
    (looked i s b g t m).group? b.core b.slot = some (g.issued b 1) :=
  (foldl_keeps (fun s => State.group? s b.core b.slot) _ (fun s _ => touchFor_group? s ..) _ _).trans (State.issued_group h 1)

theorem loaded_of_ne_slice {s : State} {x : Ix} {sp : Space} (h : sp ≠ .slice) (l : Lane) (loc w : Nat) :
    loaded s x sp l loc w = s.loadBytes x.core (sqOf s x.core x.slot) loc w := by
  cases sp with
  | slice => exact absurd rfl h
  | scratch => rfl
  | cupola => rfl

/-- The results of a load go on their way, and an acquire load acquires (R162). -/
theorem load_launched {x : Ix} {k : Tok} {rs rs' : List LaneResult} {s : State} {acq : Bool} (hh : x.b.hits = []) (hr : rs = rs') (hn : rs' ≠ [])
    (hq : (launchOp id x k rs' s).2 = []) :
    raiseUnit x false [] (if acq && rs ≠ [] then (launchOp id x k rs s).1.acquire x.core 4 else (launchOp id x k rs s).1) =
      (let s2 := launch x k rs' s
       if acq then s2.acquire x.core 4 else s2) := by
  subst hr
  cases acq with
  | false => simp [launch, hq]
  | true => simp [hn, raiseUnit_nil_acquire hh, launch, hq]

section
variable {i : LInstr} {s : State} {b : Bundle} {g : Group} {t : Team} {m : MemForm} {loc : Nat → Nat} {tso : Nat → Bool}
  (h : LPart i s b g t) (hu : m.sp = .slice → i.use.u = false)
  (hp : ∀ j ∈ lanesIn (g.activeOf b 1),
    Passes (looked i s b g t m) t b.core g.fe.sq .load m.w (offOf b g m (sourceLane i.use.u (g.activeOf b 1) j)) (loc j) (tso j) m.sp ∧
      (m.sp = .slice → ((g.issued b 1).lane j).sliceBad (loc j) m.w = false))
include h hu hp

/-- A load whose lanes all pass their checks takes each lane's bytes on their way (R155-R162). -/
theorem loadWord_part : loadWord i m.sp m.w m.sign m.d m.a m.k m.sc m.ord s = .next (endUnit (Issues.ix i b g t 1)
      (let bytes (j : Nat) : List Byte := if m.sp = .slice then ((g.issued b 1).lane j).slice.read (loc j) m.w
         else (looked i s b g t m).loadBytes b.core g.fe.sq (loc j) m.w
       let s2 := launch (Issues.ix i b g t 1) m.k
         ((lanesIn (g.activeOf b 1)).map (fun j => (j, { writes := loadWrites m.d.toNat m.sign (bytes j) }))) (looked i s b g t m)
       if m.ord then s2.acquire b.core 4 else s2)) := by
  have hg := State.issued_group h.toIssues 1
  have hl := group?_looked h.toIssues i m
  have hv (j : Nat) (hj : j ∈ lanesIn (g.activeOf b 1)) := verdict_of_passes (hp j hj).1
  have hsq : sqOf (looked i s b g t m) b.core b.slot = g.fe.sq := by
    unfold sqOf
    rw [State.front?_of_group h.slot hl]
    rfl
  have hoff (j : Nat) (hj : j ∈ lanesIn (g.activeOf b 1)) (hs : m.sp = .slice) :
      offOf b g m (sourceLane i.use.u (g.activeOf b 1) j) = loc j := by
    have h1 := (hp j hj).1
    rw [hs] at h1
    exact h1.2.2.1.symm
  have hbad (j : Nat) (hj : j ∈ lanesIn (g.activeOf b 1)) :
      (decide (m.sp = .slice) && ((g.issued b 1).lane j).sliceBad (offOf b g m (sourceLane i.use.u (g.activeOf b 1) j)) m.w) = false := by
    by_cases hs : m.sp = .slice
    · simp [hoff j hj hs, (hp j hj).2 hs]
    · simp [hs]
  have hne : lanesIn (g.activeOf b 1) ≠ [] := lanesIn_ne_nil h.active
  have hfe : (g.issued b 1).fe = g.fe := rfl
  unfold loadWord
  rw [lset_part h]
  simp only [looked, offOf, sourceLane] at hv hsq hl hoff hbad
  simp only [Issues.ix]
  rw [hg]
  simp only [hfe]
  refine congrArg _ (congrArg _ ((congrArg₂ (raiseUnit _ false) (List.filterMap_eq_nil_iff.2 ?noHit)
    ((congrArg₂ (killBadLanes _) (List.filter_eq_nil_iff.2 ?noKill) (foldl_idle ?noPark _)))).trans
      (load_launched h.sound (filterMap_eq_map_of_mem ?results) (by simpa using hne)
        (congrArg Prod.snd (launchOp_plain (x := Issues.ix i b g t 1) m.k (lanesIn (g.activeOf b 1)) _ hl (fun _ => lanesIn_bound))))))
  case noHit =>
    intro j hj
    rw [hv j hj]
  case noKill =>
    intro j hj
    rw [hv j hj]
    dsimp only
    rw [hbad j hj]
    exact Bool.false_ne_true
  case noPark =>
    intro u j hj
    rw [hv j hj]
  case results =>
    intro j hj
    rw [hv j hj]
    refine (if_neg (ne_true_of_eq_false (hbad j hj))).trans (congrArg some (congrArg _ (congrArg (fun bs => ({ writes := loadWrites m.d.toNat m.sign bs } : LaneOut)) ?_)))
    by_cases hs : m.sp = .slice
    · simp [loaded, hs, hu hs]
    · rw [if_neg hs, loaded_of_ne_slice hs, hsq]
      rfl

end

/-- A slice load has no U bit (R158). -/
theorem loadForm_slice_notUniform {i : LInstr} {m : MemForm} (h : loadForm i = some m) (hs : m.sp = .slice) : i.use.u = false := by
  unfold loadForm at h
  split at h <;> cases h <;> cases hs <;> rfl

theorem exec_of_loadForm {i : LInstr} {m : MemForm} (h : loadForm i = some m) (s : State) :
    exec (Code.l i).instr s = loadWord i m.sp m.w m.sign m.d m.a m.k m.sc m.ord s := by
  unfold loadForm at h
  split at h <;> cases h <;> rfl

end Sys2Proof.Machine

open Sys2Proof.Machine

/-- Settles O6: the cut of a bundle, the turn that asks for it, the operation that its parts share, and the loads of a part. -/
theorem partsOfAWord : Obligations.PartsOfAWord := by
  unfold Obligations.PartsOfAWord
  refine ⟨fun b x y n s h => Bundle.split_parts h, ?turn, ?parts, ?loads⟩
  case turn =>
    intro s core slot n b x y hb hfirst hpresent hduty hreports hleft hsplit
    exact takeTurn_part hb ⟨hfirst, hduty, hpresent, hleft, hreports⟩ hsplit
  case parts =>
    intro x k ls w s g y rest hs hg hb hh hnext
    exact ⟨fun ho hm => launch_first hs hg hb hh ho hm (hnext hm).1 (hnext hm).2, fun id ho => launch_later hs hg hb hh ho hnext⟩
  case loads =>
    intro i m hm s b g t loc tso h hp
    rw [exec_of_loadForm hm]
    exact loadWord_part h (loadForm_slice_notUniform hm) hp

end

section
/-! How lanes pass a word (R28, R50), and the rejoin masks that they write (R17, R68). -/

namespace Sys2Proof.Machine

/-! ### Updates of lanes -/

/-- Two updates that give each lane of the group the same make the same group. -/
theorem Group.upd_congr {g : Group} {a b : LaneSet} {f h : Nat → Lane → Lane}
    (e : ∀ j < g.lanes.length, (if a.getLsbD j then f j (g.lane j) else g.lane j) = if b.getLsbD j then h j (g.lane j) else g.lane j) :
    g.upd a f = g.upd b h := by
  unfold Group.upd
  congr 1
  apply List.ext_getElem?
  intro j
  rw [mapLanes_get, mapLanes_get, Nat.zero_add]
  by_cases hj : j < g.lanes.length
  · have he := e j hj
    have hl : g.lane j = g.lanes[j] := by simp [Group.lane, List.getD_eq_getElem?_getD, List.getElem?_eq_getElem hj]
    rw [hl] at he
    rw [List.getElem?_eq_getElem hj, Option.map_some, Option.map_some, he]
  · rw [List.getElem?_eq_none (Nat.le_of_not_lt hj)]
    rfl

theorem Group.upd_upd (g : Group) (a : LaneSet) (f h : Nat → Lane → Lane) : (g.upd a f).upd a h = g.upd a (fun j l => h j (f j l)) := by
  unfold Group.upd
  simp only [mapLanes_mapLanes]
  congr 1
  apply mapLanes_congr
  intro j l
  split <;> rfl

/-! ### A lane that passes a word -/

@[simp] theorem Lane.pass_pred (l : Lane) (n : Nat) (pc : Addr) (p : Nat) : (l.pass n pc).pred p = (l.tick n).pred p := rfl

@[simp] theorem Group.issued_core (g : Group) (b : Bundle) (n : Nat) : (g.issued b n).core = g.core := rfl
@[simp] theorem Group.issued_slot (g : Group) (b : Bundle) (n : Nat) : (g.issued b n).slot = g.slot := rfl
@[simp] theorem Group.issued_team (g : Group) (b : Bundle) (n : Nat) : (g.issued b n).team = g.team := rfl
@[simp] theorem Group.issued_fe (g : Group) (b : Bundle) (n : Nat) : (g.issued b n).fe = g.fe := rfl
@[simp] theorem Group.issued_m (g : Group) (b : Bundle) (n : Nat) : (g.issued b n).m = g.m := rfl
@[simp] theorem Group.issued_cyc (g : Group) (b : Bundle) (n : Nat) : (g.issued b n).cyc = g.cyc := rfl
@[simp] theorem Group.issued_dbgc (g : Group) (b : Bundle) (n : Nat) : (g.issued b n).dbgc = g.dbgc := rfl
@[simp] theorem Group.issued_spec (g : Group) (b : Bundle) (n : Nat) : (g.issued b n).spec = g.spec := rfl
@[simp] theorem Group.issued_length (g : Group) (b : Bundle) (n : Nat) : (g.issued b n).lanes.length = g.lanes.length := by
  simp [Group.issued]

/-- The lanes that are active as the word issues are those that are active once they have passed it. -/
theorem activeAt_eq_activeOf (g : Group) (b : Bundle) : activeAt g b = g.activeOf b 1 := by
  unfold activeAt Group.activeOf activeIn
  split
  · rfl
  · refine congrArg (b.lanes &&& ·) (Group.where_congr (by simp [Group.atIssue]) fun j _ hj => ?_)
    rw [Group.issued_length] at hj
    rw [Group.atIssue, Group.issued, Group.lane_upd _ _ _ _ hj, Group.lane_upd _ _ _ _ hj]
    split <;> simp

theorem activeOf_subset (g : Group) (b : Bundle) {j : Nat} (h : (g.activeOf b 1).getLsbD j = true) : b.lanes.getLsbD j = true :=
  activeAt_subset g b (activeAt_eq_activeOf g b ▸ h)

/-! ### Rejoin masks (R17, R68) -/

/-- RJM and RJADD in a group: the mask, the lanes that read the old one, and what the cycle has written. -/
theorem writeMask_of_group {x : Ix} {s : State} {g : Group} (m : MReg) (add : Bool) (hg : s.group? x.core x.slot = some g) :
    let first := g.cyc.find? (fun w => w.m = m.toNat)
    let now := g.m.getD m.toNat 0
    let old := match first with | some w => w.old | none => now
    let new := match first with
      | none => if add then now ||| x.act else x.act
      | some w => if add = false ∧ w.rjm = false then w.lanes ||| x.act else now ||| x.act
    writeMask x m add s = s.setGroup
      { (g.upd (~~~0) (fun j l =>
          if x.b.lanes.getLsbD j then l.keepOld (.mask m.toNat) old
          else if ∃ w ∈ g.cyc, w.m = m.toNat ∧ w.through.getLsbD j = true then l
          else { l with olds := l.olds.filter (fun o => o.reg ≠ .mask m.toNat) })) with
        m := g.m.set m.toNat (new &&& g.liveLanes)
        cyc := g.cyc ++ [{ m := m.toNat, lanes := x.act, through := x.b.lanes, rjm := !add, old := old }] } := by
  unfold writeMask
  rw [hg]
  simp only [List.any_eq_true, Bool.and_eq_true, decide_eq_true_eq, Bool.not_eq_true']
  generalize g.cyc.find? (fun w => w.m = m.toNat) = first
  cases first <;> rfl

end Sys2Proof.Machine

open Sys2Proof Sys2Proof.Machine

/-- Settles O8: RJM and RJADD are one operation on the mask, in the group as its lanes have passed the word. -/
theorem rejoinMaskWrites : Obligations.RejoinMaskWrites := by
  unfold Obligations.RejoinMaskWrites
  intro m add s b g t i hi h
  have hx := writeMask_of_group (x := Issues.ix i b g t 1) m add (State.issued_group h.toIssues 1)
  have hexec : exec (Code.l i).instr s = lset i s (writeMask · m add) := by
    subst hi
    cases add <;> rfl
  rw [hexec, lset_ready h]
  exact congrArg (fun u => Host.Outcome.next (unitEnd b (Issues.ix i b g t 1) u)) hx

end

section
/-! The words that wait, WAITK, SYNCE, FENCE and WAITBM (R77, R169, R236, R242). -/

namespace Sys2Proof.Machine

/-! ### Where a U-set word issues -/

section
variable {i : UInstr} {s s1 : State} {x : Ix} (h : UReady i s x s1)
include h

theorem UReady.slot_of_group (hl : x.lan = false) : x.slot < 128 := by
  cases h with
  | group b g t h iss => exact iss.slot
  | lantern => cases hl

theorem UReady.slot_of_lantern (hl : x.lan = true) : ¬ x.slot < 128 := by
  cases h with
  | group => cases hl
  | lantern b l t head slot => exact slot

end

/-! ### Lanterns -/

theorem landLantern_place (ps kept : List Pend) (l : Lantern) : (landLantern ps kept l).core = l.core ∧ (landLantern ps kept l).slot = l.slot := by
  induction ps generalizing kept l with
  | nil => exact ⟨rfl, rfl⟩
  | cons p ps ih =>
    unfold landLantern
    split
    · exact ih _ _
    · exact ih _ _

theorem Lantern.settle_place (l : Lantern) : l.settle.core = l.core ∧ l.settle.slot = l.slot := landLantern_place _ _ l

theorem State.setLantern_setLantern (s : State) {l k : Lantern} (hc : k.core = l.core) (hs : k.slot = l.slot) :
    (s.setLantern l).setLantern k = s.setLantern k := by
  unfold State.setLantern
  simp only [List.map_map]
  congr 1
  apply List.map_congr_left
  intro x _
  simp only [Function.comp, hc, hs]
  by_cases hx : x.core = l.core ∧ x.slot = l.slot
  · simp [hx]
  · simp [hx]

theorem State.lantern?_setLantern_of {s : State} {core slot : Nat} {l : Lantern} (hl : s.lantern? core slot = some l) (k : Lantern)
    (hc : k.core = l.core) (hs : k.slot = l.slot) : (s.setLantern k).lantern? core slot = some k :=
  State.lantern?_setLantern hl (hc.trans (State.lantern?_core hl).1) (hs.trans (State.lantern?_core hl).2)

section
variable {s : State} {core slot : Nat} {l : Lantern} (hs : ¬ slot < 128) (hl : s.lantern? core slot = some l)
include hs hl

theorem State.front?_of_lantern : s.front? core slot = some l.fe := by simp only [State.front?, hs, if_false, hl, Option.map_some]

theorem State.setFront_of_lantern (f : Front) : s.setFront core slot f = s.setLantern { l with fe := f } := by
  simp only [State.setFront, hs, if_false, hl]

end

/-! ### Acquires (R147) -/

theorem State.setLantern_acquire (s : State) (l : Lantern) (core scope : Nat) :
    (s.acquire core scope).setLantern l = (s.setLantern l).acquire core scope := by
  unfold State.acquire
  split <;> rfl

@[simp] theorem State.lantern?_acquire (s : State) (core scope c n : Nat) : (s.acquire core scope).lantern? c n = s.lantern? c n := by
  obtain ⟨st, h⟩ := s.acquire_eq core scope
  rw [h]
  rfl

@[simp] theorem State.group?_acquire (s : State) (core scope c n : Nat) : (s.acquire core scope).group? c n = s.group? c n := by
  obtain ⟨st, h⟩ := s.acquire_eq core scope
  rw [h]
  rfl

theorem Front.clearDone_none (f : Front) : f.clearDone none = { f with acqs := [] } := by simp [Front.clearDone]

theorem Front.acquireScope_none (f : Front) : f.acquireScope none = f.acqs.foldl (fun m d => max m d.2) 0 := by
  simp [Front.acquireScope]

theorem acquireToken_of_front {s : State} {core slot : Nat} {f : Front} (h : s.front? core slot = some f) (k : Option Tok) :
    acquireToken s core slot k = (s.setFront core slot (f.clearDone k)).acquire core (f.acquireScope k) := by
  simp only [acquireToken, h]

/-! ### WAITK (R77) -/

/-- Lanes that had to wait settle as they go on (R30). -/
theorem settleWaited_eq (g0 : Group) (act : LaneSet) (g : Group) (hl : g.lanes.length = g0.lanes.length) :
    settleWaited g0 act g = g.upd act (fun j l => if (g0.lane j).waited then l.settle else l) := by
  apply Group.upd_congr
  intro j hj
  rw [BitVec.getLsbD_and]
  cases ha : act.getLsbD j with
  | false => simp
  | true =>
    have h64 : j < 64 := BitVec.lt_of_getLsbD ha
    rw [Group.getLsbD_where]
    simp [h64, hl ▸ hj]

section
variable {k : Tok} {n : BitVec 4} {s : State} {b : Bundle} {g : Group} {t : Team} (h : LReady (.waitk k n) s b g t)
include h

theorem execWaitk_goes_on (hn : g.fe.count k ≤ n.toNat) :
    execWaitk k n s = .next (unitEnd b (Issues.ix (.waitk k n) b g t 1)
        (((s.issued b g 1).setGroup { ((g.issued b 1).upd (g.activeOf b 1) (fun j l => if (g.lane j).waited then l.settle else l)) with
            fe := g.fe.clearDone (some k) }).acquire b.core (g.fe.acquireScope (some k)))) := by
  have hg := State.issued_group h.toIssues 1
  unfold execWaitk
  simp only [h.head, h.group]
  rw [if_neg (by simp [hn]), lset_ready h]
  have hx : (Issues.ix (.waitk k n) b g t 1).core = b.core ∧ (Issues.ix (.waitk k n) b g t 1).slot = b.slot := ⟨rfl, rfl⟩
  simp only [hx.1, hx.2, hg]
  rw [settleWaited_eq g _ _ (by simp), acquireToken_of_front (State.front?_of_group h.slot (State.group?_setGroup_of hg _)),
    State.setFront_setGroup h.slot hg (by rfl) (by rfl)]
  rfl

theorem execWaitk_waits (hk : k ≠ 15) (hn : n.toNat < g.fe.count k) :
    execWaitk k n s = .next (s.pop.setGroup (g.upd (g.activeOf b 1) (fun _ l => { l with waited := true }))) := by
  have ha : activeAt g b ≠ 0 := activeAt_eq_activeOf g b ▸ h.active
  unfold execWaitk
  simp only [h.head, h.group]
  rw [if_pos (by simpa [hn] using ⟨ha, hk⟩), holdAt, activeAt_eq_activeOf]

end

/-! ### SYNCE (R242) -/

section
variable {s s1 : State} {x : Ix} {f : Front} (h : UReady .synce s x s1) (hf : s1.front? x.core x.slot = some f)
include h hf

theorem execSynce_of_group (ho : f.ops = []) (hl : x.lan = false) : execSynce s = .next (uEnd x
    ((s1.setFront x.core x.slot { f with acqs := [] }).acquire x.core (f.acqs.foldl (fun m d => max m d.2) 0))) := by
  unfold execSynce
  rw [uset_ready h, if_pos (by simp [hf, ho]), settleLantern, if_pos (h.slot_of_group hl), synceGo, acquireToken_of_front hf,
    Front.clearDone_none, Front.acquireScope_none]

theorem execSynce_of_lantern {l : Lantern} (ho : f.ops = []) (hl : x.lan = true) (hm : s1.lantern? x.core x.slot = some l) :
    execSynce s = .next ((s1.setLantern ({ l with fe := { l.fe with acqs := [] } } : Lantern).settle).acquire x.core
      (f.acqs.foldl (fun m d => max m d.2) 0)) := by
  have hs := h.slot_of_lantern hl
  obtain rfl : l.fe = f := by rw [State.front?_of_lantern hs hm] at hf; exact Option.some.inj hf
  have hm2 := State.lantern?_setLantern_of hm { l with fe := { l.fe with acqs := [] } } rfl rfl
  unfold execSynce
  rw [uset_ready h, if_pos (by simp [hf, ho]), settleLantern, if_neg hs, synceGo, acquireToken_of_front hf,
    Front.clearDone_none, Front.acquireScope_none, State.setFront_of_lantern hs hm, State.lantern?_acquire, hm2]
  dsimp only
  rw [State.setLantern_acquire, State.setLantern_setLantern _ (Lantern.settle_place _).1 (Lantern.settle_place _).2, uEnd, if_pos hl]

theorem execSynce_waits (ho : f.ops ≠ []) : execSynce s = .next (uEnd x (waitAtUnit s1 x .wait .synce)) := by
  unfold execSynce
  rw [uset_ready h, if_neg (by simpa [hf] using ho)]

end

/-! ### WAITBM (R236) -/

theorem execWaitbm_ready {a b : SReg} {s s1 : State} {x : Ix} {off bit : Nat} {p : Page} (h : UReady (.waitbm a b) s x s1)
    (ho : off = ((sval s1 x a).toNat + (sval s1 x b).toNat / 8) % 2 ^ 64) (hb : bit = (sval s1 x b).toNat % 8) (hw : off < Config.windowBytes)
    (hd : x.t.det = true → ownLaterBit s1 x.t off bit = false)
    (hp : windowPage (s1.touch x.t.ctx (Config.windowBase + off)) x.t.ctx off .read = .ok p) :
    execWaitbm a b s = .next (uEnd x (if ((s1.touch x.t.ctx (Config.windowBase + off)).byte p.loc).getLsbD bit
      then (s1.touch x.t.ctx (Config.windowBase + off)).acquire x.core 4
      else waitAtUnit (s1.touch x.t.ctx (Config.windowBase + off)) x .bitmap (.bitmap off bit))) := by
  have hoff : (sval s1 x a + (sval s1 x b >>> 3)).toNat = off := by
    rw [ho, BitVec.toNat_add, BitVec.toNat_ushiftRight, Nat.shiftRight_eq_div_pow]
  have hdet : (x.t.det && ownLaterBit s1 x.t off bit) = false := by
    cases hx : x.t.det with
    | false => rfl
    | true => exact hd hx
  unfold execWaitbm
  rw [uset_ready h]
  simp only [hoff, ← hb, hdet, Bool.false_eq_true, if_false, Nat.not_le.mpr hw, hp, bitSet]

end Sys2Proof.Machine

open Sys2Proof.Machine

namespace Sys2Proof.Claims

theorem waitOnTokens_hold : WaitOnTokens :=
  fun _ _ _ _ _ _ hk h => ⟨execWaitk_goes_on h, execWaitk_waits h hk⟩

theorem waitForOperations_hold : WaitForOperations :=
  fun _ _ _ _ h hf => ⟨execSynce_of_group h hf, fun _ => execSynce_of_lantern h hf, execSynce_waits h hf⟩

theorem fenceWord_holds : FenceWord := by
  constructor
  all_goals
    intro c s s1 s2 x h hr
    rw [exec_fence, execFence, uset_ready h, hr]
    rfl

theorem waitOnBitmap_holds : WaitOnBitmap := by
  intro a b s s1 x off bit p h ho hb hw hd s2 hp
  have he := execWaitbm_ready h ho hb hw hd hp
  rw [exec_waitbm, he]
  exact ⟨fun hset => by rw [if_pos hset], fun hclear => by rw [if_neg (ne_true_of_eq_false hclear)]⟩

end Sys2Proof.Claims

/-- Settles O27: each word's frame, and then what it waits for. -/
theorem waitingWords : Obligations.WaitingWords := by
  unfold Obligations.WaitingWords
  exact ⟨Sys2Proof.Claims.waitOnTokens_hold, Sys2Proof.Claims.waitForOperations_hold, Sys2Proof.Claims.fenceWord_holds,
    Sys2Proof.Claims.waitOnBitmap_holds⟩

end

section
/-! A group as it starts (R27). -/

namespace Sys2Proof.Machine

theorem upFrom_getElem? {n i : Nat} (a : Nat) (h : i < n) : (upFrom a n)[i]? = some (a + i) := by
  induction n generalizing a i with
  | zero => exact absurd h (Nat.not_lt_zero i)
  | succ n ih =>
    cases i with
    | zero => rfl
    | succ i => rw [upFrom, List.getElem?_cons_succ, ih (a + 1) (Nat.lt_of_succ_lt_succ h), Nat.add_right_comm, Nat.add_assoc]

theorem getD_map_upFrom {α : Type} (f : Nat → α) (d : α) {n i : Nat} (h : i < n) : ((upFrom 0 n).map f).getD i d = f i := by
  rw [List.getD_eq_getElem?_getD, List.getElem?_map, upFrom_getElem? 0 h, Nat.zero_add, Option.map_some, Option.getD_some]

theorem upFrom_length (a n : Nat) : (upFrom a n).length = n := by
  induction n generalizing a with
  | zero => rfl
  | succ n ih => rw [upFrom, List.length_cons, ih]

/-- The scalars at a group's start, one by one (R27). -/
theorem startScalars_eq (r : List Byte) (d : NextTeam) (grp : Nat) :
    startScalars r d (BitVec.ofNat 64 grp) = (upFrom 0 64).map (Claims.scalarAtStart r d grp) := rfl

theorem startGroup_lane (r : List Byte) (d : NextTeam) (chk : Bool) (id : Nat) (spot : Spot) (slot grp : Nat) {j : Nat}
    (h : j < recWidth r) : (startGroup r d chk id spot slot grp).lane j = startLane r d grp j := getD_map_upFrom _ _ h

end Sys2Proof.Machine

open Sys2Proof Sys2Proof.Machine

/-- Settles O50: `startGroup` sets what R27 lists, and the lanes are those of `startLane`. -/
theorem groupStart : Obligations.GroupStart := by
  unfold Obligations.GroupStart Claims.GroupsStart
  intro r d chk id spot slot grp
  have hs : (startGroup r d chk id spot slot grp).fe.s = (upFrom 0 64).map (Claims.scalarAtStart r d grp) := startScalars_eq r d grp
  refine ⟨fun i hi => ?_, ?_, rfl, rfl, rfl, rfl, rfl, rfl, rfl, rfl, ?_, rfl, rfl, rfl, rfl, Nat.mod_lt _ (by decide), fun j hj => ?_⟩
  · rw [hs, getD_map_upFrom _ _ hi]
  · rw [hs, List.length_map, upFrom_length]
  · exact (List.length_map _).trans (upFrom_length _ _)
  · rw [startGroup_lane _ _ _ _ _ _ _ hj]
    exact ⟨rfl, rfl, rfl, rfl, rfl, rfl, rfl⟩

end

section
/-! When a lane sees a write (R12, R15, R28, R29). -/

namespace Sys2Proof.Machine

/-! ### One pending write (R28) -/

section
variable {l : Lane} {p : Pend} (hp : l.pend = [p])
include hp

theorem Lane.tick_waits {n : Nat} (h : n < p.left) :
    (l.tick n).pend = [{ p with left := p.left - n }] ∧ (l.tick n).spec = l.spec ∧ (l.tick n).v = l.v ∧ (l.tick n).p = l.p := by
  simp [Lane.tick, hp, landDue, Nat.sub_ne_zero_of_lt h]

variable (hs : l.spec = none)
include hs

theorem Lane.tick_lands {n : Nat} (h : p.left ≤ n) :
    (l.tick n).pend = [] ∧ (l.tick n).spec = none ∧ (l.tick n).v = (l.put p.dst p.val).v ∧ (l.tick n).p = (l.put p.dst p.val).p := by
  have hz : p.left - n = 0 := Nat.sub_eq_zero_of_le h
  have hput : (l.put p.dst p.val).spec = none := by
    unfold Lane.put
    split
    · exact hs
    · split <;> exact hs
    · exact hs
  simp [Lane.tick, hp, landDue, hz, Lane.landOne, hs, hput]

theorem Lane.settle_lands : l.settle.v = (l.put p.dst p.val).v ∧ l.settle.p = (l.put p.dst p.val).p := by
  simp [Lane.settle, hp, landDue, Lane.landOne, hs]

end

section
variable {l : Lane} (hp : l.pend = [])
include hp

theorem Lane.tick_of_idle (n : Nat) : l.tick n =
    { l with olds := (l.olds.map (fun o => { o with left := o.left - n })).filter (fun o => 0 < o.left) } := by
  simp [Lane.tick, hp, landDue]

theorem Lane.settle_of_idle : l.settle = { l with olds := [] } := by simp [Lane.settle, hp, landDue]

end

/-- What a write leaves in a lane's registers depends on its registers alone. -/
theorem Lane.put_congr {l m : Lane} (d : Dest) (x : DWord) (hv : l.v = m.v) (hq : l.p = m.p) :
    (l.put d x).v = (m.put d x).v ∧ (l.put d x).p = (m.put d x).p := by
  cases d with
  | v r => simp only [Lane.put, hv, hq, and_self]
  | p r =>
    simp only [Lane.put, hq]
    split
    · exact ⟨hv, hq⟩
    · exact ⟨hv, rfl⟩
  | s r => exact ⟨hv, hq⟩

/-! ### What a lane holds while it issues (R28) -/

section
variable {l : Lane} {p : Pend} (hp : l.pend = [p]) (hs : l.spec = none) (pc : Addr)
include hp hs

theorem later_waits {k : Nat} (h : k < p.left) :
    (Claims.later pc l k).pend = [{ p with left := p.left - k }] ∧ (Claims.later pc l k).spec = none ∧
    (Claims.later pc l k).v = l.v ∧ (Claims.later pc l k).p = l.p := by
  induction k with
  | zero => exact ⟨hp, hs, rfl, rfl⟩
  | succ k ih =>
    obtain ⟨ihp, ihs, ihv, ihq⟩ := ih (Nat.lt_of_succ_lt h)
    obtain ⟨tp, ts, tv, tq⟩ := Lane.tick_waits ihp (n := 1) (by dsimp only; omega)
    refine ⟨?_, ?_, tv.trans ihv, tq.trans ihq⟩
    · exact tp.trans (by rw [Nat.sub_sub])
    · rw [Claims.later, Lane.pass, ts, ihs, Option.map_none]

theorem later_lands {k : Nat} (h : p.left ≤ k) (h0 : 0 < p.left) :
    (Claims.later pc l k).pend = [] ∧ (Claims.later pc l k).spec = none ∧
    (Claims.later pc l k).v = (l.put p.dst p.val).v ∧ (Claims.later pc l k).p = (l.put p.dst p.val).p := by
  induction k, h using Nat.le_induction with
  | base =>
    obtain ⟨k, hk⟩ := Nat.exists_eq_add_one.mpr h0
    obtain ⟨wp, ws, wv, wq⟩ := later_waits hp hs pc (k := k) (by omega)
    obtain ⟨tp, ts, tv, tq⟩ := Lane.tick_lands wp ws (n := 1) (by dsimp only; omega)
    obtain ⟨cv, cq⟩ := Lane.put_congr p.dst p.val wv wq
    rw [hk]
    refine ⟨tp, ?_, tv.trans cv, tq.trans cq⟩
    rw [Claims.later, Lane.pass, ts, Option.map_none]
  | succ k hk ih =>
    obtain ⟨ihp, ihs, ihv, ihq⟩ := ih
    have ht := Lane.tick_of_idle ihp 1
    refine ⟨?_, ?_, ?_, ?_⟩ <;> simp only [Claims.later, Lane.pass, ht]
    · exact ihp
    · rw [ihs, Option.map_none]
    · exact ihv
    · exact ihq

/-- A write that has landed, or that lands as the lane settles (R30). -/
theorem later_settles (k : Nat) (h0 : 0 < p.left) :
    (Claims.later pc l k).settle.v = (l.put p.dst p.val).v ∧ (Claims.later pc l k).settle.p = (l.put p.dst p.val).p := by
  by_cases h : k < p.left
  · obtain ⟨wp, ws, wv, wq⟩ := later_waits hp hs pc h
    obtain ⟨sv, sq⟩ := Lane.settle_lands wp ws
    obtain ⟨cv, cq⟩ := Lane.put_congr p.dst p.val wv wq
    exact ⟨sv.trans cv, sq.trans cq⟩
  · obtain ⟨lp, -, lv, lq⟩ := later_lands hp hs pc (Nat.le_of_not_lt h) h0
    rw [Lane.settle_of_idle lp]
    exact ⟨lv, lq⟩

end

theorem extractLsb'_setWidth (v : Word) : (v.setWidth 64).extractLsb' 0 32 = v := by
  ext i hi
  simp [Nat.lt_trans hi (show 32 < 64 by decide), BitVec.getLsbD_eq_getElem hi]

/-! ### Predicates as a write leaves them (R12) -/

theorem getLsbD_twoPow48 {r q : Nat} (hr : r < 48) : (BitVec.ofNat 48 (2 ^ r)).getLsbD q = decide (r = q) := by
  rw [BitVec.getLsbD_ofNat, Nat.testBit_two_pow]
  by_cases h : r = q
  · simp [← h, hr]
  · simp [h]

theorem Lane.pred_congr {l m : Lane} (h : l.p = m.p) (q : Nat) : l.pred q = m.pred q := by rw [Lane.pred, Lane.pred, h]

theorem Lane.pred_put_same (l : Lane) {r : Nat} (hr : r < 48) (x : DWord) : (l.put (.p r) x).pred r = (x.getLsbD 0 || decide (r = 0)) := by
  by_cases h0 : r = 0
  · simp [Lane.pred, h0]
  · cases hx : x.getLsbD 0 <;> simp only [Lane.put, Lane.pred, h0, if_false, hx, if_true, Bool.false_eq_true, BitVec.getLsbD_or, BitVec.getLsbD_and,
      BitVec.getLsbD_not, getLsbD_twoPow48 hr] <;> simp

theorem Lane.pred_put_other (l : Lane) {r q : Nat} (hr : r < 48) (hq : q ≠ r) (x : DWord) : (l.put (.p r) x).pred q = l.pred q := by
  by_cases h0 : r = 0
  · simp [Lane.put, h0]
  · have hlow : (l.p.getLsbD q && decide (q < 48)) = l.p.getLsbD q := by
      cases hb : l.p.getLsbD q with
      | false => rfl
      | true => simp [BitVec.lt_of_getLsbD hb]
    cases hx : x.getLsbD 0 <;> simp only [Lane.put, Lane.pred, h0, if_false, hx, if_true, Bool.false_eq_true, BitVec.getLsbD_or, BitVec.getLsbD_and,
      BitVec.getLsbD_not, getLsbD_twoPow48 hr] <;> simp [hq.symm, hlow]

/-! ### Old values of a group's registers (R28, R29) -/

/-- The values of a register of the group that a lane still sees. -/
def Lane.oldsOf (l : Lane) (r : GReg) : List Old := l.olds.filter (fun o => o.reg = r)

theorem Lane.sees_eq (l : Lane) (r : GReg) (now : DWord) : l.sees r now = ((l.oldsOf r).head?.map (·.val)).getD now := by
  rw [Lane.oldsOf, List.head?_filter, Lane.sees]
  cases l.olds.find? (fun o => o.reg = r) <;> rfl

/-- A lane with nothing pending ages the old values that it sees. -/
theorem Lane.oldsOf_pass {l : Lane} (hp : l.pend = []) (pc : Addr) (r : GReg) : (l.pass 1 pc).oldsOf r =
    ((l.oldsOf r).map (fun o => { o with left := o.left - 1 })).filter (fun o => 0 < o.left) := by
  simp only [Lane.oldsOf, Lane.pass, Lane.tick_of_idle hp, List.filter_filter, List.filter_map, Function.comp_def, Bool.and_comm]

/-- An old value is seen for as many instructions as it has left. -/
theorem later_oldsOf {l : Lane} (hp : l.pend = []) (pc : Addr) {r : GReg} {v : DWord} {n : Nat}
    (ho : l.oldsOf r = [{ reg := r, val := v, left := n + 1 }]) (k : Nat) : (Claims.later pc l k).pend = [] ∧
    (Claims.later pc l k).oldsOf r = if k < n + 1 then [{ reg := r, val := v, left := n + 1 - k }] else [] := by
  induction k with
  | zero => exact ⟨hp, ho⟩
  | succ k ih =>
    obtain ⟨ihp, iho⟩ := ih
    refine ⟨?_, ?_⟩
    · rw [Claims.later, Lane.pass, Lane.tick_of_idle ihp]
      exact ihp
    · rw [Claims.later, Lane.oldsOf_pass ihp, iho]
      by_cases hk : k + 1 < n + 1
      · rw [if_pos (by omega), if_pos hk]
        simp [Nat.sub_sub]
        omega
      · rw [if_neg hk]
        split
        · simp [show n + 1 - k - 1 = 0 by omega]
        · rfl

/-- R29: a group's lanes as one of its scalars is written. -/
theorem Group.setScalar_lane {g : Group} {r j : Nat} (v : DWord) (hr : r ≠ 0) (hl : (g.lane j).live = true) (hj : j < 64) :
    (g.setScalar r v).lane j = (g.lane j).keepOld (.scalar r) (g.fe.sreg r) := by
  have hlen : j < g.lanes.length := by
    by_contra h
    rw [Group.lane_of_ge g (Nat.le_of_not_lt h)] at hl
    cases hl
  rw [Group.setScalar, if_neg hr]
  refine (Group.lane_upd _ _ _ _ hlen).trans ?_
  rw [getLsbD_liveLanes, hl]
  simp [hj, hlen]

theorem Group.setScalar_sreg (g : Group) {r : Nat} (v : DWord) (hr : r < g.fe.s.length) (q : Nat) :
    (g.setScalar r v).fe.sreg q = if q = r ∧ r ≠ 0 then v else g.fe.sreg q := by
  by_cases h0 : r = 0
  · simp [Group.setScalar, h0]
  · by_cases hq : q = r
    · subst hq
      simp [Group.setScalar, h0, Front.sreg, hr]
    · simp [Group.setScalar, h0, Front.sreg, hq, List.getElem?_set_ne (Ne.symm hq)]

end Sys2Proof.Machine

open Sys2Proof Sys2Proof.Machine

namespace Sys2Proof.Claims

theorem vectorWritesShow_holds : VectorWritesShow := by
  intro l d v n k pc hp hs hd hn
  have hp1 : (l.pendAll n (w32 d v)).pend = [{ dst := .v d.toNat, val := v.setWidth 64, left := n }] := by
    simp [Lane.pendAll, hp, hs, w32]
  have hs1 : (l.pendAll n (w32 d v)).spec = none := hs
  have hput : ((l.pendAll n (w32 d v)).put (.v d.toNat) (v.setWidth 64)).v = l.v.set d.toNat v := by
    simp only [Lane.put, Lane.pendAll, extractLsb'_setWidth]
  obtain ⟨sv, sq⟩ := later_settles hp1 hs1 pc k hn
  refine ⟨fun h => (later_waits hp1 hs1 pc h).2.2.1, fun h => (later_lands hp1 hs1 pc h hn).2.2.1.trans hput, sv.trans hput, ?_, sq⟩
  by_cases h : k < n
  · exact (later_waits hp1 hs1 pc h).2.2.2
  · exact (later_lands hp1 hs1 pc (Nat.le_of_not_lt h) hn).2.2.2

theorem predicateWritesShow_holds : PredicateWritesShow := by
  intro l p v n k pc hp hs hb hn
  have hp1 : (l.pendAll n (wp p v)).pend = [{ dst := .p p.toNat, val := if v then 1 else 0, left := n }] := by
    simp [Lane.pendAll, hp, hs, wp]
  have hs1 : (l.pendAll n (wp p v)).spec = none := hs
  have hval : (if v then (1 : DWord) else 0).getLsbD 0 = v := by cases v <;> rfl
  have hsame := (l.pendAll n (wp p v)).pred_put_same hb (if v then 1 else 0)
  have hother (q : Nat) (hq : q ≠ p.toNat) : ((l.pendAll n (wp p v)).put (.p p.toNat) (if v then 1 else 0)).pred q = l.pred q :=
    (l.pendAll n (wp p v)).pred_put_other hb hq _
  rw [hval] at hsame
  have hput_v : ((l.pendAll n (wp p v)).put (.p p.toNat) (if v then 1 else 0)).v = l.v := by
    simp only [Lane.put]
    split <;> rfl
  obtain ⟨-, sq⟩ := later_settles hp1 hs1 pc k hn
  refine ⟨fun h => (later_waits hp1 hs1 pc h).2.2.2, fun h => ?_, fun q hq => ?_, (Lane.pred_congr sq _).trans hsame, rfl, ?_⟩
  · exact (Lane.pred_congr (later_lands hp1 hs1 pc h hn).2.2.2 _).trans hsame
  · by_cases h : k < n
    · exact Lane.pred_congr (later_waits hp1 hs1 pc h).2.2.2 q
    · exact (Lane.pred_congr (later_lands hp1 hs1 pc (Nat.le_of_not_lt h) hn).2.2.2 q).trans (hother q hq)
  · by_cases h : k < n
    · exact (later_waits hp1 hs1 pc h).2.2.1
    · exact (later_lands hp1 hs1 pc (Nat.le_of_not_lt h) hn).2.2.1.trans hput_v

theorem scalarWritesShow_holds : ScalarWritesShow := by
  intro g r j k v pc hr hl hj ho hp
  have hold : (g.lane j).oldsOf (.scalar r) = [] := by
    rw [Lane.oldsOf, List.filter_eq_nil_iff]
    simpa using ho
  have hreg := g.setScalar_sreg v hr
  refine (?_ : _ ∧ _ ∧ _) |>.elim fun h1 h2 => ⟨h1, h2.1, h2.2, ?_, fun q hq => ?_⟩
  · by_cases h0 : r = 0
    · subst h0
      exact ⟨fun _ => rfl, fun _ => rfl, rfl⟩
    · have hlane := Group.setScalar_lane v h0 hl hj
      have holds : ((g.setScalar r v).lane j).oldsOf (.scalar r) = [{ reg := .scalar r, val := g.fe.sreg r, left := 3 + 1 }] := by
        rw [hlane, Lane.oldsOf, Lane.keepOld, List.filter_append]
        simpa [Lane.oldsOf] using hold
      have hpend : ((g.setScalar r v).lane j).pend = [] := hlane ▸ hp
      obtain ⟨hp2, ho2⟩ := later_oldsOf hpend pc holds k
      have hnow : (g.setScalar r v).fe.sreg r = v := by rw [hreg, if_pos ⟨rfl, h0⟩]
      simp only [Group.scalarFor, if_neg h0, Lane.sees_eq, ho2, hnow]
      refine ⟨fun hk => ?_, fun hk => ?_, ?_⟩
      · rw [if_pos hk]
        rfl
      · rw [if_neg (Nat.not_lt.mpr hk)]
        rfl
      · rw [Lane.settle_of_idle hp2]
        rfl
  · rfl
  · rw [hreg, if_neg (fun h => hq h.1)]

end Sys2Proof.Claims

/-- Settles O42: a pending write, and an old value that a lane still sees, followed from instruction to instruction. -/
theorem writesBecomeVisible : Obligations.WritesBecomeVisible := by
  unfold Obligations.WritesBecomeVisible
  exact ⟨Claims.vectorWritesShow_holds, Claims.predicateWritesShow_holds, Claims.scalarWritesShow_holds⟩

end

section
/-! The register words: fixed-latency words that raise no flag and write their destination registers alone (R80 to R87). -/

namespace Sys2Proof.Machine

open Sys2Proof.Claims

/-! ### Where a result's writes go -/

theorem w32_within {d : VReg} {x : Word} {ds : List Dest} (h : .v d.toNat ∈ ds) : ∀ w ∈ w32 d x, w.1 ∈ ds :=
  fun _ hw => (List.mem_singleton.mp hw) ▸ h

theorem w64_within {d : VReg} {x : DWord} {ds : List Dest} (h : .v d.toNat ∈ ds) (h1 : .v (d.toNat + 1) ∈ ds) : ∀ w ∈ w64 d x, w.1 ∈ ds := by
  intro w hw
  rcases List.mem_pair.mp hw with rfl | rfl
  · exact h
  · exact h1

theorem wp_within {p : PReg} {x : Bool} {ds : List Dest} (h : .p p.toNat ∈ ds) : ∀ w ∈ wp p x, w.1 ∈ ds :=
  fun _ hw => (List.mem_singleton.mp hw) ▸ h

/-! ### The tables -/

/-- A fixed-latency word that raises no flag and writes its destination registers alone. -/
def AluWord (i : LInstr) (s : State) : Prop :=
  ∃ f : Group → Lane → LaneOut, exec (Code.l i).instr s = alu i 4 f s ∧
    ∀ g l, (f g l).flags = 0 ∧ ∀ w ∈ (f g l).writes, w.1 ∈ destinations i

theorem aluWord_of_immWord {i : LInstr} {d a : VReg} {imm : BitVec 11} {f : Word → Word → Word} {s : State}
    (he : exec (Code.l i).instr s = immWord i d a imm f s) (hd : .v d.toNat ∈ destinations i) : AluWord i s :=
  ⟨_, he, fun _ _ => ⟨rfl, w32_within hd⟩⟩

theorem aluWord_of_arithResult {i : LInstr} (h : (arithResult i).isSome = true) (s : State) : AluWord i s := by
  unfold arithResult at h
  split at h
  · exact ⟨_, exec_iadd .., fun _ _ => ⟨rfl, w32_within (List.Mem.head _)⟩⟩
  · exact ⟨_, exec_isub .., fun _ _ => ⟨rfl, w32_within (List.Mem.head _)⟩⟩
  · exact ⟨_, exec_imul .., fun _ _ => ⟨rfl, w32_within (List.Mem.head _)⟩⟩
  · exact ⟨_, exec_imulh .., fun _ _ => ⟨rfl, w32_within (List.Mem.head _)⟩⟩
  · exact ⟨_, exec_imulhz .., fun _ _ => ⟨rfl, w32_within (List.Mem.head _)⟩⟩
  · exact ⟨_, exec_imin .., fun _ _ => ⟨rfl, w32_within (List.Mem.head _)⟩⟩
  · exact ⟨_, exec_imax .., fun _ _ => ⟨rfl, w32_within (List.Mem.head _)⟩⟩
  · exact ⟨_, exec_iminz .., fun _ _ => ⟨rfl, w32_within (List.Mem.head _)⟩⟩
  · exact ⟨_, exec_imaxz .., fun _ _ => ⟨rfl, w32_within (List.Mem.head _)⟩⟩
  · exact ⟨_, exec_iabs .., fun _ _ => ⟨rfl, w32_within (List.Mem.head _)⟩⟩
  · exact ⟨_, exec_and .., fun _ _ => ⟨rfl, w32_within (List.Mem.head _)⟩⟩
  · exact ⟨_, exec_or .., fun _ _ => ⟨rfl, w32_within (List.Mem.head _)⟩⟩
  · exact ⟨_, exec_xor .., fun _ _ => ⟨rfl, w32_within (List.Mem.head _)⟩⟩
  · exact ⟨_, exec_andn .., fun _ _ => ⟨rfl, w32_within (List.Mem.head _)⟩⟩
  · cases h

theorem aluWord_of_bitResult {i : LInstr} (h : (bitResult i).isSome = true) (s : State) : AluWord i s := by
  unfold bitResult at h
  split at h
  · exact ⟨_, exec_shl .., fun _ _ => ⟨rfl, w32_within (List.Mem.head _)⟩⟩
  · exact ⟨_, exec_shr .., fun _ _ => ⟨rfl, w32_within (List.Mem.head _)⟩⟩
  · exact ⟨_, exec_sar .., fun _ _ => ⟨rfl, w32_within (List.Mem.head _)⟩⟩
  · exact ⟨_, exec_rotl .., fun _ _ => ⟨rfl, w32_within (List.Mem.head _)⟩⟩
  · exact ⟨_, exec_popc .., fun _ _ => ⟨rfl, w32_within (List.Mem.head _)⟩⟩
  · exact ⟨_, exec_clz .., fun _ _ => ⟨rfl, w32_within (List.Mem.head _)⟩⟩
  · exact ⟨_, exec_ctz .., fun _ _ => ⟨rfl, w32_within (List.Mem.head _)⟩⟩
  · exact ⟨_, exec_brev .., fun _ _ => ⟨rfl, w32_within (List.Mem.head _)⟩⟩
  · exact ⟨_, exec_bswap .., fun _ _ => ⟨rfl, w32_within (List.Mem.head _)⟩⟩
  · exact ⟨_, exec_imad .., fun _ _ => ⟨rfl, w32_within (List.Mem.head _)⟩⟩
  · exact ⟨_, exec_bfx .., fun _ _ => ⟨rfl, w32_within (List.Mem.head _)⟩⟩
  · exact ⟨_, exec_bfi .., fun _ _ => ⟨rfl, w32_within (List.Mem.head _)⟩⟩
  · exact ⟨_, exec_iadd64 .., fun _ _ => ⟨rfl, w64_within (List.Mem.head _) (List.Mem.tail _ (List.Mem.head _))⟩⟩
  · exact ⟨_, exec_isub64 .., fun _ _ => ⟨rfl, w64_within (List.Mem.head _) (List.Mem.tail _ (List.Mem.head _))⟩⟩
  · exact ⟨_, exec_imulw .., fun _ _ => ⟨rfl, w64_within (List.Mem.head _) (List.Mem.tail _ (List.Mem.head _))⟩⟩
  · exact ⟨_, exec_mov .., fun _ _ => ⟨rfl, w32_within (List.Mem.head _)⟩⟩
  · cases h

theorem aluWord_of_immResult {i : LInstr} {pfx : Option (BitVec 25)} (h : (immResult pfx i).isSome = true) (s : State) : AluWord i s := by
  unfold immResult at h
  split at h
  · exact aluWord_of_immWord (exec_iaddi ..) (List.Mem.head _)
  · exact aluWord_of_immWord (exec_andi ..) (List.Mem.head _)
  · exact aluWord_of_immWord (exec_ori ..) (List.Mem.head _)
  · exact aluWord_of_immWord (exec_xori ..) (List.Mem.head _)
  · exact ⟨_, exec_shli .., fun _ _ => ⟨rfl, w32_within (List.Mem.head _)⟩⟩
  · exact ⟨_, exec_shri .., fun _ _ => ⟨rfl, w32_within (List.Mem.head _)⟩⟩
  · exact ⟨_, exec_sari .., fun _ _ => ⟨rfl, w32_within (List.Mem.head _)⟩⟩
  · exact ⟨_, exec_rotli .., fun _ _ => ⟨rfl, w32_within (List.Mem.head _)⟩⟩
  · exact ⟨_, exec_movi .., fun _ _ => ⟨rfl, w32_within (List.Mem.head _)⟩⟩
  · cases h

theorem aluWord_of_predResult {i : LInstr} (h : (predResult i).isSome = true) (s : State) : AluWord i s := by
  unfold predResult at h
  split at h
  · exact ⟨_, exec_icmp .., fun _ _ => ⟨rfl, wp_within (List.Mem.head _)⟩⟩
  · refine ⟨_, exec_sel .., fun g l => ⟨rfl, ?_⟩⟩
    dsimp only
    split
    · exact w32_within (List.Mem.head _)
    · split
      · exact w32_within (List.Mem.head _)
      · exact fun _ hw => by cases hw
  · exact ⟨_, exec_pset .., fun _ _ => ⟨rfl, wp_within (List.Mem.head _)⟩⟩
  · exact ⟨_, exec_ptest .., fun _ _ => ⟨rfl, w32_within (List.Mem.head _)⟩⟩
  · exact ⟨_, exec_pand .., fun _ _ => ⟨rfl, wp_within (List.Mem.head _)⟩⟩
  · exact ⟨_, exec_por .., fun _ _ => ⟨rfl, wp_within (List.Mem.head _)⟩⟩
  · exact ⟨_, exec_pxor .., fun _ _ => ⟨rfl, wp_within (List.Mem.head _)⟩⟩
  · exact ⟨_, exec_pandn .., fun _ _ => ⟨rfl, wp_within (List.Mem.head _)⟩⟩
  · exact ⟨_, exec_pnot .., fun _ _ => ⟨rfl, wp_within (List.Mem.head _)⟩⟩
  · exact ⟨_, exec_pmov .., fun _ _ => ⟨rfl, wp_within (List.Mem.head _)⟩⟩
  · cases h

theorem aluWord_of_registerWord {i : LInstr} {pfx : Option (BitVec 25)} (h : registerWord i pfx) (s : State) : AluWord i s := by
  rcases h with h | h | h | h
  · exact aluWord_of_arithResult h s
  · exact aluWord_of_bitResult h s
  · exact aluWord_of_immResult h s
  · exact aluWord_of_predResult h s

end Sys2Proof.Machine

end

section
/-! Failed checks, and the words that no lane performs: splits (R308, R309), illegal words (R55, R56) and words without an active
lane (R50). -/

namespace Sys2Proof.Machine

/-! ### The vectors of failed checks -/

/-- The numbers of a list, in order. -/
theorem mem_inserts {α : Type} (f : α → Nat) (as : List α) (l : List Nat) (y : Nat) :
    y ∈ as.foldl (fun l a => insertNat (f a) l) l ↔ y ∈ l ∨ ∃ a ∈ as, f a = y := by
  induction as generalizing l with
  | nil => simp
  | cons a as ih =>
    rw [List.foldl_cons, ih, mem_insertNat, List.exists_mem_cons_iff, eq_comm (a := y)]
    tauto

theorem vectorsOf_sorted (hits : List Hit) : (vectorsOf hits).Pairwise (· < ·) := rising_inserts Hit.vec hits List.Pairwise.nil

theorem mem_vectorsOf (hits : List Hit) (v : Nat) : v ∈ vectorsOf hits ↔ ∃ h ∈ hits, h.vec = v := by
  exact (mem_inserts Hit.vec hits [] v).trans (by simp)

/-! ### Checks that fail in lanes outside a handler (R308, R309) -/

theorem mem_byLane (hits : List Hit) (h : Hit) : h ∈ byLane hits ↔ h ∈ hits ∧ h.lane < 64 := by
  simp only [byLane, List.mem_flatMap, upFrom_mem, List.mem_filter, decide_eq_true_eq]
  constructor
  · rintro ⟨i, ⟨-, hi⟩, hm, rfl⟩
    exact ⟨hm, by omega⟩
  · rintro ⟨hm, hb⟩
    exact ⟨h.lane, ⟨Nat.zero_le _, by omega⟩, hm, rfl⟩

theorem byLane_of_vector (hits : List Hit) (v : Nat) : (byLane hits).filter (fun h => h.vec = v) =
    (List.range 64).flatMap (fun j => hits.filter (fun k => k.lane = j ∧ k.vec = v)) := by
  have hr : upFrom 0 64 = List.range 64 := rfl
  simp only [byLane, hr, List.filter_flatMap, List.filter_filter, Bool.decide_and, Bool.and_comm]

theorem splitsOf_vectors (a : At) (epc : Addr) (marks : Nat) (ops : LaneSet → List Nat) (stopAll : Bool) (hits : List Hit) :
    (splitsOf a epc marks ops stopAll hits).map (·.vec) = vectorsOf hits := by
  rw [splitsOf, List.map_map]
  exact List.map_id _

theorem codeFor_eq (a : At) (hits : List Hit) :
    codeFor a hits = (((hits.filterMap (·.report)).head?).map (fun r => r.2.setWidth 32)).getD a.tcode := by
  rw [List.head?_filterMap, codeFor]
  cases hits.findSome? (·.report) <;> rfl

/-- A group as the lanes of failed checks park at the unit, in one split for each vector (R308). -/
def Group.parkSplits (g : Group) (a : At) (hits : List Hit) : Group :=
  { (g.upd (laneSet (hits.map (·.lane))) (fun _ l =>
      { l with park := .trap, gather := .none, pc := a.unit, waited := false, want := none, ticket := none })) with
    traps := g.traps ++ splitsOf a a.unit g.fe.sq.length g.fe.opsOf (g.dbgc.getLsbD 1) hits
    stopped := g.stopped || (splitsOf a a.unit g.fe.sq.length g.fe.opsOf (g.dbgc.getLsbD 1) hits).any (·.stops) }

theorem tryEntry_of_handler {s : State} {core slot : Nat} {g : Group} (hs : slot < 128) (hg : s.group? core slot = some g)
    (hh : g.fe.handler = true) : tryEntry s core slot = s.setGroup g := by
  have hn : g.nextSplit = none := by simp [Group.nextSplit, hh]
  have hset : g.settleNext = g := by simp [Group.settleNext, hn]
  have hent : g.entering = none := by simp [Group.entering, hn]
  unfold tryEntry
  simp only [hs, if_true, hg, hset, hent]

/-- Where a handler runs, the splits wait. -/
theorem formSplits_of_handler {s : State} {core slot : Nat} {g : Group} (a : At) {hits : List Hit} (hs : slot < 128)
    (hg : s.group? core slot = some g) (hne : hits ≠ []) (hh : g.fe.handler = true) (ha : a.next = false) :
    formSplits s g a hits = s.setGroup (g.parkSplits a hits) := by
  obtain ⟨hcore, hslot⟩ := State.group?_core hg
  have hpark := State.group?_setGroup_of hg (g.parkSplits a hits)
  unfold formSplits
  rw [if_neg hne]
  simp only [ha, Bool.false_eq_true, if_false]
  rw [hcore, hslot]
  refine (tryEntry_of_handler hs hpark hh).trans ?_
  exact State.setGroup_setGroup _ rfl rfl

theorem raise_of_handler {s : State} {core slot : Nat} {g : Group} {t : Team} (a : At) {hits : List Hit} (hs : slot < 128)
    (hg : s.group? core slot = some g) (ht : s.team? g.team = some t) (hne : hits ≠ []) (hb : ∀ h ∈ hits, h.lane < 64)
    (hout : ∀ h ∈ hits, (g.lane h.lane).spec = none ∧ (g.lane h.lane).handler = false) (hh : g.fe.handler = true) (ha : a.next = false) :
    raise s core slot a hits = s.setGroup ((g.reported (byLane hits)).parkSplits a (byLane hits)) := by
  have hall (h : Hit) (hm : h ∈ byLane hits) : (g.lane h.lane).spec = none ∧ (g.lane h.lane).handler = false :=
    hout h ((mem_byLane hits h).mp hm).1
  have hne2 : byLane hits ≠ [] := by
    obtain ⟨h, hm⟩ := List.exists_mem_of_ne_nil hits hne
    exact List.ne_nil_of_mem ((mem_byLane hits h).mpr ⟨hm, hb h hm⟩)
  have hspec : (byLane hits).filter (fun h => (g.lane h.lane).spec.isSome) = [] :=
    List.filter_eq_nil_iff.mpr fun h hm => by simp [(hall h hm).1]
  have hin : (byLane hits).filter (fun h => (g.lane h.lane).spec.isNone && (g.lane h.lane).handler) = [] :=
    List.filter_eq_nil_iff.mpr fun h hm => by simp [(hall h hm).2]
  have hrest : (byLane hits).filter (fun h => (g.lane h.lane).spec.isNone && !(g.lane h.lane).handler) = byLane hits :=
    List.filter_eq_self.mpr fun h hm => by simp [hall h hm]
  have hrep (i : Nat) : (g.reported (byLane hits)).lane i = g.lane i := rfl
  have hg1 := State.group?_setGroup_of hg (g.reported (byLane hits))
  unfold raise
  rw [if_neg hne]
  simp only [hg, ht, hrep, hspec, hin, hrest, Group.defer, List.foldl_nil, vectorsOf]
  rw [formSplits_of_handler a hs hg1 hne2 hh ha]
  exact State.setGroup_setGroup _ rfl rfl

/-! ### Words that no lane performs (R50, R55) -/

section
variable {b : Bundle} (hw : b.Whole) {x : Ix} (hx : x.b = b) (s : State)
include hw hx

theorem lastPart_whole : lastPart x s = s := by rw [lastPart, hx, hw.op]

theorem raiseUnit_whole (wide : Bool) (hits : List Hit) : raiseUnit x wide hits s = raise s x.core x.slot (x.at wide) hits := by
  rw [raiseUnit, hx, hw.more, hw.hits]
  rfl

theorem endUnit_of_whole : endUnit x s = afterUnit s x.core x.slot x.at b.lanes := by rw [endUnit_whole (hx ▸ hw), hx]

end

section
variable {i : LInstr} {w : Word} {s : State} {b : Bundle} {g : Group} {t : Team} {n : Nat} (legal : Team → Bool → Bool → Option Nat)
  {body : Ix → State → State} {uses : Use} {r : Bool} (hi : Issues s b g t) (hw : b.Whole)
include hi hw

/-- An illegal L-set word traps its active lanes. -/
theorem lsetAs_illegal (ha : g.activeOf b n ≠ 0) {k : Nat} (hk : legal t false g.fe.handler = some k)
    (room : ∀ k, i.use.tok = some k → g.fe.room k = true) : lsetAs i w legal s body n uses r =
      let x : Ix := { b := b, core := b.core, slot := b.slot, t := t, act := g.activeOf b n, word := w
                      h := (b.lanes &&& g.members true) ≠ 0, pfx := b.pfx }
      .next (unitEnd b x (raise (s.issued b g n) b.core b.slot { unit := b.unit, word := w, pfx := b.pfx }
        ((lanesIn (g.activeOf b n)).map (fun j => { lane := j, vec := 0, cause := k })))) := by
  unfold lsetAs
  simp only [hi.head, hi.slot, if_true, hi.group, hi.team]
  unfold Group.activeOf Group.issued at ha ⊢
  refine (if_neg ?_).trans ?_
  · cases hu : i.use.tok with
    | none => simp
    | some k => simp [room k hu]
  · simp only [ha, if_false, hk, lastPart_whole hw, raiseUnit_whole hw, endUnit_of_whole hw]
    rfl

/-- An L-set word that no lane is active in. -/
theorem lsetAs_inactive (ha : g.activeOf b n = 0) : lsetAs i w legal s body n uses r =
      let x : Ix := { b := b, core := b.core, slot := b.slot, t := t, act := g.activeOf b n, word := w
                      h := (b.lanes &&& g.members true) ≠ 0, pfx := b.pfx }
      .next (unitEnd b x (s.issued b g n)) := by
  unfold lsetAs
  simp only [hi.head, hi.slot, if_true, hi.group, hi.team]
  unfold Group.activeOf Group.issued at ha ⊢
  simp only [ha, ne_eq, not_true_eq_false, decide_false, Bool.false_and, Bool.false_eq_true, if_false, if_true, lastPart_whole hw,
    raiseUnit_whole hw, endUnit_of_whole hw]
  rfl

end

section
variable {i : UInstr} {w : Word} {s : State} {b : Bundle} {g : Group} {t : Team} (legal : Team → Bool → Bool → Option Nat)
  {body : Ix → State → State} (hi : Issues s b g t)
include hi

/-- The lanes of a bundle wait at a U-set word until every live lane stands there (R67). -/
theorem usetAs_waits (hf : (g.arrived b).fullAt (decide ((b.lanes &&& g.members true) ≠ 0)) ≠ some b.unit) :
    usetAs i w legal s body = .next (settleJoins (s.pop.setGroup (g.arrived b)) b.core b.slot) := by
  unfold usetAs
  simp only [hi.head, hi.slot, if_true, hi.group, hi.team]
  exact if_neg hf

/-- An illegal U-set word traps every lane that its join gathers. -/
theorem usetAs_illegal (hf : (g.arrived b).fullAt (decide ((b.lanes &&& g.members true) ≠ 0)) = some b.unit) {k : Nat}
    (hk : legal t false (decide ((b.lanes &&& g.members true) ≠ 0)) = some k) (room : ∀ k, i.use.tok = some k → g.fe.room k = true) :
    usetAs i w legal s body =
      let h := decide ((b.lanes &&& g.members true) ≠ 0)
      let ms := (g.arrived b).members h
      let x : Ix := { b := b, core := b.core, slot := b.slot, t := t, act := ms, word := w, h := h, pfx := b.pfx }
      .next (uEnd x (raise (s.pop.setGroup (leaveJoin (g.arrived b) ms (b.pos + 4))) b.core b.slot
        { unit := b.unit, word := w, pfx := b.pfx, wide := true } ((lanesIn ms).map (fun j => { lane := j, vec := 0, cause := k })))) := by
  unfold usetAs
  simp only [hi.head, hi.slot, if_true, hi.group, hi.team]
  refine (if_pos hf).trans ?_
  unfold runGathered
  dsimp only
  rw [if_neg, State.setGroup_setGroup _ (by rfl) (by rfl), hk]
  · simp only [trapUnit, raiseAll, hi.slot, if_true]
    rfl
  · cases hu : i.use.tok with
    | none => simp
    | some k =>
      have hk : (g.arrived b).fe.room k = true := Group.arrived_fe g b ▸ room k hu
      exact fun h : (!(g.arrived b).fe.room k) = true => by simp [hk] at h

end

/-- An illegal U-set word traps the lantern (R35). -/
theorem usetAs_illegal_lantern {i : UInstr} {w : Word} {s : State} {b : Bundle} {l : Lantern} {t : Team} {legal : Team → Bool → Bool → Option Nat}
    {body : Ix → State → State} (hb : s.bundle? = some b) (hs : ¬ b.slot < 128) (hl : s.lantern? b.core b.slot = some l)
    (ht : s.teamOf b.core b.slot = some t) {k : Nat} (hk : legal t true l.fe.handler = some k)
    (room : ∀ k, i.use.tok = some k → l.fe.room k = true) :
    usetAs i w legal s body = .next (raiseLantern (s.pop.setLantern { l.count with pc := b.pos + 4 }) b.core b.slot
        { unit := b.unit, word := w, pfx := b.pfx, wide := true } 0 k 0) := by
  unfold usetAs
  simp only [hb, hs, if_false, hl, ht]
  refine (if_neg ?_).trans ?_
  · cases hu : i.use.tok with
    | none => simp
    | some k => simp [room k hu]
  · simp only [hk, trapUnit, raiseAll, hs, if_false]
    rfl

end Sys2Proof.Machine

open Sys2Proof Sys2Proof.Machine

namespace Sys2Proof.Claims

theorem illegalLaneWordsTrap_holds : IllegalLaneWordsTrap := by
  intro w c k s b g t hi hw hl ha hc x
  have hcore : (s.bundle?.map (·.core)).getD 0 = b.core := by rw [hi.head]; rfl
  unfold illegalWord
  rw [hcore, if_pos hl]
  exact lsetAs_illegal (fun t lan h => some ((causeOf w t b.core lan h).getD c)) hi hw ha (by rw [hc]; rfl) (fun _ h => by cases h)

theorem illegalUnitWordsTrap_holds : IllegalUnitWordsTrap := by
  intro w c s b g t hi hl h g1
  have hcore : (s.bundle?.map (·.core)).getD 0 = b.core := by rw [hi.head]; rfl
  unfold illegalWord
  rw [hcore, if_neg (ne_true_of_eq_false hl)]
  exact ⟨fun k hf hc => usetAs_illegal (fun t lan h => some ((causeOf w t b.core lan h).getD c)) hi hf (by rw [hc]; rfl) (fun _ h => by cases h),
    fun hf => usetAs_waits (fun t lan h => some ((causeOf w t b.core lan h).getD c)) hi hf⟩

theorem illegalLanternWordsTrap_holds : IllegalLanternWordsTrap := by
  intro w c k s b l t hb hs hl ht hc
  have hcore : (s.bundle?.map (·.core)).getD 0 = b.core := by rw [hb]; rfl
  unfold illegalWord
  rw [hcore]
  refine ⟨fun hw => ?_, fun hw => ?_⟩
  · rw [if_pos hw]
    unfold lsetAs
    simp only [hb, hs, if_false, hl, ht, hc, Option.getD_some]
  · rw [if_neg (ne_true_of_eq_false hw)]
    exact usetAs_illegal_lantern hb hs hl ht (by rw [hc]; rfl) (fun _ h => by cases h)

theorem inactiveWordsPass_holds : InactiveWordsPass := by
  intro i s b g t hr hi hw ha
  obtain ⟨f, he, -⟩ := aluWord_of_registerWord hr s
  rw [he]
  unfold alu lset
  exact lsetAs_inactive _ hi hw ha

theorem splitsForm_holds : SplitsForm := by
  intro s core slot g t a hits hs hg ht hne hb hout hh ha
  have hb64 (h : Hit) (hm : h ∈ hits) := (hb h hm).2
  have hset (j : Nat) : (laneSet ((byLane hits).map (·.lane))).getLsbD j = decide (∃ k ∈ hits, k.lane = j ∧ j < 64) := by
    rw [getLsbD_laneSet, decide_eq_decide, List.mem_map]
    constructor
    · rintro ⟨hj, k, hm, rfl⟩
      exact ⟨k, ((mem_byLane hits k).mp hm).1, rfl, hj⟩
    · rintro ⟨k, hm, rfl, hj⟩
      exact ⟨hj, k, (mem_byLane hits k).mpr ⟨hm, hj⟩, rfl⟩
  refine ⟨_, splitsOf a a.unit g.fe.sq.length g.fe.opsOf (g.dbgc.getLsbD 1) (byLane hits),
    raise_of_handler a hs hg ht hne hb64 hout hh ha, rfl, ?_, fun v => ?_, fun x hx => ?_, fun hr => ?_, fun k hk => ?_, fun j hj => ?_, rfl⟩
  · rw [splitsOf_vectors]
    exact vectorsOf_sorted _
  · rw [splitsOf_vectors, mem_vectorsOf]
    exact exists_congr fun k => and_congr_left' ((mem_byLane hits k).trans (and_iff_left_of_imp (hb64 k)))
  · obtain ⟨v, hv, rfl⟩ := List.mem_map.mp hx
    obtain ⟨k, hk, rfl⟩ := (mem_vectorsOf _ v).mp hv
    dsimp only
    rw [byLane_of_vector]
    generalize hmine : (List.range 64).flatMap (fun j => hits.filter (fun h => h.lane = j ∧ h.vec = k.vec)) = mine
    have hmem : k ∈ mine := by
      rw [← hmine, ← byLane_of_vector]
      exact List.mem_filter.mpr ⟨hk, decide_eq_true rfl⟩
    refine ⟨rfl, rfl, rfl, rfl, rfl, rfl, ?_, rfl, codeFor_eq a mine⟩
    cases mine with
    | nil => cases hmem
    | cons h hs => rfl
  · have hn : (byLane hits).filterMap (·.report) = [] :=
      List.filterMap_eq_nil_iff.mpr fun k hk => hr k ((mem_byLane hits k).mp hk).1
    exact congrArg (List.foldl _ g.poison) hn
  · have hl : ((g.reported (byLane hits)).parkSplits a (byLane hits)).lane k.lane = _ :=
      Group.lane_upd (g.reported (byLane hits)) _ _ k.lane (hb k hk).1
    rw [hl, hset, if_pos (decide_eq_true ⟨k, hk, rfl, hb64 k hk⟩)]
    exact ⟨rfl, rfl⟩
  · refine Group.lane_upd_other (g.reported (byLane hits)) _ _ j ?_
    rw [hset]
    exact decide_eq_false fun ⟨k, hk, e, _⟩ => hj k hk e

end Sys2Proof.Claims
/-- Settles O43: the frames of illegal words and of words without an active lane, and the splits that `raise` forms. -/
theorem failedChecks : Obligations.FailedChecks := by
  unfold Obligations.FailedChecks
  exact ⟨Claims.illegalLaneWordsTrap_holds, Claims.illegalUnitWordsTrap_holds, Claims.illegalLanternWordsTrap_holds,
    Claims.inactiveWordsPass_holds, Claims.splitsForm_holds⟩

end

section
/-! What the register words and the scalar words leave as it was (R28, R80, R88, R118). -/

namespace Sys2Proof.Machine

open Sys2Proof.Claims

/-! ### States that agree but in one slot -/

theorem SameBut.byte {core slot : Nat} {s u : State} (h : SameBut core slot s u) (a : Nat) : u.byte a = s.byte a := by
  rw [State.byte, State.byte, h.care, h.mem]

theorem State.sameBut_setGroup (s : State) {core slot : Nat} {g : Group} (hc : g.core = core) (hs : g.slot = slot) :
    SameBut core slot s (s.pop.setGroup g) where
  plat := rfl
  care := rfl
  mem := rfl
  poison := rfl
  absent := rfl
  ctxs := rfl
  tasks := rfl
  teams := rfl
  groups := fun _ _ h => State.group?_setGroup_other (fun e => h ⟨e.1.symm.trans hc, e.2.symm.trans hs⟩)
  lanterns := fun _ _ _ => rfl
  outb := rfl
  stale := rfl
  agents := rfl
  locks := rfl
  journal := rfl
  hostq := rfl
  outbox := rfl
  fabric := rfl

theorem State.lantern?_setLantern_other {s : State} {core slot : Nat} {l : Lantern} (h : ¬(l.core = core ∧ l.slot = slot)) :
    (s.setLantern l).lantern? core slot = s.lantern? core slot := by
  have := find_kept (l := s.lanterns) (p := fun x : Lantern => decide (x.core = core) && decide (x.slot = slot))
    (q := fun x : Lantern => decide (x.core = l.core ∧ x.slot = l.slot)) (a := l)
    (fun x hx => by
      obtain ⟨hc, hs⟩ : x.core = core ∧ x.slot = slot := by simpa using hx
      simp only [decide_eq_false_iff_not]
      exact fun hh => h ⟨hh.1 ▸ hc, hh.2 ▸ hs⟩) (by simpa using h)
  simpa [State.lantern?, State.setLantern] using this

theorem State.sameBut_setLantern (s : State) {core slot : Nat} {l : Lantern} (hc : l.core = core) (hs : l.slot = slot) :
    SameBut core slot s (s.pop.setLantern l) where
  plat := rfl
  care := rfl
  mem := rfl
  poison := rfl
  absent := rfl
  ctxs := rfl
  tasks := rfl
  teams := rfl
  groups := fun _ _ _ => rfl
  lanterns := fun _ _ h => State.lantern?_setLantern_other (fun e => h ⟨e.1.symm.trans hc, e.2.symm.trans hs⟩)
  outb := rfl
  stale := rfl
  agents := rfl
  locks := rfl
  journal := rfl
  hostq := rfl
  outbox := rfl
  fabric := rfl

/-- Without SSTEP nothing follows a unit (R315). -/
theorem afterUnit_of_noStep {s : State} {core slot : Nat} {g : Group} (a : At) (set : LaneSet) (hg : s.group? core slot = some g)
    (hd : g.dbgc.getLsbD 0 = false) : afterUnit s core slot a set = s := by
  simp only [afterUnit, hg, hd, Bool.false_eq_true, if_false]

/-! ### What a lane keeps as it passes a word -/

section
variable {α : Type} {f : Lane → α} (hv : ∀ l v, f { l with v := v } = f l) (hq : ∀ l p, f { l with p := p } = f l)
  (hs : ∀ l sp, f { l with spec := sp } = f l)
include hv hq

theorem Lane.put_keeps (l : Lane) (d : Dest) (x : DWord) : f (l.put d x) = f l := by
  cases d with
  | v r => exact hv l _
  | p r =>
    simp only [Lane.put]
    split
    · rfl
    · exact hq l _
  | s r => rfl

include hs

theorem Lane.landOne_keeps (l : Lane) (d : Dest) (x : DWord) (unit : Nat) : f (l.landOne d x unit) = f l := by
  unfold Lane.landOne
  split
  · exact Lane.put_keeps hv hq l d x
  · split
    · exact (hs _ _).trans (Lane.put_keeps hv hq l d x)
    · exact (hs _ _).trans (Lane.put_keeps hv hq l d x)

theorem landDue_keeps (hp : ∀ l ps, f { l with pend := ps } = f l) (ps kept : List Pend) (l : Lane) : f (landDue ps kept l) = f l := by
  induction ps generalizing kept l with
  | nil => exact hp l kept
  | cons p ps ih =>
    unfold landDue
    split
    · refine (ih _ _).trans ((Lane.landOne_keeps hv hq hs _ _ _ _).trans ?_)
      generalize kept.filter (fun k => k.dst = p.dst) = ks
      induction ks generalizing l with
      | nil => rfl
      | cons k ks ihk => exact (ihk _).trans (Lane.landOne_keeps hv hq hs _ _ _ _)
    · exact ih _ _

/-- What is none of the fields that a lane's instructions change stays as the lane passes a word. -/
theorem Lane.pass_keeps (hp : ∀ l ps, f { l with pend := ps } = f l) (ho : ∀ l os, f { l with olds := os } = f l)
    (hc : ∀ l pc w, f { l with pc := pc, waited := w } = f l) (l : Lane) (n : Nat) (pc : Addr) : f (l.pass n pc) = f l := by
  have ht : f (l.tick n) = f l := (ho _ _).trans (landDue_keeps hv hq hs hp _ _ _)
  exact (hs { (l.tick n) with pc := pc, waited := false } _).trans ((hc _ _ _).trans ht)

end

/-! ### What a fixed-latency word leaves -/

/-- The results of the tables of R120 to R124 go to the word's destination registers. -/
theorem floatResult_within {i : LInstr} {lat : Nat} {f : Group → Lane → LaneOut} (h : floatResult i = some (lat, f)) (g : Group) (l : Lane) :
    ∀ w ∈ (f g l).writes, w.1 ∈ destinations i := by
  unfold floatResult at h
  split at h <;> cases h
  · exact wp_within (List.Mem.head _)
  · exact wp_within (List.Mem.head _)
  · exact w32_within (List.Mem.head _)
  · exact w32_within (List.Mem.head _)
  · exact w32_within (List.Mem.head _)
  · exact w32_within (List.Mem.head _)
  · exact w32_within (List.Mem.head _)
  · exact w32_within (List.Mem.head _)
  · exact w32_within (List.Mem.head _)
  · exact w32_within (List.Mem.head _)
  · exact w32_within (List.Mem.head _)
  · exact w32_within (List.Mem.head _)
  · exact w32_within (List.Mem.head _)
  · exact w32_within (List.Mem.head _)
  · exact w64_within (List.Mem.head _) (List.Mem.tail _ (List.Mem.head _))
  · exact w64_within (List.Mem.head _) (List.Mem.tail _ (List.Mem.head _))
  · exact w64_within (List.Mem.head _) (List.Mem.tail _ (List.Mem.head _))
  · exact w64_within (List.Mem.head _) (List.Mem.tail _ (List.Mem.head _))
  · exact w64_within (List.Mem.head _) (List.Mem.tail _ (List.Mem.head _))
  · exact w64_within (List.Mem.head _) (List.Mem.tail _ (List.Mem.head _))
  · exact w64_within (List.Mem.head _) (List.Mem.tail _ (List.Mem.head _))
  · exact w64_within (List.Mem.head _) (List.Mem.tail _ (List.Mem.head _))
  · exact w64_within (List.Mem.head _) (List.Mem.tail _ (List.Mem.head _))
  · exact w64_within (List.Mem.head _) (List.Mem.tail _ (List.Mem.head _))
  · exact w64_within (List.Mem.head _) (List.Mem.tail _ (List.Mem.head _))
  · exact w32_within (List.Mem.head _)
  · exact w32_within (List.Mem.head _)
  · exact w32_within (List.Mem.head _)
  · exact w32_within (List.Mem.head _)
  · exact w32_within (List.Mem.head _)
  · exact w32_within (List.Mem.head _)
  · exact w32_within (List.Mem.head _)
  · exact w32_within (List.Mem.head _)
  · exact w32_within (List.Mem.head _)
  · exact w32_within (List.Mem.head _)

/-- The sticky flags are the only bits of FPC that a word's flags change (R18). -/
theorem orFlags_masked (w : Word) (f : BitVec 5) : orFlags w f &&& 0xFFFFFF83 = w &&& 0xFFFFFF83 := by
  have hf : f.setWidth 32 <<< 2 &&& (0xFFFFFF83 : Word) = 0 := by
    revert f
    decide
  rw [orFlags, BitVec.and_comm, BitVec.and_or_distrib_left, BitVec.and_comm _ w, BitVec.and_comm _ (f.setWidth 32 <<< 2), hf]
  exact BitVec.or_zero

theorem Group.fpcAfter_masked (g : Group) (ls : List Nat) (out : Nat → LaneOut) : g.fpcAfter ls out &&& 0xFFFFFF83 = g.fpc &&& 0xFFFFFF83 := by
  have h (w : Word) : (ls.foldl (fun w j => if (g.lane j).spec.isSome || (g.lane j).olds.any (fun o => o.reg = .fpc) then w
      else orFlags w (out j).flags) w) &&& 0xFFFFFF83 = w &&& 0xFFFFFF83 := by
    induction ls generalizing w with
    | nil => rfl
    | cons j ls ih =>
      rw [List.foldl_cons, ih]
      split
      · rfl
      · exact orFlags_masked w _
  exact h g.fpc

/-- A lane of the bundle once the word has its results: it has passed the word and gained the writes of its results alone. -/
theorem Group.results_lane {g : Group} {b : Bundle} {j : Nat} (act : LaneSet) (lat : Nat) (out : Nat → LaneOut) (hj : j < g.lanes.length)
    (hb : b.lanes.getLsbD j = true) : ∃ sp new, ((g.issued b 1).results act lat out).lane j =
      { ((g.lane j).pass 1 (b.pos + 4)) with spec := sp, pend := ((g.lane j).pass 1 (b.pos + 4)).pend ++ new } ∧
      ∀ p ∈ new, ∃ w ∈ (out j).writes, p.dst = w.1 := by
  have hpass : (g.issued b 1).lane j = (g.lane j).pass 1 (b.pos + 4) := by rw [Group.issued, Group.lane_upd _ _ _ _ hj, if_pos hb]
  have hl : ((g.issued b 1).results act lat out).lane j = if act.getLsbD j then ((g.issued b 1).lane j |>.addFlags (out j).flags).pendAll lat
      (out j).writes else (g.issued b 1).lane j := Group.lane_upd (g.issued b 1) _ _ j (by simpa using hj)
  rw [hl, hpass]
  split
  · refine ⟨_, _, rfl, fun p hp => ?_⟩
    obtain ⟨w, hw, rfl⟩ := List.mem_map.mp hp
    exact ⟨w, hw, rfl⟩
  · exact ⟨_, [], by rw [List.append_nil], fun _ hp => by cases hp⟩

/-- A word with fixed-latency results in the table's way, or a register word: its results, and where they go. -/
theorem exec_fixedLatency {i : LInstr} {s : State} {b : Bundle} {g : Group} {t : Team} (h : LReady i s b g t)
    (hi : registerWord i b.pfx ∨ ∃ lat f, floatResult i = some (lat, f) ∧ (g.issued b 1).quiet (g.activeOf b 1) (laneOuts i b g f)) :
    ∃ lat out, exec (Code.l i).instr s = .next (unitEnd b (Issues.ix i b g t 1)
        ((s.issued b g 1).setGroup ((g.issued b 1).results (g.activeOf b 1) lat out))) ∧
      (registerWord i b.pfx → ∀ j, (out j).flags = 0) ∧ ∀ j, ∀ w ∈ (out j).writes, w.1 ∈ destinations i := by
  by_cases hr : registerWord i b.pfx
  · obtain ⟨f, he, hf⟩ := aluWord_of_registerWord hr s
    refine ⟨4, laneOuts i b g f, he.trans (alu_ready h 4 f fun j _ => ?_), fun _ j => (hf _ _).1, fun j => (hf _ _).2⟩
    dsimp only
    rw [(hf _ _).1]
    exact BitVec.and_zero
  · obtain ⟨lat, f, hf, hq⟩ := hi.resolve_left hr
    exact ⟨lat, laneOuts i b g f, (exec_of_floatResult hf s).trans (alu_ready h lat f hq), fun h => absurd h hr, fun j => floatResult_within hf _ _⟩

/-! ### Words that compute one scalar -/

theorem scalarOp_of_bin64s {r : Host.Outcome State Fault Refusal} {i : UInstr} {d a b : SReg} {f : DWord → DWord → DWord} {s : State}
    (h : r = bin64s i d a b f s) : ∃ f, r = scalarOp i d f s := ⟨_, h⟩

theorem scalarOp_of_immScalar {r : Host.Outcome State Fault Refusal} {i : UInstr} {d a : SReg} {imm : BitVec 13} {f : DWord → DWord → DWord}
    {s : State} (h : r = immScalar i d a imm f s) : ∃ f, r = scalarOp i d f s := ⟨_, h⟩

/-- The frame of a word that computes one scalar from scalars. -/
theorem scalarOp_of_table {pfx : Option (BitVec 25)} {i : UInstr} {r : SReg × ((SReg → DWord) → DWord)} (h : scalarResult pfx i = some r)
    (s : State) : ∃ f, exec (Code.u i).instr s = scalarOp i r.1 f s := by
  unfold scalarResult at h
  split at h <;> cases h
  · exact scalarOp_of_bin64s (exec_sadd ..)
  · exact scalarOp_of_bin64s (exec_ssub ..)
  · exact scalarOp_of_bin64s (exec_smul ..)
  · exact scalarOp_of_bin64s (exec_smulh ..)
  · exact scalarOp_of_bin64s (exec_sand ..)
  · exact scalarOp_of_bin64s (exec_sor ..)
  · exact scalarOp_of_bin64s (exec_sxor ..)
  · exact scalarOp_of_bin64s (exec_sandn ..)
  · exact scalarOp_of_bin64s (exec_sshl ..)
  · exact scalarOp_of_bin64s (exec_sshr ..)
  · exact scalarOp_of_bin64s (exec_ssar ..)
  · exact scalarOp_of_bin64s (exec_smin ..)
  · exact scalarOp_of_bin64s (exec_smax ..)
  · exact scalarOp_of_bin64s (exec_sminz ..)
  · exact scalarOp_of_bin64s (exec_smaxz ..)
  · exact ⟨_, exec_smov ..⟩
  · exact scalarOp_of_immScalar (exec_saddi ..)
  · exact scalarOp_of_immScalar (exec_sandi ..)
  · exact scalarOp_of_immScalar (exec_sori ..)
  · exact ⟨_, exec_sshli ..⟩
  · exact ⟨_, exec_sshri ..⟩
  · exact ⟨_, exec_ssari ..⟩
  · exact ⟨_, exec_smovi ..⟩
  · exact ⟨_, exec_scmp ..⟩

/-- A group's scalar takes a value: every other scalar, and what the lanes hold and owe, stays (R29). -/
theorem Group.setScalar_frame (g : Group) (r : Nat) (v : DWord) : ∃ ls fs,
    g.setScalar r v = { g with lanes := ls, fe := { g.fe with s := fs } } ∧
    (∀ q, q ≠ r → ({ g.fe with s := fs } : Front).sreg q = g.fe.sreg q) ∧
    ∀ j, (ls.getD j { live := false }).v = (g.lane j).v ∧ (ls.getD j { live := false }).p = (g.lane j).p ∧
      (ls.getD j { live := false }).pend = (g.lane j).pend ∧ (ls.getD j { live := false }).pc = (g.lane j).pc := by
  unfold Group.setScalar
  split
  · exact ⟨g.lanes, g.fe.s, rfl, fun _ _ => rfl, fun _ => ⟨rfl, rfl, rfl, rfl⟩⟩
  · refine ⟨_, _, rfl, fun q hq => ?_, fun j => ?_⟩
    · simp only [Front.sreg, List.getD_eq_getElem?_getD, List.getElem?_set_ne (Ne.symm hq)]
    · change ((g.upd g.liveLanes _).lane j).v = _ ∧ ((g.upd g.liveLanes _).lane j).p = _ ∧ ((g.upd g.liveLanes _).lane j).pend = _ ∧
        ((g.upd g.liveLanes _).lane j).pc = _
      cases hj : g.liveLanes.getLsbD j with
      | false => rw [Group.lane_upd_other _ _ _ _ hj]; exact ⟨rfl, rfl, rfl, rfl⟩
      | true =>
        have hlen : j < g.lanes.length := by
          rw [getLsbD_liveLanes] at hj
          simp_all
        rw [Group.lane_upd _ _ _ _ hlen, if_pos hj]
        exact ⟨rfl, rfl, rfl, rfl⟩

theorem setSval_setGroup {s : State} {x : Ix} {g : Group} (hl : x.lan = false) (hg : (s.setGroup g).group? x.core x.slot = some g) (d : SReg)
    (v : DWord) : setSval (s.setGroup g) x d v = s.setGroup (g.setScalar d.toNat v) := by
  obtain ⟨ls, fs, he, -, -⟩ := g.setScalar_frame d.toNat v
  unfold setSval
  split
  next h0 => subst h0; rfl
  next =>
    simp only [hl, Bool.false_eq_true, if_false, hg, he]
    exact State.setGroup_setGroup _ rfl rfl

theorem Lantern.count_place (l : Lantern) : l.count.core = l.core ∧ l.count.slot = l.slot := by
  unfold Lantern.count
  split
  · exact ⟨rfl, rfl⟩
  · exact landLantern_place _ _ l

theorem setSval_setLantern {s : State} {x : Ix} {l : Lantern} (hl : x.lan = true) (hg : (s.setLantern l).lantern? x.core x.slot = some l)
    (d : SReg) (v : DWord) : ∃ new, setSval (s.setLantern l) x d v = s.setLantern { l with pend := l.pend ++ new } ∧
      ∀ p ∈ new, p.dst = .s d.toNat := by
  unfold setSval
  split
  · exact ⟨[], by rw [List.append_nil], fun _ hp => by cases hp⟩
  · refine ⟨[{ dst := .s d.toNat, val := v, left := 4 }], ?_, fun p hp => by rw [List.mem_singleton.mp hp]⟩
    rw [hg]
    exact State.setLantern_setLantern _ rfl rfl

/-- A word that computes one scalar writes it, and does nothing else (R88 to R92). -/
theorem exec_of_scalarWritten {i : UInstr} {s s1 : State} {x : Ix} {d : SReg} (h : UReady i s x s1) (hw : scalarWritten x.pfx i = some d)
    (hd : x.t.det = true → readsFixed i) : ∃ v, exec (Code.u i).instr s = .next (uEnd x (setSval s1 x d v)) := by
  unfold scalarWritten at hw
  split at hw
  case h_1 d n =>
    cases hw
    have hx : ¬ ((x.t.det && detReg n.toNat) = true) := fun hb => by
      obtain ⟨hdet, hreg⟩ := Bool.and_eq_true_iff.mp hb
      obtain ⟨h3, h4, hlow⟩ : n.toNat ≠ 3 ∧ n.toNat ≠ 4 ∧ n.toNat < 13 := hd hdet
      simp only [detReg, h3, h4, decide_false, Bool.false_or, Bool.and_eq_true, decide_eq_true_eq] at hreg
      omega
    rw [exec_getc, execGetc, uset_ready h, if_neg hx]
    exact ⟨_, rfl⟩
  case h_2 =>
    cases hw
    rw [exec_vread, execVread, uset_ready h]
    exact ⟨_, rfl⟩
  case h_3 =>
    cases hw
    rw [exec_mread, execMread, uset_ready h]
    exact ⟨_, rfl⟩
  case h_4 =>
    cases hw
    rw [exec_pread, execPread, uset_ready h]
    exact ⟨_, rfl⟩
  case h_5 =>
    cases hw
    have hx : ¬ x.t.det = true := hd
    rw [exec_kread, execKread, uset_ready h, if_neg hx]
    exact ⟨_, rfl⟩
  case h_6 =>
    obtain ⟨r, hr, rfl⟩ := Option.map_eq_some_iff.mp hw
    obtain ⟨f, he⟩ := scalarOp_of_table hr s
    rw [he, scalarOp, uset_ready h]
    exact ⟨_, rfl⟩

end Sys2Proof.Machine

open Sys2Proof Sys2Proof.Machine

namespace Sys2Proof.Claims

theorem registerWordFrame_holds : RegisterWordFrame := by
  intro i s b g t h hd hi
  obtain ⟨lat, out, he, hflags, hdst⟩ := exec_fixedLatency h hi
  have hg := State.issued_group h.toIssues 1
  have hg1 := State.group?_setGroup_of hg ((g.issued b 1).results (g.activeOf b 1) lat out)
  rw [unitEnd, afterUnit_of_noStep _ _ hg1 hd] at he
  obtain ⟨hc, hs⟩ := State.group?_core h.group
  have hframe : SameBut b.core b.slot s ((s.issued b g 1).setGroup ((g.issued b 1).results (g.activeOf b 1) lat out)) := by
    rw [State.issued, State.setGroup_setGroup _ (by rfl) (by rfl)]
    exact s.sameBut_setGroup hc hs
  refine ⟨_, _, he, hframe, hframe.byte, hg1, rfl, rfl, rfl, rfl, rfl, rfl, rfl, rfl, rfl, fun hr => ?_, ?_, fun j hj => ?_, fun j hj h64 hb => ?_⟩
  · rw [Group.results_plain _ _ _ _ (hflags hr)]
    rfl
  · exact Group.fpcAfter_masked _ _ _
  · have hact : (g.activeOf b 1).getLsbD j = false := Bool.eq_false_iff.mpr fun ha => by rw [activeOf_subset g b ha] at hj; cases hj
    exact (Group.lane_upd_other (g.issued b 1) _ _ j hact).trans (Group.lane_upd_other g _ _ j hj)
  · obtain ⟨sp, new, hl, hnew⟩ := Group.results_lane (g.activeOf b 1) lat out hj hb
    rw [hl]
    refine ⟨rfl, rfl, rfl, ?_, ?_, ?_, new, rfl, fun p hp => ?_⟩
    · exact Lane.pass_keeps (f := (·.slice)) (fun _ _ => rfl) (fun _ _ => rfl) (fun _ _ => rfl) (fun _ _ => rfl) (fun _ _ => rfl) (fun _ _ _ => rfl) (g.lane j) 1 (b.pos + 4)
    · exact Lane.pass_keeps (f := (·.draws)) (fun _ _ => rfl) (fun _ _ => rfl) (fun _ _ => rfl) (fun _ _ => rfl) (fun _ _ => rfl) (fun _ _ _ => rfl) (g.lane j) 1 (b.pos + 4)
    · exact Lane.pass_keeps (f := (·.live)) (fun _ _ => rfl) (fun _ _ => rfl) (fun _ _ => rfl) (fun _ _ => rfl) (fun _ _ => rfl) (fun _ _ _ => rfl) (g.lane j) 1 (b.pos + 4)
    · obtain ⟨w, hw, e⟩ := hnew p hp
      exact e ▸ hdst j w hw

theorem scalarWordFrame_holds : ScalarWordFrame := by
  intro i s s1 x d h hw hd
  obtain ⟨v, he⟩ := exec_of_scalarWritten h hw hd
  rw [he]
  cases h with
  | group b g t h iss split full room legal waited =>
    refine ⟨fun _ hdbg => ?_, fun hl => by cases hl⟩
    dsimp only at hdbg ⊢
    have hcs : (g.arrived b).core = b.core ∧ (g.arrived b).slot = b.slot := by
      rw [Group.arrived_core, Group.arrived_slot]
      exact State.group?_core iss.group
    have hg1 : (s.pop.setGroup (leaveJoin (g.arrived b) ((g.arrived b).members h) (b.pos + 4))).group? b.core b.slot = some _ :=
      State.group?_setGroup (g0 := g) iss.group hcs.1 hcs.2
    generalize hL : leaveJoin (g.arrived b) ((g.arrived b).members h) (b.pos + 4) = L at hg1 hdbg ⊢
    obtain ⟨hLc, hLs⟩ : L.core = b.core ∧ L.slot = b.slot := hL ▸ hcs
    obtain ⟨ls, fs, hset, hscalars, hlanes⟩ := L.setScalar_frame d.toNat v
    have hg2 := State.group?_setGroup (s := s.pop) (g := L.setScalar d.toNat v) (g0 := g) iss.group (by rw [hset]; exact hLc)
      (by rw [hset]; exact hLs)
    have hframe : SameBut b.core b.slot s (s.pop.setGroup (L.setScalar d.toNat v)) := s.sameBut_setGroup (by rw [hset]; exact hLc)
      (by rw [hset]; exact hLs)
    rw [uEnd, if_neg Bool.false_ne_true, setSval_setGroup rfl hg1, afterUnit_of_noStep _ _ hg2 (by rw [hset]; exact hdbg L hg1)]
    refine ⟨_, rfl, hframe, hframe.byte, fun g' h' hg' hh' => ?_⟩
    rw [hg1, Option.some.injEq] at hg'
    rw [hg2, Option.some.injEq] at hh'
    subst hg' hh'
    rw [hset]
    exact ⟨rfl, rfl, rfl, rfl, rfl, rfl, rfl, rfl, rfl, hscalars, hlanes⟩
  | lantern b l t head slot found team room legal =>
    refine ⟨fun hl => (by cases hl), fun _ => ?_⟩
    obtain ⟨hc, hs⟩ := State.lantern?_core found
    have hlc : l.count.core = b.core := l.count_place.1.trans hc
    have hls : l.count.slot = b.slot := l.count_place.2.trans hs
    have hl1 : (s.pop.setLantern { l.count with pc := b.pos + 4 }).lantern? b.core b.slot = some _ :=
      State.lantern?_setLantern (l0 := l) found hlc hls
    obtain ⟨new, hset, hnew⟩ := setSval_setLantern
      (x := { b := b, core := b.core, slot := b.slot, t := t, act := 0, word := i.encode, h := l.fe.handler, lan := true, pfx := b.pfx }) rfl hl1 d v
    have hl2 : (s.pop.setLantern { l.count with pc := b.pos + 4, pend := l.count.pend ++ new }).lantern? b.core b.slot = some _ :=
      State.lantern?_setLantern (l0 := l) found hlc hls
    have hframe : SameBut b.core b.slot s (s.pop.setLantern { l.count with pc := b.pos + 4, pend := l.count.pend ++ new }) :=
      s.sameBut_setLantern hlc hls
    rw [uEnd, if_pos rfl, hset]
    refine ⟨_, rfl, hframe, hframe.byte, fun l' h' hl' hh' => ?_⟩
    rw [hl1, Option.some.injEq] at hl'
    rw [hl2, Option.some.injEq] at hh'
    subst hl' hh'
    exact ⟨new, rfl, hnew⟩

end Sys2Proof.Claims

/-- Settles O40: the state after such a word, written out, and what it shares with the state before. -/
theorem registerFrames : Obligations.RegisterFrames := by
  unfold Obligations.RegisterFrames
  exact ⟨Claims.registerWordFrame_holds, Claims.scalarWordFrame_holds⟩

end

section
/-! The decision queue, and the barriers of a team (R36, R237, R238). -/

namespace Sys2Proof.Machine

open Sys2Proof.Claims

/-! ### What leaves a state's teams as they were -/

theorem State.write1_eq (s : State) (loc : Nat) (bs : List Byte) :
    ∃ m p ob, s.write1 loc bs = { s with mem := m, poison := p, outbox := ob } := by
  unfold State.write1
  dsimp only
  split
  · exact ⟨_, _, _, rfl⟩
  · split
    · split
      · unfold State.dataLoss
        split <;> exact ⟨_, _, _, rfl⟩
      · exact ⟨_, _, _, rfl⟩
    · exact ⟨_, _, _, rfl⟩

/-- A store changes the bytes, their poison, and what the host is told (R250). -/
theorem State.store_eq (s : State) (loc : Nat) (bs : List Byte) :
    ∃ m p ob, s.store loc bs = { s with mem := m, poison := p, outbox := ob } := by
  unfold State.store
  generalize cut (unitSize loc) (bs.length + 1) loc bs = ps
  induction ps generalizing s with
  | nil => exact ⟨_, _, _, rfl⟩
  | cons q ps ih =>
    obtain ⟨m, p, ob, h⟩ := s.write1_eq q.1 q.2
    obtain ⟨m2, p2, ob2, h2⟩ := ih (s.write1 q.1 q.2)
    exact ⟨m2, p2, ob2, by rw [List.foldl_cons, h2, h]⟩

theorem sqLeave_teams (s : State) (core slot : Nat) : (sqLeave s core slot).teams = s.teams := by
  unfold sqLeave
  split
  · rfl
  · split
    · rfl
    next e rest _ =>
      have hstore (u : State) (hu : u.teams = s.teams) :
          (if isScratch e.loc then u.store e.loc e.bytes else { u with outb := u.outb ++ [{ core := core, entry := e }] }).teams = s.teams := by
        split
        · obtain ⟨m, p, ob, h⟩ := u.store_eq e.loc e.bytes
          rw [h]
          exact hu
        · exact hu
      refine hstore _ ?_
      split
      · split <;> simp
      · split <;> simp

theorem drainSq_teams (core slot n : Nat) (s : State) : (drainSq core slot n s).teams = s.teams := by
  induction n generalizing s with
  | zero => rfl
  | succ n ih => rw [drainSq, ih, sqLeave_teams]

theorem drainQueue_teams (s : State) (core slot : Nat) : (drainQueue s core slot).teams = s.teams := by
  unfold drainQueue
  split
  · exact drainSq_teams core slot _ s
  · rfl

theorem State.team?_setTeam {s : State} {id : Nat} {t0 t : Team} (h : s.team? id = some t0) (hi : t.id = id) :
    (s.setTeam t).team? id = some t := by
  subst hi
  have := find_replaced (q := fun x : Team => decide (x.id = t.id)) (a := t) h (fun x => rfl) (by simp)
  simpa [State.team?, State.setTeam] using this

theorem State.team?_id {s : State} {id : Nat} {t : Team} (h : s.team? id = some t) : t.id = id := by
  have := List.find?_some h
  simpa using this

theorem State.team?_of_teams {s u : State} (h : u.teams = s.teams) (id : Nat) : u.team? id = s.team? id := by
  rw [State.team?, State.team?, h]

theorem startOp_teams (s : State) (core slot : Nat) (op : LongOp) : (startOp s core slot op).teams = s.teams := by
  unfold startOp
  split <;> simp

theorem State.opDone_teams (s : State) (core slot id : Nat) : (s.opDone core slot id).teams = s.teams := by
  unfold State.opDone
  split <;> simp

theorem State.opResult_teams (s : State) (core slot id : Nat) (ws : List (Dest × DWord)) : (s.opResult core slot id ws).teams = s.teams := by
  unfold State.opResult
  split <;> simp

/-! ### The words (R238) -/

section
variable {s : State} {x : Ix} {a : SReg} {t : Team} (ht : s.team? x.t.id = some t)
include ht

theorem team?_drainQueue : (drainQueue s x.core x.slot).team? x.t.id = some t :=
  (State.team?_of_teams (drainQueue_teams s x.core x.slot) _).trans ht

/-- Without a token the value enters the queue, where it has room and no earlier push waits. -/
theorem pushBody_enters (hroom : t.dq.length < 16) (hheld : ∀ h ∈ t.held, h.push = false) :
    pushBody a 15 x s = (drainQueue s x.core x.slot).setTeam { t with dq := t.dq ++ [sval s x a] } := by
  have hany : t.held.any (·.push) = false := List.any_eq_false.mpr fun h hm => by simp [hheld h hm]
  have hr : release s x.core x.slot 1 = (drainQueue s x.core x.slot, true) := rfl
  have hin : (decide (t.dq.length < queueRoom) && !t.held.any (·.push)) = true := by
    rw [hany, decide_eq_true (show t.dq.length < queueRoom from hroom)]
    rfl
  simp only [pushBody, ht, hr, team?_drainQueue ht, ne_eq, not_true_eq_false, decide_false, Bool.false_and, Bool.false_eq_true, if_false, hin,
    if_true]

/-- Else the lantern waits with it. -/
theorem pushBody_waits (h : 16 ≤ t.dq.length ∨ ∃ h ∈ t.held, h.push = true) :
    pushBody a 15 x s = waitAtUnit (drainQueue s x.core x.slot) x .queue (.push (sval s x a)) := by
  have hr : release s x.core x.slot 1 = (drainQueue s x.core x.slot, true) := rfl
  have hout : ¬ (decide (t.dq.length < queueRoom) && !t.held.any (·.push)) = true := by
    rcases h with h | ⟨k, hm, hp⟩
    · simp [queueRoom, Nat.not_lt.mpr h]
    · simp [List.any_eq_true.mpr ⟨k, hm, hp⟩]
  simp only [pushBody, ht, hr, ne_eq, not_true_eq_false, decide_false, Bool.false_and, Bool.false_eq_true, if_false, hout]

/-- With a token the push is held. -/
theorem pushBody_held {k : Tok} (hk : k ≠ 15) (hroom : t.held.length < 32) : pushBody a k x s =
    (startOp (drainQueue s x.core x.slot) x.core x.slot
      { id := (drainQueue s x.core x.slot).ids, tok := k, inH := x.h, lanes := x.act, owed := true, scope := 1 }).setTeam
      { t with held := t.held ++ [{ push := true, slot := x.slot, core := x.core, sa := a, tok := k, op := (drainQueue s x.core x.slot).ids
                                    value := sval s x a }] } := by
  have hr : release s x.core x.slot 1 = (drainQueue s x.core x.slot, true) := rfl
  have hin : decide (heldRoom ≤ t.held.length) = false := decide_eq_false (Nat.not_le.mpr hroom)
  have hop (op : LongOp) : (startOp (drainQueue s x.core x.slot) x.core x.slot op).team? x.t.id = some t :=
    (State.team?_of_teams (startOp_teams _ _ _ _) _).trans (team?_drainQueue ht)
  simp only [pushBody, ht, hr, hin, Bool.and_false, Bool.false_eq_true, if_false, hk, ne_eq, not_false_eq_true, if_true, hop]

theorem popBody_waits : popBody a 15 x s = waitAtUnit s x .queue (.queue a) := by
  simp only [popBody, ht, ne_eq, not_true_eq_false, if_false]

theorem popBody_held {k : Tok} (hk : k ≠ 15) (hroom : t.held.length < 32) : popBody a k x s =
    (startOp s x.core x.slot
      { id := s.ids, tok := k, inH := x.h, lanes := x.act, owed := true, scope := 1, dst := if a = 0 then [] else [.s a.toNat] }).setTeam
      { t with held := t.held ++ [{ push := false, slot := x.slot, core := x.core, sa := a, tok := k, op := s.ids }] } := by
  have hop (op : LongOp) : (startOp s x.core x.slot op).team? x.t.id = some t := (State.team?_of_teams (startOp_teams _ _ _ _) _).trans ht
  have hin : ¬ heldRoom ≤ t.held.length := Nat.not_le.mpr hroom
  simp only [popBody, ht, hin, if_false, hk, ne_eq, not_false_eq_true, if_true, hop]

end

/-! ### Serving the queue (R36) -/

theorem popValue_of_cons {t : Team} {v : DWord} {rest : List DWord} (h : t.dq = v :: rest) : popValue t = some (v, rest) := by
  rw [popValue, h]

section
variable {s : State} {t : Team} (ht : s.team? t.id = some t)
include ht

theorem servePush_of_saving (h : s.saving t.ctx = true) : servePush s t.id = s := by
  simp only [servePush, ht, h, Bool.or_true, if_true]

theorem servePop_of_saving (h : s.saving t.ctx = true) : servePop s t.id = s := by
  simp only [servePop, ht, h, if_true]

theorem servePush_of_full (h : 16 ≤ t.dq.length) : servePush s t.id = s := by
  have hf : (decide (queueRoom ≤ t.dq.length) || s.saving t.ctx) = true := by simp [queueRoom, h]
  simp only [servePush, ht, hf, if_true]

theorem servePush_of_next (hs : s.saving t.ctx = false) (hroom : t.dq.length < 16) {v : DWord} {o : Option HeldOp}
    (hn : nextPush s t = some (v, o)) : servePush s t.id = match o with
      | some h => (s.setTeam { t with dq := t.dq ++ [v], held := dropHeld h t.held }).opDone h.core h.slot h.op
      | none => match s.lanterns.find? (fun l => l.team = t.id) with
        | some l => goOn (s.setTeam { t with dq := t.dq ++ [v] }) l.core l.slot
        | none => s.setTeam { t with dq := t.dq ++ [v] } := by
  have hf : (decide (queueRoom ≤ t.dq.length) || s.saving t.ctx) = false := by
    rw [hs, decide_eq_false (show ¬ queueRoom ≤ t.dq.length from Nat.not_le.mpr hroom)]
    rfl
  simp only [servePush, ht, hf, Bool.false_eq_true, if_false, hn]
  cases o <;> rfl

/-- A pop with a token takes its entry. -/
theorem servePop_held (hs : s.saving t.ctx = false) {c n : Nat} {a : SReg} {h : HeldOp} (hn : nextPop s t = some (c, n, a, some h))
    {v : DWord} {rest : List DWord} (hv : popValue t = some (v, rest)) :
    ∃ t1, (servePop s t.id).team? t.id = some t1 ∧ t1.dq = rest := by
  simp only [servePop, ht, hs, Bool.false_eq_true, if_false, hv, hn]
  refine ⟨_, (State.team?_of_teams (State.opResult_teams _ _ _ _ _) _).trans (State.team?_setTeam (t0 := t) ?_ rfl), rfl⟩
  obtain ⟨st, he⟩ := s.acquire_eq c 1
  rw [he]
  exact ht

end

/-! ### Barriers (R237) -/

/-- A barrier that every live group of the team waits at completes. -/
theorem finishBarrier_of_all {s : State} {team : Nat} (sc : Group → Nat) (hne : liveGroups s team ≠ [])
    (hw : ∀ g ∈ liveGroups s team, g.waiting = .barrier (sc g)) :
    finishBarrier s team = (liveGroups s team).foldl (fun s g => goOn (s.acquire g.core (sc g)) g.core g.slot) s := by
  have hall : (liveGroups s team).all (fun g => (waitsBarrier g.waiting).isSome) = true :=
    List.all_eq_true.mpr fun g hg => by rw [hw g hg]; rfl
  simp only [finishBarrier, hall, hne, ne_eq, not_false_eq_true, decide_true, Bool.and_true, if_true]
  apply List.foldl_ext
  intro u g hg
  rw [hw g hg]
  rfl

end Sys2Proof.Machine

open Sys2Proof Sys2Proof.Machine

namespace Sys2Proof.Claims

theorem queueWords_hold : QueueWords := by
  intro s s1 x a k t ht
  refine ⟨fun h hk => ?_, fun h hk hroom => ?_, fun h hk => ?_, fun h hk hroom => ?_⟩
  · subst hk
    rw [exec_dqpush, execDqpush, uset_ready h]
    exact ⟨fun ⟨hroom, hheld⟩ => by rw [pushBody_enters ht hroom hheld], fun hw => by rw [pushBody_waits ht hw]⟩
  · rw [exec_dqpush, execDqpush, uset_ready h, pushBody_held ht hk hroom]
  · subst hk
    rw [exec_dqpop, execDqpop, uset_ready h, popBody_waits ht]
  · rw [exec_dqpop, execDqpop, uset_ready h, popBody_held ht hk hroom]

theorem queueOrder_holds : QueueOrder := by
  intro s t ht
  refine ⟨fun h => ⟨servePush_of_saving ht h, servePop_of_saving ht h⟩, servePush_of_full ht, fun v h hs hroom hn => ?_,
    fun v l hs hroom hn hl => ?_, fun c n a h v rest hs hn hq => ?_, fun v rest hq => ?_, fun hq => ?_⟩
  · rw [servePush_of_next ht hs hroom hn]
    exact ⟨_, (State.team?_of_teams (State.opDone_teams _ _ _ _) _).trans (State.team?_setTeam ht rfl), rfl⟩
  · rw [servePush_of_next ht hs hroom hn]
    dsimp only
    rw [hl]
  · exact servePop_held ht hs hn (popValue_of_cons hq)
  · exact popValue_of_cons hq
  · have hc : popValue t = if queueClosed t then some (0xFFFFFFFFFFFFFFFF, []) else none := by rw [popValue, hq]
    rw [hc]
    refine ⟨fun ⟨h1, h2⟩ => ?_, fun h => ?_⟩
    · simp [queueClosed, h1, h2]
    · rcases h with h | h <;> simp [queueClosed, h]

theorem teamEvents_hold : TeamEvents := by
  intro team s
  refine ⟨fun sc ⟨g, hg, hteam, hlive⟩ hw => ?_, exec_dqpopDeliver team s⟩
  have hmem : g ∈ liveGroups s team := List.mem_filter.mpr ⟨hg, by simpa [hteam] using hlive⟩
  refine (exec_barrierComplete team s).trans (congrArg Host.Outcome.next (finishBarrier_of_all sc (List.ne_nil_of_mem hmem) fun k hk => ?_))
  obtain ⟨hk1, hk2⟩ := List.mem_filter.mp hk
  simp only [Bool.and_eq_true, decide_eq_true_eq] at hk2
  exact hw k hk1 hk2.1 hk2.2

end Sys2Proof.Claims

/-- Settles O38: the words' bodies, and the one push or pop that `servePush` and `servePop` take. -/
theorem queueWords : Obligations.QueueWords := by
  unfold Obligations.QueueWords
  exact ⟨Claims.queueWords_hold, Claims.queueOrder_holds, Claims.teamEvents_hold⟩

end

section
/-! How parked lanes go on (R30, R69, R73, R74, R236, R242, R253). -/

namespace Sys2Proof.Machine

open Sys2Proof.Claims

/-! ### Units that go on (R30) -/

/-- Without SSTEP nothing follows the units of a group (R315). -/
theorem singleStep_of_noStep {s : State} {core slot : Nat} (units : List (Nat × Addr))
    (h : ∀ g, s.group? core slot = some g → g.dbgc.getLsbD 0 = false) : singleStep s core slot units = s := by
  unfold singleStep
  cases hg : s.group? core slot with
  | none => rfl
  | some g => simp only [h g hg, Bool.false_eq_true, if_false]

section
variable {s : State} {core slot : Nat} {g : Group} (hs : slot < 128) (hg : s.group? core slot = some g)
include hs hg

theorem waitingOf_of_group : waitingOf s core slot = g.waiting := by simp only [waitingOf, hs, if_true, hg, Option.map_some, Option.getD_some]

theorem execSynceProceed_goes_on (hw : g.waiting = .synce) (ho : g.fe.ops = []) : execSynceProceed core slot s = .next
    (goOn ((s.setFront core slot { g.fe with acqs := [] }).acquire core (g.fe.acqs.foldl (fun m d => max m d.2) 0)) core slot) := by
  have hf := State.front?_of_group hs hg
  unfold execSynceProceed
  rw [if_pos, synceGo, acquireToken_of_front hf, Front.clearDone_none, Front.acquireScope_none]
  simp only [waitingOf_of_group hs hg, hw, hf, Option.map_some, Option.getD_some, ho, decide_true, Bool.and_self]

variable {t : Team} (ht : s.teamOf core slot = some t) {off bit : Nat} (hw : g.waiting = .bitmap off bit)
include ht hw

/-- Each look at a bit that WAITBM waits for (R236). -/
theorem execWaitbmProceed_looks : execWaitbmProceed core slot s = .next
    (match windowPage (s.touch t.ctx (Config.windowBase + off)) t.ctx off .read with
      | .ok p => if ((s.touch t.ctx (Config.windowBase + off)).byte p.loc).getLsbD bit
          then goOn ((s.touch t.ctx (Config.windowBase + off)).acquire core 4) core slot else s.touch t.ctx (Config.windowBase + off)
      | .fault _ => s.touch t.ctx (Config.windowBase + off)) := by
  unfold execWaitbmProceed
  simp only [waitingOf_of_group hs hg, hw, waitbmGo, ht, bitSet]
  rfl

end

/-! ### Range-lock entries in turn (R253) -/

/-- The oldest of some numbers is the one that none is below. -/
theorem oldest_eq {ns : List Nat} {n : Nat} (hn : n ∈ ns) (hle : ∀ m ∈ ns, n ≤ m) : oldest ns = some n := by
  have h (r : Option Nat) (hr : ∀ m, r = some m → n ≤ m) (hin : n ∈ ns ∨ r = some n) :
      ns.foldl (fun r n => some (match r with | some m => min m n | none => n)) r = some n := by
    clear hn
    induction ns generalizing r with
    | nil => exact hin.resolve_left List.not_mem_nil
    | cons k ns ih =>
      have hk : n ≤ k := hle k (List.mem_cons_self ..)
      refine ih (fun m hm => hle m (List.mem_cons_of_mem _ hm)) _ (fun m hm => ?_) ?_
      · cases r with
        | none => cases hm; exact hk
        | some a => cases hm; exact Nat.le_min.mpr ⟨hr a rfl, hk⟩
      · rcases hin with hin | rfl
        · rcases List.mem_cons.mp hin with rfl | hin
          · refine .inr ?_
            cases r with
            | none => rfl
            | some a => exact congrArg some (Nat.min_eq_right (hr a rfl))
          · exact .inl hin
        · exact .inr (congrArg some (Nat.min_eq_left hk))
  exact h none (fun _ hm => by cases hm) (.inl hn)

theorem Group.mem_tickets {g : Group} {set : LaneSet} {n : Nat} : n ∈ g.tickets set ↔ ∃ j, set.getLsbD j = true ∧ (g.lane j).ticket = some n := by
  simp only [Group.tickets, List.mem_filterMap, lanesIn_mem]
  exact exists_congr fun j => and_congr_left' ⟨fun h => h.2, fun h => ⟨BitVec.lt_of_getLsbD h, h⟩⟩

/-- The lanes that have waited longest perform their unit again, when none of the core waits before them. -/
theorem execRangeLockGrant_of_group {s : State} {core slot : Nat} {g : Group} (hs : slot < 128) (hg : s.group? core slot = some g) {n : Nat}
    (hlen : g.lanes.length ≤ 64) (hn : ∃ l ∈ g.lanes, l.live = true ∧ l.park = .wait ∧ l.ticket = some n)
    (hle : ∀ l ∈ g.lanes, l.live = true → l.park = .wait → ∀ m, l.ticket = some m → n ≤ m) :
    execRangeLockGrant core slot s = .next (if mayLock s core (some n) 1 then s.setGroup (g.retry (fun l => l.ticket = some n)) else s) := by
  have hfirst : firstTicket s core slot = some n := by
    simp only [firstTicket, hs, if_true, hg, Option.bind_some]
    refine oldest_eq (Group.mem_tickets.mpr ?_) fun m hm => ?_
    · obtain ⟨l, hl, hlive, hpark, htick⟩ := hn
      obtain ⟨j, hj, rfl⟩ := g.exists_lane hl
      refine ⟨j, ?_, htick⟩
      rw [Group.getLsbD_where, hlive, hpark]
      simp [hj, Nat.lt_of_lt_of_le hj hlen]
    · obtain ⟨j, hj, htick⟩ := Group.mem_tickets.mp hm
      rw [Group.getLsbD_where] at hj
      simp only [Bool.and_eq_true, decide_eq_true_eq] at hj
      exact hle _ (g.lane_mem hj.1.2) hj.2.1 hj.2.2 m htick
  unfold execRangeLockGrant
  rw [hfirst]
  simp only [retryLocks, hs, if_true, hg]

theorem mayLock_iff (s : State) (core : Nat) (mine : Option Nat) {n : Nat} (hn : 0 < n) : mayLock s core mine n = true ↔
    s.lockFree core n = true ∧ ∀ w ∈ lockWaiters s core, ∃ m, mine = some m ∧ m ≤ w := by
  have h0 : decide (n = 0) = false := decide_eq_false (by omega)
  rw [mayLock, h0, Bool.false_or, Bool.and_eq_true, List.all_eq_true]
  refine and_congr_right' (forall₂_congr fun w _ => ?_)
  cases mine <;> simp

/-! ### Lanes that start again (R73, R74) -/

/-- What is none of the fields that landing writes change stays as a lane settles (R30). -/
theorem Lane.settle_keeps {α : Type} {f : Lane → α} (hv : ∀ l v, f { l with v := v } = f l) (hq : ∀ l p, f { l with p := p } = f l)
    (hs : ∀ l sp, f { l with spec := sp } = f l) (hp : ∀ l ps, f { l with pend := ps } = f l) (ho : ∀ l os, f { l with olds := os } = f l)
    (l : Lane) : f l.settle = f l := (ho _ _).trans (landDue_keeps hv hq hs hp _ _ _)

theorem Lane.settle_draws (l : Lane) : l.settle.draws = l.draws :=
  Lane.settle_keeps (fun _ _ => rfl) (fun _ _ => rfl) (fun _ _ => rfl) (fun _ _ => rfl) (fun _ _ => rfl) l

theorem Lane.settle_rng (l : Lane) : l.settle.rng = l.rng :=
  Lane.settle_keeps (fun _ _ => rfl) (fun _ _ => rfl) (fun _ _ => rfl) (fun _ _ => rfl) (fun _ _ => rfl) l

/-- An address held in a register is a multiple of 4, in 48 bits (R65). -/
theorem codeAddr_eq (a : DWord) : codeAddr a = BitVec.ofNat 48 (a.toNat / 4 * 4) := by
  have hmask : ∀ i : Fin 48, (0x0000FFFFFFFFFFFC#64).getLsbD i = decide (2 ≤ i.val) := by decide
  have hdiv : a.toNat / 4 * 4 = a.toNat >>> 2 <<< 2 := by rw [Nat.shiftRight_eq_div_pow, Nat.shiftLeft_eq]
  apply BitVec.eq_of_getLsbD_eq
  intro i hi
  rw [codeAddr, addrOf, BitVec.getLsbD_setWidth, BitVec.getLsbD_and, hmask ⟨i, hi⟩, BitVec.getLsbD_ofNat, hdiv, Nat.testBit_shiftLeft,
    Nat.testBit_shiftRight]
  by_cases h2 : 2 ≤ i
  · simp [hi, h2, BitVec.getLsbD]
  · simp [h2]

theorem LaneSet.getLsbD_all {j : Nat} (h : j < 64) : (~~~(0 : LaneSet)).getLsbD j = true := by
  rw [BitVec.getLsbD_not, decide_eq_true h, Bool.true_and]
  exact congrArg not BitVec.getLsbD_zero

/-- A group that EXITS starts again (R73). -/
def Group.restarted (g : Group) (a : DWord) (n : Nat) : Group :=
  { (g.upd (~~~0) (fun i l => l.settle.restart g.index g.width i n l.settle.v (codeAddr a) g.fe.handler)) with
    m := List.replicate 16 0, q := List.replicate 16 0, x := List.replicate 16 0, cyc := [] }

theorem Group.restarted_lane {g : Group} (a : DWord) (n : Nat) {j : Nat} (hj : j < g.lanes.length) (hlen : g.lanes.length ≤ 64) :
    (g.restarted a n).lane j = (g.lane j).settle.restart g.index g.width j n (g.lane j).settle.v (codeAddr a) g.fe.handler :=
  (Group.lane_upd g (~~~0) (fun i l => l.settle.restart g.index g.width i n l.settle.v (codeAddr a) g.fe.handler) j hj).trans
    (if_pos (LaneSet.getLsbD_all (Nat.lt_of_lt_of_le hj hlen)))

theorem restartGroup_of_exits {s : State} {core slot : Nat} {g : Group} {a : DWord} {n : Nat} (hg : s.group? core slot = some g)
    (he : g.exitsAt false = some (a, n)) (ho : g.fe.ops = []) (hd : g.dbgc.getLsbD 0 = false) :
    restartGroup s core slot = s.setGroup (g.restarted a n) := by
  unfold restartGroup
  simp only [hg, he, ho, ne_eq, not_true_eq_false, if_false]
  refine singleStep_of_noStep _ fun k hk => ?_
  cases (State.group?_setGroup_of hg (g.restarted a n)).symm.trans hk
  exact hd

/-! ### REGROUP (R74) -/

theorem fillLanes_length (index width keep : Nat) (pc : Addr) (h : Bool) (i : Nat) (ls : List Lane) (sv : List Survivor) :
    (fillLanes index width keep pc h i ls sv).1.length = ls.length := by
  induction ls generalizing i sv with
  | nil => rfl
  | cons l ls ih =>
    cases sv with
    | nil => exact congrArg (· + 1) (ih (i + 1) [])
    | cons x xs => exact congrArg (· + 1) (ih (i + 1) xs)

/-- A lane that a survivor fills. -/
theorem fillLanes_filled (index width keep : Nat) (pc : Addr) (h : Bool) (i : Nat) (ls : List Lane) (sv : List Survivor) {j : Nat} {l : Lane}
    {x : Survivor} (hl : ls[j]? = some l) (hx : sv[j]? = some x) : (fillLanes index width keep pc h i ls sv).1[j]? =
      some { (l.restart index width (i + j) keep x.1 pc h) with draws := x.2.1, rng := x.2.2 } := by
  induction ls generalizing i sv j with
  | nil => cases hl
  | cons k ls ih =>
    cases sv with
    | nil => cases hx
    | cons y ys =>
      cases j with
      | zero => cases hl; cases hx; rfl
      | succ j =>
        refine (ih (i + 1) ys hl hx).trans ?_
        rw [Nat.add_right_comm, Nat.add_assoc]

/-- A lane above the survivors retires. -/
theorem fillLanes_retired (index width keep : Nat) (pc : Addr) (h : Bool) (i : Nat) (ls : List Lane) (sv : List Survivor) {j : Nat} {l : Lane}
    (hl : (fillLanes index width keep pc h i ls sv).1[j]? = some l) (hx : sv.length ≤ j) : l.live = false := by
  induction ls generalizing i sv j with
  | nil => cases hl
  | cons k ls ih =>
    cases sv with
    | nil =>
      cases j with
      | zero => cases hl; rfl
      | succ j => exact ih (i + 1) [] hl (Nat.zero_le j)
    | cons y ys =>
      cases j with
      | zero => exact absurd hx (Nat.not_succ_le_zero _)
      | succ j => exact ih (i + 1) ys hl (Nat.le_of_succ_le_succ hx)

/-- The survivors of a group's REGROUP, in lane order (R74). -/
def Group.survivors (g : Group) (p : PReg) : List Survivor :=
  (lanesIn (g.where (fun _ l => l.live && l.pred p.toNat))).map (fun i => ((g.lane i).settle.v, (g.lane i).settle.draws, (g.lane i).settle.rng))

/-- A group packed at a REGROUP. -/
def Group.packed (g : Group) (p : PReg) (n : Nat) : Group :=
  { g with lanes := (fillLanes g.index g.width n (g.lane ((lanesIn g.liveLanes).headD 0)).next g.fe.handler 0 g.lanes (g.survivors p)).1
           m := List.replicate 16 0, q := List.replicate 16 0, x := List.replicate 16 0, cyc := [] }

/-- The index of an element of a rising list is at most the element. -/
theorem Rising.index_le {l : List Nat} (h : Rising l) {j k : Nat} (hk : l[j]? = some k) : j ≤ k := by
  induction j generalizing k with
  | zero => exact Nat.zero_le k
  | succ j ih =>
    obtain ⟨hj, rfl⟩ := List.getElem?_eq_some_iff.mp hk
    have hlt : l[j] < l[j + 1] := List.pairwise_iff_getElem.mp h j (j + 1) (Nat.lt_of_succ_lt hj) hj (Nat.lt_succ_self j)
    exact Nat.lt_of_le_of_lt (ih (List.getElem?_eq_getElem (Nat.lt_of_succ_lt hj))) hlt

/-- Lane `j` of a packed group is the `j`-th lane in which the predicate holds. -/
theorem Group.packed_lane {g : Group} {p : PReg} (n : Nat) {j k : Nat}
    (hk : (lanesIn (g.where (fun _ l => l.live && l.pred p.toNat)))[j]? = some k) : (g.packed p n).lane j =
      { ((g.lane j).restart g.index g.width j n (g.lane k).settle.v (g.lane ((lanesIn g.liveLanes).headD 0)).next g.fe.handler) with
        draws := (g.lane k).draws, rng := (g.lane k).rng } := by
  have hmem := List.mem_of_getElem? hk
  rw [lanesIn_mem, Group.getLsbD_where] at hmem
  simp only [Bool.and_eq_true, decide_eq_true_eq] at hmem
  have hj : j < g.lanes.length := Nat.lt_of_le_of_lt (Rising.index_le (lanesIn_sorted _) hk) hmem.2.1.2
  have hl : g.lanes[j]? = some (g.lane j) := by
    rw [Group.lane, List.getD_eq_getElem?_getD, List.getElem?_eq_getElem hj, Option.getD_some]
  have hx : (g.survivors p)[j]? = some ((g.lane k).settle.v, (g.lane k).settle.draws, (g.lane k).settle.rng) := by
    rw [Group.survivors, List.getElem?_map, hk, Option.map_some]
  have hfill := fillLanes_filled g.index g.width n (g.lane ((lanesIn g.liveLanes).headD 0)).next g.fe.handler 0 g.lanes (g.survivors p) hl hx
  rw [Nat.zero_add, Lane.settle_draws, Lane.settle_rng] at hfill
  have hget : (g.packed p n).lane j = ((g.packed p n).lanes[j]?).getD { live := false } := List.getD_eq_getElem?_getD ..
  have hpacked : (g.packed p n).lanes[j]? = _ := hfill
  rw [hget, hpacked]
  rfl

theorem Group.packed_retired {g : Group} {p : PReg} (n : Nat) {j : Nat}
    (hj : (lanesIn (g.where (fun _ l => l.live && l.pred p.toNat))).length ≤ j) : ((g.packed p n).lane j).live = false := by
  have hget : (g.packed p n).lane j = ((g.packed p n).lanes[j]?).getD { live := false } := List.getD_eq_getElem?_getD ..
  rw [hget]
  cases hl : (g.packed p n).lanes[j]? with
  | none => rfl
  | some l => exact fillLanes_retired _ _ _ _ _ _ _ _ hl (by rw [Group.survivors, List.length_map]; exact hj)

theorem Group.markRetired_eq (g : Group) : ∃ r, g.markRetired = { g with retired := r } := by
  unfold Group.markRetired
  split
  · exact ⟨_, rfl⟩
  · exact ⟨_, rfl⟩

theorem stopLantern_group? (s : State) (team core slot : Nat) : (stopLantern s team).group? core slot = s.group? core slot := by
  unfold stopLantern
  split
  · rfl
  · split <;> rfl

/-- A team's one live group is packed. -/
theorem packTeam_of_one {s : State} {team : Nat} {g : Group} {pc : Addr} {p : PReg} {n : Nat} (hl : liveGroups s team = [g])
    (hg : s.group? g.core g.slot = some g) (hr : g.regroupAt = some (pc, p, n)) (ho : g.fe.ops = []) (hd : g.dbgc.getLsbD 0 = false) :
    packTeam s team = stopLantern (s.setGroup (g.packed p n).markRetired) team := by
  obtain ⟨r, hm⟩ := (g.packed p n).markRetired_eq
  have hg1 := State.group?_setGroup_of hg (g.packed p n).markRetired (by rw [hm]; rfl) (by rw [hm]; rfl)
  unfold packTeam
  simp only [hl, List.foldr_cons, List.foldr_nil, insertByIndex, hr, List.all_cons, List.all_nil, ho, decide_true, Bool.and_true, if_true,
    List.map_cons, List.map_nil]
  simp only [List.eraseDups_cons, List.eraseDups_nil, List.filter_cons, List.filter_nil, decide_true, if_true, List.foldl_cons, List.foldl_nil,
    List.flatMap_cons, List.flatMap_nil, List.append_nil]
  change stopLantern (match (s.setGroup (g.packed p n).markRetired).group? g.core g.slot with
    | some g1 => singleStep (s.setGroup (g.packed p n).markRetired) g.core g.slot ((lanesIn g1.liveLanes).map (fun i => (i, pc)))
    | none => s.setGroup (g.packed p n).markRetired) team = _
  rw [hg1]
  refine congrArg (stopLantern · team) (singleStep_of_noStep _ fun k hk => ?_)
  rw [hg1, hm] at hk
  cases hk
  exact hd

end Sys2Proof.Machine

open Sys2Proof Sys2Proof.Machine

namespace Sys2Proof.Claims

theorem waitersGoOn_hold : WaitersGoOn := by
  intro s core slot g act hs hg s1 hd
  unfold goOn
  simp only [hs, if_true, hg]
  exact singleStep_of_noStep _ hd

theorem parkedUnitsGoOn_holds : ParkedUnitsGoOn := by
  intro core slot s g t hs hg ht
  refine ⟨fun m hm => ?_, fun off bit hw => ?_, fun hw ho => ?_, fun n hlen hn hle => ?_, fun mine n hn => mayLock_iff s core mine hn⟩
  · have h : (decide ((g.tryJoin false m).2 ≠ 0) || decide ((g.tryJoin true m).2 ≠ 0)) = true := by rw [decide_eq_true hm, Bool.true_or]
    rw [exec_joinRelease, execJoinRelease, hg]
    exact congrArg Host.Outcome.next (if_pos h)
  · rw [exec_waitbmProceed, execWaitbmProceed_looks hs hg ht hw]
    refine ⟨fun p hp hset => ?_, fun hclear => ?_⟩
    · rw [hp]
      exact congrArg Host.Outcome.next (if_pos hset)
    · split
      next p hp => exact congrArg Host.Outcome.next (if_neg (ne_true_of_eq_false (hclear p hp)))
      next => rfl
  · exact execSynceProceed_goes_on hs hg hw ho
  · rw [exec_rangeLockGrant, execRangeLockGrant_of_group hs hg hlen hn hle]
    exact ⟨fun h => by rw [if_pos h]; rfl, fun h => by rw [if_neg (ne_true_of_eq_false h)]⟩

theorem exitsRestarts_holds : ExitsRestarts := by
  intro core slot s g a n hg he ho hlen hd
  refine ⟨_, _, (exec_exitsRestart core slot s).trans (congrArg Host.Outcome.next (restartGroup_of_exits hg he ho hd)),
    State.group?_setGroup_of hg (g.restarted a n), rfl, rfl, rfl, Group.upd_length _ _ _, fun j hj => ?_, rfl, rfl, rfl⟩
  rw [Group.restarted_lane a n hj hlen, ← codeAddr_eq]
  exact ⟨rfl, rfl, rfl, rfl, rfl, Lane.settle_draws _, Lane.settle_rng _⟩

theorem regroupPacks_holds : RegroupPacks := by
  intro team s g pc p n hl hg hr ho hlen hd old
  obtain ⟨r, hm⟩ := (g.packed p n).markRetired_eq
  have hlanes : (g.packed p n).markRetired.lanes = (g.packed p n).lanes := by rw [hm]
  have hlength : (g.packed p n).lanes.length = g.lanes.length := fillLanes_length _ _ _ _ _ _ _ _
  refine ⟨_, _, (exec_regroupPack team s).trans (congrArg Host.Outcome.next (packTeam_of_one hl hg hr ho hd)),
    (stopLantern_group? _ _ _ _).trans (State.group?_setGroup_of hg (g.packed p n).markRetired (by rw [hm]; rfl) (by rw [hm]; rfl)),
    by rw [hlanes, hlength], fun j k hk => ?_, fun j hj => ?_⟩
  · rw [Machine.Group.lane, hlanes, ← Machine.Group.lane, Group.packed_lane n hk]
    exact ⟨rfl, rfl, rfl, rfl, rfl, rfl⟩
  · rw [Machine.Group.lane, hlanes]
    exact Group.packed_retired n hj

end Sys2Proof.Claims

/-- Settles O46: each event's condition, and the state that it makes. -/
theorem parkedLanesGoOn : Obligations.ParkedLanesGoOn := by
  unfold Obligations.ParkedLanesGoOn
  exact ⟨Claims.waitersGoOn_hold, Claims.parkedUnitsGoOn_holds, Claims.exitsRestarts_holds, Claims.regroupPacks_holds⟩

end

section
/-! The end of a speculation (R34). -/

namespace Sys2Proof.Machine

open Sys2Proof.Claims

/-! ### Deferred traps in order (R309) -/

theorem insertLate_perm (x : LateTrap) (ds : List LateTrap) : List.Perm (insertLate x ds) (x :: ds) := by
  induction ds with
  | nil => exact List.Perm.refl _
  | cons y ys ih =>
    unfold insertLate
    split
    · exact List.Perm.refl _
    · exact (ih.cons y).trans (List.Perm.swap x y ys)

theorem insertLate_sorted (x : LateTrap) {ds : List LateTrap} (h : ds.Pairwise (fun x y => x.2.unit.toNat ≤ y.2.unit.toNat)) :
    (insertLate x ds).Pairwise (fun x y => x.2.unit.toNat ≤ y.2.unit.toNat) := by
  induction ds with
  | nil => exact List.pairwise_singleton _ x
  | cons y ys ih =>
    obtain ⟨hy, hys⟩ := List.pairwise_cons.mp h
    unfold insertLate
    split
    next hle =>
      refine List.pairwise_cons.mpr ⟨fun z hz => ?_, h⟩
      rcases List.mem_cons.mp hz with rfl | hz
      · exact hle
      · exact hle.trans (hy z hz)
    next hgt =>
      refine List.pairwise_cons.mpr ⟨fun z hz => ?_, ih hys⟩
      rcases List.mem_cons.mp ((insertLate_perm x ys).mem_iff.mp hz) with rfl | hz
      · exact Nat.le_of_not_le hgt
      · exact hy z hz

theorem insertLate_of_le {x : LateTrap} {ds : List LateTrap} (h : ∀ y ∈ ds, x.2.unit.toNat ≤ y.2.unit.toNat) : insertLate x ds = x :: ds := by
  cases ds with
  | nil => rfl
  | cons y ys => rw [insertLate, if_pos (h y (List.mem_cons_self ..))]

/-- The deferred traps by the unit at the lower PC. -/
def lateOrder (ds : List LateTrap) : List LateTrap := ds.foldr insertLate []

theorem lateOrder_perm (ds : List LateTrap) : List.Perm (lateOrder ds) ds := by
  induction ds with
  | nil => exact List.Perm.refl _
  | cons d ds ih => exact (insertLate_perm d (lateOrder ds)).trans (ih.cons d)

theorem lateOrder_sorted (ds : List LateTrap) : (lateOrder ds).Pairwise (fun x y => x.2.unit.toNat ≤ y.2.unit.toNat) := by
  induction ds with
  | nil => exact List.Pairwise.nil
  | cons d ds ih => exact insertLate_sorted d ih

theorem lateOrder_of_sorted {ds : List LateTrap} (h : ds.Pairwise (fun x y => x.2.unit.toNat ≤ y.2.unit.toNat)) : lateOrder ds = ds := by
  induction ds with
  | nil => rfl
  | cons d ds ih =>
    obtain ⟨hd, hds⟩ := List.pairwise_cons.mp h
    exact (congrArg (insertLate d) (ih hds)).trans (insertLate_of_le hd)

/-- Traps are taken in the same way in the order in which they come and in that of their units. -/
theorem takeDeferred_lateOrder (core slot : Nat) (t : Team) (s : State) (ds : List LateTrap) :
    takeDeferred core slot t s ds = takeDeferred core slot t s (lateOrder ds) := by
  have h : (lateOrder ds).foldr insertLate [] = ds.foldr insertLate [] := lateOrder_of_sorted (lateOrder_sorted ds)
  unfold takeDeferred
  rw [h]

theorem takeDeferred_one (core slot : Nat) (t : Team) (s : State) (i : Nat) (d : Deferred) : takeDeferred core slot t s [(i, d)] =
    (if d.vec = 0xFFFF then killBadLanes (laterIx core slot t d.unit (d.unit + 4) d.word d.pfx 0 false) [i] s
      else raise s core slot { unit := d.unit, word := d.word, pfx := d.pfx, tcode := d.tcode, next := d.next }
        [{ lane := i, vec := d.vec, cause := d.cause, addr := d.addr, report := d.report }]) := by
  unfold takeDeferred
  simp only [List.foldr_cons, List.foldr_nil, insertLate, List.map_cons, List.map_nil, List.eraseDups_cons, List.filter_nil, List.eraseDups_nil,
    List.foldl_cons, List.foldl_nil, List.filter_cons, decide_true, if_true]
  by_cases hv : d.vec = 0xFFFF
  · simp only [hv, ne_eq, not_true_eq_false, decide_true, decide_false, if_true, Bool.false_eq_true, if_false, List.map_cons, List.map_nil, raise_nil]
  · simp only [hv, ne_eq, not_false_eq_true, decide_true, decide_false, if_true, Bool.false_eq_true, if_false, List.map_cons, List.map_nil]
    rfl

/-! ### One lane of the record -/

theorem Group.raiseFlags_of_unspeculated {g : Group} {i : Nat} (f : BitVec 5) (h : (g.lane i).spec = none) :
    ∃ w, g.raiseFlags i f = { g with fpc := w } := by
  unfold Group.raiseFlags
  simp only [h, Option.isSome_none, Bool.false_eq_true, if_false]
  split
  · exact ⟨_, rfl⟩
  · exact ⟨_, rfl⟩

/-- Where no lane still sees an old value of SPECR, the register grows (R239). -/
theorem Group.growSpec_specr {g : Group} (n : Nat) (h : ∀ l ∈ g.lanes, ∀ o ∈ l.olds, o.reg ≠ .specr) :
    g.growSpec .specr n = { g with specr := g.specr + BitVec.ofNat 32 n } := by
  have hany : g.lanes.any (fun l => l.olds.any (fun o => o.reg = .specr)) = false := by
    simp only [List.any_eq_false, List.any_eq_true, not_exists, decide_eq_true_eq]
    exact fun l hl o ho => h l hl o ho.1 ho.2
  simp only [Group.growSpec, hany, Bool.false_eq_true, if_false]

section
variable {rec : SpecRec} {g : Group} {i : Nat} {sp : SpecLane} (hsp : (g.lane i).spec = some sp) (acc : Bool × List LateTrap)
include hsp

/-- A lane held at the branch takes its true path. -/
theorem resolveLane_held (ht : sp.taken = none) : resolveLane rec (g, acc) i =
    (g.upd (laneBit i) (fun _ l => { l with
      spec := none, pc := if (g.lane i).predBefore rec.p.toNat != rec.neg then rec.disp else rec.pc + 4, waited := false }), acc) := by
  unfold resolveLane
  simp only [hsp, ht]

omit hsp in
theorem resolved_held (l : Lane) (ht : sp.taken = none) : resolved rec l sp = (false, { l with
    spec := none, pc := if l.predBefore rec.p.toNat != rec.neg then rec.disp else rec.pc + 4, waited := false }) := by
  simp only [resolved, ht]

omit hsp in
theorem resolved_right (l : Lane) (ht : sp.taken = some (l.predBefore rec.p.toNat != rec.neg)) : resolved rec l sp = (false, l.keepAll) := by
  simp only [resolved, ht, if_true]
  rfl

theorem resolved_wrong {b : Bool} (ht : sp.taken = some b) (hb : b ≠ ((g.lane i).predBefore rec.p.toNat != rec.neg)) :
    resolved rec (g.lane i) sp =
      (true, (g.lane i).undoAll (if (g.lane i).predBefore rec.p.toNat != rec.neg then rec.disp else rec.pc + 4)) := by
  simp only [resolved, ht, hb, if_false, Lane.undoAll, hsp]

/-- A lane predicted rightly goes on as it is, its deferred trap to be taken. -/
theorem resolveLane_right (ht : sp.taken = some ((g.lane i).predBefore rec.p.toNat != rec.neg)) : resolveLane rec (g, acc) i =
    (({ (g.upd (laneBit i) (fun _ l => l.keepAll)) with fe := g.fe.retag i false }).raiseFlags i sp.flags, acc.1,
      acc.2 ++ (sp.deferred.map (fun d => (i, d))).toList) := by
  unfold resolveLane
  simp only [hsp, ht, if_true]

/-- A lane predicted wrongly goes back to its true path, and SPECR grows by its instructions. -/
theorem resolveLane_wrong {b : Bool} (ht : sp.taken = some b) (hb : b ≠ ((g.lane i).predBefore rec.p.toNat != rec.neg)) :
    resolveLane rec (g, acc) i =
    (({ (g.upd (laneBit i) (fun _ l => l.undoAll (if (g.lane i).predBefore rec.p.toNat != rec.neg then rec.disp else rec.pc + 4))) with
        fe := g.fe.retag i true, poison := (sp.deferred.bind (·.report)).toList ++ g.poison }).growSpec .specr sp.count, true, acc.2) := by
  unfold resolveLane
  simp only [hsp, ht, hb, if_false]
  rfl

end

end Sys2Proof.Machine

open Sys2Proof Sys2Proof.Machine

namespace Sys2Proof.Claims

/-- The resolution of one lane. -/
theorem laneResolves (rec : SpecRec) (g : Machine.Group) (wrong : Bool) (ds : List (Nat × Deferred)) (i : Nat) (sp : SpecLane)
    (hi : i < g.lanes.length) (h64 : i < 64) (hsp : (g.lane i).spec = some sp) :
    let r := resolveLane rec (g, wrong, ds) i
    r.1.lane i = (if (resolved rec (g.lane i) sp).1 ∧ (∃ l ∈ g.lanes, ∃ o ∈ l.olds, o.reg = .specr) then r.1.lane i
                  else (resolved rec (g.lane i) sp).2) ∧
    r.2.1 = (wrong || (resolved rec (g.lane i) sp).1) ∧
    (∀ j, j ≠ i → (∀ l ∈ g.lanes, ∀ o ∈ l.olds, o.reg ≠ .specr) → r.1.lane j = g.lane j) ∧
    ((∀ l ∈ g.lanes, ∀ o ∈ l.olds, o.reg ≠ .specr) →
      r.1.specr = g.specr + (if (resolved rec (g.lane i) sp).1 then BitVec.ofNat 32 sp.count else 0)) ∧
    r.2.2 = ds ++ (if (resolved rec (g.lane i) sp).1 ∨ sp.taken = none then [] else (sp.deferred.map (fun d => (i, d))).toList) := by
  have hbit : (laneBit i).getLsbD i = true := by rw [laneBit_get h64, decide_eq_true rfl]
  have hsame (f : Nat → Lane → Lane) : (g.upd (laneBit i) f).lane i = f i (g.lane i) := by rw [Group.lane_upd _ _ _ _ hi, if_pos hbit]
  have hother (f : Nat → Lane → Lane) (j : Nat) (hj : j ≠ i) : (g.upd (laneBit i) f).lane j = g.lane j :=
    Group.lane_upd_other _ _ _ _ (by rw [laneBit_get h64]; exact decide_eq_false hj)
  cases ht : sp.taken with
  | none =>
    rw [resolveLane_held hsp _ ht, resolved_held _ ht]
    refine ⟨?_, (Bool.or_false _).symm, fun j hj _ => hother _ j hj, fun _ => (BitVec.add_zero _).symm, ?_⟩
    · exact (hsame _).trans (if_neg (fun h => by cases h.1)).symm
    · exact ((congrArg (ds ++ ·) (if_pos (.inr rfl))).trans (List.append_nil _)).symm
  | some b =>
    by_cases hb : b = ((g.lane i).predBefore rec.p.toNat != rec.neg)
    · have htake : sp.taken = some ((g.lane i).predBefore rec.p.toNat != rec.neg) := by rw [ht, hb]
      have hnone : (({ (g.upd (laneBit i) (fun _ l => l.keepAll)) with fe := g.fe.retag i false } : Machine.Group).lane i).spec = none :=
        congrArg Lane.spec (hsame _)
      obtain ⟨w, hw⟩ := Group.raiseFlags_of_unspeculated sp.flags hnone
      rw [resolveLane_right hsp _ htake, resolved_right _ htake, hw]
      refine ⟨?_, (Bool.or_false _).symm, fun j hj _ => hother _ j hj, fun _ => (BitVec.add_zero _).symm, ?_⟩
      · exact (hsame _).trans (if_neg (fun h => by cases h.1)).symm
      · exact (congrArg (ds ++ ·) (if_neg (fun h => by cases h <;> contradiction))).symm
    · rw [resolveLane_wrong hsp _ ht hb, resolved_wrong hsp ht hb]
      generalize (if ((g.lane i).predBefore rec.p.toNat != rec.neg) = true then rec.disp else rec.pc + 4) = pc
      have hgrow (hno : ∀ l ∈ g.lanes, ∀ o ∈ l.olds, o.reg ≠ .specr) := Group.growSpec_specr
        (g := { (g.upd (laneBit i) (fun _ l => l.undoAll pc)) with
                fe := g.fe.retag i true, poison := (sp.deferred.bind (·.report)).toList ++ g.poison }) sp.count (fun l hl o ho => by
          obtain ⟨j, hj, rfl⟩ := (g.upd (laneBit i) (fun _ l => l.undoAll pc)).exists_lane hl
          by_cases hji : j = i
          · subst hji
            rw [hsame] at ho
            cases ho
          · rw [hother _ j hji] at ho
            exact hno _ (g.lane_mem (by simpa using hj)) o ho)
      refine ⟨?_, (Bool.or_true _).symm, fun j hj hno => ?_, fun hno => ?_, ?_⟩
      · by_cases hold : ∃ l ∈ g.lanes, ∃ o ∈ l.olds, o.reg = .specr
        · exact (if_pos ⟨rfl, hold⟩).symm
        · rw [hgrow fun l hl o ho e => hold ⟨l, hl, o, ho, e⟩]
          exact (hsame _).trans (if_neg (fun h => hold h.2)).symm
      · rw [hgrow hno]
        exact hother _ j hj
      · rw [hgrow hno]
        rfl
      · exact ((congrArg (ds ++ ·) (if_pos (.inl rfl))).trans (List.append_nil _)).symm

theorem speculationEnds_holds : SpeculationEnds := by
  refine ⟨laneResolves, fun core slot s g g1 t rec wrong ds hg ht hrec hcount hfold => ?_, fun core slot t s ds =>
    ⟨lateOrder ds, lateOrder_perm ds, lateOrder_sorted ds, takeDeferred_lateOrder core slot t s ds, fun d => takeDeferred_one core slot t s d.1 d.2⟩⟩
  rw [exec_speculationResolve, execSpeculationResolve]
  simp only [resolveSpec, hg, ht, hrec, hcount, hfold, ne_eq, not_true_eq_false, if_false]

end Sys2Proof.Claims

/-- Settles O45: lane by lane, and then the group as a whole. -/
theorem speculationEnds : Obligations.SpeculationEnds := by
  unfold Obligations.SpeculationEnds
  exact Claims.speculationEnds_holds

end

section
/-! The front end and its events: selection, core cycles, ages, landings and freed slots (R17, R31, R59, R72, R75, R295). -/

namespace Sys2Proof.Machine

open Sys2Proof.Claims

/-! ### The order of units (R59) -/

theorem before_of_aged {g : Group} {a b : Cand} (ha : agedPc g a.pc = true) (hb : agedPc g b.pc = false) :
    before g a b = true ∧ before g b a = false := by
  simp only [before, ha, hb, and_self]

theorem before_iff_of_aged {g : Group} {a b : Cand} (ha : agedPc g a.pc = true) (hb : agedPc g b.pc = true) : before g a b = true ↔
    (ageOf g a.pc).last < (ageOf g b.pc).last ∨ ((ageOf g a.pc).last = (ageOf g b.pc).last ∧ a.pc.toNat < b.pc.toNat) := by
  simp only [before, ha, hb, Bool.or_eq_true, Bool.and_eq_true, decide_eq_true_eq]

theorem before_iff_of_young {g : Group} {a b : Cand} (ha : agedPc g a.pc = false) (hb : agedPc g b.pc = false) : before g a b = true ↔
    countLanes b.lanes < countLanes a.lanes ∨ (countLanes b.lanes = countLanes a.lanes ∧ a.pc.toNat < b.pc.toNat) := by
  simp only [before, ha, hb, Bool.or_eq_true, Bool.and_eq_true, decide_eq_true_eq, eq_comm (a := countLanes a.lanes)]

theorem before_irrefl (g : Group) (a : Cand) : before g a a = false := by
  cases ha : agedPc g a.pc with
  | true => exact Bool.eq_false_iff.mpr fun h => by have := (before_iff_of_aged ha ha).mp h; omega
  | false => exact Bool.eq_false_iff.mpr fun h => by have := (before_iff_of_young ha ha).mp h; omega

theorem before_trans {g : Group} {a b c : Cand} (hab : before g a b = true) (hbc : before g b c = true) : before g a c = true := by
  cases ha : agedPc g a.pc with
  | true =>
    cases hc : agedPc g c.pc with
    | false => exact (before_of_aged ha hc).1
    | true =>
      cases hb : agedPc g b.pc with
      | false => rw [(before_of_aged hc hb).2] at hbc; cases hbc
      | true =>
        have h1 := (before_iff_of_aged ha hb).mp hab
        have h2 := (before_iff_of_aged hb hc).mp hbc
        exact (before_iff_of_aged ha hc).mpr (by omega)
  | false =>
    cases hb : agedPc g b.pc with
    | true => rw [(before_of_aged hb ha).2] at hab; cases hab
    | false =>
      cases hc : agedPc g c.pc with
      | true => rw [(before_of_aged hc hb).2] at hbc; cases hbc
      | false =>
        have h1 := (before_iff_of_young ha hb).mp hab
        have h2 := (before_iff_of_young hb hc).mp hbc
        exact (before_iff_of_young ha hc).mpr (by omega)

/-- The candidate that `bestOf` finds is one of them, and none goes before it. -/
theorem bestOf_spec {g : Group} {cs : List Cand} {a : Cand} (h : bestOf g cs = some a) : a ∈ cs ∧ ∀ c ∈ cs, before g c a = false := by
  cases cs with
  | nil => cases h
  | cons d ds =>
    cases h
    have hfold (seen : List Cand) (b : Cand) (hb : b ∈ seen) (hle : ∀ c ∈ seen, before g c b = false) :
        (ds.foldl (fun b c => if before g c b then c else b) b) ∈ seen ++ ds ∧
        ∀ c ∈ seen ++ ds, before g c (ds.foldl (fun b c => if before g c b then c else b) b) = false := by
      induction ds generalizing seen b with
      | nil => rw [List.append_nil]; exact ⟨hb, hle⟩
      | cons c cs ih =>
        have happ : seen ++ c :: cs = (seen ++ [c]) ++ cs := by simp
        rw [happ, List.foldl_cons]
        refine ih (seen ++ [c]) _ ?_ fun e he => ?_
        · split
          · exact List.mem_append_right _ (List.mem_singleton.mpr rfl)
          · exact List.mem_append_left _ hb
        · rcases List.mem_append.mp he with he | he
          · split
            next hc => exact Bool.eq_false_iff.mpr fun hec => by cases (before_trans hec hc).symm.trans (hle e he)
            next => exact hle e he
          · obtain rfl := List.mem_singleton.mp he
            split
            · exact before_irrefl g e
            next hc => exact Bool.eq_false_iff.mpr hc
    exact hfold [d] d (List.mem_singleton.mpr rfl) (fun c hc => by rw [List.mem_singleton.mp hc]; exact before_irrefl g d)

theorem bestOf_eq_none {g : Group} {cs : List Cand} : bestOf g cs = none ↔ cs = [] := by
  cases cs with
  | nil => exact iff_of_true rfl rfl
  | cons c cs => exact iff_of_false (fun h => by cases h) (fun h => by cases h)

theorem chosen_eq_nil {g : Group} {cs : List Cand} : chosen g cs = [] ↔ cs = [] := by
  cases hb : bestOf g cs with
  | none => exact iff_of_true (by simp only [chosen, hb]) (bestOf_eq_none.mp hb)
  | some a =>
    refine iff_of_false (fun h => ?_) (fun h => by rw [bestOf_eq_none.mpr h] at hb; cases hb)
    simp only [chosen, hb] at h
    split at h <;> cases h

theorem chosen_cons {g : Group} {cs rest : List Cand} {a : Cand} (h : chosen g cs = a :: rest) : a ∈ cs ∧ (∀ c ∈ cs, before g c a = false) ∧
    rest.length ≤ 1 ∧ ∀ b ∈ rest, b ∈ cs ∧ b ≠ a ∧ ∀ c ∈ cs, c ≠ a → before g c b = false := by
  unfold chosen at h
  split at h
  · cases h
  next d hd =>
    obtain ⟨hmem, hbest⟩ := bestOf_spec hd
    split at h
    · cases h
      exact ⟨hmem, hbest, Nat.zero_le 1, fun b hb => by cases hb⟩
    next e he =>
      cases h
      obtain ⟨hmem2, hbest2⟩ := bestOf_spec he
      obtain ⟨hin, hne⟩ := List.mem_filter.mp hmem2
      refine ⟨hmem, hbest, Nat.le_refl 1, fun b hb => ?_⟩
      obtain rfl := List.mem_singleton.mp hb
      exact ⟨hin, of_decide_eq_true hne, fun c hc hca => hbest2 c (List.mem_filter.mpr ⟨hc, decide_eq_true hca⟩)⟩

/-! ### Units of one cycle (R17, R75) -/

/-- Of two units that count on a token with room for one more, the more populous issues. -/
theorem fitToken_of_full {g : Group} {a b : Cand} {k : Tok} (ha : a.counts g = some k) (hb : b.counts g = some k) (hk : k ≠ 15)
    (hc : g.fe.count k = 14) (hlt : countLanes b.lanes < countLanes a.lanes) : fitToken g [a, b] = [a] ∧ fitToken g [b, a] = [a] := by
  have h1 : ¬ countLanes a.lanes < countLanes b.lanes := by omega
  have h2 : ¬ countLanes b.lanes = countLanes a.lanes := by omega
  have hk1 : decide (k ≠ 15) = true := decide_eq_true hk
  simp only [fitToken, ha, hb, hk1, hc, hlt, h1, h2, decide_true, decide_false, Bool.and_self, Bool.true_or, Bool.false_and, Bool.or_self,
    Bool.false_eq_true, if_true, if_false, and_self]

theorem fitToken_of_room {g : Group} {a : Cand} {k : Tok} (b : Cand) (ha : a.counts g = some k) (hc : g.fe.count k ≤ 13) :
    fitToken g [a, b] = [a, b] := by
  have h14 : ¬ g.fe.count k = 14 := by omega
  simp only [fitToken, ha, h14, decide_false, Bool.and_false, Bool.false_eq_true, if_false]

theorem mem_candidates (g : Group) (cs : List Cand) (c : Cand) :
    c ∈ candidates g cs ↔ c ∈ cs ∧ (c.pc ∉ g.withheld ∨ ∀ e ∈ cs, e.pc ∈ g.withheld) := by
  have hnil : cs.filter (fun c => !(g.withheld.contains c.pc)) = [] ↔ ∀ e ∈ cs, e.pc ∈ g.withheld := by
    rw [List.filter_eq_nil_iff]
    exact forall₂_congr fun e _ => by simp
  unfold candidates
  dsimp only
  split
  next h => exact ⟨fun hc => ⟨hc, .inr (hnil.mp h)⟩, And.left⟩
  next h =>
    rw [List.mem_filter]
    refine and_congr_right' ⟨fun hc => .inl (by simpa using hc), fun hc => ?_⟩
    simpa using hc.resolve_right (fun hall => h (hnil.mpr hall))

/-! ### Results that land (R31) -/

/-- A lane that is not speculated takes the writes of a result one after the other. -/
theorem landWrites_of_unspeculated (rec : Option SpecRec) (tok : Tok) (spec : Nat) (ws : List (Dest × DWord)) {l : Lane} (h : l.spec = none) :
    ws.foldl (landWrite rec tok spec) l = ws.foldl (fun l w => l.landOne w.1 w.2 0) l := by
  induction ws generalizing l with
  | nil => rfl
  | cons w ws ih =>
    have hw : landWrite rec tok spec l w = l.landOne w.1 w.2 0 := by simp only [landWrite, h]
    have hs : (l.landOne w.1 w.2 0).spec = none := by
      have hput : (l.put w.1 w.2).spec = l.spec := Lane.put_keeps (f := Lane.spec) (fun _ _ => rfl) (fun _ _ => rfl) l w.1 w.2
      simp only [Lane.landOne, h, hput]
    rw [List.foldl_cons, List.foldl_cons, hw, ih hs]

/-- A lane as a result lands in it: one that is parked on a split GATH goes on, settled (R227). -/
def Lane.takeResult (d : Land) (l : Lane) : Lane :=
  let l1 := d.writes.foldl (fun l w => l.landOne w.1 w.2 0) l
  if d.split = true ∧ l.park = .splitGather then { l1.settle with park := .none, pc := l1.next } else l1

theorem landIn_eq {g : Group} (tok : Tok) {d : Land} (hw : ∀ w ∈ d.writes, ∀ r, w.1 ≠ .s r) (hl : (g.lane d.lane).live = true)
    (hs : (g.lane d.lane).spec = none) : landIn g tok d = g.upd (laneBit d.lane) (fun _ l => l.takeResult d) := by
  unfold landIn
  dsimp only
  rw [List.filterMap_eq_nil_iff.mpr ?scal, List.filter_eq_self.mpr ?vecs, List.foldl_nil, hl]
  case scal =>
    intro w hm
    split
    next r hr => exact absurd hr (hw w hm r)
    next => rfl
  case vecs =>
    intro w hm
    split
    next r hr => exact absurd hr (hw w hm r)
    next => rfl
  refine Group.upd_congr fun j hj => ?_
  by_cases hb : (laneBit d.lane).getLsbD j = true
  · rw [getLsbD_laneBit] at hb
    obtain rfl := (of_decide_eq_true hb).2
    rw [landWrites_of_unspeculated _ _ _ _ hs]
    simp only [Lane.takeResult, Bool.and_eq_true, decide_eq_true_eq]
  · rw [if_neg hb, if_neg hb]

/-! ### A core cycle in which one group is ready (R59, R295) -/

theorem bayGroups_one (s : State) (ages : List Nat) (r : Ready) : bayGroups s ages [r] = [r] := by
  have hother : [r].filter (fun x => x.1.width = 16 && x.1.half ≠ r.1.half) = [] := by simp
  simp only [bayGroups, bayChoice, List.foldl_nil, hother]
  split <;> rfl

/-- Its bay issues that group, and the others none. -/
theorem bays_of_one (s : State) (c : CoreState) (r : Ready) (hbusy : c.busy.getD r.1.bay false = false) (b : Nat) :
    (if c.busy.getD b false then [] else bayGroups s (c.ages.getD b []) ([r].filter (fun x => x.1.bay = b))) =
      if b = r.1.bay then [r] else [] := by
  by_cases hb : b = r.1.bay
  · subst hb
    rw [hbusy, if_neg Bool.false_ne_true, if_pos rfl, List.filter_cons_of_pos (by simp), List.filter_nil, bayGroups_one]
  · rw [List.filter_cons_of_neg (by simpa using Ne.symm hb), List.filter_nil, if_neg hb]
    split <;> rfl

theorem flatten_of_one {α : Type} (r : α) {n : Nat} (h : n < 4) : ((upFrom 0 4).map (fun b => if b = n then [r] else [])).flatten = [r] := by
  have h4 : n = 0 ∨ n = 1 ∨ n = 2 ∨ n = 3 := by omega
  rcases h4 with rfl | rfl | rfl | rfl <;> rfl

/-- A class that one of the bay's words takes waits from now on (R296). -/
theorem classAges_of_one (kinds : Ready → List Nat) (r : Ready) (n : Nat) (old : List (List Nat)) :
    (upFrom 0 4).map (fun b => (upFrom 0 classes).map (fun k =>
      if ((((upFrom 0 4).map (fun b => if b = n then [r] else [])).getD b []).flatMap kinds).contains k then 0
      else (old.getD b []).getD k 0 + 1)) =
    (upFrom 0 4).map (fun b => (upFrom 0 8).map (fun k => if b = n ∧ k ∈ kinds r then 0 else (old.getD b []).getD k 0 + 1)) := by
  refine List.map_congr_left fun b hb => List.map_congr_left fun k _ => ?_
  rw [getD_map_upFrom _ _ (by simpa using ((upFrom_mem 0 4 b).mp hb).2)]
  by_cases h : b = n
  · simp [h]
  · simp [h]

theorem busy_of_one (r : Ready) (n : Nat) :
    (upFrom 0 4).map (fun b => (((upFrom 0 4).map (fun b => if b = n then [r] else [])).getD b []).any (fun r => decide (r.1.width = 64))) =
    (upFrom 0 4).map (fun b => decide (b = n ∧ r.1.width = 64)) := by
  refine List.map_congr_left fun b hb => ?_
  rw [getD_map_upFrom _ _ (by simpa using ((upFrom_mem 0 4 b).mp hb).2)]
  by_cases h : b = n
  · simp [h]
  · simp [h]

theorem issueGroup_of_group {s : State} {g : Group} (cycle : Nat) (cs ps : List Cand) (hg : s.group? g.core g.slot = some g) :
    issueGroup s cycle (g, cs, ps) =
      { (s.setGroup { g with ages := nextAges g cs (issued (g, cs, ps)), issues := g.issues + 1, lastIssue := cycle, withheld := [] }) with
        issue := s.issue ++ (issued (g, cs, ps)).map (fun c => c.bundle g.core g.slot) } := by
  simp only [issueGroup, hg]
  rfl

/-- The core's own state stands beside its groups'. -/
theorem setCoreState_issueGroup {s : State} {g : Group} (cycle : Nat) (cs ps : List Cand) (xs : List Bundle) (c : CoreState)
    (hg : s.group? g.core g.slot = some g) :
    (issueGroup { s with issue := xs } cycle (g, cs, ps)).setCoreState c =
      { ((s.setGroup { g with ages := nextAges g cs (issued (g, cs, ps)), issues := g.issues + 1, lastIssue := cycle, withheld := [] }).setCoreState
          c) with issue := xs ++ (issued (g, cs, ps)).map (fun c => c.bundle g.core g.slot) } := by
  rw [issueGroup_of_group (s := { s with issue := xs }) cycle cs ps hg]
  rfl

/-- Each of the cycle's intermediate lists is the one group's own, so its bay issues it and the core counts the cycle. -/
theorem coreCycle_of_one {s s2 : State} {core : Nat} {g : Group} {cs : List Cand} (h2 : beginCycle s core = s2)
    (hone : s2.groups.filter (fun x => x.core = core) = [g]) (hlan : ∀ l ∈ s2.lanterns, l.core ≠ core) (hret : g.retired = false)
    (hbay : g.bay < 4) (hcs : readyUnits s2 g = cs) (hne : cs ≠ []) (hbusy : (s2.coreState core).busy.getD g.bay false = false) :
    let old := s2.coreState core
    let picks := issued (g, cs, chosen g (candidates g cs))
    coreCycle s core =
      { ((s2.setGroup { g with ages := nextAges g cs picks, issues := g.issues + 1, lastIssue := old.cycles.toNat + 1, withheld := [] }).setCoreState
          { old with cycles := old.cycles + 1
                     ages := (upFrom 0 4).map (fun b => (upFrom 0 8).map (fun k =>
                       if b = g.bay ∧ k ∈ picks.map (fun c => classIn s2 g c.unit.word) then 0 else (old.ages.getD b []).getD k 0 + 1))
                     busy := (upFrom 0 4).map (fun b => decide (b = g.bay ∧ g.width = 64)) }) with
        issue := s2.issue ++ g.wakes s2 ++ (arrivals s2 g).map (fun c => c.bundle core g.slot) ++ picks.map (fun c => c.bundle core g.slot) } := by
  have hmem : g ∈ s2.groups.filter (fun x => x.core = core) := by rw [hone]; exact List.mem_singleton.mpr rfl
  obtain rfl : g.core = core := of_decide_eq_true (List.mem_filter.mp hmem).2
  have hg : s2.group? g.core g.slot = some g := by
    have h := List.find?_filter (xs := s2.groups) (p := fun x : Group => decide (x.core = g.core)) (q := fun x : Group => decide (x.slot = g.slot))
    rw [hone] at h
    rw [List.find?_cons_of_pos (by simp)] at h
    simpa only [State.group?, Bool.decide_and, Bool.decide_eq_true] using h.symm
  have hgs : s2.groups.filter (fun x => x.core = g.core && !x.retired) = [g] := by
    have := congrArg (List.filter (fun x : Group => !x.retired)) hone
    rw [List.filter_filter, List.filter_cons_of_pos (by rw [hret]; rfl), List.filter_nil] at this
    simpa only [Bool.and_comm] using this
  have hlans (p : Lantern → Bool) : s2.lanterns.filter (fun l => l.core = g.core && p l) = [] :=
    List.filter_eq_nil_iff.mpr fun l hl => by simp [hlan l hl]
  intro old picks
  unfold coreCycle
  rw [h2]
  extract_lets s' c gs rs bays cycle wake come s3 used c1 s4 ls
  have hgs1 : gs = [g] := hgs
  have hrs : rs = [(g, cs, chosen g (candidates g cs))] := by
    simp only [rs, hgs1, List.filterMap_cons, List.filterMap_nil]
    rw [hcs, if_neg hne]
  have hbays : bays = (upFrom 0 4).map (fun b => if b = g.bay then [(g, cs, chosen g (candidates g cs))] else []) := by
    simp only [bays, hrs]
    exact List.map_congr_left fun b _ => bays_of_one s2 c (g, cs, chosen g (candidates g cs)) hbusy b
  have hflat : bays.flatten = [(g, cs, chosen g (candidates g cs))] := by rw [hbays, flatten_of_one _ hbay]
  have hwake : wake = g.wakes s2 := by
    simp only [wake, hgs1, List.flatMap_cons, List.flatMap_nil, List.append_nil]
    rw [hlans, List.flatMap_nil, List.append_nil]
  have hcome : come = (arrivals s2 g).map (fun x => x.bundle g.core g.slot) := by
    simp only [come, s', hgs1, List.flatMap_cons, List.flatMap_nil, List.append_nil]
  have hs3 : s3 = issueGroup { s2 with issue := s2.issue ++ g.wakes s2 ++ (arrivals s2 g).map (fun x => x.bundle g.core g.slot) } cycle
      (g, cs, chosen g (candidates g cs)) := by
    simp only [s3, s', hflat, hwake, hcome, List.foldl_cons, List.foldl_nil]
  have hages : c1.ages = (upFrom 0 4).map (fun b => (upFrom 0 8).map (fun k =>
      if b = g.bay ∧ k ∈ picks.map (fun c => classIn s2 g c.unit.word) then 0 else (old.ages.getD b []).getD k 0 + 1)) := by
    simp only [c1, used, hbays]
    rw [classAges_of_one (fun r => (issued r).map (fun x => classIn s2 r.1 x.unit.word)) (g, cs, chosen g (candidates g cs)) g.bay c.ages]
  have hbusys : c1.busy = (upFrom 0 4).map (fun b => decide (b = g.bay ∧ g.width = 64)) := by
    simp only [c1, hbays]
    exact busy_of_one _ _
  have hc1 : c1 = { old with cycles := old.cycles + 1, ages := c1.ages, busy := c1.busy } := rfl
  rw [hages, hbusys] at hc1
  have hls : ls = [] := by
    have h4 : s4.lanterns = s2.lanterns :=
      (congrArg (fun s => (s.setCoreState c1).lanterns) hs3).trans (congrArg State.lanterns (setCoreState_issueGroup cycle _ _ _ c1 hg))
    simp only [ls, h4]
    rw [hlans, List.map_nil]
  rw [hls, List.append_nil]
  change s3.setCoreState c1 = _
  rw [hs3, setCoreState_issueGroup cycle _ _ _ c1 hg, hc1]

end Sys2Proof.Machine

open Sys2Proof Sys2Proof.Machine

namespace Sys2Proof.Claims

theorem unitSelection_holds : UnitSelection := by
  intro g cs
  refine ⟨chosen_eq_nil, fun a rest h => chosen_cons h, fun a b => ⟨before_of_aged, before_iff_of_aged, before_iff_of_young⟩,
    fun a b k ha hb hk hc hlt => fitToken_of_full ha hb hk hc hlt, fun a b k ha _ hc => fitToken_of_room b ha hc, mem_candidates g cs⟩

theorem pcAges_hold : PcAges := by
  intro core slot pc s g hg
  rw [exec_pcAged, execPcAged, hg]
  simp only [Bool.and_eq_true, decide_eq_true_eq]

theorem resultsLand_hold : ResultsLand := by
  intro core slot op lane s g t o d hs hg ht ho hd hfid hstep hw hl hsp
  obtain rfl : d.lane = lane := by simpa using List.find?_some hd
  rw [exec_longLatencyComplete, execLongLatencyComplete]
  unfold landResult
  simp only [State.front?_of_group hs hg, ho, hd, hs, if_true, hg, ht, hfid, Bool.false_eq_true, if_false, landIn_eq o.tok hw hl hsp]
  refine congrArg Host.Outcome.next (congrArg (tryEntry · core slot) ?_)
  split
  next hsplit => exact singleStep_of_noStep _ fun k hk => by cases (State.group?_setGroup_of hg _).symm.trans hk; exact hstep hsplit
  next => rfl

theorem slotFrees_holds : SlotFrees := by
  intro core slot s g hg hr hl ho hp
  have he : freeSlot s core slot = { s with groups := s.groups.filter (fun x => !(x.core = core && x.slot = slot)) } := by
    simp only [freeSlot, hg, hr, hl, ho, hp, decide_true, Bool.and_self, if_true]
  refine ⟨_, (exec_groupSlotFree core slot s).trans (congrArg Host.Outcome.next he), ?_, fun c n hcn => ?_, rfl, rfl⟩
  · rw [State.group?, List.find?_filter, List.find?_eq_none]
    intro x _
    cases decide (x.core = core) && decide (x.slot = slot) <;> exact Bool.false_ne_true
  · rw [State.group?, List.find?_filter, State.group?]
    congr 1
    funext x
    by_cases hx : x.core = c ∧ x.slot = n
    · simp only [← Bool.decide_and, hx, hcn, decide_false, Bool.not_false, decide_true, Bool.and_self, and_self]
    · simp only [← Bool.decide_and, hx, decide_false, Bool.false_eq_true, and_false]

theorem oneGroupIssues_holds : OneGroupIssues := by
  intro core s g cs hidle hcore s2 hone hlan hret hbay hcs hne hbusy old picks kinds
  have hstart : (!(s.issue.any (fun b => b.core = core)) && decide (core < Config.cores)) = true := by
    rw [List.any_eq_false.mpr fun b hb => by simpa using hidle b hb, decide_eq_true (show core < Config.cores from hcore)]
    rfl
  rw [exec_issueCycle, execIssueCycle, if_pos hstart, coreCycle_of_one rfl hone hlan hret hbay hcs hne hbusy]
  rfl

end Sys2Proof.Claims

/-- Settles O44: the selection of units, the core's cycle, and the events of a slot. -/
theorem frontEndEvents : Obligations.FrontEndEvents := by
  unfold Obligations.FrontEndEvents
  exact ⟨Claims.unitSelection_holds, Claims.oneGroupIssues_holds, Claims.pcAges_hold, Claims.resultsLand_hold, Claims.slotFrees_holds⟩

end

section
/-! The encoder and the decoder undo each other (R38, R55): set, major, fn and fields. -/

namespace Sys2Proof

/-! ### A word of the encoder selects its instruction -/

/-- The major of an L-set word, and the decoder of that major (R52). -/
def LInstr.family : LInstr → Nat × (Word → Raw)
  | .iadd .. | .isub .. | .imul .. | .imulh .. | .imulhz .. | .imin .. | .imax .. | .iminz .. | .imaxz .. | .iabs .. | .and ..
    | .or .. | .xor .. | .andn .. => (0x00, decodeL00)
  | .shl .. | .shr .. | .sar .. | .rotl .. | .popc .. | .clz .. | .ctz .. | .brev .. | .bswap .. | .imad .. | .bfx .. | .bfi ..
    | .iadd64 .. | .isub64 .. | .imulw .. | .mov .. => (0x01, decodeL01)
  | .iaddi .. => (0x02, decodeL02)
  | .andi .. => (0x03, decodeL03)
  | .ori .. => (0x04, decodeL04)
  | .xori .. => (0x05, decodeL05)
  | .shli .. | .shri .. | .sari .. | .rotli .. => (0x06, decodeL06)
  | .movi .. => (0x07, decodeL07)
  | .icmp .. => (0x08, decodeL08)
  | .fcmp .. | .dcmp .. => (0x09, decodeL09)
  | .sel .. | .pset .. | .ptest .. => (0x0A, decodeL0A)
  | .pand .. | .por .. | .pxor .. | .pandn .. | .pnot .. | .pmov .. => (0x0B, decodeL0B)
  | .fadd .. | .fsub .. | .fmul .. | .ffma .. | .ffms .. | .fmin .. | .fmax .. | .fabs .. | .fneg .. | .fcps .. | .frnd ..
    | .fclass .. => (0x0C, decodeL0C)
  | .dadd .. | .dsub .. | .dmul .. | .dfma .. | .dfms .. | .dmin .. | .dmax .. | .dabs .. | .dneg .. | .drnd .. | .dclass .. => (0x0D, decodeL0D)
  | .hadd2 .. | .hmul2 .. | .hfma2 .. | .hmin2 .. | .hmax2 .. | .badd2 .. | .bmul2 .. | .bfma2 .. | .bmin2 .. | .bmax2 .. => (0x0E, decodeL0E)
  | .frcp .. | .frsq .. | .fsqrt .. | .fexp2 .. | .flog2 .. | .fsinp .. | .fcosp .. | .drcp .. | .drsq .. | .dsqrt .. => (0x0F, decodeL0F)
  | .cvt .. => (0x10, decodeL10)
  | .ldlB32 .. | .ldlB64 .. | .stlB32 .. | .stlB64 .. | .ldsS8 .. | .ldsZ8 .. | .ldsS16 .. | .ldsZ16 .. | .ldsB32 .. | .ldsB64 ..
    | .ldsB128 .. | .stsB8 .. | .stsB16 .. | .stsB32 .. | .stsB64 .. | .stsB128 .. => (0x11, decodeL11)
  | .ldcB32 .. | .ldcB64 .. | .ldcB128 .. | .stcB32 .. | .stcB64 .. | .stcB128 .. | .ldcAcqB32 .. | .ldcAcqB64 .. | .stcRelB32 ..
    | .stcRelB64 .. | .prs .. => (0x12, decodeL12)
  | .atomsAdd .. | .atomsMin .. | .atomsMax .. | .atomsMinz .. | .atomsMaxz .. | .atomsAnd .. | .atomsOr .. | .atomsXor ..
    | .atomsXchg .. | .atomsCas .. | .atomsFadd .. | .atomsAdd64 .. => (0x13, decodeL13)
  | .atomcAdd .. | .atomcMin .. | .atomcMax .. | .atomcMinz .. | .atomcMaxz .. | .atomcAnd .. | .atomcOr .. | .atomcXor ..
    | .atomcXchg .. | .atomcCas .. | .atomcFadd .. | .atomcDadd .. | .atomcAdd64 .. | .atomcMaxloc .. | .atomcMinloc .. => (0x14, decodeL14)
  | .gathB32 .. | .gathB64 .. | .scatB32 .. | .scatB64 .. => (0x15, decodeL15)
  | .xchPick .. | .xchMove .. | .xchFlip .. | .xchEdge .. | .qryCnt .. | .qryEvery .. | .qryBits .. | .redIadd .. | .redImin ..
    | .redImax .. | .redFadd .. | .redFmin .. | .redFmax .. | .scanIadd .. | .scanFadd .. | .maxloc .. => (0x16, decodeL16)
  | .segredIadd .. | .segredFadd .. | .segscanFadd .. | .matchLanes .. | .compact .. | .lsort .. => (0x17, decodeL17)
  | .bra .. => (0x18, decodeL18)
  | .rjm .. | .rjadd .. | .join .. | .exit | .exits .. | .regroup .. | .yield | .dly .. | .waitk .. | .guard .. | .bkpt | .trap ..
    | .nop => (0x19, decodeL19)
  | .kacc .. => (0x1A, decodeL1A)
  | .kfind .. => (0x1B, decodeL1B)
  | .rngB32 .. | .rngF32 .. | .rdspec .. | .cycle .. => (0x1C, decodeL1C)
  | .mxgo .. => (0x1D, decodeL1D)

/-- An L-set word has bit 31 clear (R38). -/
theorem LInstr.set_encode (i : LInstr) : fld i.encode 31 1 = 0 := by
  cases i <;> dsimp only [LInstr.encode] <;>
    simp only [fld, field_hi, Nat.reduceAdd, Nat.reduceLeDiff, Nat.reduceSub, Nat.le_refl, Nat.sub_self, BitVec.reduceExtractLsb',
      BitVec.extractLsb'_eq_self, BitVec.ofNat_eq_ofNat]

theorem LInstr.major_encode (i : LInstr) : (fld i.encode 25 5).toNat = i.family.1 := by
  cases i <;> dsimp only [LInstr.encode, LInstr.family] <;>
    simp only [fld, field_lo, field_hi, Nat.reduceAdd, Nat.reduceLeDiff, Nat.reduceSub, Nat.le_refl, Nat.sub_self, BitVec.reduceExtractLsb',
      BitVec.extractLsb'_eq_self, BitVec.reduceToNat]

/-- Set and major lead to the decoder of the word's family. -/
theorem LInstr.rawDecode_encode_family (i : LInstr) : rawDecode i.encode = i.family.2 i.encode := by
  rw [rawDecode, if_pos i.set_encode, i.major_encode]
  generalize i.encode = w
  cases i <;> rfl

/-- The decoder of a family reads every field back where the encoder laid it. -/
theorem LInstr.family_encode (i : LInstr) : i.family.2 i.encode = .instr (.l i) := by
  cases i <;> dsimp only [LInstr.encode, LInstr.family] <;>
    simp only [fld, field_lo, field_hi, bit_of_bool, decodeL00, decodeL01, decodeL02, decodeL03, decodeL04, decodeL05, decodeL06, decodeL07,
      decodeL08, decodeL09, decodeL0A, decodeL0B, decodeL0C, decodeL0D, decodeL0E, decodeL0F, decodeL10, decodeL11, decodeL12, decodeL13,
      decodeL14, decodeL15, decodeL16, decodeL17, decodeL18, decodeL19, decodeL1A, decodeL1B, decodeL1C, decodeL1D,
      Nat.reduceAdd, Nat.reduceLeDiff, Nat.reduceSub, Nat.le_refl, Nat.sub_self, BitVec.reduceExtractLsb', BitVec.extractLsb'_eq_self,
      BitVec.ofNat_eq_ofNat, BitVec.reduceEq, ↓reduceIte, Nat.zero_add, BitVec.toNat_ofNat, Nat.reducePow, Nat.reduceMod]

theorem LInstr.rawDecode_encode (i : LInstr) : rawDecode i.encode = .instr (.l i) :=
  i.rawDecode_encode_family.trans i.family_encode

/-- A U-set word has bit 31 set, and no major reaches bit 30 (R38, R54). -/
theorem UInstr.set_encode (i : UInstr) : fld i.encode 30 2 = 2 := by
  cases i <;> dsimp only [UInstr.encode] <;>
    simp only [fld, field_hi, Nat.reduceAdd, Nat.reduceLeDiff, Nat.reduceSub, BitVec.reduceExtractLsb', BitVec.ofNat_eq_ofNat]

/-- The U-set has few enough words to follow set, major, fn and fields at once. -/
theorem UInstr.rawDecode_encode (i : UInstr) : rawDecode i.encode = .instr (.u i) := by
  cases i <;> dsimp only [UInstr.encode] <;>
    simp only [rawDecode, fld, field_lo, field_hi, decodeU00, decodeU01, decodeU02, decodeU03, decodeU04, decodeU05, decodeU06, decodeU07,
      decodeU08, decodeU09, decodeU0A, decodeU0B, decodeU0C, decodeU0D, decodeU0E, decodeU0F, decodeU10, decodeU11,
      Nat.reduceAdd, Nat.reduceLeDiff, Nat.reduceSub, Nat.le_refl, Nat.sub_self, BitVec.reduceExtractLsb', BitVec.extractLsb'_eq_self,
      BitVec.ofNat_eq_ofNat, BitVec.reduceEq, ↓reduceIte, Nat.zero_add, BitVec.toNat_ofNat, Nat.reducePow, Nat.reduceMod]

/-- The word of an instruction selects that instruction (R38). -/
theorem Code.rawDecode_encode (c : Code) : rawDecode c.encode = .instr c := by
  cases c with
  | l i => exact i.rawDecode_encode
  | u i => exact i.rawDecode_encode

/-! ### Causes of a word -/

theorem lowestCause_eq_none {cs : List Nat} : lowestCause cs = none ↔ cs = [] := by
  rcases List.eq_nil_or_concat' cs with rfl | ⟨cs, c, rfl⟩
  · exact iff_of_true rfl rfl
  · refine iff_of_false (fun h => ?_) (List.append_ne_nil_of_right_ne_nil cs (List.cons_ne_nil c []))
    rw [lowestCause, List.foldl_append, List.foldl_cons, List.foldl_nil] at h
    split at h <;> cases h

/-- A word decodes when what it selects differs from it in no bit that R55 checks, and breaks no rule of R55. -/
theorem decodeCode_eq_ok {w : Word} {c : Code} :
    decodeCode w = .ok c ↔ rawDecode w = .instr c ∧ diffCauses c w = [] ∧ staticCauses c = [] := by
  unfold decodeCode
  cases hr : rawDecode w with
  | illegal k => simp
  | instr i =>
    dsimp only
    cases hc : lowestCause (diffCauses i w ++ staticCauses i) with
    | none =>
      have hn := lowestCause_eq_none.1 hc
      rw [List.append_eq_nil_iff] at hn
      constructor
      · rintro ⟨⟩
        exact ⟨rfl, hn⟩
      · rintro ⟨⟨⟩, _⟩
        rfl
    | some k =>
      constructor
      · rintro ⟨⟩
      · rintro ⟨⟨⟩, hd, hs⟩
        rw [hd, hs] at hc
        cases hc

/-- The word of an instruction differs from it nowhere. -/
theorem diffCauses_encode (c : Code) : diffCauses c c.encode = [] := by
  unfold diffCauses
  rw [BitVec.xor_self]
  cases c with
  | l i => cases i <;> rfl
  | u i => cases i <;> rfl

/-! ### Instructions and their words -/

theorem Code.code_instr (c : Code) : c.instr.code = some c := by
  cases c with
  | l i => cases i <;> rfl
  | u i => cases i <;> rfl

theorem Instr.instr_code {i : Instr} {c : Code} (h : i.code = some c) : c.instr = i := by
  have hi : (i.code.map Code.instr).getD i = i := by cases i <;> rfl
  rwa [h] at hi

theorem encode_eq_some {i : Instr} {w : Word} (h : encode i = some w) : ∃ c, i.code = some c ∧ c.encode = w :=
  Option.map_eq_some_iff.1 h

theorem Instr.wf_of_code {i : Instr} {c : Code} (h : i.code = some c) : i.wf ↔ staticCauses c = [] := by
  unfold Instr.wf
  rw [h]

/-! ### What a word agrees in with the instruction it selects -/

theorem getLsbD_of_fld {v w : Word} {lo n i : Nat} (h : fld v lo n = fld w lo n) (hl : lo ≤ i) (hu : i < lo + n) :
    v.getLsbD i = w.getLsbD i := by
  have hi : i - lo < n := by omega
  have hb : (fld v lo n).getLsbD (i - lo) = (fld w lo n).getLsbD (i - lo) := congrArg (·.getLsbD (i - lo)) h
  simpa only [fld, BitVec.getLsbD_extractLsb', hi, decide_true, Bool.true_and, Nat.add_sub_cancel' hl] using hb

theorem getLsbD_of_fld_zero {v : Word} {lo n i : Nat} (h : fld v lo n = 0) (hl : lo ≤ i) (hu : i < lo + n) : v.getLsbD i = false := by
  have hz : fld v lo n = fld (0 : Word) lo n := h.trans (BitVec.eq_of_getLsbD_eq fun j _ => by simp [fld])
  rw [getLsbD_of_fld hz hl hu, BitVec.ofNat_eq_ofNat, BitVec.getLsbD_zero]

/-- Where a word agrees with an instruction that it selects, whatever its reserved bits hold: in its set, in the U-set with the top bit of
its major, and for a scatter, of whose bits R55 checks the low ones alone, in major, fn and registers. -/
def Code.Agrees (w : Word) : Code → Prop
  | .l (.scatB32 d a k) => fld w 31 1 = 0 ∧ ∀ j, 3 ≤ j → j < 30 → w.getLsbD j = (LInstr.encode (.scatB32 d a k)).getLsbD j
  | .l (.scatB64 d a k) => fld w 31 1 = 0 ∧ ∀ j, 3 ≤ j → j < 30 → w.getLsbD j = (LInstr.encode (.scatB64 d a k)).getLsbD j
  | .l _ => fld w 31 1 = 0
  | .u _ => fld w 30 2 = 2

/-- What a word selects, if anything, agrees with it. -/
def Raw.Agrees (w : Word) : Raw → Prop
  | .instr c => c.Agrees w
  | .illegal _ => True

/-- Two words with the same major, fn, registers and token have the same bits from 3 to 29. -/
theorem getLsbD_of_registers {v w : Word} (hk : fld v 3 4 = fld w 3 4) (ha : fld v 7 7 = fld w 7 7) (hd : fld v 14 7 = fld w 14 7)
    (hf : fld v 21 4 = fld w 21 4) (hm : fld v 25 5 = fld w 25 5) (j : Nat) (hl : 3 ≤ j) (hu : j < 30) : v.getLsbD j = w.getLsbD j := by
  rcases (by omega : j < 7 ∨ (7 ≤ j ∧ j < 14) ∨ (14 ≤ j ∧ j < 21) ∨ (21 ≤ j ∧ j < 25) ∨ 25 ≤ j) with
    h | ⟨h7, h⟩ | ⟨h14, h⟩ | ⟨h21, h⟩ | h
  · exact getLsbD_of_fld hk hl h
  · exact getLsbD_of_fld ha h7 h
  · exact getLsbD_of_fld hd h14 h
  · exact getLsbD_of_fld hf h21 h
  · exact getLsbD_of_fld hm h hu

/-- Major 0x15 holds the scatters, whose fields its decoder reads one by one. -/
theorem decodeL15_agrees {w : Word} (hs : fld w 31 1 = 0) (hm : (fld w 25 5).toNat = 21) : (decodeL15 w).Agrees w := by
  have hmajor (i : LInstr) (hi : i.family.1 = 21) : fld w 25 5 = fld i.encode 25 5 :=
    BitVec.eq_of_toNat_eq (hm.trans (i.major_encode.trans hi).symm)
  unfold decodeL15
  split
  case h_1 => exact hs
  case h_2 => exact hs
  case h_3 hf =>
    refine ⟨hs, getLsbD_of_registers ?_ ?_ ?_ (BitVec.eq_of_toNat_eq (hf.trans ?_)) (hmajor _ rfl)⟩ <;>
      simp [LInstr.encode, fld, field_lo, field_hi]
  case h_4 hf =>
    refine ⟨hs, getLsbD_of_registers ?_ ?_ ?_ (BitVec.eq_of_toNat_eq (hf.trans ?_)) (hmajor _ rfl)⟩ <;>
      simp [LInstr.encode, fld, field_lo, field_hi]
  case h_5 => exact True.intro

/-- Every other major of the L-set selects words of the L-set that are no scatters. -/
theorem rawDecode_agrees_lset {w : Word} (hs : fld w 31 1 = 0) : (rawDecode w).Agrees w := by
  rw [rawDecode, if_pos hs]
  split
  case h_22 hm => exact decodeL15_agrees hs hm
  case h_31 => exact True.intro
  all_goals simp only [decodeL00, decodeL01, decodeL02, decodeL03, decodeL04, decodeL05, decodeL06, decodeL07, decodeL08, decodeL09,
    decodeL0A, decodeL0B, decodeL0C, decodeL0D, decodeL0E, decodeL0F, decodeL10, decodeL11, decodeL12, decodeL13, decodeL14, decodeL16,
    decodeL17, decodeL18, decodeL19, decodeL1A, decodeL1B, decodeL1C, decodeL1D]
  all_goals repeat' split
  all_goals simp only [Raw.Agrees, Code.Agrees, hs]

/-- The majors of the U-set end at 0x11, below the top bit of the field. -/
theorem rawDecode_agrees_uset {w : Word} (hs : ¬ fld w 31 1 = 0) : (rawDecode w).Agrees w := by
  have htop (hm : (fld w 25 6).toNat < 32) : fld w 30 2 = 2 := by
    have h31 : w.toNat / 2 ^ 31 % 2 ≠ 0 := fun h => hs (BitVec.eq_of_toNat_eq (by simpa [fld, Nat.shiftRight_eq_div_pow] using h))
    apply BitVec.eq_of_toNat_eq
    simp only [fld, BitVec.extractLsb'_toNat, Nat.shiftRight_eq_div_pow, BitVec.ofNat_eq_ofNat, BitVec.toNat_ofNat] at hm ⊢
    have := w.isLt
    omega
  rw [rawDecode, if_neg hs]
  split
  case h_19 => exact True.intro
  all_goals
    rename_i hm
    simp only [decodeU00, decodeU01, decodeU02, decodeU03, decodeU04, decodeU05, decodeU06, decodeU07, decodeU08, decodeU09, decodeU0A,
      decodeU0B, decodeU0C, decodeU0D, decodeU0E, decodeU0F, decodeU10, decodeU11]
    have ht := htop (by omega)
  all_goals repeat' split
  all_goals simp only [Raw.Agrees, Code.Agrees, ht]

theorem rawDecode_agrees {w : Word} {c : Code} (h : rawDecode w = .instr c) : c.Agrees w := by
  have ha : (rawDecode w).Agrees w := (em (fld w 31 1 = 0)).elim rawDecode_agrees_lset rawDecode_agrees_uset
  rwa [h] at ha

/-! ### A word that R55 finds nothing in is the encoding of what it selects -/

theorem getLsbD_lowMask : ∀ i < 32, (0x3FFFFFFF#32).getLsbD i = decide (i < 30) := by decide

theorem getLsbD_tokenMask : ∀ i < 32, (0xFFFFFE1F#32).getLsbD i = !decide (5 ≤ i ∧ i < 9) := by decide

/-- A check that finds no cause passed. -/
theorem of_check_nil {α : Type} {P : Prop} [Decidable P] {k : α} (h : (if P then [] else [k]) = []) : P := by
  by_contra hP
  rw [if_neg hP] at h
  exact List.cons_ne_nil k [] h

theorem eq_zero_of_check {u : List Nat} {x : Word} {k : Nat} (h : u ++ (if x = 0 then [] else [k]) = []) : x = 0 :=
  of_check_nil (List.append_eq_nil_iff.1 h).2

/-- A word whose token field and whose other bits are checked apart (R55). -/
theorem eq_zero_of_token_checks {u : List Nat} {x : Word} {k m : Nat}
    (h : u ++ ((if fld x 5 4 = 0 then [] else [k]) ++ (if x &&& 0xFFFFFE1F#32 = 0 then [] else [m])) = []) : x = 0 := by
  simp only [List.append_eq_nil_iff] at h
  obtain ⟨_, ht, hr⟩ := h
  replace ht := of_check_nil ht
  replace hr := of_check_nil hr
  apply BitVec.eq_of_getLsbD_eq
  intro i hi
  by_cases hk : 5 ≤ i ∧ i < 9
  · exact (getLsbD_of_fld_zero ht hk.1 hk.2).trans BitVec.getLsbD_zero.symm
  · have hb : (x &&& 0xFFFFFE1F#32).getLsbD i = (0 : Word).getLsbD i := by rw [hr]
    simpa [getLsbD_tokenMask i hi, hk] using hb

/-- A scatter's low bits are checked two and one apart (R55), and its others are those of what it selects. -/
theorem low_of_scatter_checks {w v : Word} {u : List Nat} {k m : Nat} (ha : ∀ j, 3 ≤ j → j < 30 → w.getLsbD j = v.getLsbD j)
    (h : u ++ ((if fld ((w ^^^ v) &&& 0x3FFFFFFF#32) 1 2 = 0 then [] else [k]) ++
      (if fld ((w ^^^ v) &&& 0x3FFFFFFF#32) 0 1 = 0 then [] else [m])) = []) : (w ^^^ v) &&& 0x3FFFFFFF#32 = 0 := by
  simp only [List.append_eq_nil_iff] at h
  obtain ⟨_, hr, he⟩ := h
  apply BitVec.eq_of_getLsbD_eq
  intro i hi
  rw [BitVec.ofNat_eq_ofNat, BitVec.getLsbD_zero]
  rcases (by omega : i < 1 ∨ (1 ≤ i ∧ i < 3) ∨ 3 ≤ i) with h | ⟨h1, h⟩ | h
  · exact getLsbD_of_fld_zero (of_check_nil he) (Nat.zero_le i) h
  · exact getLsbD_of_fld_zero (of_check_nil hr) h1 h
  · by_cases hu : i < 30
    · rw [BitVec.getLsbD_and, BitVec.getLsbD_xor, ha i h hu, Bool.xor_self, Bool.false_and]
    · rw [BitVec.getLsbD_and, getLsbD_lowMask i hi, decide_eq_false hu, Bool.and_false]

/-- Where R55 finds no reserved bit, a word and what it selects agree below bit 30. -/
theorem low_of_diffCauses {w : Word} {c : Code} (ha : c.Agrees w) (h : diffCauses c w = []) : (w ^^^ c.encode) &&& 0x3FFFFFFF#32 = 0 := by
  cases c with
  | l i =>
    cases i
    case scatB32 => exact low_of_scatter_checks ha.2 h
    case scatB64 => exact low_of_scatter_checks ha.2 h
    all_goals exact eq_zero_of_check h
  | u i =>
    cases i
    case tbar => exact eq_zero_of_token_checks h
    case pbar => exact eq_zero_of_token_checks h
    case waitbm => exact eq_zero_of_token_checks h
    all_goals exact eq_zero_of_check h

theorem Code.Agrees.lset {w : Word} {i : LInstr} (h : (Code.l i).Agrees w) : fld w 31 1 = 0 := by
  cases i
  case scatB32 => exact h.1
  case scatB64 => exact h.1
  all_goals exact h

/-- R55 finds bit 30 of an L-set word where it differs from what the word selects. -/
theorem bit30_of_diffCauses {w : Word} {c : Code} (h : diffCauses c w = []) (hs : fld w 31 1 = 0) :
    w.getLsbD 30 = c.encode.getLsbD 30 := by
  have hu := (List.append_eq_nil_iff.1 h).1
  have hne : ¬ fld (w ^^^ c.encode) 30 1 = 1 := fun hb => List.cons_ne_nil 8 [] ((if_pos ⟨hb, hs⟩).symm.trans hu)
  have hx := getLsbD_of_fld_zero ((BitVec.eq_zero_or_eq_one _).resolve_right hne) (Nat.le_refl 30) (by decide)
  rwa [BitVec.getLsbD_xor, bne_eq_false_iff_eq] at hx

/-- A word that selects an instruction and in which R55 finds no bit that differs is the word of that instruction. -/
theorem encode_of_selected {w : Word} {c : Code} (hr : rawDecode w = .instr c) (hd : diffCauses c w = []) : c.encode = w := by
  have ha := rawDecode_agrees hr
  have hlow (j : Nat) (hj : j < 30) : w.getLsbD j = c.encode.getLsbD j := by
    have hb : ((w ^^^ c.encode) &&& 0x3FFFFFFF#32).getLsbD j = false := by
      rw [low_of_diffCauses ha hd, BitVec.ofNat_eq_ofNat, BitVec.getLsbD_zero]
    rwa [BitVec.getLsbD_and, getLsbD_lowMask j (by omega), decide_eq_true hj, Bool.and_true, BitVec.getLsbD_xor, bne_eq_false_iff_eq] at hb
  have htop (j : Nat) (h30 : 30 ≤ j) (hj : j < 32) : w.getLsbD j = c.encode.getLsbD j := by
    cases c with
    | u i => exact getLsbD_of_fld (ha.trans i.set_encode.symm) h30 hj
    | l i =>
      rcases h30.eq_or_lt with rfl | h31
      · exact bit30_of_diffCauses hd ha.lset
      · exact getLsbD_of_fld (ha.lset.trans i.set_encode.symm) h31 hj
  exact BitVec.eq_of_getLsbD_eq fun j hj => ((Nat.lt_or_ge j 30).elim (hlow j) (htop j · hj)).symm

end Sys2Proof

open Sys2Proof

/-- Settles O11: set, major and fields of an encoded word lead back to its instruction, and no cause of R55 is left. -/
theorem encodedWordsDecode : Obligations.EncodedWordsDecode := by
  unfold Obligations.EncodedWordsDecode
  intro i w hwf he
  obtain ⟨c, hc, rfl⟩ := encode_eq_some he
  have hd : decodeCode c.encode = .ok c :=
    decodeCode_eq_ok.2 ⟨c.rawDecode_encode, diffCauses_encode c, (Instr.wf_of_code hc).1 hwf⟩
  rw [decodeWord, hd]
  exact congrArg Except.ok (Instr.instr_code hc)

/-- Settles O12: a word in which R55 finds nothing agrees in every bit with the word of what it selects. -/
theorem decodedWordsEncode : Obligations.DecodedWordsEncode := by
  unfold Obligations.DecodedWordsEncode
  intro w i h
  obtain ⟨c, hc, rfl⟩ := Machine.decodeWord_ok h
  obtain ⟨hr, hd, hs⟩ := decodeCode_eq_ok.1 hc
  exact ⟨(Instr.wf_of_code c.code_instr).2 hs, by rw [encode, c.code_instr, Option.map_some, encode_of_selected hr hd]⟩

/-- Settles O15: each listed word is the encoding of its instruction, which is well formed. -/
theorem listedWordsDecode : Obligations.ListedWordsDecode := by
  unfold Obligations.ListedWordsDecode
  have h := encodedWordsDecode
  exact ⟨h _ _ rfl rfl, h _ _ rfl rfl, h _ _ rfl rfl, h _ _ rfl rfl, h _ _ rfl rfl, h _ _ rfl rfl, h _ _ rfl rfl, h _ _ rfl rfl,
    h _ _ rfl rfl, h _ _ rfl rfl, h _ _ rfl rfl, h _ _ rfl rfl, h _ _ rfl rfl⟩

end

section
/-! CVT, and the implicit join of a dithered one in a deterministic task (R67, R110, R128-R130, R336). -/

namespace Sys2Proof.Machine

theorem issuingDet_of_issues {s : State} {b : Bundle} {g : Group} {t : Team} (hi : Issues s b g t) : issuingDet s = t.det := by
  simp only [issuingDet, hi.head, hi.team, Option.map_some, Option.getD_some]

theorem advancePhase_place (g : Group) (act : LaneSet) (n : Nat) : (advancePhase g act n).core = g.core ∧ (advancePhase g act n).slot = g.slot := by
  unfold advancePhase
  dsimp only
  split <;> exact ⟨rfl, rfl⟩

/-- What the lanes of a CVT compute, each from its own source. -/
theorem cvtOuts_eq {u : Bool} {f : BitVec 4} {d a : VReg} {r : BitVec 3} {p : BitVec 4} {b : Bundle} {g gd : Group} {out : Nat → LaneOut}
    (hc : Claims.Converts u f d a r p b g gd out) :
    let one (j src : Nat) : Nat × LaneOut :=
      let l := (g.issued b 1).lane src
      (j, cvtOut f d a (cvtRnd r (fpcRm ((g.issued b 1).fpcFor l)) (ditherT src ((g.issued b 1).phase (g.activeOf b 1)))) p l)
    let ls := lanesIn (g.activeOf b 1)
    (if u then ls.map (fun j => one j (ls.headD 0)) else ls.map (fun j => one j j)) = ls.map (fun j => (j, out j)) := by
  obtain rfl := funext hc.lanes
  cases u <;> rfl

/-- A CVT whose lanes raise no flag that traps gives them its results, once a dithered one has taken and advanced the phase. -/
theorem cvtBody_converts {u : Bool} {f : BitVec 4} {d a : VReg} {r : BitVec 3} {p : BitVec 4} {s : State} {b : Bundle} {g gd : Group} {t : Team}
    {out : Nat → LaneOut} (hi : Issues s b g t) (hw : b.Whole) (hc : Claims.Converts u f d a r p b g gd out) :
    cvtBody (.cvt u f d a r p) f d a r p (Issues.ix (.cvt u f d a r p) b g t 1) (s.issued b g 1) =
      (s.issued b g 1).setGroup (gd.results (g.activeOf b 1) 8 out) := by
  let x := Issues.ix (.cvt u f d a r p) b g t 1
  have hg := State.issued_group hi 1
  have hland {S : State} (hS : S.group? b.core b.slot = some gd) :
      finishAlu x 8 ((lanesIn x.act).map (fun j => (j, out j))) S = S.setGroup (gd.results x.act 8 out) :=
    finishAlu_quiet 8 out hw hS hc.quiet
  have hbody : cvtBody (.cvt u f d a r p) f d a r p x (s.issued b g 1) = finishAlu x 8 ((lanesIn x.act).map (fun j => (j, out j)))
      (if r = 4 then (s.issued b g 1).setGroup (advancePhase (g.issued b 1) x.act 1) else s.issued b g 1) := by
    unfold cvtBody
    rw [show (s.issued b g 1).group? x.core x.slot = some (g.issued b 1) from hg]
    exact congrArg (finishAlu x 8 · _) (cvtOuts_eq hc)
  rw [hbody]
  have hgd := hc.after
  split
  next h4 =>
    rw [if_pos h4] at hgd
    subst hgd
    obtain ⟨hcore, hslot⟩ := advancePhase_place (g.issued b 1) x.act 1
    exact (hland (State.group?_setGroup_of hg _ hcore hslot)).trans (State.setGroup_setGroup _ rfl rfl)
  next h4 =>
    rw [if_neg h4] at hgd
    subst hgd
    exact hland hg

theorem execCvt_alone {u : Bool} {f : BitVec 4} {d a : VReg} {r : BitVec 3} {p : BitVec 4} {s : State} {b : Bundle} {g : Group} {t : Team}
    (hi : Issues s b g t) (h : ¬(r = 4 ∧ t.det = true)) :
    execCvt u f d a r p s = lset (.cvt u f d a r p) s (cvtBody (.cvt u f d a r p) f d a r p) 1 (LInstr.cvt u f d a r p).use true := by
  rw [execCvt, if_neg]
  rwa [issuingDet_of_issues hi, Bool.and_eq_true, decide_eq_true_eq]

theorem execCvt_joined {u : Bool} {f : BitVec 4} {d a : VReg} {p : BitVec 4} {s : State} {b : Bundle} {g : Group} {t : Team}
    (hi : Issues s b g t) (h : t.det = true) :
    execCvt u f d a 4 p s = joinedLset (.cvt u f d a 4 p)
      { legal := fun t lan h => legality t lan h (.l (.cvt u f d a 4 p)) (LInstr.cvt u f d a 4 p).encode }
      (LInstr.cvt u f d a 4 p).use s (cvtBody (.cvt u f d a 4 p) f d a 4 p) := by
  rw [execCvt, if_pos]
  rw [issuingDet_of_issues hi, h]
  rfl

/-- A join that is complete counts a lane. -/
theorem Group.members_ne_zero_of_full {g : Group} {h : Bool} {pc : Addr} (hf : g.fullAt h = some pc) : g.members h ≠ 0 := by
  intro hm
  rw [Group.fullAt, lanesIn_eq_nil.2 hm] at hf
  cases hf

section
variable {i : LInstr} {legal : Team → Bool → Bool → Option Nat} {s : State} {b : Bundle} {g : Group} {t : Team} {h : Bool}
  (body : Ix → State → State) (hi : Issues s b g t) (hl : legal t false g.fe.handler = none)
  (hh : h = decide ((b.lanes &&& g.members true) ≠ 0))
include hi hl hh

/-- The lanes of a bundle park at an implicit full join until every live lane stands there (R67). -/
theorem joinedLset_waits (hf : (g.arrived b).fullAt h ≠ some b.unit) :
    joinedLset i { legal := legal } i.use s body = .next (settleJoins (s.pop.setGroup (g.arrived b)) b.core b.slot) := by
  subst hh
  unfold joinedLset
  simp only [hi.head, hi.group, hi.team]
  refine (if_neg (by rw [hl]; simp)).trans (if_neg ?_)
  show ¬ (decide ((if (g.arrived b).fullAt _ = some b.unit then (g.arrived b).members _ else 0) ≠ 0) && true) = true
  rw [if_neg hf]
  decide

/-- Where every live lane stands at an implicit full join, its word issues over them all (R67). -/
theorem joinedLset_issues (hf : (g.arrived b).fullAt h = some b.unit) :
    joinedLset i { legal := legal } i.use s body = lsetAs i i.encode legal
      { s.setGroup (leaveJoin (g.arrived b) ((g.arrived b).members h) b.unit) with
        issue := { b with lanes := (g.arrived b).members h } :: s.issue.drop 1 } body 1 i.use true := by
  have hne := Group.members_ne_zero_of_full hf
  have hset : (if (g.arrived b).fullAt h = some b.unit then (g.arrived b).members h else 0) = (g.arrived b).members h := if_pos hf
  have hc : (decide ((if (g.arrived b).fullAt h = some b.unit then (g.arrived b).members h else 0) ≠ 0) && true) = true := by
    rw [hset, decide_eq_true hne, Bool.and_true]
  have hs : (s.setGroup (g.arrived b)).setGroup (leaveJoin (g.arrived b) ((g.arrived b).members h) b.unit) =
      s.setGroup (leaveJoin (g.arrived b) ((g.arrived b).members h) b.unit) := State.setGroup_setGroup _ rfl rfl
  rw [← hs, ← hset]
  subst hh
  unfold joinedLset
  simp only [hi.head, hi.group, hi.team]
  exact (if_neg (by rw [hl]; simp)).trans (if_pos hc)

end

end Sys2Proof.Machine

open Sys2Proof Sys2Proof.Machine

namespace Sys2Proof.Claims

theorem conversionWord_holds : ConversionWord := by
  intro u f d a r p s b g gd t out hr hdet hc
  rw [exec_cvt, execCvt_alone hr.toIssues hdet, lset_ready hr, cvtBody_converts hr.toIssues hr.whole hc]

theorem ditheredConversionJoins_holds : DitheredConversionJoins := by
  intro u f d a p s s2 b b2 g g1 g2 gd t h out i hi hdet hl hh hg1
  subst hg1
  rw [exec_cvt, execCvt_joined hi hdet]
  refine ⟨joinedLset_waits _ hi hl hh, ?_⟩
  rintro hf rfl rfl rfl hr hc
  refine (joinedLset_issues _ hi hl hh hf).trans ?_
  exact (lset_ready hr _).trans (by rw [cvtBody_converts hr.toIssues hr.whole hc])

end Sys2Proof.Claims

/-- Settles O18: CVT has its lanes' results; a dithered one in a deterministic task has them once its join is full. -/
theorem conversionWords : Obligations.ConversionWords := by
  unfold Obligations.ConversionWords
  exact ⟨Claims.conversionWord_holds, Claims.ditheredConversionJoins_holds⟩

end

section
/-! GUARD and PFX: the words behind them, and what the bundle takes on (R48-R50). -/

namespace Sys2Proof.Machine

theorem wordAt_of_fetch {s : State} {b : Bundle} {t : Team} {pc : Addr} {w : Word} (ht : s.teamOf b.core b.slot = some t)
    (hf : fetch s t.ctx pc = .word w) : wordAt s b pc = some w := by
  simp only [wordAt, ht, hf]

section
variable {s : State} {b : Bundle} {t : Team} {w : Word} (ht : s.teamOf b.core b.slot = some t) (hf : fetch s t.ctx (b.pos + 4) = .word w)
  (hg : isGuardWord w = false)
include ht hf hg

theorem guardPairing_of_lset (hp : isPfxWord w = false) (hl : isLset w = true) : guardPairing s b = none := by
  simp only [guardPairing, wordAt_of_fetch ht hf, hg, hp, hl, Bool.false_eq_true, if_false, if_true]

theorem guardPairing_of_pfx (hp : isPfxWord w = true) {w2 : Word} (hf2 : fetch s t.ctx (b.pos + 8) = .word w2) (hl : isLset w2 = true) :
    guardPairing s b = none := by
  simp only [guardPairing, wordAt_of_fetch ht hf, wordAt_of_fetch ht hf2, hg, hp, hl, Bool.false_eq_true, if_false, if_true]

end

/-- A GUARD that meets no cause of R55 and no forbidden pairing is kept for the next word. -/
theorem execGuard_goes_past {p : PReg} {n : BitVec 1} {s : State} {b : Bundle} {g : Group} {t : Team} (hi : Issues s b g t)
    (hl : legality t false false (.l (.guard p n)) (LInstr.encode (.guard p n)) = none) (hp : guardPairing s b = none) :
    execGuard p n s = .next (goPast s b (some (p, decide (n = 1))) b.pfx) := by
  simp only [execGuard, hi.head, hi.slot, if_true, hi.team, hp, hl, Option.toList_none, Option.isSome_none, Bool.false_eq_true, if_false,
    List.append_nil, lowestCause, List.foldl_nil]

theorem execPfx_goes_past {p : BitVec 25} {s : State} {b : Bundle} {w : Word} (hb : s.bundle? = some b)
    (hw : wordAt s b (b.pos + 4) = some w) (ha : pfxAdmits w = true) : execPfx p s = .next (goPast s b b.guard (some p)) := by
  simp only [execPfx, hb, hw, ha, if_true]

end Sys2Proof.Machine

open Sys2Proof Sys2Proof.Machine

namespace Sys2Proof.Claims

theorem guardWord_holds : GuardWord := by
  intro p n s b g t w hi hl hf hg hnext
  have hp : guardPairing s b = none := by
    obtain ⟨hp, hw⟩ | ⟨hp, w2, hf2, hw2⟩ := hnext
    · exact guardPairing_of_lset hi.team hf hg hp hw
    · exact guardPairing_of_pfx hi.team hf hg hp hf2 hw2
  exact (exec_guard p n s).trans (execGuard_goes_past hi hl hp)

theorem prefixWord_holds : PrefixWord := by
  intro p s b t w hb ht hf ha
  exact (exec_pfx p s).trans (execPfx_goes_past hb (wordAt_of_fetch ht hf) ha)

end Sys2Proof.Claims

/-- Settles O28: a permitted pairing leaves the state as it was but for what the bundle takes to its next word. -/
theorem prefixWords : Obligations.PrefixWords := by
  unfold Obligations.PrefixWords
  exact ⟨Claims.guardWord_holds, Claims.prefixWord_holds⟩

end

section
/-! The words of control that count, yield, retire or park the lanes that issue them (R45, R69, R72-R76). -/

namespace Sys2Proof.Machine

@[simp] theorem Issues.ix_core (i : LInstr) (b : Bundle) (g : Group) (t : Team) (n : Nat) : (Issues.ix i b g t n).core = b.core := rfl
@[simp] theorem Issues.ix_slot (i : LInstr) (b : Bundle) (g : Group) (t : Team) (n : Nat) : (Issues.ix i b g t n).slot = b.slot := rfl

/-- DLY's word carries its count in the low bits (R45). -/
theorem encode_dly (n : BitVec 5) : encode (Code.l (.dly n)).instr = some (0x32E00000 ||| n.setWidth 32) := by
  revert n
  decide

theorem decodeWord_dly_zero : decodeWord 0x32E00000 = .error (.illegal 10) := by decide +kernel

section
variable {s : State} {b : Bundle} {g : Group} {t : Team}

theorem execNop_ready (h : LReady .nop s b g t) : execNop s = .next (unitEnd b (Issues.ix .nop b g t 1) (s.issued b g 1)) := by
  rw [execNop, lset_ready h]

theorem execDly_ready {n : BitVec 5} (h : LReady (.dly n) s b g t n.toNat) :
    execDly n s = .next (unitEnd b (Issues.ix (.dly n) b g t n.toNat) (s.issued b g n.toNat)) := by
  rw [execDly, lset_ready h]

theorem execExit_ready (h : LReady .exit s b g t) :
    execExit s = .next (unitEnd b (Issues.ix .exit b g t 1) (loseLanes (s.issued b g 1) b.core b.slot (g.activeOf b 1))) := by
  rw [execExit, lset_ready h]
  rfl

theorem execYield_ready (h : LReady .yield s b g t) :
    execYield s = .next (unitEnd b (Issues.ix .yield b g t 1) ((s.issued b g 1).setGroup
      { ((g.issued b 1).upd (g.activeOf b 1) (fun _ l => l.settle)) with withheld := g.withheld ++ [b.pos + 4] })) := by
  rw [execYield, lset_ready h]
  simp only [Issues.ix_core, Issues.ix_slot, State.issued_group h.toIssues 1]
  rfl

theorem execJoin_ready {m : MReg} (h : LReady (.join m) s b g t) :
    execJoin m s = .next (unitEnd b (Issues.ix (.join m) b g t 1) (settleJoins ((s.issued b g 1).setGroup
      { (Claims.parked b (g.issued b 1) (g.activeOf b 1) (fun _ => .join m)) with
        q := g.q.set m.toNat ((lanesIn (g.activeOf b 1)).foldl (fun q j => q ||| (g.issued b 1).maskFor ((g.issued b 1).lane j) m)
          (g.q.getD m.toNat 0)) }) b.core b.slot)) := by
  rw [execJoin, lset_ready h]
  simp only [Issues.ix_core, Issues.ix_slot, State.issued_group h.toIssues 1]
  rfl

theorem execExits_ready {a : SReg} {n : BitVec 8} (h : LReady (.exits a n) s b g t) :
    execExits a n s = .next (unitEnd b (Issues.ix (.exits a n) b g t 1) (settleJoins ((s.issued b g 1).setGroup
      (Claims.parked b (g.issued b 1) (g.activeOf b 1) (fun l => .exits (g.scalarFor l a.toNat) n.toNat))) b.core b.slot)) := by
  rw [execExits, lset_ready h]
  simp only [Issues.ix_core, Issues.ix_slot, State.issued_group h.toIssues 1]
  rfl

theorem execRegroup_ready {p : PReg} {n : BitVec 5} (h : LReady (.regroup p n) s b g t) :
    execRegroup p n s = .next (unitEnd b (Issues.ix (.regroup p n) b g t 1) (settleJoins ((s.issued b g 1).setGroup
      (Claims.parked b (g.issued b 1) (g.activeOf b 1) (fun _ => .regroup p n.toNat))) b.core b.slot)) := by
  rw [execRegroup, lset_ready h]
  simp only [Issues.ix_core, Issues.ix_slot, State.issued_group h.toIssues 1]
  rfl

end

/-- A scalar as a lane reads it: s0 reads zero (R15), another register as the lane still sees it. -/
theorem Group.scalarFor_eq (g : Group) (l : Lane) (a : SReg) :
    g.scalarFor l a.toNat = if a = 0 then 0 else l.sees (.scalar a.toNat) (g.fe.sreg a.toNat) := by
  unfold Group.scalarFor
  exact if_congr (BitVec.toNat_eq (x := a) (y := 0)).symm rfl rfl

end Sys2Proof.Machine

open Sys2Proof Sys2Proof.Machine

namespace Sys2Proof.Claims

theorem nopAndDelay_holds : NopAndDelay :=
  ⟨encode_dly, decodeWord_dly_zero, fun s _ _ _ =>
    ⟨fun h => (exec_nop s).trans (execNop_ready h), fun n h => (exec_dly n s).trans (execDly_ready h)⟩⟩

theorem yieldWord_holds : YieldWord := fun s _ _ _ h => (exec_yield s).trans (execYield_ready h)

theorem exitWord_holds : ExitWord := fun s _ _ _ h => (exec_exit s).trans (execExit_ready h)

theorem joinWord_holds : JoinWord := fun m s _ _ _ h => (exec_join m s).trans (execJoin_ready h)

theorem exitsAndRegroupPark_hold : ExitsAndRegroupPark := by
  refine fun s b g t => ⟨fun a n h => ?_, fun p n h => (exec_regroup p n s).trans (execRegroup_ready h)⟩
  simp only [← Group.scalarFor_eq]
  exact (exec_exits a n s).trans (execExits_ready h)

end Sys2Proof.Claims

/-- Settles O24: each word's own effect, in the group as its lanes have passed the word. -/
theorem controlWords : Obligations.ControlWords := by
  unfold Obligations.ControlWords
  exact ⟨Claims.nopAndDelay_holds, Claims.yieldWord_holds, Claims.exitWord_holds, Claims.joinWord_holds, Claims.exitsAndRegroupPark_hold⟩

end

section
/-! BRA: where it goes, and what it does while its token counts something (R33, R34, R48, R61, R62). -/

namespace Sys2Proof.Machine

/-! ### Targets (R48) -/

theorem addrOf_signExtend {n : Nat} (x : BitVec n) : addrOf (x.signExtend 64) = BitVec.ofInt 48 x.toInt := by
  apply BitVec.eq_of_toNat_eq
  simp only [addrOf, BitVec.signExtend, BitVec.toNat_setWidth, BitVec.toNat_ofInt]
  omega

theorem target_eq_branchTo {n : Nat} (b : Bundle) (d : BitVec n) : target b.pos d b.pfx = Claims.branchTo b d := by
  have h (z : Int) : b.pos + 4 + 4 * BitVec.ofInt 48 z = BitVec.ofInt 48 (b.pos.toNat + 4 + 4 * z) := by
    simp only [BitVec.ofInt_add, BitVec.ofInt_mul, BitVec.ofInt_natCast, BitVec.ofNat_toNat, BitVec.setWidth_eq]
    rfl
  unfold target Claims.branchTo immS
  cases b.pfx with
  | none => rw [addrOf_signExtend, h]
  | some p => rw [addrOf_signExtend, h]

/-! ### Branches that do not speculate (R61) -/

theorem plainBranch_of_group {s : State} {x : Ix} {g : Group} (p : PReg) (n : BitVec 1) (tgt : Addr) (hg : s.group? x.core x.slot = some g) :
    plainBranch x p (decide (n = 1)) tgt s = s.setGroup (g.upd (Claims.whereHolds g x.act p n) (fun _ l => { l with pc := tgt })) := by
  rw [plainBranch, hg]
  rfl

theorem State.setGroup_acquire (s : State) (g : Group) (core scope : Nat) :
    (s.acquire core scope).setGroup g = (s.setGroup g).acquire core scope := by
  unfold State.acquire
  split <;> rfl

section
variable {p : PReg} {n : BitVec 1} {k : Tok} {d : BitVec 14} {s : State} {b : Bundle} {g : Group} {t : Team} (h : LReady (.bra p n k d) s b g t)
include h

theorem execBra_plain (hk : k = 15) : execBra p n k d s = .next (unitEnd b (Issues.ix (.bra p n k d) b g t 1) ((s.issued b g 1).setGroup
      ((g.issued b 1).upd (Claims.whereHolds (g.issued b 1) (g.activeOf b 1) p n) (fun _ l => { l with pc := Claims.branchTo b d })))) := by
  have hc : (decide (k = 15) || decide (activeAt g b = 0)) = true := by rw [hk]; rfl
  unfold execBra
  simp only [h.head, h.group, h.team]
  rw [if_pos hc, lset_ready h, plainBranch_of_group p n _ (State.issued_group h.toIssues 1), target_eq_branchTo]
  rfl

variable (hk : k ≠ 15)
include hk

/-- A branch on a token that lanes are active in looks at its token. -/
theorem LReady.bra_not_plain : (decide (k = 15) || decide (activeAt g b = 0)) = false := by
  rw [activeAt_eq_activeOf, decide_eq_false hk, decide_eq_false h.active]
  rfl

variable (hs : g.spec = none)
include hs

theorem execBra_settled (hc : g.fe.count k = 0) :
    execBra p n k d s = .next (unitEnd b (Issues.ix (.bra p n k d) b g t 1) (
        let g1 := { ((g.issued b 1).upd (g.activeOf b 1) (fun j l => if (g.lane j).waited then l.settle else l)) with fe := g.fe.clearDone (some k) }
        ((s.issued b g 1).setGroup (g1.upd (Claims.whereHolds g1 (g.activeOf b 1) p n) (fun _ l => { l with pc := Claims.branchTo b d }))).acquire
          b.core (g.fe.acquireScope (some k)))) := by
  have hg := State.issued_group h.toIssues 1
  have ha := h.bra_not_plain hk
  unfold execBra
  simp only [h.head, h.group, h.team, ha, hs, hc, Option.isSome_none, Bool.false_eq_true, if_false, if_true]
  rw [lset_ready h]
  simp only [Issues.ix_core, Issues.ix_slot, hg]
  rw [settleWaited_eq g _ _ (by simp), acquireToken_of_front (State.front?_of_group h.slot (State.group?_setGroup_of hg _)),
    State.setFront_setGroup h.slot hg (by rfl) (by rfl), plainBranch_of_group p n _ (by
      exact (State.group?_acquire _ _ _ _ _).trans (State.group?_setGroup_of hg _)), State.setGroup_acquire,
    State.setGroup_setGroup _ (by rfl) (by rfl), target_eq_branchTo]
  rfl

theorem execBra_waits (hc : g.fe.count k ≠ 0) (hw : (s.ctx t.ctx).ctxc.getLsbD 3 = false ∨ g.dbgc.getLsbD 0 = true) :
    execBra p n k d s = .next (s.pop.setGroup (g.upd (g.activeOf b 1) (fun _ l => { l with waited := true }))) := by
  have ha := h.bra_not_plain hk
  have hw2 : (specEnabled s t.ctx && !g.dbgc.getLsbD 0) = false := by
    rcases hw with hw | hw
    · rw [specEnabled, hw, Bool.false_and]
    · rw [hw, Bool.not_true, Bool.and_false]
  unfold execBra
  simp only [h.head, h.group, h.team, ha, hs, hc, hw2, Option.isSome_none, Bool.false_eq_true, if_false]
  rw [holdAt, activeAt_eq_activeOf]

theorem execBra_speculates (hc : g.fe.count k ≠ 0) (he : (s.ctx t.ctx).ctxc.getLsbD 3 = true) (hd : g.dbgc.getLsbD 0 = false) :
    execBra p n k d s = .next (unitEnd b (Issues.ix (.bra p n k d) b g t 1)
      (speculate (Issues.ix (.bra p n k d) b g t 1) p (decide (n = 1)) k (Claims.branchTo b d) (s.issued b g 1))) := by
  have ha := h.bra_not_plain hk
  unfold execBra
  simp only [h.head, h.group, h.team, ha, hs, hc, Option.isSome_none, Bool.false_eq_true, if_false]
  rw [if_pos (by rw [specEnabled, he, hd]; rfl), lset_ready h, target_eq_branchTo]

end

/-! ### Lanes that speculate (R33, R62) -/

theorem State.choose_eq (s : State) : ∃ cs, s.choose.2 = { s with choices := cs } := by
  unfold State.choose
  split
  · exact ⟨s.choices, rfl⟩
  · exact ⟨_, rfl⟩

/-- A lane at a speculative branch: it goes on along its predicted path, or is held at the branch. -/
def Lane.foretold (x : Ix) (tgt : Addr) (c : Option Bool) (l : Lane) : Lane :=
  { l with spec := some { taken := c }
           pc := match c with | some true => tgt | some false => x.nextPc | none => x.b.unit }

/-- What the front end does with one more lane of a speculative branch. -/
def foretell (x : Ix) (tgt : Addr) (acc : Group × State) (j : Nat) : Group × State :=
  (acc.1.upd (laneBit j) (fun _ l => l.foretold x tgt (predict acc.2).1), (predict acc.2).2)

theorem predict_eq (s : State) : ∃ cs, (predict s).2 = { s with choices := cs } := s.choose_eq

/-- The front end predicts for each lane in turn, and takes nothing but choices. -/
theorem foretell_lanes (x : Ix) (tgt : Addr) (g : Group) (s : State) {ls : List Nat} (hn : ls.Nodup) :
    ∃ (c : Nat → Option Bool) (cs : List Nat),
    ls.foldl (foretell x tgt) (g, s) =
      (ls.foldl (fun g j => g.upd (laneBit j) (fun _ l => l.foretold x tgt (c j))) g, { s with choices := cs }) := by
  induction ls generalizing g s with
  | nil => exact ⟨fun _ => none, s.choices, rfl⟩
  | cons j ls ih =>
    obtain ⟨hj, hls⟩ := List.nodup_cons.mp hn
    obtain ⟨cs, hcs⟩ := predict_eq s
    obtain ⟨c, ds, hc⟩ := ih (g.upd (laneBit j) (fun _ l => l.foretold x tgt (predict s).1)) (predict s).2 hls
    refine ⟨Function.update c j (predict s).1, ds, ?_⟩
    rw [List.foldl_cons, List.foldl_cons, foretell, hc, hcs, Function.update_self]
    congr 1
    apply List.foldl_ext
    intro a i hi
    have hne : i ≠ j := fun e => hj (e ▸ hi)
    rw [Function.update_of_ne hne]

/-- A group whose active lanes are settled, and then predicted or held by a function of the lane. -/
def Group.speculating (g : Group) (x : Ix) (p : PReg) (neg : Bool) (k : Tok) (tgt : Addr) (c : Nat → Option Bool) : Group :=
  { (g.upd x.act (fun j l => l.settle.foretold x tgt (c j))) with
    spec := some { pc := x.b.pos, tok := k, p := p, neg := neg, disp := tgt, incs := List.replicate 15 0 } }

theorem speculate_of_group {s : State} {x : Ix} {g : Group} (p : PReg) (neg : Bool) (k : Tok) (tgt : Addr)
    (hg : s.group? x.core x.slot = some g) : ∃ (c : Nat → Option Bool) (cs : List Nat),
    speculate x p neg k tgt s = { s with choices := cs }.setGroup (g.speculating x p neg k tgt c) := by
  obtain ⟨c, cs, hc⟩ := foretell_lanes x tgt (g.upd x.act (fun _ l => l.settle)) s (lanesIn_nodup x.act)
  rw [foldl_upd_set (fun j l => l.foretold x tgt (c j)), Group.upd_upd] at hc
  refine ⟨c, cs, ?_⟩
  have hfold : speculate x p neg k tgt s =
      let r := (lanesIn x.act).foldl (foretell x tgt) (g.upd x.act (fun _ l => l.settle), s)
      r.2.setGroup { r.1 with spec := some { pc := x.b.pos, tok := k, p := p, neg := neg, disp := tgt, incs := List.replicate 15 0 } } := by
    rw [speculate, hg]
    rfl
  rw [hfold, hc]
  rfl

end Sys2Proof.Machine

open Sys2Proof Sys2Proof.Machine

namespace Sys2Proof.Claims

theorem branches_hold : Branches := by
  refine fun p n k d s b g t h => ⟨fun hk => ?_, fun hk hs hc => ?_, fun hk hs hc hw => ?_⟩
  · exact (exec_bra p n k d s).trans (execBra_plain h hk)
  · exact (exec_bra p n k d s).trans (execBra_settled h hk hs hc)
  · exact (exec_bra p n k d s).trans (execBra_waits h hk hs hc hw)

theorem branchesSpeculate_hold : BranchesSpeculate := by
  intro p n k d s b g t h hk hs hc he hd
  have hg := State.issued_group h.toIssues 1
  obtain ⟨c, cs, hu⟩ := speculate_of_group (x := Issues.ix (.bra p n k d) b g t 1) p (decide (n = 1)) k (branchTo b d) hg
  have hexec := (exec_bra p n k d s).trans (execBra_speculates h hk hs hc he hd)
  have hh := State.group?_setGroup_of (s := { s.issued b g 1 with choices := cs }) hg
    ((g.issued b 1).speculating (Issues.ix (.bra p n k d) b g t 1) p (decide (n = 1)) k (branchTo b d) c)
  rw [hu, unitEnd, afterUnit_of_noStep _ _ hh hd] at hexec
  refine ⟨_, _, hexec, hh, rfl, fun j hj hlen => ⟨c j, ?_⟩, fun j hj => ?_, rfl, rfl, rfl⟩
  · have hlane := Group.lane_upd (g.issued b 1) (g.activeOf b 1)
      (fun j l => l.settle.foretold (Issues.ix (.bra p n k d) b g t 1) (branchTo b d) (c j)) j (by rwa [Group.issued_length])
    rw [if_pos ((lanesIn_mem _ j).mp hj).2] at hlane
    exact hlane
  · exact Group.lane_upd_other _ _ _ j hj

end Sys2Proof.Claims

/-- Settles O25: each case of a branch by its token and its context; the speculation record is made lane by lane. -/
theorem branchWord : Obligations.BranchWord := by
  unfold Obligations.BranchWord
  exact ⟨Claims.branches_hold, Claims.branchesSpeculate_hold⟩

end

section
/-! When the JOINs on a mask release their lanes, and what retiring lanes leave (R69, R70, R72). -/

namespace Sys2Proof.Machine

/-- A set lies within another when nothing of it is left without the other. -/
theorem LaneSet.and_not_eq_zero {a b : LaneSet} : a &&& ~~~b = 0 ↔ ∀ j, a.getLsbD j = true → b.getLsbD j = true := by
  constructor
  · intro h j ha
    have hj : (a &&& ~~~b).getLsbD j = false := by rw [h]; exact BitVec.getLsbD_zero
    simpa [ha, BitVec.lt_of_getLsbD ha] using hj
  · intro h
    apply LaneSet.ext
    intro j hj
    cases ha : a.getLsbD j with
    | false => simp [ha]
    | true => simp [h j ha]

theorem LaneSet.getLsbD_without {set : LaneSet} (a : LaneSet) {j : Nat} (h : set.getLsbD j = true) : (a &&& ~~~set).getLsbD j = false := by
  simp [h]

theorem LaneSet.getLsbD_without_other {set : LaneSet} (a : LaneSet) {j : Nat} (h : set.getLsbD j = false) :
    (a &&& ~~~set).getLsbD j = a.getLsbD j := by
  cases ha : a.getLsbD j with
  | false => simp [ha]
  | true => simp only [BitVec.getLsbD_and, BitVec.getLsbD_not, ha, h, BitVec.lt_of_getLsbD ha, decide_true, Bool.not_false, Bool.and_self]

/-- A live lane is one of the group's lanes. -/
theorem Group.lt_length_of_live {g : Group} {j : Nat} (h : (g.lane j).live = true) : j < g.lanes.length := by
  by_contra hj
  rw [Group.lane_of_ge g (Nat.le_of_not_lt hj)] at h
  cases h

theorem Group.getLsbD_liveLanes_eq_true {g : Group} {j : Nat} : g.liveLanes.getLsbD j = true ↔ j < 64 ∧ (g.lane j).live = true := by
  rw [getLsbD_liveLanes, Bool.and_eq_true, decide_eq_true_eq]
  exact ⟨fun h => ⟨h.1.1, h.2⟩, fun h => ⟨⟨h.1, Group.lt_length_of_live h.2⟩, h.2⟩⟩

/-! ### JOINs (R69) -/

theorem Lane.settle_next (l : Lane) : l.settle.next = l.next :=
  Lane.settle_keeps (fun _ _ => rfl) (fun _ _ => rfl) (fun _ _ => rfl) (fun _ _ => rfl) (fun _ _ => rfl) l

/-- A group whose JOINs on a mask have released their lanes. -/
def Group.released (g : Group) (m : MReg) : Group :=
  { (g.upd (g.atJoin false m) (fun _ l => { l.settle with park := .none, gather := .none, pc := l.next })) with q := g.q.set m.toNat 0 }

/-- Whether lanes are parked at the JOINs on a mask, and every live lane of its requirement is one of them. -/
def Group.joinComplete (g : Group) (m : MReg) : Prop :=
  g.atJoin false m ≠ 0 ∧ ∀ j, (g.q.getD m.toNat 0).getLsbD j = true → (g.lane j).live = true → (g.atJoin false m).getLsbD j = true

theorem Group.joinComplete_iff (g : Group) (m : MReg) :
    g.joinComplete m ↔ g.atJoin false m ≠ 0 ∧ g.q.getD m.toNat 0 &&& g.members false &&& ~~~g.atJoin false m = 0 := by
  refine and_congr_right fun _ => ?_
  rw [LaneSet.and_not_eq_zero]
  refine forall_congr' fun j => ?_
  have hm : g.members false = g.liveLanes := rfl
  rw [BitVec.getLsbD_and, Bool.and_eq_true, hm, Group.getLsbD_liveLanes_eq_true]
  exact ⟨fun h hj => h hj.1 hj.2.2, fun h hq hl => h ⟨hq, BitVec.lt_of_getLsbD hq, hl⟩⟩

theorem Group.tryJoin_releases {g : Group} {m : MReg} (h : g.joinComplete m) : g.tryJoin false m = (g.released m, g.atJoin false m) := by
  obtain ⟨hp, hn⟩ := (g.joinComplete_iff m).mp h
  simp only [Group.tryJoin, hp, hn, ne_eq, not_false_eq_true, decide_true, Bool.and_self, if_true, Bool.false_eq_true, if_false]
  rfl

theorem Group.tryJoin_waits {g : Group} {m : MReg} (h : ¬g.joinComplete m) : g.tryJoin false m = (g, 0) := by
  rw [Group.joinComplete_iff] at h
  exact if_neg (by simpa only [Bool.and_eq_true, decide_eq_true_eq] using h)

theorem Group.tryJoin_ne_zero_iff (g : Group) (m : MReg) : (g.tryJoin false m).2 ≠ 0 ↔ g.joinComplete m := by
  by_cases h : g.joinComplete m
  · rw [Group.tryJoin_releases h]
    exact iff_of_true h.1 h
  · rw [Group.tryJoin_waits h]
    exact iff_of_false (fun hne => hne rfl) h

theorem Group.released_lane (g : Group) (m : MReg) (j : Nat) : (g.released m).lane j = if (g.atJoin false m).getLsbD j
    then { (g.lane j).settle with park := .none, gather := .none, pc := (g.lane j).settle.next } else g.lane j := by
  have hlane : (g.released m).lane j =
      (g.upd (g.atJoin false m) (fun _ l => { l.settle with park := .none, gather := .none, pc := l.next })).lane j := rfl
  rw [hlane, Lane.settle_next]
  by_cases hj : (g.atJoin false m).getLsbD j = true
  · have hlen : j < g.lanes.length := by
      rw [Group.atJoin, Group.getLsbD_where, Bool.and_eq_true, decide_eq_true_eq] at hj
      exact hj.1.2
    exact Group.lane_upd _ _ _ _ hlen
  · rw [if_neg hj]
    exact Group.lane_upd_other _ _ _ _ (Bool.eq_false_of_not_eq_true hj)

theorem Group.released_requirement (g : Group) {m : MReg} (h : m.toNat < g.q.length) : (g.released m).q.getD m.toNat 0 = 0 := by
  show (g.q.set m.toNat 0).getD m.toNat 0 = 0
  simp [h]

/-! ### Lanes that retire (R70, R72) -/

/-- A lane of a group that forgets some lanes: only what it still sees of masks changes. -/
theorem Group.forget_lane (g : Group) (set : LaneSet) (j : Nat) :
    (g.forget set).lane j = { g.lane j with olds := ((g.forget set).lane j).olds } := by
  by_cases hj : j < g.lanes.length
  · have h : (g.forget set).lane j = _ := Group.lane_upd g (~~~0) _ j hj
    rw [h]
    split <;> rfl
  · have hlen : (g.forget set).lanes.length ≤ j := (Group.upd_length g _ _).symm ▸ Nat.le_of_not_lt hj
    rw [Group.lane_of_ge _ hlen, Group.lane_of_ge g (Nat.le_of_not_lt hj)]

/-- A lane as it retires: what it had computed stays (R72). -/
def Lane.retire (l : Lane) : Lane :=
  { l.settle with live := false, park := .none, gather := .none, waited := false, spec := none, handler := false, want := none, ticket := none }

theorem Group.retireLanes_lane {g : Group} {set : LaneSet} {j : Nat} (hs : set.getLsbD j = true) (hj : j < g.lanes.length) :
    (g.retireLanes set).lane j = { (g.lane j).retire with olds := ((g.retireLanes set).lane j).olds } := by
  have ho := (g.upd set (fun _ l => l.retire)).forget_lane set j
  rwa [Group.lane_upd _ _ _ _ hj, if_pos hs] at ho

theorem Group.retireLanes_lane_other (g : Group) {set : LaneSet} {j : Nat} (hs : set.getLsbD j = false) :
    (g.retireLanes set).lane j = { g.lane j with olds := ((g.retireLanes set).lane j).olds } := by
  have ho := (g.upd set (fun _ l => l.retire)).forget_lane set j
  rwa [Group.lane_upd_other _ _ _ _ hs] at ho

theorem Group.retireLanes_not_live {g : Group} {set : LaneSet} {j : Nat} (hs : set.getLsbD j = true) :
    ((g.retireLanes set).lane j).live = false ∧ ((g.retireLanes set).lane j).park = .none := by
  by_cases hj : j < g.lanes.length
  · rw [Group.retireLanes_lane hs hj]
    exact ⟨rfl, rfl⟩
  · have hlen : (g.retireLanes set).lanes.length = g.lanes.length := (Group.upd_length _ _ _).trans (Group.upd_length _ _ _)
    rw [Group.lane_of_ge _ (hlen ▸ Nat.le_of_not_lt hj)]
    exact ⟨rfl, rfl⟩

theorem getD_map_without (set : LaneSet) (ms : List LaneSet) (k : Nat) : (ms.map (· &&& ~~~set)).getD k 0 = ms.getD k 0 &&& ~~~set := by
  simp only [List.getD_eq_getElem?_getD, List.getElem?_map]
  cases ms[k]? with
  | none => exact BitVec.zero_and.symm
  | some m => rfl

end Sys2Proof.Machine

open Sys2Proof Sys2Proof.Machine

namespace Sys2Proof.Claims

theorem joinRelease_holds : JoinRelease := by
  refine fun g m => ⟨g.tryJoin_ne_zero_iff m, fun h => ?_, fun h => ?_⟩
  · rw [Group.tryJoin_releases ((g.tryJoin_ne_zero_iff m).mp h)]
    exact ⟨rfl, g.released_requirement, g.released_lane m⟩
  · rw [Group.tryJoin_waits (fun hc => (g.tryJoin_ne_zero_iff m).mpr hc h)]

theorem retiredLanesAreForgotten_holds : RetiredLanesAreForgotten := by
  refine fun g set => ⟨fun j hj => ?_, fun j hj => ?_, fun k j hj => ?_, fun k j hj => ?_, rfl⟩
  · have hs := ((lanesIn_mem set j).mp hj).2
    refine ⟨Group.retireLanes_not_live hs, fun hlen => ?_⟩
    rw [Group.retireLanes_lane hs hlen]
    exact ⟨rfl, rfl⟩
  · rw [g.retireLanes_lane_other hj]
    exact ⟨rfl, rfl, rfl, rfl⟩
  · have h (ms : List LaneSet) : ((ms.map (· &&& ~~~set)).getD k 0).getLsbD j = false := by
      rw [getD_map_without]
      exact LaneSet.getLsbD_without _ hj
    exact ⟨h g.m, h g.q, h g.x⟩
  · have h := getD_map_without set g.m k
    exact (congrArg (·.getLsbD j) h).trans (LaneSet.getLsbD_without_other _ hj)

end Sys2Proof.Claims

/-- Settles O26: a join that is complete releases its lanes and no other does; retired lanes are in no mask. -/
theorem joinsAndRetirement : Obligations.JoinsAndRetirement := by
  unfold Obligations.JoinsAndRetirement
  exact ⟨Claims.joinRelease_holds, Claims.retiredLanesAreForgotten_holds⟩

end

section
/-! ERET over its split (R312, R313): what it leaves, and a record whose translation moves the tables that it is read through. -/

namespace Sys2Proof.Machine

/-! ### Translations of a record (R305, R330) -/

/-- What no translation changes stays as a record's page is translated. -/
theorem touchRecord_keeps {γ : Type} {F : State → γ}
    (h : ∀ (s : State) cr xs ob, F { s with care := cr, ctxs := xs, outbox := ob } = F s) (s : State) (c core slot : Nat) :
    F (touchRecord s c core slot) = F s := by
  have ht (s : State) (va : Nat) : F (s.touch c va) = F s := by
    obtain ⟨cr, xs, ob, he⟩ := s.touch_eq c va
    rw [he, h]
  unfold touchRecord State.windowTouch State.touchRange
  split
  · split
    · rfl
    · exact foldl_keeps F _ ht _ s
  · rfl

@[simp] theorem touchRecord_mem (s : State) (c core slot : Nat) : (touchRecord s c core slot).mem = s.mem :=
  touchRecord_keeps (F := State.mem) (fun _ _ _ _ => rfl) s c core slot

@[simp] theorem touchRecord_group? (s : State) (c core slot n k : Nat) : (touchRecord s c core slot).group? n k = s.group? n k :=
  touchRecord_keeps (F := fun s => s.group? n k) (fun _ _ _ _ => rfl) s c core slot

/-! ### Joins that a lane stands outside of (R69, R71) -/

/-- A group after joins have been tried: only lanes parked at a join, and requirements, are others. -/
structure Group.Joined (g k : Group) : Prop where
  core : k.core = g.core
  slot : k.slot = g.slot
  fe   : k.fe = g.fe
  dbgc : k.dbgc = g.dbgc
  lane : ∀ j, (g.lane j).park ≠ .join → k.lane j = g.lane j

theorem Group.Joined.refl (g : Group) : g.Joined g := ⟨rfl, rfl, rfl, rfl, fun _ _ => rfl⟩

theorem Group.Joined.trans {a b c : Group} (h : a.Joined b) (k : b.Joined c) : a.Joined c where
  core := k.core.trans h.core
  slot := k.slot.trans h.slot
  fe := k.fe.trans h.fe
  dbgc := k.dbgc.trans h.dbgc
  lane j hj := by
    have hb := h.lane j hj
    exact (k.lane j (by rwa [hb])).trans hb

theorem Group.joined_tryJoin (g : Group) (h : Bool) (m : MReg) : g.Joined (g.tryJoin h m).1 := by
  unfold Group.tryJoin
  dsimp only
  split
  · refine ⟨rfl, rfl, rfl, rfl, fun j hj => Group.lane_upd_other _ _ _ _ ?_⟩
    rw [Group.atJoin, Group.getLsbD_where, decide_eq_false hj]
    simp
  · exact Group.Joined.refl g

theorem Group.joined_tryJoins (g : Group) (h : Bool) : g.Joined (g.tryJoins h).1 := by
  unfold Group.tryJoins
  generalize upFrom 0 16 = ms
  refine List.foldlRecOn (motive := fun r : Group × LaneSet => g.Joined r.1) _ _ (Group.Joined.refl g) fun r hr m _ => ?_
  exact hr.trans (r.1.joined_tryJoin h _)

/-- A group has not gathered while a live lane is not parked at a join (R71). -/
theorem Group.gathered_of_standing {g : Group} {j : Nat} (h64 : j < 64) (hl : (g.lane j).live = true) (hp : (g.lane j).park ≠ .join) :
    g.gathered = false := by
  have hne : g.where (fun _ l => l.live && l.park = .join && l.gather ≠ .none) ≠ g.liveLanes := by
    intro he
    have hin := Group.getLsbD_liveLanes_eq_true.mpr ⟨h64, hl⟩
    rw [← he, Group.getLsbD_where, decide_eq_false hp] at hin
    simp at hin
  rw [Group.gathered, decide_eq_false hne, Bool.and_false]

/-- While a live lane is not parked no join diverges, and without SSTEP nothing follows those that release. -/
theorem settleJoins_of_standing {s : State} {core slot : Nat} {g : Group} (hg : s.group? core slot = some g)
    (hd : g.dbgc.getLsbD 0 = false) {j : Nat} (h64 : j < 64) (hl : (g.lane j).live = true) (hp : (g.lane j).park ≠ .join) :
    ∃ k, g.Joined k ∧ settleJoins s core slot = s.setGroup k := by
  have hj := (g.joined_tryJoins true).trans ((g.tryJoins true).1.joined_tryJoins false)
  rcases h1 : g.tryJoins true with ⟨g1, r⟩
  rcases h2 : g1.tryJoins false with ⟨k, out⟩
  rw [h1, h2] at hj
  have hlane := hj.lane j hp
  have hgathered : k.gathered = false := Group.gathered_of_standing h64 (hlane.symm ▸ hl) (hlane.symm ▸ hp)
  have hdiv (mates : List Group) : k.diverged mates = false := by simp [Group.diverged, hgathered]
  have hk : (s.setGroup k).group? core slot = some k := State.group?_setGroup_of hg k hj.core hj.slot
  refine ⟨k, hj, ?_⟩
  unfold settleJoins
  simp only [hg, h1, h2, hdiv, Bool.false_eq_true, if_false]
  split
  · exact singleStep_of_noStep _ fun k' hk' => by
      cases hk.symm.trans hk'
      rw [hj.dbgc]
      exact hd
  · rfl

/-! ### ERET in a group (R312, R313) -/

/-- Where no split waits none enters (R309). -/
theorem tryEntry_of_noTraps {s : State} {core slot : Nat} {g : Group} (hs : slot < 128) (hg : s.group? core slot = some g) (ht : g.traps = []) :
    tryEntry s core slot = s.setGroup g := by
  have hn : g.nextSplit = none := by simp [Group.nextSplit, ht]
  have hset : g.settleNext = g := by simp [Group.settleNext, hn]
  have hent : g.entering = none := by simp [Group.entering, hn]
  unfold tryEntry
  simp only [hs, if_true, hg, hset, hent]

theorem Lane.settle_live (l : Lane) : l.settle.live = l.live :=
  Lane.settle_keeps (fun _ _ => rfl) (fun _ _ => rfl) (fun _ _ => rfl) (fun _ _ => rfl) (fun _ _ => rfl) l

theorem Group.live_of_members {g : Group} {h : Bool} {j : Nat} (hj : (g.members h).getLsbD j = true) : (g.lane j).live = true := by
  unfold Group.members Group.liveLanes at hj
  split at hj
  all_goals
    rw [Group.getLsbD_where] at hj
    simp only [Bool.and_eq_true] at hj
  · exact hj.2.1
  · exact hj.2

/-- The join of a U-set word that executes in a group has gathered a live lane. -/
theorem UReady.exists_live {i : UInstr} {s s1 : State} {x : Ix} {g : Group} (h : UReady i s x s1) (hl : x.lan = false)
    (hg : s1.group? x.core x.slot = some g) : ∃ j, x.act.getLsbD j = true ∧ (g.lane j).live = true := by
  cases h with
  | lantern => cases hl
  | group b g0 t h iss split full =>
    obtain ⟨j, hj⟩ := List.exists_mem_of_ne_nil _ (lanesIn_ne_nil (Group.members_ne_zero_of_full full))
    have hin := ((lanesIn_mem _ j).mp hj).2
    have hlive := Group.live_of_members hin
    have hplace := State.group?_setGroup_of (s := s.pop) iss.group (leaveJoin (g0.arrived b) ((g0.arrived b).members h) (b.pos + 4))
      (g0.arrived_core b) (g0.arrived_slot b)
    cases hplace.symm.trans hg
    refine ⟨j, hin, ?_⟩
    rw [leaveJoin, Group.lane_upd _ _ _ _ (Group.lt_length_of_live hlive), if_pos hin]
    exact (Lane.settle_live _).trans hlive

/-- A lane of the split as its handler ends. -/
def Lane.returned (l : Lane) (pc : Addr) : Lane := { l.settle with pc := pc, park := .none, gather := .none, handler := false }

/-- A group whose split has returned from its handler with some scalars. -/
def Group.returned (g : Group) (act : LaneSet) (saved : List DWord) : Group :=
  { (g.upd act (fun _ l => l.returned (codeAddr (g.fe.epc.setWidth 64)))).handlerEnds with fe := g.fe.returned saved }

theorem Group.returned_lane {g : Group} {act : LaneSet} (saved : List DWord) {j : Nat} (hj : act.getLsbD j = true) (hlen : j < g.lanes.length) :
    (g.returned act saved).lane j = (g.lane j).returned (codeAddr (g.fe.epc.setWidth 64)) :=
  (Group.lane_upd g act (fun _ l => l.returned (codeAddr (g.fe.epc.setWidth 64))) j hlen).trans (if_pos hj)

/-- Where nothing of the handler's operations is left, or without checked mode, the split returns with the scalars that its record
holds once the record's page is translated. -/
theorem returnFrom_of_group {s : State} {x : Ix} {g : Group} (hl : x.lan = false) (hg : s.group? x.core x.slot = some g)
    (hk : fpcChk g.fpc = false ∨ ∀ n ∈ g.fe.hk, n = 0) :
    let s1 := touchRecord s x.t.ctx x.core x.slot
    returnFrom x s = settleJoins (tryEntry (s1.setGroup (g.returned x.act (savedScalars s1 x g.fe))) x.core x.slot) x.core x.slot := by
  have hleft : (fpcChk g.fpc && g.fe.hk.any (fun n => n ≠ 0)) = false := by
    rcases hk with hk | hk
    · rw [hk, Bool.false_and]
    · rw [List.any_eq_false.mpr (fun n hn => by simp [hk n hn]), Bool.and_false]
  unfold returnFrom
  simp only [hl, touchRecord_group?, hg, hleft, Bool.false_eq_true, if_false]
  rfl

theorem execEret_returns {s s1 : State} {x : Ix} {g : Group} (h : UReady .eret s x s1) (hl : x.lan = false) (hg : s1.group? x.core x.slot = some g)
    (ht : g.traps = []) (hd : g.dbgc.getLsbD 0 = false) (hk : fpcChk g.fpc = false ∨ ∀ n ∈ g.fe.hk, n = 0) :
    let s2 := touchRecord s1 x.t.ctx x.core x.slot
    ∃ k, (g.returned x.act (savedScalars s2 x g.fe)).Joined k ∧ execEret s = .next (s2.setGroup k) := by
  intro s2
  have hs := h.slot_of_group hl
  have hg2 : s2.group? x.core x.slot = some g := (touchRecord_group? ..).trans hg
  obtain ⟨j, hj, hlive⟩ := h.exists_live hl hg
  set g1 := g.returned x.act (savedScalars s2 x g.fe)
  have hlane : g1.lane j = _ := Group.returned_lane _ hj (Group.lt_length_of_live hlive)
  have hg1 : (s2.setGroup g1).group? x.core x.slot = some g1 := State.group?_setGroup_of hg2 g1
  obtain ⟨k, hj, hjoins⟩ := settleJoins_of_standing hg1 hd (BitVec.lt_of_getLsbD hj) (by rw [hlane]; exact (Lane.settle_live _).trans hlive)
    (by rw [hlane]; exact Park.noConfusion)
  have hplace : (s2.setGroup k).group? x.core x.slot = some k := State.group?_setGroup_of hg2 k hj.core hj.slot
  refine ⟨k, hj, ?_⟩
  rw [execEret, uset_ready h, returnFrom_of_group hl hg hk, tryEntry_of_noTraps hs hg1 ht, State.setGroup_setGroup _ rfl rfl, hjoins,
    State.setGroup_setGroup _ hj.core hj.slot, uEnd, if_neg (by rw [hl]; exact Bool.false_ne_true),
    afterUnit_of_noStep _ _ hplace (by rw [hj.dbgc]; exact hd)]

/-! ### A record whose translation moves the tables -/

/-- A group whose one lane is in its handler, at the join of an ERET; s63 of the group holds 1. -/
def returningGroup : Group :=
  { core := 0, slot := 0, team := 1, index := 0, width := 1, fe := { s := (List.replicate 64 0).set 63 1, handler := true }
    lanes := [{ pc := 0x10000, park := .join, gather := .uset, next := 0x10004, handler := true }] }

def returningTeam : Team := { id := 1, slot := 0, ctx := 0, core := 0 }

def returningBundle : Bundle := { core := 0, slot := 0, lanes := 1, unit := 0x10000, pos := 0x10000, gathered := true }

/-- Page tables at 0x100000 (level 1), 0x101000 (level 2) and 0x110000 (level 3): the window's first two pages of 2 MiB. -/
def windowTables : Memory :=
  Memory.write (Memory.write (Memory.write [] 0x1007E0 (bytesOf 8 0x101001)) 0x101000 (bytesOf 8 0x110001)) 0x110000
    (bytesOf 8 0x2F ++ bytesOf 8 0x20002F)

/-- A machine that issues the ERET. SIDEB puts the record across the end of the window's first page, and group 0x11, which holds the
level 3 table, is listed twice: at its reset value, which is the one that counts, and with members 0 and 1 exchanged. The walk for the
first page is counted, and a counted request takes entries at their reset value off the list (R264, R266). -/
def returningState : State :=
  { State.reset with
    mem := windowTables, ctxs := [{ ptroot := 0x100001, sideb := 0x7E00001FFFF0 }], teams := [returningTeam], groups := [returningGroup]
    issue := [returningBundle], care := { remaps := [{ group := 0x11 }, { group := 0x11, map := 0xE1 }] } }

def returningIx : Ix :=
  { b := returningBundle, core := 0, slot := 0, t := returningTeam, act := 1, word := UInstr.encode .eret, h := true }

/-- The group as it leaves the join, and the state in which ERET has its effect. -/
def leavingGroup : Group := leaveJoin returningGroup 1 0x10004

def leavingState : State := returningState.pop.setGroup leavingGroup

theorem returning_ready : UReady .eret returningState returningIx leavingState :=
  UReady.group (i := .eret) (s := returningState) returningBundle returningGroup returningTeam true ⟨rfl, by decide, rfl, rfl⟩ rfl rfl
    (fun _ hk => by cases hk) rfl rfl

theorem leaving_recordOff : recordOff leavingState 0 0 0 = some 0x1FFFF0 := by decide

/-- The record's scalars as the ERET finds them. -/
theorem leaving_windowBytes : windowBytes leavingState 0 (0x1FFFF0 + 64) 32 = some (List.replicate 32 0) := by decide +kernel

/-- Once its first page is translated, the record's second page is mapped no more. -/
theorem touched_windowBytes : (recordOff (touchRecord leavingState 0 0 0) 0 0 0).bind
    (fun o => windowBytes (touchRecord leavingState 0 0 0) 0 (o + 64) 32) = none := by decide +kernel

/-- So s60 to s63 stay. -/
theorem touched_savedScalars : savedScalars (touchRecord leavingState 0 0 0) returningIx leavingGroup.fe = [0, 0, 0, 1] := by
  have h : (recordOff (touchRecord leavingState 0 0 0) returningIx.t.ctx returningIx.core returningIx.slot).bind
    (fun o => windowBytes (touchRecord leavingState 0 0 0) returningIx.t.ctx (o + 64) 32) = none := touched_windowBytes
  rw [savedScalars, h]
  rfl

end Sys2Proof.Machine

open Sys2Proof Sys2Proof.Machine

namespace Sys2Proof.Claims

theorem softwareTraps_hold : SoftwareTraps := by
  refine fun s b g t => ⟨fun h => ?_, fun c h => ?_⟩
  · rw [exec_bkpt, execBkpt, lset_ready h]
    rfl
  · rw [exec_trap, execTrap, lset_ready h]
    rfl

/-- R312, R313: as in ReturnFromHandler, but for s60 to s63, which come from the record as it is read once its page is translated. -/
theorem eret_returns {s s1 : State} {x : Ix} {g : Machine.Group} (h : UReady .eret s x s1) (hl : x.lan = false)
    (hg : s1.group? x.core x.slot = some g) (ht : g.traps = []) (hd : g.dbgc.getLsbD 0 = false)
    (hk : fpcChk g.fpc = false ∨ ∀ n ∈ g.fe.hk, n = 0) :
    ∃ u k, exec (Code.u .eret).instr s = .next u ∧ u.group? x.core x.slot = some k ∧ k.fe.handler = false ∧
      k.fe.s = g.fe.s.take 60 ++ Machine.savedScalars (touchRecord s1 x.t.ctx x.core x.slot) x g.fe ∧ k.fe.tok = g.fe.tok ∧
      (∀ j ∈ lanesIn x.act, j < g.lanes.length → (k.lane j).pc = BitVec.ofNat 48 (g.fe.epc.toNat / 4 * 4) ∧ (k.lane j).park = .none ∧
        (k.lane j).handler = false ∧ (k.lane j).v = (g.lane j).settle.v ∧ (k.lane j).p = (g.lane j).settle.p) ∧ u.mem = s1.mem := by
  obtain ⟨k, hj, hexec⟩ := execEret_returns h hl hg ht hd hk
  have hk1 := State.group?_setGroup_of ((touchRecord_group? s1 x.t.ctx x.core x.slot x.core x.slot).trans hg) k hj.core hj.slot
  refine ⟨_, k, (exec_eret s).trans hexec, hk1, by rw [hj.fe]; rfl, by rw [hj.fe]; rfl, by rw [hj.fe]; rfl, fun j hmem hlen => ?_,
    touchRecord_mem ..⟩
  have hlane := Group.returned_lane (g := g) (Machine.savedScalars (touchRecord s1 x.t.ctx x.core x.slot) x g.fe) ((lanesIn_mem _ j).mp hmem).2 hlen
  have hpc : codeAddr (g.fe.epc.setWidth 64) = BitVec.ofNat 48 (g.fe.epc.toNat / 4 * 4) := by
    rw [codeAddr_eq, BitVec.toNat_setWidth_of_le (by decide)]
  rw [hj.lane j (by rw [hlane]; exact Park.noConfusion), hlane, ← hpc]
  exact ⟨rfl, rfl, rfl, rfl, rfl⟩

/-- The record of `returningState` holds zeros in the state that the word issues in; s63 stays 1. -/
theorem not_returnFromHandler : ¬ReturnFromHandler := by
  intro hclaim
  obtain ⟨u, k, hexec, hk, -, hs, -⟩ := hclaim returningState leavingState returningIx leavingGroup 0x1FFFF0 (List.replicate 32 0)
    returning_ready rfl (by decide) rfl rfl rfl (.inl rfl) leaving_recordOff leaving_windowBytes
  obtain ⟨u', k', hexec', hk', -, hs', -⟩ := eret_returns (g := leavingGroup) returning_ready rfl rfl rfl rfl (.inl rfl)
  obtain rfl : u = u' := Host.Outcome.next.inj (hexec.symm.trans hexec')
  obtain rfl : k = k' := Option.some.inj (hk.symm.trans hk')
  have hsaved := List.append_cancel_left (hs.symm.trans hs')
  rw [show Machine.savedScalars (touchRecord leavingState returningIx.t.ctx returningIx.core returningIx.slot) returningIx leavingGroup.fe =
    [0, 0, 0, 1] from touched_savedScalars] at hsaved
  exact absurd hsaved (by decide)

end Sys2Proof.Claims

/-- Refutes O29: BKPT, TRAP and ERET do as it says (`softwareTraps_hold`, `eret_returns`), but s60 to s63 are read once the record's
page is translated, and where the remap list names a group twice, at its reset value first, the counted walk can unmap a record that
lies across two pages; s60 to s63 then stay. -/
theorem not_trapAndReturnWords : ¬ Obligations.TrapAndReturnWords := by
  unfold Obligations.TrapAndReturnWords
  exact fun h => Claims.not_returnFromHandler h.2

end

section
/-! Integer functions of the model and the formulas of the tables, at any width (R80 to R90). -/

namespace Sys2Proof.Machine

/-! ### Products -/

/-- The upper half of twice the width is the quotient. -/
theorem extractLsb'_ofInt (n : Nat) (p : Int) : (BitVec.ofInt (n + n) p).extractLsb' n n = BitVec.ofInt n (p / 2 ^ n) := by
  have hpos : (0 : Int) < 2 ^ n := Int.pow_pos (by decide)
  have hsplit : p % 2 ^ (n + n) / 2 ^ n = p / 2 ^ n - 2 ^ n * (p / 2 ^ (n + n)) := by
    rw [Int.emod_def, Int.pow_add, Int.mul_assoc, Int.sub_mul_ediv_left _ _ hpos.ne']
  have hcast : (((2 ^ (n + n) : Nat) : Int)) = 2 ^ (n + n) := by push_cast; rfl
  have hnat : ((p % 2 ^ (n + n)).toNat : Int) = p % 2 ^ (n + n) :=
    Int.toNat_of_nonneg (Int.emod_nonneg _ (Int.pow_pos (by decide)).ne')
  apply BitVec.eq_of_toNat_eq
  apply Int.ofNat_inj.mp
  rw [BitVec.extractLsb'_toNat, BitVec.toNat_ofInt, BitVec.toNat_ofInt, Nat.shiftRight_eq_div_pow, hcast]
  push_cast
  rw [hnat, Int.toNat_of_nonneg (Int.emod_nonneg _ hpos.ne'), hsplit, Int.sub_mul_emod_self_left]

theorem mulHighS_eq {n : Nat} (x y : BitVec n) : mulHighS x y = BitVec.ofInt n (x.toInt * y.toInt / 2 ^ n) := by
  rw [mulHighS, BitVec.signExtend, BitVec.signExtend, ← BitVec.ofInt_mul, extractLsb'_ofInt]

theorem mulHighU_eq {n : Nat} (x y : BitVec n) : mulHighU x y = BitVec.ofNat n (x.toNat * y.toNat / 2 ^ n) := by
  have hx := x.isLt
  have hy := y.isLt
  have hw : 2 ^ n ≤ 2 ^ (n + n) := Nat.pow_le_pow_right (by decide) (by omega)
  have hxy : x.toNat * y.toNat < 2 ^ (n + n) := Nat.pow_add 2 n n ▸ Nat.mul_lt_mul'' hx hy
  apply BitVec.eq_of_toNat_eq
  rw [mulHighU, BitVec.extractLsb'_toNat, BitVec.toNat_mul, BitVec.toNat_setWidth_of_le (by omega), BitVec.toNat_setWidth_of_le (by omega),
    Nat.mod_eq_of_lt hxy, Nat.shiftRight_eq_div_pow, BitVec.toNat_ofNat]

theorem mul_eq_ofNat {n : Nat} (x y : BitVec n) : x * y = BitVec.ofNat n (x.toNat * y.toNat) := by
  rw [BitVec.ofNat_mul, BitVec.ofNat_toNat, BitVec.ofNat_toNat, BitVec.setWidth_eq, BitVec.setWidth_eq]

theorem signExtend_mul {n v : Nat} (x y : BitVec n) : x.signExtend v * y.signExtend v = BitVec.ofInt v (x.toInt * y.toInt) := by
  rw [BitVec.signExtend, BitVec.signExtend, BitVec.ofInt_mul]

/-! ### Shifts -/

theorem amount_eq {n : Nat} (x : BitVec n) : amount x = x.toNat % 256 := by
  rw [amount, BitVec.extractLsb'_toNat, Nat.shiftRight_zero]

theorem shlBy_eq {n : Nat} (x : BitVec n) (k : Nat) : shlBy x k = BitVec.ofNat n (x.toNat * 2 ^ k) := by
  apply BitVec.eq_of_toNat_eq
  unfold shlBy
  split
  next hk =>
    obtain ⟨m, rfl⟩ := Nat.exists_eq_add_of_le hk
    rw [BitVec.toNat_ofNat, Nat.pow_add, Nat.mul_left_comm, Nat.mul_mod_right]
    rfl
  next => rw [BitVec.toNat_shiftLeft, Nat.shiftLeft_eq, BitVec.toNat_ofNat]

theorem shrBy_eq {n : Nat} (x : BitVec n) (k : Nat) : shrBy x k = BitVec.ofNat n (x.toNat / 2 ^ k) := by
  have hlt := x.isLt
  apply BitVec.eq_of_toNat_eq
  unfold shrBy
  split
  next hk =>
    have hpow : 2 ^ n ≤ 2 ^ k := Nat.pow_le_pow_right (by decide) hk
    rw [Nat.div_eq_of_lt (by omega)]
    rfl
  next =>
    have hle := Nat.div_le_self x.toNat (2 ^ k)
    rw [BitVec.toNat_ushiftRight, Nat.shiftRight_eq_div_pow, BitVec.toNat_ofNat, Nat.mod_eq_of_lt (by omega)]

/-- At and beyond the width only the sign is left. -/
theorem toInt_div_of_width_le {n k : Nat} (x : BitVec n) (hk : n ≤ k) : x.toInt / 2 ^ k = if x.toInt < 0 then -1 else 0 := by
  have hpow : (2 : Int) ^ n ≤ 2 ^ k := pow_le_pow_right₀ (by decide) hk
  have hlo := x.le_two_mul_toInt
  have hhi := x.two_mul_toInt_lt
  split
  next hneg => exact Int.ediv_eq_neg_one_of_neg_of_le hneg (by omega)
  next hneg => exact Int.ediv_eq_zero_of_lt (by omega) (by omega)

theorem sarBy_eq {n : Nat} (x : BitVec n) (k : Nat) : sarBy x k = BitVec.ofInt n (x.toInt / 2 ^ k) := by
  have hshift (m : Nat) : x.sshiftRight m = BitVec.ofInt n (x.toInt / 2 ^ m) := by
    rw [← BitVec.ofInt_toInt (x := x.sshiftRight m), BitVec.toInt_sshiftRight, Int.shiftRight_eq_div_pow]
    push_cast
    rfl
  rw [sarBy, hshift]
  split
  next hk => rw [toInt_div_of_width_le x (Nat.le_refl n), toInt_div_of_width_le x hk]
  next => rfl

/-! ### Order -/

/-- Where only equal keys differ in order, and then not in outcome, a strict comparison chooses as the other one does. -/
theorem ite_lt_eq_ite_le {α β : Type} [LinearOrder β] {x y : β} [Decidable (x < y)] [Decidable (x ≤ y)] {a b : α} (h : x = y → a = b) :
    (if x < y then a else b) = if x ≤ y then a else b := by
  rcases lt_trichotomy x y with hlt | heq | hgt
  · rw [if_pos hlt, if_pos hlt.le]
  · rw [h heq, ite_self, ite_self]
  · rw [if_neg hgt.not_gt, if_neg hgt.not_ge]

theorem sminBV_eq {n : Nat} (x y : BitVec n) : sminBV x y = if x.toInt ≤ y.toInt then x else y := by
  simp only [sminBV, BitVec.slt_iff_toInt_lt]
  exact ite_lt_eq_ite_le BitVec.toInt_inj.mp

theorem smaxBV_eq {n : Nat} (x y : BitVec n) : smaxBV x y = if x.toInt ≤ y.toInt then y else x := by
  simp only [smaxBV, BitVec.slt_iff_toInt_lt]
  exact ite_lt_eq_ite_le fun h => (BitVec.toInt_inj.mp h).symm

theorem uminBV_eq {n : Nat} (x y : BitVec n) : uminBV x y = if x.toNat ≤ y.toNat then x else y :=
  ite_lt_eq_ite_le BitVec.toNat_inj.mp

theorem umaxBV_eq {n : Nat} (x y : BitVec n) : umaxBV x y = if x.toNat ≤ y.toNat then y else x :=
  ite_lt_eq_ite_le fun h => (BitVec.toNat_inj.mp h).symm

/-- A signed order that is not strict is the other way's negation. -/
theorem not_slt_eq_decide_le {n : Nat} (x y : BitVec n) : (!y.slt x) = decide (x.toInt ≤ y.toInt) := by
  rw [BitVec.slt, ← decide_not]
  exact decide_eq_decide.mpr Int.not_lt

theorem condHolds_eq {n : Nat} (c : BitVec 4) (x y : BitVec n) : condHolds c x y = Claims.holds c x y := by
  unfold condHolds Claims.holds
  generalize c.toNat = k
  match k with
  | 0 | 1 | 2 | 4 | 6 | 7 | 8 | 9 | _ + 10 => rfl
  | 3 => exact not_slt_eq_decide_le x y
  | 5 => exact not_slt_eq_decide_le y x

theorem sbrHolds_eq (c : BitVec 4) (x : DWord) : sbrHolds c x = Claims.sbrTakes c x := by
  have hzero : x = 0 ↔ x.toInt = 0 := BitVec.toInt_inj.symm
  unfold sbrHolds Claims.sbrTakes
  generalize c.toNat = k
  match k with
  | 0 => exact decide_eq_decide.mpr hzero
  | 1 => exact decide_eq_decide.mpr (not_congr hzero)
  | 2 | 4 => rfl
  | 3 => exact not_slt_eq_decide_le 0 x
  | _ + 5 => exact not_slt_eq_decide_le x 0

/-- The absolute value, by the sign bit (R80). -/
theorem iabs_eq (x : Word) : (if x.getLsbD 31 then -x else x) = if 0 ≤ x.toInt then x else 0 - x := by
  have hsign : x.getLsbD 31 = decide (x.toInt < 0) := (BitVec.msb_eq_getLsbD_last x).symm.trans BitVec.msb_eq_toInt
  rw [hsign, show 0 - x = -x from BitVec.zero_sub x]
  simp only [decide_eq_true_eq, ← Int.not_le, ite_not]

/-! ### Counts and orders of bits -/

theorem onesBelow_eq {n : Nat} (x : BitVec n) (k : Nat) : onesBelow x k = ((List.range k).filter (fun i => x.getLsbD i)).length := by
  induction k with
  | zero => rfl
  | succ k ih =>
    rw [onesBelow, ih, List.range_succ, List.filter_append, List.length_append, Nat.add_comm, List.filter_singleton]
    cases x.getLsbD k <;> rfl

theorem leadZeros_eq (x : Word) (k : Nat) :
    leadZeros x k = ((List.range k).takeWhile (fun i => !x.getLsbD (k - 1 - i))).length := by
  induction k with
  | zero => rfl
  | succ k ih =>
    have hnext : (fun i => !x.getLsbD (k + 1 - 1 - i)) ∘ Nat.succ = fun i => !x.getLsbD (k - 1 - i) := by
      funext i
      simp only [Function.comp, Nat.succ_eq_add_one, Nat.add_sub_cancel, Nat.sub_sub, Nat.add_comm 1 i]
    rw [leadZeros, ih, List.range_succ_eq_map, List.takeWhile_cons, List.takeWhile_map, hnext, Nat.add_sub_cancel, Nat.sub_zero]
    cases x.getLsbD k with
    | true => rfl
    | false => simp [Nat.add_comm]

theorem trailZeros_eq (x : Word) (i k : Nat) :
    trailZeros x i k = ((List.range k).takeWhile (fun j => !x.getLsbD (i + j))).length := by
  induction k generalizing i with
  | zero => rfl
  | succ k ih =>
    have hnext : (fun j => !x.getLsbD (i + j)) ∘ Nat.succ = fun j => !x.getLsbD (i + 1 + j) := by
      funext j
      simp only [Function.comp, Nat.succ_eq_add_one, Nat.add_assoc, Nat.add_comm 1 j]
    rw [trailZeros, ih, List.range_succ_eq_map, List.takeWhile_cons, List.takeWhile_map, hnext, Nat.add_zero]
    cases x.getLsbD i with
    | true => rfl
    | false => simp [Nat.add_comm]

/-- One bit after another, each from the mirrored place. -/
theorem getLsbD_mirrored (x : Word) (ls : List Nat) (r : Word) {i : Nat} (hi : i < 32) :
    (ls.foldl (fun r k => r ||| (if x.getLsbD (31 - k) then BitVec.ofNat 32 (2 ^ k) else 0)) r).getLsbD i =
      (r.getLsbD i || (decide (i ∈ ls) && x.getLsbD (31 - i))) := by
  induction ls generalizing r with
  | nil => simp
  | cons k ls ih =>
    have hbit : (if x.getLsbD (31 - k) then BitVec.ofNat 32 (2 ^ k) else 0).getLsbD i = (decide (i = k) && x.getLsbD (31 - i)) := by
      by_cases h : i = k
      · subst h
        cases x.getLsbD (31 - i)
        · simp
        · rw [if_pos rfl, BitVec.getLsbD_ofNat, Nat.testBit_two_pow]
          simp [hi]
      · cases x.getLsbD (31 - k)
        · simp [h]
        · rw [if_pos rfl, BitVec.getLsbD_ofNat, Nat.testBit_two_pow]
          simp [h, Ne.symm h]
    rw [List.foldl_cons, ih, BitVec.getLsbD_or, hbit, Bool.or_assoc, ← Bool.and_or_distrib_right, ← Bool.decide_or]
    simp only [List.mem_cons]

theorem reverseBits_eq (x : Word) : reverseBits x = x.reverse := by
  apply BitVec.eq_of_getLsbD_eq
  intro i hi
  have hmem : i ∈ upFrom 0 32 := (upFrom_mem 0 32 i).mpr ⟨Nat.zero_le i, by omega⟩
  rw [reverseBits, getLsbD_mirrored x _ _ hi, BitVec.getLsbD_reverse, BitVec.getMsbD]
  simp [hi, hmem]

theorem toNat_append_eq {m n : Nat} (x : BitVec m) (y : BitVec n) : (x ++ y).toNat = x.toNat * 2 ^ n + y.toNat := by
  rw [BitVec.toNat_append, ← Nat.shiftLeft_add_eq_or_of_lt y.isLt, Nat.shiftLeft_eq]

theorem swapBytes_eq (x : Word) : swapBytes x =
    BitVec.ofNat 32 (x.toNat % 2 ^ 8 * 2 ^ 24 + x.toNat / 2 ^ 8 % 2 ^ 8 * 2 ^ 16 + x.toNat / 2 ^ 16 % 2 ^ 8 * 2 ^ 8 + x.toNat / 2 ^ 24) := by
  have htop : x.toNat / 16777216 < 256 := Nat.div_lt_of_lt_mul x.isLt
  apply BitVec.eq_of_toNat_eq
  rw [swapBytes]
  simp only [toNat_append_eq, BitVec.extractLsb'_toNat, Nat.shiftRight_eq_div_pow, BitVec.toNat_ofNat,
    Nat.reducePow, Nat.div_one, Nat.mod_eq_of_lt htop]
  omega

/-! ### Fields (R82) -/

theorem fieldPos_eq (y : Word) : fieldPos y = y.toNat % 32 := by
  rw [fieldPos, BitVec.extractLsb'_toNat, Nat.shiftRight_zero]

theorem fieldLen_eq (y : Word) : fieldLen y = Claims.fieldLe y := by
  rw [fieldLen, Claims.fieldLe, fieldPos_eq, BitVec.extractLsb'_toNat, Nat.shiftRight_eq_div_pow]

theorem fieldMask_eq (y : Word) : fieldMask y = Claims.fieldBits y := by
  rw [fieldMask, Claims.fieldBits, fieldLen_eq, fieldPos_eq]

theorem insertField_eq (d x y : Word) : insertField d x y =
    (d &&& ~~~(Claims.fieldBits y)) ||| ((x <<< (y.toNat % 32)) &&& Claims.fieldBits y) := by
  rw [insertField, fieldMask_eq, fieldPos_eq]

theorem extractField_eq (x y : Word) : extractField x y =
    let f := (x &&& Claims.fieldBits y) >>> (y.toNat % 32)
    if y.getLsbD 16 ∧ 0 < Claims.fieldLe y ∧ f.getLsbD (Claims.fieldLe y - 1) then
      f ||| ~~~(BitVec.ofNat 32 (2 ^ Claims.fieldLe y - 1)) else f := by
  simp only [extractField, fieldMask_eq, fieldPos_eq, fieldLen_eq, Bool.and_eq_true, decide_eq_true_eq, and_assoc]

/-! ### Immediates (R48) -/

theorem immS_eq {n : Nat} (f : BitVec n) (p : Option (BitVec 25)) : (immS f p).setWidth 32 = Claims.imm32 f p := by
  have h {m : Nat} (z : BitVec m) : (z.signExtend 64).setWidth 32 = z.signExtend 32 := by
    apply BitVec.eq_of_getLsbD_eq
    intro i hi
    rw [BitVec.getLsbD_setWidth, BitVec.getLsbD_signExtend, BitVec.getLsbD_signExtend, decide_eq_true hi,
      decide_eq_true (Nat.lt_trans hi (by decide : 32 < 64)), Bool.true_and]
  cases p with
  | none => exact h f
  | some p => exact h (p ++ f)

end Sys2Proof.Machine
end

section
/-! The integer words of a lane and the predicate words (R80 to R87): each is a fixed-latency word with the results of its table. -/

namespace Sys2Proof.Machine

open Sys2Proof.Claims

/-! ### Words with one 32-bit result, a pair or a predicate -/

/-- A fixed-latency word that gives each active lane the writes `w` of a lane, and raises no flag. -/
def LaneWord (i : LInstr) (s : State) (w : Lane → List (Dest × DWord)) : Prop :=
  ∃ f : Group → Lane → LaneOut, exec (Code.l i).instr s = alu i 4 f s ∧ ∀ g l, f g l = { writes := w l }

/-- Such a word leaves each active lane with the writes, visible to its 4th instruction (R28, R29). -/
theorem LaneWord.exec_ready {i : LInstr} {s : State} {w : Lane → List (Dest × DWord)} {b : Bundle} {g : Group} {t : Team}
    (hw : LaneWord i s w) (h : LReady i s b g t) :
    exec (Code.l i).instr s = .next (unitEnd b (Issues.ix i b g t 1) (laneWrites i s b g 4 w)) := by
  obtain ⟨f, he, hf⟩ := hw
  exact he.trans (alu_plain h 4 f w hf)

theorem writes_w32 {d : VReg} {x y : Word} (h : x = y) : ({ writes := w32 d x } : LaneOut) = { writes := w32 d y } := h ▸ rfl

theorem writes_w64 {d : VReg} {x y : DWord} (h : x = y) : ({ writes := w64 d x } : LaneOut) = { writes := w64 d y } := h ▸ rfl

theorem shlBy_amount {n : Nat} (x : BitVec n) {m : Nat} (y : BitVec m) : shlBy x (amount y) = BitVec.ofNat n (x.toNat * 2 ^ (y.toNat % 256)) := by
  rw [amount_eq, shlBy_eq]

theorem shrBy_amount {n : Nat} (x : BitVec n) {m : Nat} (y : BitVec m) : shrBy x (amount y) = BitVec.ofNat n (x.toNat / 2 ^ (y.toNat % 256)) := by
  rw [amount_eq, shrBy_eq]

theorem sarBy_amount {n : Nat} (x : BitVec n) {m : Nat} (y : BitVec m) : sarBy x (amount y) = BitVec.ofInt n (x.toInt / 2 ^ (y.toNat % 256)) := by
  rw [amount_eq, sarBy_eq]

theorem rotateLeft_amount (x y : Word) : x.rotateLeft (amount y % 32) = x.rotateLeft (amt y % 32) := by
  rw [amount_eq, amt]

/-! ### The tables -/

theorem laneWord_of_arithResult {i : LInstr} {w : Lane → List (Dest × DWord)} (h : arithResult i = some w) (s : State) : LaneWord i s w := by
  unfold arithResult at h
  split at h <;> cases h
  · exact ⟨_, exec_iadd .., fun _ _ => rfl⟩
  · exact ⟨_, exec_isub .., fun _ _ => rfl⟩
  · exact ⟨_, exec_imul .., fun _ _ => writes_w32 (mul_eq_ofNat _ _)⟩
  · exact ⟨_, exec_imulh .., fun _ _ => writes_w32 (mulHighS_eq _ _)⟩
  · exact ⟨_, exec_imulhz .., fun _ _ => writes_w32 (mulHighU_eq _ _)⟩
  · exact ⟨_, exec_imin .., fun _ _ => writes_w32 (sminBV_eq _ _)⟩
  · exact ⟨_, exec_imax .., fun _ _ => writes_w32 (smaxBV_eq _ _)⟩
  · exact ⟨_, exec_iminz .., fun _ _ => writes_w32 (uminBV_eq _ _)⟩
  · exact ⟨_, exec_imaxz .., fun _ _ => writes_w32 (umaxBV_eq _ _)⟩
  · exact ⟨_, exec_iabs .., fun _ _ => writes_w32 (iabs_eq _)⟩
  · exact ⟨_, exec_and .., fun _ _ => rfl⟩
  · exact ⟨_, exec_or .., fun _ _ => rfl⟩
  · exact ⟨_, exec_xor .., fun _ _ => rfl⟩
  · exact ⟨_, exec_andn .., fun _ _ => rfl⟩

theorem laneWord_of_bitResult {i : LInstr} {w : Lane → List (Dest × DWord)} (h : bitResult i = some w) (s : State) : LaneWord i s w := by
  unfold bitResult at h
  split at h <;> cases h
  · exact ⟨_, exec_shl .., fun _ _ => writes_w32 (shlBy_amount _ _)⟩
  · exact ⟨_, exec_shr .., fun _ _ => writes_w32 (shrBy_amount _ _)⟩
  · exact ⟨_, exec_sar .., fun _ _ => writes_w32 (sarBy_amount _ _)⟩
  · exact ⟨_, exec_rotl .., fun _ _ => writes_w32 (rotateLeft_amount _ _)⟩
  · exact ⟨_, exec_popc .., fun _ _ => writes_w32 (congrArg _ (onesBelow_eq _ 32))⟩
  · exact ⟨_, exec_clz .., fun _ _ => writes_w32 (congrArg _ (leadZeros_eq _ 32))⟩
  · exact ⟨_, exec_ctz .., fun _ _ => writes_w32 (by simp only [trailZeros_eq, Nat.zero_add])⟩
  · exact ⟨_, exec_brev .., fun _ _ => writes_w32 (reverseBits_eq _)⟩
  · exact ⟨_, exec_bswap .., fun _ _ => writes_w32 (swapBytes_eq _)⟩
  · exact ⟨_, exec_imad .., fun _ _ => rfl⟩
  · exact ⟨_, exec_bfx .., fun _ _ => writes_w32 (extractField_eq _ _)⟩
  · exact ⟨_, exec_bfi .., fun _ _ => writes_w32 (insertField_eq _ _ _)⟩
  · exact ⟨_, exec_iadd64 .., fun _ _ => rfl⟩
  · exact ⟨_, exec_isub64 .., fun _ _ => rfl⟩
  · exact ⟨_, exec_imulw .., fun _ _ => writes_w64 (signExtend_mul _ _)⟩
  · exact ⟨_, exec_mov .., fun _ _ => rfl⟩

theorem laneWord_of_immWord {i : LInstr} {d a : VReg} {imm : BitVec 11} {f : Word → Word → Word} {s : State} {b : Bundle}
    (he : exec (Code.l i).instr s = immWord i d a imm f s) (hb : s.bundle? = some b) :
    LaneWord i s (fun l => w32 d (f (l.reg a.toNat) (imm32 imm b.pfx))) := by
  refine ⟨_, he, fun _ l => writes_w32 ?_⟩
  rw [hb, Option.bind_some, immS_eq]

theorem laneWord_of_immResult {i : LInstr} {s : State} {b : Bundle} {w : Lane → List (Dest × DWord)} (h : immResult b.pfx i = some w)
    (hb : s.bundle? = some b) : LaneWord i s w := by
  unfold immResult at h
  split at h <;> cases h
  · exact laneWord_of_immWord (exec_iaddi ..) hb
  · exact laneWord_of_immWord (exec_andi ..) hb
  · exact laneWord_of_immWord (exec_ori ..) hb
  · exact laneWord_of_immWord (exec_xori ..) hb
  · exact ⟨_, exec_shli .., fun _ _ => writes_w32 (shlBy_eq _ _)⟩
  · exact ⟨_, exec_shri .., fun _ _ => writes_w32 (shrBy_eq _ _)⟩
  · exact ⟨_, exec_sari .., fun _ _ => writes_w32 (sarBy_eq _ _)⟩
  · exact ⟨_, exec_rotli .., fun _ _ => rfl⟩
  · exact ⟨_, exec_movi .., fun _ _ => writes_w32 (by rw [hb, Option.bind_some, immS_eq])⟩

theorem laneWord_of_predResult {i : LInstr} {w : Lane → List (Dest × DWord)} (h : predResult i = some w) (s : State) : LaneWord i s w := by
  unfold predResult at h
  split at h <;> cases h
  · exact ⟨_, exec_icmp .., fun _ _ => by rw [cmpOut, condHolds_eq]⟩
  · exact ⟨_, exec_sel .., fun _ _ => rfl⟩
  · exact ⟨_, exec_pset .., fun _ _ => rfl⟩
  · exact ⟨_, exec_ptest .., fun _ _ => rfl⟩
  · exact ⟨_, exec_pand .., fun _ _ => rfl⟩
  · exact ⟨_, exec_por .., fun _ _ => rfl⟩
  · exact ⟨_, exec_pxor .., fun _ _ => rfl⟩
  · exact ⟨_, exec_pandn .., fun _ _ => rfl⟩
  · exact ⟨_, exec_pnot .., fun _ _ => rfl⟩
  · exact ⟨_, exec_pmov .., fun _ _ => rfl⟩

end Sys2Proof.Machine

open Sys2Proof Sys2Proof.Machine

namespace Sys2Proof.Claims

theorem arithmeticWords_hold : ArithmeticWords := fun _ _ hw s _ _ _ h => (laneWord_of_arithResult hw s).exec_ready h

theorem shiftAndFieldWords_hold : ShiftAndFieldWords := fun _ _ hw s _ _ _ h => (laneWord_of_bitResult hw s).exec_ready h

theorem immediateWords_hold : ImmediateWords := fun _ _ _ _ _ _ hw h => (laneWord_of_immResult hw h.head).exec_ready h

theorem predicateWords_hold : PredicateWords := fun _ _ hw s _ _ _ h => (laneWord_of_predResult hw s).exec_ready h

end Sys2Proof.Claims

end

section
/-! The words of ICMP and SCMP, and the condition codes that R85 does not name (R38, R55, R85, R90). -/

namespace Sys2Proof

/-! ### The lowest cause -/

theorem lowestCause_cons_eq_some {a : Nat} {cs : List Nat} {c : Nat} (hm : c ∈ a :: cs) (hle : ∀ k ∈ a :: cs, c ≤ k) :
    lowestCause (a :: cs) = some c := by
  induction cs generalizing a with
  | nil => rw [List.mem_singleton.mp hm]; rfl
  | cons b cs ih =>
    have hfold : lowestCause (a :: b :: cs) = lowestCause (min a b :: cs) := rfl
    rw [hfold]
    simp only [List.mem_cons, forall_eq_or_imp] at hm hle
    obtain ⟨ha, hb, hcs⟩ := hle
    apply ih
    · rcases hm with rfl | rfl | hm
      · rw [Nat.min_eq_left hb]; exact List.mem_cons_self ..
      · rw [Nat.min_eq_right ha]; exact List.mem_cons_self ..
      · exact List.mem_cons_of_mem _ hm
    · exact List.forall_mem_cons.mpr ⟨Nat.le_min.mpr ⟨ha, hb⟩, hcs⟩

theorem lowestCause_eq_some {cs : List Nat} {c : Nat} (hm : c ∈ cs) (hle : ∀ k ∈ cs, c ≤ k) : lowestCause cs = some c := by
  cases cs with
  | nil => cases hm
  | cons a cs => exact lowestCause_cons_eq_some hm hle

/-- R55 numbers the causes of a word's own fields from 2. -/
theorem two_le_of_mem_staticCauses {i : Code} {k : Nat} (h : k ∈ staticCauses i) : 2 ≤ k := by
  simp only [staticCauses, List.mem_append] at h
  rcases h with (((h | h) | h) | h) | h
  all_goals repeat' split at h
  all_goals simp at h
  all_goals omega

/-- A word of which R85 does not name the code is illegal with cause 2, whatever else its fields break. -/
theorem decodeWord_of_cause_two {i : Code} (h : 2 ∈ staticCauses i) : decodeWord i.encode = .error (.illegal 2) := by
  have hc : lowestCause (staticCauses i) = some 2 := lowestCause_eq_some h fun _ => two_le_of_mem_staticCauses
  rw [decodeWord, decodeCode, i.rawDecode_encode]
  simp only [diffCauses_encode, List.nil_append, hc]

/-! ### Fields side by side -/

theorem setWidth_append_eq_or {m n : Nat} (x : BitVec m) (y : BitVec n) :
    (no_index (x ++ y)).setWidth 32 = x.setWidth 32 <<< n ||| y.setWidth 32 := by
  apply BitVec.eq_of_getLsbD_eq
  intro i hi
  simp only [BitVec.getLsbD_setWidth, BitVec.getLsbD_append, BitVec.getLsbD_or, BitVec.getLsbD_shiftLeft, hi, decide_true, Bool.true_and]
  by_cases h : i < n
  · simp [h]
  · simp [h, show i - n < 32 by omega, BitVec.getLsbD_of_ge y i (Nat.not_lt.mp h)]

/-- The word of ICMP: major 0x08, its fields in order, and bit 30 for U (R39, R85). -/
theorem encode_icmp (u : Bool) (c : BitVec 4) (p : PReg) (a b : VReg) (n : BitVec 1) : LInstr.encode (.icmp u c p a b n) =
    0x10000000#32 ||| c.setWidth 32 <<< 21 ||| p.setWidth 32 <<< 15 ||| a.setWidth 32 <<< 8 ||| b.setWidth 32 <<< 1 ||| n.setWidth 32 |||
      (if u then 0x40000000#32 else 0#32) := by
  rw [← BitVec.setWidth_eq (LInstr.encode (.icmp u c p a b n))]
  simp only [LInstr.encode, setWidth_append_eq_or, BitVec.shiftLeft_or_distrib, ← BitVec.shiftLeft_add, Nat.reduceAdd,
    BitVec.reduceSetWidth, BitVec.reduceHShiftLeft, BitVec.zero_or]
  cases u with
  | false =>
    simp only [BitVec.ofBool_false, BitVec.reduceSetWidth, BitVec.reduceHShiftLeft, BitVec.zero_or, BitVec.or_zero, Bool.false_eq_true, if_false]
  | true =>
    simp only [BitVec.ofBool_true, BitVec.reduceSetWidth, BitVec.reduceHShiftLeft, if_true]
    rw [BitVec.or_comm _ 0x40000000#32]
    simp only [BitVec.or_assoc]

/-- The word of SCMP: set and major 0x06 of the U-set, and its fields in order (R90). -/
theorem encode_scmp (c : BitVec 4) (d a b : SReg) : UInstr.encode (.scmp c d a b) =
    0x8C000000#32 ||| c.setWidth 32 <<< 21 ||| d.setWidth 32 <<< 15 ||| a.setWidth 32 <<< 9 ||| b.setWidth 32 <<< 3 := by
  rw [← BitVec.setWidth_eq (UInstr.encode (.scmp c d a b))]
  simp only [UInstr.encode, setWidth_append_eq_or, BitVec.shiftLeft_or_distrib, ← BitVec.shiftLeft_add, Nat.reduceAdd,
    BitVec.reduceSetWidth, BitVec.reduceHShiftLeft, BitVec.or_zero]

theorem encode_of_code (i : Code) : encode i.instr = some i.encode := by
  rw [encode, i.code_instr, Option.map_some]

end Sys2Proof

open Sys2Proof Sys2Proof.Machine

namespace Sys2Proof.Claims

theorem conditionCodes_hold : ConditionCodes := by
  refine ⟨fun c p a b n => ⟨fun u => ?_, fun hc => ?_⟩, encode_of_code _, fun c d a b => ⟨?_, fun hc => ?_⟩⟩
  · exact (encode_of_code _).trans (congrArg some (encode_icmp u c p a b n))
  · have hw := decodeWord_of_cause_two (i := .l (.icmp false c p a b n)) (by simp [staticCauses, hc])
    rwa [Code.encode, encode_icmp, if_neg Bool.false_ne_true, BitVec.or_zero] at hw
  · exact (encode_of_code _).trans (congrArg some (encode_scmp c d a b))
  · have hw := decodeWord_of_cause_two (i := .u (.scmp c d a b)) (by simp [staticCauses, hc])
    rwa [Code.encode, encode_scmp] at hw

end Sys2Proof.Claims

/-- Settles O17: each word of the tables is a fixed-latency word whose results are the table's, by the formulas of the integer functions. -/
theorem integerWords : Obligations.IntegerWords := by
  unfold Obligations.IntegerWords
  exact ⟨Claims.arithmeticWords_hold, Claims.shiftAndFieldWords_hold, Claims.immediateWords_hold, Claims.predicateWords_hold,
    Claims.conditionCodes_hold⟩

end

section
/-! The scalar words and the scalar transfers (R15, R29, R48, R64 to R66, R88 to R90). -/

namespace Sys2Proof.Machine

open Sys2Proof.Claims

/-! ### Prefixes of a U-set word -/

section
variable {i : UInstr} {s s1 : State} {x : Ix} (h : UReady i s x s1)
include h

theorem UReady.pfx_of_bundle : s.bundle?.bind (·.pfx) = x.pfx := by
  cases h with
  | group b g t h iss => rw [iss.head]; rfl
  | lantern b l t head => rw [head]; rfl

theorem UReady.target_eq {n : Nat} (d : BitVec n) : target x.b.pos d x.pfx = branchTo x.b d := by
  cases h with
  | group b => exact target_eq_branchTo b d
  | lantern b => exact target_eq_branchTo b d

end

/-! ### The table -/

theorem scalarOp_congr {r : Host.Outcome State Fault Refusal} {i : UInstr} {d : SReg} {f f' : (SReg → DWord) → DWord} {s : State}
    (he : r = scalarOp i d f s) (h : ∀ v, f v = f' v) : r = scalarOp i d f' s := by
  rw [he, funext h]

/-- A word that combines two scalars, by another formula for the combination. -/
theorem scalarOp_of_bin64s_eq {r : Host.Outcome State Fault Refusal} {i : UInstr} {d a b : SReg} {f : DWord → DWord → DWord}
    {f' : (SReg → DWord) → DWord} {s : State} (he : r = bin64s i d a b f s) (h : ∀ v, f (v a) (v b) = f' v) : r = scalarOp i d f' s :=
  scalarOp_congr he h

theorem exec_of_scalarResult {i : UInstr} {s : State} {d : SReg} {f : (SReg → DWord) → DWord}
    (h : scalarResult (s.bundle?.bind (·.pfx)) i = some (d, f)) : exec (Code.u i).instr s = scalarOp i d f s := by
  unfold scalarResult at h
  split at h <;> cases h
  · exact exec_sadd ..
  · exact exec_ssub ..
  · exact scalarOp_of_bin64s_eq (exec_smul ..) fun _ => mul_eq_ofNat _ _
  · exact scalarOp_of_bin64s_eq (exec_smulh ..) fun _ => mulHighS_eq _ _
  · exact exec_sand ..
  · exact exec_sor ..
  · exact exec_sxor ..
  · exact exec_sandn ..
  · exact scalarOp_of_bin64s_eq (exec_sshl ..) fun _ => shlBy_amount _ _
  · exact scalarOp_of_bin64s_eq (exec_sshr ..) fun _ => shrBy_amount _ _
  · exact scalarOp_of_bin64s_eq (exec_ssar ..) fun _ => sarBy_amount _ _
  · exact scalarOp_of_bin64s_eq (exec_smin ..) fun _ => sminBV_eq _ _
  · exact scalarOp_of_bin64s_eq (exec_smax ..) fun _ => smaxBV_eq _ _
  · exact scalarOp_of_bin64s_eq (exec_sminz ..) fun _ => uminBV_eq _ _
  · exact scalarOp_of_bin64s_eq (exec_smaxz ..) fun _ => umaxBV_eq _ _
  · exact exec_smov ..
  · exact exec_saddi ..
  · exact exec_sandi ..
  · exact exec_sori ..
  · exact scalarOp_congr (exec_sshli ..) fun _ => shlBy_eq _ _
  · exact scalarOp_congr (exec_sshri ..) fun _ => shrBy_eq _ _
  · exact scalarOp_congr (exec_ssari ..) fun _ => sarBy_eq _ _
  · exact exec_smovi ..
  · exact scalarOp_congr (exec_scmp ..) fun _ => by rw [condHolds_eq]

/-! ### RET (R65) -/

theorem codeAddr_eq_mod (a : DWord) : codeAddr a = BitVec.ofNat 48 (a.toNat % 2 ^ 48 / 4 * 4) := by
  rw [codeAddr_eq]
  apply BitVec.eq_of_toNat_eq
  rw [BitVec.toNat_ofNat, BitVec.toNat_ofNat]
  omega

/-- No token leaks where the issuer is the lantern, FPC.CHK is clear, or k8 to k14 count nothing. -/
theorem leakCheck_eq_false {s : State} {x : Ix} {f : Front}
    (h : x.lan = true ∨ ∀ g, s.group? x.core x.slot = some g → fpcChk g.fpc = false ∨ ∀ n ∈ f.tok.drop 8, n = 0) :
    (!x.lan && ((s.group? x.core x.slot).map (fun g => fpcChk g.fpc)).getD false && (f.tok.drop 8).any (fun c => c ≠ 0)) = false := by
  rcases h with hl | h
  · rw [hl]; rfl
  · cases hg : s.group? x.core x.slot with
    | none => simp
    | some g =>
      rcases h g hg with hchk | htok
      · simp [hchk]
      · have htoks : (f.tok.drop 8).any (fun c => c ≠ 0) = false := List.any_eq_false.mpr fun n hn => by simp [htok n hn]
        rw [htoks, Bool.and_false]

/-! ### CALL (R65) -/

/-- CALL in a group: the front alone changes. -/
theorem enterCall_of_group {s : State} {x : Ix} {g : Group} (hl : x.lan = false) (hs : x.slot < 128)
    (hg : s.group? x.core x.slot = some g) :
    enterCall s x = s.setGroup { g with fe := { g.fe with
      s := g.fe.s.set 63 (x.nextPc.setWidth 64)
      cdepth := if g.fe.cdepth = 0xFFFFFFFF then g.fe.cdepth else g.fe.cdepth + 1 } } := by
  unfold enterCall
  simp only [State.front?_of_group hs hg, hl, Bool.false_eq_true, if_false, State.setFront_of_group hs hg]

end Sys2Proof.Machine

open Sys2Proof Sys2Proof.Machine

namespace Sys2Proof.Claims

theorem scalarWords_hold : Claims.ScalarWords := by
  intro i s s1 x d f h hf
  rw [exec_of_scalarResult (h.pfx_of_bundle ▸ hf), scalarOp, uset_ready h]

theorem scalarTransfers_hold : ScalarTransfers := by
  refine fun s s1 x => ⟨fun c a d h => ?_, fun d h => ?_, fun d h => ?_, fun a f h hf hleak => ?_⟩
  · rw [exec_sbr, execSbr, uset_ready h, sbrHolds_eq, h.target_eq]
  · rw [exec_jmp, execJmp, uset_ready h, h.target_eq]
  · rw [exec_call, execCall, uset_ready h, h.target_eq]
  · rw [exec_ret, execRet, uset_ready h]
    simp only [hf, leakCheck_eq_false hleak, Bool.false_eq_true, if_false, codeAddr_eq_mod]

theorem callLinks_hold : CallLinks := by
  intro s x g hl hs hg
  rw [enterCall_of_group hl hs hg]
  refine ⟨_, State.group?_setGroup_of hg _, rfl, fun r hr => ?_, fun hd => ?_, fun hd => ?_, rfl, rfl, rfl⟩
  · simp only [Front.sreg, List.getD_eq_getElem?_getD, List.getElem?_set_ne (Ne.symm hr)]
  · have hne : g.fe.cdepth ≠ 0xFFFFFFFF := fun he => by rw [he] at hd; exact absurd hd (by decide)
    change (if g.fe.cdepth = 0xFFFFFFFF then g.fe.cdepth else g.fe.cdepth + 1).toNat = _
    rw [if_neg hne, BitVec.toNat_add_of_lt (Nat.add_lt_of_lt_sub hd)]
    rfl
  · exact if_pos (BitVec.eq_of_toNat_eq hd)

end Sys2Proof.Claims

/-- Settles O30: the scalar words by the same formulas, the transfers by their targets, and CALL by the front that it leaves. -/
theorem scalarWords : Obligations.ScalarWords := by
  unfold Obligations.ScalarWords
  exact ⟨Claims.scalarWords_hold, Claims.scalarTransfers_hold, Claims.callLinks_hold, Claims.conditionCodes_hold⟩

end

section
/-! The moves between the lanes and the group, and what they are in the lantern (R91, R92). -/

open Sys2Proof Sys2Proof.Machine

namespace Sys2Proof.Claims

/-- The two halves that VBCAST chooses from. -/
theorem half_of_scalar (y : DWord) (n : BitVec 8) :
    (if n = 0 then y.extractLsb' 0 32 else y.extractLsb' 32 32) = if n = 0 then y.setWidth 32 else (y >>> 32).setWidth 32 := by
  have hhigh : y.extractLsb' 32 32 = (y >>> 32).setWidth 32 := by
    apply BitVec.eq_of_toNat_eq
    rw [BitVec.extractLsb'_toNat, BitVec.toNat_setWidth, BitVec.toNat_ushiftRight]
  rw [← hhigh]
  rfl

theorem laneAndGroupMoves_hold : LaneAndGroupMoves := by
  intro s s1 x g hl hg
  refine ⟨fun v r n h => ?_, fun v r n h => ?_, fun r n h => ?_, fun r n h => ?_, fun r n h => ?_, fun r n h hdet hs => ?_⟩
  · rw [exec_vbcast, execVbcast, uset_ready h]
    simp only [hg, hl, Bool.false_eq_true, if_false, half_of_scalar]
  · rw [exec_vread, execVread, uset_ready h]
    simp only [hg, hl, Bool.false_eq_true, if_false]
  · rw [exec_mread, execMread, uset_ready h]
    simp only [hg, hl, Bool.false_eq_true, if_false]
  · rw [exec_mwrite, execMwrite, uset_ready h]
    simp only [hg, hl, Bool.false_eq_true, if_false]
  · rw [exec_pread, execPread, uset_ready h]
    simp only [hg, hl, Bool.false_eq_true, if_false]
  · rw [exec_kread, execKread, uset_ready h]
    simp only [hdet, Bool.false_eq_true, if_false, State.front?_of_group hs hg, Option.map_some, Option.getD_some]

theorem lanternMoves_hold : LanternMoves := by
  intro s s1 x hl
  have hend (s : State) : uEnd x s = s := if_pos hl
  refine ⟨fun v r n h => ?_, fun r n h => ?_, fun v r n h => ?_, fun r n h => ?_, fun r n h => ?_, fun r n l h hdet hf => ?_⟩
  · rw [exec_vbcast, execVbcast, uset_ready h, hend]
    cases s1.group? x.core x.slot <;> simp only [hl, if_true]
  · rw [exec_mwrite, execMwrite, uset_ready h, hend]
    cases s1.group? x.core x.slot <;> simp only [hl, if_true]
  · rw [exec_vread, execVread, uset_ready h, hend]
    simp only [hl, if_true]
  · rw [exec_mread, execMread, uset_ready h, hend]
    simp only [hl, if_true]
  · rw [exec_pread, execPread, uset_ready h, hend]
    simp only [hl, if_true]
  · rw [exec_kread, execKread, uset_ready h, hend]
    simp only [hdet, Bool.false_eq_true, if_false, State.front?_of_lantern (h.slot_of_lantern hl) hf, Option.map_some, Option.getD_some]

end Sys2Proof.Claims

/-- Settles O31: each word's frame, and then what it moves. -/
theorem moveWords : Obligations.MoveWords := by
  unfold Obligations.MoveWords
  exact ⟨Claims.laneAndGroupMoves_hold, Claims.lanternMoves_hold⟩

end

section
/-! NaN results of floating-point arithmetic (R97, R118): rounding gives a zero, a finite value or an infinity, and an operation that
does not round gives one of these or the canonical NaN. -/

open Sys2Proof.Machine

namespace Sys2Proof.Machine

/-! ### Patterns that are no NaN (R95, R96) -/

section
variable {f : Fmt} (hf : f.e4m3 = false) (he : 0 < f.eb)
include hf he

/-- A pattern of sign, exponent and fraction is a number where its exponent is not the highest, or its fraction is 0. -/
theorem isNan_decodeF_fields (neg : Bool) {x n : Nat} (hn : n < 2 ^ f.fb) (h : x < 2 ^ f.eb - 1 ∨ x = 2 ^ f.eb - 1 ∧ n = 0) :
    isNan (decodeF f (signBit f neg + (x * 2 ^ f.fb + n))) = false := by
  have hfb : 0 < 2 ^ f.fb := Nat.two_pow_pos _
  have heb : 2 ≤ 2 ^ f.eb := Nat.pow_le_pow_right (n := 2) (by decide) he
  obtain ⟨c, hc⟩ : ∃ c, signBit f neg = 2 ^ f.fb * (2 ^ f.eb * c) := by
    cases neg with
    | false => exact ⟨0, by simp [signBit]⟩
    | true => exact ⟨1, by simp [signBit, pow_add]⟩
  have hfrac : (signBit f neg + (x * 2 ^ f.fb + n)) % 2 ^ f.fb = n := by
    rw [hc, Nat.mul_add_mod, Nat.mul_comm, Nat.mul_add_mod, Nat.mod_eq_of_lt hn]
  have hexp : (signBit f neg + (x * 2 ^ f.fb + n)) / 2 ^ f.fb % 2 ^ f.eb = x := by
    rw [hc, Nat.mul_add_div hfb, Nat.mul_comm x, Nat.mul_add_div hfb, Nat.div_eq_of_lt hn, Nat.mul_add_mod, Nat.add_zero,
      Nat.mod_eq_of_lt (by omega)]
  unfold decodeF
  simp only [hfrac, hexp, hf]
  rcases h with hx | ⟨hx, h0⟩
  · by_cases hx0 : x = 0
    · simp [hx0, isNan]
    · simp [hx0, hx.ne, isNan]
  · simp [h0, hx, show ¬2 ^ f.eb - 1 = 0 by omega, isNan]

theorem isNan_zeroOf (neg : Bool) : isNan (decodeF f (zeroOf f neg)) = false := by
  have heb : 2 ≤ 2 ^ f.eb := Nat.pow_le_pow_right (n := 2) (by decide) he
  simpa [zeroOf] using isNan_decodeF_fields hf he neg (x := 0) (Nat.two_pow_pos f.fb) (.inl (by omega))

theorem isNan_infOf (neg : Bool) : isNan (decodeF f (infOf f neg)) = false := by
  simpa [infOf, hf] using isNan_decodeF_fields hf he neg (Nat.two_pow_pos f.fb) (.inr ⟨rfl, rfl⟩)

theorem isNan_maxFinite (neg : Bool) : isNan (decodeF f (maxFinite f neg)) = false := by
  have heb : 2 ≤ 2 ^ f.eb := Nat.pow_le_pow_right (n := 2) (by decide) he
  have hfb : 0 < 2 ^ f.fb := Nat.two_pow_pos _
  have hsplit : (2 ^ f.eb - 1) * 2 ^ f.fb - 1 = (2 ^ f.eb - 2) * 2 ^ f.fb + (2 ^ f.fb - 1) := by
    obtain ⟨k, hk⟩ : ∃ k, 2 ^ f.eb = k + 2 := ⟨2 ^ f.eb - 2, by omega⟩
    rw [hk, show k + 2 - 1 = k + 1 by omega, Nat.add_sub_cancel, Nat.succ_mul]
    omega
  simp only [maxFinite, hf, Bool.false_eq_true, if_false, hsplit]
  exact isNan_decodeF_fields hf he neg (by omega) (.inl (by omega))

/-! ### Rounding (R101) -/

/-- A count of units of 2^q is packed as a number where its exponent stays below the highest. -/
theorem isNan_packF (neg : Bool) {n : Nat} {q : Int} (hn : n ≤ 2 ^ (f.fb + 1)) (hlow : 1 ≤ q + f.fb + f.bias)
    (hhigh : q + f.fb + f.bias + (if n = 2 ^ (f.fb + 1) then 1 else 0) < (2 ^ f.eb - 1 : Nat)) :
    isNan (decodeF f (packF f neg n q)) = false := by
  have heb : 2 ≤ 2 ^ f.eb := Nat.pow_le_pow_right (n := 2) (by decide) he
  have hfb : 2 ^ (f.fb + 1) = 2 * 2 ^ f.fb := Nat.pow_succ'
  unfold packF
  by_cases hsub : n < 2 ^ f.fb
  · simpa [hsub] using isNan_decodeF_fields hf he neg (x := 0) hsub (.inl (by omega))
  · by_cases htop : n = 2 ^ (f.fb + 1)
    · rw [if_pos htop] at hhigh
      rw [if_neg hsub, if_pos htop]
      exact isNan_decodeF_fields hf he neg (Nat.two_pow_pos f.fb) (.inl (by omega))
    · rw [if_neg htop] at hhigh
      rw [if_neg hsub, if_neg htop, Nat.add_assoc]
      exact isNan_decodeF_fields hf he neg (by omega) (.inl (by omega))

end

theorem lt_two_pow_bitLen (m : Nat) : m < 2 ^ bitLen m := by
  unfold bitLen
  split
  · subst m; decide
  · exact Nat.lt_log2_self

theorem roundedUp_le (up : Bool) {n k : Nat} (h : n < k) : (if up then n + 1 else n) ≤ k := by
  cases up with
  | true => exact h
  | false => exact h.le

/-- A magnitude of at most `k` bits in units of 2^q is rounded to at most 2^k units. -/
theorem roundAt_le (r : Rnd) (neg : Bool) {m k : Nat} {e q : Int} (sticky : Bool) (h : (bitLen m : Int) + e - q ≤ k) :
    (roundAt r neg m e sticky q).1 ≤ 2 ^ k := by
  have hm := lt_two_pow_bitLen m
  unfold roundAt
  by_cases hq : q ≤ e
  · rw [if_pos hq]
    calc m * 2 ^ (e - q).toNat ≤ 2 ^ bitLen m * 2 ^ (e - q).toNat := Nat.mul_le_mul_right _ hm.le
      _ = 2 ^ (bitLen m + (e - q).toNat) := (Nat.pow_add ..).symm
      _ ≤ 2 ^ k := Nat.pow_le_pow_right (by decide) (by omega)
  · have hdiv : m / 2 ^ (q - e).toNat < 2 ^ k := Nat.div_lt_of_lt_mul <|
      calc m < 2 ^ bitLen m := hm
        _ ≤ 2 ^ ((q - e).toNat + k) := Nat.pow_le_pow_right (by decide) (by omega)
        _ = 2 ^ (q - e).toNat * 2 ^ k := Nat.pow_add ..
    rw [if_neg hq]
    exact roundedUp_le _ hdiv

section
variable {f : Fmt} (hf : f.e4m3 = false) (he : 0 < f.eb)
include hf he

/-- Rounding gives no NaN. -/
theorem isNan_roundF (r : Rnd) (neg : Bool) (m : Nat) (e : Int) (sticky : Bool) :
    isNan (decodeF f (roundF f r neg m e sticky).1) = false := by
  have heb : 2 ≤ 2 ^ f.eb := Nat.pow_le_pow_right (n := 2) (by decide) he
  unfold roundF
  by_cases h0 : m = 0 ∧ (!sticky) = true
  · rw [if_pos h0]
    exact isNan_zeroOf hf he neg
  · rw [if_neg h0]
    simp only [hf, Bool.false_eq_true, if_false]
    generalize hq : max ((bitLen m : Int) - 1 + e - f.fb) (1 - (f.bias : Int) - f.fb) = q
    have hn : (roundAt r neg m e sticky q).1 ≤ 2 ^ (f.fb + 1) := roundAt_le r neg sticky (by push_cast; omega)
    split
    · cases r <;> cases neg <;> simp only [Bool.false_eq_true, if_true, if_false, isNan_infOf hf he, isNan_maxFinite hf he]
    · next hbig =>
      simp only [Bool.or_eq_true, Bool.and_eq_true, decide_eq_true_eq, not_or, not_and] at hbig
      refine isNan_packF hf he neg hn (by omega) ?_
      split
      · next htop =>
        have hmost := hbig.2
        have hpos : 0 < 2 ^ (f.fb + 1) := Nat.two_pow_pos _
        omega
      · omega

/-! ### Arithmetic (R97, R118, R120) -/

omit hf he in
/-- A result that is a number is no NaN but the canonical one. -/
theorem eq_qnan_of_number {v : Nat} (h : isNan (decodeF f v) = false) (hv : isNan (decodeF f v) = true) : v = qnan f :=
  absurd hv (ne_true_of_eq_false h)

omit hf he in
theorem number_ite {p : Prop} [Decidable p] {a b : Nat × Flags} (ha : isNan (decodeF f a.1) = false) (hb : isNan (decodeF f b.1) = false) :
    isNan (decodeF f (if p then a else b).1) = false := by
  split
  · exact ha
  · exact hb

theorem addFin_number (r : Rnd) (n1 : Bool) (m1 : Nat) (e1 : Int) (n2 : Bool) (m2 : Nat) (e2 : Int) :
    isNan (decodeF f (addFin f r n1 m1 e1 n2 m2 e2).1) = false := by
  unfold addFin
  exact number_ite (isNan_zeroOf hf he _) (number_ite (isNan_zeroOf hf he _) (isNan_roundF hf he ..))

theorem addV_nan (r : Rnd) (a b : Fv) (h : isNan (decodeF f (addV f r a b).1) = true) : (addV f r a b).1 = qnan f := by
  have hinf := isNan_infOf hf he
  cases a with
  | nan s => rfl
  | inf x =>
    cases b with
    | nan s => rfl
    | inf y =>
      by_cases hxy : x = y
      · simp only [addV, hxy, if_true] at h ⊢
        exact eq_qnan_of_number (hinf y) h
      · simp only [addV, hxy, if_false]
    | fin n m e => exact eq_qnan_of_number (hinf x) h
  | fin n m e =>
    cases b with
    | nan s => rfl
    | inf y => exact eq_qnan_of_number (hinf y) h
    | fin n2 m2 e2 => exact eq_qnan_of_number (addFin_number hf he ..) h

theorem fmulV_nan (r : Rnd) (a b : Fv) (h : isNan (decodeF f (fmulV f r a b).1) = true) : (fmulV f r a b).1 = qnan f := by
  unfold fmulV at h ⊢
  cases hp : mulV a b with
  | none => rfl
  | some p =>
    simp only [hp] at h ⊢
    cases p with
    | nan s => rfl
    | inf n => exact eq_qnan_of_number (isNan_infOf hf he n) h
    | fin n m e => exact eq_qnan_of_number (number_ite (isNan_zeroOf hf he n) (isNan_roundF hf he ..)) h

theorem fmaV_nan (r : Rnd) (a b c : Fv) (h : isNan (decodeF f (fmaV f r a b c).1) = true) : (fmaV f r a b c).1 = qnan f := by
  unfold fmaV at h ⊢
  cases hp : mulV a b with
  | none => rfl
  | some p =>
    simp only [hp] at h ⊢
    by_cases hn : (isNan p || isNan c) = true
    · rw [if_pos hn]
    · rw [if_neg hn] at h ⊢
      exact addV_nan hf he r p c h

end

end Sys2Proof.Machine

/-- Settles O3: each operation adds, multiplies or does both on exact values, and neither gives a NaN but the canonical one. -/
theorem arithmeticNansAreCanonical : Obligations.ArithmeticNansAreCanonical := by
  unfold Obligations.ArithmeticNansAreCanonical
  intro f hfmt r x y z v hv hnan
  obtain ⟨hf, he⟩ : f.e4m3 = false ∧ 0 < f.eb := by rcases hfmt with rfl | rfl <;> decide
  rcases hv with rfl | rfl | rfl | rfl | rfl
  · exact addV_nan hf he r _ _ hnan
  · exact addV_nan hf he r _ _ hnan
  · exact fmulV_nan hf he r _ _ hnan
  · exact fmaV_nan hf he r _ _ _ hnan
  · exact fmaV_nan hf he r _ _ _ hnan

end

section
/-! The tree of a reduction, level by level (R111). -/

open Sys2Proof.Machine

namespace Sys2Proof.Machine

/-- Two neighbours of a level give a node of the next one: an absent side leaves the other as it is. -/
def paired (f : Word → Word → Word × Flags) : Option Word → Option Word → Option Word
  | some x, some y => some (f x y).1
  | some x, none => some x
  | none, y => y

theorem pairUp_cons_cons (f : Word → Word → Word × Flags) (x y : Option Word) (rest : List (Option Word)) :
    (pairUp f (x :: y :: rest)).1 = paired f x y :: (pairUp f rest).1 := by
  cases x with
  | none => rfl
  | some x => cases y <;> rfl

section
variable {f : Word → Word → Word × Flags} {node : Nat → Nat → Option Word}
  (hnode : ∀ l j, node (l + 1) j = paired f (node l (2 * j)) (node l (2 * j + 1)))
include hnode

/-- The nodes of a level pair up to those of the next. -/
theorem pairUp_level (l k n : Nat) :
    (pairUp f ((upFrom (2 * k) (2 * n)).map (node l))).1 = (upFrom k n).map (node (l + 1)) := by
  induction n generalizing k with
  | zero => rfl
  | succ n ih =>
    rw [Nat.mul_succ, upFrom, upFrom, upFrom, List.map_cons, List.map_cons, List.map_cons, pairUp_cons_cons, ← hnode]
    exact congrArg _ (ih (k + 1))

/-- A tree of `n` levels over a level's nodes is the lowest node, `n` levels up. -/
theorem tree_level (l n : Nat) : (tree f n ((upFrom 0 (2 ^ n)).map (node l))).1 = node (l + n) 0 := by
  induction n generalizing l with
  | zero => rfl
  | succ n ih =>
    have hpairs := pairUp_level hnode l 0 (2 ^ n)
    rw [Nat.mul_zero] at hpairs
    rw [Nat.pow_succ', tree]
    dsimp only
    rw [hpairs, ih (l + 1), Nat.add_right_comm, Nat.add_assoc]

end

end Sys2Proof.Machine

/-- Settles O7: the lanes are the nodes of level 0, and each level pairs up to the next. -/
theorem treeIsTheFixedBinaryTree : Obligations.TreeIsTheFixedBinaryTree := by
  unfold Obligations.TreeIsTheFixedBinaryTree
  intro f e c on node hlanes hlevels
  have hnode (l j : Nat) : node (l + 1) j = paired f (node l (2 * j)) (node l (2 * j + 1)) := by
    rw [hlevels]
    cases node l (2 * j) with
    | none => rfl
    | some x => cases node l (2 * j + 1) <;> rfl
  have hleaves : (upFrom 0 64).map (fun j => if c.cs.contains j && on j then some (c.va j) else none) = (upFrom 0 64).map (node 0) := by
    refine List.map_congr_left fun j hj => ?_
    have hj64 : j < 64 := by simpa using ((upFrom_mem 0 64 j).1 hj).2
    rw [hlanes]
    simp [hj64]
  have htree : (tree f 6 ((upFrom 0 64).map (node 0))).1 = node (0 + 6) 0 := tree_level hnode 0 6
  unfold treeOf
  dsimp only
  rw [hleaves, htree]

end

section
/-! The cross-lane words (R172-R182): what each computes, and how its lanes arrive and issue it. -/

open Sys2Proof Sys2Proof.Machine

namespace Sys2Proof.Machine

/-! ### Lists of lanes -/

theorem upFrom_eq_range' (a n : Nat) : upFrom a n = List.range' a n := by
  induction n generalizing a with
  | zero => rfl
  | succ n ih => exact congrArg (a :: ·) (ih (a + 1))

theorem upFrom_zero (n : Nat) : upFrom 0 n = List.range n := (upFrom_eq_range' 0 n).trans List.range_eq_range'.symm

/-- The partner of an element in a second list stands where the element stands in the first. -/
theorem find?_zip_snd {α : Type} {i : Nat} {ps : List Nat} (h : i ∈ ps) (fs : List α) :
    ((ps.zip fs).find? (fun q => decide (q.1 = i))).map Prod.snd = fs[ps.idxOf i]? := by
  induction ps generalizing fs with
  | nil => cases h
  | cons p ps ih =>
    cases fs with
    | nil => rfl
    | cons y fs =>
      rw [List.zip_cons_cons, List.find?_cons]
      by_cases hp : p = i
      · subst hp
        simp
      · have hi : i ∈ ps := (List.mem_cons.1 h).resolve_left (Ne.symm hp)
        rw [List.idxOf_cons_ne _ hp, List.getElem?_cons_succ, ← ih hi fs]
        simp [hp]

/-- A scan for the highest key that only a higher one displaces ends at the first element that no key exceeds. -/
theorem first_highest (key : Nat → Nat) (js pre mid : List Nat) (b : Nat) (hpre : ∀ k ∈ pre, key k < key b) (hmid : ∀ k ∈ mid, key k ≤ key b) :
    ∃ pre' post, pre ++ b :: (mid ++ js) = pre' ++ js.foldl (fun b j => if key b < key j then j else b) b :: post ∧
      (∀ k ∈ pre', key k < key (js.foldl (fun b j => if key b < key j then j else b) b)) ∧
      ∀ k ∈ post, key k ≤ key (js.foldl (fun b j => if key b < key j then j else b) b) := by
  induction js generalizing pre mid b with
  | nil => exact ⟨pre, mid, by simp, hpre, hmid⟩
  | cons j js ih =>
    by_cases hj : key b < key j
    · have hpre' (k : Nat) (hk : k ∈ pre ++ b :: mid) : key k < key j := by
        rcases List.mem_append.1 hk with hk | hk
        · exact (hpre k hk).trans hj
        · rcases List.mem_cons.1 hk with rfl | hk
          · exact hj
          · exact (hmid k hk).trans_lt hj
      simpa [hj] using ih (pre ++ b :: mid) [] j hpre' (fun k hk => nomatch hk)
    · have hmid' (k : Nat) (hk : k ∈ mid ++ [j]) : key k ≤ key b := by
        rcases List.mem_append.1 hk with hk | hk
        · exact hmid k hk
        · rw [List.mem_singleton.1 hk]
          exact Nat.le_of_not_lt hj
      simpa [hj] using ih pre (mid ++ [j]) b hpre hmid'

theorem find?_highest (key : Nat → Nat) (j : Nat) (js : List Nat) :
    (j :: js).find? (fun i => (j :: js).all (fun k => decide (key k ≤ key i))) =
      some (js.foldl (fun b j => if key b < key j then j else b) j) := by
  obtain ⟨pre, post, hsplit, hpre, hpost⟩ := first_highest key js [] [] j (fun k hk => nomatch hk) (fun k hk => nomatch hk)
  rw [List.nil_append, List.nil_append] at hsplit
  refine List.find?_eq_some_iff_append.2 ⟨?_, pre, post, hsplit, fun i hi => ?_⟩
  · refine List.all_eq_true.2 fun k hk => decide_eq_true ?_
    rw [hsplit] at hk
    rcases List.mem_append.1 hk with hk | hk
    · exact (hpre k hk).le
    · rcases List.mem_cons.1 hk with rfl | hk
      · exact le_refl _
      · exact hpost k hk
  · rw [Bool.not_eq_true', List.all_eq_false]
    refine ⟨js.foldl (fun b j => if key b < key j then j else b) j, ?_, ?_⟩
    · rw [hsplit]
      exact List.mem_append_right _ (List.mem_cons_self ..)
    · simpa using hpre i hi

/-! ### Trees of exact combines (R111, R177) -/

section
variable {op : Word → Word → Word} (c : CrossIn)

theorem pairUp_exact_flags : ∀ vs : List (Option Word), (pairUp (exact op c) vs).2 = 0
  | [] => rfl
  | [x] => by cases x <;> rfl
  | none :: y :: rest => pairUp_exact_flags rest
  | some x :: none :: rest => pairUp_exact_flags rest
  | some x :: some y :: rest => by
    have hrest := pairUp_exact_flags rest
    simp [pairUp, exact, hrest]

theorem pairUp_length (f : Word → Word → Word × Flags) : ∀ vs : List (Option Word), (pairUp f vs).1.length = (vs.length + 1) / 2
  | [] => rfl
  | [x] => by cases x <;> simp [pairUp]
  | x :: y :: rest => by
    rw [pairUp_cons_cons, List.length_cons, List.length_cons, List.length_cons, pairUp_length f rest]
    omega

/-- What a level combines to is the same once it has paired up. -/
theorem foldl_pairUp (assoc : ∀ x y z, op (op x y) z = op x (op y z)) : ∀ (vs : List (Option Word)) (a : Word),
    (pairUp (exact op c) vs).1.reduceOption.foldl op a = vs.reduceOption.foldl op a
  | [], a => rfl
  | [x], a => by cases x <;> rfl
  | none :: y :: rest, a => by
    rw [pairUp_cons_cons, paired, List.reduceOption_cons_of_none]
    cases y with
    | none => exact foldl_pairUp assoc rest a
    | some y => exact foldl_pairUp assoc rest (op a y)
  | some x :: none :: rest, a => foldl_pairUp assoc rest (op a x)
  | some x :: some y :: rest, a => (foldl_pairUp assoc rest (op a (op x y))).trans (by
    rw [← assoc]
    rfl)

theorem tree_exact (assoc : ∀ x y z, op (op x y) z = op x (op y z)) {e : Word} (unit : ∀ x, op e x = x) (n : Nat) {vs : List (Option Word)}
    (hlen : vs.length = 2 ^ n) :
    (tree (exact op c) n vs).1.getD e = vs.reduceOption.foldl op e ∧ (tree (exact op c) n vs).2 = 0 := by
  induction n generalizing vs with
  | zero =>
    obtain ⟨v, rfl⟩ := List.length_eq_one_iff.1 hlen
    refine ⟨?_, rfl⟩
    cases v with
    | none => rfl
    | some x => exact (unit x).symm
  | succ n ih =>
    obtain ⟨hval, hflags⟩ := ih (vs := (pairUp (exact op c) vs).1) (by rw [pairUp_length, hlen]; omega)
    rw [foldl_pairUp c assoc] at hval
    exact ⟨hval, by rw [tree]; dsimp only; rw [hflags, pairUp_exact_flags]; rfl⟩

theorem reduceOption_map_ite {α β : Type} (p : α → Bool) (v : α → β) (l : List α) :
    (l.map (fun j => if p j then some (v j) else none)).reduceOption = (l.filter p).map v := by
  induction l with
  | nil => rfl
  | cons j l ih => cases h : p j <;> simp [h, ih]

/-- The contributors that a tree counts are its leaves, in lane order. -/
theorem filter_contributors {C : LaneSet} (hc : c.cs = lanesIn C) (on : Nat → Bool) :
    (upFrom 0 64).filter (fun j => c.cs.contains j && on j) = c.cs.filter on := by
  rw [hc, lanesIn, List.filter_filter]
  refine List.filter_congr fun j _ => ?_
  rw [Bool.and_comm, getLsbD_lanesIn, List.contains_eq_mem]
  rfl

theorem treeOf_exact (assoc : ∀ x y z, op (op x y) z = op x (op y z)) {e : Word} (unit : ∀ x, op e x = x) {C : LaneSet} (hc : c.cs = lanesIn C)
    (on : Nat → Bool) : treeOf (exact op c) e c on = (((c.cs.filter on).map c.va).foldl op e, 0) := by
  obtain ⟨hval, hflags⟩ := tree_exact c assoc unit 6 (vs := (upFrom 0 64).map (fun j => if c.cs.contains j && on j then some (c.va j) else none))
    (by rw [List.length_map, upFrom_zero, List.length_range]; rfl)
  rw [reduceOption_map_ite, filter_contributors c hc] at hval
  exact Prod.ext hval hflags

end

/-! ### Words over lanes as bits (R176, R180) -/

theorem sum_bits_lt (p : Nat → Bool) (n : Nat) : ((List.range n).map (fun k => if p k then 2 ^ k else 0)).sum < 2 ^ n := by
  induction n with
  | zero => exact Nat.one_pos
  | succ n ih =>
    rw [List.range_succ, List.map_append, List.sum_append, List.map_singleton, List.sum_singleton, Nat.pow_succ]
    split <;> omega

/-- Bits set one after another add up. -/
theorem foldl_bits (p : Nat → Bool) (n : Nat) :
    (List.range n).foldl (fun (w : Word) b => if p b then w ||| BitVec.ofNat 32 (2 ^ b) else w) 0 =
      BitVec.ofNat 32 ((List.range n).map (fun k => if p k then 2 ^ k else 0)).sum := by
  induction n with
  | zero => rfl
  | succ n ih =>
    rw [List.range_succ, List.foldl_append, ih, List.map_append, List.sum_append, List.map_singleton, List.sum_singleton]
    cases hp : p n with
    | false => simp [hp]
    | true =>
      have hor := Nat.two_pow_add_eq_or_of_lt (sum_bits_lt p n) 1
      rw [Nat.mul_one] at hor
      simp only [List.foldl_cons, List.foldl_nil, hp, if_true]
      rw [Nat.add_comm, hor, BitVec.ofNat_or, BitVec.or_comm]

theorem bitsOf_eq (sub : BitVec 3) (p : Nat → Bool) : bitsOf sub p = Claims.laneWord sub p := by
  rw [bitsOf, upFrom_zero, foldl_bits (fun b => p (32 * sub.toNat + b)), Claims.laneWord]

/-! ### What each word computes (R175-R182) -/

/-- A word's function and another one give every participant the same, and the same flags, where participants and contributors are
the lanes of sets. -/
def AgreeOnSets (f f' : CrossIn → CrossOut) : Prop :=
  ∀ (c : CrossIn) (P C : LaneSet), c.ps = lanesIn P → c.cs = lanesIn C → (∀ i ∈ c.ps, (f c).1 i = (f' c).1 i) ∧ (f c).2 = (f' c).2

theorem AgreeOnSets.of_eq {f f' : CrossIn → CrossOut} (h : ∀ c, f c = f' c) : AgreeOnSets f f' :=
  fun c _ _ _ _ => ⟨fun _ _ => by rw [h c], by rw [h c]⟩

theorem AgreeOnSets.congr {f g h : CrossIn → CrossOut} (hfg : AgreeOnSets f g) (hgh : ∀ c, g c = h c) : AgreeOnSets f h :=
  (funext hgh : g = h) ▸ hfg

theorem exchange_eq (src : CrossIn → Nat → Int) (other : CrossIn → Nat → Word) (c : CrossIn) :
    exchange src other c = (fun i => Claims.takeFrom c (src c i) (other c i), 0) := by
  refine Prod.ext (funext fun i => congrArg some ?_) rfl
  exact if_congr (by simp [CrossIn.has, and_assoc]) rfl rfl

theorem find?_self (i : Nat) (ls : List Nat) : ls.find? (fun k => decide (k = i)) = if i ∈ ls then some i else none := by
  induction ls with
  | nil => rfl
  | cons k ls ih =>
    by_cases hk : k = i
    · simp [hk]
    · simp [hk, ih, Ne.symm hk]

/-- Each listed lane's own tree, with every such tree's flags. -/
theorem perLane_eq (f : Word → Word → Word × Flags) (c : CrossIn) (ls : List Nat) (on : Nat → Nat → Bool) :
    perLane f 0 c ls on = Claims.ownTrees f ls c on := by
  refine Prod.ext (funext fun i => ?_) List.foldl_map
  dsimp only [perLane, Claims.ownTrees]
  rw [List.find?_map, Option.map_map]
  refine (congrArg _ (find?_self i ls)).trans ?_
  rw [apply_ite (Option.map _)]
  rfl

section
variable {op : Word → Word → Word} (assoc : ∀ x y z, op (op x y) z = op x (op y z)) {e : Word} (unit : ∀ x, op e x = x)
include assoc unit

theorem reduce_agrees {f : CrossIn → CrossOut} (hf : ∀ c, f c = (fun _ => some ((c.cs.map c.va).foldl op e), 0)) :
    AgreeOnSets (reduce (exact op) e) f := by
  intro c P C _ hc
  have htree := treeOf_exact c assoc unit hc (fun _ => true)
  rw [List.filter_true] at htree
  simp only [reduce, htree, hf, implies_true, and_self]

end

theorem ownTrees_sum (c : CrossIn) {C : LaneSet} (hc : c.cs = lanesIn C) (ls : List Nat) (on : Nat → Nat → Bool) :
    Claims.ownTrees (exact (· + ·) c) ls c on =
      (fun i => if i ∈ ls then some (((c.cs.filter (on i)).map c.va).sum) else none, 0) := by
  have htree (i : Nat) := treeOf_exact c (op := (· + ·)) BitVec.add_assoc (e := 0) BitVec.zero_add hc (on i)
  simp only [Claims.ownTrees, htree, List.sum_eq_foldl]
  exact Prod.ext rfl (foldl_idle (fun a _ _ => BitVec.or_zero) 0)

/-- The head of a contributor's segment (R179). -/
theorem headOf_eq (c : CrossIn) (i : Nat) : headOf c i = Claims.segHead c i := by
  have hflag : (fun j => decide (j ≤ i) && flagOn (c.vd j)) = fun j => decide (j ≤ i ∧ c.vd j ≠ 0) :=
    funext fun j => (Bool.decide_and (j ≤ i) (c.vd j ≠ 0)).symm
  unfold headOf Claims.segHead
  rw [hflag]
  cases (c.cs.filter (fun j => decide (j ≤ i ∧ c.vd j ≠ 0))).getLast? with
  | none => rfl
  | some j => rfl

theorem toInt_least (x y : Word) : (Claims.least x y).toInt = min x.toInt y.toInt := by
  rw [Claims.least, apply_ite BitVec.toInt, min_def]

theorem toInt_most (x y : Word) : (Claims.most x y).toInt = max x.toInt y.toInt := by
  rw [Claims.most, apply_ite BitVec.toInt, max_def]

theorem least_assoc (x y z : Word) : Claims.least (Claims.least x y) z = Claims.least x (Claims.least y z) :=
  BitVec.eq_of_toInt_eq (by simp only [toInt_least, min_assoc])

theorem most_assoc (x y z : Word) : Claims.most (Claims.most x y) z = Claims.most x (Claims.most y z) :=
  BitVec.eq_of_toInt_eq (by simp only [toInt_most, max_assoc])

theorem least_highest (x : Word) : Claims.least 0x7FFFFFFF x = x :=
  BitVec.eq_of_toInt_eq (by
    have hx : x.toInt < 2 ^ 31 := BitVec.toInt_lt
    rw [toInt_least]
    exact min_eq_right (by exact Int.le_of_lt_add_one hx))

theorem most_lowest (x : Word) : Claims.most 0x80000000 x = x :=
  BitVec.eq_of_toInt_eq (by
    rw [toInt_most]
    exact max_eq_right (BitVec.le_toInt x))

/-- Lanes in LSORT's order (R182). -/
theorem sortsBefore_eq (sub : BitVec 3) (c : CrossIn) (i j : Nat) : sortsBefore sub c i j = Claims.sortedBefore sub c i j := by
  have hslt (u v : Word) : u.slt v = decide (u.toInt < v.toInt) := rfl
  unfold sortsBefore Claims.sortedBefore
  cases sub.getLsbD 0 <;> cases sub.getLsbD 1 <;> simp [hslt, BitVec.toInt_inj, BitVec.toNat_inj]

/-- The key by which MAXLOC selects (R106, R178). -/
def maxlocKey (sub : BitVec 3) (c : CrossIn) (j : Nat) : Nat :=
  let fm := if sub.toNat % 4 = 0 then fp32 else if sub.toNat % 4 = 1 then fp16 else bf16
  let x : Nat := if sub.toNat % 4 = 0 then (c.va j).toNat else (c.va j).toNat % 2 ^ 16
  packedKey (if sub.getLsbD 2 then minkey fm x else ordkey fm x) j

/-- MAXLOC selects the first contributor whose key no other exceeds (R178). -/
theorem maxloc_agrees (sub : BitVec 3) : AgreeOnSets (same (maxlocOf sub)) (fun c => (fun _ => some
    (((c.cs.find? (fun j => c.cs.all (fun k => decide (maxlocKey sub c k ≤ maxlocKey sub c j)))).map (BitVec.ofNat 32)).getD 0xFFFFFFFF), 0)) := by
  refine .of_eq fun c => ?_
  have h0 : sub.extractLsb' 0 2 = 0 ↔ sub.toNat % 4 = 0 := by rw [← BitVec.toNat_inj]; simp
  have h1 : sub.extractLsb' 0 2 = 1 ↔ sub.toNat % 4 = 1 := by rw [← BitVec.toNat_inj]; simp
  refine Prod.ext (funext fun _ => congrArg some ?_) rfl
  unfold maxlocOf
  simp only [h0, h1]
  cases hcs : c.cs with
  | nil => rfl
  | cons j js =>
    rw [find?_highest (maxlocKey sub c) j js]
    rfl

theorem compact_agrees (e : BitVec 3) : AgreeOnSets (compactOf e) (fun c =>
    let fs := c.cs.filter (fun j => Claims.CrossIn.flag c j)
    (fun i => if e = 0 then (fs[c.ps.idxOf i]?).map c.vd
              else some (BitVec.ofNat 32 (fs.filter (fun j => decide (j < i))).length), 0)) := by
  intro c P C _ _
  unfold compactOf
  by_cases he : e = 0
  · rw [if_pos he]
    refine ⟨fun i hi => ?_, rfl⟩
    dsimp only
    rw [if_pos he, ← find?_zip_snd hi, Option.map_map]
    rfl
  · rw [if_neg he]
    exact ⟨fun i _ => (if_neg he).symm, rfl⟩

theorem lsort_agrees (e : BitVec 3) : AgreeOnSets (lsortOf e) (fun c => (fun i =>
    (c.cs.find? (fun j => (c.cs.filter (fun k => Claims.sortedBefore e c k j)).length = c.ps.idxOf i)).map (fun j =>
      if e.getLsbD 2 then BitVec.ofNat 32 j else c.va j), 0)) := by
  intro c P C _ _
  refine ⟨fun i hi => ?_, rfl⟩
  have hat : (upFrom 0 c.ps.length)[c.ps.idxOf i]? = some (c.ps.idxOf i) := by
    rw [upFrom_zero, List.getElem?_range (List.idxOf_lt_length_of_mem hi)]
  have hzip := (find?_zip_snd hi (upFrom 0 c.ps.length)).trans hat
  obtain ⟨q, hq, hq2⟩ := Option.map_eq_some_iff.1 hzip
  dsimp only [lsortOf]
  simp only [hq, Option.bind_some, hq2, sortsBefore_eq]

theorem flip_agrees (e : BitVec 3) : AgreeOnSets (exchange (flipSrc e) (fun c i => c.va i)) (fun c => (fun i =>
    Claims.takeFrom c (BitVec.ofNat 32 i ^^^ (if e = 6 then c.vd i else BitVec.ofNat 32 (2 ^ e.toNat))).toNat (c.va i), 0)) := by
  refine .of_eq fun c => (exchange_eq _ _ c).trans (Prod.ext (funext fun i => ?_) rfl)
  by_cases he : e = 6 <;> simp only [flipSrc, he, if_true, if_false]

theorem edge_agrees (e : BitVec 3) : AgreeOnSets
    (exchange (fun c _ => (if e = 0 then (c.cs.head?.map Int.ofNat) else (c.cs.getLast?.map Int.ofNat)).getD (-1)) (fun c i => c.va i))
    (fun c => (fun i => ((if e = 0 then c.cs.head? else c.cs.getLast?).map (fun s => Claims.takeFrom c (s : Nat) (c.va i))).getD (some (c.va i)), 0)) := by
  refine .of_eq fun c => (exchange_eq _ _ c).trans (Prod.ext (funext fun i => ?_) rfl)
  dsimp only
  rw [← apply_ite (Option.map Int.ofNat)]
  cases (if e = 0 then c.cs.head? else c.cs.getLast?) with
  | none => rfl
  | some j => rfl

theorem every_agrees : AgreeOnSets (same (fun c => if c.cs.all (fun j => flagOn (c.va j)) then 1 else 0))
    (fun c => (fun _ => some (if ∀ j ∈ c.cs, Claims.CrossIn.flag c j = true then 1 else 0), 0)) :=
  .of_eq fun _ => Prod.ext (funext fun _ => congrArg some (if_congr List.all_eq_true rfl rfl)) rfl

theorem bits_agrees (e : BitVec 3) (p : CrossIn → Nat → Nat → Bool) : AgreeOnSets (fun c => (fun i => some (bitsOf e (p c i)), 0))
    (fun c => (fun i => some (Claims.laneWord e (p c i)), 0)) :=
  .of_eq fun c => by simp only [bitsOf_eq]

theorem imin_agrees : AgreeOnSets (reduce (exact sminBV) 0x7FFFFFFF)
    (fun c => (fun _ => some ((c.cs.map c.va).foldl Claims.least 0x7FFFFFFF), 0)) := by
  have hop : (sminBV : Word → Word → Word) = Claims.least := funext fun x => funext fun y => sminBV_eq x y
  rw [hop]
  exact reduce_agrees least_assoc least_highest fun _ => rfl

theorem imax_agrees : AgreeOnSets (reduce (exact smaxBV) 0x80000000)
    (fun c => (fun _ => some ((c.cs.map c.va).foldl Claims.most 0x80000000), 0)) := by
  have hop : (smaxBV : Word → Word → Word) = Claims.most := funext fun x => funext fun y => smaxBV_eq x y
  rw [hop]
  exact reduce_agrees most_assoc most_lowest fun _ => rfl

theorem iadd_agrees : AgreeOnSets (reduce (exact (· + ·)) 0) (fun c => (fun _ => some ((c.cs.map c.va).sum), 0)) :=
  reduce_agrees BitVec.add_assoc BitVec.zero_add fun c => by rw [List.sum_eq_foldl]; rfl

theorem scanIadd_agrees (e : BitVec 3) : AgreeOnSets (scan (exact (· + ·)) 0 e)
    (fun c => (fun i => some (((c.cs.filter (fun j => decide (j < i ∨ (j = i ∧ e = 0)))).map c.va).sum), 0)) := by
  intro c P C _ hc
  rw [scan, perLane_eq, ownTrees_sum c hc]
  exact ⟨fun i hi => by simp only [hi, if_true, Bool.decide_or, Bool.decide_and], rfl⟩

theorem scanFadd_agrees (e : BitVec 3) : AgreeOnSets (scan floatAdd 0 e)
    (fun c => Claims.ownTrees (Claims.fadd32 c.rnd) c.ps c (fun i j => decide (j < i ∨ (j = i ∧ e = 0)))) :=
  .of_eq fun c => (perLane_eq _ _ _ _).trans (by simp only [Bool.decide_or, Bool.decide_and]; rfl)

theorem segredIadd_agrees : AgreeOnSets (segment (exact (· + ·)) false) (fun c => (fun i =>
    if i ∈ c.cs then some (((c.cs.filter (fun j => decide (Claims.segHead c j = Claims.segHead c i))).map c.va).sum) else none, 0)) := by
  intro c P C _ hc
  rw [segment, perLane_eq, ownTrees_sum c hc]
  exact ⟨fun i _ => by simp only [headOf_eq, Bool.not_false, Bool.true_or, Bool.and_true], rfl⟩

theorem segredFadd_agrees : AgreeOnSets (segment floatAdd false)
    (fun c => Claims.ownTrees (Claims.fadd32 c.rnd) c.cs c (fun i j => decide (Claims.segHead c j = Claims.segHead c i))) :=
  .of_eq fun c => (perLane_eq _ _ _ _).trans (by simp only [headOf_eq, Bool.not_false, Bool.true_or, Bool.and_true]; rfl)

theorem segscanFadd_agrees : AgreeOnSets (segment floatAdd true)
    (fun c => Claims.ownTrees (Claims.fadd32 c.rnd) c.cs c (fun i j => decide (Claims.segHead c j = Claims.segHead c i ∧ j ≤ i))) :=
  .of_eq fun c => (perLane_eq _ _ _ _).trans (by simp only [headOf_eq, Bool.not_true, Bool.false_or, Bool.decide_and]; rfl)

/-- Each cross-lane word gathers, with a function that agrees with its table's (R174-R182). -/
theorem exec_of_crossResult {i : LInstr} {d a : VReg} {m : MReg} {f' : CrossIn → CrossOut} (h : Claims.crossResult i = some (d, a, m, f')) :
    ∃ f, AgreeOnSets f f' ∧ ∀ s, exec (Code.l i).instr s = crossWord i d a m f s := by
  unfold Claims.crossResult at h
  split at h <;> cases h
  case h_1 => exact ⟨_, .of_eq (exchange_eq _ _), exec_xchPick _ _ _⟩
  case h_2 => exact ⟨_, .of_eq (exchange_eq _ _), exec_xchMove _ _ _ _⟩
  case h_3 e => exact ⟨_, flip_agrees e, exec_xchFlip _ _ _ _⟩
  case h_4 e =>
    refine ⟨_, (edge_agrees e).congr fun c => Prod.ext (funext fun i => ?_) rfl, exec_xchEdge _ _ _ _⟩
    dsimp only
    cases (if e = 0 then c.cs.head? else c.cs.getLast?) with
    | none => rfl
    | some j => rfl
  case h_5 => exact ⟨_, .of_eq fun _ => rfl, exec_qryCnt _ _ _⟩
  case h_6 => exact ⟨_, every_agrees, exec_qryEvery _ _ _⟩
  case h_7 e => exact ⟨_, bits_agrees e _, exec_qryBits _ _ _ _⟩
  case h_8 => exact ⟨_, iadd_agrees, exec_redIadd _ _ _⟩
  case h_9 => exact ⟨_, imin_agrees, exec_redImin _ _ _⟩
  case h_10 => exact ⟨_, imax_agrees, exec_redImax _ _ _⟩
  case h_11 => exact ⟨_, .of_eq fun _ => rfl, exec_redFadd _ _ _⟩
  case h_12 => exact ⟨_, .of_eq fun _ => rfl, exec_redFmin _ _ _⟩
  case h_13 => exact ⟨_, .of_eq fun _ => rfl, exec_redFmax _ _ _⟩
  case h_14 e => exact ⟨_, scanIadd_agrees e, exec_scanIadd _ _ _ _⟩
  case h_15 e => exact ⟨_, scanFadd_agrees e, exec_scanFadd _ _ _ _⟩
  case h_16 e =>
    refine ⟨_, (maxloc_agrees e).congr fun c => Prod.ext (funext fun i => congrArg some ?_) rfl, exec_maxloc _ _ _ _⟩
    dsimp only
    split
    · next j hj => exact congrArg (fun best : Option Nat => (best.map (BitVec.ofNat 32)).getD 0xFFFFFFFF) hj
    · next hn => exact congrArg (fun best : Option Nat => (best.map (BitVec.ofNat 32)).getD 0xFFFFFFFF) hn
  case h_17 => exact ⟨_, segredIadd_agrees, exec_segredIadd _ _ _⟩
  case h_18 => exact ⟨_, segredFadd_agrees, exec_segredFadd _ _ _⟩
  case h_19 => exact ⟨_, segscanFadd_agrees, exec_segscanFadd _ _ _⟩
  case h_20 e => exact ⟨_, bits_agrees e _, exec_matchLanes _ _ _ _⟩
  case h_21 e => exact ⟨_, compact_agrees e, exec_compact _ _ _ _⟩
  case h_22 e => exact ⟨_, lsort_agrees e, exec_lsort _ _ _ _⟩

/-! ### The unit issues (R172, R173) -/

theorem participants_eq (g : Group) (set : LaneSet) : set &&& g.where (fun _ l => l.gather.active) = Claims.participants g set := rfl

theorem arriveCross_place (g : Group) (b : Bundle) (m : MReg) : (arriveCross g b m).core = g.core ∧ (arriveCross g b m).slot = g.slot := ⟨rfl, rfl⟩

/-- A participant will have the value that it receives, and keeps its own where it receives none. -/
def Lane.receive (d : VReg) (l : Lane) : Option Word → Lane
  | some v => l.pendAll 8 (w32 d v)
  | none => l

/-- A group in which a cross-lane word has raised its flags, and in which each participant will have what it receives (R172, R173). -/
def Group.receive (g : Group) (ps : LaneSet) (d : VReg) (out : CrossOut) : Group :=
  (g.raiseFlags ((lanesIn ps).headD 0) out.2).upd ps (fun j l => l.receive d (out.1 j))

theorem Group.receive_place (g : Group) (ps : LaneSet) (d : VReg) (out : CrossOut) :
    (g.receive ps d out).core = g.core ∧ (g.receive ps d out).slot = g.slot := by
  unfold Group.receive Group.raiseFlags
  dsimp only [Group.upd_core, Group.upd_slot]
  split
  · exact ⟨rfl, rfl⟩
  · split <;> exact ⟨rfl, rfl⟩

/-- Only what participants receive matters. -/
theorem Group.receive_congr {g : Group} {ps : LaneSet} {d : VReg} {out out' : CrossOut} (hval : ∀ j ∈ lanesIn ps, out.1 j = out'.1 j)
    (hflags : out.2 = out'.2) : g.receive ps d out = g.receive ps d out' := by
  unfold Group.receive
  rw [hflags]
  refine Group.upd_congr fun j _ => ?_
  rw [getLsbD_lanesIn]
  by_cases hp : j ∈ lanesIn ps
  · rw [hval j hp]
  · simp only [hp, decide_false, Bool.false_eq_true, if_false]

section
variable {i : LInstr} {d a : VReg} {m : MReg} {s : State} {b : Bundle} {g g1 g2 : Group} {t : Team} {h : Bool} {set : LaneSet}
  {f : CrossIn → CrossOut}

/-- A legal cross-lane word whose requirement is complete runs for the lanes that stand at it. -/
theorem crossWord_runs (ready : Claims.CrossReady i m s b g g1 t h set) :
    crossWord i d a m f s = .next (runCross i d a m b t g1 h set f (s.pop.setGroup g1)) := by
  unfold crossWord
  simp only [ready.head, ready.group, ready.team, ready.legal, Option.isSome_none, Bool.false_eq_true, if_false, ← ready.split, ← ready.stand,
    ← ready.lanes, ready.full, ne_eq, not_false_eq_true, if_true]

/-- The unit issues once, for all of its participants. -/
theorem runCross_writes (hg2 : g2 = Claims.crossed g1 b m h set) (hne : Claims.participants g1 set ≠ 0)
    (hw : underWait g2 i.use (Claims.participants g1 set) = [])
    (hquiet : fpcEnables (g2.fpcFor (g2.lane ((lanesIn (Claims.participants g1 set)).headD 0))) &&& (f (Claims.crossIn g1 g2 set d a m)).2 = 0) :
    runCross i d a m b t g1 h set f (s.pop.setGroup g1) = afterUnit
      (s.pop.setGroup (g2.receive (Claims.participants g1 set) d (f (Claims.crossIn g1 g2 set d a m))))
      b.core b.slot (Claims.crossAtUnit i b) set := by
  obtain ⟨hcore, hslot⟩ := g2.receive_place (Claims.participants g1 set) d (f (Claims.crossIn g1 g2 set d a m))
  subst hg2
  have hpass : ¬(underWait (Claims.crossed g1 b m h set) i.use (Claims.participants g1 set)).isEmpty = false := by rw [hw]; decide
  have hplace : (Claims.crossed g1 b m h set).core = g1.core ∧ (Claims.crossed g1 b m h set).slot = g1.slot := ⟨rfl, rfl⟩
  refine congrArg (fun u => afterUnit u b.core b.slot (Claims.crossAtUnit i b) set)
    (((if_neg hne).trans ((if_neg hpass).trans (if_pos hquiet))).trans ?_)
  exact (State.setGroup_setGroup (s.pop.setGroup g1) hcore hslot).trans
    (State.setGroup_setGroup s.pop (hcore.trans hplace.1) (hslot.trans hplace.2))

end

/-! ### Lanes that arrive (R172) -/

/-- A lane as it stands at a cross-lane unit, active in its word or not. -/
def Lane.standing (b : Bundle) (m : MReg) (active : Bool) (l : Lane) : Lane :=
  { l with park := .join, gather := .cross m active, pc := b.unit, next := b.pos + 4, waited := false }

section
variable (g : Group) (b : Bundle) (m : MReg)

theorem arriveCross_lane {j : Nat} (hj : j ∈ lanesIn b.lanes) (hl : j < g.lanes.length) :
    ((arriveCross g b m).lane j).park = .join ∧ ((arriveCross g b m).lane j).pc = b.unit ∧ ((arriveCross g b m).lane j).next = b.pos + 4 := by
  have hset : b.lanes.getLsbD j = true := ((lanesIn_mem b.lanes j).1 hj).2
  have hlen : j < (g.atIssue b).lanes.length := by rw [Group.atIssue, Group.upd_length]; exact hl
  have hlane : (arriveCross g b m).lane j = ((g.atIssue b).lane j).standing b m ((activeIn (g.atIssue b) b).getLsbD j) :=
    (Group.lane_upd (g.atIssue b) b.lanes (fun i l => l.standing b m ((activeIn (g.atIssue b) b).getLsbD i)) j hlen).trans (if_pos hset)
  rw [hlane]
  exact ⟨rfl, rfl, rfl⟩

theorem getLsbD_foldl_or (f : Nat → LaneSet) (ls : List Nat) (x : LaneSet) (n : Nat) :
    (ls.foldl (fun x i => x ||| f i) x).getLsbD n = (x.getLsbD n || ls.any (fun i => (f i).getLsbD n)) := by
  induction ls generalizing x with
  | nil => simp
  | cons i ls ih => rw [List.foldl_cons, ih, BitVec.getLsbD_or, List.any_cons, Bool.or_assoc]

theorem arriveCross_requires {j n : Nat} (hm : m.toNat < g.x.length) (hj : j ∈ lanesIn b.lanes)
    (hn : ((g.atIssue b).maskFor ((g.atIssue b).lane j) m).getLsbD n = true) :
    ((arriveCross g b m).x.getD m.toNat 0).getLsbD n = true := by
  have hx : (arriveCross g b m).x.getD m.toNat 0 =
      (lanesIn b.lanes).foldl (fun x i => x ||| (g.atIssue b).maskFor ((g.atIssue b).lane i) m) ((g.atIssue b).x.getD m.toNat 0) := by
    have hlen : m.toNat < (g.atIssue b).x.length := hm
    unfold arriveCross
    dsimp only
    rw [List.getD_eq_getElem?_getD, List.getElem?_set_self hlen]
    rfl
  rw [hx, getLsbD_foldl_or, Bool.or_eq_true, List.any_eq_true]
  exact .inr ⟨j, hj, hn⟩

/-- A legal cross-lane word whose requirement is not complete leaves its lanes at its unit. -/
theorem crossWord_waits {i : LInstr} {d a : VReg} {f : CrossIn → CrossOut} {s : State} {t : Team} {g : Group} {b : Bundle} {m : MReg} (iss : Issues s b g t)
    (legal : legality t false g.fe.handler (.l i) i.encode = none) (hb : b.gathered = false)
    (hwait : (arriveCross g b m).crossAt (decide ((b.lanes &&& g.members true) ≠ 0)) b.unit m = 0) :
    crossWord i d a m f s = .next (settleJoins (s.pop.setGroup (arriveCross g b m)) b.core b.slot) := by
  unfold crossWord
  simp only [iss.head, iss.group, iss.team, legal, Option.isSome_none, hb, Bool.false_eq_true, if_false, hwait, ne_eq, not_true_eq_false]

end

end Sys2Proof.Machine

open Sys2Proof.Machine

namespace Sys2Proof.Claims

theorem crossLaneWords_hold : Claims.CrossLaneWords := by
  intro i d a m f' hi s b g g1 g2 t h set ready hg2 hne hw hquiet
  obtain ⟨f, hf, hexec⟩ := exec_of_crossResult hi
  obtain ⟨hval, hflags⟩ := hf (crossIn g1 g2 set d a m) _ _ rfl rfl
  rw [hexec, crossWord_runs ready, runCross_writes hg2 hne hw (hflags ▸ hquiet), Group.receive_congr hval hflags]
  rfl

theorem crossLaneArrival_holds : CrossLaneArrival := by
  intro i d a m f' hi s b g t iss legal hb hwait
  obtain ⟨f, _, hexec⟩ := exec_of_crossResult hi
  exact ⟨(hexec s).trans (crossWord_waits iss legal hb hwait), fun j hj hl => arriveCross_lane g b m hj hl,
    fun hm j hj n hn => arriveCross_requires g b m hm hj hn⟩

end Sys2Proof.Claims

/-- Settles O23: each word gathers with a function that agrees with its table's, and its lanes issue it once or park at it. -/
theorem crossLaneWords : Obligations.CrossLaneWords := by
  unfold Obligations.CrossLaneWords
  exact ⟨Claims.crossLaneWords_hold, Claims.crossLaneArrival_holds⟩

end

section
/-! Elements in the registers of the tile unit: what is read back of those that are put there (R22, R198). -/

open Sys2Proof Sys2Proof.Machine

namespace Sys2Proof.Machine

/-! ### Bytes of numbers (R9) -/

theorem bytesOf_length (n v : Nat) : (bytesOf n v).length = n := by
  induction n generalizing v with
  | zero => rfl
  | succ n ih => rw [bytesOf, List.length_cons, ih]

theorem natOf_bytesOf (n v : Nat) : natOf (bytesOf n v) = v % 256 ^ n := by
  induction n generalizing v with
  | zero => rw [Nat.pow_zero, Nat.mod_one]; rfl
  | succ n ih => rw [bytesOf, natOf, ih, BitVec.toNat_ofNat, Nat.pow_succ' (m := 256), Nat.mod_mul]

/-! ### Ranges of a memory -/

theorem Memory.read_congr {m u : Memory} {a n : Nat} (h : ∀ k < n, m.get (a + k) = u.get (a + k)) : m.read a n = u.read a n := by
  induction n generalizing a with
  | zero => rfl
  | succ n ih =>
    have h0 : m.get a = u.get a := h 0 n.succ_pos
    have hrest (k : Nat) (hk : k < n) : m.get (a + 1 + k) = u.get (a + 1 + k) := by
      have := h (k + 1) (Nat.succ_lt_succ hk)
      rwa [show a + (k + 1) = a + 1 + k by omega] at this
    rw [Memory.read, Memory.read, h0, ih hrest]

theorem Memory.read_of_bytes {m : Memory} {a : Nat} {bs : List Byte} (h : ∀ k < bs.length, m.get (a + k) = bs.getD k 0) :
    m.read a bs.length = bs := by
  induction bs generalizing a with
  | nil => rfl
  | cons b bs ih =>
    have h0 : m.get a = b := h 0 (Nat.succ_pos _)
    have hrest (k : Nat) (hk : k < bs.length) : m.get (a + 1 + k) = bs.getD k 0 := by
      have := h (k + 1) (Nat.succ_lt_succ hk)
      rwa [show a + (k + 1) = a + 1 + k by omega] at this
    rw [List.length_cons, Memory.read, h0, ih hrest]

/-- A range reads as what was last written to it, and one apart from that as before. -/
theorem Memory.read_write {m : Memory} (hm : m.wf = true) {a q : Nat} {bs : List Byte}
    (apart : a = q ∨ a + bs.length ≤ q ∨ q + bs.length ≤ a) :
    (m.write a bs).read q bs.length = if a = q then bs else m.read q bs.length := by
  by_cases haq : a = q
  · subst haq
    rw [if_pos rfl]
    refine Memory.read_of_bytes fun k hk => ?_
    rw [Memory.get_write hm, if_pos (by omega), Nat.add_sub_cancel_left]
  · rw [if_neg haq]
    refine Memory.read_congr fun k hk => ?_
    rw [Memory.get_write hm, if_neg (by omega)]

section
variable {α : Type} (pos : α → Nat) (bytes : α → List Byte)

/-- Bytes are put at several places in turn. -/
def Memory.writeAll (m : Memory) (cells : List α) : Memory := cells.foldl (fun m p => m.write (pos p) (bytes p)) m

/-- A place reads as what is put there, and one that is apart from every such place as before. -/
theorem Memory.read_writeAll {n q : Nat} {v : List Byte} (cells : List α) {m : Memory} (hm : m.wf = true)
    (hlen : ∀ p ∈ cells, (bytes p).length = n) (apart : ∀ p ∈ cells, pos p = q ∨ pos p + n ≤ q ∨ q + n ≤ pos p)
    (hit : ∀ p ∈ cells, pos p = q → bytes p = v) :
    (m.writeAll pos bytes cells).read q n = if ∃ p ∈ cells, pos p = q then v else m.read q n := by
  induction cells generalizing m with
  | nil => simp [Memory.writeAll]
  | cons p cells ih =>
    have hp := hlen p (List.mem_cons_self ..)
    have hread := Memory.read_write hm (a := pos p) (q := q) (bs := bytes p) (hp ▸ apart p (List.mem_cons_self ..))
    rw [hp] at hread
    have hrest := ih (m := m.write (pos p) (bytes p)) (Memory.wf_write hm _ _) (fun p h => hlen p (List.mem_cons_of_mem _ h))
      (fun p h => apart p (List.mem_cons_of_mem _ h)) (fun p h => hit p (List.mem_cons_of_mem _ h))
    refine hrest.trans ?_
    rw [hread]
    by_cases hpq : pos p = q
    · simp [hpq, hit p (List.mem_cons_self ..) hpq]
    · simp [hpq]

end

/-! ### Blocks -/

@[simp] theorem Block.put_data (b : Block) (pos : Nat) (bs : List Byte) (bad : List Nat) : (b.put pos bs bad).data = b.data.write pos bs := rfl
@[simp] theorem Block.spoil_data (b : Block) (pos n : Nat) : (b.spoil pos n).data = b.data := rfl

/-- The cells of the first rows and columns. -/
def corner (m n : Nat) : List (Nat × Nat) := (upFrom 0 m).flatMap (fun i => (upFrom 0 n).map (fun j => (i, j)))

theorem mem_corner {m n : Nat} {p : Nat × Nat} : p ∈ corner m n ↔ p.1 < m ∧ p.2 < n := by
  obtain ⟨i, j⟩ := p
  simp [corner, upFrom_mem]

/-- Where every cell of a corner is put at a place of its own, a place reads as its own cell's bytes. -/
theorem read_corner {m n w : Nat} {pos : Nat × Nat → Nat} {bytes : Nat × Nat → List Byte} {i j : Nat} {u : Memory} (hu : u.wf = true)
    (hlen : ∀ p, (bytes p).length = w) (apart : ∀ p ∈ corner m n, p = (i, j) ∨ pos p + w ≤ pos (i, j) ∨ pos (i, j) + w ≤ pos p) (hw : 0 < w) :
    (u.writeAll pos bytes (corner m n)).read (pos (i, j)) w = if i < m ∧ j < n then bytes (i, j) else u.read (pos (i, j)) w := by
  have hsame (p : Nat × Nat) (hp : p ∈ corner m n) (hq : pos p = pos (i, j)) : p = (i, j) := by
    rcases apart p hp with h | h | h
    · exact h
    · omega
    · omega
  rw [Memory.read_writeAll pos bytes (corner m n) hu (fun p _ => hlen p)
    (fun p hp => (apart p hp).imp_left (congrArg pos)) (fun p hp hq => congrArg bytes (hsame p hp hq))]
  refine if_congr ⟨?_, fun h => ⟨(i, j), mem_corner.2 h, rfl⟩⟩ rfl rfl
  rintro ⟨p, hp, hq⟩
  exact mem_corner.1 (hsame p hp hq ▸ hp)

/-! ### Registers of a side -/

section
variable (d : Side) (n m : Nat) (b : Block)

theorem Side.tile_setTile {d : Side} {n : Nat} (h : n < d.tiles.length) : (d.setTile n b).tile n = b := by
  simp [Side.tile, Side.setTile, List.getD_eq_getElem?_getD, h]

theorem Side.tile_setTile_other {n m : Nat} (h : m ≠ n) : (d.setTile n b).tile m = d.tile m := by
  simp [Side.tile, Side.setTile, List.getD_eq_getElem?_getD, List.getElem?_set_ne h.symm]

@[simp] theorem Side.comp_setTile : (d.setTile n b).comp m = d.comp m := rfl
@[simp] theorem Side.acc_setTile : (d.setTile n b).acc m = d.acc m := rfl
@[simp] theorem Side.shapes_setTile : (d.setTile n b).shapes = d.shapes := rfl

theorem Side.acc_setAcc {d : Side} {n : Nat} (h : n < d.accs.length) : (d.setAcc n b).acc n = b := by
  simp [Side.acc, Side.setAcc, List.getD_eq_getElem?_getD, h]

theorem Side.acc_setAcc_other {n m : Nat} (h : m ≠ n) : (d.setAcc n b).acc m = d.acc m := by
  simp [Side.acc, Side.setAcc, List.getD_eq_getElem?_getD, List.getElem?_set_ne h.symm]

@[simp] theorem Side.accs_setAcc_length : (d.setAcc n b).accs.length = d.accs.length := List.length_set
@[simp] theorem Side.tiles_setAcc : (d.setAcc n b).tiles = d.tiles := rfl
@[simp] theorem Side.tile_setAcc : (d.setAcc n b).tile m = d.tile m := rfl
@[simp] theorem Side.comp_setAcc : (d.setAcc n b).comp m = d.comp m := rfl
@[simp] theorem Side.shapes_setAcc : (d.setAcc n b).shapes = d.shapes := rfl

end

/-! ### Elements of tiles -/

section
variable (b : Block) (e r c : Nat)

theorem tile_place : 256 * r + c * (8 * e) / 8 = 256 * r + c * e := by
  rw [Nat.mul_left_comm, Nat.mul_div_cancel_left _ (by decide)]

theorem tileElem_bytes : tileElem b (8 * e) r c = natOf (b.data.read (256 * r + c * e) e) := by
  unfold tileElem
  rw [if_neg (by omega), tile_place, Nat.mul_div_cancel_left _ (by decide)]

theorem putTileElem_data (v : Nat) : (putTileElem b (8 * e) r c v).data = b.data.write (256 * r + c * e) (bytesOf e v) := by
  unfold putTileElem
  dsimp only
  rw [if_neg (by omega), tile_place, Nat.mul_div_cancel_left _ (by decide)]
  rfl

end

/-- Two elements of a tile lie apart. -/
theorem tile_apart {e i j i' j' : Nat} (hj : (j + 1) * e ≤ 256) (hj' : (j' + 1) * e ≤ 256) :
    (i', j') = (i, j) ∨ 256 * i' + j' * e + e ≤ 256 * i + j * e ∨ 256 * i + j * e + e ≤ 256 * i' + j' * e := by
  rw [Nat.succ_mul] at hj hj'
  rcases Nat.lt_trichotomy i' i with h | rfl | h
  · omega
  · rcases Nat.lt_trichotomy j' j with h | rfl | h
    · have := Nat.mul_le_mul_right e (Nat.succ_le_of_lt h)
      rw [Nat.succ_mul] at this
      omega
    · exact .inl rfl
    · have := Nat.mul_le_mul_right e (Nat.succ_le_of_lt h)
      rw [Nat.succ_mul] at this
      omega
  · omega

/-- A tile whose data is that of another one with the elements of a corner put into it. -/
theorem tileElem_corner {b u : Block} {e m n : Nat} {val : Nat → Nat → Nat} (he : 0 < e) (hn : n * e ≤ 256) (hb : b.data.wf = true)
    (hu : u.data = b.data.writeAll (fun p => 256 * p.1 + p.2 * e) (fun p => bytesOf e (val p.1 p.2)) (corner m n)) {i j : Nat}
    (hj : (j + 1) * e ≤ 256) :
    tileElem u (8 * e) i j = if i < m ∧ j < n then val i j % 2 ^ (8 * e) else tileElem b (8 * e) i j := by
  have hcells (p : Nat × Nat) (hp : p ∈ corner m n) : p = (i, j) ∨ 256 * p.1 + p.2 * e + e ≤ 256 * i + j * e ∨ 256 * i + j * e + e ≤ 256 * p.1 + p.2 * e :=
    tile_apart hj ((Nat.mul_le_mul_right e (mem_corner.1 hp).2).trans hn)
  have hread := read_corner (i := i) (j := j) hb (fun p => bytesOf_length e (val p.1 p.2)) hcells he
  rw [tileElem_bytes, tileElem_bytes, hu, hread, apply_ite natOf, natOf_bytesOf, Nat.pow_mul]

/-! ### Elements of accumulators -/

theorem acc_apart {i j i' j' : Nat} (hj : j < 64) (hj' : j' < 64) :
    (i', j') = (i, j) ∨ 4 * (64 * i' + j') + 4 ≤ 4 * (64 * i + j) ∨ 4 * (64 * i + j) + 4 ≤ 4 * (64 * i' + j') := by
  by_cases h : i' = i ∧ j' = j
  · exact .inl (by rw [h.1, h.2])
  · omega

/-- The 32-bit words of an accumulator in whose data those of a corner have been put. -/
theorem accWord_corner {b u : Block} {m n : Nat} {val : Nat × Nat → Nat} (hn : n ≤ 64) (hb : b.data.wf = true)
    (hu : u.data = b.data.writeAll (fun p => 4 * (64 * p.1 + p.2)) (fun p => bytesOf 4 (val p)) (corner m n)) {i j : Nat} (hj : j < 64) :
    natOf (u.data.read (4 * (64 * i + j)) 4) = if i < m ∧ j < n then val (i, j) % 2 ^ 32 else natOf (b.data.read (4 * (64 * i + j)) 4) := by
  have hread := read_corner (m := m) (pos := fun p => 4 * (64 * p.1 + p.2)) (i := i) (j := j) hb (fun p => bytesOf_length 4 (val p))
    (fun p hp => acc_apart hj ((mem_corner.1 hp).2.trans_le hn)) (by decide)
  rw [hu, hread, apply_ite natOf, natOf_bytesOf]
  rfl

end Sys2Proof.Machine
end

section
/-! MXGO as its command completes: its bypass, its elements and where they go (R113-R117, R209, R215). -/

open Sys2Proof Sys2Proof.Machine

namespace Sys2Proof.Machine

/-! ### Groups of a row (R116) -/

/-- A row is cut into groups of `n` elements, the last with what is left. -/
theorem chunks_eq {α : Type} {n : Nat} (hn : 0 < n) (fuel : Nat) (l : List α) (h : l.length < fuel) :
    chunks n fuel l = (List.range ((l.length + n - 1) / n)).map (fun g => (l.drop (n * g)).take n) := by
  induction fuel generalizing l with
  | zero => omega
  | succ fuel ih =>
    cases l with
    | nil =>
      rw [List.length_nil, Nat.zero_add, Nat.div_eq_of_lt (Nat.sub_one_lt hn.ne')]
      rfl
    | cons x xs =>
      have hlen : ((x :: xs).drop n).length = (x :: xs).length - n := List.length_drop
      have hcount : ((x :: xs).length + n - 1) / n = (((x :: xs).drop n).length + n - 1) / n + 1 := by
        rw [hlen, ← Nat.add_div_right _ hn]
        by_cases hshort : (x :: xs).length ≤ n
        · have h1 : (x :: xs).length + n - 1 = (xs.length) + n := by simp only [List.length_cons]; omega
          simp only [List.length_cons] at hshort ⊢
          rw [Nat.sub_eq_zero_of_le hshort, Nat.zero_add, Nat.div_eq_of_lt_le (k := 1) (by omega) (by omega)]
          exact (Nat.div_eq_of_lt_le (k := 1) (by omega) (by omega)).symm
        · congr 1
          omega
      have hrest := ih ((x :: xs).drop n) (by rw [hlen]; simp only [List.length_cons] at h ⊢; omega)
      rw [chunks, hrest, hcount, List.range_succ_eq_map, List.map_cons, List.map_map, Nat.mul_zero, List.drop_zero]
      · simp only [Function.comp_def, List.drop_drop, Nat.mul_succ, Nat.add_comm]
      · simp

theorem zeroPoint_eq (b : Block) (q4 : Bool) (r g : Nat) : compZero b q4 r g = Claims.zeroPoint b q4 r g := rfl

theorem dotQuant_groups (fa : Fmt) {size : Nat} (comp : Block) (q4 : Bool) (j acc : Nat) (xs : List (Fv × Nat)) (hs : 0 < size) :
    let e : Int := 1 - (fa.bias : Int) - fa.fb
    dotQuant fa size comp q4 j acc xs = (List.range ((xs.length + size - 1) / size)).foldl (fun acc g =>
      scaleInto e acc (compScale comp j g) (groupSum e (Claims.zeroPoint comp q4 j g) ((xs.drop (size * g)).take size))) acc := by
  intro e
  unfold dotQuant
  dsimp only
  rw [chunks_eq hs _ _ (Nat.lt_succ_self _), List.length_map, List.length_range, upFrom_zero]
  refine List.foldl_ext _ _ _ fun a g hg => ?_
  rw [List.getD_eq_getElem?_getD, List.getElem?_map, List.getElem?_range (List.mem_range.1 hg)]
  rfl

/-! ### The exact sum of a group (R116) -/

theorem scaled_eq_inUnits (n : Bool) (m q : Nat) (e emin : Int) :
    scaled (n != false) (m * q) (e + 0) emin = (q : Int) * Claims.inUnits emin (.fin n m e) := by
  cases n <;> simp [scaled, Claims.inUnits] <;> ring

/-- A sum of products of finite elements with integers is exact. -/
theorem foldl_add_finite (emin : Int) (w : Fv × Nat → Nat) (xs : List (Fv × Nat)) (h : ∀ p ∈ xs, ∃ n m e, p.1 = .fin n m e) (v : Int) :
    xs.foldl (fun b p => b.add emin p.1 (.fin false (w p) 0)) (BlockSum.fin v) =
      .fin (v + (xs.map (fun p => (w p : Int) * Claims.inUnits emin p.1)).sum) := by
  induction xs generalizing v with
  | nil => simp
  | cons p xs ih =>
    obtain ⟨n, m, e, hp⟩ := h p (List.mem_cons_self ..)
    have hadd : (BlockSum.fin v).add emin p.1 (.fin false (w p) 0) = .fin (v + (w p : Int) * Claims.inUnits emin p.1) := by
      rw [hp, ← scaled_eq_inUnits]
      rfl
    rw [List.foldl_cons, hadd, ih (fun p hp => h p (List.mem_cons_of_mem _ hp)), List.map_cons, List.sum_cons, Int.add_assoc]

theorem sum_sub_mul {α : Type} (q x : α → Int) (z : Int) (ps : List α) :
    (ps.map (fun p => q p * x p)).sum - (ps.map (fun p => 1 * x p)).sum * z = (ps.map (fun p => (q p - z) * x p)).sum := by
  induction ps with
  | nil => simp
  | cons p ps ih =>
    simp only [List.map_cons, List.sum_cons]
    rw [← ih]
    ring

theorem groupSum_finite (emin : Int) (z : Nat) (xs : List (Fv × Nat)) (h : ∀ p ∈ xs, ∃ n m e, p.1 = .fin n m e) :
    groupSum emin z xs = .fin (xs.map (fun p => ((p.2 : Int) - z) * Claims.inUnits emin p.1)).sum := by
  have hq := foldl_add_finite emin Prod.snd xs h 0
  have hs := foldl_add_finite emin (fun _ => 1) xs h 0
  unfold groupSum
  dsimp only
  rw [hq, hs]
  rw [Int.zero_add, Int.zero_add]
  exact congrArg BlockSum.fin (sum_sub_mul (fun p : Fv × Nat => (p.2 : Int)) (fun p => Claims.inUnits emin p.1) z xs)

/-- A sum that is 0 leaves the accumulator as it is, and any other enters it times the scale with one rounding. -/
theorem scaleInto_zero (emin : Int) (acc m : Nat) (n : Bool) (e : Int) : scaleInto emin acc (.fin n m e) (.fin 0) = acc := rfl

theorem scaleInto_finite (emin : Int) (acc m : Nat) (n : Bool) (e : Int) {v : Int} (hv : v ≠ 0) :
    scaleInto emin acc (.fin n m e) (.fin v) =
      (addV fp32 .rne (decodeF fp32 acc) (.fin (n != decide (v < 0)) (m * v.natAbs) (e + emin))).1 := by
  unfold scaleInto
  simp only [hv, if_false]
  rfl

/-! ### The elements of B (R209, R215) -/

theorem sparsePlace_eq (sh : Word) (md : Block) (j k : Nat) : sparsePlace sh md j k = Claims.keptAt sh md j k := by
  have hbit (x t : Nat) : x / 2 ^ t % 2 = 0 ↔ x.testBit t = false := by
    rw [Nat.testBit_eq_decide_div_mod_eq, decide_eq_false_iff_not]
    omega
  have hset (x t : Nat) : decide (x / 2 ^ t % 2 = 1) = x.testBit t := Nat.testBit_eq_decide_div_mod_eq.symm
  unfold sparsePlace Claims.keptAt
  simp only [hbit, hset, upFrom_zero]
  rfl

/-- Element k of row j of B, none where it is not stored. -/
def bStored (d : Side) (b : List Byte) (w : Nat) (j k : Nat) : Option Nat :=
  if blkOp b % 2 = 0 then some (tileElem (d.tile (blkBid b)) w j k)
  else Claims.keptElem (d.shape (blkBid b)) (d.tile (blkBid b)) (d.tile (blkMid b)) j k

theorem bElem_eq {d : Side} {b : List Byte} {w : Nat} (hw : blkOp b % 2 = 1 → ewBits (shEw (d.shape (blkBid b))) = w) (j k : Nat) :
    bElem d b w j k = bStored d b w j k := by
  unfold bElem bStored
  by_cases h : blkOp b % 2 = 0
  · rw [if_pos h, if_pos h]
  · rw [if_neg h, if_neg h, Claims.keptElem, sparsePlace_eq, hw (by omega)]

/-! ### The bypass (R215) -/

/-- What a bypass makes of element (i, k) of accumulator SID. -/
def bypassElem (d : Side) (w : Word) (b : List Byte) (phi i k : Nat) : Nat :=
  if fwAf w = 0 then accElem d true (blkSid b) i k
  else (fConvert fp32 (fmtOf (fwAf w)) (if fwRnd w = 2 then .dither (ditherT (8 * (i % 8) + k % 8) phi) else rndOf (BitVec.ofNat 2 (fwRnd w)))
    (accElem d false (blkSid b) i k)).1

/-- The registers that an MXGO multiplies. -/
def bypassed (d : Side) (c : TileCmd) : Side := if blkByp c.block then bypass d (c.b.setWidth 32) c.block c.phi else d

theorem width_bytes {f : Nat} (h : f ≠ 7) : ∃ e, 0 < e ∧ ewBits (fmtEw f) = 8 * e := by
  unfold fmtEw
  split
  · exact ⟨8, by decide, rfl⟩
  · exact ⟨4, by decide, rfl⟩
  · exact ⟨2, by decide, rfl⟩
  · exact ⟨2, by decide, rfl⟩
  · exact absurd rfl h
  · exact ⟨1, by decide, rfl⟩

theorem bypass_data {d : Side} {w : Word} {b : List Byte} (phi : Nat) {e : Nat} (he : ewBits (fmtEw (fwAf w)) = 8 * e) (hid : blkAid b < d.tiles.length) :
    ((bypass d w b phi).tile (blkAid b)).data = (d.tile (blkAid b)).data.writeAll (fun p => 256 * p.1 + p.2 * e)
      (fun p => bytesOf e (bypassElem d w b phi p.1 p.2)) (corner (blkM b) (blkK b)) := by
  unfold bypass
  rw [Side.tile_setTile _ hid]
  refine (List.foldl_hom Block.data fun t p => ?_).symm
  dsimp only
  rw [he, apply_ite Block.data, Block.spoil_data, ite_self, putTileElem_data]
  refine congrArg _ (congrArg _ ?_)
  unfold bypassElem
  by_cases h : fwAf w = 0
  · simp only [h, decide_true, if_true]
  · simp only [h, decide_false, if_false]
    rfl

/-! ### The corner of the accumulator (R215) -/

/-- An accumulator block with one half of each element of a product in its corner. -/
def accCorner (m n h : Nat) (bad : Bool) (elem : Nat × Nat → Nat) (acc : Block) : Block :=
  let put := (corner m n).foldl (fun (a : Block) p => a.put (4 * (64 * p.1 + p.2)) (bytesOf 4 (elem p / 2 ^ (32 * h))) []) acc
  if bad then put.spoil 0 16384 else put

/-- A side with a product in the corner of an accumulator, or of a pair. -/
def Side.putProduct (d : Side) (wide : Prop) [Decidable wide] (cid m n : Nat) (bad : Bool) (elem : Nat × Nat → Nat) : Side :=
  let d1 := d.setAcc cid (accCorner m n 0 bad elem (d.acc cid))
  if wide then d1.setAcc (cid + 1) (accCorner m n 1 bad elem (d.acc (cid + 1))) else d1

theorem accCorner_data (m n h : Nat) (bad : Bool) (elem : Nat × Nat → Nat) (acc : Block) : (accCorner m n h bad elem acc).data =
    acc.data.writeAll (fun p => 4 * (64 * p.1 + p.2)) (fun p => bytesOf 4 (elem p / 2 ^ (32 * h))) (corner m n) := by
  unfold accCorner
  dsimp only
  rw [apply_ite Block.data, Block.spoil_data, ite_self]
  exact (List.foldl_hom Block.data fun _ _ => rfl).symm

section
variable {d : Side} {wide : Prop} [Decidable wide] {cid m n : Nat} {bad : Bool} {elem : Nat × Nat → Nat}

theorem putProduct_keeps : Claims.KeepsRegs d (d.putProduct wide cid m n bad elem) [] [] (if wide then [cid, cid + 1] else [cid]) := by
  unfold Side.putProduct
  by_cases h : wide
  · rw [if_pos h, if_pos h]
    refine ⟨fun _ _ => rfl, fun _ _ => rfl, fun k hk => ?_, rfl⟩
    simp only [List.mem_cons, List.not_mem_nil, or_false, not_or] at hk
    rw [Side.acc_setAcc_other (h := hk.2), Side.acc_setAcc_other (h := hk.1)]
  · rw [if_neg h, if_neg h]
    exact ⟨fun _ _ => rfl, fun _ _ => rfl, fun k hk => Side.acc_setAcc_other (h := fun e => hk (List.mem_singleton.2 e)) .., rfl⟩

theorem putProduct_tiles : (d.putProduct wide cid m n bad elem).tiles = d.tiles := by
  unfold Side.putProduct
  by_cases h : wide
  · rw [if_pos h]; rfl
  · rw [if_neg h]; rfl

/-- An element of the accumulator is the product's in its corner, and stays elsewhere. -/
theorem accElem_putProduct (hcid : cid + (if wide then 1 else 0) < d.accs.length) (hlow : (d.acc cid).data.wf = true)
    (hhigh : (d.acc (cid + 1)).data.wf = true) (hn : n ≤ 64) {i j : Nat} (hj : j < 64) :
    accElem (d.putProduct wide cid m n bad elem) (decide wide) cid i j =
      if i < m ∧ j < n then elem (i, j) % 2 ^ (if wide then 64 else 32) else accElem d (decide wide) cid i j := by
  have hl := accWord_corner (m := m) (i := i) hn hlow (accCorner_data m n 0 bad elem (d.acc cid)) hj
  rw [Nat.mul_zero, Nat.pow_zero, Nat.div_one] at hl
  unfold accElem Side.putProduct
  by_cases h : wide
  · have hh := accWord_corner (m := m) (i := i) hn hhigh (accCorner_data m n 1 bad elem (d.acc (cid + 1))) hj
    rw [if_pos h] at hcid
    simp only [h, if_true, decide_true]
    rw [Side.acc_setAcc_other (h := (Nat.succ_ne_self cid).symm), Side.acc_setAcc _ (by omega), Side.acc_setAcc _ (by simpa using hcid), hl, hh]
    by_cases hin : i < m ∧ j < n
    · rw [if_pos hin, if_pos hin, if_pos hin, ← Nat.mod_mul]
      rfl
    · rw [if_neg hin, if_neg hin, if_neg hin]
  · rw [if_neg h, Nat.add_zero] at hcid
    simp only [h, if_false, decide_false, Bool.false_eq_true, Nat.add_zero]
    rw [Side.acc_setAcc _ hcid, hl]

end

/-! ### The product (R113-R117, R215) -/

theorem bypassed_shapes (d : Side) (c : TileCmd) : (bypassed d c).shapes = d.shapes := by
  unfold bypassed
  split
  · rfl
  · rfl

theorem zip_map_upFrom {α β : Type} (f : Nat → α) (g : Nat → β) (n : Nat) :
    ((upFrom 0 n).map f).zip ((upFrom 0 n).map g) = (List.range n).map (fun k => (f k, g k)) := by
  rw [upFrom_zero, List.zip_map']

/-- What is not stored counts as an exact zero. -/
theorem storedValue_eq (f : Fmt) (o : Option Nat) : (match o with | some v => decodeF f v | none => Fv.fin false 0 0) =
    (o.map (decodeF f)).getD (.fin false 0 0) := by
  cases o with
  | none => rfl
  | some v => rfl

/-- MXGO multiplies the registers that its bypass leaves, and puts the product into its accumulator. -/
theorem runMxgo_product {d : Side} {c : TileCmd} (hm : blkM c.block ≠ 0)
    (hw : blkOp c.block % 2 = 1 → shEw (d.shape (blkBid c.block)) = fmtEw (fwBf (c.b.setWidth 32))) : ∃ bad elem,
    (runMxgo d c).1 = (bypassed d c).putProduct (fwCf (c.b.setWidth 32) = 0) (blkCid c.block) (blkM c.block) (blkN c.block) bad elem ∧
    ∀ i j, i < blkM c.block → j < blkN c.block → elem (i, j) = Claims.productElem (bypassed d c) c i j := by
  have hb (j k : Nat) : bElem (bypassed d c) c.block (ewBits (fmtEw (fwBf (c.b.setWidth 32)))) j k =
      bStored (bypassed d c) c.block (ewBits (fmtEw (fwBf (c.b.setWidth 32)))) j k :=
    bElem_eq (fun hop => congrArg ewBits (by rw [← hw hop, Side.shape, bypassed_shapes, Side.shape])) j k
  have hd : (if blkByp c.block = true then bypass d (c.b.setWidth 32) c.block c.phi else d) = bypassed d c := rfl
  unfold runMxgo
  dsimp only
  rw [if_neg hm, hd]
  generalize bypassed d c = d1 at hb ⊢
  refine ⟨_, _, rfl, fun i j hi hj => ?_⟩
  dsimp only
  unfold Claims.productElem
  simp only [getD_map_upFrom _ _ hi, getD_map_upFrom _ _ hj, hb]
  by_cases hq : 2 ≤ blkOp c.block
  · rw [if_pos hq, if_pos hq]
    rw [List.map_map, zip_map_upFrom]
    refine congrArg _ (List.map_congr_left fun k hk => ?_)
    rw [getD_map_upFrom _ _ (List.mem_range.1 hk)]
    rfl
  · rw [if_neg hq, if_neg hq]
    by_cases hwide : fwCf (c.b.setWidth 32) = 0
    · rw [if_pos hwide, if_pos hwide]
      rw [List.map_map, zip_map_upFrom, dotDouble, List.foldl_map]
      rfl
    · rw [if_neg hwide, if_neg hwide]
      simp only [Bool.or_eq_true, decide_eq_true_eq]
      rw [List.map_map, List.map_map, zip_map_upFrom]
      exact congrArg _ (List.map_congr_left fun k _ => congrArg (Prod.mk _) (storedValue_eq _ (bStored d1 c.block _ j k)))

theorem runCmd_mxgo (d : Side) {c : TileCmd} (a : Option Agent) (h : c.kind = 10) : (runCmd d c a).1 = (runMxgo d c).1 := by
  unfold runCmd
  rw [h]
  rfl

theorem runMxgo_of_noRow (d : Side) {c : TileCmd} (h : blkM c.block = 0) : runMxgo d c = (d, false) := by
  unfold runMxgo
  exact if_pos h

theorem bypassed_accs (d : Side) (c : TileCmd) : (bypassed d c).accs = d.accs := by
  unfold bypassed
  split
  · rfl
  · rfl

theorem accElem_bypassed (d : Side) (c : TileCmd) (wide : Bool) (n i j : Nat) : accElem (bypassed d c) wide n i j = accElem d wide n i j := by
  unfold accElem Side.acc
  rw [bypassed_accs]

theorem bypassed_keeps (d : Side) (c : TileCmd) : Claims.KeepsRegs d (bypassed d c) (if blkByp c.block then [blkAid c.block] else []) [] [] := by
  unfold bypassed
  by_cases h : blkByp c.block = true
  · rw [if_pos h, if_pos h]
    exact ⟨fun k hk => Side.tile_setTile_other (h := fun e => hk (List.mem_singleton.2 e)) .., fun _ _ => rfl, fun _ _ => rfl, rfl⟩
  · rw [if_neg h, if_neg h]
    exact ⟨fun _ _ => rfl, fun _ _ => rfl, fun _ _ => rfl, rfl⟩

theorem tileElem_bypassed {d : Side} {c : TileCmd} (h : blkByp c.block = true) (hid : blkAid c.block < d.tiles.length)
    (hwf : (d.tile (blkAid c.block)).data.wf = true) (hk : blkK c.block * ewBits (fmtEw (fwAf (c.b.setWidth 32))) ≤ 2048)
    (haf : fwAf (c.b.setWidth 32) ≠ 7) {i k : Nat} (hin : (k + 1) * ewBits (fmtEw (fwAf (c.b.setWidth 32))) ≤ 2048) :
    tileElem ((bypassed d c).tile (blkAid c.block)) (ewBits (fmtEw (fwAf (c.b.setWidth 32)))) i k =
      if i < blkM c.block ∧ k < blkK c.block then
        bypassElem d (c.b.setWidth 32) c.block c.phi i k % 2 ^ ewBits (fmtEw (fwAf (c.b.setWidth 32)))
      else tileElem (d.tile (blkAid c.block)) (ewBits (fmtEw (fwAf (c.b.setWidth 32)))) i k := by
  obtain ⟨e, hpos, he⟩ := width_bytes haf
  have hdata := bypass_data c.phi he hid
  rw [he, Nat.mul_left_comm] at hk hin
  rw [he, bypassed, if_pos h]
  exact tileElem_corner hpos (by omega) hwf hdata (by omega)

end Sys2Proof.Machine

namespace Sys2Proof.Claims

theorem headD_mem {α : Type} {l : List α} (h : l ≠ []) (d : α) : l.headD d ∈ l := by
  cases l with
  | nil => exact absurd rfl h
  | cons x xs => exact List.mem_cons_self ..

theorem groupProducts_hold : GroupProducts := by
  refine ⟨fun fa size comp q4 j acc xs hs => dotQuant_groups fa comp q4 j acc xs hs, fun emin z xs h => ?_,
    fun emin acc m n e v => ⟨scaleInto_zero emin acc m n e, scaleInto_finite emin acc m n e⟩⟩
  exact groupSum_finite emin z xs fun p hp => by
    obtain ⟨n, m, e, hpe, _⟩ := h p hp
    exact ⟨n, m, e, hpe⟩

theorem matrixWord_holds : Claims.MatrixWord := by
  intro a r k s b g t w off loc blk i x s1 g1 ready hword hoff hpass hblk hfault
  have hlead : (lanesIn (g.activeOf b 1)).headD 0 ∈ lanesIn (g.activeOf b 1) := headD_mem (lanesIn_ne_nil ready.active) 0
  have hlane : (g1.lane ((lanesIn (g.activeOf b 1)).headD 0)).reg a.toNat = w := hword _ hlead
  have hagree : ¬(lanesIn (g.activeOf b 1)).any (fun j => decide ((g1.lane j).reg a.toNat ≠ w)) = true := by
    rw [List.any_eq_true]
    rintro ⟨j, hj, hne⟩
    exact of_decide_eq_true hne (hword j hj)
  have hverdict := verdict_of_passes hpass
  have hown : (blkByp blk && decide (fwRnd w = 2) && !blkDps blk && decide (blkM blk ≠ 0)) = true ↔
      blkByp blk = true ∧ fwRnd w = 2 ∧ blkDps blk = false ∧ blkM blk ≠ 0 := by
    simp only [Bool.and_eq_true, decide_eq_true_eq, Bool.not_eq_true', and_assoc]
  subst hlane hoff hblk
  rw [exec_mxgo, execMxgo, lset_ready ready]
  refine congrArg _ (congrArg _ ?_)
  simp only [Issues.ix_core, Issues.ix_slot, State.issued_group ready.toIssues 1]
  refine (if_neg hagree).trans ?_
  split
  next vec c hv => exact nomatch hverdict.symm.trans hv
  next l hv => exact nomatch hverdict.symm.trans hv
  next l tso hv =>
    obtain ⟨rfl, rfl⟩ := Verdict.go.inj (hverdict.symm.trans hv)
    split
    next vec c addr hf => exact absurd (hf.symm.trans hfault) (Option.some_ne_none _)
    next =>
      rw [raiseUnit_nil ready.whole]
      exact congrArg _ (if_congr hown rfl rfl)

theorem productResults_hold : ProductResults := by
  intro d c a hkind b w wide fa wa r rnd hM hN hcid hlow hhigh hshape hbyp
  have hr : r = (runMxgo d c).1 := runCmd_mxgo d a hkind
  by_cases hm : blkM b = 0
  · have hd : r = d := hr.trans (congrArg Prod.fst (runMxgo_of_noRow d hm))
    rw [hd]
    refine ⟨d, rfl, ⟨fun _ _ => rfl, fun _ _ => rfl, fun _ _ => rfl, rfl⟩, fun _ i k _ _ => ?_, ⟨fun _ _ => rfl, fun _ _ => rfl, fun _ _ => rfl, rfl⟩,
      fun i j _ _ => ?_⟩
    · rw [if_neg (by omega)]
    · rw [if_neg (by omega)]
  · obtain ⟨bad, elem, hput, helem⟩ := runMxgo_product hm hshape
    rw [hr, hput]
    simp only [wide, decide_eq_true_eq] at hcid ⊢
    refine ⟨bypassed d c, putProduct_tiles, bypassed_keeps d c, fun hb i k _ hin => ?_, putProduct_keeps, fun i j _ hj => ?_⟩
    · obtain ⟨hid, hwf, hK, haf⟩ := hbyp hb
      exact tileElem_bypassed hb hid hwf hK haf hin
    · have haccs : (bypassed d c).accs = d.accs := bypassed_accs d c
      rw [accElem_putProduct (by rw [haccs]; exact hcid) (by rw [Side.acc, haccs]; exact hlow) (by rw [Side.acc, haccs]; exact hhigh) hN hj,
        accElem_bypassed]
      by_cases hin : i < blkM b ∧ j < blkN b
      · rw [if_pos hin, if_pos hin, helem i j hin.1 hin.2]
      · rw [if_neg hin, if_neg hin]

end Sys2Proof.Claims
/-- Settles O9: MXGO as it issues, and as its command completes with its bypass, its product and the groups of R116. -/
theorem matrixWord : Obligations.MatrixWord := by
  unfold Obligations.MatrixWord
  exact ⟨Claims.matrixWord_holds, Claims.productResults_hold, Claims.groupProducts_hold⟩

end

section
/-! The fixed-latency floating-point words whose flags trap nowhere (R118, R120-R124). -/

open Sys2Proof Sys2Proof.Machine

/-- Settles O1: a word of the tables is a fixed-latency word over its table's function, and one that raises no enabled flag gives
its lanes their results. -/
theorem floatWords : Obligations.FloatWords := by
  unfold Obligations.FloatWords
  intro i lat f hf s b g t ready quiet
  exact (exec_of_floatResult hf s).trans (alu_ready ready lat f quiet)

end

section
/-! The canonical form along every step (R136, R249, R274): the turns of the agenda, and the rotation. -/

namespace Sys2Proof.Machine

/-! ### Words that issue -/

theorem touchFetch_canonical {s : State} (b : Bundle) (hs : s.Canonical) : (touchFetch s b).Canonical := by
  unfold touchFetch
  split
  · exact State.touch_canon s _ _ hs
  · exact hs

theorem runWord_keeps {s : State} (b : Bundle) (hs : s.Canonical) : Keeps (runWord b s) := by
  have ht := touchFetch_canonical b hs
  unfold runWord
  dsimp only
  split
  case h_1 c _ => exact Code.run_eq c _ ▸ exec_keeps c.instr _ ht
  case h_2 w c _ => exact illegalWord_keeps w c _ ht
  case h_3 v k _ => exact (keeps_next _).2 (fetchFault_canon b v k _ ht)
  case h_4 => exact (keeps_next _).2 (State.pop_canon s hs)

theorem takeReports_canonical {s : State} (b : Bundle) (hs : s.Canonical) : (takeReports s b).1.Canonical := by
  unfold takeReports
  dsimp only
  cases s.group? b.core b.slot with
  | none => exact hs
  | some g =>
    dsimp only
    split
    · exact hs
    · split
      · exact hs
      · split
        · exact raise_canon s _ _ _ _ hs
        · exact hs

theorem issueWord_keeps {s : State} (b0 : Bundle) (part : Option Nat) (hs : s.Canonical) : Keeps (issueWord b0 part s) := by
  unfold issueWord
  dsimp only
  have h1 : State.Canonical { s with issue := s.issue.erase (runsFirst s b0) } := canon_same hs
  have h2 := takeReports_canonical ((runsFirst s b0).present s) h1
  split
  · exact (keeps_next _).2 (runWake_canon _ part _ h1)
  · split
    · exact (keeps_next _).2 h2
    · split
      · exact runWord_keeps _ (canon_same h2)
      · exact runWord_keeps _ (canon_same h2)

/-! ### Turns of the agenda -/

/-- A slot's first bundle issues, if it has one. -/
theorem bundleOf_keeps {s : State} (core slot : Nat) (part : Option Nat) (hs : s.Canonical) :
    Keeps (match s.bundleOf core slot with | some b => issueWord b part s | none => .next s) := by
  cases s.bundleOf core slot with
  | some b => exact issueWord_keeps b part hs
  | none => exact (keeps_next s).2 hs

theorem takeTurn_keeps {s : State} (t : Turn) (hs : s.Canonical) : Keeps (takeTurn t s) := by
  cases t with
  | event i =>
    simp only [takeTurn]
    split
    · exact (keeps_next s).2 hs
    · exact exec_keeps i s hs
  | word core slot => exact bundleOf_keeps core slot none hs
  | part core slot n => exact bundleOf_keeps core slot (some n) hs

/-! ### Moves of the rotation -/

/-- A step of the device that keeps the canonical form. -/
def Move.Sound (m : Move) : Prop := ∀ s : State, s.Canonical → Keeps (m s)

/-- Steps of the device of which each keeps the canonical form. -/
def AllSound (ms : List Move) : Prop := ∀ m ∈ ms, Move.Sound m

theorem allSound_nil : AllSound [] := List.forall_mem_nil _

theorem allSound_one {m : Move} (h : Move.Sound m) : AllSound [m] := List.forall_mem_singleton.2 h

theorem AllSound.append {ms ns : List Move} (hm : AllSound ms) (hn : AllSound ns) : AllSound (ms ++ ns) :=
  List.forall_mem_append.2 ⟨hm, hn⟩

theorem allSound_ite {p : Prop} [Decidable p] {ms ns : List Move} (hm : AllSound ms) (hn : AllSound ns) :
    AllSound (if p then ms else ns) := by
  split
  · exact hm
  · exact hn

theorem allSound_map {α : Type} {l : List α} {f : α → Move} (h : ∀ a, Move.Sound (f a)) : AllSound (l.map f) :=
  List.forall_mem_map.2 (fun a _ => h a)

theorem allSound_flatMap {α : Type} {l : List α} {f : α → List Move} (h : ∀ a, AllSound (f a)) : AllSound (l.flatMap f) :=
  List.forall_mem_flatMap.2 (fun a _ => h a)

theorem allSound_filterMap {α : Type} {l : List α} {f : α → Option Move} (h : ∀ a m, f a = some m → Move.Sound m) :
    AllSound (l.filterMap f) := by
  intro m hm
  obtain ⟨a, -, ha⟩ := List.mem_filterMap.1 hm
  exact h a m ha

theorem swapMove_sound (w : Swap) : Move.Sound (swapMove w) := by
  intro s hs
  unfold swapMove
  cases w.phase with
  | hold => exact execSwapRead_keeps _ s hs
  | read => exact execSwapWrite_keeps _ s hs
  | write => exact execSwapCommit_keeps _ s hs
  | commit => exact execSwapRelease_keeps _ s hs

theorem agentMove_sound (a : Agent) : Move.Sound (agentMove a) := by
  intro s hs
  unfold agentMove
  cases List.find? (fun n => a.stepReady n) (upFrom 0 a.steps.length) with
  | some n => exact execAgentStep_keeps a.id n s hs
  | none =>
    cases a.fin with
    | cpy _ _ => exact execCpyInstanceComplete_keeps a.id s hs
    | collective _ => exact execCollectiveComplete_keeps _ s hs
    | _ => exact execAgentComplete_keeps a.id s hs

theorem frontMoves_sound (core slot : Nat) (f : Front) (w : Waiting) (traps : Bool) : AllSound (frontMoves core slot f w traps) := by
  have leave : AllSound (if f.sq = [] then [] else [execSqEntryLeave core slot]) :=
    allSound_ite allSound_nil (allSound_one (execSqEntryLeave_keeps core slot))
  have land : AllSound (f.ops.filterMap (fun o => o.lands.head?.map (fun d => execLongLatencyComplete core slot o.id d.lane))) := by
    refine allSound_filterMap (fun o m hm => ?_)
    obtain ⟨d, -, rfl⟩ := Option.map_eq_some_iff.1 hm
    exact execLongLatencyComplete_keeps core slot o.id d.lane
  have trap : AllSound (if traps then [execTrapEntry core slot] else []) :=
    allSound_ite (allSound_one (execTrapEntry_keeps core slot)) allSound_nil
  refine ((leave.append land).append trap).append ?_
  cases w with
  | bitmap _ _ => exact allSound_one (execWaitbmProceed_keeps core slot)
  | synce => exact allSound_one (execSynceProceed_keeps core slot)
  | lock _ => exact allSound_one (execRangeLockGrant_keeps core slot)
  | _ => exact allSound_nil

theorem groupMoves_sound (g : Group) : AllSound (groupMoves g) := by
  unfold groupMoves
  refine ((((frontMoves_sound _ _ _ _ _).append ?lock).append ?spec).append ?exits).append ?free
  case lock => exact allSound_ite allSound_nil (allSound_one (execRangeLockGrant_keeps _ _))
  case spec =>
    cases g.spec with
    | some r => exact allSound_ite (allSound_one (execSpeculationResolve_keeps _ _)) allSound_nil
    | none => exact allSound_nil
  case exits => exact allSound_ite (allSound_one (execExitsRestart_keeps _ _)) allSound_nil
  case free => exact allSound_ite (allSound_one (execGroupSlotFree_keeps _ _)) allSound_nil

theorem teamMoves_sound (s : State) (t : Team) : AllSound (teamMoves s t) := by
  unfold teamMoves
  refine (((((AllSound.append ?barrier ?queue).append ?inst).append ?regroup).append ?tile)).append ?retire
  case barrier => exact allSound_ite (allSound_one (execBarrierComplete_keeps _)) allSound_nil
  case queue => exact allSound_ite (allSound_one (execDqpopDeliver_keeps _)) allSound_nil
  case inst => exact allSound_ite allSound_nil (allSound_one (execCpyInstanceStart_keeps _))
  case regroup => exact allSound_ite (allSound_one (execRegroupPack_keeps _)) allSound_nil
  case tile =>
    refine allSound_filterMap (fun d m hm => ?_)
    split at hm
    · cases hm
    · cases hm
      exact execTileCommandComplete_keeps _ _
  case retire =>
    refine allSound_ite (allSound_one ?_) allSound_nil
    split
    · exact execTeamRetirement_keeps _
    · exact execTeamWriteBackStart_keeps _

theorem moves_sound (s : State) : AllSound (moves s) := by
  unfold moves
  refine (((((((((((AllSound.append ?swaps ?host).append ?out).append ?agents).append ?groups).append ?lanterns).append ?teams).append
    ?inv).append ?save).append ?preempt).append ?quote).append ?tasks).append ?cycles
  case swaps => exact allSound_map swapMove_sound
  case host => exact allSound_ite allSound_nil (allSound_one execHostWriteApply_keeps)
  case out =>
    cases s.outb with
    | cons o _ => exact allSound_one (execOutboundToMemory_keeps o.core 0)
    | nil => exact allSound_nil
  case agents => exact allSound_map agentMove_sound
  case groups => exact allSound_flatMap groupMoves_sound
  case lanterns => exact allSound_flatMap (fun _ => frontMoves_sound _ _ _ _ _)
  case teams => exact allSound_flatMap (teamMoves_sound s)
  case inv => exact allSound_ite allSound_nil (allSound_one execInvalidationComplete_keeps)
  case save =>
    cases s.saves with
    | cons v _ => exact allSound_one (execContextSaveComplete_keeps v.ctx)
    | nil => exact allSound_nil
  case preempt => exact allSound_ite allSound_nil (allSound_one (execPreemptDeadlineExpiry_keeps 0))
  case quote => exact allSound_ite (allSound_one execQuoteReady_keeps) allSound_nil
  case tasks => exact allSound_ite allSound_nil (allSound_one (execDistributorDecision_keeps 1))
  case cycles => exact allSound_map execIssueCycle_keeps

theorem rotate_keeps {s : State} (hs : s.Canonical) : Keeps (rotate s) := by
  unfold rotate
  dsimp only
  split
  case h_1 m hm => exact moves_sound s m (List.mem_of_getElem? hm) _ (canon_same hs)
  case h_2 => exact (keeps_next s).2 hs

/-- Every step keeps the canonical form. -/
theorem step_keeps {s : State} (hs : s.Canonical) : Keeps (step s) := by
  unfold step
  split
  case h_1 t rest _ => exact takeTurn_keeps t (canon_same hs)
  case h_2 =>
    split
    · exact issueWord_keeps _ none hs
    · exact rotate_keeps hs

end Sys2Proof.Machine

open Sys2Proof Sys2Proof.Machine

/-- Settles O13: the turn of the agenda, the bundle that issues, or a step in rotation, each by the meaning that it runs. -/
theorem stepsKeepTheCanonicalForm : Obligations.StepsKeepTheCanonicalForm :=
  fun _ t hs h => step_keeps hs t h

end

section
/-! The stores of lanes (R139, R155-R162, R167). -/

namespace Sys2Proof.Machine

open Sys2Proof.Claims

/-! ### Translations and operations of a word that issues whole -/

theorem laneSet_lanesIn (set : LaneSet) : laneSet (lanesIn set) = set := by
  apply LaneSet.ext
  intro j hj
  rw [getLsbD_laneSet, getLsbD_lanesIn]
  simp [hj]

/-- A translation that an access makes counts its walk's reads, or reports a malformed entry, and fills the cache (R330). -/
theorem touchFor_eq (s : State) (t : Team) (sp : Space) (off w : Nat) :
    ∃ cr xs ob, touchFor s t sp off w = { s with care := cr, ctxs := xs, outbox := ob } := by
  unfold touchFor
  split
  · exact s.touch_eq _ _
  · exact ⟨s.care, s.ctxs, s.outbox, rfl⟩

theorem looked_eq (i : LInstr) (s : State) (b : Bundle) (g : Group) (t : Team) (m : MemForm) :
    ∃ cr xs ob, looked i s b g t m = { s.issued b g 1 with care := cr, ctxs := xs, outbox := ob } := by
  unfold looked
  generalize lanesIn (g.activeOf b 1) = js
  generalize s.issued b g 1 = u
  induction js generalizing u with
  | nil => exact ⟨u.care, u.ctxs, u.outbox, rfl⟩
  | cons j js ih =>
    obtain ⟨cr, xs, ob, h⟩ := touchFor_eq u t m.sp (offOf b g m (sourceLane i.use.u (g.activeOf b 1) j)) m.w
    obtain ⟨cr2, xs2, ob2, h2⟩ := ih (touchFor u t m.sp (offOf b g m (sourceLane i.use.u (g.activeOf b 1) j)) m.w)
    exact ⟨cr2, xs2, ob2, by rw [List.foldl_cons, h2, h]⟩

theorem looked_ids (i : LInstr) (s : State) (b : Bundle) (g : Group) (t : Team) (m : MemForm) : (looked i s b g t m).ids = s.ids := by
  obtain ⟨cr, xs, ob, h⟩ := looked_eq i s b g t m
  rw [h]
  rfl

/-- An access of the slice translates nothing. -/
theorem looked_slice {i : LInstr} {s : State} {b : Bundle} {g : Group} {t : Team} {m : MemForm} (h : m.sp = .slice) :
    looked i s b g t m = s.issued b g 1 := by
  unfold looked touchFor
  rw [h]
  exact foldl_idle (fun _ _ _ => rfl) _

theorem startPart_whole {x : Ix} (h : x.b.Whole) (op : LongOp) (s : State) : startPart x op s = startOp s x.core x.slot op := by
  unfold startPart
  simp only [h.op, h.more, Bool.or_false, Bool.false_eq_true, if_false]

theorem opId_whole {x : Ix} (h : x.b.Whole) (s : State) : opId x s = s.ids := by simp [opId, h.op]

/-! ### A store word -/

/-- No store has a U bit (R158, R159, R162). -/
theorem storeForm_notUniform {i : LInstr} {m : MemForm} (h : storeForm i = some m) : i.use.u = false := by
  unfold storeForm at h
  split at h <;> cases h <;> rfl

theorem exec_of_storeForm {i : LInstr} {m : MemForm} (h : storeForm i = some m) (s : State) :
    exec (Code.l i).instr s = storeWord i m.sp m.w m.d m.a m.k m.sc m.ord s := by
  unfold storeForm at h
  split at h <;> cases h <;> rfl

/-- The entry of a lane's store (R139). -/
def storeEntry (s : State) (b : Bundle) (g : Group) (t : Team) (m : MemForm) (loc : Nat → Nat) (tso : Nat → Bool) (j : Nat) : Entry :=
  { loc := loc j, bytes := storeBytes b g m j, rel := m.ord, tso := tso j, op := s.ids, ctx := t.ctx, slot := t.slot
    va := if m.sp = .cupola then some (BitVec.ofNat 48 (Config.windowBase + offOf b g m j)) else none }

/-- The state that a store word leaves before the end of its unit: slices written, or entries appended (R139, R158). -/
def stored (i : LInstr) (s : State) (b : Bundle) (g : Group) (t : Team) (m : MemForm) (loc : Nat → Nat) (tso : Nat → Bool) : State :=
  if m.sp = .slice then
    startOp ((s.issued b g 1).setGroup ((g.issued b 1).upd (g.activeOf b 1) (fun j l => l.storeSlice (offOf b g m j) (storeBytes b g m j))))
      b.core b.slot { id := s.ids, tok := m.k, inH := (Issues.ix i b g t 1).h, lanes := g.activeOf b 1 }
  else
    let s2 := startOp ((looked i s b g t m).setGroup { (g.issued b 1) with fe := { g.fe with
        sq := g.fe.sq ++ (lanesIn (g.activeOf b 1)).map (storeEntry s b g t m loc tso) } })
      b.core b.slot { id := s.ids, tok := m.k, inH := (Issues.ix i b g t 1).h, lanes := g.activeOf b 1, sq := (lanesIn (g.activeOf b 1)).length }
    if m.sp = .cupola ∧ ∃ j ∈ lanesIn (g.activeOf b 1), inOutRegion t (Config.windowBase + offOf b g m j) m.w = false
    then loseStanding s2 t.id else s2

/-- A store whose lanes all pass their checks (R139, R155-R162, R167). -/
theorem storeWord_ready {i : LInstr} {s : State} {b : Bundle} {g : Group} {t : Team} {m : MemForm} {loc : Nat → Nat} {tso : Nat → Bool}
    (h : LReady i s b g t) (hu : i.use.u = false)
    (hp : ∀ j ∈ lanesIn (g.activeOf b 1), Passes (looked i s b g t m) t b.core g.fe.sq .store m.w (offOf b g m j) (loc j) (tso j) m.sp) :
    storeWord i m.sp m.w m.d m.a m.k m.sc m.ord s = .next (unitEnd b (Issues.ix i b g t 1) (stored i s b g t m loc tso)) := by
  have hw : (Issues.ix i b g t 1).b.Whole := h.whole
  have hg := State.issued_group h.toIssues 1
  have hfe : (g.issued b 1).fe = g.fe := rfl
  have hlook : (lanesIn (g.activeOf b 1)).foldl (fun s j => touchFor s t m.sp (offOf b g m j) m.w) (s.issued b g 1) = looked i s b g t m := by
    simp only [looked, hu, sourceLane, Bool.false_eq_true, if_false]
  have hv (j : Nat) (hj : j ∈ lanesIn (g.activeOf b 1)) := verdict_of_passes (hp j hj)
  unfold storeWord
  rw [lset_ready h]
  congr 2
  simp only [Issues.ix_core, Issues.ix_slot]
  rw [hg]
  simp only [hfe]
  have hact : (Issues.ix i b g t 1).act = g.activeOf b 1 := rfl
  have hpfx : (Issues.ix i b g t 1).pfx = b.pfx := rfl
  have ht : (Issues.ix i b g t 1).t = t := rfl
  simp only [hact, hpfx, ht]
  rw [show (fun s j => touchFor s t m.sp (((g.issued b 1).lane j).offset m.a m.sc b.pfx m.w).toNat m.w) = fun s j => touchFor s t m.sp (offOf b g m j) m.w from rfl, hlook]
  rw [filterMap_eq_map_of_mem (β := Nat × Nat × Bool) (g := fun j => (j, loc j, tso j)) ?go, List.filterMap_eq_nil_iff.2 ?hit, raiseUnit_nil hw]
  case go =>
    intro j hj
    exact (congrArg (fun v : Verdict => match v with | .go loc tso => some (j, loc, tso) | _ => none) (hv j hj)).trans rfl
  case hit =>
    intro j hj
    simp only [offOf] at hv
    rw [hv j hj]
  simp only [startPart_whole hw, opId_whole hw, looked_ids, List.map_map, List.foldl_map, Function.comp_def, List.map_id', List.length_map,
    laneSet_lanesIn]
  unfold stored
  by_cases hsp : m.sp = .slice
  · have hoff (j : Nat) (hj : j ∈ lanesIn (g.activeOf b 1)) : loc j = offOf b g m j := by
      have h1 := hp j hj
      rw [hsp] at h1
      exact h1.2.2.1
    simp only [hsp, if_true, reduceCtorEq, decide_false, Bool.false_and, Bool.false_eq_true, if_false, looked_slice hsp]
    refine congrArg (fun k : Group => startOp ((s.issued b g 1).setGroup k) b.core b.slot _) ?_
    refine (List.foldl_ext _ _ _ fun k j hj => ?_).trans (foldl_upd_set (fun j l => l.storeSlice (offOf b g m j) (storeBytes b g m j)) _ _)
    rw [hoff j hj]
    rfl
  · simp only [hsp, if_false, List.any_map]
    refine if_congr ?_ rfl rfl
    simp only [Function.comp_def, Bool.and_eq_true, decide_eq_true_eq, List.any_eq_true, Bool.not_eq_true']
    rfl

end Sys2Proof.Machine

open Sys2Proof.Machine

/-- Settles O4: each store is a store word, and the lanes of one that all pass leave what R139 and R158 say. -/
theorem storeWords : Obligations.StoreWords := by
  unfold Obligations.StoreWords
  intro i m hm s b g t loc tso ready passes
  exact (exec_of_storeForm hm s).trans (storeWord_ready ready (storeForm_notUniform hm) passes)

end

section
/-! What a store leaves as it was, as it issues and as its bytes reach memory (R139, R159, R265). -/

namespace Sys2Proof.Machine

open Sys2Proof.Claims

/-! ### As it issues -/

/-- A part of a lane that an update of lanes does not reach. -/
theorem Group.lane_upd_keeps {α : Type} {f : Lane → α} {F : Nat → Lane → Lane} (h : ∀ j l, f (F j l) = f l) (g : Group) (set : LaneSet) (j : Nat) :
    f ((g.upd set F).lane j) = f (g.lane j) := by
  by_cases hj : j < g.lanes.length
  · rw [Group.lane_upd _ _ _ _ hj]
    split
    · exact h j _
    · rfl
  · rw [Group.lane_of_ge _ (by simpa using hj), Group.lane_of_ge _ (by simpa using hj)]

theorem Group.issued_slice (g : Group) (b : Bundle) (n j : Nat) : ((g.issued b n).lane j).slice = (g.lane j).slice :=
  Group.lane_upd_keeps (f := (·.slice)) (fun _ l => Lane.pass_keeps (f := (·.slice)) (fun _ _ => rfl) (fun _ _ => rfl) (fun _ _ => rfl)
    (fun _ _ => rfl) (fun _ _ => rfl) (fun _ _ _ => rfl) l n (b.pos + 4)) g b.lanes j

theorem loseStanding_eq (s : State) (id : Nat) : ∃ ts, loseStanding s id = { s with teams := ts } := by
  unfold loseStanding
  split
  · exact ⟨_, rfl⟩
  · exact ⟨s.teams, rfl⟩

theorem Front.finish_keeps {γ : Type} {F : Front → γ} (h : ∀ f ops tok hk acqs, F { f with ops := ops, tok := tok, hk := hk, acqs := acqs } = F f)
    (f : Front) (id : Nat) : F (f.finish id) = F f := by
  unfold Front.finish
  split
  · rfl
  · split
    · exact h _ _ _ _ _
    · rfl

@[simp] theorem Front.start_finish_s (f : Front) (op : LongOp) (id : Nat) : ((f.start op).finish id).s = f.s :=
  Front.finish_keeps (F := (·.s)) (fun _ _ _ _ _ => rfl) _ _

@[simp] theorem Front.start_finish_sq (f : Front) (op : LongOp) (id : Nat) : ((f.start op).finish id).sq = f.sq :=
  Front.finish_keeps (F := (·.sq)) (fun _ _ _ _ _ => rfl) _ _

/-- An operation that has something outstanding stays, and its token counts it (R31). -/
theorem Front.start_finish_of_outstanding {f : Front} {op : LongOp} (hn : ∀ o ∈ f.ops, o.id ≠ op.id)
    (ho : (decide (op.lands = []) && decide (op.sq = 0) && !op.owed) = false) : (f.start op).finish op.id = f.start op := by
  have hf : (f.start op).ops.find? (fun o => o.id = op.id) = some op := by
    have h0 : f.ops.find? (fun o => o.id = op.id) = none := List.find?_eq_none.2 (fun o h => by simpa using hn o h)
    simp [Front.start, List.find?_append, h0]
  unfold Front.finish
  rw [hf]
  simp [ho]

section
variable {i : LInstr} {s : State} {b : Bundle} {g : Group} {t : Team} {m : MemForm} {loc : Nat → Nat} {tso : Nat → Bool}

/-- The operation that a store starts. -/
def storeOp (i : LInstr) (s : State) (b : Bundle) (g : Group) (t : Team) (m : MemForm) : LongOp :=
  { id := s.ids, tok := m.k, inH := (Issues.ix i b g t 1).h, lanes := g.activeOf b 1
    sq := if m.sp = .slice then 0 else (lanesIn (g.activeOf b 1)).length }

/-- The front that a store counts in, before its operation starts: with its entries appended. -/
def storeFront (s : State) (b : Bundle) (g : Group) (t : Team) (m : MemForm) (loc : Nat → Nat) (tso : Nat → Bool) : Front :=
  if m.sp = .slice then g.fe else { g.fe with sq := g.fe.sq ++ (lanesIn (g.activeOf b 1)).map (storeEntry s b g t m loc tso) }

/-- The lanes that a store leaves. -/
def storeLanes (b : Bundle) (g : Group) (m : MemForm) : Group :=
  if m.sp = .slice then (g.issued b 1).upd (g.activeOf b 1) (fun j l => l.storeSlice (offOf b g m j) (storeBytes b g m j)) else g.issued b 1

/-- The group that a store leaves. -/
def storedGroup (i : LInstr) (s : State) (b : Bundle) (g : Group) (t : Team) (m : MemForm) (loc : Nat → Nat) (tso : Nat → Bool) : Group :=
  { storeLanes b g m with fe := ((storeFront s b g t m loc tso).start (storeOp i s b g t m)).finish s.ids }

theorem storedGroup_place : (storedGroup i s b g t m loc tso).core = g.core ∧ (storedGroup i s b g t m loc tso).slot = g.slot := by
  unfold storedGroup storeLanes
  split <;> exact ⟨rfl, rfl⟩

/-- A store changes its group, and beside it what a translation and the team's standing may change. -/
theorem stored_eq (h : LReady i s b g t) : ∃ cr xs ob ts n, stored i s b g t m loc tso =
    { (s.issued b g 1).setGroup (storedGroup i s b g t m loc tso) with care := cr, ctxs := xs, outbox := ob, teams := ts, ids := n } := by
  have hg := State.issued_group h.toIssues 1
  unfold stored
  by_cases hsp : m.sp = .slice
  · rw [if_pos hsp, startOp_of_group h.slot hg (by rfl) (by rfl)]
    simp only [storedGroup, storeLanes, storeFront, storeOp, hsp, if_true]
    exact ⟨_, _, _, _, _, rfl⟩
  · obtain ⟨cr, xs, ob, hl⟩ := looked_eq i s b g t m
    rw [if_neg hsp]
    dsimp only
    rw [startOp_of_group h.slot (group?_looked h.toIssues i m) (by rfl) (by rfl), hl]
    simp only [storedGroup, storeLanes, storeFront, storeOp, hsp, if_false]
    split
    · obtain ⟨ts, ht⟩ := loseStanding_eq (State.fresh (State.setGroup { s.issued b g 1 with care := cr, ctxs := xs, outbox := ob }
        (storedGroup i s b g t m loc tso))) t.id
      simp only [storedGroup, storeLanes, storeFront, storeOp, hsp, if_false] at ht
      exact ⟨cr, xs, ob, ts, _, ht.trans rfl⟩
    · exact ⟨cr, xs, ob, _, _, rfl⟩

theorem group?_stored (h : LReady i s b g t) : (stored i s b g t m loc tso).group? b.core b.slot = some (storedGroup i s b g t m loc tso) := by
  obtain ⟨cr, xs, ob, ts, n, hs⟩ := stored_eq (m := m) (loc := loc) (tso := tso) h
  rw [hs]
  exact State.group?_setGroup_of (State.issued_group h.toIssues 1) _ storedGroup_place.1 storedGroup_place.2

theorem stored_otherGroup (h : LReady i s b g t) {c n : Nat} (hcn : ¬(c = b.core ∧ n = b.slot)) :
    (stored i s b g t m loc tso).group? c n = s.group? c n := by
  obtain ⟨cr, xs, ob, ts, k, hs⟩ := stored_eq (m := m) (loc := loc) (tso := tso) h
  obtain ⟨hc, hn⟩ := State.group?_core h.group
  have hne (x : Group) (h1 : x.core = g.core) (h2 : x.slot = g.slot) : ¬(x.core = c ∧ x.slot = n) :=
    fun e => hcn ⟨e.1.symm.trans (h1.trans hc), e.2.symm.trans (h2.trans hn)⟩
  rw [hs]
  exact (State.group?_setGroup_other (s := s.issued b g 1) (g := storedGroup i s b g t m loc tso) (hne _ storedGroup_place.1 storedGroup_place.2)).trans
    (State.group?_setGroup_other (s := s.pop) (g := g.issued b 1) (hne _ rfl rfl))

/-- What a store leaves of its group as it was. -/
theorem storedGroup_keeps (h : LReady i s b g t) :
    (storedGroup i s b g t m loc tso).fpc = g.fpc ∧ (storedGroup i s b g t m loc tso).m = g.m ∧ (storedGroup i s b g t m loc tso).fe.s = g.fe.s ∧
    (storedGroup i s b g t m loc tso).dbgc = g.dbgc ∧
    (m.sp = .slice → (storedGroup i s b g t m loc tso).fe.sq = g.fe.sq) ∧
    (m.sp ≠ .slice → (∀ o ∈ g.fe.ops, o.id ≠ s.ids) → (storedGroup i s b g t m loc tso).fe.tok = bump m.k g.fe.tok) := by
  unfold storedGroup storeLanes storeFront
  by_cases hsp : m.sp = .slice
  · simp only [hsp, if_true, ne_eq, not_true_eq_false, false_imp_iff, and_true, Front.start_finish_s, Front.start_finish_sq, Group.upd_fpc, Group.upd_dbgc]
    exact ⟨rfl, rfl, trivial, rfl, fun _ => trivial⟩
  · simp only [hsp, if_false, false_imp_iff, true_and, Front.start_finish_s]
    refine ⟨rfl, rfl, rfl, fun _ hn => ?_⟩
    have hne : lanesIn (g.activeOf b 1) ≠ [] := lanesIn_ne_nil h.active
    have hout : (decide ((storeOp i s b g t m).lands = []) && decide ((storeOp i s b g t m).sq = 0) && !(storeOp i s b g t m).owed) = false := by
      simp [storeOp, hsp, hne]
    exact congrArg (·.tok) (Front.start_finish_of_outstanding (op := storeOp i s b g t m)
      (f := { g.fe with sq := g.fe.sq ++ (lanesIn (g.activeOf b 1)).map (storeEntry s b g t m loc tso) }) hn hout)

/-- Of its lanes a store changes slices alone (R158). -/
theorem storedGroup_lane {α : Type} {f : Lane → α} (hf : ∀ (l : Lane) off bs, f (l.storeSlice off bs) = f l) (j : Nat) :
    f ((storedGroup i s b g t m loc tso).lane j) = f ((g.issued b 1).lane j) := by
  have hl : (storedGroup i s b g t m loc tso).lane j = (storeLanes b g m).lane j := rfl
  rw [hl, storeLanes]
  split
  · exact Group.lane_upd_keeps (fun _ l => hf l _ _) _ _ j
  · rfl

/-- A slice is as it was where its lane stores nothing in it. -/
theorem storedGroup_slice (j : Nat) (hj : m.sp = .slice → (g.activeOf b 1).getLsbD j = false) :
    ((storedGroup i s b g t m loc tso).lane j).slice = (g.lane j).slice := by
  have hl : (storedGroup i s b g t m loc tso).lane j = (storeLanes b g m).lane j := rfl
  rw [hl, storeLanes]
  split
  · rw [Group.lane_upd_other _ _ _ _ (hj ‹_›)]
    exact g.issued_slice b 1 j
  · exact g.issued_slice b 1 j

end

/-! ### As its bytes reach memory -/

/-- A group whose page has not been moved: the remap entry holds its reset map and no spare (R264). -/
def Remap.Home (r : Remap) : Prop := r.map = 0xE4 ∧ r.spares = []

theorem frameOf_home {r : Remap} (h : r.Home) {m : Nat} (hm : m < 4) : frameOf r m = m := by
  obtain ⟨hmap, -⟩ := h
  rw [frameOf, hmap]
  interval_cases m <;> rfl

theorem remapOf_home {c : Care} (h : ∀ r ∈ c.remaps, r.Home) (n : Nat) : (remapOf c n).Home := by
  unfold remapOf
  split
  next r hr => exact h r (List.mem_of_find?_eq_some hr)
  · exact ⟨rfl, rfl⟩

/-- Where no page has been moved, a location's byte lies at the location itself (R261, R264). -/
theorem storeLoc_home {c : Care} (h : ∀ r ∈ c.remaps, r.Home) (loc : Nat) : storeLoc c loc = loc := by
  unfold storeLoc
  split
  next hd =>
    have hlt : loc < dramTop := by simpa [isDram] using hd
    have hr := remapOf_home h (paGroup loc)
    have hg : (remapOf c (paGroup loc)).group = paGroup loc := by
      unfold remapOf
      split
      next r hr => simpa using List.find?_some hr
      · rfl
    have hm : paMember loc < 4 := by unfold paMember dramTop at *; omega
    dsimp only
    rw [frameLoc, realFrame, hr.2, frameOf_home hr hm, hg]
    simp only [List.find?_nil, frameBase, paMember, paGroup]
    omega
  · rfl

theorem mem_putRemapIn {r x : Remap} {l : List Remap} (h : x ∈ putRemapIn r l) : x = r ∨ x ∈ l := by
  induction l with
  | nil => simpa [putRemapIn] using h
  | cons y ys ih =>
    unfold putRemapIn at h
    split at h
    · simpa using h
    · split at h
      · rcases List.mem_cons.1 h with h | h
        · exact .inl h
        · exact .inr (List.mem_cons_of_mem _ h)
      · rcases List.mem_cons.1 h with h | h
        · exact .inr (h ▸ List.mem_cons_self ..)
        · exact (ih h).imp id (List.mem_cons_of_mem _)

theorem mem_putRemap {c : Care} {r x : Remap} (h : x ∈ (putRemap c r).remaps) : x = r ∨ x ∈ c.remaps :=
  mem_putRemapIn (List.mem_of_mem_filter h)

/-- A counted request moves no page: it may start a swap, which holds its pages first (R266, R267, R269). -/
theorem unmoved_countReq {s : State} (h : Unmoved s) (loc : Nat) : Unmoved (s.countReq loc) := by
  obtain ⟨hmap, hphase⟩ := h
  have hput (n : Nat) (k : List Nat) : ∀ r ∈ (putRemap s.care { remapOf s.care n with cnt := k }).remaps, r.Home := by
    intro r hr
    rcases mem_putRemap hr with rfl | hr
    · exact remapOf_home hmap n
    · exact hmap r hr
  have hadd (w : Swap) (hw : w.phase = .hold) : ∀ x ∈ s.care.swaps ++ [w], x.phase = .hold ∨ x.phase = .read := by
    intro x hx
    rcases List.mem_append.1 hx with hx | hx
    · exact hphase x hx
    · exact .inl (List.mem_singleton.1 hx ▸ hw)
  unfold State.countReq
  split
  · dsimp only
    split
    · exact ⟨hput _ _, hadd _ rfl⟩
    · exact ⟨hput _ _, hphase⟩
  · exact ⟨hmap, hphase⟩

theorem swapBuffer_unmoved {s : State} (h : Unmoved s) (loc : Nat) : swapBuffer s.care loc = none := by
  unfold swapBuffer holder
  split
  next w hw =>
    split at hw
    · rcases h.2 w (List.mem_of_find?_eq_some hw) with hp | hp <;> rw [hp]
    · cases hw
  · rfl

theorem byte_unmoved {s : State} (h : Unmoved s) (loc : Nat) : s.byte loc = s.mem.get loc := by
  rw [State.byte, swapBuffer_unmoved h]
  exact congrArg _ (storeLoc_home h.1 loc)

theorem Memory.write_append (m : Memory) (a : Nat) (xs ys : List Byte) : m.write a (xs ++ ys) = (m.write a xs).write (a + xs.length) ys := by
  induction xs generalizing m a with
  | nil => rfl
  | cons x xs ih =>
    rw [List.cons_append, Memory.write, Memory.write, ih, List.length_cons]
    congr 1
    omega

/-- The pieces of a write put its bytes, one after another, where the whole was sent (R250, R265). -/
theorem foldl_cut {u : Nat} (hu : 0 < u) (fuel loc : Nat) (bs : List Byte) (hf : bs.length < fuel) (m : Memory) :
    (cut u fuel loc bs).foldl (fun m p => m.write p.1 p.2) m = m.write loc bs := by
  induction fuel generalizing loc bs m with
  | zero => omega
  | succ fuel ih =>
    cases bs with
    | nil => rfl
    | cons b bs =>
      have hr : 0 < u - loc % u := Nat.sub_pos_of_lt (Nat.mod_lt _ hu)
      have hd : ((b :: bs).drop (u - loc % u)).length < fuel := by
        rw [List.length_drop]
        simp only [List.length_cons] at hf ⊢
        omega
      have hw : m.write loc (b :: bs) = (m.write loc ((b :: bs).take (u - loc % u))).write (loc + (u - loc % u)) ((b :: bs).drop (u - loc % u)) := by
        by_cases hl : u - loc % u ≤ (b :: bs).length
        · conv_lhs => rw [← List.take_append_drop (u - loc % u) (b :: bs), Memory.write_append, List.length_take_of_le hl]
        · rw [List.take_of_length_le (Nat.le_of_not_le hl), List.drop_of_length_le (Nat.le_of_not_le hl)]
          rfl
      rw [cut, List.foldl_cons, ih _ _ hd, hw]
      exact List.cons_ne_nil b bs

/-- A store into memory that is not poisoned puts its bytes where they are sent (R265). -/
theorem store_unmoved {s : State} (h : Unmoved s) (hp : s.poison = []) (loc : Nat) (bs : List Byte) :
    s.store loc bs = { s with mem := s.mem.write loc bs } := by
  have hone (m : Memory) (a : Nat) (xs : List Byte) : State.write1 { s with mem := m } a xs = { s with mem := m.write a xs } := by
    simp only [State.write1, hp, List.filter_nil, List.contains_nil, Bool.false_eq_true, if_false, storeLoc_home h.1, ite_self]
  have hall (ps : List (Nat × List Byte)) (m : Memory) : ps.foldl (fun s p => State.write1 s p.1 p.2) { s with mem := m } =
      { s with mem := ps.foldl (fun m p => m.write p.1 p.2) m } := by
    induction ps generalizing m with
    | nil => rfl
    | cons p ps ih => rw [List.foldl_cons, hone, ih, List.foldl_cons]
  have hu : 0 < unitSize loc := by unfold unitSize; split <;> omega
  rw [State.store, ← foldl_cut hu (bs.length + 1) loc bs (by omega)]
  exact hall _ s.mem

end Sys2Proof.Machine

open Sys2Proof.Machine

namespace Sys2Proof.Claims

theorem storeWordFrame_holds : StoreWordFrame := by
  intro i m hm s b g t loc tso ready hd passes
  have hgrp := group?_stored (m := m) (loc := loc) (tso := tso) ready
  obtain ⟨hfpc, hmask, hs, hdbg, hsq, htok⟩ := storedGroup_keeps (m := m) (loc := loc) (tso := tso) ready
  obtain ⟨cr, xs, ob, ts, n, he⟩ := stored_eq (m := m) (loc := loc) (tso := tso) ready
  have hrun : exec (Code.l i).instr s = .next (stored i s b g t m loc tso) := by
    rw [exec_of_storeForm hm, storeWord_ready ready (storeForm_notUniform hm) passes]
    exact congrArg _ (afterUnit_of_noStep _ _ hgrp (by rw [hdbg, hd]))
  refine ⟨_, _, hrun, by rw [he]; rfl, by rw [he]; rfl, by rw [he]; rfl, by rw [he]; rfl, by rw [he]; rfl,
    fun c n hcn => stored_otherGroup ready hcn, by rw [he]; rfl, hgrp, hfpc, hmask, hs, htok, fun j => ⟨?_, ?_, ?_⟩, ?_, fun hsp => ⟨hsq hsp, ?_⟩⟩
  · exact storedGroup_lane (f := (·.v)) (fun _ _ _ => rfl) j
  · exact storedGroup_lane (f := (·.p)) (fun _ _ _ => rfl) j
  · exact storedGroup_lane (f := (·.pend)) (fun _ _ _ => rfl) j
  · exact fun hsp j => storedGroup_slice j (fun e => absurd e hsp)
  · exact fun j hj => storedGroup_slice j (fun _ => hj)

theorem storedBytes_hold : StoredBytes := by
  intro s loc bs home hp hwf _
  have hh := unmoved_countReq home loc
  obtain ⟨cr, hc⟩ := s.countReq_eq loc
  rw [hc] at hh
  have hput : s.put loc bs = { s with care := cr, mem := s.mem.write loc bs } := by
    rw [State.put, hc]
    exact store_unmoved hh hp loc bs
  rw [hput]
  refine ⟨fun a _ => ?_, hp, rfl, rfl, rfl⟩
  rw [byte_unmoved (s := { s with care := cr, mem := s.mem.write loc bs }) hh, byte_unmoved home]
  exact Memory.get_write hwf loc bs a

end Sys2Proof.Claims

/-- Settles O41: a store as it issues changes its group alone, and bytes that reach memory lie where they were sent. -/
theorem storeFrames : Obligations.StoreFrames :=
  ⟨Sys2Proof.Claims.storeWordFrame_holds, Sys2Proof.Claims.storedBytes_hold⟩

end

section
/-! The loads of lanes and PRS, as they issue, park and wake (R150, R155-R163). -/

namespace Sys2Proof.Machine

open Sys2Proof.Claims

/-! ### Loads that issue (R155-R162) -/

theorem LReady.part {i : LInstr} {s : State} {b : Bundle} {g : Group} {t : Team} (h : LReady i s b g t) : LPart i s b g t where
  toIssues := h.toIssues
  active := h.active
  legal := h.legal
  room := fun _ => h.room
  sound := h.whole.hits
  waited := h.waited
  uniform := h.uniform

theorem loadWords_hold : Claims.LoadWords := by
  intro i m hm s b g t loc tso ready passes
  rw [exec_of_loadForm hm, loadWord_part ready.part (loadForm_slice_notUniform hm) passes, endUnit_of_whole ready.whole rfl]
  rfl

/-- A word whose results raise no flag, and of which no lane fails a check, is launched. -/
theorem raiseUnit_launchOp_plain {x : Ix} {s : State} {g : Group} (k : Tok) (ls : List Nat) (w : Nat → List (Dest × DWord))
    (hg : s.group? x.core x.slot = some g) (hb : ∀ j ∈ ls, j < 64) :
    raiseUnit x false [] (launchOp id x k (ls.map (fun j => (j, { writes := w j }))) s).1 = launch x k (ls.map (fun j => (j, { writes := w j }))) s := by
  unfold launch
  rw [launchOp_plain k ls w hg hb]

/-! ### PRS (R163) -/

theorem presenceWord_holds : PresenceWord := by
  intro d a k sc s b g t loc m ready hdet hin
  have hg := State.issued_group ready.toIssues 1
  have hbad (j : Nat) (hj : j ∈ lanesIn (g.activeOf b 1)) : (if offOf b g m j % 4 ≠ 0 then some 2
      else if (scratchAt t b.core (offOf b g m j) 4).isNone then some 1 else none) = (none : Option Nat) := by
    obtain ⟨hal, hat⟩ := hin j hj
    simp [hal, hat]
  have hrun : exec (Code.l (.prs d a k sc)).instr s = prsWord (.prs d a k sc) d a k sc s := rfl
  have ht : (Issues.ix (.prs d a k sc) b g t 1).t = t := rfl
  rw [hrun, prsWord, lset_ready ready]
  simp only [ht, hdet, Bool.false_eq_true, if_false, Issues.ix_core, Issues.ix_slot, hg]
  rw [List.filterMap_eq_nil_iff.2 ?hit, List.filter_eq_self.2 ?all]
  case hit => exact fun j hj => congrArg (Option.map _) (hbad j hj)
  case all => exact fun j hj => congrArg Option.isNone (hbad j hj)
  refine congrArg _ (congrArg _ (Eq.trans (congrArg (fun rs => raiseUnit _ false [] (launchOp id _ k rs (s.issued b g 1)).1) ?_)
    (raiseUnit_launchOp_plain (x := Issues.ix (.prs d a k sc) b g t 1) k (lanesIn (g.activeOf b 1)) _ hg (fun _ => lanesIn_bound))))
  refine List.map_congr_left fun j hj => ?_
  have hat : scratchAt t b.core (((g.issued b 1).lane j).offset a sc b.pfx 4).toNat 4 = some (loc j) := (hin j hj).2
  simp only [show (Issues.ix (.prs d a k sc) b g t 1).pfx = b.pfx from rfl, hat, Option.getD_some, State.lineAbsent, List.contains_iff_mem]
  rfl

/-! ### Parked loads that wake (R150, R161) -/

/-- Of the lanes of a bundle that wait for loads alone, those that can perform are the ones whose lines are present. -/
theorem wakeable_loads {s : State} {g : Group} {t : Team} {set act : LaneSet}
    (hact : ∀ j < 64, act.getLsbD j = true ↔ set.getLsbD j = true ∧ j < g.lanes.length ∧ (g.lane j).live = true ∧ (g.lane j).park = .presence ∧
      ∃ x sg, (g.lane j).want = some x ∧ x.kind = .load sg ∧ s.lineAbsent x.addr = false)
    (hload : ∀ j, set.getLsbD j = true → ∀ x, (g.lane j).want = some x → ∃ sg, x.kind = .load sg) : wakeable s g t set = act := by
  apply LaneSet.ext
  intro j hj
  rw [Bool.eq_iff_iff, hact j hj, wakeable, Group.getLsbD_where]
  cases hset : set.getLsbD j with
  | false => simp
  | true =>
    cases hw : (g.lane j).want with
    | none => simp
    | some x =>
      obtain ⟨sg, hk⟩ := hload j hset x hw
      simp [hk, hj]

/-- Parked loads whose lines are present, and whose bytes are not poisoned, perform as one operation (R161). -/
theorem wakeLoads_launch {x : Ix} {k : Tok} {s : State} {g : Group} (hs : s.group? x.core x.slot = some g)
    (hbad : ∀ j ∈ lanesIn x.act, loadBad s x.core g.fe.sq (g.wantOf j).addr (g.wantOf j).n = false) :
    wakeLoads x k s = launch x k ((lanesIn x.act).map (fun j => (j,
        { writes := loadWrites (g.wantOf j).reg (match (g.wantOf j).kind with | .load sg => sg | _ => false)
            (s.loadBytes x.core g.fe.sq (g.wantOf j).addr (g.wantOf j).n) }))) (s.setGroup (g.goesOn x.act)) := by
  unfold wakeLoads
  rw [hs]
  dsimp only
  have hall : (lanesIn x.act).filter (fun j => !loadBad s x.core g.fe.sq (g.wantOf j).addr (g.wantOf j).n) = lanesIn x.act :=
    List.filter_eq_self.2 fun j hj => by rw [hbad j hj]; rfl
  have hnone : (lanesIn x.act).filter (fun j => loadBad s x.core g.fe.sq (g.wantOf j).addr (g.wantOf j).n) = [] :=
    List.filter_eq_nil_iff.2 fun j hj => by rw [hbad j hj]; exact Bool.false_ne_true
  rw [hall, hnone, List.map_nil]
  exact raiseUnit_launchOp_plain k (lanesIn x.act) _ (State.group?_setGroup_of hs (g.goesOn x.act)) (fun _ => lanesIn_bound)

theorem parkedLoadsWake_holds : ParkedLoadsWake := by
  intro s b g t act i w hg ht hsave hslot hduty hw hd hact hload hhead hwant hroom hbad x sign
  have hset : wakeable s g t b.lanes = act := wakeable_loads hact hload
  obtain ⟨is, his⟩ : ∃ is, lanesIn act = i :: is := by
    cases hl : lanesIn act with
    | nil => rw [hl] at hhead; cases hhead
    | cons j js => rw [hl] at hhead; exact ⟨js, by rw [Option.some.inj hhead]⟩
  have hi : act.getLsbD i = true := ((lanesIn_mem act i).1 (his ▸ List.mem_cons_self ..)).2
  obtain ⟨-, -, -, -, y, sg, hy, hk, -⟩ := (hact i (BitVec.lt_of_getLsbD hi)).1 hi
  obtain rfl : w = y := Option.some.inj (hwant.symm.trans hy)
  have hwo : g.wantOf i = w := by rw [Group.wantOf, hwant]; rfl
  have hrun : runWake b none s = endWake x (wakeLoads x w.tok s) := by
    unfold runWake
    rw [ht]
    simp only [hduty]
    unfold wakeLanes
    rw [hg]
    simp only [hsave, Bool.false_eq_true, if_false, hset, wakePart]
    rw [his]
    simp only [hwo, hk, hroom]
    have hx : ({ laterIx b.core b.slot t w.unit (g.lane i).next w.word w.pfx act (g.lane i).handler with
        b := { b with lanes := act, pos := (g.lane i).next - 4, pfx := w.pfx, more := decide (act ≠ act), op := b.op } } : Ix) = x := by
      simp only [laterIx, hslot, ne_eq, not_true_eq_false, decide_false, decide_true, Bool.not_true, x, hw.more]
    simp only [Bool.not_true, Bool.and_false, Bool.false_eq_true, if_true, if_false, ne_eq, not_true_eq_false]
    rw [← hx]
    simp only [ne_eq, not_true_eq_false]
    rfl
  have hxw : x.b.Whole := ⟨hw.op, hw.more, hw.hits, hw.earlier, hw.pages⟩
  rw [hrun, wakeLoads_launch (x := x) hg hbad]
  have hg1 := State.group?_setGroup_of hg (g.goesOn act)
  unfold endWake
  rw [if_neg (by rw [hxw.more]; exact Bool.false_ne_true)]
  refine (singleStep_of_noStep _ fun k hk => ?_).trans rfl
  rw [launch_whole (x := x) hslot hg1 (fun _ => lanesIn_bound) hxw] at hk
  have hk' := hk.symm.trans (State.group?_setGroup_of hg1 _)
  rw [Option.some.inj hk']
  exact hd

/-! ### Loads that park (R161) -/

/-- A scratchpad load that passes the other checks parks where its line is absent. -/
theorem verdict_scratch_load {s : State} {t : Team} {core : Nat} {sq : List Entry} {w off loc : Nat} (hal : off % w = 0)
    (hat : scratchAt t core off w = some loc) (hlock : lockScratch s t.id loc w true ≠ .trap) (hbad : readBad s core sq loc w .load = false) :
    verdict s t core sq .scratch .load off w = if s.lineAbsent loc then .park loc else .go loc false := by
  have hv : scratchVerdict s t core sq .load loc w = if s.lineAbsent loc then .park loc else .go loc false := by
    unfold scratchVerdict
    cases hl : lockScratch s t.id loc w true with
    | trap => exact absurd hl hlock
    | park => simp [hl, hbad]
    | clear => simp [hl, hbad]
  simp [verdict, hal, hat, hv]

theorem looked_scratch {i : LInstr} {s : State} {b : Bundle} {g : Group} {t : Team} {m : MemForm} (h : m.sp = .scratch) :
    looked i s b g t m = s.issued b g 1 := by
  unfold looked touchFor
  rw [h]
  exact foldl_idle (fun _ _ _ => rfl) _

/-- No scratchpad load acquires (R162). -/
theorem loadForm_scratch_plain {i : LInstr} {m : MemForm} (h : loadForm i = some m) (hs : m.sp = .scratch) : m.ord = false := by
  unfold loadForm at h
  split at h <;> cases h <;> cases hs <;> rfl

theorem filterMap_eq_map_filter {α β : Type} {f : α → Option β} {p : α → Bool} {g : α → β} {l : List α}
    (h : ∀ a ∈ l, f a = if p a then some (g a) else none) : l.filterMap f = (l.filter p).map g := by
  rw [List.filterMap_congr h, ← List.filterMap_eq_map, List.filterMap_filter]
  rfl

theorem Group.issued_live {g : Group} (b : Bundle) (n j : Nat) : ((g.issued b n).lane j).live = (g.lane j).live :=
  Group.lane_upd_keeps (f := Lane.live) (fun _ l => Lane.pass_keeps (fun _ _ => rfl) (fun _ _ => rfl) (fun _ _ => rfl) (fun _ _ => rfl)
    (fun _ _ => rfl) (fun _ _ _ => rfl) l n _) g _ j

/-- A load's launch leaves the group's lanes, masks and requests. -/
theorem launchOp_loaded {x : Ix} {s : State} {g : Group} {ls : List Nat} (k : Tok) (w : Nat → List (Dest × DWord)) (hs : x.slot < 128) (hw : x.b.Whole)
    (hg : s.group? x.core x.slot = some g) (hb : ∀ j ∈ ls, j < 64) :
    ∃ u h, (launchOp id x k (ls.map (fun j => (j, { writes := w j }))) s).1 = u ∧ u.group? x.core x.slot = some h ∧ u.mem = s.mem ∧
      h.lanes = g.lanes ∧ h.m = g.m ∧ h.q = g.q ∧ h.dbgc = g.dbgc :=
  ⟨_, _, (raiseUnit_nil hw _ _).symm.trans ((raiseUnit_launchOp_plain k ls w hg hb).trans (launch_whole hs hg hb hw)),
    State.group?_setGroup_of hg _, rfl, rfl, rfl, rfl, rfl⟩

/-- Steps that change one group, and leave memory alone, change it as their own steps do. -/
theorem foldl_group {core slot : Nat} {f : State → Nat → State} {F : Group → Nat → Group} {ls : List Nat}
    (h : ∀ j ∈ ls, ∀ s g, s.group? core slot = some g → (f s j).group? core slot = some (F g j) ∧ (f s j).mem = s.mem) {s : State} {g : Group}
    (hg : s.group? core slot = some g) : (ls.foldl f s).group? core slot = some (ls.foldl F g) ∧ (ls.foldl f s).mem = s.mem := by
  induction ls generalizing s g with
  | nil => exact ⟨hg, rfl⟩
  | cons j ls ih =>
    obtain ⟨h1, h2⟩ := h j (List.mem_cons_self ..) s g hg
    obtain ⟨h3, h4⟩ := ih (fun i hi => h i (List.mem_cons_of_mem _ hi)) h1
    exact ⟨h3, h4.trans h2⟩

/-- A lane that waits at its unit for what an access needs. -/
def Lane.awaits (x : Ix) (w : Want) (l : Lane) : Lane := { l with park := .presence, want := some w, pc := x.b.unit, next := x.nextPc }

/-- What a lane of a load waits for. -/
def loadWant (x : Ix) (m : MemForm) (loc : Nat) (off : DWord) (uni : Bool) : Want :=
  { kind := .load m.sign, addr := loc, n := m.w, reg := m.d.toNat, tok := m.k, unit := x.b.unit, word := x.word, pfx := x.pfx, uni := uni, off := off }

theorem parkOn_group {x : Ix} {s : State} {g : Group} (m : MemForm) (j loc : Nat) (off : DWord) (uni : Bool)
    (hg : s.group? x.core x.slot = some g) : (parkOn x m.w m.sign m.d m.k j loc off uni s).group? x.core x.slot =
      some (g.upd (laneBit j) (fun _ l => l.awaits x (loadWant x m loc off uni))) ∧
      (parkOn x m.w m.sign m.d m.k j loc off uni s).mem = s.mem := by
  unfold parkOn
  rw [hg]
  exact ⟨State.group?_setGroup_of hg _, rfl⟩

/-- A lane of the group after each of some lanes has been updated. -/
theorem lane_foldl_upd {F : Nat → Lane → Lane} {ls : List Nat} (hn : ls.Nodup) (hb : ∀ i ∈ ls, i < 64) (p : Nat → Bool) (g : Group) {j : Nat}
    (hj : j ∈ ls) (hl : j < g.lanes.length) :
    (ls.foldl (fun g j => if p j then g.upd (laneBit j) (fun _ l => F j l) else g) g).lane j = if p j then F j (g.lane j) else g.lane j := by
  rw [← List.foldl_filter, foldl_upd F _ (hn.filter _) (fun i hi => hb i (List.mem_of_mem_filter hi))]
  unfold Group.lane
  simp only [List.getD_eq_getElem?_getD, mapLanes_get, Nat.zero_add, List.getElem?_eq_getElem hl, Option.map_some, Option.getD_some,
    List.mem_filter, hj, true_and]

section
variable {i : LInstr} {m : MemForm} {s : State} {b : Bundle} {g : Group} {t : Team} {loc : Nat → Nat}
  (hsp : m.sp = .scratch) (ho : m.ord = false) (ready : LReady i s b g t)
  (hp : ∀ j ∈ lanesIn (g.activeOf b 1), let o := offOf b g m (sourceLane i.use.u (g.activeOf b 1) j)
      o % m.w = 0 ∧ scratchAt t b.core o m.w = some (loc j) ∧ lockScratch s t.id (loc j) m.w true ≠ .trap ∧
      readBad s b.core g.fe.sq (loc j) m.w .load = false)
include hsp ho ready hp

/-- A scratchpad load performs for the lanes whose lines are present, and parks the others, in lane order. -/
theorem loadWord_parks : ∃ (f : State → Nat → State) (w : Nat → List (Dest × DWord)),
    loadWord i m.sp m.w m.sign m.d m.a m.k m.sc m.ord s = .next (unitEnd b (Issues.ix i b g t 1)
      ((lanesIn (g.activeOf b 1)).foldl f (launchOp id (Issues.ix i b g t 1) m.k
        (((lanesIn (g.activeOf b 1)).filter (fun j => !s.lineAbsent (loc j))).map (fun j => (j, { writes := w j }))) (s.issued b g 1)).1)) ∧
    ∀ j ∈ lanesIn (g.activeOf b 1), ∀ u, f u j = if s.lineAbsent (loc j) then parkOn (Issues.ix i b g t 1) m.w m.sign m.d m.k j (loc j)
      (BitVec.ofNat 64 (offOf b g m (sourceLane i.use.u (g.activeOf b 1) j))) i.use.u u else u := by
  have hw : (Issues.ix i b g t 1).b.Whole := ready.whole
  have hg := State.issued_group ready.toIssues 1
  have hv (j : Nat) (hj : j ∈ lanesIn (g.activeOf b 1)) :
      verdict (looked i s b g t m) t b.core g.fe.sq m.sp .load (offOf b g m (sourceLane i.use.u (g.activeOf b 1) j)) m.w =
        if s.lineAbsent (loc j) then .park (loc j) else .go (loc j) false := by
    obtain ⟨hal, hat, hlock, hbad⟩ := hp j hj
    rw [looked_scratch hsp, hsp]
    exact verdict_scratch_load (s := s.issued b g 1) hal hat hlock hbad
  have hfe : (g.issued b 1).fe = g.fe := rfl
  have hnot : decide (m.sp = .slice) = false := by rw [hsp]; rfl
  have hlk : looked i s b g t m = s.issued b g 1 := looked_scratch hsp
  simp only [looked, offOf, sourceLane] at hv hlk
  rw [loadWord, lset_ready ready]
  simp only [Issues.ix]
  rw [hg]
  simp only [hfe, hnot, Bool.false_and, Bool.false_eq_true, if_false, ho]
  refine ⟨_, fun j => loadWrites m.d.toNat m.sign (loaded (s.issued b g 1) (Issues.ix i b g t 1) m.sp ((g.issued b 1).lane (sourceLane i.use.u (g.activeOf b 1) j)) (loc j) m.w),
    congrArg _ (congrArg _ ((congrArg₂ (raiseUnit _ false) (List.filterMap_eq_nil_iff.2 ?noHit)
    (congrArg₂ (killBadLanes _) (List.filter_eq_nil_iff.2 ?noKill) (congrArg (List.foldl _ · _) (congrArg Prod.fst (congrArg₂ (launchOp id _ m.k) (filterMap_eq_map_filter ?results) hlk))))).trans
      (raiseUnit_nil hw _ _))), ?park⟩
  case noHit =>
    intro j hj
    rw [hv j hj]
    cases s.lineAbsent (loc j) <;> rfl
  case noKill =>
    intro j hj
    rw [hv j hj]
    cases s.lineAbsent (loc j) <;> exact Bool.false_ne_true
  case results =>
    intro j hj
    rw [hv j hj, hlk]
    cases s.lineAbsent (loc j) <;> rfl
  case park =>
    intro j hj u
    rw [hv j hj]
    cases s.lineAbsent (loc j) <;> rfl

end

/-- R161, for the lanes that the group has: as in LoadsPark. -/
theorem loads_park {i : LInstr} {m : MemForm} (hm : loadForm i = some m) (hsp : m.sp = .scratch) {s : State} {b : Bundle} {g : Group} {t : Team}
    {loc : Nat → Nat} (ready : LReady i s b g t) (hd : g.dbgc.getLsbD 0 = false)
    (hp : ∀ j ∈ lanesIn (g.activeOf b 1), let o := offOf b g m (sourceLane i.use.u (g.activeOf b 1) j)
      o % m.w = 0 ∧ scratchAt t b.core o m.w = some (loc j) ∧ lockScratch s t.id (loc j) m.w true ≠ .trap ∧
      readBad s b.core g.fe.sq (loc j) m.w .load = false) :
    ∃ u h, exec (Code.l i).instr s = .next u ∧ u.group? b.core b.slot = some h ∧ u.mem = s.mem ∧ h.m = g.m ∧ h.q = g.q ∧
      ∀ j ∈ lanesIn (g.activeOf b 1), j < g.lanes.length → s.lineAbsent (loc j) = true →
        (h.lane j).park = .presence ∧ (h.lane j).pc = b.unit ∧ (h.lane j).next = b.pos + 4 ∧ (h.lane j).live = (g.lane j).live ∧
        ∃ w, (h.lane j).want = some w ∧ w.kind = .load m.sign ∧ w.addr = loc j ∧ w.n = m.w ∧ w.reg = m.d.toNat ∧ w.tok = m.k ∧ w.unit = b.unit := by
  have hg := State.issued_group ready.toIssues 1
  have hb (j : Nat) (hj : j ∈ (lanesIn (g.activeOf b 1)).filter (fun j => !s.lineAbsent (loc j))) : j < 64 :=
    lanesIn_bound (List.mem_of_mem_filter hj)
  obtain ⟨f, w, hrun, hf⟩ := loadWord_parks hsp (loadForm_scratch_plain hm hsp) ready hp
  let x := Issues.ix i b g t 1
  let want (j : Nat) := loadWant x m (loc j) (BitVec.ofNat 64 (offOf b g m (sourceLane i.use.u (g.activeOf b 1) j))) i.use.u
  obtain ⟨l, k, hl, hlk, hlm, lanes, masks, reqs, dbgc⟩ := launchOp_loaded (x := x) m.k w ready.slot ready.whole hg hb
  rw [hl] at hrun
  obtain ⟨hk, hmem⟩ := foldl_group (f := f) (ls := lanesIn (g.activeOf b 1))
    (F := fun k j => if s.lineAbsent (loc j) then k.upd (laneBit j) (fun _ l => l.awaits x (want j)) else k)
    (fun j hj u k hk => by
      rw [hf j hj]
      cases s.lineAbsent (loc j) with
      | true => exact parkOn_group (x := x) m j (loc j) _ i.use.u hk
      | false => exact ⟨hk, rfl⟩) hlk
  have hkeep {γ : Type} (f : Group → γ) (hf : ∀ (k : Group) ls, f { k with lanes := ls } = f k) :=
    foldl_keeps f (fun (k : Group) j => if s.lineAbsent (loc j) then k.upd (laneBit j) (fun _ l => l.awaits x (want j)) else k)
      (fun k j => by split <;> [exact hf _ _; rfl]) (lanesIn (g.activeOf b 1)) k
  have hlane (j : Nat) : k.lane j = (g.issued b 1).lane j := by simp only [Group.lane, lanes]
  refine ⟨_, _, (exec_of_loadForm hm s).trans (hrun.trans (congrArg _ (afterUnit_of_noStep _ _ hk ?step))), hk, hmem.trans hlm,
    (hkeep (·.m) (fun _ _ => rfl)).trans masks, (hkeep (·.q) (fun _ _ => rfl)).trans reqs, fun j hj hlen habs => ?_⟩
  case step => rw [hkeep (·.dbgc) (fun _ _ => rfl), dbgc]; exact hd
  have hlen' : j < k.lanes.length := by
    rw [lanes]
    exact (mapLanes_length _ _ _).symm ▸ hlen
  rw [lane_foldl_upd (F := fun j l => l.awaits x (want j)) (lanesIn_nodup _) (fun _ => lanesIn_bound) (fun j => s.lineAbsent (loc j)) _ hj hlen', habs,
    if_pos rfl, hlane]
  exact ⟨rfl, rfl, rfl, Group.issued_live b 1 j, _, rfl, rfl, rfl, rfl, rfl, rfl, rfl⟩

/-! ### A bundle that names a lane which the group does not have -/

/-- A group of one lane, and a bundle that names its second lane. -/
def shortGroup : Group := { core := 0, slot := 0, team := 1, index := 0, width := 1, lanes := [{ pc := 0x10000 }] }

def shortTeam : Team := { id := 1, slot := 0, ctx := 0, core := 0, lines := 1, vregs := 16 }

def strayBundle : Bundle := { core := 0, slot := 0, lanes := 2, unit := 0x10000, pos := 0x10000 }

/-- A machine that issues the bundle; the team's first line is absent. -/
def strayState : State := { State.reset with teams := [shortTeam], groups := [shortGroup], issue := [strayBundle], absent := [scratchBase] }

def strayLoad : LInstr := .ldsB32 false 3 4 0 0

theorem stray_ready : LReady strayLoad strayState strayBundle shortGroup shortTeam where
  head := rfl
  slot := by decide
  group := rfl
  team := rfl
  whole := ⟨rfl, rfl, rfl, rfl, rfl⟩
  active := by decide
  legal := rfl
  room := fun k hk => by cases hk; rfl
  waited := rfl
  uniform := rfl

/-- What the group's second lane, which it does not have, is after the load. -/
def strayPark : Option Park :=
  match execLdsB32 false 3 4 0 0 strayState with
  | .next u => (u.group? 0 0).map (fun h => (h.lane 1).park)
  | _ => none

theorem strayPark_eq : strayPark = some .none := by decide +kernel

theorem not_loadsPark : ¬ LoadsPark := by
  intro h
  obtain ⟨u, k, hexec, hk, -, -, -, hpark⟩ := h strayLoad _ rfl rfl strayState strayBundle shortGroup shortTeam (fun _ => scratchBase) stray_ready rfl (by decide)
  have hp := (hpark 1 (by decide) (by decide)).1
  have hs : strayPark = some (k.lane 1).park := by
    have e : execLdsB32 false 3 4 0 0 strayState = .next u := hexec
    rw [strayPark, e]
    exact congrArg (Option.map _) hk
  rw [strayPark_eq, hp] at hs
  cases hs

end Sys2Proof.Machine

/-- Refutes O20: LoadsPark speaks of every lane that is active in the bundle, and a bundle may name a lane that the group
does not have, which parks nowhere (the second lane of `shortGroup`). For the lanes of the group it holds (`loads_park`), as
do the other three parts (`loadWords_hold`, `parkedLoadsWake_holds`, `presenceWord_holds`). -/
theorem not_loadWords : ¬ Obligations.LoadWords := fun h => Sys2Proof.Machine.not_loadsPark h.2.1
end

section
/-! The scalar loads and stores (R139, R168). -/

namespace Sys2Proof.Machine

open Sys2Proof.Claims

/-! ### What a translation leaves to a U-set word -/

section
variable (s : State) (t : Team) (sp : Space) (off w : Nat)

@[simp] theorem touchFor_front? (core slot : Nat) : (touchFor s t sp off w).front? core slot = s.front? core slot := by
  obtain ⟨cr, xs, ob, h⟩ := touchFor_eq s t sp off w
  rw [h]
  rfl

@[simp] theorem touchFor_ids : (touchFor s t sp off w).ids = s.ids := by
  obtain ⟨cr, xs, ob, h⟩ := touchFor_eq s t sp off w
  rw [h]

@[simp] theorem touchFor_sqOf (core slot : Nat) : sqOf (touchFor s t sp off w) core slot = sqOf s core slot := by
  simp only [sqOf, touchFor_front?]

@[simp] theorem touchFor_sval (x : Ix) (r : SReg) : sval (touchFor s t sp off w) x r = sval s x r := by
  simp only [sval, touchFor_front?]

end

/-- A U-set word that is ready has started no operation yet. -/
theorem UReady.ids_eq {i : UInstr} {s s1 : State} {x : Ix} (h : UReady i s x s1) : s1.ids = s.ids := by
  cases h with
  | group => rfl
  | lantern => rfl

/-- A store's checks read no store queue (R156): they meet no poison. -/
theorem passes_store_of {s : State} {t : Team} {core : Nat} {sq : List Entry} {w off loc : Nat} {tso : Bool} {sp : Space}
    (h : Passes s t core sq .store w off loc tso sp) (sq2 : List Entry) : Passes s t core sq2 .store w off loc tso sp := by
  cases sp with
  | slice => exact h
  | scratch => exact h
  | cupola => exact h

/-! ### The words -/

variable {i : UInstr} {sp : Space} {w : Nat} {a c : SReg} {k : Tok} {imm : BitVec 5}

theorem exec_of_scalarLoad (h : scalarForm i = some (sp, w, true, a, c, k, imm)) (s : State) :
    exec (Code.u i).instr s = scalarLoad i sp w a c k imm s := by
  unfold scalarForm at h
  split at h <;> cases h <;> rfl

theorem exec_of_scalarStore (h : scalarForm i = some (sp, w, false, a, c, k, imm)) (s : State) :
    exec (Code.u i).instr s = scalarStore i sp w a c k imm s := by
  unfold scalarForm at h
  split at h <;> cases h <;> rfl

theorem scalarLoads_hold : ScalarLoads := by
  intro i sp w a c k imm hf s s1 x off loc tso ready hoff hpass
  have hv := verdict_of_passes hpass
  subst hoff
  rw [exec_of_scalarLoad hf, scalarLoad, uset_ready ready]
  simp only [scalarOff, touchFor_sqOf, hv, launchScalar, touchFor_ids, ready.ids_eq]

theorem scalarStores_hold : ScalarStores := by
  intro i sp w a c k imm hf s s1 x off loc tso f ready hoff hpass hfront
  have hv := verdict_of_passes (passes_store_of hpass [])
  subst hoff
  rw [exec_of_scalarStore hf, scalarStore, uset_ready ready]
  simp only [scalarOff, touchFor_front?, hv, hfront, touchFor_ids, touchFor_sval, ready.ids_eq, Bool.and_eq_true, Bool.not_eq_true', decide_eq_true_eq]

end Sys2Proof.Machine

/-- Settles O21: a scalar load's value is on its way to its register, and a scalar store's entry is the last of its queue. -/
theorem scalarAccesses : Obligations.ScalarAccesses :=
  ⟨Sys2Proof.Machine.scalarLoads_hold, Sys2Proof.Machine.scalarStores_hold⟩

end

section
/-! GATH and SCAT (R152, R225-R227). -/

namespace Sys2Proof.Machine

open Sys2Proof.Claims

/-! ### The checks of an element (R226) -/

theorem xlateFor_of_global {s : State} {c va : Nat} {n : Need} {p : Page} (h : xlateGlobal s c va n = .ok p) : ∃ q, xlateFor s c va n = .ok q := by
  unfold xlateGlobal at h
  cases hx : xlateFor s c va n with
  | ok q => exact ⟨q, rfl⟩
  | fault k => rw [hx] at h; cases h

theorem gatherVerdict_of_pass {s : State} {t : Team} {core : Nat} {sq : List Entry} {load : Bool} {w : Nat} {va : DWord} {loc : Nat} {tso : Bool}
    (h : GlobalPass s t core sq load w va loc tso) : gatherVerdict s t core sq load va w = .go loc tso := by
  obtain ⟨p, hp, rfl, rfl⟩ := h.page
  obtain ⟨q, hq⟩ := xlateFor_of_global hp
  have hbad : (load && loadBad s core sq p.loc w) = false := by
    cases load with
    | false => rfl
    | true => exact h.sound rfl
  unfold gatherVerdict
  simp only [if_neg (Nat.not_le.2 h.low), h.aligned, hq, hp, h.answered, h.unlocked, hbad, ne_eq, not_true_eq_false, if_false, Bool.false_eq_true]

/-- A store's checks read no store queue (R226). -/
theorem globalPass_sq {s : State} {t : Team} {core : Nat} {sq : List Entry} {w : Nat} {va : DWord} {loc : Nat} {tso : Bool}
    (h : GlobalPass s t core sq false w va loc tso) (sq2 : List Entry) : GlobalPass s t core sq2 false w va loc tso :=
  ⟨h.low, h.aligned, h.answered, h.page, h.unlocked, fun h => Bool.noConfusion h⟩

/-- The pages of elements that all pass are looked up once each (R330). -/
theorem lookUp_of_pass {x : Ix} {w : Nat} {vas : List DWord} {s : State} (hw : x.b.Whole) (h : ∀ va ∈ vas, va.toNat < 2 ^ 48 ∧ va.toNat % w = 0) :
    lookUp x w vas s = (vas.foldl (fun r va => insertNat (va.toNat / 0x10000) r) []).foldl (fun s p => s.touch x.t.ctx (p * 0x10000)) s := by
  have hall : vas.filter (fun va => decide (va.toNat < 2 ^ 48) && va.toNat % w = 0) = vas :=
    List.filter_eq_self.2 fun va hva => Bool.and_eq_true_iff.2 ⟨decide_eq_true (h va hva).1, decide_eq_true (h va hva).2⟩
  unfold lookUp
  simp only [hall, hw.pages, hw.more, List.contains_nil, Bool.not_false, List.filter_true, Bool.false_eq_true, if_false]

/-- The modifier of landings matters for the lanes that land alone. -/
theorem launchOp_congr {f f' : Land → Land} {x : Ix} {s : State} {g : Group} {ls : List Nat} (k : Tok) (w : Nat → List (Dest × DWord)) (owed : Bool)
    (hg : s.group? x.core x.slot = some g) (hb : ∀ j ∈ ls, j < 64) (h : ∀ d : Land, d.lane ∈ ls → f d = f' d) :
    launchOp f x k (ls.map (fun j => (j, { writes := w j }))) s owed = launchOp f' x k (ls.map (fun j => (j, { writes := w j }))) s owed := by
  unfold launchOp
  simp only [hg]
  rw [landings_fold f x w g ls hb, landings_fold f' x w g ls hb, List.map_congr_left fun j hj => h _ hj]

/-- Pages looked up leave all but the counts, the contexts' caches and the outbox. -/
theorem touches_eq (c : Nat) (ps : List Nat) (s : State) :
    ∃ cr xs ob, ps.foldl (fun s p => s.touch c (p * 0x10000)) s = { s with care := cr, ctxs := xs, outbox := ob } := by
  induction ps generalizing s with
  | nil => exact ⟨s.care, s.ctxs, s.outbox, rfl⟩
  | cons p ps ih =>
    obtain ⟨cr, xs, ob, h⟩ := s.touch_eq c (p * 0x10000)
    obtain ⟨cr2, xs2, ob2, h2⟩ := ih (s.touch c (p * 0x10000))
    exact ⟨cr2, xs2, ob2, by rw [List.foldl_cons, h2, h]⟩

theorem find?_map_self {β : Type} (f : Nat → β) {ls : List Nat} {j : Nat} (hj : j ∈ ls) :
    (ls.map (fun i => (i, f i))).find? (fun e => e.1 = j) = some (j, f j) := by
  induction ls with
  | nil => cases hj
  | cons i ls ih =>
    by_cases h : i = j
    · subst h; simp
    · rw [List.map_cons, List.find?_cons_of_neg (by simpa using h), ih ((List.mem_cons.1 hj).resolve_left (Ne.symm h))]

/-! ### GATH -/

theorem exec_of_gathForm {i : LInstr} {w : Nat} {split : Bool} {d a : VReg} {k : Tok} (h : gathForm i = some (w, true, split, d, a, k)) (s : State) :
    exec (Code.l i).instr s = gathWord i w d a k split s := by
  unfold gathForm at h
  split at h <;> cases h <;> rfl

/-- Elements that all pass (R225-R227). -/
theorem performGath_of_pass {x : Ix} {s s0 : State} {g : Group} {k : Tok} {w d : Nat} {split : Bool} {ls : List Nat} {va : Nat → DWord}
    {loc : Nat → Nat} {tso : Nat → Bool} (hs : x.slot < 128) (hw : x.b.Whole) (hb : ∀ j ∈ ls, j < 64) (hg : s.group? x.core x.slot = some g)
    (h0 : s0 = (ls.foldl (fun r j => insertNat ((va j).toNat / 0x10000) r) []).foldl (fun s p => s.touch x.t.ctx (p * 0x10000)) s)
    (hp : ∀ j ∈ ls, GlobalPass s0 x.t x.core g.fe.sq true w (va j) (loc j) (tso j)) :
    performGath x k w split d (ls.map (fun j => (j, va j))) s =
      let served := ls.filter (fun j => (upFrom (loc j) w).any (fromM s0 x.core g.fe.sq))
      let s2 := (launchOp (fun l => { l with split := split, fid := fidOf (loc l.lane), addr := va l.lane }) x k
        (ls.map (fun j => (j, { writes := wBytes d (s0.loadBytes x.core g.fe.sq (loc j) w) })))
        (served.foldl (fun s j => s.countReq (loc j)) s0) (g.owes s.ids)).1
      match s2.group? x.core x.slot with
      | some h => if split then s2.setGroup (h.upd (laneSet ls) (fun _ l => { l with park := .splitGather, pc := x.b.unit, next := x.nextPc })) else s2
      | none => s2 := by
  have hlook : lookUp x w ((ls.map (fun j => (j, va j))).map (·.2)) s = s0 := by
    rw [List.map_map, lookUp_of_pass hw, h0, List.foldl_map]
    · rfl
    · intro v hv
      obtain ⟨j, hj, rfl⟩ := List.mem_map.1 hv
      exact ⟨(hp j hj).low, (hp j hj).aligned⟩
  obtain ⟨cr, xs, ob, he⟩ := touches_eq x.t.ctx (ls.foldl (fun r j => insertNat ((va j).toNat / 0x10000) r) []) s
  have hg0 : s0.group? x.core x.slot = some g := by rw [h0, he]; exact hg
  have hids : opId x s0 = s.ids := by rw [opId_whole hw, h0, he]
  have hsq : sqOf s0 x.core x.slot = g.fe.sq := by rw [sqOf, State.front?_of_group hs hg0]; rfl
  have hv (j : Nat) (hj : j ∈ ls) := gatherVerdict_of_pass (hp j hj)
  have hhits : gatherHits s0 x true w (ls.map (fun j => (j, va j))) = [] := by
    rw [gatherHits, hsq, List.filterMap_map]
    exact List.filterMap_eq_nil_iff.2 fun j hj => by rw [Function.comp_apply, hv j hj]
  unfold performGath
  simp only [hlook, hsq, hids, hhits, raiseUnit_nil hw]
  rw [filterMap_eq_map_of_mem (l := ls.map (fun j => (j, va j))) (g := fun e => (e.1, loc e.1)) ?go,
    foldl_idle (bs := ls.map (fun j => (j, va j))) ?wait]
  case go =>
    intro e he
    obtain ⟨j, hj, rfl⟩ := List.mem_map.1 he
    dsimp only
    rw [hv j hj]
  case wait =>
    intro u e he
    obtain ⟨j, hj, rfl⟩ := List.mem_map.1 he
    dsimp only
    rw [hv j hj]
  simp only [List.map_map, List.foldl_map, Function.comp_def, List.map_id', List.foldl_filter]
  obtain ⟨c, hc⟩ := (s0.countReqs_eq ((ls.filter (fun j => (upFrom (loc j) w).any (fromM s0 x.core g.fe.sq))).map loc))
  rw [List.foldl_map, List.foldl_filter] at hc
  have hgc : ((ls.foldl (fun s j => if (upFrom (loc j) w).any (fromM s0 x.core g.fe.sq) then s.countReq (loc j) else s) s0).group? x.core x.slot) = some g := by
    rw [hc]; exact hg0
  rw [opOwed, hgc, launchOp_congr (f' := fun l => { l with split := split, fid := fidOf (loc l.lane), addr := va l.lane }) k _ _ hgc hb ?land]
  case land =>
    intro l hl
    rw [find?_map_self loc hl, find?_map_self va hl]
    rfl
  rfl

theorem gatherWords_hold : GatherWords := by
  intro i w split d a k hf s s0 b g t loc tso ready h0 hp
  rw [exec_of_gathForm hf, gathWord, lset_ready ready]
  dsimp only [Issues.ix]
  rw [State.issued_group ready.toIssues 1]
  refine congrArg (fun u => Host.Outcome.next (unitEnd b _ u)) ?_
  refine (performGath_of_pass (x := Issues.ix i b g t 1) (va := vaOf b g a) ready.slot ready.whole (fun _ => lanesIn_bound)
    (State.issued_group ready.toIssues 1) h0 hp).trans ?_
  rw [laneSet_lanesIn]
  rfl

/-! ### SCAT -/

theorem exec_of_scatForm {i : LInstr} {w : Nat} {d a : VReg} {k : Tok} (h : gathForm i = some (w, false, false, d, a, k)) (s : State) :
    exec (Code.l i).instr s = scatWord i w d a k s := by
  unfold gathForm at h
  split at h <;> cases h <;> rfl

/-- The entry of an element (R226). -/
def scatEntry (x : Ix) (op : Nat) (va : Nat → DWord) (bytes : Nat → List Byte) (loc : Nat → Nat) (tso : Nat → Bool) (j : Nat) : Entry :=
  { loc := loc j, bytes := bytes j, tso := tso j, op := op, ctx := x.t.ctx, va := some (addrOf (va j)), slot := x.t.slot }

/-- Elements that all pass (R152, R225, R226). -/
theorem performScat_of_pass {x : Ix} {s s0 : State} {g : Group} {k : Tok} {w : Nat} {ls : List Nat} {va : Nat → DWord} {bytes : Nat → List Byte}
    {loc : Nat → Nat} {tso : Nat → Bool} (hs : x.slot < 128) (hw : x.b.Whole) (hg : s.group? x.core x.slot = some g)
    (h0 : s0 = (ls.foldl (fun r j => insertNat ((va j).toNat / 0x10000) r) []).foldl (fun s p => s.touch x.t.ctx (p * 0x10000)) s)
    (hp : ∀ j ∈ ls, GlobalPass s0 x.t x.core [] false w (va j) (loc j) (tso j)) :
    performScat x k w (ls.map (fun j => (j, va j, bytes j))) s =
      let s2 := startOp (s0.setGroup { g with fe := { g.fe with sq := g.fe.sq ++ ls.map (scatEntry x s.ids va bytes loc tso) } }) x.core x.slot
        { id := s.ids, tok := k, inH := x.h, lanes := laneSet ls, sq := ls.length, owed := g.owes s.ids }
      if ∃ j ∈ ls, inOutRegion x.t (va j).toNat w = false then loseStanding s2 x.t.id else s2 := by
  have hlook : lookUp x w ((ls.map (fun j => (j, va j, bytes j))).map (·.2.1)) s = s0 := by
    rw [List.map_map, lookUp_of_pass hw, h0, List.foldl_map]
    · rfl
    · intro v hv
      obtain ⟨j, hj, rfl⟩ := List.mem_map.1 hv
      exact ⟨(hp j hj).low, (hp j hj).aligned⟩
  obtain ⟨cr, xs, ob, he⟩ := touches_eq x.t.ctx (ls.foldl (fun r j => insertNat ((va j).toNat / 0x10000) r) []) s
  have hg0 : s0.group? x.core x.slot = some g := by rw [h0, he]; exact hg
  have hids : opId x s0 = s.ids := by rw [opId_whole hw, h0, he]
  have hv (j : Nat) (hj : j ∈ ls) := gatherVerdict_of_pass (hp j hj)
  have hhits : gatherHits s0 x false w ((ls.map (fun j => (j, va j, bytes j))).map (fun e => (e.1, e.2.1))) = [] := by
    rw [gatherHits, List.map_map, List.filterMap_map]
    exact List.filterMap_eq_nil_iff.2 fun j hj => by
      rw [Function.comp_apply, Function.comp_apply, gatherVerdict_of_pass (globalPass_sq (hp j hj) _)]
  have howes (fe : Front) : opOwed (s0.setGroup { g with fe := fe }) x s.ids = g.owes s.ids := by
    rw [opOwed, State.group?_setGroup_of hg0 { g with fe := fe }]
    rfl
  unfold performScat
  simp only [hlook, hids, hhits, raiseUnit_nil hw, State.front?_of_group hs hg0, State.setFront_of_group hs hg0, startPart_whole hw]
  rw [filterMap_eq_map_of_mem (l := ls.map (fun j => (j, va j, bytes j))) (g := fun e => scatEntry x s.ids va bytes loc tso e.1) ?entries,
    List.filter_eq_self.2 ?go, foldl_idle (bs := ls.map (fun j => (j, va j, bytes j))) ?wait]
  case entries =>
    intro e he
    obtain ⟨j, hj, rfl⟩ := List.mem_map.1 he
    dsimp only
    rw [hv j hj]
    rfl
  case go =>
    intro e he
    obtain ⟨j, hj, rfl⟩ := List.mem_map.1 he
    dsimp only
    rw [hv j hj]
  case wait =>
    intro u e he
    obtain ⟨j, hj, rfl⟩ := List.mem_map.1 he
    dsimp only
    rw [hv j hj]
  simp only [List.map_map, Function.comp_def, List.map_id', List.length_map, List.any_map, howes, List.any_eq_true,
    Bool.not_eq_true']

theorem scatterWords_hold : ScatterWords := by
  intro i w d a k hf s s0 b g t loc tso ready h0 hp
  rw [exec_of_scatForm hf, scatWord, lset_ready ready]
  dsimp only [Issues.ix]
  rw [State.issued_group ready.toIssues 1]
  refine congrArg (fun u => Host.Outcome.next (unitEnd b _ u)) ?_
  refine (performScat_of_pass (x := Issues.ix i b g t 1) (va := vaOf b g a) (bytes := fun j => ((g.issued b 1).lane j).regBytes d.toNat (w / 4))
    ready.slot ready.whole (State.issued_group ready.toIssues 1) h0 hp).trans ?_
  rw [laneSet_lanesIn]
  rfl

end Sys2Proof.Machine

/-- Settles O22: elements that all pass are looked up, and loaded or stored in lane order. -/
theorem globalAccesses : Obligations.GlobalAccesses :=
  ⟨Sys2Proof.Machine.gatherWords_hold, Sys2Proof.Machine.scatterWords_hold⟩

end

section
/-! The atomics (R143, R164-R167). -/

namespace Sys2Proof.Machine

open Sys2Proof.Claims

/-! ### What draining leaves to a group's lanes -/

/-- The lanes of a slot's group. -/
def State.lanesAt (s : State) (core slot : Nat) : Option (List Lane) := (s.group? core slot).map (·.lanes)

theorem State.lanesAt_setGroup {s : State} {core slot : Nat} {g h : Group} (hg : s.group? core slot = some g) (hc : h.core = g.core)
    (hs : h.slot = g.slot) (hl : h.lanes = g.lanes) : (s.setGroup h).lanesAt core slot = s.lanesAt core slot := by
  simp only [State.lanesAt, State.group?_setGroup_of hg h hc hs, hg, Option.map_some, hl]

theorem State.lanesAt_setFront (s : State) (core slot : Nat) (f : Front) : (s.setFront core slot f).lanesAt core slot = s.lanesAt core slot := by
  unfold State.setFront
  split
  · split
    · next g hg => exact State.lanesAt_setGroup hg rfl rfl rfl
    · rfl
  · split <;> rfl

theorem State.store_groups (s : State) (loc : Nat) (bs : List Byte) : (s.store loc bs).groups = s.groups := by
  obtain ⟨m, p, ob, h⟩ := s.store_eq loc bs
  rw [h]

theorem State.lanesAt_of_groups {s u : State} (h : u.groups = s.groups) (core slot : Nat) : u.lanesAt core slot = s.lanesAt core slot := by
  simp only [State.lanesAt, State.group?, h]

theorem sqLeave_lanesAt (s : State) (core slot : Nat) : (sqLeave s core slot).lanesAt core slot = s.lanesAt core slot := by
  unfold sqLeave
  split
  · rfl
  · split
    · rfl
    next f _ e rest _ =>
      have hleave (u : State) (hu : u.lanesAt core slot = s.lanesAt core slot) :
          (if isScratch e.loc then u.store e.loc e.bytes else { u with outb := u.outb ++ [{ core := core, entry := e }] }).lanesAt core slot =
            s.lanesAt core slot := by
        split
        · exact (State.lanesAt_of_groups (u.store_groups _ _) core slot).trans hu
        · exact hu
      refine hleave _ ?_
      split
      · split
        · next g hg => exact (State.lanesAt_setGroup hg (by rfl) (by rfl) (by rfl)).trans (s.lanesAt_setFront core slot _)
        · exact s.lanesAt_setFront core slot _
      · split <;> exact s.lanesAt_setFront core slot _

theorem drainSq_lanesAt (core slot n : Nat) (s : State) : (drainSq core slot n s).lanesAt core slot = s.lanesAt core slot := by
  induction n generalizing s with
  | zero => rfl
  | succ n ih => rw [drainSq, ih, sqLeave_lanesAt]

theorem drainQueue_lanesAt (s : State) (core slot : Nat) : (drainQueue s core slot).lanesAt core slot = s.lanesAt core slot := by
  unfold drainQueue
  split
  · exact drainSq_lanesAt core slot _ s
  · rfl

theorem landOut_groups (s : State) (core : Nat) (e : Entry) : (landOut s core e).groups = s.groups := by
  unfold landOut
  dsimp only
  split
  · rfl
  · obtain ⟨c, hc⟩ := State.countReq_eq { s with outb := removeOut core e s.outb } e.loc
    rw [State.put, hc]
    exact State.store_groups _ _ _

theorem outStep_groups (s : State) (core n : Nat) : (outStep s core n).groups = s.groups := by
  unfold outStep
  dsimp only
  split
  · rfl
  · split
    · split
      · rfl
      · exact landOut_groups s core _
    · rfl

theorem drainMarked_groups (core : Nat) (ms : List Bool) (n : Nat) (s : State) : (drainMarked core ms n s).groups = s.groups := by
  induction ms generalizing n s with
  | nil => rfl
  | cons m ms ih =>
    rw [drainMarked, ih]
    split
    · exact outStep_groups s core n
    · rfl

theorem drainOut_groups (s : State) (core : Nat) (p : Entry → Bool) : (drainOut s core p).groups = s.groups := drainMarked_groups core _ 0 s

/-! ### The functions of R164 to R166 -/

section
variable (old arg : DWord)

theorem low_word (x : DWord) : x.extractLsb' 0 32 = x.setWidth 32 := (BitVec.setWidth_eq_extractLsb' (by decide)).symm

/-- A function of the low words alone is one of R164's 32-bit functions. -/
theorem atomF_eq_atom4 {n : Nat} (F : Word → Word → Word) (h : atomF n 4 old arg = (F (old.extractLsb' 0 32) (arg.extractLsb' 0 32)).setWidth 64) :
    atomF n 4 old arg = atom4 F old arg := by
  rw [h, low_word, low_word]
  rfl

theorem atomF_add : atomF 0 4 old arg = atom4 (· + ·) old arg := atomF_eq_atom4 old arg _ rfl

theorem atomF_and : atomF 5 4 old arg = atom4 (· &&& ·) old arg := atomF_eq_atom4 old arg _ rfl

theorem atomF_or : atomF 6 4 old arg = atom4 (· ||| ·) old arg := atomF_eq_atom4 old arg _ rfl

theorem atomF_xor : atomF 7 4 old arg = atom4 (· ^^^ ·) old arg := atomF_eq_atom4 old arg _ rfl

theorem atomF_xchg : atomF 8 4 old arg = atom4 (fun _ y => y) old arg := atomF_eq_atom4 old arg _ rfl

theorem atomF_add64 : atomF 0 8 old arg = old + arg := rfl

theorem atomF_dadd : atomF 11 8 old arg = BitVec.ofNat 64 (fAdd fp64 .rne old.toNat arg.toNat).1 := rfl

theorem atomF_maxloc : atomF 13 8 old arg = locCombine true old arg := by
  generalize hn : 13 = n
  unfold atomF
  split
  case h_13 => rfl
  case h_14 h => exact (h hn.symm).elim
  all_goals omega

theorem atomF_minloc : atomF 14 8 old arg = locCombine false old arg := by
  generalize hn : 14 = n
  unfold atomF
  split
  case h_14 => rfl
  all_goals omega

theorem atomF_min : atomF 1 4 old arg = atom4 (fun x y => if x.toInt ≤ y.toInt then x else y) old arg :=
  atomF_eq_atom4 old arg _ (congrArg (BitVec.setWidth 64) (sminBV_eq _ _))

theorem atomF_max : atomF 2 4 old arg = atom4 (fun x y => if x.toInt ≤ y.toInt then y else x) old arg :=
  atomF_eq_atom4 old arg _ (congrArg (BitVec.setWidth 64) (smaxBV_eq _ _))

theorem atomF_minz : atomF 3 4 old arg = atom4 (fun x y => if x.toNat ≤ y.toNat then x else y) old arg :=
  atomF_eq_atom4 old arg _ (congrArg (BitVec.setWidth 64) (uminBV_eq _ _))

theorem atomF_maxz : atomF 4 4 old arg = atom4 (fun x y => if x.toNat ≤ y.toNat then y else x) old arg :=
  atomF_eq_atom4 old arg _ (congrArg (BitVec.setWidth 64) (umaxBV_eq _ _))

/-- The high word of a pair is what a compare and swap stores (R165). -/
theorem atomF_cas : atomF 9 4 old arg = if old.setWidth 32 = arg.setWidth 32 then arg >>> 32 else (old.setWidth 32).setWidth 64 := by
  have h : atomF 9 4 old arg = (if old.extractLsb' 0 32 = arg.extractLsb' 0 32 then arg.extractLsb' 32 32 else old.extractLsb' 0 32).setWidth 64 := rfl
  rw [h, low_word, low_word, apply_ite (BitVec.setWidth 64)]
  refine if_congr Iff.rfl (BitVec.eq_of_toNat_eq ?_) rfl
  have := arg.isLt
  simp only [BitVec.toNat_setWidth, BitVec.extractLsb'_toNat, BitVec.toNat_ushiftRight, Nat.shiftRight_eq_div_pow]
  omega

/-- The low four bytes of a 64-bit number are those of its low word. -/
theorem bytesOf_low (v : Nat) : bytesOf 4 (BitVec.ofNat 64 v).toNat = bytesOf 4 ((BitVec.ofNat 32 v).setWidth 64).toNat := by
  simp only [bytesOf, BitVec.toNat_ofNat, BitVec.toNat_setWidth, List.cons.injEq, and_true]
  refine ⟨?_, ?_, ?_, ?_⟩ <;> refine BitVec.eq_of_toNat_eq ?_ <;> simp only [BitVec.toNat_ofNat] <;> omega

/-- A sum of R166 is stored as its low word. -/
theorem bytesOf_fadd : bytesOf 4 (atomF 10 4 old arg).toNat =
    bytesOf 4 (atom4 (fun x y => BitVec.ofNat 32 (fAdd fp32 .rne x.toNat y.toNat).1) old arg).toNat := by
  have h : atomF 10 4 old arg = BitVec.ofNat 64 (fAdd fp32 .rne (old.extractLsb' 0 32).toNat (arg.extractLsb' 0 32).toNat).1 := rfl
  rw [h, low_word, low_word, bytesOf_low]
  rfl

end

/-- An atomic's word, and the bytes that its function leaves. -/
theorem exec_of_atomForm {i : LInstr} {m : MemForm} {f : DWord → DWord → DWord} (h : atomForm i = some (m, f)) :
    ∃ n, (∀ s, exec (Code.l i).instr s = atomWord i m.sp n m.w m.d m.a m.k m.sc s) ∧
      ∀ old arg, bytesOf m.w (atomF n m.w old arg).toNat = bytesOf m.w (f old arg).toNat := by
  have same {n w : Nat} {f : DWord → DWord → DWord} (h : ∀ old arg, atomF n w old arg = f old arg) (old arg : DWord) :
      bytesOf w (atomF n w old arg).toNat = bytesOf w (f old arg).toNat := by rw [h]
  unfold atomForm at h
  split at h <;> cases h
  · exact ⟨0, fun _ => rfl, same atomF_add⟩
  · exact ⟨1, fun _ => rfl, same atomF_min⟩
  · exact ⟨2, fun _ => rfl, same atomF_max⟩
  · exact ⟨3, fun _ => rfl, same atomF_minz⟩
  · exact ⟨4, fun _ => rfl, same atomF_maxz⟩
  · exact ⟨5, fun _ => rfl, same atomF_and⟩
  · exact ⟨6, fun _ => rfl, same atomF_or⟩
  · exact ⟨7, fun _ => rfl, same atomF_xor⟩
  · exact ⟨8, fun _ => rfl, same atomF_xchg⟩
  · exact ⟨9, fun _ => rfl, same atomF_cas⟩
  · exact ⟨10, fun _ => rfl, bytesOf_fadd⟩
  · exact ⟨0, fun _ => rfl, same atomF_add64⟩
  · exact ⟨0, fun _ => rfl, same atomF_add⟩
  · exact ⟨1, fun _ => rfl, same atomF_min⟩
  · exact ⟨2, fun _ => rfl, same atomF_max⟩
  · exact ⟨3, fun _ => rfl, same atomF_minz⟩
  · exact ⟨4, fun _ => rfl, same atomF_maxz⟩
  · exact ⟨5, fun _ => rfl, same atomF_and⟩
  · exact ⟨6, fun _ => rfl, same atomF_or⟩
  · exact ⟨7, fun _ => rfl, same atomF_xor⟩
  · exact ⟨8, fun _ => rfl, same atomF_xchg⟩
  · exact ⟨9, fun _ => rfl, same atomF_cas⟩
  · exact ⟨10, fun _ => rfl, bytesOf_fadd⟩
  · exact ⟨11, fun _ => rfl, same atomF_dadd⟩
  · exact ⟨0, fun _ => rfl, same atomF_add64⟩
  · exact ⟨13, fun _ => rfl, same atomF_maxloc⟩
  · exact ⟨14, fun _ => rfl, same atomF_minloc⟩

/-! ### The lanes' steps -/

/-- A word whose results raise no flag launches without a trap. -/
theorem launchOp_hits {f : Land → Land} {x : Ix} {s : State} {k : Tok} {rs : List LaneResult} {owed : Bool} (h : ∀ o ∈ rs, o.2.flags = 0) :
    (launchOp f x k rs s owed).2 = [] := by
  unfold launchOp
  split
  · rfl
  · dsimp only
    refine List.foldlRecOn (motive := fun acc : Group × List Hit × List Land => acc.2.1 = []) _ _ rfl fun acc hacc o ho => ?_
    have hz (en : BitVec 5) : en &&& o.2.flags = 0 := (congrArg (en &&& ·) (h o ho)).trans BitVec.and_zero
    simp only [hz, if_true, hacc]

theorem launch_noFlags {x : Ix} {s : State} {k : Tok} {rs : List LaneResult} (hw : x.b.Whole) (h : ∀ o ∈ rs, o.2.flags = 0) :
    launch x k rs s = (launchOp id x k rs s).1 := by
  unfold launch
  dsimp only
  rw [launchOp_hits h, raiseUnit_nil hw]

section
variable {x : Ix} {t : Team} {m : MemForm} {f : DWord → DWord → DWord} {off : Nat → Nat} {arg : Nat → DWord} {loc : Nat → Nat} {tso : Nat → Bool}

/-- No lane of an atomic raises a flag. -/
theorem atomRun_flags (js : List Nat) (s : State) : ∀ o ∈ (atomRun x t m f off arg loc js s).2, o.2.flags = 0 := by
  induction js generalizing s with
  | nil => exact fun _ h => nomatch h
  | cons j js ih =>
    intro o ho
    rcases List.mem_cons.1 ho with rfl | ho
    · rfl
    · exact ih _ o ho

theorem atomRun_ne_nil {js : List Nat} (h : js ≠ []) (s : State) : (atomRun x t m f off arg loc js s).2 ≠ [] := by
  cases js with
  | nil => exact absurd rfl h
  | cons j js => exact List.cons_ne_nil _ _

/-- Steps that do what an atomic's lanes do, each when its checks pass, are the atomic's run (R164). -/
theorem foldl_atoms {step : State × List LaneResult × List Hit → Nat → State × List LaneResult × List Hit} {js : List Nat}
    (h : ∀ j ∈ js, ∀ u rs hits, Passes (touchAtom u t m.sp (off j) m.w) t x.core [] .atomic m.w (off j) (loc j) (tso j) m.sp →
      step (u, rs, hits) j =
        let r := atomStep x m f (arg j) (loc j) (touchAtom u t m.sp (off j) m.w)
        (r.2, rs ++ [(j, { writes := if m.w = 8 then w64 m.d r.1 else w32 m.d (r.1.setWidth 32) })], hits))
    {s : State} (hp : atomsPass x t m f off arg loc tso js s) (rs : List LaneResult) (hits : List Hit) :
    js.foldl step (s, rs, hits) = ((atomRun x t m f off arg loc js s).1, rs ++ (atomRun x t m f off arg loc js s).2, hits) := by
  induction js generalizing s rs with
  | nil => rw [List.foldl_nil, atomRun, List.append_nil]
  | cons j js ih =>
    obtain ⟨hj, hjs⟩ := hp
    rw [List.foldl_cons, h j (List.mem_cons_self ..) s rs hits hj, ih (fun i hi => h i (List.mem_cons_of_mem _ hi)) hjs, List.append_assoc]
    rfl

end

/-- The end of an atomic whose lanes have taken their turns: it traps, or its results are on their way and its team has lost the
idempotent standing (R167). -/
def atomsEnd (x : Ix) (k : Tok) (r : State × List LaneResult × List Hit) : State :=
  raiseUnit x false r.2.2 (launchOp id x k r.2.1 (if r.2.1 = [] then r.1 else loseStanding r.1 x.t.id)).1

/-! ### The word -/

/-- A lane's offset does not change as the older entries of its group leave. -/
theorem atIssue_offset {g0 g : Group} (h : g.lanes = g0.lanes) (b : Bundle) (m : MemForm) (j : Nat) :
    (((g0.atIssue b).lane j).offset m.a m.sc b.pfx m.w).toNat = offOf b g m j := by
  have hl : g0.lane j = g.lane j := by simp only [Group.lane, h]
  unfold offOf
  by_cases hj : j < g.lanes.length
  · rw [Group.atIssue, Group.issued, Group.lane_upd _ _ _ _ (h ▸ hj), Group.lane_upd _ _ _ _ hj, hl]
    split <;> rfl
  · have out (k : Group) (hk : k.lanes.length = g.lanes.length) : k.lane j = { live := false } :=
      List.getD_eq_default _ _ (hk ▸ Nat.not_lt.1 hj)
    rw [out (g0.atIssue b) ((mapLanes_length ..).trans (congrArg _ h.symm)), out (g.issued b 1) (mapLanes_length ..)]

/-- An atomic whose lanes all pass when their turns come (R143, R164-R167). -/
theorem atomWord_ready {i : LInstr} {n : Nat} {m : MemForm} {f : DWord → DWord → DWord} (hf : ∀ old arg, bytesOf m.w (atomF n m.w old arg).toNat = bytesOf m.w (f old arg).toNat)
    {s s1 s2 : State} {b : Bundle} {g0 g : Group} {t : Team} {locs : List Nat} {loc : Nat → Nat} {tso : Nat → Bool}
    (iss : Issues s b g0 t) (h1 : s1 = drainQueue s b.core b.slot) (hlocs : locs = atomLocs s1 t b g0 m)
    (h2 : s2 = if m.sp = .cupola then drainOut s1 b.core (fun e => locs.any (fun l => overlaps l m.w e.loc e.bytes.length)) else s1)
    (ready : LReady i s2 b g t) (clear : m.sp = .cupola → ∀ e ∈ s2.channel b.core, ∀ l ∈ locs, overlaps l m.w e.loc e.bytes.length = false)
    (hp : atomsPass (Issues.ix i b g t 1) t m f (offOf b g m) (fun j => ((g.issued b 1).lane j).pair m.d.toNat) loc tso
      (lanesIn (g.activeOf b 1)) (s2.issued b g 1)) :
    atomWord i m.sp n m.w m.d m.a m.k m.sc s = .next (unitEnd b (Issues.ix i b g t 1)
      (let r := atomRun (Issues.ix i b g t 1) t m f (offOf b g m) (fun j => ((g.issued b 1).lane j).pair m.d.toNat) loc
        (lanesIn (g.activeOf b 1)) (s2.issued b g 1)
       launch (Issues.ix i b g t 1) m.k r.2 (loseStanding r.1 t.id))) := by
  have hlanes : g.lanes = g0.lanes := by
    have hs2 : s2.lanesAt b.core b.slot = s.lanesAt b.core b.slot := by
      rw [h2, ← drainQueue_lanesAt s b.core b.slot, ← h1]
      split
      · exact State.lanesAt_of_groups (drainOut_groups ..) _ _
      · rfl
    simpa only [State.lanesAt, ready.group, iss.group, Option.map_some, Option.some.injEq] using hs2
  have hgo : (decide (m.sp = .cupola) && !atomClear s2 b.core locs m.w) = false := by
    by_cases hc : m.sp = .cupola
    · have : ((s2.channel b.core).any (·.meets locs m.w)) = false :=
        List.any_eq_false.2 fun e he => by simpa [Entry.meets] using clear hc e he
      simp only [atomClear, this, Bool.not_false, Bool.not_true, Bool.and_false]
    · simp only [hc, decide_false, Bool.false_and]
  have hoff (j : Nat) : (((g0.atIssue b).lane j).offset m.a m.sc b.pfx m.w).toNat = offOf b g m j := atIssue_offset hlanes b m j
  have hg := State.issued_group ready.toIssues 1
  subst h2 hlocs h1
  unfold atomWord
  simp only [iss.head, iss.group, iss.team]
  refine (if_neg ?clear).trans ((lset_ready ready _).trans (congrArg (fun u => Host.Outcome.next (unitEnd b _ u)) ?body))
  case clear =>
    rw [Bool.not_eq_true]
    exact hgo
  case body =>
    dsimp only [Issues.ix]
    rw [hg]
    refine (congrArg (atomsEnd (Issues.ix i b g t 1) m.k) (foldl_atoms ?step hp [] [])).trans ?_
    case step =>
      intro j _ u rs hits pass
      have hv := verdict_of_passes pass
      simp only [Issues.ix] at hv
      simp only [hoff]
      rw [hv]
      simp only [hf, low_word]
      rfl
    simp only [atomsEnd, List.nil_append, if_neg (atomRun_ne_nil (lanesIn_ne_nil ready.active) _), raiseUnit_nil (x := Issues.ix i b g t 1) ready.whole]
    exact (launch_noFlags (x := Issues.ix i b g t 1) ready.whole (atomRun_flags _ _)).symm

end Sys2Proof.Machine

open Sys2Proof.Machine

/-- Settles O5: the older entries have left, and the lanes take their turns in order. -/
theorem atomicWords : Obligations.AtomicWords := by
  unfold Obligations.AtomicWords
  intro i m f hm s s1 s2 b g0 g t locs loc tso iss h1 hlocs h2 ready clear hp
  obtain ⟨n, hexec, hf⟩ := exec_of_atomForm hm
  exact (hexec s).trans (atomWord_ready hf iss h1 hlocs h2 ready clear hp)

end

section
/-! Store entries on their way to memory, and stale copies (R139-R143, R269). -/

namespace Sys2Proof.Machine

open Sys2Proof.Claims

/-! ### Entries that leave a store queue -/

/-- A group without splits keeps none as its oldest entry leaves. -/
theorem Group.unmarked {g : Group} (h : g.traps = []) (f : TrapSplit → TrapSplit) : { g with traps := g.traps.map f } = g := by
  rw [h, List.map_nil, ← h]

theorem sqLeave_of_group {core slot : Nat} {s : State} {g : Group} {e : Entry} {rest : List Entry} (hs : slot < 128)
    (hg : s.group? core slot = some g) (hq : g.fe.sq = e :: rest) (ht : g.traps = []) :
    let s1 := s.setGroup { g with fe := ((({ g.fe with sq := rest } : Front).updOp e.op (fun o => { o with sq := o.sq - 1 })).finish e.op) }
    sqLeave s core slot = if isScratch e.loc then s1.store e.loc e.bytes else { s1 with outb := s1.outb ++ [{ core := core, entry := e }] } := by
  let k : Group := { g with fe := ((({ g.fe with sq := rest } : Front).updOp e.op (fun o => { o with sq := o.sq - 1 })).finish e.op) }
  have hk : (s.setGroup k).group? core slot = some k := State.group?_setGroup_of hg k
  have hu (f : TrapSplit → TrapSplit) : { k with traps := k.traps.map f } = k := Group.unmarked (g := k) ht f
  unfold sqLeave
  simp only [State.front?_of_group hs hg, hq, State.setFront_of_group hs hg, hs, if_true]
  rw [hk]
  simp only [hu]
  rw [State.setGroup_setGroup _ (by rfl) (by rfl)]

theorem entriesLeave_holds : EntriesLeave := by
  intro core slot s g e rest hs hg hq ht
  have h := sqLeave_of_group hs hg hq ht
  refine ⟨fun hl => congrArg (fun u => Host.Outcome.next (tryEntry u core slot)) (h.trans (if_pos hl)),
    fun hl => congrArg (fun u => Host.Outcome.next (tryEntry u core slot)) (h.trans (if_neg ?_))⟩
  rw [hl]
  exact Bool.false_ne_true

/-! ### Entries that reach memory -/

theorem outReady_of {older : List Entry} {e : Entry} (h : ∀ x ∈ older, overlaps x.loc x.bytes.length e.loc e.bytes.length = false ∧
    (e.rel = true → inScope 4 x.loc = false) ∧ (e.tso = true → x.tso = false)) : outReady older e = true := by
  have hmeet : older.any (fun x => overlaps x.loc x.bytes.length e.loc e.bytes.length) = false :=
    List.any_eq_false.2 fun x hx => by rw [(h x hx).1]; exact Bool.false_ne_true
  have hrel : (e.rel && older.any (fun x => inScope 4 x.loc)) = false := by
    cases he : e.rel with
    | false => rfl
    | true => exact List.any_eq_false.2 fun x hx => by rw [(h x hx).2.1 he]; exact Bool.false_ne_true
  have htso : (e.tso && older.any (fun x => x.tso)) = false := by
    cases he : e.tso with
    | false => rfl
    | true => exact List.any_eq_false.2 fun x hx => by rw [(h x hx).2.2 he]; exact Bool.false_ne_true
  rw [outReady, hmeet, hrel, htso]
  rfl

/-- The swap that holds an entry's page knows that the entry waits (R269). -/
theorem waits_of_held {s : State} {e : Entry} {w : Swap} (core : Nat) (h : holder s.care e.loc = some w) :
    ∃ x ∈ s.care.swaps.map (fun w => if some w = holder s.care e.loc && !(w.waits.contains (.out core e)) then
      { w with waits := w.waits ++ [.out core e] } else w), x.group = w.group ∧ Waiter.out core e ∈ x.waits := by
  have hw : w ∈ s.care.swaps := by
    unfold holder at h
    split at h
    · exact List.mem_of_find?_eq_some h
    · cases h
  refine ⟨_, List.mem_map_of_mem hw, ?_⟩
  rw [h]
  cases hc : w.waits.contains (.out core e) with
  | true =>
    rw [Bool.not_true, Bool.and_false, if_neg Bool.false_ne_true]
    exact ⟨rfl, List.contains_iff_mem.1 hc⟩
  | false =>
    rw [Bool.not_false, Bool.and_true, if_pos (decide_eq_true rfl)]
    exact ⟨rfl, List.mem_append_right _ (List.mem_singleton.2 rfl)⟩

theorem entriesReachMemory_hold : EntriesReachMemory := by
  intro core n s e he ready
  have hstep : exec (.outboundToMemory core n) s = .next (outStep s core n) := rfl
  have hr := outReady_of ready
  refine ⟨fun hh hd => ?_, fun hh => ⟨outStep s core n, hstep, ?_⟩⟩
  · rw [hstep]
    simp only [outStep, he, hr, hh, if_true, Bool.false_eq_true, if_false]
    have hd' : ({ s with outb := removeOut core e s.outb } : State).deadLoc e.loc = false := hd
    simp only [landOut, hd', Bool.false_eq_true, if_false]
  · have hout : outStep s core n = { s with care := { s.care with swaps := s.care.swaps.map (fun w =>
        if some w = holder s.care e.loc && !(w.waits.contains (.out core e)) then { w with waits := w.waits ++ [.out core e] } else w) } } := by
      simp only [outStep, he, hr, hh, if_true]
    rw [hout]
    exact ⟨rfl, rfl, fun w hw => waits_of_held core hw⟩

/-! ### Stale copies -/

theorem staleCopies_hold : StaleCopies := by
  refine ⟨fun core ctx va s p hp ht hs hb hd hc => ?_, fun _ _ _ => rfl⟩
  have hcore : decide (Config.cores ≤ core) = false := decide_eq_false (Nat.not_le.2 hc)
  have h : exec (.staleCopyInstall core ctx va) s = .next (installCopy s core ctx va) := rfl
  rw [h]
  simp only [installCopy, hp, ht, hs, hb, hd, hcore, Bool.or_false, Bool.false_eq_true, if_false]

end Sys2Proof.Machine

/-- Settles O48: an entry leaves its queue, then its channel, and a core's copies come and go. -/
theorem storesReachMemory : Obligations.StoresReachMemory :=
  ⟨Sys2Proof.Machine.entriesLeave_holds, Sys2Proof.Machine.entriesReachMemory_hold, Sys2Proof.Machine.staleCopies_hold⟩

end

section
/-! The steps, starts and completions of engine agents (R148-R150, R216, R220-R224, R233, R289, R294). -/

namespace Sys2Proof.Machine

open Sys2Proof.Claims

/-! ### What a write of an agent leaves -/

theorem put_eq (s : State) (loc : Nat) (bs : List Byte) : ∃ cr m p ob, s.put loc bs = { s with care := cr, mem := m, poison := p, outbox := ob } := by
  obtain ⟨cr, hc⟩ := s.countReq_eq loc
  obtain ⟨m, p, ob, h⟩ := (s.countReq loc).store_eq loc bs
  exact ⟨cr, m, p, ob, by rw [State.put, h, hc]⟩

theorem poisonAt_eq (s : State) (loc : Nat) (bad : List Nat) : ∃ p, s.poisonAt loc bad = { s with poison := p } := by
  unfold State.poisonAt
  induction bad generalizing s with
  | nil => exact ⟨s.poison, rfl⟩
  | cons i bad ih =>
    obtain ⟨p, h⟩ := ih (s.poison1 (unitOf (loc + i)))
    exact ⟨p, by rw [List.foldl_cons, h]; rfl⟩

theorem putPoison_eq (s : State) (loc : Nat) (bs : List Byte) (bad : List Nat) :
    ∃ cr m p ob, (s.put loc bs).poisonAt loc bad = { s with care := cr, mem := m, poison := p, outbox := ob } := by
  obtain ⟨cr, m, p, ob, h⟩ := put_eq s loc bs
  obtain ⟨q, hq⟩ := poisonAt_eq (s.put loc bs) loc bad
  exact ⟨cr, m, q, ob, by rw [hq, h]⟩

theorem store_fabric (s : State) (loc : Nat) (bs : List Byte) : (s.store loc bs).fabric = s.fabric := by
  obtain ⟨m, p, ob, h⟩ := s.store_eq loc bs
  rw [h]

/-- No step of an agent reaches the fabric's own state. -/
theorem takeStep_fabric (s : State) (a : Agent) (n : Nat) : (takeStep s a n).fabric = s.fabric := by
  unfold takeStep
  split
  · rfl
  next st _ =>
    cases st with
    | read loc len off t =>
      obtain ⟨c, hc⟩ := s.countReq_eq loc
      dsimp only
      split
      · rfl
      · rw [hc]; rfl
    | write loc len off t =>
      obtain ⟨cr, m, p, ob, h⟩ := putPoison_eq s loc (a.buf.read off len) ((upFrom 0 len).filter (fun i => a.bad.contains (off + i)))
      dsimp only
      split
      · rfl
      · rw [h]
        split <;> rfl
    | elem dst off e op c t =>
      dsimp only
      split
      · exact store_fabric s dst _
      · exact store_fabric s dst _

/-! ### An agent's step (R149) -/

section
variable {id n : Nat} {s : State} {a : Agent} (hf : s.agents.find? (fun a => a.id = id) = some a) (ready : a.stepReady n = true)
  (hi : ∀ c ∈ s.fabric.insts, c.agent ≠ id)
include hf

theorem agent_id : a.id = id := by simpa using List.find?_some hf

include ready hi

/-- A step that is ready and writes no held page is taken; no collective waits for it. -/
theorem agentStep_of_ready {st : AStep} (hst : a.steps[n]? = some st) (hh : st.heldBy s.care = false) :
    exec (.agentStep id n) s = .next (primeAfter (takeStep s a n) id) := by
  have hnone : (takeStep s a n).fabric.insts.find? (fun c => c.agent = id) = none := by
    rw [takeStep_fabric]
    exact List.find?_eq_none.2 fun c hc => by simpa using hi c hc
  have hsend : sendSource (takeStep s a n) id = takeStep s a n := by
    unfold sendSource
    rw [hnone]
    split
    · next h => cases h
    · rfl
  have h : exec (.agentStep id n) s = .next (moveAgent s id n) := rfl
  rw [h]
  unfold moveAgent
  simp only [hf, hst, ready, hh, hsend, Bool.not_true, Bool.false_eq_true, if_false]

end

theorem mem_foldl_insertNat {ls : List Nat} {b : List Nat} {k : Nat} : k ∈ ls.foldl (fun b x => insertNat x b) b ↔ k ∈ b ∨ k ∈ ls := by
  induction ls generalizing b with
  | nil => simp
  | cons x ls ih =>
    rw [List.foldl_cons, ih, mem_insertNat, List.mem_cons]
    tauto

/-- The places of an agent's buffer that a read finds poisoned (R149, R354). -/
theorem mem_badOffsets (s : State) (loc len off k : Nat) : k ∈ (s.badOffsets loc len).map (· + off) ↔
    off ≤ k ∧ k < off + len ∧ (s.deadLoc loc = true ∨ s.poisoned (unitOf (loc + (k - off))) = true) := by
  have hmem (i : Nat) : i ∈ s.badOffsets loc len ↔ i < len ∧ (s.deadLoc loc = true ∨ s.poisoned (unitOf (loc + i)) = true) := by
    unfold State.badOffsets
    cases hd : s.deadLoc loc with
    | true => simp [upFrom_mem]
    | false => simp [upFrom_mem]
  rw [List.mem_map]
  constructor
  · rintro ⟨i, hi, rfl⟩
    obtain ⟨hlt, hbad⟩ := (hmem i).1 hi
    exact ⟨by omega, by omega, by rwa [Nat.add_sub_cancel]⟩
  · rintro ⟨hle, hlt, hbad⟩
    exact ⟨k - off, (hmem _).2 ⟨by omega, hbad⟩, by omega⟩

theorem any_upFrom (bad : List Nat) (off e : Nat) : (upFrom off e).any (fun i => bad.contains i) = true ↔ ∃ i < e, off + i ∈ bad := by
  rw [List.any_eq_true]
  constructor
  · rintro ⟨k, hk, hb⟩
    obtain ⟨hle, hlt⟩ := (upFrom_mem off e k).1 hk
    exact ⟨k - off, by omega, by rw [Nat.add_sub_cancel' hle]; exact List.contains_iff_mem.1 hb⟩
  · rintro ⟨i, hi, hb⟩
    exact ⟨off + i, (upFrom_mem off e _).2 ⟨by omega, by omega⟩, List.contains_iff_mem.2 hb⟩

/-- The write is the last of its agent's in a line that no other operation registers (R150). -/
theorem lastOfLine_iff {s u : State} {a : Agent} {rest : List AStep} {loc id : Nat} (hid : a.id = id) (a' : Agent) (ha' : a'.id = a.id)
    (hu : u.agents = s.agents) :
    (isScratch loc && a.lines.contains (lineOf loc) && !(rest.any (fun x => x.writesLine (lineOf loc))) &&
      !((u.setAgent a').agents.any (fun x => x.id ≠ a.id && x.lines.contains (lineOf loc)))) = true ↔
    (isScratch loc = true ∧ lineOf loc ∈ a.lines ∧ (∀ l k o t2, AStep.write l k o t2 ∈ rest → lineOf l ≠ lineOf loc) ∧
      ∀ x ∈ s.agents, x.id ≠ id → lineOf loc ∉ x.lines) := by
  have hothers : ((u.setAgent a').agents.any (fun x => x.id ≠ a.id && x.lines.contains (lineOf loc))) =
      s.agents.any (fun x => x.id ≠ a.id && x.lines.contains (lineOf loc)) := by
    simp only [State.setAgent, hu, List.any_map]
    refine congrArg s.agents.any (funext fun x => ?_)
    by_cases hx : x.id = a'.id
    · simp [hx, ha']
    · simp [hx]
  have hwrites : rest.any (fun x => x.writesLine (lineOf loc)) = false ↔ ∀ l k o t2, AStep.write l k o t2 ∈ rest → lineOf l ≠ lineOf loc := by
    rw [List.any_eq_false]
    refine ⟨fun h l k o t2 hm => by simpa [AStep.writesLine] using h _ hm, fun h x hx => ?_⟩
    cases x with
    | write l k o t2 => simpa [AStep.writesLine] using h l k o t2 hx
    | read => exact Bool.false_ne_true
    | elem => exact Bool.false_ne_true
  rw [hothers, Bool.and_eq_true, Bool.and_eq_true, Bool.and_eq_true, Bool.not_eq_true', hwrites, Bool.not_eq_true', List.any_eq_false,
    List.contains_iff_mem, and_assoc, and_assoc, hid]
  simp

theorem natOf_lt (bs : List Byte) : natOf bs < 256 ^ bs.length := by
  induction bs with
  | nil => exact Nat.one_pos
  | cons b bs ih =>
    have hb := b.isLt
    rw [natOf, List.length_cons, Nat.pow_succ]
    omega

theorem bytes_length (s : State) (loc n : Nat) : (s.bytes loc n).length = n := by
  induction n generalizing loc with
  | zero => rfl
  | succ n ih => rw [State.bytes, List.length_cons, ih]

theorem read_length (m : Memory) (a n : Nat) : (m.read a n).length = n := by
  induction n generalizing a with
  | zero => rfl
  | succ n ih => rw [Memory.read, List.length_cons, ih]

/-- The bytes of a number are those of what they can hold. -/
theorem bytesOf_mod {n m : Nat} (h : n ≤ m) (v : Nat) : bytesOf n (v % 256 ^ m) = bytesOf n v := by
  induction n generalizing m v with
  | zero => rfl
  | succ n ih =>
    obtain ⟨k, rfl⟩ : ∃ k, m = k + 1 := ⟨m - 1, by omega⟩
    have hdiv : v % 256 ^ (k + 1) / 256 = v / 256 % 256 ^ k := by
      rw [Nat.pow_succ, Nat.mul_comm, Nat.mod_mul_right_div_self]
    have hmod : v % 256 ^ (k + 1) % 256 = v % 256 := Nat.mod_mod_of_dvd v (Dvd.intro_left (256 ^ k) (Nat.pow_succ ..).symm)
    rw [bytesOf, bytesOf, hdiv, ih (by omega), BitVec.eq_of_toNat_eq (x := BitVec.ofNat 8 (v % 256 ^ (k + 1))) (y := BitVec.ofNat 8 v) hmod]

theorem bytesOf_ofNat {n : Nat} (h : n ≤ 8) (v : Nat) : bytesOf n (BitVec.ofNat 64 v).toNat = bytesOf n v := bytesOf_mod (m := 8) h v

theorem low_toNat (c : DWord) : (c.extractLsb' 0 32).toNat = c.toNat % 2 ^ 32 := by
  rw [low_word, BitVec.toNat_setWidth]

theorem low_ofNat {v : Nat} (h : v < 256 ^ 4) : ((BitVec.ofNat 64 v).extractLsb' 0 32).toNat = v := by
  rw [low_toNat, BitVec.toNat_ofNat]
  omega

section
variable (c : DWord)

/-- The value of a four-byte element of a CUPOP is a function of the low words (R224). -/
theorem cupElem_low {op : Nat} {d v : Nat} (hop : op = 0 ∨ op = 2 ∨ op = 3 ∨ op = 4 ∨ op = 6 ∨ op = 8 ∨ op = 9) (hd : d < 256 ^ 4) (hv : v < 256 ^ 4) :
    bytesOf 4 (cupElem op c (BitVec.ofNat 64 d) (BitVec.ofNat 64 v)).toNat = bytesOf 4 (bankValue op c.toNat d v) := by
  have hn (n : Nat) := bytesOf_ofNat (n := 4) (by decide) n
  have low (x : Word) : (x.setWidth 64).toNat = x.toNat := by
    rw [BitVec.toNat_setWidth]
    exact Nat.mod_eq_of_lt (Nat.lt_trans x.isLt (by decide))
  rcases hop with rfl | rfl | rfl | rfl | rfl | rfl | rfl
  · exact congrArg (bytesOf 4) ((low _).trans (low_toNat c))
  · have h : cupElem 2 c (BitVec.ofNat 64 d) (BitVec.ofNat 64 v) =
        BitVec.ofNat 64 (fMul fp32 .rne (c.extractLsb' 0 32).toNat ((BitVec.ofNat 64 v).extractLsb' 0 32).toNat).1 := rfl
    rw [h, low_toNat, low_ofNat hv, hn]
    rfl
  · refine congrArg (bytesOf 4) ((low _).trans ?_)
    rw [BitVec.toNat_add, low_ofNat hd, low_ofNat hv]
    rfl
  · have h : cupElem 4 c (BitVec.ofNat 64 d) (BitVec.ofNat 64 v) =
        BitVec.ofNat 64 (fAdd fp32 .rne ((BitVec.ofNat 64 d).extractLsb' 0 32).toNat ((BitVec.ofNat 64 v).extractLsb' 0 32).toNat).1 := rfl
    rw [h, low_ofNat hd, low_ofNat hv, hn]
    rfl
  · have h : cupElem 6 c (BitVec.ofNat 64 d) (BitVec.ofNat 64 v) =
        BitVec.ofNat 64 (fFma fp32 .rne (c.extractLsb' 0 32).toNat ((BitVec.ofNat 64 v).extractLsb' 0 32).toNat
          ((BitVec.ofNat 64 d).extractLsb' 0 32).toNat).1 := rfl
    rw [h, low_toNat, low_ofNat hd, low_ofNat hv, hn]
    rfl
  · have h : cupElem 8 c (BitVec.ofNat 64 d) (BitVec.ofNat 64 v) =
        BitVec.ofNat 64 (fMinMax fp32 true ((BitVec.ofNat 64 d).extractLsb' 0 32).toNat ((BitVec.ofNat 64 v).extractLsb' 0 32).toNat).1 := rfl
    rw [h, low_ofNat hd, low_ofNat hv, hn]
    rfl
  · have h : cupElem 9 c (BitVec.ofNat 64 d) (BitVec.ofNat 64 v) =
        BitVec.ofNat 64 (fMinMax fp32 false ((BitVec.ofNat 64 d).extractLsb' 0 32).toNat ((BitVec.ofNat 64 v).extractLsb' 0 32).toNat).1 := rfl
    rw [h, low_ofNat hd, low_ofNat hv, hn]
    rfl

theorem cupElem_wide {op : Nat} {d v : Nat} (hop : op = 1 ∨ op = 5 ∨ op = 7) (hd : d < 256 ^ 8) (hv : v < 256 ^ 8) :
    bytesOf 8 (cupElem op c (BitVec.ofNat 64 d) (BitVec.ofNat 64 v)).toNat = bytesOf 8 (bankValue op c.toNat d v) := by
  have hd' : (BitVec.ofNat 64 d).toNat = d := Nat.mod_eq_of_lt hd
  have hv' : (BitVec.ofNat 64 v).toNat = v := Nat.mod_eq_of_lt hv
  rcases hop with rfl | rfl | rfl
  · rfl
  · have h : cupElem 5 c (BitVec.ofNat 64 d) (BitVec.ofNat 64 v) =
        BitVec.ofNat 64 (fAdd fp64 .rne (BitVec.ofNat 64 d).toNat (BitVec.ofNat 64 v).toNat).1 := rfl
    rw [h, hd', hv', bytesOf_ofNat (Nat.le_refl 8)]
    rfl
  · have h : cupElem 7 c (BitVec.ofNat 64 d) (BitVec.ofNat 64 v) =
        BitVec.ofNat 64 (fFma fp64 .rne c.toNat (BitVec.ofNat 64 v).toNat (BitVec.ofNat 64 d).toNat).1 := rfl
    rw [h, hd', hv', bytesOf_ofNat (Nat.le_refl 8)]
    rfl

end

/-- An element's bytes as R224 and R257 give them. -/
theorem bankValue_bytes {op e : Nat} {c : DWord} {d v : Nat} (hop : op < 10) (he : e = if op = 1 ∨ op = 5 ∨ op = 7 then 8 else 4)
    (hd : d < 256 ^ e) (hv : v < 256 ^ e) :
    bytesOf e (cupElem op c (BitVec.ofNat 64 d) (BitVec.ofNat 64 v)).toNat = bytesOf e (bankValue op c.toNat d v) := by
  subst he
  by_cases h : op = 1 ∨ op = 5 ∨ op = 7
  · rw [if_pos h] at hd hv ⊢
    exact cupElem_wide c h hd hv
  · rw [if_neg h] at hd hv ⊢
    exact cupElem_low c (by omega) hd hv

theorem agentSteps_hold : AgentSteps := by
  intro id n s a hf ready hi
  have hid := agent_id hf
  refine ⟨fun loc len off t hst => ?_, fun loc len off t hst hh => ⟨fun hd => ?_, fun hd => ?_⟩, fun dst off e op c t hst hh hop he => ?_⟩
  · refine ⟨((s.badOffsets loc len).map (· + off)).foldl (fun b x => insertNat x b) a.bad, ?_, fun k => ?_⟩
    · rw [agentStep_of_ready hf ready hi hst rfl, takeStep, hst]
    · rw [mem_foldl_insertNat, mem_badOffsets]
  · rw [agentStep_of_ready hf ready hi hst hh, takeStep, hst]
    simp only [hd, if_true]
  · obtain ⟨cr, m, p, ob, hu⟩ := putPoison_eq s loc (a.buf.read off len) ((upFrom 0 len).filter (fun i => a.bad.contains (off + i)))
    have hl := lastOfLine_iff (u := (s.put loc (a.buf.read off len)).poisonAt loc ((upFrom 0 len).filter (fun i => a.bad.contains (off + i))))
      (rest := a.steps.take n ++ a.steps.drop (n + 1)) (loc := loc) hid
      { a with steps := a.steps.take n ++ a.steps.drop (n + 1) } rfl (congrArg State.agents hu)
    rw [agentStep_of_ready hf ready hi hst hh, takeStep, hst]
    simp only [hd, Bool.false_eq_true, if_false]
    exact ⟨fun h => by rw [if_pos (hl.2 h)], fun h => by rw [if_neg (fun hc => h (hl.1 hc))]⟩
  · rw [agentStep_of_ready hf ready hi hst hh, takeStep, hst]
    have hd := natOf_lt (s.bytes dst e)
    have hv := natOf_lt (a.buf.read off e)
    rw [bytes_length] at hd
    rw [read_length] at hv
    simp only [bankValue_bytes hop he hd hv]
    have hs : (decide (2 ≤ op) && (upFrom off e).any (fun i => a.bad.contains i) || decide (3 ≤ op) && s.anyPoison dst e) = true ↔
        (2 ≤ op ∧ ∃ i < e, off + i ∈ a.bad) ∨ (3 ≤ op ∧ s.anyPoison dst e = true) := by
      rw [Bool.or_eq_true, Bool.and_eq_true, Bool.and_eq_true, decide_eq_true_eq, decide_eq_true_eq, any_upFrom]
    exact ⟨fun h => by rw [if_pos (hs.2 h)], fun h => by rw [if_neg (fun hc => h (hs.1 hc))]⟩

/-! ### Copy instances (R147, R220, R222, R223) -/

/-- Slices that no restore brought back take no page again, and stay. -/
theorem touchAgain_of_fresh {ys : List Slice} (h : ∀ y ∈ ys, y.again = false) (c : Nat) (s : State) : touchAgain c ys s = s := by
  unfold touchAgain
  rw [List.filter_eq_nil_iff.2 fun y hy => by rw [h y hy]; exact Bool.false_ne_true]
  rfl

theorem renew_of_fresh {ys : List Slice} (h : ∀ y ∈ ys, y.again = false) (u : State) (t : Team) : ys.map (fun y => y.renew u t) = ys :=
  (List.map_congr_left fun y hy => by rw [Slice.renew, h y hy]; rfl).trans (List.map_id' ys)

theorem instancesStart_hold : InstancesStart := by
  intro team s s1 t t1 n ht hn u xs hpass hfits hrel ht1
  refine ⟨?_, fun h => ⟨touchAgain_of_fresh h _ _, renew_of_fresh h _ _⟩⟩
  have hall : n.slices.all (·.passes u t.ctx) = true := List.all_eq_true.2 hpass
  have h : exec (.cpyInstanceStart team) s = .next (startWaiting s team) := rfl
  rw [h]
  unfold startWaiting
  simp only [ht, hn, u, xs] at hall hfits hrel ⊢
  simp only [hall, hfits, hrel, ht1, Bool.not_true, Bool.false_eq_true, if_false, if_true]

theorem instancesComplete_hold : InstancesComplete := by
  intro id s s0 a ops arrives hf hfin hsteps hrel
  have hr : (if arrives = [] then (s, true) else releaseAll 4 (ops.map (fun o => (o.1, o.2.1))) s) = (s0, true) := by
    rcases hrel with ⟨h, rfl⟩ | ⟨h, h2⟩
    · rw [if_pos h]
    · rw [if_neg h, h2]
  have h : exec (.cpyInstanceComplete id) s = .next (completeInstance s id) := rfl
  rw [h]
  unfold completeInstance
  simp only [hf, hfin, hr, hsteps, decide_true, Bool.and_true, if_true]

/-! ### Agents that complete (R148, R187, R233, R289, R294) -/

theorem opLands_iff (s : State) (core slot op : Nat) : opLands s core slot op = true ↔
    ∃ f, s.front? core slot = some f ∧ ∃ o ∈ f.ops, o.id = op ∧ o.lands ≠ [] := by
  unfold opLands
  cases s.front? core slot with
  | none => simp
  | some f => simp

theorem agentsComplete_hold : AgentsComplete := by
  intro id s a hf hsteps gone
  have h : exec (.agentComplete id) s = .next (finishAgent s id) := rfl
  have hnot : ¬ a.steps ≠ [] := fun hc => hc hsteps
  refine ⟨fun core slot op hfin => ⟨fun hl => ?_, fun hl => ?_⟩, fun core slot op sd hfin hbad => ?_, fun hfin => ?_, fun slot hfin => ?_⟩
  · rw [h, finishAgent, hf]
    simp only [if_neg hnot, hfin, (opLands_iff s core slot op).2 hl, if_true]
  · have hno : ¬ opLands s core slot op = true := fun hc => by
      obtain ⟨f, hfr, o, ho, hid, hne⟩ := (opLands_iff s core slot op).1 hc
      exact hne (hl f hfr o ho hid)
    rw [h, finishAgent, hf]
    simp only [if_neg hnot, hfin, if_neg hno]
  · rw [h, finishAgent, hf]
    simp only [if_neg hnot, hfin, finishPost, hbad, ne_eq, not_true_eq_false, if_false]
  · rw [h, finishAgent, hf]
    rcases hfin with hfin | hfin <;> simp only [if_neg hnot, hfin] <;> rfl
  · rw [h, finishAgent, hf]
    simp only [if_neg hnot, hfin]
    rfl

end Sys2Proof.Machine

/-- Settles O49: agents take their steps one by one, copy instances start and complete, and an agent with no step left completes. -/
theorem agentEvents : Obligations.AgentEvents :=
  ⟨Sys2Proof.Machine.agentSteps_hold, Sys2Proof.Machine.instancesStart_hold, Sys2Proof.Machine.instancesComplete_hold,
    Sys2Proof.Machine.agentsComplete_hold⟩

end

section
/-! The tile words as they issue: the checks that pass, and the commands that enter the queue (R201-R210). -/

open Sys2Proof Sys2Proof.Machine

namespace Sys2Proof.Machine

/-! ### Rows in the scratchpad (R204, R206) -/

/-- The offsets of rows are those of R204, in 64 bits. -/
theorem rowOffs_eq (sa sb : DWord) (rows : Nat) : rowOffs sa sb rows = (List.range rows).map (fun r => (sa.toNat + r * sb.toNat) % 2 ^ 64) := by
  unfold rowOffs
  rw [upFrom_zero]
  refine List.map_congr_left fun r _ => ?_
  rw [BitVec.toNat_add, BitVec.toNat_mul, BitVec.toNat_ofNat, Nat.mod_mul_mod, Nat.add_mod_mod]

/-- A field of an operand word. -/
theorem field_eq (w : DWord) (lo n : Nat) : (w.extractLsb' lo n).toNat = w.toNat / 2 ^ lo % 2 ^ n := by
  rw [BitVec.extractLsb'_toNat, Nat.shiftRight_eq_div_pow]

/-- The stride of a block descriptor (R206). -/
theorem blockStride_eq (w : DWord) : (w.extractLsb' 0 24).setWidth 64 = BitVec.ofNat 64 (w.toNat % 2 ^ 24) := by
  refine BitVec.eq_of_toNat_eq ?_
  rw [BitVec.toNat_setWidth, field_eq, BitVec.toNat_ofNat, Nat.pow_zero, Nat.div_one]

theorem checked_nil (s : State) (x : Ix) (go : State → State) : checked s x [] go = go s := rfl

/-- A move whose rows pass enters the queue with what they register. -/
theorem moveRows_of_pass {x : Ix} {e n : Nat} {offs : List Nat} (h : rowFault x.t x.core e n offs = none) (k : Tok) (c : TileCmd) (load : Bool)
    (place : Nat → Nat) (s : State) : moveRows x k c e n offs load place s = enqueue x k c (Claims.rowUse x n offs load place) s := by
  unfold moveRows
  rw [h]
  rfl

/-! ### TLD, TST and TQLD (R204) -/

theorem tileMove_rows {i : UInstr} {s s1 : State} {x : Ix} (h : UReady i s x s1) {kind : Nat} (hk : kind ≠ 9) (a b : SReg) (k : Tok) (n : BitVec 5)
    (hsh : shapeUsable (queuedShape (sideOf s1 x) n.toNat) = true)
    (hrows : rowFault x.t x.core (elemBytes (shEw (queuedShape (sideOf s1 x) n.toNat))) (rowBytes (queuedShape (sideOf s1 x) n.toNat))
      (rowOffs (sval s1 x a) (sval s1 x b) (shRows (queuedShape (sideOf s1 x) n.toNat))) = none) :
    tileMove i kind a b k n s = .next (uEnd x (enqueue x k (Claims.command x kind n (sval s1 x a) (sval s1 x b))
      (Claims.rowUse x (rowBytes (queuedShape (sideOf s1 x) n.toNat))
        (rowOffs (sval s1 x a) (sval s1 x b) (shRows (queuedShape (sideOf s1 x) n.toNat))) (decide (kind = 0)) (fun r => 256 * r)) s1)) := by
  unfold tileMove
  rw [uset_ready h]
  simp only [hsh, if_true, hk, if_false, checked_nil, moveRows_of_pass hrows]
  rfl

theorem tileMove_companion {i : UInstr} {s s1 : State} {x : Ix} (h : UReady i s x s1) (a b : SReg) (k : Tok) (n : BitVec 5)
    (hsh : shapeUsable (queuedShape (sideOf s1 x) n.toNat) = true)
    (hrows : rowFault x.t x.core 64 64 (rowOffs (sval s1 x a) 64 (shRows (queuedShape (sideOf s1 x) n.toNat))) = none) :
    tileMove i 9 a b k n s = .next (uEnd x (enqueue x k (Claims.command x 9 n (sval s1 x a) 64)
      (Claims.rowUse x 64 (rowOffs (sval s1 x a) 64 (shRows (queuedShape (sideOf s1 x) n.toNat))) true (fun r => 64 * r)) s1)) := by
  unfold tileMove
  rw [uset_ready h]
  simp only [hsh, if_true, checked_nil, moveRows_of_pass hrows]
  rfl

/-! ### ACCLD and ACCST (R206) -/

theorem accMove_rows {i : UInstr} {s s1 : State} {x : Ix} (h : UReady i s x s1) (kind : Nat) (a b : SReg) (k : Tok) (n : BitVec 5)
    {e : Nat} (he : e = if accWide n.toNat then 8 else 4) {w : DWord} (hw : w = sval s1 x b) (hbad : blockBad w e = false)
    (hrows : rowFault x.t x.core e (e * (w.toNat / 2 ^ 31 % 2 ^ 7))
      (rowOffs (sval s1 x a) (BitVec.ofNat 64 (w.toNat % 2 ^ 24)) (w.toNat / 2 ^ 24 % 2 ^ 7)) = none) :
    accMove i kind a b k n s = .next (uEnd x (enqueue x k (Claims.command x kind n (sval s1 x a) w)
      (Claims.rowUse x (e * (w.toNat / 2 ^ 31 % 2 ^ 7))
        (rowOffs (sval s1 x a) (BitVec.ofNat 64 (w.toNat % 2 ^ 24)) (w.toNat / 2 ^ 24 % 2 ^ 7)) (decide (kind = 3)) (fun r => e * 64 * r)) s1)) := by
  unfold accMove
  rw [uset_ready h]
  simp only [← he, ← hw, hbad, Bool.false_eq_true, if_false, checked_nil, field_eq, blockStride_eq, moveRows_of_pass hrows]
  rfl

theorem tileMoves_hold : Claims.TileMoves := by
  intro i kind n a b k hform s s1 x rows sh w hready hsh hw
  subst hsh hw
  have hstride : (sval s1 x b).toNat % 2 ^ 24 = (BitVec.ofNat 64 ((sval s1 x b).toNat % 2 ^ 24)).toNat := by
    rw [BitVec.toNat_ofNat]
    omega
  unfold Claims.moveForm at hform
  split at hform
  case h_1 | h_2 =>
    cases hform
    refine ⟨fun _ hpass => ?_, fun h => absurd h (by decide), fun h => absurd h (by decide)⟩
    obtain ⟨hu, hr, hf⟩ := hpass
    rw [← rowOffs_eq] at hr
    subst hr
    exact tileMove_rows hready (by decide) a b k n hu hf
  case h_3 | h_4 =>
    cases hform
    refine ⟨fun h => absurd h (by decide), fun h => absurd h (by decide), fun _ hpass => ?_⟩
    obtain ⟨hbad, hr, hf⟩ := hpass
    rw [hstride, ← rowOffs_eq] at hr
    subst hr
    exact accMove_rows hready _ a b k n rfl rfl hbad hf
  case h_5 =>
    cases hform
    refine ⟨fun h => absurd h (by decide), fun _ hpass => ?_, fun h => absurd h (by decide)⟩
    obtain ⟨hu, hr, hf⟩ := hpass
    obtain rfl : rows = rowOffs (sval s1 x a) 64 _ := hr.trans (rowOffs_eq _ 64 _).symm
    exact tileMove_companion hready a 0 k n hu hf
  case h_6 => cases hform

/-! ### TZERO, ACCZ, MOVSH, TCVT and TSPK (R203, R205, R207, R210) -/

theorem tileOperations_hold : Claims.TileOperations := by
  intro s s1 x k n
  refine ⟨fun h => ?_, fun h => ?_, fun a h hlow hsh => ?_, fun a h hc => ?_, fun a g h hg hl hc => ?_, fun a h hg hl hc => ?_⟩
  · rw [exec_tzero, execTzero, tileZero, uset_ready h]
    rfl
  · rw [exec_accz, execAccz, tileZero, uset_ready h]
    rfl
  · have hupper : (sval s1 x a).extractLsb' 32 32 = 0 := BitVec.eq_of_toNat_eq (by
      rw [field_eq, Nat.div_eq_of_lt hlow]
      rfl)
    rw [exec_movsh, execMovsh, uset_ready h]
    simp only [hupper, hsh, if_true, List.nil_append, checked_nil]
    rfl
  · rw [exec_tspk, execTspk, uset_ready h]
    simp only [hc, checked_nil]
    rfl
  · rw [exec_tcvt, execTcvt, uset_ready h]
    simp only [hl, hc, checked_nil, hg]
    rfl
  · rw [exec_tcvt, execTcvt, uset_ready h]
    simp only [hl, hc, checked_nil, hg]
    rfl

end Sys2Proof.Machine
end

section
/-! The queues of the tile unit: what a command that needs no entry leaves as it enters, and the first command as it completes
(R201, R216). -/

open Sys2Proof Sys2Proof.Machine

namespace Sys2Proof.Machine

/-! ### Sides of a team -/

section
variable {t : Team} {core : Nat} (h : ∃ d ∈ t.sides, d.core = core)
include h

theorem Team.find_side : ∃ d, t.sides.find? (fun d => d.core = core) = some d ∧ d.core = core := by
  cases hf : t.sides.find? (fun d => d.core = core) with
  | none =>
    obtain ⟨d, hd, hc⟩ := h
    exact absurd (decide_eq_true hc) (List.find?_eq_none.1 hf d hd)
  | some d => exact ⟨d, rfl, of_decide_eq_true (List.find?_some (p := fun d : Side => decide (d.core = core)) hf)⟩

theorem Team.side_core : (t.side core).core = core := by
  obtain ⟨d, hf, hc⟩ := Team.find_side h
  rw [Team.side, hf]
  exact hc

theorem Team.side_setSide {d : Side} (hd : d.core = core) : (t.setSide d).side core = d := by
  obtain ⟨d0, hf, -⟩ := Team.find_side h
  subst hd
  have := find_replaced (q := fun x : Side => decide (x.core = d.core)) (a := d) hf (fun _ => rfl) (by simp)
  simp only [decide_eq_true_eq] at this
  rw [Team.side, Team.setSide, this]
  rfl

theorem Team.setSide_has {d : Side} (hd : d.core = core) : ∃ x ∈ (t.setSide d).sides, x.core = core := by
  obtain ⟨x, hx, hc⟩ := h
  exact ⟨d, List.mem_map.2 ⟨x, hx, if_pos (hc.trans hd.symm)⟩, hd⟩

end

@[simp] theorem Team.setSide_id (t : Team) (d : Side) : (t.setSide d).id = t.id := rfl

/-! ### Stores that take their bytes (R201) -/

/-- A command but for whether it has taken its bytes. -/
def TileCmd.unprimed (c : TileCmd) : TileCmd := { c with primed := false }

/-- A store that takes its bytes changes its agent alone. -/
theorem primeStore_eq (s : State) (t : Team) (core : Nat) (d : Side) (c : TileCmd) : ∃ as, primeStore s t core d c = { s with agents := as } := by
  unfold primeStore
  cases c.agentIn s with
  | none => exact ⟨_, rfl⟩
  | some a => exact ⟨_, rfl⟩

theorem primeFrom_eq (t : Team) (core : Nat) (cs : List TileCmd) (v : TileView) (s : State) :
    (∃ as, (primeFrom t core cs v s).1 = { s with agents := as }) ∧ (primeFrom t core cs v s).2.map TileCmd.unprimed = cs.map TileCmd.unprimed := by
  induction cs generalizing v s with
  | nil => exact ⟨⟨_, rfl⟩, rfl⟩
  | cons c cs ih =>
    rw [primeFrom]
    dsimp only
    generalize (c.stores && !c.primed && !(c.regs.1.any v.waiting.contains)) = now
    have hs : ∃ as, (if now then primeStore s t core v.side c else s) = { s with agents := as } := by
      split
      · exact primeStore_eq s t core v.side c
      · exact ⟨_, rfl⟩
    obtain ⟨as, hs⟩ := hs
    obtain ⟨⟨bs, hb⟩, hq⟩ := ih (v.after s c) (if now then primeStore s t core v.side c else s)
    refine ⟨⟨bs, by rw [hb, hs]⟩, ?_⟩
    rw [List.map_cons, List.map_cons, hq]
    rfl

/-- A queue whose stores take their bytes keeps its commands, and its team the rest. -/
theorem primeStores_keeps {s : State} {id core : Nat} {t : Team} (ht : s.team? id = some t) (hd : ∃ d ∈ t.sides, d.core = core) :
    (∀ c n, (primeStores s id core).front? c n = s.front? c n) ∧
    ∃ t1 q, (primeStores s id core).team? id = some t1 ∧ t1.side core = { t.side core with queue := q } ∧
      q.map TileCmd.unprimed = (t.side core).queue.map TileCmd.unprimed := by
  unfold primeStores
  simp only [ht]
  split
  · exact ⟨fun _ _ => rfl, t, _, ht, rfl, rfl⟩
  · obtain ⟨⟨as, hs⟩, hq⟩ := primeFrom_eq t core (t.side core).queue { side := t.side core } s
    rw [hs]
    exact ⟨fun _ _ => rfl, _, _, State.team?_setTeam (t0 := t) ht ((Team.setSide_id t _).trans (State.team?_id ht)), Team.side_setSide hd (Team.side_core hd), hq⟩

/-! ### A command that needs no entry -/

theorem State.front?_setFront {s : State} {core slot : Nat} {f0 : Front} (h : s.front? core slot = some f0) (f : Front) :
    (s.setFront core slot f).front? core slot = some f := by
  unfold State.front? at h
  by_cases hs : slot < 128
  · rw [if_pos hs] at h
    obtain ⟨g, hg, -⟩ := Option.map_eq_some_iff.1 h
    rw [State.setFront_of_group hs hg, State.front?_of_group hs (State.group?_setGroup_of hg _)]
  · rw [if_neg hs] at h
    obtain ⟨l, hl, -⟩ := Option.map_eq_some_iff.1 h
    rw [State.setFront_of_lantern hs hl, State.front?_of_lantern hs (State.lantern?_setLantern_of hl { l with fe := f } rfl rfl)]

/-- A unit that waits no longer keeps its front. -/
theorem leaveLocks_keeps {s : State} {x : Ix} (hx : x.lan = true ↔ ¬ x.slot < 128) :
    (leaveLocks s x).front? x.core x.slot = s.front? x.core x.slot ∧ (leaveLocks s x).ids = s.ids ∧ (leaveLocks s x).teams = s.teams := by
  unfold leaveLocks
  by_cases hl : x.lan = true
  · rw [if_pos hl]
    cases h : s.lantern? x.core x.slot with
    | none => exact ⟨rfl, rfl, rfl⟩
    | some l =>
      have hs := hx.1 hl
      refine ⟨?_, rfl, rfl⟩
      exact (State.front?_of_lantern hs (State.lantern?_setLantern_of h { l with waiting := .none } rfl rfl)).trans (State.front?_of_lantern hs h).symm
  · rw [if_neg hl]
    cases h : s.group? x.core x.slot with
    | none => exact ⟨rfl, rfl, rfl⟩
    | some g =>
      have hs : x.slot < 128 := by
        by_contra hs
        exact hl (hx.2 hs)
      refine ⟨?_, rfl, rfl⟩
      exact (State.front?_of_group hs (State.group?_setGroup_of h (g.upd _ _))).trans (State.front?_of_group hs h).symm

/-- An operation that is still owed stays in its front. -/
theorem Front.finish_owed {f : Front} {op : LongOp} (hfresh : ∀ o ∈ f.ops, o.id ≠ op.id) (howed : op.owed = true) :
    (f.start op).finish op.id = f.start op := by
  have hfind : (f.ops ++ [op]).find? (fun o => o.id = op.id) = some op := by
    rw [List.find?_append, List.find?_eq_none.2 fun o ho => by simpa using hfresh o ho]
    simp
  unfold Front.finish Front.start
  simp only [hfind, howed]
  simp

/-- A unit's operation that is still owed, counted on its token. -/
theorem startOp_front {s : State} {core slot : Nat} {f : Front} (h : s.front? core slot = some f) {op : LongOp}
    (hfresh : ∀ o ∈ f.ops, o.id ≠ op.id) (howed : op.owed = true) : (startOp s core slot op).front? core slot = some (f.start op) := by
  unfold startOp
  rw [h]
  exact (State.front?_setFront h _).trans (congrArg some (Front.finish_owed hfresh howed))

/-- The state in which the operation of a command has started that needs no entry. -/
def startedFor (x : Ix) (k : Tok) (s : State) : State :=
  let s1 := leaveLocks (drainQueue s x.core x.slot) x
  startOp s1 x.core x.slot { id := s1.ids, tok := k, inH := x.h, lanes := x.act, owed := true, scope := 1 }

/-- A command of an operation, last in the queue of a side. -/
def Side.queued (d : Side) (c : TileCmd) (id slot op : Nat) : Side :=
  { d with queue := d.queue ++ [{ c with id := id, slot := slot, op := op, agent := none }], started := d.started + 1 }

theorem enqueue_of_no_entry {x : Ix} {k : Tok} {s : State} {t : Team} (h : (startedFor x k s).team? x.t.id = some t) (c : TileCmd) :
    enqueue x k c {} s = primeStores ((startedFor x k s).setTeam (t.setSide ((t.side x.core).queued c (startedFor x k s).ids x.slot
      (leaveLocks (drainQueue s x.core x.slot) x).ids))).fresh x.t.id x.core := by
  have hlock : ¬(!mayLock s x.core (ticketOf s x) 0) = true := by
    unfold mayLock
    simp
  unfold startedFor at h ⊢
  unfold enqueue
  exact (if_neg hlock).trans (by simp only [List.any_nil, Bool.false_eq_true, if_false, if_true, h]; rfl)

theorem tileCommandQueues_hold : Claims.TileCommandQueues := by
  intro x k c s t f ht hd hf hfresh hlan unprimed op
  obtain ⟨hfront, hids, hteams⟩ := leaveLocks_keeps (s := drainQueue s x.core x.slot) hlan
  have hs : startedFor x k s = startOp (leaveLocks (drainQueue s x.core x.slot) x) x.core x.slot op := by
    rw [startedFor, hids]
  have hop : (startedFor x k s).front? x.core x.slot = some (f.start op) := hs ▸ startOp_front (hfront.trans hf) hfresh rfl
  have hteam : (startedFor x k s).team? x.t.id = some t :=
    (State.team?_of_teams (hs ▸ (startOp_teams _ _ _ _).trans hteams) _).trans (team?_drainQueue ht)
  have hcore : ((t.side x.core).queued c (startedFor x k s).ids x.slot op.id).core = x.core := Team.side_core hd
  have hlast : (t.setSide ((t.side x.core).queued c (startedFor x k s).ids x.slot op.id)).side x.core =
      (t.side x.core).queued c (startedFor x k s).ids x.slot op.id := Team.side_setSide hd hcore
  rw [enqueue_of_no_entry hteam, hids]
  obtain ⟨hkeeps, t1, q, ht1, hside, hq⟩ := primeStores_keeps
    (s := ((startedFor x k s).setTeam (t.setSide ((t.side x.core).queued c (startedFor x k s).ids x.slot op.id))).fresh)
    (State.team?_setTeam hteam ((Team.setSide_id t _).trans (State.team?_id ht))) (Team.setSide_has hd hcore)
  rw [hlast] at hside hq
  refine ⟨t1, f.start op, (startedFor x k s).ids, ht1, (hkeeps _ _).trans hop, ?_, rfl, rfl, rfl, ?_⟩
  · rw [hside]
    exact hq.trans (List.map_append ..)
  · rw [hside]
    exact ⟨rfl, rfl, rfl, rfl⟩

/-! ### The first command of a queue completes (R216) -/

theorem tileCommandsComplete_hold : Claims.TileCommandsComplete := by
  intro team half s s0 t c rest d1 fl bad ht core d ag hqueue hready hplain harrive hrun s1 s2 s3
  have hrun' : runCmd d c (c.agentIn s0) = (d1, fl, bad) := hrun
  have hrel : (if (decide (c.kind = 10) && blkArrive c.block) = true then release s core c.slot 4 else (s, true)) = (s0, true) := by
    by_cases h : c.kind = 10 ∧ blkArrive c.block = true
    · rw [if_pos (by simpa using h), harrive h]
    · rw [if_neg (by simpa using h), hplain h]
  rw [exec_tileCommandComplete, execTileCommandComplete, ht]
  refine congrArg _ ?_
  unfold completeHead
  simp only [ht]
  rw [show (t.side (t.core + half)).queue = c :: rest from hqueue]
  dsimp only
  rw [if_pos hready, hrel]
  simp only [Bool.not_true, Bool.false_eq_true, if_false]
  rw [show t.side (t.core + half) = d from rfl, hrun']
  simp only [Bool.and_eq_true, decide_eq_true_eq]
  rfl

end Sys2Proof.Machine
end

section
/-! Bytes and elements that go into the registers of a side, and out of them, row by row (R198, R204, R206). -/

open Sys2Proof Sys2Proof.Machine Sys2Proof.Claims

namespace Sys2Proof.Machine

/-! ### Bytes of a range -/

theorem Memory.read_append (m : Memory) (a n k : Nat) : m.read a (n + k) = m.read a n ++ m.read (a + n) k := by
  induction n generalizing a with
  | zero => rw [Nat.zero_add, Nat.add_zero]; rfl
  | succ n ih =>
    rw [Nat.add_right_comm n 1 k, Memory.read, Memory.read, ih, List.cons_append, Nat.add_right_comm a 1 n]
    rfl

theorem Memory.getD_read (m : Memory) {a n k : Nat} (h : k < n) : (m.read a n).getD k 0 = m.get (a + k) := by
  induction n generalizing a k with
  | zero => omega
  | succ n ih =>
    cases k with
    | zero => rfl
    | succ k => rw [Memory.read, List.getD_cons_succ, ih (by omega), Nat.add_right_comm, Nat.add_assoc]

theorem natOf_append (xs ys : List Byte) : natOf (xs ++ ys) = natOf xs + 256 ^ xs.length * natOf ys := by
  induction xs with
  | nil => rw [List.nil_append, List.length_nil, Nat.pow_zero, Nat.one_mul, natOf, Nat.zero_add]
  | cons x xs ih => rw [List.cons_append, natOf, natOf, ih, List.length_cons, Nat.pow_succ', Nat.mul_add, Nat.add_assoc, Nat.mul_assoc]

/-! ### Rows put at their places in turn -/

/-- Rows of bytes go into a register, each at its place. -/
def Block.putRows (b : Block) (pos : Nat → Nat) (bytes : Nat → List Byte) (bad : Nat → List Nat) (m : Nat) : Block :=
  (upFrom 0 m).foldl (fun t r => t.put (pos r) (bytes r) (bad r)) b

section
variable {b : Block} {pos : Nat → Nat} {bytes : Nat → List Byte} {bad : Nat → List Nat} {m : Nat}

theorem Block.putRows_succ : b.putRows pos bytes bad (m + 1) = (b.putRows pos bytes bad m).put (pos m) (bytes m) (bad m) := by
  unfold Block.putRows
  rw [upFrom_zero, upFrom_zero, List.range_succ, List.foldl_append]
  rfl

theorem Block.putRows_wf (hb : b.data.wf = true) (m : Nat) : (b.putRows pos bytes bad m).data.wf = true := by
  induction m with
  | zero => exact hb
  | succ m ih => rw [Block.putRows_succ]; exact Memory.wf_write ih _ _

/-- A byte of no row stays. -/
theorem Block.get_putRows_outside (hb : b.data.wf = true) {q : Nat} (h : ∀ i < m, ¬(pos i ≤ q ∧ q < pos i + (bytes i).length)) :
    (b.putRows pos bytes bad m).data.get q = b.data.get q := by
  induction m with
  | zero => rfl
  | succ m ih =>
    rw [Block.putRows_succ, Block.put_data, Memory.get_write (Block.putRows_wf hb m), if_neg (h m m.lt_succ_self), ih fun i hi => h i (hi.trans m.lt_succ_self)]

/-- A byte of several rows is that of the highest of them. -/
theorem Block.get_putRows_highest (hb : b.data.wf = true) {q i : Nat} (hi : i < m) (hq : pos i ≤ q ∧ q < pos i + (bytes i).length)
    (hlast : ∀ i2, i < i2 → i2 < m → ¬(pos i2 ≤ q ∧ q < pos i2 + (bytes i2).length)) :
    (b.putRows pos bytes bad m).data.get q = (bytes i).getD (q - pos i) 0 := by
  induction m with
  | zero => omega
  | succ m ih =>
    rw [Block.putRows_succ, Block.put_data, Memory.get_write (Block.putRows_wf hb m)]
    by_cases him : i = m
    · rw [← him, if_pos hq]
    · rw [if_neg (hlast m (by omega) m.lt_succ_self), ih (by omega) fun i2 h1 h2 => hlast i2 h1 (h2.trans m.lt_succ_self)]

theorem Block.mem_poison_put {p place : Nat} {bs : List Byte} {is : List Nat} :
    p ∈ (b.put place bs is).poison ↔ p ∈ is ∨ p ∈ b.poison ∧ ¬(place ≤ p ∧ p < place + bs.length) := by
  unfold Block.put
  rw [mem_foldl_insertNat, List.mem_filter, or_comm]
  refine or_congr_right (and_congr_right fun _ => ?_)
  rw [Bool.or_eq_true, decide_eq_true_eq, decide_eq_true_eq]
  omega

/-- Places of rows of `n` bytes that begin `size` bytes apart. -/
theorem row_place {size n i k r : Nat} (hn : n ≤ size) (hk : k < size) : size * r ≤ size * i + k ∧ size * i + k < size * r + n ↔ r = i ∧ k < n := by
  rcases Nat.lt_trichotomy r i with h | rfl | h
  · have := Nat.mul_le_mul_left size (Nat.succ_le_of_lt h)
    rw [Nat.mul_succ] at this
    omega
  · omega
  · have := Nat.mul_le_mul_left size (Nat.succ_le_of_lt h)
    rw [Nat.mul_succ] at this
    omega

variable {size n : Nat} (hpos : ∀ r, pos r = size * r) (hlen : ∀ r, (bytes r).length = n) (hn : n ≤ size)
include hpos hlen hn

/-- Rows that begin `size` bytes apart keep what lies between them. -/
theorem Block.get_putRows (hb : b.data.wf = true) {i k : Nat} (hk : k < size) :
    (b.putRows pos bytes bad m).data.get (size * i + k) = if i < m ∧ k < n then (bytes i).getD k 0 else b.data.get (size * i + k) := by
  have hrow (r : Nat) : pos r ≤ size * i + k ∧ size * i + k < pos r + (bytes r).length ↔ r = i ∧ k < n := by
    rw [hpos, hlen]
    exact row_place hn hk
  by_cases h : i < m ∧ k < n
  · rw [if_pos h, Block.get_putRows_highest hb h.1 ((hrow i).2 ⟨rfl, h.2⟩) fun i2 h1 _ hc => h1.ne' ((hrow i2).1 hc).1, hpos, Nat.add_sub_cancel_left]
  · rw [if_neg h, Block.get_putRows_outside hb fun r hr hc => h ⟨((hrow r).1 hc).1 ▸ hr, ((hrow r).1 hc).2⟩]

theorem Block.mem_poison_putRows (hbad : ∀ r p, p ∈ bad r → size * r ≤ p ∧ p < size * r + n) {i k : Nat} (hk : k < size) :
    size * i + k ∈ (b.putRows pos bytes bad m).poison ↔ if i < m ∧ k < n then size * i + k ∈ bad i else size * i + k ∈ b.poison := by
  have hown (r : Nat) (h : size * i + k ∈ bad r) : r = i ∧ k < n := (row_place hn hk).1 (hbad r _ h)
  induction m with
  | zero => rw [if_neg (by omega)]; rfl
  | succ m ih =>
    rw [Block.putRows_succ, Block.mem_poison_put, hpos, hlen, row_place hn hk, propext ih]
    by_cases him : m = i ∧ k < n
    · obtain ⟨rfl, hkn⟩ := him
      rw [if_pos (show m < m + 1 ∧ k < n from ⟨m.lt_succ_self, hkn⟩)]
      exact ⟨fun h => h.resolve_right fun hc => hc.2 ⟨rfl, hkn⟩, .inl⟩
    · have hlt : i < m + 1 ∧ k < n ↔ i < m ∧ k < n := by omega
      simp only [hlt]
      exact ⟨fun h => (h.resolve_left fun hb => him (hown m hb)).1, fun h => .inr ⟨h, him⟩⟩

end

/-! ### Registers that are left alone -/

theorem Side.comp_setComp {d : Side} {n : Nat} (b : Block) (h : n < d.comps.length) : (d.setComp n b).comp n = b := by
  simp [Side.comp, Side.setComp, List.getD_eq_getElem?_getD, h]

theorem Side.comp_setComp_other (d : Side) (b : Block) {n m : Nat} (h : m ≠ n) : (d.setComp n b).comp m = d.comp m := by
  simp [Side.comp, Side.setComp, List.getD_eq_getElem?_getD, List.getElem?_set_ne h.symm]

theorem keepsRegs_setTile (d : Side) (n : Nat) (b : Block) : KeepsRegs d (d.setTile n b) [n] [] [] where
  tiles _ hm := Side.tile_setTile_other d b (fun e => hm (List.mem_singleton.2 e))
  comps _ _ := rfl
  accs _ _ := rfl
  shapes := rfl

theorem keepsRegs_setComp (d : Side) (n : Nat) (b : Block) : KeepsRegs d (d.setComp n b) [] [n] [] where
  tiles _ _ := rfl
  comps _ hm := Side.comp_setComp_other d b (fun e => hm (List.mem_singleton.2 e))
  accs _ _ := rfl
  shapes := rfl

theorem keepsRegs_setAcc (d : Side) (n : Nat) (b : Block) : KeepsRegs d (d.setAcc n b) [] [] [n] where
  tiles _ _ := rfl
  comps _ _ := rfl
  accs _ hm := Side.acc_setAcc_other d b (fun e => hm (List.mem_singleton.2 e))
  shapes := rfl

theorem keepsRegs_setPair (d : Side) (n : Nat) (b c : Block) : KeepsRegs d ((d.setAcc n b).setAcc (n + 1) c) [] [] [n, n + 1] where
  tiles _ _ := rfl
  comps _ _ := rfl
  accs _ hm := by
    rw [List.mem_pair, not_or] at hm
    rw [Side.acc_setAcc_other _ _ hm.2, Side.acc_setAcc_other _ _ hm.1]
  shapes := rfl

end Sys2Proof.Machine
end

section
/-! What TZERO, ACCZ, MOVSH and a dense MXGO do as their commands complete (R205, R215). -/

open Sys2Proof Sys2Proof.Machine Sys2Proof.Claims

namespace Sys2Proof.Machine

/-! ### The commands that empty a register or give a shape (R205) -/

theorem runCmd_tzero (d : Side) {c : TileCmd} (a : Option Agent) (h : c.kind = 2) : runCmd d c a = (d.setTile c.n {}, 0, false) := by
  simp only [runCmd, h]

theorem runCmd_movsh (d : Side) {c : TileCmd} (a : Option Agent) (h : c.kind = 6) :
    runCmd d c a = ({ d with shapes := d.shapes.set c.n (c.a.setWidth 32) }, 0, false) := by
  simp only [runCmd, h]

/-- The accumulators of a number with its width bit: one, or a pair (R22). -/
def namedAccs (n : Nat) : List Nat := if n / 16 % 2 = 1 then [n % 16, n % 16 + 1] else [n % 16]

theorem runCmd_accz {d : Side} {c : TileCmd} (a : Option Agent) (h : c.kind = 5) :
    KeepsRegs d (runCmd d c a).1 [] [] (namedAccs c.n) ∧ (∀ m ∈ namedAccs c.n, m < d.accs.length → (runCmd d c a).1.acc m = {}) ∧
      (runCmd d c a).2 = (0, false) := by
  have hrun : runCmd d c a =
      (if c.n / 16 % 2 = 1 then (d.setAcc (c.n % 16) {}).setAcc (c.n % 16 + 1) {} else d.setAcc (c.n % 16) {}, 0, false) := by
    simp only [runCmd, h, accWide, accNum, decide_eq_true_eq]
  rw [hrun, namedAccs]
  by_cases hw : c.n / 16 % 2 = 1
  · rw [if_pos hw, if_pos hw]
    refine ⟨keepsRegs_setPair d _ {} {}, fun m hm hlen => ?_, rfl⟩
    rcases List.mem_pair.1 hm with rfl | rfl
    · exact (Side.acc_setAcc_other _ {} (Nat.succ_ne_self _).symm).trans (Side.acc_setAcc {} hlen)
    · exact Side.acc_setAcc {} (by rwa [Side.accs_setAcc_length])
  · rw [if_neg hw, if_neg hw]
    refine ⟨keepsRegs_setAcc d _ {}, fun m hm hlen => ?_, rfl⟩
    obtain rfl := List.mem_singleton.1 hm
    exact Side.acc_setAcc {} hlen

/-! ### MXGO (R215) -/

theorem runCmd_mxgo_of_noRow (d : Side) {c : TileCmd} (a : Option Agent) (h : c.kind = 10) (hm : blkM c.block = 0) :
    runCmd d c a = (d, 0, false) := by
  simp only [runCmd, h, runMxgo_of_noRow d hm]

/-- An element of one accumulator is the product's in its corner, and stays elsewhere. -/
theorem accElem_putProduct_single {d : Side} {wide : Prop} [Decidable wide] {cid m n : Nat} {bad : Bool} {elem : Nat × Nat → Nat} (hw : ¬wide)
    (hcid : cid < d.accs.length) (hwf : (d.acc cid).data.wf = true) (hn : n ≤ 64) {i j : Nat} (hj : j < 64) :
    accElem (d.putProduct wide cid m n bad elem) false cid i j = if i < m ∧ j < n then elem (i, j) % 2 ^ 32 else accElem d false cid i j := by
  have hword := accWord_corner (m := m) (i := i) hn hwf (accCorner_data m n 0 bad elem (d.acc cid)) hj
  rw [Nat.mul_zero, Nat.pow_zero, Nat.div_one] at hword
  unfold accElem Side.putProduct
  simp only [if_neg hw, Bool.false_eq_true, if_false, Nat.add_zero]
  rw [Side.acc_setAcc _ hcid, hword]

/-- Over two dense operands an element of R215 is the dot product of R113. -/
theorem productElem_dense {d : Side} {c : TileCmd} (hop : blkOp c.block = 0) (hcf : fwCf (c.b.setWidth 32) ≠ 0) (i j : Nat) :
    let b := c.block
    let w : Word := c.b.setWidth 32
    let wa := ewBits (fmtEw (fwAf w))
    let wb := ewBits (fmtEw (fwBf w))
    productElem d c i j = dotFloat (fmtOf (fwAf w)) (fmtOf (fwBf w)) (if fwAf w = 1 then 8 else if wa = 8 ∨ wb = 8 then 64 else 32)
      (if blkZa b then 0 else accElem d false (blkCid b) i j)
      ((List.range (blkK b)).map (fun k =>
        (decodeF (fmtOf (fwAf w)) (tileElem (d.tile (blkAid b)) wa i k), decodeF (fmtOf (fwBf w)) (tileElem (d.tile (blkBid b)) wb j k)))) := by
  intro b w wa wb
  have hdense : ¬2 ≤ blkOp c.block := by omega
  have heven : blkOp c.block % 2 = 0 := by rw [hop]
  unfold productElem
  simp only [if_neg hdense, heven, hcf, decide_false, if_true, Option.map_some, Option.getD_some]
  rfl

end Sys2Proof.Machine

namespace Sys2Proof.Claims

theorem tileCommandResults_hold : TileCommandResults := by
  intro d c a
  refine ⟨runCmd_tzero d a, runCmd_movsh d a, runCmd_accz a, runCmd_mxgo_of_noRow d a, ?_⟩
  intro b w fa fb wa wb hkind hop hbyp hcf hM hN hcid hwf i j _ hj
  by_cases hm : blkM b = 0
  · rw [runCmd_mxgo_of_noRow d a hkind hm, if_neg (by omega)]
  · obtain ⟨bad, elem, hput, helem⟩ := runMxgo_product (d := d) (c := c) hm fun hodd => by rw [show blkOp c.block = 0 from hop] at hodd; omega
    have hd : bypassed d c = d := by
      unfold bypassed
      rw [show blkByp c.block = false from hbyp]
      rfl
    rw [hd] at hput helem
    rw [runCmd_mxgo d a hkind, hput, accElem_putProduct_single hcf hcid hwf hN hj]
    by_cases hin : i < blkM b ∧ j < blkN b
    · rw [if_pos hin, if_pos hin, helem i j hin.1 hin.2]
      exact congrArg (· % 2 ^ 32) (productElem_dense hop hcf i j)
    · rw [if_neg hin, if_neg hin]

end Sys2Proof.Claims
end

section
/-! What a load does as its command completes (R204, R206). -/

open Sys2Proof Sys2Proof.Machine Sys2Proof.Claims

namespace Sys2Proof.Machine

/-! ### Shapes (R23, R200) -/

/-- What a usable shape keeps to: its limits, and those of a bitmap-sparse layout. -/
theorem shape_bounds {sh : Word} (h : shapeUsable sh = true) : shRows sh ≤ 64 ∧ shCols sh * ewBits (shEw sh) ≤ 2048 ∧
    (shLay sh = true → (shEw sh = 1 ∨ shEw sh = 2) ∧ shCols sh % 64 = 0) := by
  simp only [shapeUsable, shapeValid, Bool.and_eq_true, Bool.or_eq_true, Bool.not_eq_true', decide_eq_true_eq] at h
  obtain ⟨⟨⟨⟨⟨⟨-, -⟩, hrows⟩, -⟩, hcols⟩, -⟩, hlay⟩ := h
  exact ⟨hrows, hcols, fun hl => hlay.resolve_left (by rw [hl]; exact Bool.noConfusion)⟩

/-- A stored row fits into a row of a tile. -/
theorem rowBytes_le {sh : Word} (h : shapeUsable sh = true) : rowBytes sh ≤ 256 := by
  obtain ⟨-, hcols, hlay⟩ := shape_bounds h
  unfold rowBytes
  by_cases hl : shLay sh = true
  · have hslot : slotSize sh ≤ 32 := by
      unfold slotSize
      split <;> omega
    obtain ⟨hew, hmod⟩ := hlay hl
    have hstored : shCols sh / 64 * slotSize sh * ewBits (shEw sh) ≤ shCols sh * ewBits (shEw sh) :=
      Nat.mul_le_mul_right _ ((Nat.mul_le_mul_left _ (hslot.trans (by decide))).trans (Nat.div_mul_le_self _ 64))
    rw [if_pos hl]
    omega
  · rw [if_neg hl]
    omega

/-! ### TLD and TQLD (R204) -/

/-- The poisoned places of an agent's bytes from `p` on. -/
def Agent.badIn (a : Agent) (p n : Nat) : List Nat := a.bad.filter (fun i => p ≤ i && i < p + n)

theorem Agent.mem_badIn {a : Agent} {p n i : Nat} : i ∈ a.badIn p n ↔ i ∈ a.bad ∧ p ≤ i ∧ i < p + n := by
  rw [Agent.badIn, List.mem_filter, Bool.and_eq_true, decide_eq_true_eq, decide_eq_true_eq]

/-- A register with the rows that an agent has read, `size` bytes apart. -/
def Block.loadRows (b : Block) (a : Agent) (size n rows : Nat) : Block :=
  b.putRows (fun r => size * r) (fun r => a.buf.read (size * r) n) (fun r => a.badIn (size * r) n) rows

theorem Block.get_loadRows {b : Block} (a : Agent) {size n rows : Nat} (hn : n ≤ size) (hb : b.data.wf = true) {i k : Nat} (hk : k < size) :
    (b.loadRows a size n rows).data.get (size * i + k) = if i < rows ∧ k < n then a.buf.get (size * i + k) else b.data.get (size * i + k) := by
  refine (Block.get_putRows (fun _ => rfl) (fun _ => read_length _ _ _) hn hb hk).trans ?_
  by_cases h : i < rows ∧ k < n
  · rw [if_pos h, if_pos h, Memory.getD_read _ h.2]
  · rw [if_neg h, if_neg h]

theorem Block.mem_poison_loadRows {b : Block} (a : Agent) {size n rows : Nat} (hn : n ≤ size) {i k : Nat} (hk : k < size) :
    size * i + k ∈ (b.loadRows a size n rows).poison ↔ if i < rows ∧ k < n then size * i + k ∈ a.bad else size * i + k ∈ b.poison := by
  refine (Block.mem_poison_putRows (fun _ => rfl) (fun _ => read_length _ _ _) hn (fun _ _ h => (Agent.mem_badIn.1 h).2) hk).trans ?_
  by_cases h : i < rows ∧ k < n
  · rw [if_pos h, if_pos h, Agent.mem_badIn]
    exact ⟨And.left, fun hb => ⟨hb, by omega, by omega⟩⟩
  · rw [if_neg h, if_neg h]

theorem runCmd_tld (d : Side) {c : TileCmd} (a : Agent) (h : c.kind = 0) :
    (runCmd d c (some a)).1 = d.setTile c.n ((d.tile c.n).loadRows a 256 (rowBytes (d.shape c.n)) (shRows (d.shape c.n))) := by
  simp only [runCmd, h, runLoad]
  rfl

theorem runCmd_tqld (d : Side) {c : TileCmd} (a : Agent) (h : c.kind = 9) :
    (runCmd d c (some a)).1 = d.setComp c.n ((d.comp c.n).loadRows a 64 64 (shRows (d.shape c.n))) := by
  simp only [runCmd, h, runLoad]
  rfl

/-! ### ACCLD (R206) -/

/-- An accumulator with its half of a block of elements of `e` bytes that an agent has read. -/
def Block.loadBlock (b : Block) (a : Agent) (e half rows cols : Nat) : Block :=
  (corner rows cols).foldl (fun t p => t.put (4 * (64 * p.1 + p.2)) (a.buf.read (e * (64 * p.1 + p.2) + 4 * half) 4)
    (if a.badIn (e * (64 * p.1 + p.2)) e ≠ [] then upFrom (4 * (64 * p.1 + p.2)) 4 else [])) b

/-- A word of an accumulator is that half of its element in the block, and stays outside it. -/
theorem Block.word_loadBlock {b : Block} (a : Agent) (e half rows : Nat) {cols : Nat} (hb : b.data.wf = true) (hcols : cols ≤ 64) {i j : Nat} (hj : j < 64) :
    (b.loadBlock a e half rows cols).data.read (4 * (64 * i + j)) 4 =
      if i < rows ∧ j < cols then a.buf.read (e * (64 * i + j) + 4 * half) 4 else b.data.read (4 * (64 * i + j)) 4 := by
  have hdata : (b.loadBlock a e half rows cols).data = b.data.writeAll (fun p => 4 * (64 * p.1 + p.2))
      (fun p => a.buf.read (e * (64 * p.1 + p.2) + 4 * half) 4) (corner rows cols) := (List.foldl_hom Block.data fun _ _ => rfl).symm
  rw [hdata]
  exact read_corner (pos := fun p => 4 * (64 * p.1 + p.2)) (i := i) (j := j) hb (fun _ => read_length _ _ _)
    (fun p hp => acc_apart hj ((mem_corner.1 hp).2.trans_le hcols)) (by decide)

/-- A side with a block of 32-bit elements in an accumulator, or of 64-bit ones in a pair. -/
def Side.loadAcc (d : Side) (a : Agent) (wide : Bool) (n rows cols : Nat) : Side :=
  let e := if wide then 8 else 4
  let d1 := d.setAcc n ((d.acc n).loadBlock a e 0 rows cols)
  if wide then d1.setAcc (n + 1) ((d.acc (n + 1)).loadBlock a e 1 rows cols) else d1

theorem runCmd_accld (d : Side) {c : TileCmd} (a : Agent) (h : c.kind = 3) : (runCmd d c (some a)).1 =
    d.loadAcc a (decide (c.n / 16 % 2 = 1)) (c.n % 16) (c.b.toNat / 2 ^ 24 % 2 ^ 7) (c.b.toNat / 2 ^ 31 % 2 ^ 7) := by
  simp only [runCmd, h, runLoad, field_eq]
  rfl

theorem loadAcc_keeps (d : Side) (a : Agent) (wide : Bool) (n rows cols : Nat) :
    KeepsRegs d (d.loadAcc a wide n rows cols) [] [] (if wide then [n, n + 1] else [n]) := by
  cases wide with
  | false => exact keepsRegs_setAcc d n _
  | true => exact keepsRegs_setPair d n _ _

theorem accElem_loadAcc {d : Side} (a : Agent) {wide : Bool} {n rows cols : Nat} (hcols : cols ≤ 64) (hn : n + (if wide then 1 else 0) < d.accs.length)
    (hlow : (d.acc n).data.wf = true) (hhigh : (d.acc (n + 1)).data.wf = true) {i j : Nat} (hj : j < 64) :
    let e := if wide then 8 else 4
    accElem (d.loadAcc a wide n rows cols) wide n i j =
      if i < rows ∧ j < cols then natOf (a.buf.read (e * (64 * i + j)) e) else accElem d wide n i j := by
  intro e
  have hl := Block.word_loadBlock a e 0 rows hlow hcols (i := i) hj
  have hh := Block.word_loadBlock a e 1 rows hhigh hcols (i := i) hj
  have hlow_acc : (d.loadAcc a wide n rows cols).acc n = (d.acc n).loadBlock a e 0 rows cols := by
    cases wide with
    | false => exact Side.acc_setAcc _ hn
    | true => exact (Side.acc_setAcc_other _ _ (Nat.succ_ne_self n).symm).trans (Side.acc_setAcc _ (by simp only [if_true] at hn; omega))
  unfold accElem
  dsimp only
  rw [hlow_acc, hl]
  cases wide with
  | false =>
    by_cases h : i < rows ∧ j < cols
    · rw [if_pos h, if_pos h]
      rfl
    · rw [if_neg h, if_neg h]
      rfl
  | true =>
    have hhigh_acc : (d.loadAcc a true n rows cols).acc (n + 1) = (d.acc (n + 1)).loadBlock a e 1 rows cols :=
      Side.acc_setAcc _ (by simpa using hn)
    rw [hhigh_acc, hh]
    by_cases h : i < rows ∧ j < cols
    · rw [if_pos h, if_pos h, if_pos h, show e = 4 + 4 from rfl, Memory.read_append, natOf_append, read_length]
      rfl
    · rw [if_neg h, if_neg h, if_neg h]

end Sys2Proof.Machine

namespace Sys2Proof.Claims

theorem loadResults_hold : LoadResults := by
  intro d c ag r sh
  refine ⟨fun hk hsh hlen hwf => ?_, fun hk hlen hwf => ?_, ?_⟩
  · have hr : r = d.setTile c.n ((d.tile c.n).loadRows ag 256 (rowBytes sh) (shRows sh)) := runCmd_tld d ag hk
    rw [hr]
    refine ⟨keepsRegs_setTile d c.n _, fun i k hlt => ?_⟩
    rw [Side.tile_setTile _ hlen]
    exact ⟨Block.get_loadRows ag (rowBytes_le hsh) hwf hlt, Block.mem_poison_loadRows ag (rowBytes_le hsh) hlt⟩
  · have hr : r = d.setComp c.n ((d.comp c.n).loadRows ag 64 64 (shRows sh)) := runCmd_tqld d ag hk
    rw [hr]
    refine ⟨keepsRegs_setComp d c.n _, fun i k hlt => ?_⟩
    rw [Side.comp_setComp _ hlen]
    refine (Block.get_loadRows ag (Nat.le_refl 64) hwf hlt).trans (if_congr ?_ rfl rfl)
    exact and_iff_left hlt
  · intro rows cols wide e n hk hrows hcols hlen hlow hhigh
    have hr : r = d.loadAcc ag wide n rows cols := runCmd_accld d ag hk
    rw [hr]
    exact ⟨loadAcc_keeps d ag wide n rows cols, fun i j _ hj => accElem_loadAcc ag hcols hlen hlow hhigh hj⟩

end Sys2Proof.Claims
end

section
/-! The bytes that a store takes, and the writes that its agent owes (R201, R204, R206). -/

open Sys2Proof Sys2Proof.Machine Sys2Proof.Claims

namespace Sys2Proof.Machine

/-! ### Bytes of elements in a row -/

theorem getD_bytesOf {n k : Nat} (v : Nat) (h : k < n) : (bytesOf n v).getD k 0 = BitVec.ofNat 8 (v / 256 ^ k) := by
  induction n generalizing v k with
  | zero => omega
  | succ n ih =>
    cases k with
    | zero => rw [Nat.pow_zero, Nat.div_one]; rfl
    | succ k => rw [bytesOf, List.getD_cons_succ, ih _ (by omega), Nat.pow_succ', Nat.div_div_eq_div_mul]

section
variable {f : Nat → List Byte} {e : Nat} (hf : ∀ j, (f j).length = e)
include hf

theorem flatMap_length (m : Nat) : ((upFrom 0 m).flatMap f).length = e * m := by
  induction m with
  | zero => rfl
  | succ m ih =>
    rw [upFrom_zero] at ih ⊢
    rw [List.range_succ, List.flatMap_append, List.length_append, ih, List.flatMap_singleton, hf, Nat.mul_succ]

/-- Byte k of pieces of `e` bytes in a row. -/
theorem getD_flatMap {m k : Nat} (h : k < e * m) : ((upFrom 0 m).flatMap f).getD k 0 = (f (k / e)).getD (k % e) 0 := by
  induction m with
  | zero => omega
  | succ m ih =>
    have hlen := flatMap_length hf m
    rw [upFrom_zero] at ih hlen ⊢
    rw [List.range_succ, List.flatMap_append, List.flatMap_singleton]
    by_cases hk : k < e * m
    · rw [List.getD_append _ _ _ _ (by omega), ih hk]
    · have he : k = e * m + (k - e * m) := by omega
      have hrest : k - e * m < e := by rw [Nat.mul_succ] at h; omega
      have hdiv : k / e = m := by rw [he, Nat.mul_add_div (by omega), Nat.div_eq_of_lt hrest, Nat.add_zero]
      have hmod : k % e = k - e * m := by rw [he, Nat.mul_add_mod, Nat.mod_eq_of_lt hrest, ← he]
      rw [List.getD_append_right _ _ _ _ (by omega), hlen, hdiv, hmod]

end

/-- A list whose last element is changed. -/
theorem changedLast_length {α : Type} (f : α → α) (xs : List α) : (xs.dropLast ++ (xs.getLast?.map f).toList).length = xs.length := by
  rcases List.eq_nil_or_concat xs with rfl | ⟨ys, y, rfl⟩
  · rfl
  · simp

theorem getD_changedLast {α : Type} (f : α → α) (xs : List α) (a : α) {k : Nat} (h : k < xs.length) :
    (xs.dropLast ++ (xs.getLast?.map f).toList).getD k a = if k + 1 = xs.length then f (xs.getD k a) else xs.getD k a := by
  rcases List.eq_nil_or_concat xs with rfl | ⟨ys, y, rfl⟩
  · exact absurd h (Nat.not_lt_zero _)
  · rw [List.concat_eq_append] at h ⊢
    rw [List.length_append, List.length_singleton] at h ⊢
    rw [List.dropLast_concat, List.getLast?_concat, Option.map_some, Option.toList_some]
    by_cases hk : k = ys.length
    · subst hk
      simp [List.getD_eq_getElem?_getD]
    · rw [if_neg (by omega), List.getD_append _ _ _ _ (by omega), List.getD_append _ _ _ _ (by omega)]

/-! ### A stored row (R204, R206) -/

/-- Bytes of a stored row. -/
def storeBytes (d : Side) (c : TileCmd) : Nat :=
  if c.kind = 1 then rowBytes (d.shape c.n) else (if c.n / 16 % 2 = 1 then 8 else 4) * (c.b.toNat / 2 ^ 31 % 2 ^ 7)

/-- In a shape of 4-bit elements with an odd number of columns, the last byte of a row holds one element. -/
theorem half_byte {sh : Word} (h : shapeUsable sh = true) (hew : shEw sh = 0) (hodd : shCols sh % 2 = 1) (k : Nat) :
    k + 1 = rowBytes sh ↔ k = shCols sh / 2 := by
  have hlay : ¬shLay sh = true := fun hl => by
    have := ((shape_bounds h).2.2 hl).1
    omega
  rw [rowBytes, if_neg hlay, hew, show ewBits 0 = 4 from rfl]
  omega

theorem storedRow_tile {d : Side} {c : TileCmd} (hk : c.kind = 1) (hsh : shapeUsable (d.shape c.n) = true) (i : Nat) :
    (storedRow d c i).1.length = storeBytes d c ∧ ∀ k < storeBytes d c, (storedRow d c i).1.getD k 0 = rowByte d c i k := by
  have hlen : ((d.tile c.n).data.read (256 * i) (rowBytes (d.shape c.n))).length = rowBytes (d.shape c.n) := read_length _ _ _
  unfold storedRow rowByte storeBytes
  simp only [if_pos hk, Bool.and_eq_true, decide_eq_true_eq]
  by_cases hhalf : shEw (d.shape c.n) = 0 ∧ shCols (d.shape c.n) % 2 = 1
  · simp only [hhalf.1, hhalf.2, true_and, if_true]
    refine ⟨(changedLast_length _ _).trans hlen, fun k hlt => ?_⟩
    rw [getD_changedLast _ _ _ (by rw [hlen]; exact hlt), hlen, Memory.getD_read _ hlt]
    exact if_congr (half_byte hsh hhalf.1 hhalf.2 k) rfl rfl
  · simp only [if_neg hhalf]
    refine ⟨hlen, fun k hlt => ?_⟩
    rw [Memory.getD_read _ hlt, if_neg fun h => hhalf ⟨h.1, h.2.1⟩]

theorem storedRow_acc {d : Side} {c : TileCmd} (hk : c.kind ≠ 1) (i : Nat) :
    (storedRow d c i).1.length = storeBytes d c ∧ ∀ k < storeBytes d c, (storedRow d c i).1.getD k 0 = rowByte d c i k := by
  unfold storedRow rowByte storeBytes accWide accNum
  simp only [if_neg hk, field_eq, decide_eq_true_eq]
  generalize (if c.n / 16 % 2 = 1 then 8 else 4) = e
  refine ⟨flatMap_length (fun _ => bytesOf_length _ _) _, fun k hlt => ?_⟩
  have he : 0 < e := Nat.pos_of_ne_zero fun h => by simp [h] at hlt
  rw [getD_flatMap (fun _ => bytesOf_length _ _) hlt, getD_bytesOf _ (Nat.mod_lt _ he)]

/-! ### The image of a store (R204) -/

theorem foldl_min_le (os : List Nat) (a : Nat) : os.foldl min a ≤ a ∧ ∀ o ∈ os, os.foldl min a ≤ o := by
  induction os generalizing a with
  | nil => exact ⟨Nat.le_refl a, fun _ h => nomatch h⟩
  | cons o os ih =>
    obtain ⟨hle, hmem⟩ := ih (min a o)
    refine ⟨hle.trans (Nat.min_le_left a o), fun p hp => ?_⟩
    rcases List.mem_cons.1 hp with rfl | hp
    · exact hle.trans (Nat.min_le_right a p)
    · exact hmem p hp

theorem lowest_le {os : List Nat} {o : Nat} (h : o ∈ os) : lowest os ≤ o := (foldl_min_le os _).2 o h

/-- Row i of a store begins at this offset. -/
def storeOff (a stride : DWord) (i : Nat) : Nat := (a + BitVec.ofNat 64 i * stride).toNat

/-- The bytes that a store takes, from the lowest of its offsets on. -/
def storeImage (d : Side) (c : TileCmd) : Block :=
  let (rows, _, sb) := storeRows d c
  let offs := rowOffs c.a sb rows
  Block.putRows {} (fun r => offs.getD r 0 - lowest offs) (fun r => (storedRow d c r).1)
    (fun r => (storedRow d c r).2.map (· + (offs.getD r 0 - lowest offs))) rows

theorem primeStore_of_agent {s : State} {c : TileCmd} {a : Agent} (h : c.agentIn s = some a) (t : Team) (core : Nat) (d : Side) :
    primeStore s t core d c = s.setAgent { a with
      buf := (storeImage d c).data, bad := (storeImage d c).poison
      steps := rowWrites t core (storeRows d c).2.1 (rowStep (storeRows d c).2.2) (rowOffs c.a (storeRows d c).2.2 (storeRows d c).1) } := by
  unfold primeStore
  rw [h]
  rfl

/-- The bytes of a range that lies in several rows are those of the highest. -/
theorem get_storeImage {d : Side} {c : TileCmd} {rows n : Nat} {stride : DWord} (hrows : storeRows d c = (rows, n, stride))
    (hrow : ∀ i, (storedRow d c i).1.length = n ∧ ∀ k < n, (storedRow d c i).1.getD k 0 = rowByte d c i k) {i k : Nat} (hi : i < rows) (hk : k < n)
    (hlast : ∀ i2, i < i2 → i2 < rows → ¬(storeOff c.a stride i2 ≤ storeOff c.a stride i + k ∧ storeOff c.a stride i + k < storeOff c.a stride i2 + n)) :
    (storeImage d c).data.get (storeOff c.a stride i + k - lowest (rowOffs c.a stride rows)) = rowByte d c i k := by
  have hoff {j : Nat} (hj : j < rows) : (rowOffs c.a stride rows).getD j 0 = storeOff c.a stride j := getD_map_upFrom _ _ hj
  have hlow {j : Nat} (hj : j < rows) : lowest (rowOffs c.a stride rows) ≤ storeOff c.a stride j :=
    lowest_le (List.mem_map.2 ⟨j, (upFrom_mem 0 rows j).2 ⟨j.zero_le, by omega⟩, rfl⟩)
  have hli := hlow hi
  unfold storeImage
  rw [hrows]
  dsimp only
  rw [Block.get_putRows_highest (i := i) Memory.wf_nil hi]
  · rw [hoff hi, show storeOff c.a stride i + k - lowest (rowOffs c.a stride rows) - (storeOff c.a stride i - lowest (rowOffs c.a stride rows)) = k by omega]
    exact (hrow i).2 k hk
  · rw [hoff hi, (hrow i).1]
    omega
  · intro i2 h1 h2
    have hl2 := hlow h2
    have := hlast i2 h1 h2
    rw [hoff h2, (hrow i2).1]
    omega

/-! ### The writes of a store (R204) -/

theorem mem_lineParts {fuel loc n off : Nat} {p : Nat × Nat × Nat} (h : p ∈ lineParts fuel loc n off) :
    ∃ k, k + p.2.1 ≤ n ∧ p.1 = loc + k ∧ p.2.2 = off + k := by
  induction fuel generalizing loc n off with
  | zero => cases h
  | succ fuel ih =>
    rw [lineParts] at h
    split at h
    · cases h
    · rcases List.mem_cons.1 h with rfl | h
      · exact ⟨0, by dsimp only; omega, rfl, rfl⟩
      · obtain ⟨k, hk, h1, h2⟩ := ih h
        exact ⟨min n (64 - loc % 64) + k, by omega, by omega, by omega⟩

/-- Rows apart are written each at its own place. -/
theorem mem_rowWrites {t : Team} {core n rows : Nat} {a stride : DWord} (hn : n ≤ rowStep stride) {st : AStep}
    (h : st ∈ rowWrites t core n (rowStep stride) (rowOffs a stride rows)) : ∃ i k len, i < rows ∧ k + len ≤ n ∧
      st = .write (rowLoc t core n (storeOff a stride i) + k) len (storeOff a stride i - lowest (rowOffs a stride rows) + k) false := by
  unfold rowWrites at h
  dsimp only at h
  rw [if_pos hn] at h
  obtain ⟨o, ho, hst⟩ := List.mem_flatMap.1 h
  obtain ⟨i, hi, rfl⟩ := List.mem_map.1 ho
  obtain ⟨⟨loc, len, off⟩, hp, rfl⟩ := List.mem_map.1 hst
  obtain ⟨k, hk, hloc, hoff⟩ := mem_lineParts hp
  dsimp only at hk hloc hoff ⊢
  subst hloc hoff
  exact ⟨i, k, len, by have := (upFrom_mem 0 rows i).1 hi; omega, hk, rfl⟩

end Sys2Proof.Machine

namespace Sys2Proof.Claims

theorem storeResults_hold : StoreResults := by
  intro s t core d c ag hkind hag husable sh e rows n stride off lo
  have hrows : storeRows d c = (rows, n, stride) := by
    unfold storeRows accWide
    by_cases hk : c.kind = 1
    · simp only [rows, n, stride, if_pos hk]
      rfl
    · simp only [rows, n, stride, if_neg hk, field_eq, blockStride_eq, decide_eq_true_eq]
      rfl
  have hrow (i : Nat) : (storedRow d c i).1.length = n ∧ ∀ k < n, (storedRow d c i).1.getD k 0 = rowByte d c i k := by
    by_cases hk : c.kind = 1
    · exact storedRow_tile hk (husable hk) i
    · exact storedRow_acc hk i
  refine ⟨_, primeStore_of_agent hag t core d, rfl, rfl, fun i k hi hk hlast => get_storeImage hrows hrow hi hk hlast, fun hn st hst => ?_⟩
  dsimp only at hst
  rw [hrows] at hst
  exact mem_rowWrites hn hst

end Sys2Proof.Claims
end

section
/-! The values of quantised elements (R100, R208). -/

open Sys2Proof Sys2Proof.Machine Sys2Proof.Claims

namespace Sys2Proof.Machine

/-! ### From codes (R100) -/

/-- A code apart from its zero point is its exact multiple of the scale, rounded once. -/
theorem narrow_dequant {q z m : Nat} (hq : q ≠ z) (hm : m ≠ 0) (f : Fmt) (r : Rnd) (n : Bool) (e : Int) :
    narrow f r (dequant (.fin n m e) q z) = roundF f r (n != decide (q < z)) (m * ((q : Int) - z).natAbs) e := by
  have hmag : m * ((q : Int) - z).natAbs ≠ 0 := Nat.mul_ne_zero hm (by omega)
  have hsign : decide ((q : Int) - z < 0) = decide (q < z) := decide_eq_decide.2 (by omega)
  unfold narrow dequant
  simp only [if_neg hmag, hsign]
  exact Prod.ext rfl BitVec.zero_or

/-- The zero point is a zero. -/
theorem narrow_dequant_zero (f : Fmt) (r : Rnd) (n : Bool) (m z : Nat) (e : Int) : (narrow f r (dequant (.fin n m e) z z)).1 = zeroOf f n := by
  unfold narrow dequant
  simp

/-! ### To codes (R208) -/

/-- A code `k` above the zero point, clamped. -/
def clampCode (z bits : Nat) (k : Int) (fl : Flags) : Nat × Flags :=
  if (z : Int) + k < 0 then (0, flagOF ||| flagNX)
  else if ((2 ^ bits - 1 : Nat) : Int) < z + k then (2 ^ bits - 1, flagOF ||| flagNX) else (((z : Int) + k).toNat, fl)

theorem clampCode_lt (z bits : Nat) (k : Int) (fl : Flags) : (clampCode z bits k fl).1 < 2 ^ bits := by
  have hpos : 0 < 2 ^ bits := Nat.two_pow_pos bits
  unfold clampCode
  split
  · exact hpos
  · split
    · exact Nat.sub_one_lt hpos.ne'
    · dsimp only
      omega

theorem quantise_nan (b : Bool) (v sc : Fv) (z bits : Nat) (r : Rnd) :
    quantise (.nan b) sc z bits r = (z, flagNV) ∧ quantise v (.nan b) z bits r = (z, flagNV) ∧ quantise v (.inf b) z bits r = (z, flagNV) := by
  refine ⟨rfl, ?_, ?_⟩
  · cases v <;> rfl
  · cases v <;> rfl

theorem quantise_zeroScale (v : Fv) (ns : Bool) (es : Int) (z bits : Nat) (r : Rnd) : quantise v (.fin ns 0 es) z bits r = (z, flagNV) := by
  cases v <;> rfl

theorem quantise_inf (b ns : Bool) {m : Nat} (hm : m ≠ 0) (es : Int) (z bits : Nat) (r : Rnd) :
    quantise (.inf b) (.fin ns m es) z bits r = (if b = ns then 2 ^ bits - 1 else 0, flagOF ||| flagNX) := by
  unfold quantise
  simp only [if_neg hm]
  cases b <;> cases ns <;> rfl

theorem quantise_finite (nx ns : Bool) (mx : Nat) {ms : Nat} (hms : ms ≠ 0) (ex es : Int) (z bits : Nat) (r : Rnd) :
    let sh : Int := ex - es + 80
    let num := mx * 2 ^ sh.toNat
    let den := ms * 2 ^ (-sh).toNat
    let u := roundAt r (nx != ns) (num / den) (-80) (num % den ≠ 0) 0
    quantise (.fin nx mx ex) (.fin ns ms es) z bits r =
      clampCode z bits (if nx != ns then -(u.1 : Int) else (u.1 : Int)) (if u.2 then flagNX else 0) := by
  unfold quantise
  simp only [if_neg hms]
  rfl

/-- A code has its bits, where its zero point does. -/
theorem quantise_lt (v sc : Fv) {z bits : Nat} (hz : z < 2 ^ bits) (r : Rnd) : (quantise v sc z bits r).1 < 2 ^ bits := by
  have hpos : 0 < 2 ^ bits := Nat.two_pow_pos bits
  cases sc with
  | nan b => rw [(quantise_nan b v v z bits r).2.1]; exact hz
  | inf b => rw [(quantise_nan b v v z bits r).2.2]; exact hz
  | fin ns ms es =>
    by_cases hms : ms = 0
    · rw [hms, quantise_zeroScale]
      exact hz
    · cases v with
      | nan b => exact hz
      | inf b =>
        rw [quantise_inf b ns hms]
        split
        · exact Nat.sub_one_lt hpos.ne'
        · exact hpos
      | fin nx mx ex =>
        rw [quantise_finite nx ns mx hms]
        exact clampCode_lt _ _ _ _

/-- A whole number of units is not rounded. -/
theorem roundAt_whole {r : Rnd} (hr : ∀ t, r = .dither t → t < 64) (neg : Bool) (k : Nat) {d : Nat} (hd : 0 < d) :
    roundAt r neg (k * 2 ^ d) (-d) false 0 = (k, false) := by
  have hpos : 0 < 2 ^ d := Nat.two_pow_pos d
  have hdist : (0 - (-(d : Int))).toNat = d := by omega
  unfold roundAt
  rw [if_neg (by omega)]
  dsimp only
  rw [hdist, Nat.mul_div_cancel _ hpos, Nat.mul_mod_left]
  cases r with
  | rne => simp [hpos.ne]
  | rz => simp
  | rup => simp
  | rdn => simp
  | dither t =>
    have hlt := Nat.mul_lt_mul_of_pos_right (show 2 * t + 1 < 128 by have := hr t rfl; omega) hpos
    simp [Nat.not_le.2 hlt]

/-- Where x is k times the scale, the quotient is k exactly. -/
theorem quotient_exact {mx ms k : Nat} {ex es : Int} (h : mx * 2 ^ (ex - es).toNat = k * ms * 2 ^ (es - ex).toNat) :
    mx * 2 ^ (ex - es + 80).toNat = k * 2 ^ 80 * (ms * 2 ^ (-(ex - es + 80)).toNat) := by
  have hexp : (es - ex).toNat + (ex - es + 80).toNat = 80 + (-(ex - es + 80)).toNat + (ex - es).toNat := by omega
  refine Nat.eq_of_mul_eq_mul_right (Nat.two_pow_pos (ex - es).toNat) ?_
  calc mx * 2 ^ (ex - es + 80).toNat * 2 ^ (ex - es).toNat = mx * 2 ^ (ex - es).toNat * 2 ^ (ex - es + 80).toNat := by ring
    _ = k * ms * 2 ^ ((es - ex).toNat + (ex - es + 80).toNat) := by rw [h, Nat.pow_add]; ring
    _ = k * 2 ^ 80 * (ms * 2 ^ (-(ex - es + 80)).toNat) * 2 ^ (ex - es).toNat := by rw [hexp, Nat.pow_add, Nat.pow_add]; ring

theorem quantise_exact {mx ms k : Nat} {ex es : Int} {r : Rnd} (hms : ms ≠ 0) (hr : ∀ t, r = .dither t → t < 64)
    (h : mx * 2 ^ (ex - es).toNat = k * ms * 2 ^ (es - ex).toNat) (nx ns : Bool) (z bits : Nat) :
    quantise (.fin nx mx ex) (.fin ns ms es) z bits r = clampCode z bits (if nx = ns then (k : Int) else -(k : Int)) 0 := by
  have hden : 0 < ms * 2 ^ (-(ex - es + 80)).toNat := Nat.mul_pos (Nat.pos_of_ne_zero hms) (Nat.two_pow_pos _)
  have hround := roundAt_whole hr (nx != ns) k (d := 80) (by decide)
  rw [quantise_finite nx ns mx hms, quotient_exact h, Nat.mul_div_cancel _ hden, Nat.mul_mod_left]
  rw [show decide ((0 : Nat) ≠ 0) = false from rfl, show (-80 : Int) = -((80 : Nat) : Int) from rfl, hround]
  cases nx <;> cases ns <;> rfl

end Sys2Proof.Machine

namespace Sys2Proof.Claims

theorem quantisedValues_hold : QuantisedValues := by
  refine ⟨fun f r n m q z e => ⟨fun hq hm => narrow_dequant hq hm f r n e, narrow_dequant_zero f r n m z e⟩,
    fun z bits r sc v ns es => ⟨fun b => quantise_nan b v sc z bits r, quantise_zeroScale v ns es z bits r,
      fun b m hm => quantise_inf b ns hm es z bits r, fun hz => quantise_lt v sc hz r⟩,
    fun nx ns mx ms k z bits ex es r hms hr h => ?_⟩
  have hsum : (z : Int) + (if nx = ns then (k : Int) else -(k : Int)) = if nx = ns then (z : Int) + k else (z : Int) - k := by
    split
    · rfl
    · omega
  have htop : ((2 ^ bits - 1 : Nat) : Int) = 2 ^ bits - 1 := by
    rw [Nat.cast_pred (Nat.two_pow_pos bits)]
    push_cast
    rfl
  rw [quantise_exact hms hr h, clampCode, hsum, htop]

end Sys2Proof.Claims
end

section
/-! What TCVT does as its command completes (R207, R208). -/

open Sys2Proof Sys2Proof.Machine Sys2Proof.Claims

namespace Sys2Proof.Machine

theorem isQuant_iff (c : Nat) : isQuant c = true ↔ c = 6 ∨ c = 7 := by
  rw [isQuant, Bool.or_eq_true, decide_eq_true_eq, decide_eq_true_eq]

/-! ### Elements put into a tile, one after another -/

/-- What is read of a tile depends on its bytes alone. -/
theorem tileElem_congr {b u : Block} (h : u.data = b.data) (w i j : Nat) : tileElem u w i j = tileElem b w i j := by
  unfold tileElem
  rw [h]

/-- A tile's element is 4 bits wide or of whole bytes. -/
theorem width_cases (f : Nat) : ewBits (fmtEw f) = 4 ∧ f = 7 ∨ ∃ e, 0 < e ∧ ewBits (fmtEw f) = 8 * e := by
  by_cases h : f = 7
  · exact .inl ⟨by rw [h]; rfl, h⟩
  · exact .inr (width_bytes h)

theorem putTileElem_wf {b : Block} (hb : b.data.wf = true) (w r c v : Nat) : (putTileElem b w r c v).data.wf = true := by
  unfold putTileElem
  dsimp only
  split <;> exact Memory.wf_write hb _ _

/-- Half a byte is put into its byte, and the other half is read as it was. -/
theorem half_put {o v c j : Nat} (hv : v < 16) : (BitVec.ofNat 8 (if c % 2 = 0 then o / 16 * 16 + v else v * 16 + o % 16)).toNat / 16 ^ (j % 2) % 16 =
    if j % 2 = c % 2 then v else o / 16 ^ (j % 2) % 16 := by
  rw [BitVec.toNat_ofNat]
  rcases Nat.mod_two_eq_zero_or_one c with hc | hc
  · rw [hc, if_pos rfl]
    rcases Nat.mod_two_eq_zero_or_one j with hj | hj
    · rw [hj, if_pos rfl, Nat.pow_zero]
      omega
    · rw [hj, if_neg (by decide), Nat.pow_one]
      omega
  · rw [hc, if_neg (by decide)]
    rcases Nat.mod_two_eq_zero_or_one j with hj | hj
    · rw [hj, if_neg (by decide), Nat.pow_zero]
      omega
    · rw [hj, if_pos rfl, Nat.pow_one]
      omega

theorem tileElem_putTileElem_half {b : Block} (hb : b.data.wf = true) {r c v i j : Nat} (hv : v < 16) (hc : c < 512) (hj : j < 512) :
    tileElem (putTileElem b 4 r c v) 4 i j = if (i, j) = (r, c) then v else tileElem b 4 i j := by
  have hplace : 256 * i + j / 2 = 256 * r + c * 4 / 8 ↔ i = r ∧ j / 2 = c / 2 := by omega
  unfold tileElem putTileElem
  simp only [if_true, Block.put_data, Memory.write, Memory.get_set hb, Prod.mk.injEq]
  by_cases hin : i = r ∧ j / 2 = c / 2
  · rw [if_pos (hplace.2 hin), ← hplace.2 hin, half_put hv]
    exact if_congr (by omega) rfl rfl
  · rw [if_neg fun h => hin (hplace.1 h), if_neg fun h => hin ⟨h.1, by rw [h.2]⟩]

/-- An element of whole bytes is put into its bytes, and the others stay. -/
theorem tileElem_putTileElem_bytes {b : Block} (hb : b.data.wf = true) {e : Nat} (he : 0 < e) {r c i j : Nat} (v : Nat) (hc : (c + 1) * e ≤ 256)
    (hj : (j + 1) * e ≤ 256) :
    tileElem (putTileElem b (8 * e) r c v) (8 * e) i j = if (i, j) = (r, c) then v % 2 ^ (8 * e) else tileElem b (8 * e) i j := by
  have happart := tile_apart (i := i) (i' := r) hj hc
  have hread := Memory.read_write (bs := bytesOf e v) hb (a := 256 * r + c * e) (q := 256 * i + j * e)
    (by rw [bytesOf_length]; exact happart.imp_left fun h => by rw [Prod.mk.injEq] at h; rw [h.1, h.2])
  rw [bytesOf_length] at hread
  rw [tileElem_bytes, tileElem_bytes, putTileElem_data, hread, apply_ite natOf, natOf_bytesOf, Nat.pow_mul]
  refine if_congr ⟨fun h => ?_, fun h => ?_⟩ rfl rfl
  · rcases happart with h2 | h2 | h2
    · exact h2.symm
    · omega
    · omega
  · rw [Prod.mk.injEq] at h
    rw [h.1, h.2]

theorem tileElem_putTileElem {b : Block} (hb : b.data.wf = true) {f r c v i j : Nat} (hv : f = 7 → v < 16)
    (hc : (c + 1) * ewBits (fmtEw f) ≤ 2048) (hj : (j + 1) * ewBits (fmtEw f) ≤ 2048) :
    tileElem (putTileElem b (ewBits (fmtEw f)) r c v) (ewBits (fmtEw f)) i j =
      if (i, j) = (r, c) then v % 2 ^ ewBits (fmtEw f) else tileElem b (ewBits (fmtEw f)) i j := by
  rcases width_cases f with ⟨hw, h7⟩ | ⟨e, he, hw⟩
  · rw [hw] at hc hj ⊢
    rw [tileElem_putTileElem_half hb (hv h7) (by omega) (by omega), show v % 2 ^ 4 = v from Nat.mod_eq_of_lt (hv h7)]
  · rw [hw, Nat.mul_left_comm] at hc hj
    rw [hw]
    exact tileElem_putTileElem_bytes hb he v (by omega) (by omega)

/-- Elements are put into a tile, cell by cell. -/
def Block.putElems (b : Block) (w : Nat) (val : Nat × Nat → Nat) (cells : List (Nat × Nat)) : Block :=
  cells.foldl (fun t p => putTileElem t w p.1 p.2 (val p)) b

theorem Block.tileElem_putElems {f : Nat} {val : Nat × Nat → Nat} (hv : f = 7 → ∀ p, val p < 16) {cells : List (Nat × Nat)}
    (hcells : ∀ p ∈ cells, (p.2 + 1) * ewBits (fmtEw f) ≤ 2048) {b : Block} (hb : b.data.wf = true) {i j : Nat}
    (hj : (j + 1) * ewBits (fmtEw f) ≤ 2048) :
    tileElem (b.putElems (ewBits (fmtEw f)) val cells) (ewBits (fmtEw f)) i j =
      if (i, j) ∈ cells then val (i, j) % 2 ^ ewBits (fmtEw f) else tileElem b (ewBits (fmtEw f)) i j := by
  induction cells generalizing b with
  | nil => rw [if_neg List.not_mem_nil]; rfl
  | cons p cells ih =>
    have hput := tileElem_putTileElem (f := f) (r := p.1) (c := p.2) (i := i) hb (fun h7 => hv h7 p) (hcells p (List.mem_cons_self ..)) hj
    refine (ih (fun q hq => hcells q (List.mem_cons_of_mem _ hq)) (putTileElem_wf hb _ _ _ _)).trans ?_
    rw [hput]
    by_cases hp : (i, j) = p
    · subst hp
      rw [if_pos rfl, ite_self, if_pos (List.mem_cons_self ..)]
    · rw [if_neg hp]
      exact if_congr ⟨List.mem_cons_of_mem _, fun h => (List.mem_cons.1 h).resolve_left hp⟩ rfl rfl

/-! ### The conversion (R208) -/

/-- A code of four bits is below 16. -/
theorem convertedElem_lt {d : Side} {c : TileCmd} (h : c.a.toNat / 2 ^ 10 % 2 ^ 4 = 7) (i j : Nat) : (convertedElem d c i j).1 < 16 := by
  unfold convertedElem
  dsimp only
  rw [h, if_pos (.inr rfl)]
  refine quantise_lt _ _ (bits := 4) ?_ _
  exact Nat.mod_lt _ (by decide)

theorem foldl_pair {α β γ : Type} (f : α → γ → α) (g : β → γ → β) (l : List γ) (a : α) (b : β) :
    l.foldl (fun (x : α × β) p => (f x.1 p, g x.2 p)) (a, b) = (l.foldl f a, l.foldl g b) := by
  induction l generalizing a b with
  | nil => rfl
  | cons p l ih => exact ih _ _

/-- A flag of several is one of theirs. -/
theorem getLsbD_flags {α : Type} (fl : α → Flags) (cells : List α) (x : Flags) (f : Nat) :
    (cells.foldl (fun x p => x ||| fl p) x).getLsbD f = true ↔ x.getLsbD f = true ∨ ∃ p ∈ cells, (fl p).getLsbD f = true := by
  induction cells generalizing x with
  | nil => simp
  | cons p cells ih => rw [List.foldl_cons, ih, BitVec.getLsbD_or, Bool.or_eq_true, List.exists_mem_cons_iff, or_assoc]

/-- Rows of a tile are poisoned. -/
def Block.spoilRows (b : Block) (n rows : Nat) : Block := (upFrom 0 rows).foldl (fun b r => b.spoil (256 * r) n) b

@[simp] theorem Block.spoilRows_data (b : Block) (n rows : Nat) : (b.spoilRows n rows).data = b.data := by
  unfold Block.spoilRows
  generalize upFrom 0 rows = rs
  induction rs generalizing b with
  | nil => rfl
  | cons r rs ih => rw [List.foldl_cons, ih, Block.spoil_data]

/-- Rows of a tile are poisoned where something that they come from is. -/
def Block.spoilRowsIf (b : Block) (bad : Bool) (n rows : Nat) : Block := if bad then b.spoilRows n rows else b

@[simp] theorem Block.spoilRowsIf_data (b : Block) (bad : Bool) (n rows : Nat) : (b.spoilRowsIf bad n rows).data = b.data := by
  rw [Block.spoilRowsIf, apply_ite Block.data, Block.spoilRows_data, ite_self]

/-- A side with what the elements of some cells become in a tile, and their flags. -/
def Side.converted (d : Side) (n w : Nat) (one : Nat × Nat → Nat × Flags) (cells : List (Nat × Nat)) (spoil : Block → Block) : Side × Flags :=
  let r := cells.foldl (fun (acc : Block × Flags) p => (putTileElem acc.1 w p.1 p.2 (one p).1, acc.2 ||| (one p).2)) (d.tile n, 0)
  (d.setTile n (spoil r.1), r.2)

theorem Side.converted_eq (d : Side) (n w : Nat) (one : Nat × Nat → Nat × Flags) (cells : List (Nat × Nat)) (spoil : Block → Block) :
    d.converted n w one cells spoil =
      (d.setTile n (spoil ((d.tile n).putElems w (fun p => (one p).1) cells)), cells.foldl (fun fl p => fl ||| (one p).2) 0) :=
  congrArg (fun r : Block × Flags => (d.setTile n (spoil r.1), r.2)) 
    (foldl_pair (fun t p => putTileElem t w p.1 p.2 (one p).1) (fun fl p => fl ||| (one p).2) cells (d.tile n) 0)

/-- TCVT puts what its elements become into its tile, and raises their flags together. -/
theorem runTcvt_converts (d : Side) (c : TileCmd) : ∃ (one : Nat × Nat → Nat × Flags) (bad : Bool),
    runTcvt d c = d.converted c.n (ewBits (fmtEw (tcvtDf c.a))) one (corner (shRows (d.shape c.n)) (shCols (d.shape c.n)))
      (fun b => b.spoilRowsIf bad (rowBytes (d.shape c.n)) (shRows (d.shape c.n))) ∧
    ∀ p, one p = convertedElem d c p.1 p.2 := by
  unfold runTcvt
  dsimp only
  refine ⟨_, _, rfl, fun p => ?_⟩
  unfold convertedElem
  simp only [tcvtSrc, tcvtSf, tcvtDf, tcvtRnd, tcvtG, field_eq, Nat.pow_zero, Nat.div_one, isQuant_iff]
  rfl

theorem runCmd_tcvt (d : Side) {c : TileCmd} (a : Option Agent) (h : c.kind = 7) : runCmd d c a = ((runTcvt d c).1, (runTcvt d c).2, false) := by
  simp only [runCmd, h]

end Sys2Proof.Machine

namespace Sys2Proof.Claims

theorem conversionResults_hold : ConversionResults := by
  intro d c a hkind r rows cols bits hrows hcols hlen hwf
  obtain ⟨one, bad, hrun, hone⟩ := runTcvt_converts d c
  rw [tcvtDf, field_eq] at hrun
  obtain rfl : one = fun p => convertedElem d c p.1 p.2 := funext hone
  have hr : r = ((runTcvt d c).1, (runTcvt d c).2, false) := runCmd_tcvt d a hkind
  rw [hr, hrun, Side.converted_eq]
  refine ⟨keepsRegs_setTile d c.n _, fun i j _ hj => ?_, fun f _ => ?_⟩
  · have hcells (p : Nat × Nat) (hp : p ∈ corner rows cols) : (p.2 + 1) * bits ≤ 2048 :=
      (Nat.mul_le_mul_right bits (mem_corner.1 hp).2).trans hcols
    rw [Side.tile_setTile _ hlen, tileElem_congr (Block.spoilRowsIf_data _ _ _ _)]
    refine (Block.tileElem_putElems (val := fun p => (convertedElem d c p.1 p.2).1) (fun h7 p => convertedElem_lt h7 p.1 p.2) hcells hwf hj).trans ?_
    exact if_congr mem_corner rfl rfl
  · refine (getLsbD_flags _ _ _ f).trans ?_
    constructor
    · rintro (h | ⟨p, hp, hf⟩)
      · exact absurd (h.symm.trans BitVec.getLsbD_zero) Bool.noConfusion
      · exact ⟨p.1, (mem_corner.1 hp).1, p.2, (mem_corner.1 hp).2, hf⟩
    · rintro ⟨i, hi, j, hj, hf⟩
      exact .inr ⟨(i, j), mem_corner.2 ⟨hi, hj⟩, hf⟩

end Sys2Proof.Claims
end

section
/-! What TSPK does as its command completes (R209, R210). -/

open Sys2Proof Sys2Proof.Machine Sys2Proof.Claims

namespace Sys2Proof.Machine

/-! ### Pieces of several lengths that lie apart -/

section
variable {α : Type} (pos : α → Nat) (bytes : α → List Byte)

theorem Memory.get_writeAll_outside (cells : List α) {m : Memory} (hm : m.wf = true) {q : Nat}
    (h : ∀ p ∈ cells, ¬(pos p ≤ q ∧ q < pos p + (bytes p).length)) : (m.writeAll pos bytes cells).get q = m.get q := by
  induction cells generalizing m with
  | nil => rfl
  | cons p cells ih =>
    refine (ih (Memory.wf_write hm _ _) fun r hr => h r (List.mem_cons_of_mem _ hr)).trans ?_
    rw [Memory.get_write hm, if_neg (h p (List.mem_cons_self ..))]

/-- A piece that lies apart from the others reads as it is put. -/
theorem Memory.read_writeAll_own (cells : List α) {m : Memory} (hm : m.wf = true) {o : α} (ho : o ∈ cells)
    (apart : ∀ p ∈ cells, p = o ∨ pos p + (bytes p).length ≤ pos o ∨ pos o + (bytes o).length ≤ pos p) :
    (m.writeAll pos bytes cells).read (pos o) (bytes o).length = bytes o := by
  induction cells generalizing m with
  | nil => cases ho
  | cons p cells ih =>
    have hrest (r : α) (hr : r ∈ cells) := apart r (List.mem_cons_of_mem _ hr)
    by_cases hin : o ∈ cells
    · exact ih (Memory.wf_write hm _ _) hin hrest
    · obtain rfl : o = p := (List.mem_cons.1 ho).resolve_right hin
      have hstays : (m.writeAll pos bytes (o :: cells)).read (pos o) (bytes o).length = (m.write (pos o) (bytes o)).read (pos o) (bytes o).length := by
        refine Memory.read_congr fun k hk => Memory.get_writeAll_outside pos bytes cells (Memory.wf_write hm _ _) fun r hr => ?_
        rcases hrest r hr with rfl | h | h
        · exact absurd hr hin
        · omega
        · omega
      rw [hstays, Memory.read_write hm (.inl rfl), if_pos rfl]

end

/-! ### Elements in a row -/

/-- The first `n` of some elements, and zeros where there are fewer. -/
def elemBytesOf (e n : Nat) (vs : List Nat) : List Byte := (upFrom 0 n).flatMap (fun i => bytesOf e (vs.getD i 0))

theorem elemBytesOf_length (e n : Nat) (vs : List Nat) : (elemBytesOf e n vs).length = e * n := flatMap_length (fun _ => bytesOf_length _ _) n

/-- An element among those that a range holds. -/
theorem natOf_read_elem {m : Memory} {q e n : Nat} {vs : List Nat} (h : m.read q (e * n) = elemBytesOf e n vs) {i : Nat} (hi : i < n) :
    natOf (m.read (q + i * e) e) = vs.getD i 0 % 256 ^ e := by
  have hlast : i * e + e ≤ e * n := by
    rw [← Nat.succ_mul, Nat.mul_comm e n]
    exact Nat.mul_le_mul_right e hi
  have hread : m.read (q + i * e) (bytesOf e (vs.getD i 0)).length = bytesOf e (vs.getD i 0) := by
    refine Memory.read_of_bytes fun k hk => ?_
    rw [bytesOf_length] at hk
    have hdiv : (i * e + k) / e = i := by rw [Nat.mul_comm, Nat.mul_add_div (by omega), Nat.div_eq_of_lt hk, Nat.add_zero]
    have hmod : (i * e + k) % e = k := by rw [Nat.mul_comm, Nat.mul_add_mod, Nat.mod_eq_of_lt hk]
    rw [Nat.add_assoc, ← Memory.getD_read m (show i * e + k < e * n by omega), h, elemBytesOf,
      getD_flatMap (fun _ => bytesOf_length _ _) (by omega), hdiv, hmod]
  rw [bytesOf_length] at hread
  rw [hread, natOf_bytesOf]

/-! ### Bits and ranks (R209) -/

/-- The number with the bits of a predicate below `m`. -/
def sumBits (p : Nat → Bool) (m : Nat) : Nat := ((upFrom 0 m).filter p).foldl (fun n t => n + 2 ^ t) 0

theorem sumBits_succ (p : Nat → Bool) (m : Nat) : sumBits p (m + 1) = sumBits p m + if p m then 2 ^ m else 0 := by
  unfold sumBits
  rw [upFrom_zero, upFrom_zero, List.range_succ, List.filter_append, List.foldl_append]
  cases h : p m with
  | false => rw [List.filter_singleton, h]; rfl
  | true => rw [List.filter_singleton, h]; rfl

theorem sumBits_lt (p : Nat → Bool) (m : Nat) : sumBits p m < 2 ^ m := by
  induction m with
  | zero => exact Nat.one_pos
  | succ m ih =>
    rw [sumBits_succ, Nat.pow_succ]
    split <;> omega

theorem testBit_sumBits (p : Nat → Bool) {m t : Nat} (h : t < m) : (sumBits p m).testBit t = p t := by
  induction m with
  | zero => exact absurd h (Nat.not_lt_zero t)
  | succ m ih =>
    rw [sumBits_succ]
    by_cases htm : t = m
    · subst htm
      cases hp : p t with
      | false => rw [if_neg Bool.noConfusion, Nat.add_zero, Nat.testBit_lt_two_pow (sumBits_lt p t)]
      | true => rw [if_pos rfl, Nat.add_comm, Nat.testBit_two_pow_add_eq, Nat.testBit_lt_two_pow (sumBits_lt p t)]; rfl
    · have hlt : t < m := by omega
      split
      · rw [Nat.add_comm, Nat.testBit_two_pow_add_gt hlt, ih hlt]
      · rw [Nat.add_zero, ih hlt]

/-- An element that a predicate picks comes after as many as it picks below it. -/
theorem getD_picked {p : Nat → Bool} (f : Nat → Nat) {m t : Nat} (h : t < m) (hp : p t = true) :
    (((upFrom 0 m).filter p).map f).getD ((List.range t).filter p).length 0 = f t := by
  induction m with
  | zero => exact absurd h (Nat.not_lt_zero t)
  | succ m ih =>
    rw [upFrom_zero] at ih ⊢
    rw [List.range_succ, List.filter_append, List.map_append]
    by_cases htm : t = m
    · subst htm
      rw [List.getD_append_right _ _ _ _ (by rw [List.length_map]), List.length_map, Nat.sub_self, List.filter_singleton, hp]
      rfl
    · have hlt : t < m := by omega
      have hrank : ((List.range t).filter p).length < ((List.range m).filter p).length := by
        have hsub := ((List.range_sublist.2 (Nat.succ_le_of_lt hlt)).filter p).length_le
        rw [List.range_succ, List.filter_append, List.length_append, List.filter_cons_of_pos hp] at hsub
        exact Nat.lt_of_succ_le hsub
      rw [List.getD_append _ _ _ _ (by rw [List.length_map]; exact hrank), ih hlt]

/-! ### A pack (R210) -/

/-- What TSPK keeps of its source. -/
structure Packing where
  /-- Elements of a group's slot, and bytes of an element. -/
  size : Nat
  e    : Nat
  rows : Nat
  groups : Nat
  keep : Nat → Nat → Bool
  val  : Nat → Nat → Nat

/-- The elements that a group keeps. -/
def Packing.kept (k : Packing) (j g : Nat) : List Nat :=
  ((upFrom 0 64).filter (fun t => k.keep j (64 * g + t))).map (fun t => k.val j (64 * g + t))

/-- Rows of groups go into a tile and its metadata, one after another. -/
def Packing.run (k : Packing) (acc : Block × Block) : Block × Block :=
  (upFrom 0 k.rows).foldl (fun (acc : Block × Block) j => (upFrom 0 k.groups).foldl (fun (acc : Block × Block) g =>
    (acc.1.put (256 * j + g * k.size * k.e) (elemBytesOf k.e k.size ((k.kept j g).take k.size)) [],
      (acc.2.put (256 * j + 8 * g) (bytesOf 8 (sumBits (fun t => k.keep j (64 * g + t)) 64)) []).put (256 * j + 32 + g * (64 - k.size) * k.e)
        (elemBytesOf k.e (64 - k.size) ((k.kept j g).drop k.size)) [])) acc) acc

/-- Where a group's slot begins in a tile. -/
def Packing.slotPos (k : Packing) (p : Nat × Nat) : Nat := 256 * p.1 + p.2 * k.size * k.e

def Packing.slotBytes (k : Packing) (p : Nat × Nat) : List Byte := elemBytesOf k.e k.size ((k.kept p.1 p.2).take k.size)

/-- Where the metadata holds a group's bits, and what its slot does not hold (`true`). -/
def Packing.metaPos (k : Packing) (p : (Nat × Nat) × Bool) : Nat :=
  if p.2 then 256 * p.1.1 + 32 + p.1.2 * (64 - k.size) * k.e else 256 * p.1.1 + 8 * p.1.2

def Packing.metaBytes (k : Packing) (p : (Nat × Nat) × Bool) : List Byte :=
  if p.2 then elemBytesOf k.e (64 - k.size) ((k.kept p.1.1 p.1.2).drop k.size)
  else bytesOf 8 (sumBits (fun t => k.keep p.1.1 (64 * p.1.2 + t)) 64)

def Packing.cells (k : Packing) : List (Nat × Nat) := corner k.rows k.groups
def Packing.metaCells (k : Packing) : List ((Nat × Nat) × Bool) := k.cells.flatMap (fun p => [(p, false), (p, true)])

theorem Packing.mem_metaCells {k : Packing} {p : (Nat × Nat) × Bool} : p ∈ k.metaCells ↔ p.1.1 < k.rows ∧ p.1.2 < k.groups := by
  obtain ⟨p, b⟩ := p
  unfold Packing.metaCells
  cases b <;> simp [Packing.cells, mem_corner]

/-- A tile and its metadata after a pack. -/
theorem Packing.run_data (k : Packing) (x md : Block) :
    (k.run (x, md)).1.data = x.data.writeAll k.slotPos k.slotBytes k.cells ∧
    (k.run (x, md)).2.data = md.data.writeAll k.metaPos k.metaBytes k.metaCells := by
  have hrun : k.run (x, md) = k.cells.foldl (fun (acc : Block × Block) p =>
      (acc.1.put (k.slotPos p) (k.slotBytes p) [],
        (acc.2.put (k.metaPos (p, false)) (k.metaBytes (p, false)) []).put (k.metaPos (p, true)) (k.metaBytes (p, true)) [])) (x, md) := by
    unfold Packing.cells corner
    rw [List.foldl_flatMap]
    simp only [List.foldl_map]
    rfl
  rw [hrun, foldl_pair (fun (b : Block) p => b.put (k.slotPos p) (k.slotBytes p) []) (fun (b : Block) p =>
    (b.put (k.metaPos (p, false)) (k.metaBytes (p, false)) []).put (k.metaPos (p, true)) (k.metaBytes (p, true)) [])]
  refine ⟨(List.foldl_hom Block.data fun _ _ => rfl).symm, ?_⟩
  rw [Packing.metaCells, Memory.writeAll, List.foldl_flatMap]
  exact (List.foldl_hom Block.data fun _ _ => rfl).symm

/-! ### Where a pack puts its pieces (R209) -/

theorem Packing.kept_length (k : Packing) (j g : Nat) : (k.kept j g).length = ((List.range 64).filter (fun t => k.keep j (64 * g + t))).length := by
  rw [Packing.kept, List.length_map, upFrom_zero]

/-- A packing whose rows fit into those of a tile: slots of 16 to 32 of a group's 64 elements, and at most 256 bytes of source. -/
structure Packing.Fits (k : Packing) : Prop where
  low    : 16 ≤ k.size
  high   : k.size ≤ 32
  e      : 0 < k.e
  groups : k.groups * k.e ≤ 4
  val    : ∀ j t, k.val j t < 256 ^ k.e

/-- Pieces of one length side by side in rows of 256 bytes. -/
theorem pieces_apart {base n i g i' g' : Nat} (h : base + (g + 1) * n ≤ 256) (h' : base + (g' + 1) * n ≤ 256) :
    (i', g') = (i, g) ∨ 256 * i' + base + g' * n + n ≤ 256 * i + base + g * n ∨ 256 * i + base + g * n + n ≤ 256 * i' + base + g' * n := by
  refine (tile_apart (i := i) (i' := i') (e := n) (j := g) (j' := g') (by omega) (by omega)).imp_right fun hapart => ?_
  omega

section
variable {k : Packing} (h : k.Fits)
include h

/-- The pieces of a group lie within their row. -/
theorem Packing.Fits.bounds {g : Nat} (hg : g < k.groups) :
    (g + 1) * (k.size * k.e) ≤ 256 ∧ 32 + (g + 1) * ((64 - k.size) * k.e) ≤ 256 ∧ (g + 1) * 8 ≤ 32 := by
  have hsource : (g + 1) * k.e ≤ 4 := (Nat.mul_le_mul_right k.e hg).trans h.groups
  have hcount : (g + 1) * 1 ≤ (g + 1) * k.e := Nat.mul_le_mul_left _ h.e
  have hslot : k.size * ((g + 1) * k.e) ≤ 32 * 4 := Nat.mul_le_mul h.high hsource
  have hrest : (64 - k.size) * ((g + 1) * k.e) ≤ 48 * 4 := Nat.mul_le_mul (by have := h.low; omega) hsource
  rw [Nat.mul_left_comm (g + 1), Nat.mul_left_comm (g + 1)]
  omega

theorem Packing.slots_apart {p o : Nat × Nat} (hp : p ∈ k.cells) (ho : o ∈ k.cells) :
    p = o ∨ k.slotPos p + (k.slotBytes p).length ≤ k.slotPos o ∨ k.slotPos o + (k.slotBytes o).length ≤ k.slotPos p := by
  have hp2 := (h.bounds (mem_corner.1 hp).2).1
  have ho2 := (h.bounds (mem_corner.1 ho).2).1
  unfold Packing.slotPos Packing.slotBytes
  rw [elemBytesOf_length, elemBytesOf_length, Nat.mul_assoc, Nat.mul_assoc, Nat.mul_comm k.e]
  exact tile_apart ho2 hp2

theorem Packing.metas_apart {p o : (Nat × Nat) × Bool} (hp : p ∈ k.metaCells) (ho : o ∈ k.metaCells) :
    p = o ∨ k.metaPos p + (k.metaBytes p).length ≤ k.metaPos o ∨ k.metaPos o + (k.metaBytes o).length ≤ k.metaPos p := by
  obtain ⟨⟨i, g⟩, b⟩ := p
  obtain ⟨⟨j, l⟩, c⟩ := o
  obtain ⟨-, hprest, hpbits⟩ := h.bounds (show g < k.groups from (Packing.mem_metaCells.1 hp).2)
  obtain ⟨-, horest, hobits⟩ := h.bounds (show l < k.groups from (Packing.mem_metaCells.1 ho).2)
  unfold Packing.metaPos Packing.metaBytes
  cases b with
  | true =>
    cases c with
    | true =>
      simp only [if_true, elemBytesOf_length, Nat.mul_assoc, Nat.mul_comm k.e]
      exact (pieces_apart horest hprest).imp_left fun e => by rw [e]
    | false =>
      simp only [if_true, if_false, Bool.false_eq_true, elemBytesOf_length, bytesOf_length, Nat.mul_assoc, Nat.mul_comm k.e]
      rw [Nat.succ_mul] at hprest
      omega
  | false =>
    cases c with
    | true =>
      simp only [if_true, if_false, Bool.false_eq_true, elemBytesOf_length, bytesOf_length, Nat.mul_assoc, Nat.mul_comm k.e]
      rw [Nat.succ_mul] at horest
      omega
    | false =>
      simp only [if_false, Bool.false_eq_true, bytesOf_length, Nat.mul_comm 8]
      exact (tile_apart (by omega) (by omega)).imp_left fun e => by rw [e]

/-! ### What is read of a pack (R209) -/

variable {x md : Block} {j g : Nat} (hj : j < k.rows) (hg : g < k.groups)
include hj hg

/-- The slot of a group holds the first elements that it keeps, and zeros after them. -/
theorem Packing.read_slot (hx : x.data.wf = true) {i : Nat} (hi : i < k.size) :
    natOf ((k.run (x, md)).1.data.read (256 * j + (g * k.size + i) * k.e) k.e) = (k.kept j g).getD i 0 % 256 ^ k.e := by
  have hmem : (j, g) ∈ k.cells := mem_corner.2 ⟨hj, hg⟩
  have hread := Memory.read_writeAll_own k.slotPos k.slotBytes k.cells hx hmem fun p hp => Packing.slots_apart h hp hmem
  rw [Packing.slotBytes, elemBytesOf_length] at hread
  rw [(k.run_data x md).1, Nat.add_mul, ← Nat.add_assoc]
  refine (natOf_read_elem hread hi).trans ?_
  rw [List.getD_eq_getElem?_getD, List.getElem?_take_of_lt hi, ← List.getD_eq_getElem?_getD]

/-- What the slot does not hold follows in the metadata, and then zeros. -/
theorem Packing.read_rest (hmd : md.data.wf = true) {i : Nat} (hi : i < 64 - k.size) :
    natOf ((k.run (x, md)).2.data.read (256 * j + 32 + (g * (64 - k.size) + i) * k.e) k.e) = (k.kept j g).getD (k.size + i) 0 % 256 ^ k.e := by
  have hmem : ((j, g), true) ∈ k.metaCells := Packing.mem_metaCells.2 ⟨hj, hg⟩
  have hread := Memory.read_writeAll_own k.metaPos k.metaBytes k.metaCells hmd hmem fun p hp => Packing.metas_apart h hp hmem
  simp only [Packing.metaBytes, Packing.metaPos, if_true, elemBytesOf_length] at hread
  rw [(k.run_data x md).2, Nat.add_mul, ← Nat.add_assoc]
  refine (natOf_read_elem hread hi).trans ?_
  rw [List.getD_eq_getElem?_getD, List.getElem?_drop, ← List.getD_eq_getElem?_getD]

/-- The metadata holds a bit for each element of a group, set where it is kept. -/
theorem Packing.read_bits (hmd : md.data.wf = true) {t : Nat} (ht : t < 64) :
    (natOf ((k.run (x, md)).2.data.read (256 * j + 8 * g) 8)).testBit t = k.keep j (64 * g + t) := by
  have hmem : ((j, g), false) ∈ k.metaCells := Packing.mem_metaCells.2 ⟨hj, hg⟩
  have hread := Memory.read_writeAll_own k.metaPos k.metaBytes k.metaCells hmd hmem fun p hp => Packing.metas_apart h hp hmem
  simp only [Packing.metaBytes, Packing.metaPos, if_false, Bool.false_eq_true, bytesOf_length] at hread
  rw [(k.run_data x md).2]
  refine (congrArg (fun bs => (natOf bs).testBit t) hread).trans ?_
  rw [natOf_bytesOf, show 256 ^ 8 = 2 ^ 64 by decide, Nat.testBit_mod_two_pow, decide_eq_true ht, Bool.true_and, testBit_sumBits _ ht]

/-- An element of a pack is where R209 looks for it, when it is kept. -/
theorem Packing.keptElem_run {sh : Word} (he : ewBits (shEw sh) / 8 = k.e) (hs : (if shDb sh then 16 else 32) = k.size) (hx : x.data.wf = true)
    (hmd : md.data.wf = true) {u v : Block} (hu : u.data = (k.run (x, md)).1.data) (hv : v.data = (k.run (x, md)).2.data) {t : Nat} (ht : t < 64) :
    keptElem sh u v j (64 * g + t) = if k.keep j (64 * g + t) then some (k.val j (64 * g + t)) else none := by
  have hdiv : (64 * g + t) / 64 = g := by omega
  have hmod : (64 * g + t) % 64 = t := by omega
  have hbit (t' : Nat) (h' : t' < 64) := Packing.read_bits h (x := x) (md := md) hj hg hmd h'
  have hrank : ((List.range t).filter (fun t' => (natOf ((k.run (x, md)).2.data.read (256 * j + 8 * g) 8)).testBit t')).length =
      ((List.range t).filter (fun t' => k.keep j (64 * g + t'))).length :=
    congrArg List.length (List.filter_congr fun t' h' => hbit t' ((List.mem_range.1 h').trans ht))
  unfold keptElem keptAt
  simp only [apply_ite Block.data, hu, hv, hdiv, hmod, he, hs, hbit t ht, hrank]
  cases hkeep : k.keep j (64 * g + t) with
  | false => rfl
  | true =>
    have hpick : (k.kept j g).getD ((List.range t).filter (fun t' => k.keep j (64 * g + t'))).length 0 = k.val j (64 * g + t) :=
      getD_picked (fun t' => k.val j (64 * g + t')) ht hkeep
    have hcount : ((List.range t).filter (fun t' => k.keep j (64 * g + t'))).length ≤ t :=
      (List.length_filter_le _ _).trans List.length_range.le
    generalize ((List.range t).filter (fun t' => k.keep j (64 * g + t'))).length = n at hpick hcount ⊢
    have hval : k.val j (64 * g + t) % 256 ^ k.e = k.val j (64 * g + t) := Nat.mod_eq_of_lt (h.val _ _)
    by_cases hn : n < k.size
    · have hread := Packing.read_slot h (x := x) (md := md) hj hg hx hn
      rw [hpick, hval] at hread
      simp only [Bool.true_eq_false, if_false, if_pos hn, Option.map_some, Bool.false_eq_true, if_true]
      rw [hread]
    · have hread := Packing.read_rest h (x := x) (md := md) hj hg hmd (i := n - k.size) (by omega)
      rw [Nat.add_sub_cancel' (Nat.le_of_not_lt hn), hpick, hval] at hread
      simp only [Bool.true_eq_false, if_false, if_neg hn, Option.map_some, if_true]
      rw [hread]

end

/-- Past the rows of a pack every byte stays. -/
theorem Packing.get_run_below {k : Packing} (h : k.Fits) {x md : Block} (hx : x.data.wf = true) (hmd : md.data.wf = true) {p : Nat}
    (hp : 256 * k.rows ≤ p) : (k.run (x, md)).1.data.get p = x.data.get p ∧ (k.run (x, md)).2.data.get p = md.data.get p := by
  rw [(k.run_data x md).1, (k.run_data x md).2]
  refine ⟨Memory.get_writeAll_outside _ _ _ hx fun o ho => ?_, Memory.get_writeAll_outside _ _ _ hmd fun o ho => ?_⟩
  · obtain ⟨hrow, hg⟩ := mem_corner.1 ho
    obtain ⟨hslot, -, -⟩ := h.bounds hg
    unfold Packing.slotPos Packing.slotBytes
    rw [elemBytesOf_length, Nat.mul_assoc, Nat.mul_comm k.e]
    rw [Nat.succ_mul] at hslot
    omega
  · obtain ⟨⟨i, g⟩, b⟩ := o
    obtain ⟨hrow, hg⟩ : i < k.rows ∧ g < k.groups := Packing.mem_metaCells.1 ho
    obtain ⟨-, hrest, hbits⟩ := h.bounds hg
    unfold Packing.metaPos Packing.metaBytes
    cases b with
    | false =>
      simp only [if_false, Bool.false_eq_true, bytesOf_length]
      omega
    | true =>
      simp only [if_true, elemBytesOf_length, Nat.mul_assoc, Nat.mul_comm k.e]
      rw [Nat.succ_mul] at hrest
      omega

/-! ### TSPK (R210) -/

/-- A command's source and its metadata tile, and whether its elements are q8 codes (log 48). -/
def packSrc (c : TileCmd) : Nat := c.a.toNat % 2 ^ 5
def packMeta (c : TileCmd) : Nat := c.a.toNat / 2 ^ 5 % 2 ^ 5
def packsQ8 (d : Side) (c : TileCmd) : Bool := shEw (d.shape c.n) = 1 && Config.packsCodes c.a (d.comp (packSrc c)).data

/-- What a TSPK packs. -/
def packingOf (d : Side) (c : TileCmd) : Packing where
  size := slotSize (d.shape c.n)
  e := ewBits (shEw (d.shape c.n)) / 8
  rows := shRows (d.shape c.n)
  groups := shCols (d.shape c.n) / 64
  keep j k :=
    let v := tileElem (d.tile (packSrc c)) (ewBits (shEw (d.shape c.n))) j k
    if packsQ8 d c then v ≠ compZero (d.comp (packSrc c)) false j (k / groupSize (Config.packsGroup c.a (d.comp (packSrc c)).data))
    else v % 2 ^ (ewBits (shEw (d.shape c.n)) - 1) ≠ 0
  val j k := tileElem (d.tile (packSrc c)) (ewBits (shEw (d.shape c.n))) j k

/-- A side with a packed tile and its metadata. -/
def Side.packedTiles (d : Side) (c : TileCmd) (bad : Bool) (r : Block × Block) : Side :=
  let rows := shRows (d.shape c.n)
  (d.setTile c.n (r.1.spoilRowsIf bad (rowBytes (d.shape c.n)) rows)).setTile (packMeta c) (r.2.spoilRowsIf bad 256 rows)

/-- And for q8 codes with the companion rows of the source. -/
def Side.packed (d : Side) (c : TileCmd) (bad : Bool) (r : Block × Block) : Side :=
  if packsQ8 d c then
    (d.packedTiles c bad r).setComp c.n ((d.comp c.n).putRows (fun r => 64 * r) (fun r => (d.comp (packSrc c)).data.read (64 * r) 64)
      (fun r => (upFrom (64 * r) 64).filter (fun i => (d.comp (packSrc c)).bad i 1)) (shRows (d.shape c.n)))
  else d.packedTiles c bad r

theorem runTspk_packs (d : Side) (c : TileCmd) : ∃ bad : Bool,
    runTspk d c = d.packed c bad ((packingOf d c).run (d.tile c.n, d.tile (packMeta c))) := by
  unfold runTspk
  simp only [field_eq, Nat.pow_zero, Nat.div_one]
  exact ⟨_, rfl⟩

theorem runCmd_tspk (d : Side) {c : TileCmd} (a : Option Agent) (h : c.kind = 8) : runCmd d c a = (runTspk d c, 0, false) := by
  simp only [runCmd, h]

theorem packed_tile (d : Side) (c : TileCmd) (bad : Bool) (r : Block × Block) (m : Nat) : (d.packed c bad r).tile m = (d.packedTiles c bad r).tile m := by
  unfold Side.packed
  split <;> rfl

/-- TSPK changes the registers that it packs into alone. -/
theorem packed_keeps (d : Side) (c : TileCmd) (bad : Bool) (r : Block × Block) : KeepsRegs d (d.packed c bad r) [c.n, packMeta c] [c.n] [] where
  tiles m hm := by
    rw [List.mem_pair, not_or] at hm
    rw [packed_tile, Side.packedTiles, Side.tile_setTile_other _ _ hm.2, Side.tile_setTile_other _ _ hm.1]
  comps m hm := by
    unfold Side.packed
    split
    · exact Side.comp_setComp_other _ _ fun e => hm (List.mem_singleton.2 e)
    · rfl
  accs m _ := by
    unfold Side.packed
    split <;> rfl
  shapes := by
    unfold Side.packed
    split <;> rfl

theorem packed_tile_data {d : Side} {c : TileCmd} (bad : Bool) (r : Block × Block) (hmn : packMeta c ≠ c.n) (hn : c.n < d.tiles.length) :
    ((d.packed c bad r).tile c.n).data = r.1.data := by
  rw [packed_tile, Side.packedTiles, Side.tile_setTile_other _ _ hmn.symm, Side.tile_setTile _ hn, Block.spoilRowsIf_data]

theorem packed_meta_data {d : Side} {c : TileCmd} (bad : Bool) (r : Block × Block) (hm : packMeta c < d.tiles.length) :
    ((d.packed c bad r).tile (packMeta c)).data = r.2.data := by
  rw [packed_tile, Side.packedTiles, Side.tile_setTile _ (by simpa [Side.setTile] using hm), Block.spoilRowsIf_data]

/-- The companion rows of q8 codes are copied, and else stay. -/
theorem packed_companion (d : Side) {c : TileCmd} (bad : Bool) (r : Block × Block) (hn : c.n < d.comps.length) (hwf : (d.comp c.n).data.wf = true)
    (i : Nat) {k : Nat} (hk : k < 64) : ((d.packed c bad r).comp c.n).data.get (64 * i + k) =
      if packsQ8 d c = true ∧ i < shRows (d.shape c.n) then (d.comp (packSrc c)).data.get (64 * i + k) else (d.comp c.n).data.get (64 * i + k) := by
  unfold Side.packed
  by_cases hq : packsQ8 d c = true
  · rw [if_pos hq, Side.comp_setComp _ (by exact hn)]
    refine (Block.get_putRows (fun _ => rfl) (fun _ => read_length _ _ _) (Nat.le_refl 64) hwf hk).trans ?_
    rw [Memory.getD_read _ hk]
    exact if_congr (by rw [and_iff_left hk, and_iff_right hq]) rfl rfl
  · rw [if_neg hq, if_neg (show ¬(packsQ8 d c = true ∧ i < shRows (d.shape c.n)) from fun h => hq h.1)]
    rfl

/-- A number below twice `m` is a zero of one sign or the other exactly where its rest is none. -/
theorem mod_ne_zero_iff {v m : Nat} (h : v < 2 * m) : v % m ≠ 0 ↔ v ≠ 0 ∧ v ≠ m := by
  by_cases hlt : v < m
  · rw [Nat.mod_eq_of_lt hlt]
    omega
  · rw [Nat.mod_eq_sub_mod (Nat.le_of_not_lt hlt), Nat.mod_eq_of_lt (by omega)]
    omega

/-- A shape of bitmap-sparse rows is one of elements of one or two bytes, at most 256 bytes of them. -/
theorem packing_fits {d : Side} {c : TileCmd} (hsh : shapeUsable (d.shape c.n) = true) (hlay : shLay (d.shape c.n) = true) :
    (packingOf d c).Fits ∧ ewBits (shEw (d.shape c.n)) = 8 * (packingOf d c).e := by
  obtain ⟨-, hcols, hsparse⟩ := shape_bounds hsh
  obtain ⟨hew, -⟩ := hsparse hlay
  have hw : ewBits (shEw (d.shape c.n)) = 8 ∨ ewBits (shEw (d.shape c.n)) = 16 := hew.imp (fun h => by rw [h]; rfl) (fun h => by rw [h]; rfl)
  have he : ewBits (shEw (d.shape c.n)) = 8 * (packingOf d c).e := by
    unfold packingOf
    dsimp only
    omega
  refine ⟨⟨?_, ?_, by omega, ?_, fun j t => ?_⟩, he⟩
  · show 16 ≤ slotSize (d.shape c.n)
    unfold slotSize
    split <;> omega
  · show slotSize (d.shape c.n) ≤ 32
    unfold slotSize
    split <;> omega
  · have hgroups : shCols (d.shape c.n) / 64 * 64 * ewBits (shEw (d.shape c.n)) ≤ 2048 := (Nat.mul_le_mul_right _ (Nat.div_mul_le_self _ 64)).trans hcols
    have hprod : shCols (d.shape c.n) / 64 * 64 * ewBits (shEw (d.shape c.n)) = 512 * ((packingOf d c).groups * (packingOf d c).e) := by
      rw [he, show (packingOf d c).groups = shCols (d.shape c.n) / 64 from rfl]
      ring
    omega
  · show tileElem _ (ewBits (shEw (d.shape c.n))) j t < _
    rw [he, tileElem_bytes]
    exact (natOf_lt _).trans_eq (by rw [read_length])

end Sys2Proof.Machine

namespace Sys2Proof.Claims

theorem packResults_hold : PackResults := by
  intro d c a hkind r src md sh w e size q8 gs v keep hsh hlay hsm hsn hmn hn hm hc hwx hwm hwc
  obtain ⟨bad, hrun⟩ := runTspk_packs d c
  obtain ⟨hfits, hwe⟩ := packing_fits hsh hlay
  have hcmd : runCmd d c a = (runTspk d c, 0, false) := runCmd_tspk d a hkind
  have hr : r = d.packed c bad ((packingOf d c).run (d.tile c.n, d.tile md)) := (congrArg Prod.fst hcmd).trans hrun
  have hx : (r.tile c.n).data = ((packingOf d c).run (d.tile c.n, d.tile md)).1.data := hr ▸ packed_tile_data bad _ hmn hn
  have hmd : (r.tile md).data = ((packingOf d c).run (d.tile c.n, d.tile md)).2.data := hr ▸ packed_meta_data bad _ hm
  have hkeep (j k : Nat) : (packingOf d c).keep j k = keep j k := by
    have hv : v j k < 2 * 2 ^ (w - 1) := by
      have hpos := hfits.e
      have hw : w = 8 * (packingOf d c).e := hwe
      have hpow : 256 ^ (packingOf d c).e = 2 * 2 ^ (w - 1) := by
        rw [show (256 : Nat) = 2 ^ 8 from rfl, ← Nat.pow_mul, ← hw, ← Nat.pow_succ', Nat.succ_eq_add_one, Nat.sub_add_cancel (by omega)]
      exact (hfits.val j k).trans_eq hpow
    show (if q8 = true then decide (v j k ≠ zeroPoint (d.comp src) false j (k / gs)) else decide (v j k % 2 ^ (w - 1) ≠ 0)) = keep j k
    rw [decide_eq_decide.2 (mod_ne_zero_iff hv)]
  refine ⟨hr ▸ packed_keeps d c bad _, by rw [hcmd], fun j k hj hk => ?_, fun j g hj hg => ?_, fun p hp => ?_, fun i k hk => ?_⟩
  · have hcols : k < 64 * (packingOf d c).groups := by
      have := ((shape_bounds hsh).2.2 hlay).2
      show k < 64 * (shCols sh / 64)
      omega
    have helem := Packing.keptElem_run hfits (g := k / 64) (t := k % 64) (show j < (packingOf d c).rows from hj) (by omega) (sh := sh) rfl rfl hwx hwm hx hmd
      (Nat.mod_lt _ (by decide))
    rw [Nat.div_add_mod, hkeep] at helem
    exact helem
  · intro n
    have hlen : ((packingOf d c).kept j g).length = n := by
      rw [Packing.kept_length]
      simp only [hkeep]
      rfl
    have hzero {i : Nat} (hi : n ≤ i) : ((packingOf d c).kept j g).getD i 0 % 256 ^ (packingOf d c).e = 0 := by
      rw [List.getD_eq_default _ _ (hlen.trans_le hi), Nat.zero_mod]
    refine ⟨fun i hni hi => ?_, fun i hni hi => ?_⟩
    · rw [hx]
      exact (Packing.read_slot hfits hj hg hwx hi).trans (hzero hni)
    · rw [hmd]
      exact (Packing.read_rest hfits hj hg hwm hi).trans (hzero hni)
  · have hbelow := Packing.get_run_below hfits hwx hwm hp
    rw [hx, hmd]
    exact ⟨hbelow.2, hbelow.1⟩
  · rw [hr]
    exact packed_companion d bad _ hc hwc i hk

end Sys2Proof.Claims

/-- Settles O34: the moves and operations as they enter the queue, the queue as its first command completes, and what each command does to
its registers, read back byte by byte and element by element. -/
theorem tileWords : Obligations.TileWords := by
  unfold Obligations.TileWords
  exact ⟨tileMoves_hold, tileOperations_hold, tileCommandQueues_hold, tileCommandsComplete_hold, tileCommandResults_hold, loadResults_hold,
    storeResults_hold, conversionResults_hold, quantisedValues_hold, packResults_hold⟩

end

section
/-! Slots of tasks, and dependence counters (R234, R286, R288, R298). -/

namespace Sys2Proof.Machine

/-! ### The task of a slot -/

theorem State.task?_slot {s : State} {slot : Nat} {t : Task} (h : s.task? slot = some t) : t.slot = slot := by
  have := List.find?_some h
  simpa using this

theorem State.task?_setTask {s : State} {slot : Nat} {t0 t : Task} (h : s.task? slot = some t0) (ht : t.slot = slot) :
    (s.setTask t).task? slot = some t := by
  subst ht
  have := find_replaced (q := fun x : Task => decide (x.slot = t.slot)) (a := t) h (fun _ => rfl) (by simp)
  simpa [State.task?, State.setTask] using this

/-- Other slots keep their tasks. -/
theorem State.task?_setTask_other {s : State} {m : Nat} {t : Task} (h : m ≠ t.slot) : (s.setTask t).task? m = s.task? m := by
  have := find_kept (l := s.tasks) (p := fun x : Task => decide (x.slot = m)) (q := fun x : Task => decide (x.slot = t.slot)) (a := t)
    (fun x hx => by simpa [of_decide_eq_true hx] using h) (by simpa using h.symm)
  simpa [State.task?, State.setTask] using this

@[simp] theorem State.task?_meetGang (s : State) (t : Task) (m : Nat) : (s.meetGang t).task? m = s.task? m := by
  unfold State.meetGang
  repeat' split
  all_goals rfl

/-! ### A task enters the dispatch order (R288) -/

/-- A task but for the skips that are counted for it, and whether it blocks. -/
def Task.unskipped (t : Task) : Task := { t with blocking := false, skipped := none }

/-- A task as one that enters the order leaves it: first no more, if the other goes before it. -/
def Task.passedBy (x t : Task) : Task := if x.slot ≠ t.slot && taskBefore t x then x.unskipped else x

@[simp] theorem Task.passedBy_slot (x t : Task) : (x.passedBy t).slot = x.slot := by
  unfold Task.passedBy
  split <;> rfl

@[simp] theorem Task.passedBy_unskipped (x t : Task) : (x.passedBy t).unskipped = x.unskipped := by
  unfold Task.passedBy
  split <;> rfl

theorem Task.passedBy_of_slot {x t : Task} (h : x.slot = t.slot) : x.passedBy t = x := by simp [Task.passedBy, h]

theorem State.task?_enters (s : State) (t : Task) (m : Nat) :
    (s.enters t).task? m = (s.task? m).map (fun x => if ranks s t then x.passedBy t else x) := by
  unfold State.enters
  by_cases h : ranks s t = true
  · have hp : (fun x : Task => decide (x.slot = m)) ∘ (fun x : Task => x.passedBy t) = fun x : Task => decide (x.slot = m) := by
      funext x
      simp
    have := List.find?_map (p := fun x : Task => decide (x.slot = m)) (f := fun x : Task => x.passedBy t) (l := s.tasks)
    rw [hp] at this
    simp only [h, if_true]
    exact this
  · simp [h]

/-- The task that enters stays as it is. -/
theorem State.task?_enters_same {s : State} {t v : Task} (h : s.task? t.slot = some v) : (s.enters t).task? t.slot = some v := by
  rw [State.task?_enters, h, Option.map_some, Task.passedBy_of_slot (State.task?_slot h), ite_self]

/-- Another task keeps all but its skips. -/
theorem State.task?_enters_unskipped {s : State} {t v : Task} {m : Nat} (h : s.task? m = some v) :
    ∃ u, (s.enters t).task? m = some u ∧ u.unskipped = v.unskipped := by
  rw [State.task?_enters, h]
  refine ⟨_, rfl, ?_⟩
  split <;> simp

/-! ### A counter reaches 0 (R234, R298) -/

/-- The task whose counter is 0 keeps what its record and its counter say, and is READY if it was WAITING. -/
theorem becomeReady_task? {s : State} {t0 t : Task} (h : s.task? t.slot = some t0) : ∃ u, (becomeReady s t).task? t.slot = some u ∧
    (t.state = .waiting → u.state = .ready) ∧ u.counter = t.counter ∧ u.overrun = t.overrun ∧ u.record = t.record ∧ u.ctx = t.ctx := by
  unfold becomeReady
  split
  · let t1 : Task := { t with state := .ready, readyAt := s.readies }
    exact ⟨t1, State.task?_enters_same (t := t1) ((State.task?_meetGang _ _ _).trans (State.task?_setTask h rfl)),
      fun _ => rfl, rfl, rfl, rfl, rfl⟩
  next hw =>
    split
    · exact ⟨_, State.task?_setTask h rfl, fun hs => absurd hs hw, rfl, rfl, rfl, rfl⟩
    · exact ⟨_, State.task?_setTask h rfl, fun hs => absurd hs hw, rfl, rfl, rfl, rfl⟩

theorem becomeReady_other {s : State} {t v : Task} {m : Nat} (hm : m ≠ t.slot) (h : s.task? m = some v) :
    ∃ u, (becomeReady s t).task? m = some u ∧ u.unskipped = v.unskipped := by
  have hkept {t1 : Task} (hs : t1.slot = t.slot) : (s.setTask t1).task? m = some v := (State.task?_setTask_other (hs ▸ hm)).trans h
  unfold becomeReady
  split
  · exact State.task?_enters_unskipped ((State.task?_meetGang _ _ _).trans (hkept rfl))
  · split
    · exact ⟨v, hkept rfl, rfl⟩
    · exact ⟨v, hkept rfl, rfl⟩

/-! ### A count (R234) -/

section
variable {s : State} {slot n : Nat}

theorem arriveOnce_of_nothing (h : s.task? slot = none ∨ n = 0) : arriveOnce s slot n = s := by
  unfold arriveOnce
  split
  · rfl
  next t ht =>
    have hn : n = 0 := h.resolve_left (by simp [ht])
    rw [if_pos hn]

variable {t : Task} (ht : s.task? slot = some t) (hn : 0 < n)
include ht hn

theorem arriveOnce_below (h : n < t.counter.toNat) : arriveOnce s slot n = s.setTask { t with counter := BitVec.ofNat 32 (t.counter.toNat - n) } := by
  simp only [arriveOnce, ht, Nat.pos_iff_ne_zero.1 hn, Nat.not_lt.2 h.le, h.ne', if_false]

/-- At or below 0 the counter is 0, and below it the count overran. -/
theorem arriveOnce_reaches (h : t.counter.toNat ≤ n) :
    arriveOnce s slot n = becomeReady s { t with counter := 0, overrun := decide (t.counter.toNat < n) || t.overrun } := by
  simp only [arriveOnce, ht, Nat.pos_iff_ne_zero.1 hn, if_false]
  by_cases hlt : t.counter.toNat < n
  · simp [hlt]
  · simp [Nat.le_antisymm h (Nat.not_lt.1 hlt)]

end

end Sys2Proof.Machine

open Sys2Proof Sys2Proof.Machine

/-- Settles O10: a count that stays above 0 replaces the task; one that reaches 0 makes it READY, and it enters the order. -/
theorem countersCountDown : Obligations.CountersCountDown := by
  unfold Obligations.CountersCountDown
  refine fun s slot n => ⟨arriveOnce_of_nothing, fun t ht hn => ⟨fun h => ?_, fun h => ?_, fun m v hm hv => ?_⟩⟩
  · obtain rfl := State.task?_slot ht
    rw [arriveOnce_below ht hn h]
    exact ⟨State.task?_setTask ht rfl, fun m hm => State.task?_setTask_other hm⟩
  · obtain rfl := State.task?_slot ht
    rw [arriveOnce_reaches ht hn h]
    obtain ⟨u, hu, hready, hcount, hover, hrec, hctx⟩ :=
      becomeReady_task? (t := { t with counter := 0, overrun := decide (t.counter.toNat < n) || t.overrun }) ht
    exact ⟨u, hu, hcount, hready, fun hlt => by simp [hover, hlt], fun heq => by simp [hover, heq], hrec, hctx⟩
  · obtain rfl := State.task?_slot ht
    rcases Nat.lt_or_ge n t.counter.toNat with h | h
    · rw [arriveOnce_below ht hn h]
      exact ⟨v, (State.task?_setTask_other (by exact hm)).trans hv, rfl⟩
    · rw [arriveOnce_reaches ht hn h]
      exact becomeReady_other (t := { t with counter := 0, overrun := decide (t.counter.toNat < n) || t.overrun }) hm hv

end

section
/-! The task words (R231-R235), and how a record is posted (R233). -/

namespace Sys2Proof.Machine

open Sys2Proof.Claims

/-! ### Where a record is read from (R233) -/

section
variable {s : State} {x : Ix} {n : BitVec 5} {off m : Nat}

theorem touchWindow_eq : touchWindow s x (decide (n = 1)) off m =
    if n = 1 ∧ off + m ≤ Config.windowBytes then s.touchRange x.t.ctx (Config.windowBase + off) m else s := by
  simp only [touchWindow, Bool.and_eq_true, decide_eq_true_eq]

/-- A readable record in the window, or in the scratchpad. -/
theorem recordRange_ok {parts : List (Nat × Nat × Nat)}
    (hwindow : n = 1 → off + m ≤ Config.windowBytes ∧ rangeFault s x.t.ctx (Config.windowBase + off) m .read = none ∧
      parts = (virtParts s x.t.ctx (Config.windowBase + off) m 0).map (fun p => (p.1, p.2.1, p.2.2.1)))
    (hscratch : n ≠ 1 → ∃ loc, scratchAt x.t x.core off m = some loc ∧ parts = lineParts (m / 64 + 2) loc m 0) :
    recordRange s x (decide (n = 1)) off m = .ok parts := by
  unfold recordRange
  by_cases hn : n = 1
  · obtain ⟨hin, hread, rfl⟩ := hwindow hn
    simp only [hn, decide_true, if_true, Nat.not_lt.2 hin, if_false, hread]
  · obtain ⟨loc, hloc, rfl⟩ := hscratch hn
    simp only [hn, decide_false, Bool.false_eq_true, if_false, hloc]

end

theorem afterRelease_of_complete {x : Ix} {s s1 : State} (h : release s x.core x.slot 4 = (s1, true)) (go : State → State) :
    afterRelease x s go = go s1 := by
  simp only [afterRelease, h, if_true]

/-! ### POST (R233) -/

/-- The operation that a POST of a record starts. -/
def postOp (x : Ix) (b : SReg) (k : Tok) (s : State) : LongOp :=
  { id := s.ids, tok := k, inH := x.h, lanes := x.act, owed := true, scope := 4, dst := if b = 0 then [] else [.s b.toNat] }

/-- The agent that reads the record. -/
def recordReader (x : Ix) (b : SReg) (n : BitVec 5) (off op id : Nat) (parts : List (Nat × Nat × Nat)) : Agent :=
  { id := id, kind := 8, ctx := x.t.ctx, task := x.t.slot, team := some x.t.id, core := x.core, slot := x.slot, scope := 4
    steps := parts.map (fun p => .read p.1 p.2.1 p.2.2 false)
    pages := if n = 1 then (pagesOf (Config.windowBase + off) 128).map (BitVec.ofNat 48) else []
    fin := .post x.core x.slot op b }

/-- The state in which an agent that reads the record has started. -/
def reading (s : State) (x : Ix) (b : SReg) (k : Tok) (n : BitVec 5) (off : Nat) (parts : List (Nat × Nat × Nat)) : State :=
  let s1 := startOp s x.core x.slot (postOp x b k s)
  loseStanding (s1.fresh.startAgent (recordReader x b n off s.ids s1.ids parts) []) x.t.id

theorem execPost_ready {a b : SReg} {k : Tok} {n : BitVec 5} {s s1 s2 s3 : State} {x : Ix} {parts : List (Nat × Nat × Nat)}
    (h : UReady (.post a b k n) s x s1) (hpost : dpost s1 x.t.ctx = true) (halign : (sval s1 x a).toNat % 64 = 0)
    (htouch : touchWindow s1 x (decide (n = 1)) (sval s1 x a).toNat 128 = s2)
    (hrange : recordRange s2 x (decide (n = 1)) (sval s1 x a).toNat 128 = .ok parts) (hrel : release s2 x.core x.slot 4 = (s3, true)) :
    exec (Code.u (.post a b k n)).instr s = .next (uEnd x (reading s3 x b k n (sval s1 x a).toNat parts)) := by
  rw [exec_post, execPost, uset_ready h]
  simp only [hpost, Bool.not_true, Bool.false_eq_true, if_false, halign, ne_eq, not_true_eq_false, htouch, hrange, afterRelease_of_complete hrel]
  rfl

theorem startOp_agents (s : State) (core slot : Nat) (op : LongOp) : (startOp s core slot op).agents = s.agents := by
  unfold startOp
  split <;> simp

theorem startOp_tasks (s : State) (core slot : Nat) (op : LongOp) : (startOp s core slot op).tasks = s.tasks := by
  unfold startOp
  split <;> simp

theorem startOp_mem (s : State) (core slot : Nat) (op : LongOp) : (startOp s core slot op).mem = s.mem := by
  unfold startOp
  split <;> simp

@[simp] theorem State.startAgent_agents (s : State) (a : Agent) (locks : List RangeLock) : (s.startAgent a locks).agents = s.agents ++ [a] := rfl
@[simp] theorem State.startAgent_tasks (s : State) (a : Agent) (locks : List RangeLock) : (s.startAgent a locks).tasks = s.tasks := rfl
@[simp] theorem State.startAgent_mem (s : State) (a : Agent) (locks : List RangeLock) : (s.startAgent a locks).mem = s.mem := rfl

theorem reading_frame (s : State) (x : Ix) (b : SReg) (k : Tok) (n : BitVec 5) (off : Nat) (parts : List (Nat × Nat × Nat)) :
    (∃ id, (reading s x b k n off parts).agents = s.agents ++ [recordReader x b n off s.ids id parts]) ∧
    (reading s x b k n off parts).tasks = s.tasks ∧ (reading s x b k n off parts).mem = s.mem := by
  unfold reading
  obtain ⟨ts, hts⟩ := loseStanding_eq ((startOp s x.core x.slot (postOp x b k s)).fresh.startAgent
    (recordReader x b n off s.ids (startOp s x.core x.slot (postOp x b k s)).ids parts) []) x.t.id
  dsimp only
  rw [hts]
  simp only [State.startAgent_agents, State.startAgent_tasks, State.startAgent_mem, State.fresh_agents, State.fresh_tasks, State.fresh_mem,
    startOp_agents, startOp_tasks, startOp_mem]
  exact ⟨⟨_, rfl⟩, trivial, trivial⟩

/-! ### ARRIVE (R234) -/

theorem extractHigh_eq_zero {v : DWord} (h : v.toNat < 2 ^ 32) : v.extractLsb' 32 32 = 0 := by
  apply BitVec.eq_of_toNat_eq
  rw [BitVec.extractLsb'_toNat, Nat.shiftRight_eq_div_pow, Nat.div_eq_of_lt h]
  rfl

/-! ### A record is posted (R233) -/

/-- The lowest number of a range that has a property is the one found. -/
theorem find_upFrom_lowest {p : Nat → Bool} {a k n : Nat} (hn : n ∈ upFrom a k) (hp : p n = true)
    (hlow : ∀ j ∈ upFrom a k, j < n → p j = false) : (upFrom a k).find? p = some n := by
  have hmem := (upFrom_mem a k n).1 hn
  rw [upFrom_eq_range'] at hn ⊢
  exact List.find?_range'_eq_some.2 ⟨hp, hn, fun j hj hlt => by
    rw [hlow j ((upFrom_mem a k j).2 ⟨hj, hlt.trans hmem.2⟩) hlt]
    rfl⟩

/-- The slots of a context's range. -/
def slotRange (s : State) (ctx : Nat) : List Nat := upFrom (cslotBase (s.ctx ctx).cslot) (cslotCount (s.ctx ctx).cslot)

/-- Whether a slot of a context is free. -/
def slotFree (s : State) (ctx n : Nat) : Bool := slotIn s ctx n && (s.task? n).isNone

theorem slotFree_iff {s : State} {ctx n : Nat} : slotFree s ctx n = true ↔ slotIn s ctx n = true ∧ s.task? n = none := by
  simp [slotFree]

theorem slotFree_eq_false {s : State} {ctx n : Nat} (h : slotIn s ctx n = true → s.task? n ≠ none) : slotFree s ctx n = false := by
  rw [Bool.eq_false_iff, Ne, slotFree_iff]
  exact fun ⟨hin, hnone⟩ => h hin hnone

/-- A record in the slot that it takes. -/
def postedTask (s : State) (ctx n : Nat) (r : List Byte) : Task :=
  { slot := n, ctx := ctx, state := if recCounter r = 0 then .ready else .waiting, record := r, counter := BitVec.ofNat 32 (recCounter r)
    readyAt := if recCounter r = 0 then s.readies else 0 }

section
variable {s : State} {ctx : Nat} (r : List Byte)

theorem postRecord_of_full (h : ∀ n ∈ slotRange s ctx, slotFree s ctx n = false) : postRecord s ctx r = (0xFFFFFFFFFFFFFFFF, s) := by
  have hf : (slotRange s ctx).find? (slotFree s ctx) = none := List.find?_eq_none.2 fun n hn => by simp [h n hn]
  unfold slotRange slotFree at hf
  simp only [postRecord, hf]

variable {r}

theorem postRecord_of_refused {n : Nat} (hn : n ∈ slotRange s ctx) (hfree : slotFree s ctx n = true)
    (h : refused (touchTables s ctx r) ctx r = true) : postRecord s ctx r = (0xFFFFFFFFFFFFFFFE, touchTables s ctx r) := by
  obtain ⟨m, hf⟩ := Option.isSome_iff_exists.1 (List.find?_isSome.2 ⟨n, hn, hfree⟩)
  unfold slotRange slotFree at hf
  simp only [postRecord, hf, h, if_true]

/-- The lowest free slot takes the record; a READY one enters the dispatch order. -/
theorem postRecord_of_taken {n : Nat} (hf : (slotRange s ctx).find? (slotFree s ctx) = some n) (h : refused (touchTables s ctx r) ctx r = false) :
    let u := touchTables s ctx r
    let t := postedTask u ctx n r
    postRecord s ctx r = (BitVec.ofNat 64 n, (if recCounter r = 0 then
        ({ u with tasks := u.tasks ++ [t], readies := u.readies + 1 } : State).readied t
      else { u with tasks := u.tasks ++ [t] }).settled) := by
  unfold slotRange slotFree at hf
  by_cases hz : recCounter r = 0
  · simp only [postRecord, hf, h, hz, Bool.false_eq_true, if_false, if_true, postedTask]
  · simp only [postRecord, hf, h, hz, Bool.false_eq_true, if_false, postedTask]

end

end Sys2Proof.Machine

open Sys2Proof Sys2Proof.Machine

namespace Sys2Proof.Claims

theorem postWord_holds : PostWord := by
  rintro a b k n s s1 s2 s3 x off parts h hpost rfl halign rfl hwindow hscratch hrel
  obtain ⟨⟨id, hagents⟩, htasks, hmem⟩ := reading_frame s3 x b k n (sval s1 x a).toNat parts
  exact ⟨_, _, execPost_ready h hpost halign touchWindow_eq (recordRange_ok hwindow hscratch) hrel, hagents, rfl, rfl, rfl, ⟨_, rfl⟩, htasks, hmem⟩

theorem arriveWord_holds : ArriveWord := by
  intro a b k s s1 s2 x h hcount hslot hrel
  rw [exec_arrive, execArrive, uset_ready h]
  simp only [extractHigh_eq_zero hcount, ne_eq, not_true_eq_false, if_false, hslot, Bool.not_true, Bool.false_eq_true, afterRelease_of_complete hrel]

theorem appendAndSeal_hold : AppendAndSeal := by
  intro s s1 x a k task hpost htask
  have hd : dpost s1 x.t.ctx = true := hpost
  refine ⟨fun b n s2 s3 s4 s5 off num parts cnt h hopen hoff htouch hwindow hscratch hcount hrel hcnt hnum hdst hclean hrec hword => ?_,
    fun s2 t h hrel ht => ?_⟩
  · subst hoff htouch hnum
    rw [exec_append, execAppend, uset_ready h]
    simp only [hd, Bool.not_true, Bool.false_eq_true, if_false, htask, hopen, touchWindow_eq, recordRange_ok hwindow hscratch]
    rw [hcount]
    dsimp only
    rw [afterRelease_of_complete hrel, hcnt]
    dsimp only
    rw [hdst]
    dsimp only
    have hsound : parts.any (fun p => (s3.windowTouch x.t.ctx (recTeams task.record + 32 + 32 * natOf cnt) 32).anyPoison p.1 p.2.1) = false :=
      List.any_eq_false.2 fun p hp => by simp [hclean p hp]
    rw [hsound, hrec]
    simp only [Bool.false_eq_true, if_false, Option.getD_some, hword]
  · rw [exec_seal, execSeal, uset_ready h]
    simp only [hd, Bool.not_true, Bool.false_eq_true, if_false, htask, afterRelease_of_complete hrel, ht]

theorem recordsArePosted_hold : RecordsArePosted := by
  intro s ctx r range u
  refine ⟨fun h => postRecord_of_full r fun n hn => slotFree_eq_false (h n hn),
    fun n hn hin hnone href => postRecord_of_refused hn (slotFree_iff.2 ⟨hin, hnone⟩) href, fun n hn hin hnone hlow href => ?_⟩
  have hf : (slotRange s ctx).find? (slotFree s ctx) = some n :=
    find_upFrom_lowest hn (slotFree_iff.2 ⟨hin, hnone⟩) fun j hj hlt => slotFree_eq_false (hlow j hj hlt)
  rw [postRecord_of_taken hf href]
  refine ⟨rfl, fun hz => ?_, fun hz => ?_⟩
  · simp only [hz, if_false, postedTask, u]
  · simp only [hz, if_true, postedTask, u]
    rfl

end Sys2Proof.Claims

/-- Settles O36: each word's body where its checks pass, and the slot that `postRecord` finds. -/
theorem taskWords : Obligations.TaskWords := by
  unfold Obligations.TaskWords
  exact ⟨Claims.postWord_holds, Claims.arriveWord_holds, Claims.appendAndSeal_hold, Claims.recordsArePosted_hold⟩

end

section
/-! Control registers (R239, R240) and barriers (R237). -/

namespace Sys2Proof.Machine

open Sys2Proof.Claims

/-! ### What GETC reads (R240) -/

/-- A group whose registers are 0, as the lantern reads them. -/
def zeroGroup : Group := { core := 0, slot := 0, team := 0, index := 0, width := 0, lanes := [] }

theorem detReg_eq_false {n : Nat} (h : n ≠ 3 ∧ n ≠ 4 ∧ n < 13) : detReg n = false := by
  unfold detReg
  obtain ⟨h3, h4, h13⟩ := h
  simp [h3, h4, Nat.not_le.2 h13]

section
variable {s : State} {x : Ix} {f : Front} (hf : s.front? x.core x.slot = some f)
include hf

theorem controlReg_of_group {g : Group} (hl : x.lan = false) (hg : s.group? x.core x.slot = some g) (n : Nat) :
    controlReg s x n = registerOf s x f g x.h n := by
  unfold controlReg registerOf
  simp only [hf, hl, hg] <;> rfl

/-- The lantern reads 0 where a group reads a register of its own. -/
theorem controlReg_of_lantern (hl : x.lan = true) (n : Nat) :
    controlReg s x n = if n < 5 then 0 else registerOf s x f zeroGroup x.h n := by
  have h : controlReg s x n = registerOf s x f zeroGroup x.h n := by
    unfold controlReg registerOf
    simp only [hf, hl] <;> rfl
  by_cases hn : n < 5
  · rw [if_pos hn]
    interval_cases n <;> exact h
  · rw [if_neg hn, h]

end

theorem execGetc_ready {d : SReg} {n : BitVec 6} {s s1 : State} {x : Ix} (h : UReady (.getc d n) s x s1)
    (hdet : x.t.det = true → n.toNat ≠ 3 ∧ n.toNat ≠ 4 ∧ n.toNat < 13) :
    exec (Code.u (.getc d n)).instr s = .next (uEnd x (setSval s1 x d (controlReg s1 x n.toNat))) := by
  have hread : (x.t.det && detReg n.toNat) = false := by
    cases hd : x.t.det with
    | false => rfl
    | true => exact detReg_eq_false (hdet hd)
  rw [exec_getc, execGetc, uset_ready h, hread]
  rfl

/-! ### A barrier's unit waits (R237) -/

theorem waitAtUnit_of_group {s : State} {x : Ix} {g : Group} (hl : x.lan = false) (hg : s.group? x.core x.slot = some g) (p : Park) (w : Waiting) :
    waitAtUnit s x p w = s.setGroup { (g.upd x.act (fun _ l =>
      { l with park := p, gather := .uset, pc := x.b.unit, next := x.nextPc })) with waiting := w } := by
  simp only [waitAtUnit, hl, Bool.false_eq_true, if_false, hg]

theorem barrierWord_ready {i : UInstr} {scope : Nat} {s s1 s2 : State} {x : Ix} {g : Group} {ok : Bool} (h : UReady i s x s1)
    (hl : x.lan = false) (hr : release s1 x.core x.slot scope = (s2, ok)) (hg : s2.group? x.core x.slot = some g) :
    barrierWord i scope s = .next (uEnd x (finishBarrier (s2.setGroup
      { (g.upd x.act (fun _ l => { l with park := .wait, gather := .uset, pc := x.b.unit, next := x.nextPc })) with
        waiting := .barrier scope }) x.t.id)) := by
  rw [barrierWord, uset_ready h, hr]
  dsimp only
  rw [waitAtUnit_of_group hl hg]

end Sys2Proof.Machine

open Sys2Proof Sys2Proof.Machine

namespace Sys2Proof.Claims

theorem readControl_holds : ReadControl := by
  intro d n s s1 x f h hf hdet
  refine ⟨fun g hl hg => ?_, fun hl => ?_⟩
  · rw [execGetc_ready h hdet, controlReg_of_group hf hl hg]
  · rw [execGetc_ready h hdet, controlReg_of_lantern hf hl]
    rfl

theorem writeControl_holds : WriteControl := by
  intro d a s s1 x h
  rw [exec_setc, execSetc, uset_ready h]
  refine ⟨fun g hl hg => ?_, fun l hl hf => ?_⟩
  · simp only [hl, hg, Bool.false_eq_true, if_false]
    refine ⟨?_, ?_, ?_, ?_, ?_⟩ <;> (rintro rfl; rfl)
  · simp only [hl, hf, if_true, uEnd]

theorem barriers_hold : Barriers := by
  rintro i scope (⟨rfl, rfl⟩ | ⟨rfl, rfl⟩) s s1 s2 x g ok h hl hr hg
  · exact (exec_tbar s).trans (barrierWord_ready h hl hr hg)
  · exact (exec_pbar s).trans (barrierWord_ready h hl hr hg)

end Sys2Proof.Claims

/-- Settles O39: what GETC reads, in a group and in the lantern, and each register that SETC writes. -/
theorem controlRegisters : Obligations.ControlRegisters := by
  unfold Obligations.ControlRegisters
  exact ⟨Claims.readControl_holds, Claims.writeControl_holds⟩

/-- Settles O37: both words are one barrier word, each at its own scope. -/
theorem barrierWords : Obligations.BarrierWords := by
  unfold Obligations.BarrierWords
  exact Claims.barriers_hold

end

section
/-! The state at reset (logs 5, 6 and 7). -/

namespace Sys2Proof.Machine

open Sys2Proof.Claims

theorem reset_canonical : State.reset.Canonical := ⟨rfl, .nil, .nil⟩

theorem reset_idle : Idle State.reset := ⟨rfl, rfl, rfl, rfl, rfl, rfl, rfl, rfl, rfl, rfl, rfl, rfl, rfl⟩

theorem holder_of_no_swap {c : Care} (h : c.swaps = []) (loc : Nat) : holder c loc = none := by
  unfold holder
  rw [h]
  exact ite_self none

/-- No swap holds a page, and memory lists no byte. -/
theorem reset_byte (a : Nat) : State.reset.byte a = 0 := by
  have hnone : swapBuffer State.reset.care a = none := by
    unfold swapBuffer
    rw [holder_of_no_swap rfl]
  unfold State.byte
  rw [hnone]
  rfl

end Sys2Proof.Machine

open Sys2Proof Sys2Proof.Machine

/-- Settles O14: each part as `State.reset` gives it. -/
theorem resetState : Obligations.ResetState := by
  unfold Obligations.ResetState
  exact ⟨reset_canonical, reset_idle, rfl, rfl, rfl, rfl, rfl, rfl, rfl, by decide, by decide, reset_byte, rfl⟩

end

section
/-! The ends of teams, of pre-emption requests and of saves (R231, R289, R300, R318). -/

namespace Sys2Proof.Machine

open Sys2Proof.Claims

/-! ### Write-back starts (R289) -/

/-- Write-back starts once the groups have retired, its entries can be taken, and the release is complete. -/
theorem startWriteBack_starts {s s1 : State} {team : Nat} {x x1 : Team} (hx : s.team? team = some x) (hnew : x.writingBack = false)
    (hsave : s.saving x.ctx = false) (hgroups : ∀ g ∈ s.groups, g.team = team → g.retired = true)
    (hlock : mayLock s x.core x.ticket (regionLocks (x.regions.filter (·.outs))) = true)
    (hroom : s.journal.length + (x.regions.filter (·.outs)).length ≤ 8192) (hrel : releaseTeam s x = (s1, true)) (hx1 : s1.team? team = some x1) :
    startWriteBack s team =
      (x.regions.filter (·.outs)).foldl (startRegion true team) (s1.setTeam { x1 with writingBack := true, ticket := none }) := by
  have hretired : s.groups.any (fun g => g.team = team && !g.retired) = false := List.any_eq_false.2 fun g hg => by
    by_cases ht : g.team = team
    · simp [hgroups g hg ht]
    · simp [ht]
  have hjournal : decide (Config.journalEntries < s.journal.length + (x.regions.filter (·.outs)).length) = false :=
    decide_eq_false (Nat.not_lt.2 hroom)
  simp only [startWriteBack, hx, hnew, hsave, hretired, hlock, hjournal, hrel, hx1, Bool.or_false, Bool.not_true, Bool.false_eq_true, if_false]

/-! ### A team retires (R231, R289) -/

/-- A channel without entries has nothing to drain. -/
theorem drainOut_of_empty {s : State} {core : Nat} (h : s.channel core = []) (p : Entry → Bool) : drainOut s core p = s := by
  rw [drainOut, h]
  rfl

theorem drainSides_of_empty {s : State} {sides : List Side} (h : ∀ d ∈ sides, s.channel d.core = []) (p : Entry → Bool) :
    sides.foldl (fun s d => drainOut s d.core p) s = s := by
  induction sides with
  | nil => rfl
  | cons d ds ih =>
    rw [List.foldl_cons, drainOut_of_empty (h d (List.mem_cons_self ..))]
    exact ih fun e he => h e (List.mem_cons_of_mem _ he)

section
variable {s : State} {team : Nat} {x : Team} (hx : s.team? team = some x) (hback : x.writingBack = true)
  (hgroups : ∀ g ∈ s.groups, g.team ≠ team) (hlanterns : ∀ l ∈ s.lanterns, l.team ≠ team)
  (hagents : ∀ a ∈ s.agents, a.team ≠ some team) (hjournal : ∀ j ∈ s.journal, j.teamId ≠ some team)
include hx hback hgroups hlanterns hagents hjournal

theorem teamIdle_of_nothing : teamIdle s x = true := by
  have hg : s.groups.any (fun g => g.team = x.id) = false := List.any_eq_false.2 fun g h => by simp [State.team?_id hx, hgroups g h]
  have hl : s.lanterns.any (fun l => l.team = x.id && l.fe.ops ≠ []) = false :=
    List.any_eq_false.2 fun l h => by simp [State.team?_id hx, hlanterns l h]
  have ha : s.agents.any (fun a => a.team = some x.id) = false := List.any_eq_false.2 fun a h => by simp [State.team?_id hx, hagents a h]
  have hj : s.journal.any (fun j => j.teamId = some x.id) = false := List.any_eq_false.2 fun j h => by simp [State.team?_id hx, hjournal j h]
  simp only [teamIdle, hback, hg, hl, ha, hj]
  rfl

/-- A team of a task that is not ragged sets the bit of its index. -/
theorem retireTeam_sets_bit {t : Task} (hsave : s.saving x.ctx = false) (hsides : ∀ d ∈ x.sides, s.channel d.core = [])
    (ht : s.task? x.slot = some t) (hkind : recKind t.record ≠ 1) :
    retireTeam s team = settleRequests ((setBitmap s t x.index).removeTeam team).settled := by
  have hidle := teamIdle_of_nothing hx hback hgroups hlanterns hagents hjournal
  have hlant : s.lanterns.filter (fun l => l.team = team) = [] := List.filter_eq_nil_iff.2 fun l hl => by simp [hlanterns l hl]
  have hempty : x.sides.any (fun d => (s.channel d.core).any (fun e => inScope 4 e.loc)) = false :=
    List.any_eq_false.2 fun d hd => by simp [hsides d hd]
  have hbit : retiringBit s t x = some x.index := if_neg hkind
  simp only [retireTeam, hx, hidle, hsave, hlant, List.foldl_nil, drainSides_of_empty hsides, hempty, ht, hbit, Bool.not_true, Bool.or_false,
    Bool.false_eq_true, if_false]

end

/-! ### A deadline passes (R300) -/

theorem expirePreempt_oldest {s : State} {p : Preempt} {rest : List Preempt} (hp : s.preempts = p :: rest)
    (hlate : p.start + 2 ^ bcfgDlx s.plat.bcfg ≤ s.now) :
    expirePreempt s 0 = settleRequests ((forcedReset { s with preempts := rest } p.ctx 1).answer 0x86 p.ctx p.seqNo 1) := by
  simp only [expirePreempt, hp, ne_eq, not_true_eq_false, decide_false, Nat.not_lt.2 hlate, Bool.or_self, Bool.false_eq_true, if_false]

end Sys2Proof.Machine

open Sys2Proof Sys2Proof.Machine

namespace Sys2Proof.Claims

theorem writeBackStarts_holds : WriteBackStarts := by
  intro team s s1 x x1 hx hnew hsave hgroups hlock hroom hrel hx1
  exact (exec_teamWriteBackStart team s).trans
    (congrArg Host.Outcome.next (startWriteBack_starts hx hnew hsave hgroups hlock hroom hrel hx1))

theorem teamsRetire_hold : TeamsRetire := by
  intro team s x t hx hsave hback hgroups hlanterns hagents hjournal hsides ht hkind
  exact (exec_teamRetirement team s).trans
    (congrArg Host.Outcome.next (retireTeam_sets_bit hx hback hgroups hlanterns hagents hjournal hsave hsides ht hkind))

theorem deadlinesExpire_hold : DeadlinesExpire := fun s _ _ hp hlate =>
  (exec_preemptDeadlineExpiry 0 s).trans (congrArg Host.Outcome.next (expirePreempt_oldest hp hlate))

theorem savesComplete_hold : SavesComplete := by
  intro ctx s s1 v rest hv hctx hgone hdrained hrel s2 img s4 hfits hbuffer hheld s3
  have hfirst : s.saves.head?.filter (fun v => v.ctx = ctx && v.gone.isNone) = some v := by simp [hv, hctx, hgone]
  rw [exec_contextSaveComplete, execContextSaveComplete]
  refine congrArg Host.Outcome.next ?_
  unfold finishSave
  rw [hfirst]
  dsimp only
  rw [hdrained, hrel]
  simp only [Bool.not_true, Bool.false_eq_true, if_false]
  rw [if_pos hfits, hbuffer, hheld]
  rfl

end Sys2Proof.Claims

/-- Settles O52: each event's conditions hold, and what it then does is its function's last branch. -/
theorem teamsAndRequestsEnd : Obligations.TeamsAndRequestsEnd := by
  unfold Obligations.TeamsAndRequestsEnd
  exact ⟨Claims.writeBackStarts_holds, Claims.teamsRetire_hold, Claims.deadlinesExpire_hold, Claims.savesComplete_hold⟩

end

section
/-! The pages that swaps and retirements move, phase by phase (R265, R269, R271, R273, R277). -/

namespace Sys2Proof.Machine

/-! ### A page of frame storage (R265) -/

theorem Memory.get_filter (p : Nat → Bool) (m : Memory) (y : Nat) :
    Memory.get (m.filter (fun c => p c.1)) y = if p y then m.get y else 0 := by
  induction m with
  | nil => exact (ite_self _).symm
  | cons c rest ih =>
    obtain ⟨a, b⟩ := c
    by_cases hay : a = y
    · subst hay
      by_cases hp : p a
      · simp [hp, Memory.get]
      · simpa [hp] using ih
    · by_cases hp : p a <;> simpa [hp, Memory.get, hay] using ih

theorem Memory.get_clear (m : Memory) (a n y : Nat) : (m.clear a n).get y = if y < a ∨ a + n ≤ y then m.get y else 0 := by
  refine (Memory.get_filter (fun x => decide (x < a) || decide (a + n ≤ x)) m y).trans ?_
  simp

/-- Cells of memory by their distance from a location. -/
def Memory.offsets (m : Memory) (a : Nat) : Memory := m.map (fun c => (c.1 - a, c.2))

theorem Memory.get_offsets {a : Nat} {m : Memory} (hm : Memory.from a m) (k : Nat) : (m.offsets a).get k = m.get (a + k) := by
  induction m with
  | nil => rfl
  | cons c rest ih =>
    have ha : a ≤ c.1 := hm c (List.mem_cons_self ..)
    have hk : c.1 - a = k ↔ c.1 = a + k := by omega
    simpa only [Memory.offsets, List.map_cons, Memory.get, hk] using
      congrArg (fun v => if c.1 = a + k then c.2 else v) (ih fun d hd => hm d (List.mem_cons_of_mem _ hd))

theorem Memory.wf_offsets {a : Nat} {m : Memory} (hm : Memory.from a m) (h : m.wf = true) : (m.offsets a).wf = true := by
  induction m with
  | nil => rfl
  | cons c rest ih =>
    obtain ⟨hb, hf, hw⟩ := (Memory.wf_cons _ _ _).1 h
    have ha : a ≤ c.1 := hm c (List.mem_cons_self ..)
    refine (Memory.wf_cons _ _ _).2 ⟨hb, fun d hd => ?_, ih (fun d hd => hm d (List.mem_cons_of_mem _ hd)) hw⟩
    obtain ⟨e, he, rfl⟩ := List.mem_map.1 hd
    have hce := hf e he
    show c.1 - a + 1 ≤ e.1 - a
    omega

/-- Cells put from a location upwards are read there; elsewhere memory reads as before. -/
theorem Memory.get_setCells {cells m : Memory} (hc : cells.wf = true) (hm : m.wf = true) (b y : Nat) :
    Memory.get (cells.foldl (fun (m : Memory) c => m.set (b + c.1) c.2) m) y =
      if b ≤ y ∧ cells.get (y - b) ≠ 0 then cells.get (y - b) else m.get y := by
  induction cells generalizing m with
  | nil => simp [Memory.get]
  | cons c rest ih =>
    obtain ⟨a, v⟩ := c
    obtain ⟨hv, hf, hw⟩ := (Memory.wf_cons _ _ _).1 hc
    have hzero : Memory.get rest a = 0 := Memory.get_from hf a.lt_succ_self
    rw [List.foldl_cons, ih hw (Memory.wf_set hm _ _), Memory.get_set hm, Memory.get]
    by_cases hy : y = b + a
    · subst hy
      simp [hzero, show v = 0#8 ↔ False from iff_false_intro hv]
    · by_cases hby : b ≤ y
      · simp [hy, show a ≠ y - b by omega]
      · simp [hy, hby]

theorem readPage_from (s : State) (a : Nat) : Memory.from a (s.mem.filter (fun c => a ≤ c.1 && c.1 < a + 0x10000)) := fun c hc => by
  have h := List.of_mem_filter hc
  simp only [Bool.and_eq_true, decide_eq_true_eq] at h
  exact h.1

theorem readPage_wf {s : State} (h : s.mem.wf = true) (a : Nat) : Memory.wf (readPage s a).data = true :=
  Memory.wf_offsets (readPage_from s a) (Memory.wf_filter h _)

theorem readPage_get (s : State) (a k : Nat) : Memory.get (readPage s a).data k = if k < 0x10000 then s.mem.get (a + k) else 0 := by
  refine (Memory.get_offsets (readPage_from s a) k).trans ?_
  rw [Memory.get_filter (fun x => decide (a ≤ x) && decide (x < a + 0x10000))]
  simp

/-- A placed page holds its block, and memory outside it is as it was. -/
theorem placePage_get {s : State} (h : s.mem.wf = true) (loc : Nat) {b : Block} (hb : b.data.wf = true) (y : Nat) :
    (placePage s loc b).mem.get y = if loc ≤ y ∧ b.data.get (y - loc) ≠ 0 then b.data.get (y - loc)
      else if y < loc ∨ loc + 0x10000 ≤ y then s.mem.get y else 0 :=
  (Memory.get_setCells hb (Memory.wf_clear h _ _) loc y).trans (by rw [Memory.get_clear])

theorem placePage_readPage_inside {s : State} (h : s.mem.wf = true) (a b : Nat) {k : Nat} (hk : k < 0x10000) :
    (placePage s b (readPage s a)).mem.get (b + k) = s.mem.get (a + k) := by
  rw [placePage_get h b (readPage_wf h a), Nat.add_sub_cancel_left, readPage_get, if_pos hk]
  by_cases hz : s.mem.get (a + k) = 0
  · rw [if_neg (fun hn => hn.2 hz), if_neg (by omega), hz]
  · rw [if_pos ⟨Nat.le_add_right b k, hz⟩]

theorem placePage_readPage_outside {s : State} (h : s.mem.wf = true) (a : Nat) {b y : Nat} (hy : y < b ∨ b + 0x10000 ≤ y) :
    (placePage s b (readPage s a)).mem.get y = s.mem.get y := by
  rw [placePage_get h b (readPage_wf h a), readPage_get, if_neg, if_pos hy]
  rintro ⟨hle, hne⟩
  exact hne (if_neg (by omega))

/-! ### Remap entries (R264, R277) -/

theorem remapOf_group (c : Care) (g : Nat) : (remapOf c g).group = g := by
  unfold remapOf
  split
  next r hr => simpa using List.find?_some hr
  · rfl

theorem remapOf_congr {c d : Care} (h : c.remaps = d.remaps) (g : Nat) : remapOf c g = remapOf d g := by
  unfold remapOf
  rw [h]

theorem find?_filter_putRemapIn {r : Remap} {q : Remap → Bool} (hq : q r = true) (l : List Remap) :
    ((putRemapIn r l).filter q).find? (fun x => x.group = r.group) = some r := by
  rw [List.find?_filter]
  induction l with
  | nil => simp [putRemapIn, hq]
  | cons x xs ih =>
    unfold putRemapIn
    split
    · simp [hq]
    · split
      · simp [hq]
      next hne => rw [List.find?_cons_of_neg (by simp [hne]), ih]

/-- An entry that is put is found again, unless it holds its reset value, which is not listed. -/
theorem remapOf_putRemap (c : Care) {r : Remap} {g : Nat} (hg : r.group = g) (h : r ≠ { group := r.group }) :
    remapOf (putRemap c r) g = r := by
  subst hg
  unfold remapOf
  rw [putRemap, find?_filter_putRemapIn (decide_eq_true h)]

/-- The entry of a group after a retirement of it: the frame is bad, and the spare is bound to it (R277). -/
def Remap.retiredBy (r : Remap) (w : Swap) : Remap :=
  { r with bad := r.bad ||| BitVec.ofNat 4 (2 ^ w.frame), spares := (w.frame, w.spare) :: r.spares }

theorem remapOf_putRemap_retiredBy (c : Care) (w : Swap) :
    remapOf (putRemap c ((remapOf c w.group).retiredBy w)) w.group = (remapOf c w.group).retiredBy w :=
  remapOf_putRemap c (remapOf_group c w.group) fun h => List.cons_ne_nil _ _ (congrArg Remap.spares h)

theorem Remap.bad_retiredBy (r : Remap) (w : Swap) (h : w.frame < 4) : (r.retiredBy w).bad.getLsbD w.frame = true := by
  rw [Remap.retiredBy, BitVec.getLsbD_or, BitVec.getLsbD_ofNat, Nat.testBit_two_pow_self, decide_eq_true h, Bool.and_self, Bool.or_true]

/-- What a frame holds lies in the spare that is bound to it last. -/
theorem frameLoc_retiredBy (r : Remap) (w : Swap) (off : Nat) : frameLoc (r.retiredBy w) w.frame off = spareLoc w.spare + off := by
  simp [frameLoc, realFrame, Remap.retiredBy, spareLoc]

theorem swapMap_eq_exchanged (r : Remap) (a b : Nat) : swapMap r a b = Claims.exchanged r a b := by
  rw [swapMap, Claims.exchanged, upFrom_zero, List.sum_eq_foldl, List.foldl_map]

/-! ### Care domains (R275, R276) -/

theorem Care.setDomain_getD_same {c : Care} {d : Nat} (h : d < c.domains.length) (f : Domain → Domain) :
    (c.setDomain d f).domains.getD d {} = f (c.domains.getD d {}) := by
  simp [Care.setDomain, h]

theorem Care.setDomain_getD_other (c : Care) {d k : Nat} (h : k ≠ d) (f : Domain → Domain) :
    (c.setDomain d f).domains.getD k {} = c.domains.getD k {} := by
  simp [Care.setDomain, List.getD_eq_getElem?_getD, List.getElem?_set_ne h.symm]

/-- A domain that is not there has no entry. -/
theorem Care.setDomain_getD_cases (c : Care) (d : Nat) (f : Domain → Domain) :
    (c.setDomain d f).domains.getD d {} = f (c.domains.getD d {}) ∨ (c.setDomain d f).domains.getD d {} = {} := by
  by_cases h : d < c.domains.length
  · exact .inl (c.setDomain_getD_same h f)
  · exact .inr (List.getD_eq_default _ _ (by simpa [Care.setDomain] using h))

theorem Care.setDomain_congr {c : Care} {d : Nat} {f g : Domain → Domain} (h : f (c.domains.getD d {}) = g (c.domains.getD d {})) :
    c.setDomain d f = c.setDomain d g := by
  rw [Care.setDomain, h, Care.setDomain]

theorem Care.setDomain_of_fixed {c : Care} {d : Nat} {f : Domain → Domain} (h : f (c.domains.getD d {}) = c.domains.getD d {}) :
    c.setDomain d f = c := by
  have hset : c.domains.set d (c.domains.getD d {}) = c.domains := by
    by_cases hd : d < c.domains.length
    · simp [hd]
    · exact List.set_eq_of_length_le (Nat.not_lt.1 hd)
  rw [Care.setDomain, h, hset]

@[simp] theorem warmUp_scores (n : Nat) (d : Domain) : (warmUp n d).scores = d.scores := by
  induction n generalizing d with
  | zero => rfl
  | succ n ih =>
    unfold warmUp
    repeat' split
    · rfl
    · exact ih _
    · exact ih _
    · rfl
    · rfl

/-- The hot list follows the entries, and changes none of them. -/
@[simp] theorem Domain.reheat_scores (d : Domain) : d.reheat.scores = d.scores := warmUp_scores _ _

/-- The row for which a frame is retired has no score afterwards (R277). -/
def Domain.freed (d : Domain) (row : Nat) : Domain := Domain.reheat { d with scores := d.scores.filter (fun x => x.row ≠ row) }

theorem Care.no_score_of_freed (c : Care) (d row : Nat) :
    ∀ x ∈ ((c.setDomain d (fun d => d.freed row)).domains.getD d {}).scores, x.row ≠ row := by
  intro x hx
  rcases c.setDomain_getD_cases d (fun d => d.freed row) with h | h
  · rw [h, Domain.freed, Domain.reheat_scores] at hx
    simpa using (List.mem_filter.1 hx).2
  · rw [h] at hx
    cases hx

/-! ### What an event on a row leaves unchanged (R276, R277) -/

/-- A retirement changes what care holds, and no remap entry of it, and tells the host. -/
theorem retirePage_eq (s : State) (d : Due) :
    ∃ c o, retirePage s d = { s with care := c, outbox := o } ∧ c.remaps = s.care.remaps := by
  unfold retirePage
  dsimp only
  repeat' split
  · exact ⟨_, _, rfl, rfl⟩
  · exact ⟨_, _, rfl, rfl⟩
  · exact ⟨{ s.care with due := s.care.due ++ [d] }, _, rfl, rfl⟩
  · exact ⟨_, _, rfl, rfl⟩
  · exact ⟨{ s.care with swaps := s.care.swaps ++ [_] }, _, rfl, rfl⟩

/-- So does an event on a row. -/
theorem scoreEvent_eq (s : State) (group frame line n : Nat) :
    ∃ c o, scoreEvent s group frame line n = { s with care := c, outbox := o } ∧ c.remaps = s.care.remaps := by
  unfold scoreEvent
  extract_lets k row s1 d
  have h1 : ∃ c o, s1 = { s with care := c, outbox := o } ∧ c.remaps = s.care.remaps :=
    ⟨s.care.setDomain k (fun d => addScore d group frame line n), _, rfl, rfl⟩
  split
  · exact h1
  · dsimp only
    split
    · exact retirePage_eq s1 _
    · exact h1

theorem scrubLine_remaps (s : State) (f : RowFinding) : (scrubLine s f).care.remaps = s.care.remaps := by
  unfold scrubLine spoilLine
  split <;> (obtain ⟨c, o, h, hc⟩ := scoreEvent_eq _ _ _ _ _; rw [h]; exact hc)

theorem spoilLine_plat (s : State) (group frame line : Nat) : (spoilLine s group frame line).plat = s.plat := by
  obtain ⟨c, o, h, -⟩ := scoreEvent_eq _ _ _ _ _
  rw [spoilLine, h]
  rfl

theorem spoilLine_poison (s : State) (group frame line : Nat) :
    (spoilLine s group frame line).poison = insertNat (frameBase group frame + 64 * line) s.poison := by
  obtain ⟨c, o, h, -⟩ := scoreEvent_eq _ _ _ _ _
  rw [spoilLine, h]
  rfl

/-! ### The phases (R269) -/

section
variable {s : State} {w : Swap}

theorem swapReadPages_of_hold (h : swapAt s w.group .hold = some w) :
    let r := remapOf s.care w.group
    swapReadPages s w.group [] = s.setSwap
      { w with phase := .read, bufA := readPage s (frameLoc r (frameOf r w.memA) 0)
               bufB := if w.retire then {} else readPage s (frameLoc r (frameOf r w.memB) 0) } := by
  simp only [swapReadPages, List.filter_nil, List.foldl_nil, h]

/-- A finding in a line of a page that a swap reads is taken before the page is read (R273). -/
theorem swapReadPages_finding (h : swapAt s w.group .hold = some w) (hw : w.retire = false) {f : RowFinding} (hok : findingOk s f = true)
    (hf : (f.group, f.frame) = realFrame (remapOf s.care w.group) (frameOf (remapOf s.care w.group) w.memA) ∨
      (f.group, f.frame) = realFrame (remapOf s.care w.group) (frameOf (remapOf s.care w.group) w.memB)) :
    swapReadPages s w.group [f] = swapReadPages (scrubLine s f) w.group [] := by
  simp only [swapReadPages, h, hok, hw, hf, remapOf_congr (scrubLine_remaps s f), List.filter_cons, List.filter_nil, List.foldl_cons,
    List.foldl_nil, Bool.not_false, Bool.true_and, ← Bool.decide_or, decide_true, if_true]
  cases swapAt (scrubLine s f) w.group .hold with
  | none => rfl
  | some v => rfl

theorem swapWritePages_swap (h : swapAt s w.group .read = some w) (hw : w.retire = false) :
    swapWritePages s w.group = (placePage (placePage s (frameLoc (remapOf s.care w.group) 0 0) w.bufA)
      (frameLoc (remapOf s.care w.group) w.frame 0) w.bufB).setSwap { w with phase := .write } := by
  simp only [swapWritePages, h, hw, Bool.false_eq_true, if_false]

theorem swapWritePages_retirement (h : swapAt s w.group .read = some w) (hw : w.retire = true) :
    swapWritePages s w.group = (placePage s (spareLoc w.spare) w.bufA).setSwap { w with phase := .write } := by
  simp only [swapWritePages, h, hw, if_true]

theorem swapCommitMap_swap (h : swapAt s w.group .write = some w) (hw : w.retire = false) :
    swapCommitMap s w.group = ({ s with care := { (putRemap s.care { remapOf s.care w.group with
        map := Claims.exchanged (remapOf s.care w.group) w.memA w.memB }) with swapsDone := s.care.swapsDone + 1 } } : State).setSwap
      { w with phase := .commit } := by
  simp only [swapCommitMap, h, hw, Bool.false_eq_true, if_false, swapMap_eq_exchanged]
  rfl

theorem swapCommitMap_retirement (h : swapAt s w.group .write = some w) (hw : w.retire = true) :
    swapCommitMap s w.group =
      (({ s with care := { (putRemap s.care ((remapOf s.care w.group).retiredBy w)).setDomain w.domain (fun d => d.freed w.row) with
        retired := s.care.retired + 1 } } : State).setSwap { w with phase := .commit }).event 2
          (phys := pageOf w.group w.memA) (domain := w.domain) (row := w.row) := by
  simp only [swapCommitMap, h, hw, if_true]
  rfl

theorem swapReleaseHold_of_commit (h : swapAt s w.group .commit = some w) :
    swapReleaseHold s w.group = startDue (w.waits.foldl performWait
      { s with care := { s.care with swaps := s.care.swaps.filter (fun x => x.group ≠ w.group) } }) := by
  simp only [swapReleaseHold, h]

end

end Sys2Proof.Machine

open Sys2Proof Sys2Proof.Machine

namespace Sys2Proof.Claims

theorem swapPhases_hold : SwapPhases := by
  intro s w hw r
  refine ⟨fun h => ⟨congrArg Host.Outcome.next ((swapReadPages_of_hold h).trans ?_), fun f hok hf =>
      congrArg Host.Outcome.next (swapReadPages_finding h hw hok hf)⟩,
    fun h => congrArg Host.Outcome.next (swapWritePages_swap h hw), fun h => congrArg Host.Outcome.next (swapCommitMap_swap h hw),
    fun h _ => congrArg Host.Outcome.next (swapReleaseHold_of_commit h)⟩
  rw [hw, if_neg Bool.false_ne_true]

theorem retirementPhases_hold : RetirementPhases := by
  intro s w hw r
  refine ⟨fun h => ⟨_, _, congrArg Host.Outcome.next (swapReadPages_of_hold h), rfl, rfl, rfl⟩,
    fun h => congrArg Host.Outcome.next (swapWritePages_retirement h hw), fun h => ?_⟩
  have hbound := remapOf_putRemap_retiredBy s.care w
  refine ⟨_, congrArg Host.Outcome.next (swapCommitMap_retirement h hw), rfl, rfl, hbound, fun hf => ?_, fun off => ?_,
    Care.no_score_of_freed _ w.domain w.row, rfl⟩
  · exact (congrArg (fun r : Remap => r.bad.getLsbD w.frame) hbound).trans (Remap.bad_retiredBy _ w hf)
  · exact (congrArg (fun r => frameLoc r w.frame off) hbound).trans (frameLoc_retiredBy _ w off)

theorem pagesMoveWhole_holds : PagesMoveWhole := fun _ a b _ h =>
  ⟨placePage_readPage_inside h a b, placePage_readPage_outside h a⟩

end Sys2Proof.Claims

/-- Settles O57: each phase is its branch of the unit's function, and a page that is read is canonical memory of its own, which is placed cell
by cell. -/
theorem swapsAndRetirements : Obligations.SwapsAndRetirements := by
  unfold Obligations.SwapsAndRetirements
  exact ⟨Claims.swapPhases_hold, Claims.retirementPhases_hold, Claims.pagesMoveWhole_holds⟩

end

section
/-! Scores, scrubs, activation counters and the fault log (R271, R275-R279, R367). -/

namespace Sys2Proof.Machine

open Sys2Proof.Claims

/-! ### Scores (R276) -/

section
variable {d : Domain} {group frame line : Nat}

/-- Points are added to the entry of a row, up to 0xFFFF. -/
theorem addScore_scored (n : Nat) {x : Score} (h : d.scores.find? (fun y => y.row = rowNumber group frame line) = some x) :
    (addScore d group frame line n).scores.find? (fun y => y.row = rowNumber group frame line) =
      some { x with score := min 0xFFFF (x.score + n) } := by
  have hx : x.row = rowNumber group frame line := by simpa using List.find?_some h
  simp only [addScore, h, Domain.reheat_scores]
  have hrow : ((fun y : Score => decide (y.row = rowNumber group frame line)) ∘
      fun y => if y = x then { x with score := min 0xFFFF (x.score + n) } else y) = fun y => decide (y.row = rowNumber group frame line) := by
    funext y
    by_cases hy : y = x
    · simp [hy]
    · simp [hy]
  rw [List.find?_map, hrow, h]
  simp

/-- A row without an entry gets one, while there is a place. -/
theorem addScore_new (n : Nat) (h : ∀ y ∈ d.scores, y.row ≠ rowNumber group frame line) (hlen : d.scores.length < 4096) :
    (addScore d group frame line n).scores =
      d.scores ++ [{ row := rowNumber group frame line, group := group, frame := frame, score := n, born := d.born }] := by
  have hnone : d.scores.find? (fun x => x.row = rowNumber group frame line) = none := List.find?_eq_none.2 fun y hy => by simpa using h y hy
  simp only [addScore, hnone, hlen, if_true, Domain.reheat_scores]

end

/-! ### Events on a row (R276, R277) -/

/-- Care after points are added to the row of a line of a frame. -/
def State.scored (s : State) (group frame line n : Nat) : State :=
  { s with care := s.care.setDomain (frameDomain group frame) (fun d => addScore d group frame line n) }

section
variable {s : State} {group frame : Nat} (line n : Nat)

theorem scoreEvent_unused (h : servesFor s.care group frame = none) :
    scoreEvent s group frame line n = s.scored group frame line n := by
  unfold scoreEvent
  extract_lets k row s1 d
  have h1 : servesFor s1.care group frame = none := h
  simp only [h1]
  rfl

/-- At the threshold the frame in use is retired for the row, unless it is being retired already (R277). -/
theorem scoreEvent_used {g f : Nat} (h : servesFor s.care group frame = some (g, f))
    (hmoving : ∀ w ∈ s.care.swaps, w.group = g → w.retire = true → w.frame ≠ f) :
    let d := (s.scored group frame line n).care.domains.getD (frameDomain group frame) {}
    scoreEvent s group frame line n =
      if mcareReth d.mcare ≠ 0 ∧ mcareReth d.mcare ≤ scoreOf d (rowNumber group frame line) then
        retirePage (s.scored group frame line n)
          { group := g, member := memberIn (remapOf s.care g) f, domain := frameDomain group frame, row := rowNumber group frame line
            spare := decide (Config.firstReservedGroup ≤ group) }
      else s.scored group frame line n := by
  intro d'
  unfold scoreEvent
  extract_lets k row s1 d
  have h1 : servesFor s1.care group frame = some (g, f) := h
  have hstill : s1.care.swaps.any (fun w => w.group = g && w.retire && w.frame = f) = false := List.any_eq_false.2 fun w hw => by
    simpa using hmoving w hw
  simp only [h1, hstill, Bool.not_false, Bool.and_true, Bool.and_eq_true, decide_eq_true_eq]
  rfl

end

/-! ### Scrubs (R271, R275, R367) -/

section
variable (s : State) {f : RowFinding}

theorem scrubLine_oneSymbol (h : f.err = .oneSymbol) : scrubLine s f = scoreEvent (logged s f.log) f.group f.frame f.line 4 := by
  rw [scrubLine, h, logged]

theorem scrubLine_oneDevice (h : f.err = .oneDevice) : scrubLine s f = scoreEvent (logged s f.log) f.group f.frame f.line 16 := by
  rw [scrubLine, h, logged]

theorem scrubLine_uncorrectable (h : f.err = .uncorrectable) : scrubLine s f =
    scoreEvent
      (({ logged s f.log with poison := insertNat (frameBase f.group f.frame + 64 * f.line) s.poison } : State).lineLoss f.group f.frame f.line)
      f.group f.frame f.line 255 := by
  rw [scrubLine, h, spoilLine, logged]

end

theorem Domain.filter_skipped_of_nil {d : Domain} (h : d.skipped = []) (p : Nat → Bool) : { d with skipped := d.skipped.filter p } = d := by
  obtain ⟨mcare, scores, hot, skipped, born⟩ := d
  cases h
  rfl

section
variable {s : State} {f : RowFinding} (hok : findingOk s f = true)
  (howed : (s.care.domains.getD (frameDomain f.group f.frame) {}).skipped = [])
include hok howed

/-- A domain that owes no row takes a finding as it stands: its row is skipped while it is held, and scrubbed otherwise. -/
theorem patrolStep_finding : patrolStep s (frameDomain f.group f.frame) [f] =
    if rowHeld s.care (frameDomain f.group f.frame) (rowNumber f.group f.frame f.line) then
      { s with care := s.care.setDomain (frameDomain f.group f.frame) (fun d => { d with skipped := [rowNumber f.group f.frame f.line] }) }
    else scrubLine s f := by
  unfold patrolStep
  extract_lets owed
  have hfix : owed (s.care.domains.getD (frameDomain f.group f.frame) {}) = s.care.domains.getD (frameDomain f.group f.frame) {} :=
    Domain.filter_skipped_of_nil howed _
  simp only [Care.setDomain_of_fixed hfix, List.filter_cons, hok, decide_true, Bool.and_self, if_true, List.filter_nil, List.foldl_cons,
    List.foldl_nil]
  rw [Care.setDomain_congr (g := fun d => { d with skipped := [rowNumber f.group f.frame f.line] })]
  rw [howed]
  rfl

end

/-! ### Activation counters (R279) -/

theorem actOf_setAct (c : Care) (stack row n : Nat) : actOf (setAct c stack row n) stack row = n := by
  have hrest : (c.acts.filter (fun a => !(a.1 = stack && a.2.1 = row))).find? (fun a => a.1 = stack && a.2.1 = row) = none :=
    List.find?_eq_none.2 fun a ha => by
      rw [(Bool.not_eq_true' _).mp (List.mem_filter.1 ha).2]
      exact Bool.false_ne_true
  unfold actOf setAct
  dsimp only
  split
  next h => rw [hrest, h]; rfl
  · rw [List.find?_append, hrest]
    simp

/-- The neighbours of a row are refreshed, and its count is 0. -/
def State.refreshedAt (s : State) (stack row : Nat) : State :=
  { s with care := { setAct s.care stack row 0 with refreshed := [-2, -1, 0, 1, 2].map (fun i => (stack, (row : Int) + 64 * i)) } }

theorem actOf_refreshedAt (s : State) (stack row : Nat) : actOf (s.refreshedAt stack row).care stack row = 0 := actOf_setAct s.care stack row 0

section
variable {s : State} {stack row : Nat} (n : Nat) (hstack : stack < 8) (hrow : row / 64 * 8 + stack < Config.congruenceGroups)
include hstack hrow

theorem prechargeRow_counts (h : actOf s.care stack row + n < mcareActh (s.care.domains.getD stack {}).mcare * 64) :
    prechargeRow s stack row n .good = { s with care := setAct s.care stack row (actOf s.care stack row + n) } := by
  have hin : (decide (8 ≤ stack) || decide (Config.congruenceGroups ≤ row / 64 * 8 + stack)) = false := by simp [hstack, hrow]
  simp only [prechargeRow, hin, Nat.not_le.2 h, ne_eq, not_true_eq_false, decide_false, Bool.or_self, Bool.false_eq_true, if_false]

theorem prechargeRow_refreshes {read : CounterRead} (h : read = .saturated ∨
    (read = .good ∧ mcareActh (s.care.domains.getD stack {}).mcare * 64 ≤ actOf s.care stack row + n)) :
    prechargeRow s stack row n read = s.refreshedAt stack row := by
  have hin : (decide (8 ≤ stack) || decide (Config.congruenceGroups ≤ row / 64 * 8 + stack)) = false := by simp [hstack, hrow]
  rcases h with rfl | ⟨rfl, hreach⟩
  · simp only [prechargeRow, hin, Bool.false_eq_true, if_false]
    rfl
  · simp only [prechargeRow, hin, hreach, decide_true, Bool.or_true, Bool.false_eq_true, if_false, if_true]
    rfl

theorem prechargeRow_parityBad (f : FaultLog) : prechargeRow s stack row n (.parityBad f) =
    ({ s.refreshedAt stack row with plat := logFault s.plat f } : State).event 4
      (phys := pageIn (s.refreshedAt stack row).care (row / 64 * 8 + stack) 0) (domain := stack) (row := row) := by
  have hin : (decide (8 ≤ stack) || decide (Config.congruenceGroups ≤ row / 64 * 8 + stack)) = false := by simp [hstack, hrow]
  simp only [prechargeRow, hin, Bool.false_eq_true, if_false]
  rfl

end

/-! ### The fault log (R367) -/

section
variable {p : Plat} (f : FaultLog) (h : p.flog = [] ∨ p.flog.length = 256)
include h

/-- The log holds 256 entries from its first one on. -/
theorem logFault_flog : ∃ log : List (BitVec 128), log.length = 256 ∧ (∀ k, log.getD k 0 = p.flog.getD k 0) ∧
    (logFault p f).flog = log.set (p.flogp.toNat % 256)
      (BitVec.ofNat 128 (f.unitCode.toNat + f.die.toNat * 0x10000 + f.cycles.toNat * 2 ^ 64)) := by
  rcases h with h | h
  · refine ⟨List.replicate 256 0, List.length_replicate, fun k => ?_, by rw [logFault, if_pos h]⟩
    rw [h, List.getD_eq_getElem?_getD, List.getElem?_getD_replicate_default_eq, List.getD_nil]
  · refine ⟨p.flog, h, fun _ => rfl, ?_⟩
    have hne : p.flog ≠ [] := fun h0 => by simp [h0] at h
    rw [logFault, if_neg hne]

theorem logFault_entry : (logFault p f).flog.getD (p.flogp.toNat % 256) 0 =
    BitVec.ofNat 128 (f.unitCode.toNat + f.die.toNat * 0x10000 + f.cycles.toNat * 2 ^ 64) := by
  obtain ⟨log, hlen, -, hset⟩ := logFault_flog f h
  rw [hset]
  simp [hlen, Nat.mod_lt]

theorem logFault_other {k : Nat} (hk : k ≠ p.flogp.toNat % 256) : (logFault p f).flog.getD k 0 = p.flog.getD k 0 := by
  obtain ⟨log, -, hlog, hset⟩ := logFault_flog f h
  rw [hset, ← hlog, List.getD_eq_getElem?_getD, List.getElem?_set_ne hk.symm, List.getD_eq_getElem?_getD]

end

/-- FLOGP goes on to the next of 256 entries. -/
theorem logFault_next (p : Plat) (f : FaultLog) : (logFault p f).flogp.toNat % 256 = (p.flogp.toNat % 256 + 1) % 256 := by
  simp only [logFault, BitVec.toNat_ofNat]
  split <;> omega

/-- It keeps that it has wrapped. -/
theorem logFault_wrapped {p : Plat} (f : FaultLog) (h : p.flogp.toNat % 256 = 255 ∨ p.flogp.getLsbD 8 = true) :
    (logFault p f).flogp.getLsbD 8 = true := by
  have hw : (decide (p.flogp.toNat % 256 = 255) || p.flogp.getLsbD 8) = true := by simpa using h
  simp only [logFault, hw, if_true]
  rw [BitVec.getLsbD_ofNat, Nat.add_comm, show (256 : Nat) = 2 ^ 8 from rfl, Nat.testBit_two_pow_add_eq,
    Nat.testBit_lt_two_pow (Nat.mod_lt _ (Nat.two_pow_pos 8))]
  rfl

theorem strike_plat (s : State) (x : Struck) : (strike s x).plat = s.plat := by
  cases x with
  | nothing => rfl
  | memory loc =>
    rw [strike]
    split
    · rfl
    · split
      · split
        · rfl
        · exact spoilLine_plat _ _ _ _
      · rfl
  | lane core slot i w =>
    rw [strike]
    split <;> rfl
  | tile team core n byte =>
    rw [strike]
    split <;> rfl

/-- DRAM ends at the start of a unit. -/
theorem isDram_unitOf (loc : Nat) : isDram (unitOf loc) = isDram loc := by
  have hsize : unitSize loc = 8 ∨ unitSize loc = 64 := by
    unfold unitSize
    split
    · exact .inl rfl
    · exact .inr rfl
  unfold isDram unitOf dramTop
  refine decide_eq_decide.2 ?_
  rcases hsize with h | h
  · rw [h]
    omega
  · rw [h]
    omega

/-- The poisoned unit of a scratchpad or of the Cupola (R250, R258). -/
theorem strike_memory_poisons {s : State} {loc : Nat} (hout : isOutside loc = false) (hdram : isDram loc = false) :
    unitOf loc ∈ (strike s (.memory loc)).poison := by
  have hunit : isDram (unitOf loc) = false := (isDram_unitOf loc).trans hdram
  simp only [strike, hout, hdram, Bool.false_eq_true, if_false, State.poison1, storeLoc, hunit]
  exact (mem_insertNat _ _ _).2 (.inl rfl)

theorem strike_dram_poisons {s : State} {loc : Nat} (hout : isOutside loc = false) (hdram : isDram loc = true) (hinst : installed s loc = true) :
    frameBase (frameServing s.care loc).1 (frameServing s.care loc).2 + 64 * (loc % 0x10000 / 64) ∈ (strike s (.memory loc)).poison := by
  simp only [strike, hout, hdram, hinst, Bool.not_true, Bool.false_eq_true, if_false, if_true, spoilLine_poison]
  exact (mem_insertNat _ _ _).2 (.inl rfl)

end Sys2Proof.Machine

open Sys2Proof Sys2Proof.Machine

namespace Sys2Proof.Claims

theorem scores_hold : Scores := by
  refine ⟨fun d group frame line n => ⟨fun x hx _ => addScore_scored n hx, addScore_new n⟩, fun s group frame line n =>
    ⟨scoreEvent_unused line n, fun g f hserves hstill => scoreEvent_used line n hserves hstill, fun hg => if_pos hg⟩,
    fun domain s hd => ⟨_, rfl, ?_, fun k hk => Care.setDomain_getD_other _ hk _, rfl⟩, fun f s hok => ?_, fun domain s => rfl⟩
  · rw [Care.setDomain_getD_same hd, Domain.reheat_scores]
  · intro domain row howed
    have hstep : exec (.patrolScrubStep domain [f]) s = .next _ := congrArg Host.Outcome.next (patrolStep_finding hok howed)
    rw [hstep]
    refine ⟨fun hheld => by rw [if_pos hheld], fun hfree => ?_⟩
    rw [if_neg (Bool.eq_false_iff.1 hfree)]
    exact ⟨fun he => congrArg Host.Outcome.next (scrubLine_oneSymbol s he), fun he => congrArg Host.Outcome.next (scrubLine_oneDevice s he),
      fun he => congrArg Host.Outcome.next (scrubLine_uncorrectable s he)⟩

theorem activations_hold : Activations := by
  intro stack row n s hstack hrow acth rows
  refine ⟨fun h => ⟨_, congrArg Host.Outcome.next (prechargeRow_counts n hstack hrow h), actOf_setAct _ _ _ _, rfl⟩,
    fun read h => ⟨_, congrArg Host.Outcome.next (prechargeRow_refreshes n hstack hrow h), actOf_refreshedAt s stack row, rfl, rfl⟩,
    fun f => ⟨_, congrArg Host.Outcome.next (prechargeRow_parityBad n hstack hrow f), actOf_refreshedAt s stack row, rfl, rfl, ?_⟩⟩
  exact List.length_append

theorem faultsAreLogged_hold : FaultsAreLogged := by
  intro f s
  have hplat := strike_plat { s with plat := logFault s.plat f.log } f.struck
  refine ⟨_, rfl, fun n hn hlog => ?_, fun loc hx hout hdram => ?_, fun loc hx hdram hout hinst => ?_, fun hx => ?_⟩
  · subst hn
    rw [hplat]
    exact ⟨logFault_entry f.log hlog, logFault_next s.plat f.log, logFault_wrapped f.log, fun k hk => logFault_other f.log hlog hk⟩
  · rw [hx]
    exact strike_memory_poisons hout hdram
  · rw [hx]
    exact strike_dram_poisons (s := { s with plat := logFault s.plat f.log }) hout hdram hinst
  · rw [hx]
    exact ⟨rfl, rfl⟩

end Sys2Proof.Claims

/-- Settles O58: points and findings go through the domain of their row, a precharge through the counter of its row, and a fault through the
log before what it struck is poisoned. -/
theorem careEvents : Obligations.CareEvents := by
  unfold Obligations.CareEvents
  exact ⟨Claims.scores_hold, Claims.activations_hold, Claims.faultsAreLogged_hold⟩

end

section
/-! What an entry or a step of an engine may change as it reaches memory or is lost (R171, R321), and what a forced reset leaves (R321, R322). -/

namespace Sys2Proof.Machine

/-! ### The parts of a state that no write reaches -/

/-- A state without what the entries and the steps of a killed context may change. -/
def State.besideFate (s : State) : State :=
  { s with mem := [], poison := [], absent := [], care := {}, outbox := [], agents := [], freeBits := 0 }

theorem put_besideFate (s : State) (loc : Nat) (bs : List Byte) : (s.put loc bs).besideFate = s.besideFate := by
  obtain ⟨_, _, _, _, h⟩ := put_eq s loc bs
  rw [h]
  rfl

theorem takeStep_besideFate (s : State) (a : Agent) (n : Nat) : (takeStep s a n).besideFate = s.besideFate := by
  unfold takeStep
  split
  · rfl
  next st _ =>
    cases st with
    | read loc len off t =>
      obtain ⟨c, hc⟩ := s.countReq_eq loc
      dsimp only
      split
      · rfl
      · rw [hc]; rfl
    | write loc len off t =>
      obtain ⟨cr, m, p, ob, h⟩ := putPoison_eq s loc (a.buf.read off len) ((upFrom 0 len).filter (fun i => a.bad.contains (off + i)))
      dsimp only
      split
      · rfl
      · rw [h]
        split <;> rfl
    | elem dst off e op c t =>
      dsimp only
      obtain ⟨m, p, ob, h⟩ := s.store_eq dst
        (bytesOf e (cupElem op c (BitVec.ofNat 64 (natOf (s.bytes dst e))) (BitVec.ofNat 64 (natOf (a.buf.read off e)))).toNat)
      rw [h]
      split <;> rfl

theorem fateOf_besideFate (s : State) (e : Entry) : (fateOf s e).besideFate = s.besideFate := by
  unfold fateOf State.takeBit
  dsimp only
  split
  · split
    · rfl
    · exact put_besideFate _ _ _
  · rfl

theorem fateSteps_besideFate (fuel : Nat) (s : State) (a : Agent) : (fateSteps fuel s a).besideFate = s.besideFate := by
  induction fuel generalizing s a with
  | zero => rfl
  | succ fuel ih =>
    unfold fateSteps State.takeBit
    dsimp only
    split
    · rfl
    · split
      · rfl
      · split
        · exact ih _ _
        · split
          · rw [ih]
            split <;> rfl
          · rw [ih, takeStep_besideFate]
            rfl

theorem fates_besideFate (es : List Entry) (s : State) : (es.foldl fateOf s).besideFate = s.besideFate :=
  foldl_keeps _ _ fateOf_besideFate es s

theorem stepsFates_besideFate (as : List Agent) (s : State) :
    (as.foldl (fun s a => fateSteps (a.steps.length + 1) s a) s).besideFate = s.besideFate :=
  foldl_keeps _ _ (fun s a => fateSteps_besideFate (a.steps.length + 1) s a) as s


/-! ### What goes with a context (R321) -/

theorem dropAgents_agents {as : List Agent} {s : State} {x : Agent} (h : x ∈ (as.foldl (fun s a => s.dropAgent a) s).agents) :
    x ∈ s.agents ∧ ∀ a ∈ as, x.id ≠ a.id := by
  induction as generalizing s with
  | nil => exact ⟨h, fun _ ha => nomatch ha⟩
  | cons a as ih =>
    obtain ⟨hx, hne⟩ := ih h
    obtain ⟨hmem, hid⟩ := List.mem_filter.1 (show x ∈ s.agents.filter (fun x => x.id ≠ a.id) from hx)
    exact ⟨hmem, List.forall_mem_cons.2 ⟨of_decide_eq_true hid, hne⟩⟩

/-- A state without what its agents hold. -/
def State.besideAgents (s : State) : State := { s with agents := [], locks := [], absent := [] }

theorem dropAgents_besideAgents (as : List Agent) (s : State) :
    (as.foldl (fun s a => s.dropAgent a) s).besideAgents = s.besideAgents :=
  foldl_keeps State.besideAgents (fun s a => s.dropAgent a) (fun _ _ => rfl) as s

/-- What of a list is left when nothing of some teams is. -/
def LeftOf {α : Type} (team : α → Nat) (ids : List Nat) (old new : List α) : Prop := ∀ x ∈ new, x ∈ old ∧ team x ∉ ids

theorem leftOf_filter {α : Type} (team : α → Nat) (id : Nat) (l : List α) : LeftOf team [id] l (l.filter (fun x => team x ≠ id)) := fun x hx => by
  simpa using hx

theorem leftOf_nil {α : Type} (team : α → Nat) (l : List α) : LeftOf team [] l l := fun _ hx => ⟨hx, List.not_mem_nil⟩

theorem LeftOf.cons {α : Type} {team : α → Nat} {id : Nat} {ids : List Nat} {l m n : List α} (h1 : LeftOf team [id] l m)
    (h2 : LeftOf team ids m n) : LeftOf team (id :: ids) l n := fun x hx => by
  obtain ⟨hm, hids⟩ := h2 x hx
  obtain ⟨hl, hid⟩ := h1 x hm
  exact ⟨hl, fun hc => (List.mem_cons.1 hc).elim (fun he => hid (List.mem_singleton.2 he)) hids⟩

/-- What is left once the teams of some numbers are gone: nothing that was one of theirs. -/
structure Evicts (ids : List Nat) (s u : State) : Prop where
  groups   : LeftOf (·.team) ids s.groups u.groups
  lanterns : LeftOf (·.team) ids s.lanterns u.lanterns
  teams    : LeftOf (·.id) ids s.teams u.teams
  agents   : ∀ a ∈ u.agents, a ∈ s.agents
  outb     : u.outb = s.outb

theorem removeTeam_evicts (s : State) (id : Nat) : Evicts [id] s (s.removeTeam id) := by
  unfold State.removeTeam
  extract_lets mine ags s1
  have h := dropAgents_besideAgents ags s1
  have hg := congrArg State.groups h
  have hl := congrArg State.lanterns h
  have ht := congrArg State.teams h
  have ho := congrArg State.outb h
  exact ⟨hg.symm ▸ leftOf_filter _ id s.groups, hl.symm ▸ leftOf_filter _ id s.lanterns, ht.symm ▸ leftOf_filter _ id s.teams,
    fun _ ha => (dropAgents_agents ha).1, ho⟩

theorem removeTeams_evict (ids : List Nat) (s : State) : Evicts ids s (ids.foldl (fun s id => s.removeTeam id) s) := by
  induction ids generalizing s with
  | nil => exact ⟨leftOf_nil _ _, leftOf_nil _ _, leftOf_nil _ _, fun _ h => h, rfl⟩
  | cons id ids ih =>
    have h1 := removeTeam_evicts s id
    have h2 := ih (s.removeTeam id)
    exact ⟨h1.groups.cons h2.groups, h1.lanterns.cons h2.lanterns, h1.teams.cons h2.teams, fun a h => h1.agents a (h2.agents a h),
      h2.outb.trans h1.outb⟩

/-! ### The stages of a forced reset (R321, R322) -/

section
variable (s : State) (ctx : Nat)

/-- The numbers of a context's teams. -/
def teamIds : List Nat := (s.teams.filter (fun t => t.ctx = ctx)).map (·.id)

theorem mem_teamIds {n : Nat} : n ∈ teamIds s ctx ↔ ∃ t ∈ s.teams, t.ctx = ctx ∧ t.id = n := by
  simp [teamIds, and_assoc]

/-- Aborts of the context's collectives are sent. -/
def abortsSent : State := (s.tasks.filter (fun t => t.ctx = ctx && recKind t.record = 4 && t.started)).foldl sendAborts s

/-- The store entries that a context owes, in its channels and in the queues of its teams. -/
def owedEntries (ids : List Nat) : List Entry :=
  (s.outb.filter (fun o => o.entry.ctx = ctx)).map (·.entry) ++
    ((s.groups.filter (fun g => ids.contains g.team)).flatMap (fun g => g.fe.sq) ++
      (s.lanterns.filter (fun l => ids.contains l.team)).flatMap (fun l => l.fe.sq))

/-- What the context's entries and engine steps owe has reached memory or is lost. -/
def fatesSettled : State :=
  let s1 := abortsSent s ctx
  let s2 := (owedEntries s1 ctx (teamIds s ctx)).foldl fateOf { s1 with outb := s1.outb.filter (fun o => o.entry.ctx ≠ ctx) }
  (s2.agents.filter (fun a => a.ctx = ctx)).foldl (fun s a => fateSteps (a.steps.length + 1) s a) s2

/-- Then its agents go. -/
def agentsGone : State :=
  ((fatesSettled s ctx).agents.filter (fun a => a.ctx = ctx)).foldl (fun s a => s.dropAgent a) (fatesSettled s ctx)

/-- Then its teams. -/
def teamsGone : State := (teamIds s ctx).foldl (fun s id => s.removeTeam id) (agentsGone s ctx)

/-- The tables without what a context has there. -/
def forgotten (u : State) (gang : Option Gang) : State :=
  { u with
      tasks := u.tasks.filter (fun t => t.ctx ≠ ctx), journal := u.journal.filter (fun j => j.ctx ≠ ctx)
      locks := u.locks.filter (fun l => l.ctx ≠ ctx), kept := u.kept.filter (fun k => k.ctx ≠ ctx)
      fabric := { u.fabric with
        insts := u.fabric.insts.filter (fun c => c.ctx ≠ ctx)
        finished := u.fabric.finished ++ ((u.fabric.insts.filter (fun c => c.ctx = ctx)).map (·.cid)) }
      gang := gang }

theorem others_of_filter {α : Type} {l m : List α} {f : α → Nat} {n : Nat} (h : m = l.filter (fun x => f x ≠ n)) : ∀ x ∈ m, f x ≠ n :=
  fun x hx => by
    rw [h] at hx
    exact of_decide_eq_true (List.mem_filter.1 hx).2

theorem forcedReset_stages (reason : Nat) : ∃ gang saves, forcedReset s ctx reason =
    (flushSaves { forgotten ctx (teamsGone s ctx) gang with saves := saves }).event 8 (ctx := ctx) (detail := reason) :=
  ⟨_, _, rfl⟩

/-! ### What each stage leaves -/

/-- A state without the fabric's own. -/
def State.besideFabric (s : State) : State := { s with fabric := {} }

theorem abortsSent_besideFabric : (abortsSent s ctx).besideFabric = s.besideFabric :=
  foldl_keeps State.besideFabric sendAborts (fun _ _ => rfl) _ s

theorem fatesSettled_besideFate : ∃ fab, (fatesSettled s ctx).besideFate =
    { s.besideFate with outb := s.outb.filter (fun o => o.entry.ctx ≠ ctx), fabric := fab } := by
  have h : abortsSent s ctx = { s with fabric := (abortsSent s ctx).fabric } :=
    congrArg (fun u : State => { u with fabric := (abortsSent s ctx).fabric }) (abortsSent_besideFabric s ctx)
  refine ⟨(abortsSent s ctx).fabric, ?_⟩
  unfold fatesSettled
  dsimp only
  rw [stepsFates_besideFate, fates_besideFate, h]
  rfl

theorem agentsGone_agents {a : Agent} (h : a ∈ (agentsGone s ctx).agents) : a.ctx ≠ ctx := by
  obtain ⟨hmem, hne⟩ := dropAgents_agents h
  exact fun hc => hne a (List.mem_filter.2 ⟨hmem, decide_eq_true hc⟩) rfl

/-- Groups, lanterns, teams and channels are as they were until the teams go, but for the context's own channel entries. -/
theorem agentsGone_residents : (agentsGone s ctx).groups = s.groups ∧ (agentsGone s ctx).lanterns = s.lanterns ∧
    (agentsGone s ctx).teams = s.teams ∧ (agentsGone s ctx).outb = s.outb.filter (fun o => o.entry.ctx ≠ ctx) := by
  have hdrop : (agentsGone s ctx).besideAgents = (fatesSettled s ctx).besideAgents := dropAgents_besideAgents _ _
  obtain ⟨fab, hfate⟩ := fatesSettled_besideFate s ctx
  have hboth {α : Type} (f : State → α) (hd : f (agentsGone s ctx).besideAgents = f (agentsGone s ctx) := by rfl)
      (hf : f (fatesSettled s ctx).besideAgents = f (fatesSettled s ctx).besideFate := by rfl) :
      f (agentsGone s ctx) = f (fatesSettled s ctx).besideFate := hd.symm.trans ((congrArg f hdrop).trans hf)
  rw [hboth State.groups, hboth State.lanterns, hboth State.teams, hboth State.outb, hfate]
  exact ⟨rfl, rfl, rfl, rfl⟩

/-- A state without its saves and messages. -/
def State.besideSaves (s : State) : State := { s with saves := [], outbox := [] }

theorem flushSaves_besideSaves (s : State) : (flushSaves s).besideSaves = s.besideSaves :=
  foldl_keeps State.besideSaves
    (fun (s : State) (v : Saving) => s.send { type := 0x88, ctx := BitVec.ofNat 8 v.ctx, seqNo := v.seqNo, arg := v.gone.getD 0 })
    (fun _ _ => rfl) _ _

/-- After the reset each list of the tables is the one that the teams left, without the context's part. -/
theorem forcedReset_besideSaves (reason : Nat) : ∃ gang,
    (forcedReset s ctx reason).besideSaves = (forgotten ctx (teamsGone s ctx) gang).besideSaves := by
  obtain ⟨gang, saves, h⟩ := forcedReset_stages s ctx reason
  exact ⟨gang, (congrArg State.besideSaves h).trans (flushSaves_besideSaves _)⟩

end

end Sys2Proof.Machine

open Sys2Proof Sys2Proof.Machine

namespace Sys2Proof.Claims

theorem forcedReset_empties_context : ForcedResetEmptiesContext := by
  intro s ctx reason u
  obtain ⟨gang, hu⟩ := forcedReset_besideSaves s ctx reason
  have hteams := removeTeams_evict (teamIds s ctx) (agentsGone s ctx)
  obtain ⟨hg, hl, ht, ho⟩ := agentsGone_residents s ctx
  have hother {n : Nat} (hn : n ∉ teamIds s ctx) : ∀ t ∈ s.teams, t.ctx = ctx → n ≠ t.id := fun t hm hc he =>
    hn ((mem_teamIds s ctx).2 ⟨t, hm, hc, he.symm⟩)
  refine ⟨others_of_filter (congrArg State.tasks hu), fun t hm => ?team, fun g hm => ?group, fun l hm => ?lantern, fun a hm => ?agent,
    fun o hm => ?out, others_of_filter (congrArg State.locks hu), others_of_filter (congrArg State.journal hu),
    others_of_filter (congrArg (·.fabric.insts) hu), others_of_filter (congrArg State.kept hu), ?report⟩
  case team =>
    obtain ⟨hmem, hid⟩ := hteams.teams t (congrArg State.teams hu ▸ hm)
    exact fun hc => hother hid t (ht ▸ hmem) hc rfl
  case group =>
    obtain ⟨hmem, hid⟩ := hteams.groups g (congrArg State.groups hu ▸ hm)
    exact ⟨hg ▸ hmem, hother hid⟩
  case lantern =>
    obtain ⟨hmem, hid⟩ := hteams.lanterns l (congrArg State.lanterns hu ▸ hm)
    exact ⟨hl ▸ hmem, hother hid⟩
  case agent => exact agentsGone_agents s ctx (hteams.agents a (congrArg State.agents hu ▸ hm))
  case out =>
    have hmem : o ∈ s.outb.filter (fun o => o.entry.ctx ≠ ctx) := ho ▸ hteams.outb ▸ congrArg State.outb hu ▸ hm
    exact ⟨(List.mem_filter.1 hmem).1, of_decide_eq_true (List.mem_filter.1 hmem).2⟩
  case report => exact List.getLast?_concat

end Sys2Proof.Claims

/-- Settles O55: the context's entries and steps are settled, its agents and teams go, and the tables forget it; the report is sent last. -/
theorem forcedResetEmptiesItsContext : Obligations.ForcedResetEmptiesItsContext := by
  unfold Obligations.ForcedResetEmptiesItsContext
  exact Claims.forcedReset_empties_context

end

section
/-! Starts, resets and the requests of trust (R272, R361-R369). -/

namespace Sys2Proof.Machine

/-! ### The platform is no part of memory -/

theorem plat_of_besideFate {s u : State} (h : u.besideFate = s.besideFate) : u.plat = s.plat :=
  show u.besideFate.plat = s.besideFate.plat from congrArg State.plat h

theorem put_plat (s : State) (loc : Nat) (bs : List Byte) : (s.put loc bs).plat = s.plat := plat_of_besideFate (put_besideFate s loc bs)

theorem takeStep_plat (s : State) (a : Agent) (n : Nat) : (takeStep s a n).plat = s.plat := plat_of_besideFate (takeStep_besideFate s a n)

theorem State.touchRange_plat (s : State) (c va n : Nat) : (s.touchRange c va n).plat = s.plat :=
  foldl_keeps State.plat (fun s p => s.touch c p) (fun s p => by obtain ⟨_, _, _, h⟩ := s.touch_eq c p; rw [h]) _ s

theorem landOut_plat (s : State) (core : Nat) (e : Entry) : (landOut s core e).plat = s.plat := by
  unfold landOut
  dsimp only
  split
  · rfl
  · exact put_plat _ _ _

theorem applyMemoryWrite_plat (s : State) (w : HostWr) : (applyMemoryWrite s w).plat = s.plat := by
  have htouch : (touchHost s w.space w.ctx.toNat w.va.toNat w.bytes.length).plat = s.plat := by
    unfold touchHost
    split
    · exact s.touchRange_plat _ _ _
    · rfl
  unfold applyMemoryWrite
  dsimp only
  split
  · exact htouch
  · split
    · exact htouch
    · exact (foldl_keeps State.plat _ (fun _ _ => put_plat _ _ _) _ _).trans htouch

theorem partDone_plat (s : State) (req : Option Nat) : (partDone s req).plat = s.plat := by
  unfold partDone
  split
  · rfl
  · dsimp only
    split <;> rfl

theorem countParts_eq (s : State) (ps : List (Nat × Nat × Nat)) : ∃ c, countParts s ps = { s with care := c } := by
  obtain ⟨c, h⟩ := s.countReqs_eq (ps.map (·.1))
  exact ⟨c, by rw [← h, List.foldl_map]; rfl⟩

/-- A write that waited reaches memory, or waits again, and no platform register changes (R269). -/
theorem performWait_plat (s : State) (w : Waiter) : (performWait s w).plat = s.plat := by
  cases w with
  | out core e =>
    dsimp only [performWait]
    split
    · rfl
    · split
      · rfl
      · exact landOut_plat s core e
  | agent id st =>
    dsimp only [performWait]
    split
    · rfl
    · split
      · rfl
      · split
        · rfl
        · exact takeStep_plat s _ _
  | host =>
    dsimp only [performWait]
    split
    · exact applyMemoryWrite_plat s _
    · rfl
  | remote loc bs req bad used =>
    dsimp only [performWait]
    split
    · rfl
    · obtain ⟨_, _, _, _, h⟩ := putPoison_eq s loc bs bad
      rw [partDone_plat, h]
  | remoteRead fid ps used =>
    dsimp only [performWait, remoteRead]
    split
    · rfl
    · obtain ⟨c, h⟩ := countParts_eq s ps
      rw [h]
      rfl

theorem performWaits_plat (ws : List Waiter) (s : State) : (ws.foldl performWait s).plat = s.plat :=
  foldl_keeps State.plat performWait performWait_plat ws s

theorem retirePage_plat (s : State) (d : Due) : (retirePage s d).plat = s.plat := by
  obtain ⟨_, _, h, _⟩ := retirePage_eq s d
  rw [h]

theorem startDue_plat (s : State) : (startDue s).plat = s.plat :=
  foldl_keeps State.plat
    (fun (s : State) (d : Due) => retirePage { s with care := { s.care with due := s.care.due.filter (· ≠ d) } } d)
    (fun _ _ => retirePage_plat _ _) _ s

theorem swapReleaseHold_plat (s : State) (group : Nat) : (swapReleaseHold s group).plat = s.plat := by
  unfold swapReleaseHold
  split
  · rfl
  · dsimp only
    rw [startDue_plat, performWaits_plat]

theorem swapCommitMap_plat (s : State) (group : Nat) : (swapCommitMap s group).plat = s.plat := by
  unfold swapCommitMap
  split
  · rfl
  · dsimp only
    split <;> rfl

theorem endSwap_plat (s : State) (w : Swap) : (endSwap s w).plat = s.plat := by
  unfold endSwap
  split
  · exact performWaits_plat _ _
  · exact performWaits_plat _ _
  · rw [swapReleaseHold_plat, swapCommitMap_plat]
  · exact swapReleaseHold_plat s _

theorem endSwaps_plat (n : Nat) (s : State) : (endSwaps n s).plat = s.plat := by
  induction n generalizing s with
  | zero => rfl
  | succ n ih =>
    unfold endSwaps
    split
    · rfl
    · rw [ih, endSwap_plat]

/-! ### A warm reset (R272, R369) -/

/-- Swaps have ended, and what queues and engines owed has reached memory or is lost (R272, log 64). -/
def settledForReset (s : State) : State :=
  let s0 : State := { s with hostq := [], care := { s.care with due := [], tswc := s.care.tswc &&& 0x7FFFFFFF } }
  let s1 := endSwaps s0.care.swaps.length s0
  let queued := s1.groups.flatMap (fun g => g.fe.sq) ++ s1.lanterns.flatMap (fun l => l.fe.sq)
  let s2 := (s1.outb.map (·.entry) ++ queued).foldl fateOf { s1 with outb := [] }
  s2.agents.foldl (fun s a => fateSteps (a.steps.length + 1) s a) s2

theorem settledForReset_plat (s : State) : (settledForReset s).plat = s.plat := by
  unfold settledForReset
  dsimp only
  rw [plat_of_besideFate (stepsFates_besideFate _ _), plat_of_besideFate (fates_besideFate _ _)]
  exact endSwaps_plat _ _

/-- An idle device owes nothing. -/
theorem settledForReset_idle {s : State} (h : Claims.Idle s) :
    settledForReset s = { s with hostq := [], care := { s.care with due := [], tswc := s.care.tswc &&& 0x7FFFFFFF } } := by
  simp only [settledForReset, h.swaps, h.groups, h.lanterns, h.agents, h.outb, List.length_nil, endSwaps, List.flatMap_nil, List.map_nil,
    List.append_nil, List.foldl_nil]

/-- What of memory a warm reset keeps: all but the Cupola and the scratchpads. -/
def warmKeeps (loc : Nat) : Bool := loc < cupolaBase || hostBase ≤ loc

theorem warmReset_resetFrom (s : State) : ∃ c, warmReset s = resetFrom (settledForReset s) ((settledForReset s).plat.restart true) c
      ((settledForReset s).mem.filter (fun x => warmKeeps x.1)) ((settledForReset s).poison.filter warmKeeps) ∧
    c.remaps = (settledForReset s).care.remaps ∧ c.retired = (settledForReset s).care.retired ∧ c.swaps = [] := ⟨_, rfl, rfl, rfl, rfl⟩

/-- Nothing is posted, resident or in flight after a reset whose care has no swap. -/
theorem resetFrom_idle (s : State) (p : Plat) {c : Care} (m : Memory) (poison : List Nat) (h : c.swaps = []) :
    Claims.Idle (resetFrom s p c m poison) := ⟨rfl, rfl, rfl, rfl, rfl, rfl, rfl, rfl, rfl, rfl, rfl, h, rfl⟩

theorem coldReset_started (s : State) : Claims.Started s (coldReset s) false :=
  { idle := resetFrom_idle s _ _ _ rfl, ctxs := rfl, stage := rfl, fail := rfl, warm := rfl, open_ := rfl, power := rfl
    keyh := rfl, krev := rfl, svn := rfl, idkey := rfl, log := rfl }

/-! ### Power goes (R364, R370) -/

theorem losePower_idle (s : State) (landed : Bool) : Claims.Idle (losePower s landed) :=
  ⟨rfl, rfl, rfl, rfl, rfl, rfl, rfl, rfl, rfl, rfl, rfl, rfl, rfl⟩

theorem losePower_keeps_fuses {s : State} {landed : Bool} (h : s.plat.fuseWas = none ∨ landed = true) :
    (losePower s landed).plat.krev = s.plat.krev ∧ (losePower s landed).plat.svnmin = s.plat.svnmin := by
  unfold losePower
  rcases h with h | rfl
  · rw [h]
    exact ⟨rfl, rfl⟩
  · cases s.plat.fuseWas with
    | none => exact ⟨rfl, rfl⟩
    | some x => exact ⟨rfl, rfl⟩

theorem losePower_undoes_fuses {s : State} {k : BitVec 4} {v : Word} (h : s.plat.fuseWas = some (k, v)) :
    (losePower s false).plat.krev = k ∧ (losePower s false).plat.svnmin = v := by
  unfold losePower
  rw [h]
  exact ⟨rfl, rfl⟩

end Sys2Proof.Machine

open Sys2Proof Sys2Proof.Machine

namespace Sys2Proof.Claims

/-! ### The events of starts -/

theorem rstcWarm_keeps {s : State} (hp : s.plat.powered = true) :
    ∃ u, exec .rstcWarm s = .next u ∧ Idle u ∧ u.plat.stage = 0 ∧ u.plat.warm = true ∧ u.plat.lock = false ∧
      u.plat.krev = s.plat.krev ∧ u.plat.svnmin = s.plat.svnmin ∧ u.plat.keyh = s.plat.keyh ∧ u.plat.idkey = s.plat.idkey ∧
      (Idle s → u.mem = s.mem.filter (fun c => c.1 < cupolaBase || hostBase ≤ c.1) ∧
        u.poison = s.poison.filter (fun n => n < cupolaBase || hostBase ≤ n) ∧ u.care.remaps = s.care.remaps ∧ u.care.retired = s.care.retired) := by
  obtain ⟨c, hw, hremaps, hretired, hswaps⟩ := warmReset_resetFrom s
  refine ⟨_, (exec_rstcWarm s).trans (congrArg Host.Outcome.next ((if_pos hp).trans hw)), resetFrom_idle _ _ _ _ hswaps, rfl, rfl, rfl, ?_⟩
  rw [settledForReset_plat]
  refine ⟨rfl, rfl, rfl, rfl, fun hidle => ?_⟩
  rw [settledForReset_idle hidle] at hremaps hretired ⊢
  exact ⟨rfl, rfl, hremaps, hretired⟩

theorem resets_hold : Resets := by
  intro s
  refine ⟨fun hp => ?on, fun hp => ?cold, rstcWarm_keeps, fun landed hp => ?loss, fun hp => ?shutdown⟩
  case on => exact ⟨_, (exec_powerOn s).trans (congrArg Host.Outcome.next (if_neg (by simp [hp]))), coldReset_started s, rfl, rfl⟩
  case cold => exact ⟨_, (exec_rstcCold s).trans (congrArg Host.Outcome.next (if_pos hp)), coldReset_started s, rfl, rfl⟩
  case loss =>
    refine ⟨_, (exec_powerLoss landed s).trans (congrArg Host.Outcome.next (if_pos hp)), losePower_idle s landed, rfl, losePower_keeps_fuses,
      fun k v h hl => ?_, rfl⟩
    rw [hl]
    exact losePower_undoes_fuses h
  case shutdown =>
    exact ⟨_, (exec_thermalShutdown s).trans (congrArg Host.Outcome.next (if_pos hp)), losePower_idle _ _, rfl,
      fun h => losePower_keeps_fuses (s := s.takeBit.2) (.inl h)⟩

theorem stagesAdvance_hold : StagesAdvance := by
  intro s hp hf
  have hstuck : (!s.plat.powered || decide (s.plat.fail ≠ 0)) = false := by simp [hp, hf]
  have hadvance (code : BitVec 8) : advanceStage s code =
      if s.plat.stage = 1 then (if code = 0 then { s with plat := { s.plat with stage := 2 } } else s)
      else if s.plat.stage = 2 then
        (if code = 0 then enterCompute s else if code = 5 || code = 6 then { s with plat := { s.plat with fail := code } } else s)
      else s := if_neg (Bool.eq_false_iff.1 hstuck)
  refine ⟨fun h1 => ?_, fun h2 => ?_, fun c h2 hc => ?_⟩
  · rw [exec_stageAdvance, execStageAdvance, hadvance, if_pos h1, if_pos rfl]
  · have hstage : advanceStage s 0 = enterCompute s := by
      rw [hadvance, h2]
      rfl
    refine ⟨_, (exec_stageAdvance 0 s).trans (congrArg Host.Outcome.next hstage), rfl, hf, fun hlen => ?_, fun c hm => ?_, fun c hm hc => ?_,
      fun hw => ?_, fun hw => if_pos hw⟩
    · simp [enterCompute, hlen]
    · simpa using (List.mem_filter.1 hm).2
    · exact List.mem_filter.2 ⟨hm, by simp [hc]⟩
    · simp [enterCompute, hw]
  · have hone : s.plat.stage ≠ 1 := by simp [h2]
    have hzero : c ≠ 0 := by rcases hc with rfl | rfl <;> decide
    rw [exec_stageAdvance, execStageAdvance, hadvance, if_neg hone, if_pos h2, if_neg hzero, if_pos (by simpa using hc)]

/-! ### The requests of trust -/

theorem attcVerify_passes {s : State} (hp : s.plat.powered = true) (h0 : s.plat.stage = 0) (hf : s.plat.fail = 0) (hi : imageFailure s.plat = 0) :
    verifyImage s = { s with plat := { s.plat with
      stage := 1, lock := true, fuseWas := none
      mlog := (s.plat.mlog.set 1 (sha512 (imageBytes s.plat))).set 2 (sha512 (s.plat.hwf.flatMap (fun w => bytesOf 8 w.toNat))) } } := by
  simp [verifyImage, verifyCode_eq_imageFailure, hp, h0, hf, hi]

theorem attcVerify_fails {s : State} (hp : s.plat.powered = true) (h0 : s.plat.stage = 0) (hf : s.plat.fail = 0) (hi : imageFailure s.plat ≠ 0) :
    verifyImage s = { s with plat := { s.plat with stage := 1, fail := BitVec.ofNat 8 (imageFailure s.plat), fuseWas := none } } := by
  simp [verifyImage, verifyCode_eq_imageFailure, hp, h0, hf, hi]

/-- Fuses are written in stage 0 (R364). -/
theorem writeFuse_stage0 {s : State} (hp : s.plat.powered = true) (h0 : s.plat.stage = 0) (f : Plat → Plat) :
    writeFuse s f = { s with plat := { f s.plat with fuseWas := some (s.plat.krev, s.plat.svnmin) } } := by
  simp [writeFuse, hp, h0]

theorem trustRequests_hold : TrustRequests := by
  intro s hp
  refine ⟨fun h0 hf hi => ?pass, fun h0 hf hi => ?fail, ?quote, fun hq => ?sign, fun bits h0 => ?revoke, fun h0 => ?raise⟩
  case pass =>
    refine ⟨_, (exec_attcVerify s).trans (congrArg Host.Outcome.next (attcVerify_passes hp h0 hf hi)), rfl, rfl, fun hlen => ⟨?_, ?_⟩, rfl⟩
    · simp [hlen]
    · simp [hlen, imageBytes]
  case fail => exact ⟨_, (exec_attcVerify s).trans (congrArg Host.Outcome.next (attcVerify_fails hp h0 hf hi)), rfl, rfl, rfl⟩
  case quote => exact (exec_attcQuote s).trans (congrArg Host.Outcome.next (if_neg (by simp [hp])))
  case sign => exact (exec_quoteReady s).trans (congrArg Host.Outcome.next (if_neg (by simp [hq])))
  case revoke => exact (exec_attcRevokeKey bits s).trans (congrArg Host.Outcome.next (writeFuse_stage0 hp h0 _))
  case raise => exact (exec_attcRaiseSvnmin s).trans (congrArg Host.Outcome.next (writeFuse_stage0 hp h0 _))

end Sys2Proof.Claims

/-- Settles O59: a reset is built from the fuses and from what settling leaves of memory; stages and requests of trust take the branch of
their conditions. -/
theorem startEvents : Obligations.StartEvents := by
  unfold Obligations.StartEvents
  exact ⟨Claims.resets_hold, Claims.stagesAdvance_hold, Claims.trustRequests_hold⟩

end

section
/-! Messages of the host, as they are taken (R344, R345). -/

namespace Sys2Proof.Machine

open Sys2Proof.Claims

/-- A message that is taken acts on the state whose cores hold no stale copy (R345, log 67). -/
theorem onMessage_of_takes {kind : BitVec 8} {m : HostMsg} {s : State} (h : Takes kind m s) (act : State → State) :
    onMessage kind m s act = .next (act (acquired s)) := by
  have hmine : (decide (m.type ≠ kind) || !s.plat.powered) = false := by simp [h.type, h.power]
  have htaken : (malformed m || !stageTakes s m) = false := by simp [h.formed, h.stage]
  have hwritten : (decide (kind ≠ 3) && decide (s.hostq ≠ [])) = false := by
    by_cases hk : kind = 3
    · simp [hk]
    · simp [h.written hk]
  simp only [onMessage, hmine, htaken, hwritten, Bool.false_eq_true, if_false]
  rfl

theorem rootless_acquired {s : State} {ctx : Nat} (h : (s.ctx ctx).ptroot.getLsbD 0 = true) : rootless (acquired s) ctx = false :=
  congrArg not h

theorem rootless_acquired_of_none {s : State} {ctx : Nat} (h : (s.ctx ctx).ptroot.getLsbD 0 = false) : rootless (acquired s) ctx = true :=
  congrArg not h

end Sys2Proof.Machine
end

section
/-! Invalidations, from their beginning to their end (R325, R331, R332). -/

namespace Sys2Proof.Machine

open Sys2Proof.Claims

/-! ### What an invalidation notes (R331) -/

section
variable (s : State) (v : Invalidation)

theorem Invalidation.holds_iff (ps : List Addr) : v.holds ps = true ↔ ∃ p ∈ ps, v.covers p.toNat 0x10000 = true := List.any_eq_true

theorem Region.outs_iff (r : Region) : r.outs = true ↔ r.dir = 1 ∨ r.dir = 2 := by simp [Region.outs]

theorem Invalidation.mem_agentsOf {n : Nat} : n ∈ v.agentsOf s ↔
    ∃ a ∈ s.agents, (a.ctx = v.ctx ∧ ∃ p ∈ a.pages, v.covers p.toNat 0x10000 = true) ∧ a.id = n := by
  simp [Invalidation.agentsOf, Invalidation.holds_iff, and_assoc]

theorem Invalidation.mem_teamsOf {n : Nat} : n ∈ v.teamsOf s ↔ ∃ t ∈ s.teams, (t.ctx = v.ctx ∧
    ∃ r ∈ t.regions, (r.dir = 1 ∨ r.dir = 2) ∧ ∃ p ∈ r.pages, v.covers p.toNat 0x10000 = true) ∧ t.id = n := by
  simp [Invalidation.teamsOf, Invalidation.holds_iff, Region.outs_iff, and_assoc]

theorem Invalidation.mem_opsOf {n : Nat} : n ∈ v.opsOf s ↔ ∃ t ∈ s.teams, t.ctx = v.ctx ∧ ∃ i ∈ t.insts, ∃ x ∈ i.slices,
    (∃ p ∈ x.pages, v.covers p.toNat 0x10000 = true) ∧ x.op = n := by
  simp [Invalidation.opsOf, Invalidation.holds_iff, and_assoc]

/-- The translations that an invalidation covers are cached no more. -/
theorem beginInvalidation_tlb (h : v.ctx < s.ctxs.length) :
    ((beginInvalidation s v).ctx v.ctx).tlb = (s.ctx v.ctx).tlb.filter (fun t => !v.covers t.1 t.2.1) :=
  congrArg Context.tlb (State.ctx_setCtx (s := s) _ h)

end

/-! ### When an invalidation ends (R331) -/

/-- What may hold a translation that an invalidation covers has gone. -/
structure Invalidation.Ended (v : Invalidation) (s : State) : Prop where
  agents  : ∀ a ∈ s.agents, a.id ∉ v.agents
  teams   : ∀ t ∈ s.teams, t.id ∉ v.teams
  entries : ∀ o ∈ s.outb, v.pendingEntry o.entry = false
  waits   : ∀ w ∈ s.care.swaps, ∀ x ∈ w.waits, v.pendingWait x = false

theorem Invalidation.ended_of_ready {v : Invalidation} {s : State} (h : v.ready s = true) : v.Ended s := by
  simp only [Invalidation.ready, Bool.and_eq_true, Bool.not_eq_true', List.any_eq_false, List.contains_iff_mem] at h
  obtain ⟨⟨⟨⟨⟨⟨⟨hagents, hteams⟩, _⟩, _⟩, hentries⟩, _⟩, _⟩, hwaits⟩ := h
  exact ⟨hagents, hteams, fun o ho => Bool.eq_false_iff.2 (hentries o ho),
    fun w hw x hx => Bool.eq_false_iff.2 fun hp => hwaits w hw (List.any_eq_true.2 ⟨x, hx, hp⟩)⟩

theorem Invalidation.pendingEntry_covers {v : Invalidation} {e : Entry} (h : v.pendingEntry e = false) {va : Addr} (hc : e.ctx = v.ctx)
    (hva : e.va = some va) : v.covers va.toNat e.bytes.length = false := by
  simpa [Invalidation.pendingEntry, hc, hva] using h

theorem Invalidation.pendingWait_covers {v : Invalidation} {loc ctx : Nat} {bs : List Byte} {n : Option Nat} {bad : List Nat} {ps : List Addr}
    (h : v.pendingWait (.remote loc bs n bad (some (ctx, ps))) = false) (hc : ctx = v.ctx) : ∀ p ∈ ps, v.covers p.toNat 0x10000 = false := by
  simpa [Invalidation.pendingWait, Invalidation.holds, hc] using h

theorem endInvalidation_of_ready {s : State} {v : Invalidation} {rest : List Invalidation} (hv : s.invs = v :: rest) (h : v.ready s = true) :
    endInvalidation s = match v.newRoot with
      | some r => ({ s with invs := rest } : State).setCtx v.ctx { (s.ctx v.ctx) with ptroot := r, tlb := [] }
      | none => ({ s with invs := rest } : State).answer 0x85 v.ctx v.seqNo (BitVec.ofNat 64 v.status) := by
  simp only [endInvalidation, hv, h, Bool.not_true, Bool.false_eq_true, if_false]
  rfl

end Sys2Proof.Machine

open Sys2Proof Sys2Proof.Machine

namespace Sys2Proof.Claims

theorem invalidations_hold : Invalidations := by
  refine ⟨fun m s h hroot => ?inv, fun ctx v s hc => ?root, fun v s hc => ⟨fun t ht => ?cached, ?noted⟩, fun s v rest hv hready => ?ends⟩
  case inv =>
    rw [exec_hostInv, execHostInv, onMessage_of_takes h, rootless_acquired hroot]
    rfl
  case root => exact (exec_ptrootWrite ctx v s).trans (congrArg Host.Outcome.next (if_neg (Nat.not_le.2 hc)))
  case cached =>
    rw [beginInvalidation_tlb s v hc] at ht
    obtain ⟨hmem, hcovers⟩ := List.mem_filter.1 ht
    exact ⟨by simpa using hcovers, hmem⟩
  case noted =>
    refine ⟨{ v with agents := v.agentsOf s, teams := v.teamsOf s, ops := v.opsOf s }, rfl, rfl, rfl, rfl,
      fun a ha hctx hp => (v.mem_agentsOf s).2 ⟨a, ha, ⟨hctx, hp⟩, rfl⟩, fun t ht hctx => ⟨fun r hr hd hp => ?_, fun n hn x hx hp => ?_⟩⟩
    · exact (v.mem_teamsOf s).2 ⟨t, ht, ⟨hctx, r, hr, hd, hp⟩, rfl⟩
    · exact (v.mem_opsOf s).2 ⟨t, ht, hctx, n, hn, x, hx, hp, rfl⟩
  case ends =>
    have hended := Invalidation.ended_of_ready hready
    have hend := endInvalidation_of_ready hv hready
    refine ⟨hended.agents, hended.teams, fun o ho va hctx hva => Invalidation.pendingEntry_covers (hended.entries o ho) hctx hva,
      fun w hw loc bs n bad ctx ps hwait hctx => Invalidation.pendingWait_covers (hended.waits w hw _ hwait) hctx, fun hroot => ?_, fun r hroot => ?_⟩
    · rw [exec_invalidationComplete, execInvalidationComplete, hend, hroot]
    · rw [exec_invalidationComplete, execInvalidationComplete, hend, hroot]

end Sys2Proof.Claims

/-- Settles O54: what begins an invalidation notes by its definition, and its end's conditions say what has gone. -/
theorem invalidationsRun : Obligations.InvalidationsRun := by
  unfold Obligations.InvalidationsRun
  exact Claims.invalidations_hold

end

section
/-! The host's requests: posts, reads and writes, and requests about tasks and contexts (R298, R301, R318-R321, R343-R349). -/

namespace Sys2Proof.Machine

open Sys2Proof.Claims

/-! ### Posts and counts (R346) -/

theorem slotField_toNat (v : DWord) : (v.extractLsb' 0 13).toNat = v.toNat % 2 ^ 13 := by
  rw [BitVec.extractLsb'_toNat, Nat.shiftRight_zero]

theorem countField_toNat (v : DWord) : (v.extractLsb' 32 32).toNat = v.toNat / 2 ^ 32 := by
  rw [BitVec.extractLsb'_toNat, Nat.shiftRight_eq_div_pow]
  exact Nat.mod_eq_of_lt (Nat.div_lt_of_lt_mul v.isLt)

/-! ### Writes and reads (R347, R359) -/

theorem touchHost_hostq (s : State) (space : BitVec 2) (ctx va n : Nat) : (touchHost s space ctx va n).hostq = s.hostq := by
  unfold touchHost
  split
  · exact foldl_keeps State.hostq (fun s p => s.touch ctx p) (fun s p => by obtain ⟨_, _, _, h⟩ := s.touch_eq ctx p; rw [h]) _ s
  · rfl

theorem noRoot_false {s : State} {m : HostMsg} (h : m.space = 0 → (s.ctx m.ctx.toNat).ptroot.getLsbD 0 = true) :
    (decide (m.space = 0) && rootless (acquired s) m.ctx.toNat) = false := by
  by_cases hspace : m.space = 0
  · rw [rootless_acquired (h hspace), Bool.and_false]
  · rw [decide_eq_false hspace, Bool.false_and]

section
variable {s : State} {w : HostWr} {rest : List HostWr} (hq : s.hostq = w :: rest)
include hq

theorem touchHost_dropped : (touchHost s w.space w.ctx.toNat w.va.toNat w.bytes.length).hostq.drop 1 = rest := by
  rw [touchHost_hostq, hq, List.drop_one, List.tail_cons]

theorem applyWrite_memory (hm : isMgmt w.space w.va = false) : applyWrite s = applyMemoryWrite s w := by
  simp only [applyWrite, hq, hm, Bool.false_eq_true, if_false]

theorem applyWrite_window {off : Nat} (hm : isMgmt w.space w.va = true) (hoff : mgmtOffset w.va w.bytes.length = some off)
    (hholds : mgmtRangeHolds s off w.bytes.length = true) : applyWrite s = writeRegs { s with hostq := rest } off w.bytes := by
  simp only [applyWrite, hq, hm, hoff, hholds, if_true]

variable {ps : List (Nat × Nat × Nat)}

/-- A write whose pages are all free reaches memory part by part. -/
theorem applyMemoryWrite_free
    (hps : hostParts (touchHost s w.space w.ctx.toNat w.va.toNat w.bytes.length) w.space w.ctx.toNat w.va.toNat w.bytes.length .write = some ps)
    (hfree : ∀ p ∈ ps, held (touchHost s w.space w.ctx.toNat w.va.toNat w.bytes.length).care p.1 = false) :
    applyMemoryWrite s w = ps.foldl (fun s p => s.put p.1 ((w.bytes.drop p.2.2).take p.2.1))
      { touchHost s w.space w.ctx.toNat w.va.toNat w.bytes.length with hostq := rest } := by
  have hnone : ps.find? (fun p => held (touchHost s w.space w.ctx.toNat w.va.toNat w.bytes.length).care p.1) = none :=
    List.find?_eq_none.2 fun p hp => by simp [hfree p hp]
  simp only [applyMemoryWrite, hps, hnone, touchHost_dropped hq]

omit hq in
theorem applyMemoryWrite_held {p : Nat × Nat × Nat}
    (hps : hostParts (touchHost s w.space w.ctx.toNat w.va.toNat w.bytes.length) w.space w.ctx.toNat w.va.toNat w.bytes.length .write = some ps)
    (hp : ps.find? (fun p => held (touchHost s w.space w.ctx.toNat w.va.toNat w.bytes.length).care p.1) = some p) :
    applyMemoryWrite s w = waitFor (touchHost s w.space w.ctx.toNat w.va.toNat w.bytes.length) p.1 .host := by
  simp only [applyMemoryWrite, hps, hp]

theorem applyMemoryWrite_failing
    (hps : hostParts (touchHost s w.space w.ctx.toNat w.va.toNat w.bytes.length) w.space w.ctx.toNat w.va.toNat w.bytes.length .write = none) :
    applyMemoryWrite s w = ({ touchHost s w.space w.ctx.toNat w.va.toNat w.bytes.length with hostq := rest } : State).event 10
      (ctx := w.ctx.toNat) (detail := w.va.toNat) := by
  simp only [applyMemoryWrite, hps, touchHost_dropped hq]

end

end Sys2Proof.Machine

open Sys2Proof Sys2Proof.Machine

namespace Sys2Proof.Claims

/-! ### The requests, one by one -/

theorem hostPosts_hold : HostPosts := by
  refine fun m s => ⟨fun h hroot => ?posted, fun h hroot => ?refused, fun h hroot hslot => ?counted⟩
  case posted =>
    rw [exec_hostPost, execHostPost, onMessage_of_takes h, rootless_acquired hroot]
    rfl
  case refused =>
    rw [exec_hostPost, execHostPost, onMessage_of_takes h, rootless_acquired_of_none hroot]
    rfl
  case counted =>
    have hin : slotIn (acquired s) m.ctx.toNat (m.arg.toNat % 2 ^ 13) = true := hslot
    rw [exec_hostArrive, execHostArrive, onMessage_of_takes h]
    simp only [slotField_toNat, countField_toNat, rootless_acquired hroot, hin, Bool.not_true, Bool.or_self, Bool.false_eq_true, if_false]

theorem hostWrites_hold : HostWrites := by
  intro m s hroot a s1
  have htake (h : Takes 3 m s) : exec (.hostWrite m) s = .next (takeWrite a m) := by
    rw [exec_hostWrite, execHostWrite, onMessage_of_takes h]
  refine ⟨fun h hpass => ?queued, fun h hpass hq => ?dropped, fun w rest hq hm => ?memory, fun w rest off hq hm hoff hholds => ?window⟩
  case queued =>
    rw [htake h, takeWrite, noRoot_false hroot, if_neg Bool.false_ne_true, if_pos hpass]
    rfl
  case dropped =>
    have hempty : ¬ a.hostq ≠ [] := not_not.2 hq
    rw [htake h, takeWrite, noRoot_false hroot, if_neg Bool.false_ne_true, if_neg (Bool.eq_false_iff.1 hpass), if_neg hempty]
  case memory =>
    have happly : exec .hostWriteApply s = .next (applyMemoryWrite s w) :=
      (exec_hostWriteApply s).trans (congrArg Host.Outcome.next (applyWrite_memory hq hm))
    exact ⟨fun ps hps hfree => happly.trans (congrArg Host.Outcome.next (applyMemoryWrite_free hq hps hfree)),
      fun ps p hps hp => happly.trans (congrArg Host.Outcome.next (applyMemoryWrite_held hps hp)),
      fun hps => happly.trans (congrArg Host.Outcome.next (applyMemoryWrite_failing hq hps))⟩
  case window => exact (exec_hostWriteApply s).trans (congrArg Host.Outcome.next (applyWrite_window hq hm hoff hholds))

theorem hostReads_hold : HostReads := by
  intro m s h a
  have htake : exec (.hostRead m) s = .next (takeRead a m) := by
    rw [exec_hostRead, execHostRead, onMessage_of_takes h]
  refine ⟨fun hm hroot => ⟨fun ps hps => ?bytes, fun hps => ?failing⟩, fun off ws hm hoff hws hplain => ?registers⟩
  case bytes =>
    have hr : (decide (m.space = 0) && rootless a m.ctx.toNat) = false := noRoot_false hroot
    rw [htake]
    simp only [takeRead, hm, hr, Bool.false_eq_true, if_false]
    rw [hps]
    rfl
  case failing =>
    have hr : (decide (m.space = 0) && rootless a m.ctx.toNat) = false := noRoot_false hroot
    rw [htake]
    simp only [takeRead, hm, hr, Bool.false_eq_true, if_false]
    rw [hps]
  case registers =>
    have hkept : mgmtReadEffect a off m.len.toNat = a := if_neg (by simpa using hplain)
    rw [htake]
    simp only [takeRead, hm, hoff, hws, hkept, if_true]

theorem hostTaskRequests_hold : HostTaskRequests := by
  intro m s hroot
  have hr := rootless_acquired hroot
  refine ⟨fun slots h hn => ?preempt, fun slots h hn => ?resume, fun h hs => ?save, fun u h hu => ?restore, fun h => ?reset⟩
  case preempt =>
    rw [exec_hostPreempt, execHostPreempt, onMessage_of_takes h]
    simp only [hr, hn, Bool.false_eq_true, if_false]
  case resume =>
    rw [exec_hostResume, execHostResume, onMessage_of_takes h]
    simp only [hr, hn, Bool.false_eq_true, if_false]
  case save =>
    have hfree : (acquired s).saving m.ctx.toNat = false := hs
    rw [exec_hostSave, execHostSave, onMessage_of_takes h]
    simp only [hr, hfree, Bool.false_eq_true, if_false]
  case restore =>
    rw [exec_hostRestore, execHostRestore, onMessage_of_takes h]
    simp only [hr, hu, Bool.false_eq_true, if_false]
  case reset =>
    rw [exec_hostReset, execHostReset, onMessage_of_takes h]
    simp only [hr, Bool.false_eq_true, if_false]

theorem malformedMessages_hold : MalformedMessages := fun m s hm hp =>
  (exec_malformedMessage m s).trans (congrArg Host.Outcome.next (if_pos (by simp [hm, hp])))

end Sys2Proof.Claims

/-- Settles O53: a message that is taken acts on the state whose stale copies are gone, and each request by its checks. -/
theorem linkEvents : Obligations.LinkEvents := by
  unfold Obligations.LinkEvents
  exact ⟨Claims.hostPosts_hold, Claims.hostWrites_hold, Claims.hostReads_hold, Claims.hostTaskRequests_hold, Claims.malformedMessages_hold⟩

end

section
/-! Accesses of remote devices, answers of targets, and collectives (R322, R353-R358). -/

namespace Sys2Proof.Machine

open Sys2Proof.Claims

theorem State.running_iff {s : State} : s.running = true ↔ s.plat.powered = true ∧ s.plat.stage = 3 := by simp [State.running]

/-! ### Remote accesses (R353) -/

section
variable {s : State} {r : RemoteReq}

/-- The lines of a remote access, as its translations place them. -/
def remoteParts (s : State) (r : RemoteReq) (n : Nat) : List (Nat × Nat × Nat) :=
  (virtParts (s.touchRange r.rctx.toNat r.va.toNat (max n 1)) r.rctx.toNat r.va.toNat n 0).map (fun q => (q.1, q.2.1, q.2.2.1))

/-- The translations that it uses. -/
def remoteUsed (r : RemoteReq) (n : Nat) : Nat × List Addr := (r.rctx.toNat, (pagesOf r.va.toNat (max n 1)).map (BitVec.ofNat 48))

theorem remoteAccess_read (hw : r.write = false) (hf : remoteFault s r.rctx.toNat r.va.toNat r.size .read = none) :
    remoteAccess s r =
      remoteRead (s.touchRange r.rctx.toNat r.va.toNat (max r.size 1)) r.fid.toNat (remoteParts s r r.size) (remoteUsed r r.size) := by
  simp only [remoteAccess, hw, Bool.false_eq_true, if_false, hf, Bool.not_false, if_true]
  rfl

theorem remoteRead_behind {fid loc : Nat} {ps : List (Nat × Nat × Nat)} (used : Nat × List Addr) (h : waitsAhead s fid ps = some loc) :
    remoteRead s fid ps used = waitFor s loc (.remoteRead fid ps used) := by
  simp only [remoteRead, h]

theorem remoteRead_answers {fid : Nat} {ps : List (Nat × Nat × Nat)} (used : Nat × List Addr) (h : waitsAhead s fid ps = none) :
    remoteRead s fid ps used = (countParts s ps).remoteAnswer fid (if (outsideBytes s ps).2 then 1 else 0) (outsideBytes s ps).1 := by
  simp only [remoteRead, h]

/-- A write of no bytes is answered; another performs its parts, each of them counted until its request is answered (R270). -/
theorem remoteAccess_write (hw : r.write = true) (hf : remoteFault s r.rctx.toNat r.va.toNat r.bytes.length .write = none) :
    let s1 := s.touchRange r.rctx.toNat r.va.toNat (max r.bytes.length 1)
    let ps := remoteParts s r r.bytes.length
    remoteAccess s r = if ps = [] then s1.remoteAnswer r.fid.toNat 0 []
      else ps.foldl (fun s p => performWait s (.remote p.1 ((r.bytes.drop p.2.2).take p.2.1) (some s1.ids) [] (some (remoteUsed r r.bytes.length))))
        { s1 with ids := s1.ids + 1, fabric := { s1.fabric with pending := s1.fabric.pending ++ [(s1.ids, r.fid.toNat, ps.length)] } } := by
  simp only [remoteAccess, hw, if_true, hf, Bool.not_true, Bool.false_eq_true, if_false]
  rfl

/-- A part of a write whose page is free is done at once, and the last one answers the request. -/
theorem performWait_remote_counts {loc n fid left : Nat} {bs : List Byte} {bad : List Nat} (used : Option (Nat × List Addr))
    (hfree : held s.care loc = false)
    (hp : ((s.put loc bs).poisonAt loc bad).fabric.pending.find? (fun p => p.1 = n) = some (n, fid, left)) :
    let u := (s.put loc bs).poisonAt loc bad
    let rest := u.fabric.pending.filter (fun p => p.1 ≠ n)
    performWait s (.remote loc bs (some n) bad used) =
      if left ≤ 1 then ({ u with fabric := { u.fabric with pending := rest } } : State).remoteAnswer fid 0 []
      else { u with fabric := { u.fabric with pending := rest ++ [(n, fid, left - 1)] } } := by
  simp only [performWait, hfree, Bool.false_eq_true, if_false, partDone, Option.bind_some, hp]

theorem remoteAccess_refused {n k : Nat} (hn : n = if r.write then r.bytes.length else r.size)
    (hf : remoteFault s r.rctx.toNat r.va.toNat n (if r.write then .write else .read) = some k) :
    remoteAccess s r =
      (if 2 ^ 48 < r.va.toNat + n then s else s.touchRange r.rctx.toNat r.va.toNat (max n 1)).remoteAnswer r.fid.toNat k [] := by
  subst hn
  simp only [remoteAccess, hf]

end

/-! ### Collectives (R356, R357) -/

section
variable {s : State} {slot : Nat} {c : Collective} {t : Task} {a : Agent}
  (hc : s.fabric.insts.find? (fun c => c.slot = slot) = some c) (ht : s.task? slot = some t)
  (ha : s.agents.find? (fun a => a.id = c.agent) = some a) (hsteps : a.steps = [])
include hc ht ha hsteps

theorem collectiveStep_written (hw : c.writing = true) : collectiveStep s slot = endCollective s t 0 := by
  simp only [collectiveStep, hc, ht, ha, hsteps, ne_eq, not_true_eq_false, if_false, hw, if_true]

variable {ds : List PeerData} (hw : c.writing = false) (hd : allData s t.record (peerData t.record a.buf a.bad) = some ds)
include hw hd

theorem collectiveStep_disagrees (h : ds.all (fun d => agreeing d (peerData t.record a.buf a.bad)) = false) :
    collectiveStep s slot = endCollective s t 2 := by
  simp only [collectiveStep, hc, ht, ha, hsteps, ne_eq, not_true_eq_false, if_false, hw, Bool.false_eq_true, hd, h, Bool.not_false, if_true]

theorem collectiveStep_folds (h : ds.all (fun d => agreeing d (peerData t.record a.buf a.bad)) = true) :
    let w := collBytes (collType t.record)
    let res := collective (collOp t.record) (collType t.record) (collRed t.record) (collE t.record) (collRank t.record) ds
    collectiveStep s slot = setInst (s.setAgent { a with
        buf := Memory.write [] 0 (res.1.flatMap (fun x => bytesOf w x.toNat)), bad := res.2.flatMap (fun i => upFrom (i * w) w), steps := c.dst })
      { c with writing := true } := by
  simp only [collectiveStep, hc, ht, ha, hsteps, ne_eq, not_true_eq_false, if_false, hw, Bool.false_eq_true, hd, h, Bool.not_true]

end

theorem abortInstance_ends {s : State} {c : Collective} {t : Task} (h : (stepsSettled s c).task? c.slot = some t) :
    abortInstance s c = endCollective (stepsSettled s c) t 1 := by
  unfold stepsSettled at h ⊢
  simp only [abortInstance, h]

/-- An abort of a collective that does not run here, has not run and is not known is kept (R322). -/
theorem abortArrives_kept {s : State} {cid : DWord} (hi : ∀ c ∈ s.fabric.insts, c.cid ≠ cid) (hf : cid ∉ s.fabric.finished)
    (ha : cid ∉ s.fabric.aborts) : abortArrives s cid = { s with fabric := { s.fabric with aborts := s.fabric.aborts ++ [cid] } } := by
  have hnone : s.fabric.insts.find? (fun c => c.cid = cid) = none := List.find?_eq_none.2 fun c hc => by simp [hi c hc]
  have hnew : (s.fabric.finished.contains cid || s.fabric.aborts.contains cid) = false := by simp [hf, ha]
  simp only [abortArrives, hnone, hnew, Bool.false_eq_true, if_false]

theorem targetAnswer_of_page (s : State) (ctx : Nat) {page : Addr} (ans : TargetAnswer) (h : page.toNat % 0x10000 = 0) :
    targetAnswer s ctx page.toNat ans = retryTargets { s with fabric := { s.fabric with
      answers := s.fabric.answers.filter (fun a => !(a.1 = ctx && a.2.1 = page)) ++ [(ctx, page, ans)] } } := by
  simp only [targetAnswer, h, Nat.sub_zero, BitVec.ofNat_toNat, BitVec.setWidth_eq]

end Sys2Proof.Machine

open Sys2Proof Sys2Proof.Machine

namespace Sys2Proof.Claims

theorem remoteAccesses_hold : RemoteAccesses := by
  intro s hp hstage
  have hrun : s.running = true := State.running_iff.2 ⟨hp, hstage⟩
  have hreq (r : RemoteReq) : exec (.remoteAccessRequest r) s = .next (remoteAccess s r) :=
    (exec_remoteAccessRequest r s).trans (congrArg Host.Outcome.next (if_pos hrun))
  refine ⟨fun r hw hf => ⟨fun loc hl => ?behind, fun hl => ?bytes⟩, fun r hw hf => ⟨fun hps => ?empty, fun hps => ?parts⟩,
    fun loc n fid left bs bad used hfree => fun hpend => performWait_remote_counts used hfree hpend, fun r k => fun hf hin => ?refused,
    fun r hout => ?beyond, fun ctx page ans hpage => ?answer, fun fid dt => ⟨fun hdt => ?quiet, fun hdt => ?silent⟩,
    fun c t ht => abortInstance_ends ht⟩
  case behind => exact (hreq r).trans (congrArg Host.Outcome.next ((remoteAccess_read hw hf).trans (remoteRead_behind _ hl)))
  case bytes => exact (hreq r).trans (congrArg Host.Outcome.next ((remoteAccess_read hw hf).trans (remoteRead_answers _ hl)))
  case empty => exact (hreq r).trans (congrArg Host.Outcome.next ((remoteAccess_write hw hf).trans (if_pos hps)))
  case parts => exact (hreq r).trans (congrArg Host.Outcome.next ((remoteAccess_write hw hf).trans (if_neg hps)))
  case refused => rw [hreq, remoteAccess_refused rfl hf, if_neg (Nat.not_lt.2 hin)]
  case beyond => rw [hreq, remoteAccess_refused rfl (if_pos hout), if_pos hout]
  case answer =>
    exact (exec_targetCheckAnswer ctx page ans s).trans
      (congrArg Host.Outcome.next ((if_pos hrun).trans (targetAnswer_of_page s ctx ans hpage)))
  case quiet =>
    exact (exec_fabricUnreachable fid dt s).trans (congrArg Host.Outcome.next ((if_pos hrun).trans (if_pos hdt)))
  case silent =>
    exact (exec_fabricUnreachable fid dt s).trans (congrArg Host.Outcome.next ((if_pos hrun).trans (if_neg (Nat.not_lt.2 hdt))))

theorem collectives_hold : Collectives := by
  intro s
  have hrun (hp : s.plat.powered = true) (hstage : s.plat.stage = 3) : s.running = true := State.running_iff.2 ⟨hp, hstage⟩
  refine ⟨fun d hp hstage => ?arrival, fun slot c t a hc ht ha hsteps => ⟨fun hw => ?written, fun ds hw hd => ⟨fun h => ?folds, fun h => ?differ⟩⟩,
    fun cid hp hstage => ⟨fun c t hc ht => ?running, fun hi hf hab => ?kept⟩⟩
  case arrival => exact (exec_collectiveDataArrival d s).trans (congrArg Host.Outcome.next (if_pos (hrun hp hstage)))
  case written => exact (exec_collectiveComplete slot s).trans (congrArg Host.Outcome.next (collectiveStep_written hc ht ha hsteps hw))
  case folds => exact (exec_collectiveComplete slot s).trans (congrArg Host.Outcome.next (collectiveStep_folds hc ht ha hsteps hw hd h))
  case differ => exact (exec_collectiveComplete slot s).trans (congrArg Host.Outcome.next (collectiveStep_disagrees hc ht ha hsteps hw hd h))
  case running =>
    have harrive : abortArrives s cid = abortInstance s c := by simp only [abortArrives, hc]
    exact (exec_collectiveAbortReceive cid s).trans
      (congrArg Host.Outcome.next ((if_pos (hrun hp hstage)).trans (harrive.trans (abortInstance_ends ht))))
  case kept =>
    exact (exec_collectiveAbortReceive cid s).trans
      (congrArg Host.Outcome.next ((if_pos (hrun hp hstage)).trans (abortArrives_kept hi hf hab)))

end Sys2Proof.Claims

/-- Settles O56: a remote access by its translations and the held pages, a collective by its agent's steps and the data it holds. -/
theorem fabricEvents : Obligations.FabricEvents := by
  unfold Obligations.FabricEvents
  exact ⟨Claims.remoteAccesses_hold, Claims.collectives_hold⟩

end

section
/-! The record of a trap, and how a split enters its handler (R304-R306, R309, R310). -/

namespace Sys2Proof.Machine

open Sys2Proof.Claims

/-! ### The record's layout (R306) -/

section
variable (t : TrapSplit) (flags : Nat) (epc : Addr) (f : Front)

/-- The token counts as one number, four bits each. -/
def tokenNibbles (toks : List Nat) : Nat := toks.foldr (fun c acc => c % 16 + 16 * acc) 0

/-- The word of a PFX, or none. -/
def prefixField (p : Option (BitVec 25)) : Nat :=
  match p with
  | some p => 0x80000000 + p.toNat
  | none => 0

theorem prefixField_eq (p : Option (BitVec 25)) : prefixField p = (p.map (fun p => 2 ^ 31 + p.toNat)).getD 0 := by cases p <;> rfl

/-- The cause byte of a lane. -/
def causeByte (j : Nat) : Byte :=
  match t.causes.find? (fun c => c.1 = j) with
  | some c => BitVec.ofNat 8 c.2
  | none => 0

theorem causeByte_eq (j : Nat) : causeByte t j = BitVec.ofNat 8 (((t.causes.find? (fun c => c.1 = j)).map (·.2)).getD 0) := by
  unfold causeByte
  cases t.causes.find? (fun c => c.1 = j) <;> rfl

/-- The fields of a record, one after another. -/
def recordSegments : List (List Byte) :=
  [bytesOf 8 epc.toNat, bytesOf 4 t.word.toNat, bytesOf 4 (prefixField t.pfx), bytesOf 2 t.vec, bytesOf 1 flags,
    bytesOf 1 0, bytesOf 4 t.tcode.toNat, bytesOf 8 t.lanes.toNat, bytesOf 8 (tokenNibbles f.tok), bytesOf 8 t.addr.toNat, bytesOf 8 0, bytesOf 8 0,
    bytesOf 8 (f.sreg 60).toNat, bytesOf 8 (f.sreg 61).toNat, bytesOf 8 (f.sreg 62).toNat, bytesOf 8 (f.sreg 63).toNat,
    (upFrom 0 64).map (causeByte t), bytesOf 96 0]

/-- The sizes of the fields. -/
def recordSizes : List Nat := [8, 4, 4, 2, 1, 1, 4, 8, 8, 8, 8, 8, 8, 8, 8, 8, 64, 96]

theorem recordSegments_sizes : (recordSegments t flags epc f).map List.length = recordSizes := by
  simp only [recordSegments, List.map_cons, List.map_nil, bytesOf_length, List.length_map, upFrom_length]
  rfl

theorem recordBytes_eq_flatten : recordBytes t flags epc f = (recordSegments t flags epc f).flatten := by
  have hzero : bytesOf 16 0 = bytesOf 8 0 ++ bytesOf 8 0 := rfl
  simp only [recordSegments, List.flatten_cons, List.flatten_nil, List.append_nil, recordBytes, hzero, List.append_assoc]
  rfl

theorem recordBytes_length : (recordBytes t flags epc f).length = 256 := by
  rw [recordBytes_eq_flatten, List.length_flatten, recordSegments_sizes]
  rfl

/-- A field stands behind those before it. -/
theorem recordBytes_segment (i : Nat) (h : i < 18 := by decide) :
    ((recordBytes t flags epc f).drop (recordSizes.take i).sum).take (recordSizes.getD i 0) = (recordSegments t flags epc f).getD i [] := by
  have hlen : i < (recordSegments t flags epc f).length := h
  have hsize : i < recordSizes.length := h
  have hsum : (recordSizes.take (i + 1)).sum - (recordSizes.take i).sum = recordSizes.getD i 0 := by
    rw [List.sum_take_succ _ _ hsize, Nat.add_sub_cancel_left, List.getD_eq_getElem _ _ hsize]
  have hseg := List.drop_take_succ_flatten_eq_getElem (recordSegments t flags epc f) i hlen
  rw [recordSegments_sizes, List.drop_take, hsum] at hseg
  rw [recordBytes_eq_flatten, hseg, List.getD_eq_getElem _ _ hlen]

theorem recordBytes_fields : ∀ e ∈ recordFields t flags epc f, ((recordBytes t flags epc f).drop e.1).take e.2.1 = bytesOf e.2.1 e.2.2 := by
  have seg (i : Fin 18) := recordBytes_segment t flags epc f i i.isLt
  simp only [recordFields, List.forall_mem_cons, ← prefixField_eq]
  exact ⟨seg 0, seg 1, seg 2, seg 3, seg 4, seg 5, seg 6, seg 7, seg 9, seg 10, seg 11, seg 12, seg 13, seg 14, seg 15, fun _ h => nomatch h⟩

/-- A byte of a field of the record. -/
theorem recordBytes_byte {i j : Nat} (h : i < 18 := by decide) (hj : j < recordSizes.getD i 0) :
    (recordBytes t flags epc f).getD ((recordSizes.take i).sum + j) 0 = ((recordSegments t flags epc f).getD i []).getD j 0 := by
  rw [← recordBytes_segment t flags epc f i h, List.getD_eq_getElem?_getD, List.getD_eq_getElem?_getD, List.getElem?_take_of_lt hj,
    List.getElem?_drop]

end

/-- Each token count has four bits of its own. -/
theorem tokenNibbles_nibble (toks : List Nat) (k : Nat) : tokenNibbles toks / 16 ^ k % 16 = toks.getD k 0 % 16 := by
  induction toks generalizing k with
  | nil => simp [tokenNibbles]
  | cons c cs ih =>
    have hcons : tokenNibbles (c :: cs) = c % 16 + 16 * tokenNibbles cs := rfl
    cases k with
    | zero => rw [hcons, List.getD_cons_zero]; omega
    | succ k =>
      have hdiv : (c % 16 + 16 * tokenNibbles cs) / 16 = tokenNibbles cs := by omega
      rw [hcons, List.getD_cons_succ, ← ih k, Nat.pow_succ', ← Nat.div_div_eq_div_mul, hdiv]

theorem tokenNibbles_lt (toks : List Nat) : tokenNibbles toks < 16 ^ toks.length := by
  induction toks with
  | nil => exact Nat.one_pos
  | cons c cs ih =>
    have hcons : tokenNibbles (c :: cs) = c % 16 + 16 * tokenNibbles cs := rfl
    rw [hcons, List.length_cons, Nat.pow_succ']
    omega

theorem recordBytes_tokens (t : TrapSplit) (flags : Nat) (epc : Addr) {f : Front} (h : f.tok.length = 15) (k : Nat) :
    natOf (((recordBytes t flags epc f).drop 32).take 8) / 16 ^ k % 16 = f.tok.getD k 0 % 16 := by
  have hseg : ((recordBytes t flags epc f).drop 32).take 8 = bytesOf 8 (tokenNibbles f.tok) := recordBytes_segment t flags epc f 8
  have hlt : tokenNibbles f.tok < 256 ^ 8 := (h ▸ tokenNibbles_lt f.tok).trans (by decide)
  rw [hseg, natOf_bytesOf, Nat.mod_eq_of_lt hlt, tokenNibbles_nibble]

theorem recordLayout_holds : RecordLayout := by
  refine fun t flags epc f => ⟨recordBytes_length t flags epc f, recordBytes_fields t flags epc f, fun k _ => ?tokens, fun j hj => ?causes,
    fun j hlow hhigh => ?zeros⟩
  case tokens =>
    by_cases h : f.tok.length = 15
    · exact .inl (recordBytes_tokens t flags epc h k)
    · exact .inr h
  case causes =>
    exact (recordBytes_byte t flags epc f (i := 16) (by decide) hj).trans ((getD_map_upFrom (causeByte t) 0 hj).trans (causeByte_eq t j))
  case zeros =>
    have hk : j - 160 < 96 := by omega
    have hbyte := recordBytes_byte t flags epc f (i := 17) (by decide) (show j - 160 < recordSizes.getD 17 0 from hk)
    have hplace : (recordSizes.take 17).sum + (j - 160) = j := show 160 + (j - 160) = j by omega
    rw [hplace] at hbyte
    rw [hbyte]
    exact (getD_bytesOf 0 hk).trans (by rw [Nat.zero_div]; rfl)

/-! ### A record is written whoever is resident (R305, R330) -/

/-- A state with other groups and lanterns. -/
def State.housing (s : State) (gs : List Group) (ls : List Lantern) : State := { s with groups := gs, lanterns := ls }

section
variable (s : State) (gs : List Group) (ls : List Lantern)

theorem State.housing_view : SameView s (s.housing gs ls) := ⟨rfl, rfl, rfl, rfl, rfl⟩

theorem State.housing_countReq (loc : Nat) : (s.housing gs ls).countReq loc = (s.countReq loc).housing gs ls := by
  unfold State.countReq
  split <;> rfl

theorem State.housing_touch (c va : Nat) : (s.housing gs ls).touch c va = (s.touch c va).housing gs ls := by
  have hwalk : walk (s.housing gs ls) c va = walk s c va := by
    simp only [walk, (s.housing_view gs ls).ctx, (s.housing_view gs ls).walkFrom]
  have hcounts (as : List Nat) : as.foldl (fun s a => s.countReq a) (s.housing gs ls) = (as.foldl (fun s a => s.countReq a) s).housing gs ls :=
    List.foldl_hom (fun s : State => s.housing gs ls) (fun s a => s.housing_countReq gs ls a)
  unfold State.touch
  rw [(s.housing_view gs ls).ctx, hwalk]
  split
  · rfl
  · dsimp only
    rw [hcounts]
    split <;> rfl

theorem State.housing_touchRange (c va n : Nat) : (s.housing gs ls).touchRange c va n = (s.touchRange c va n).housing gs ls :=
  List.foldl_hom (fun s : State => s.housing gs ls) (fun s p => s.housing_touch gs ls c p)

theorem recordOff_housing (c core slot : Nat) : recordOff (s.housing gs ls) c core slot = recordOff s c core slot := rfl

theorem touchRecord_housing (c core slot : Nat) : touchRecord (s.housing gs ls) c core slot = (touchRecord s c core slot).housing gs ls := by
  unfold touchRecord State.windowTouch
  rw [recordOff_housing]
  split
  · split
    · rfl
    · exact s.housing_touchRange gs ls _ _ _
  · rfl

theorem State.housing_write1 (loc : Nat) (bs : List Byte) : (s.housing gs ls).write1 loc bs = (s.write1 loc bs).housing gs ls := by
  simp only [State.write1, State.dataLoss, apply_ite (fun u : State => u.housing gs ls)]
  rfl

theorem State.housing_store (loc : Nat) (bs : List Byte) : (s.housing gs ls).store loc bs = (s.store loc bs).housing gs ls :=
  List.foldl_hom (fun s : State => s.housing gs ls) (fun s p => s.housing_write1 gs ls p.1 p.2)

theorem windowPage_housing (c off : Nat) (n : Need) : windowPage (s.housing gs ls) c off n = windowPage s c off n := by
  simp only [windowPage, xlateFor, (s.housing_view gs ls).xlate]

theorem windowWrite_housing (c off : Nat) (bs : List Byte) :
    windowWrite (s.housing gs ls) c off bs = (windowWrite s c off bs).map (fun u => u.housing gs ls) := by
  simp only [windowWrite, windowPage_housing]
  split
  · rfl
  · split
    · exact congrArg some (List.foldl_hom (fun u : State => u.housing gs ls) fun u q => by
        rw [(u.housing_view gs ls).xlate]
        cases xlate u c q.1 with
        | ok p => exact u.housing_store gs ls _ _
        | fault k => rfl)
    · rfl

theorem writeRecord_housing (c core slot off : Nat) (bs : List Byte) :
    writeRecord (s.housing gs ls) c core slot off bs = (writeRecord s c core slot off bs).map (fun u => u.housing gs ls) := by
  unfold writeRecord
  rw [recordOff_housing]
  split
  · exact windowWrite_housing s gs ls _ _ _
  · rfl

end

section
variable {s u : State} (hg : u.groups = s.groups) (hl : u.lanterns = s.lanterns)
include hg hl

theorem State.housing_setGroup (g : Group) : u.housing (s.setGroup g).groups (s.setGroup g).lanterns = u.setGroup g := by
  rw [State.setGroup_groups, State.setGroup_lanterns, ← hg, ← hl]
  rfl

theorem State.housing_setLantern (l : Lantern) : u.housing (s.setLantern l).groups (s.setLantern l).lanterns = u.setLantern l := by
  rw [State.setLantern_groups, State.setLantern_lanterns, ← hg, ← hl]
  rfl

end

section
variable {s u : State} {c core slot off : Nat} {bs : List Byte}

theorem State.residents_of_housing {gs : List Group} {ls : List Lantern} (h : u = u.housing gs ls) : u.groups = gs ∧ u.lanterns = ls := by
  rw [h]
  exact ⟨rfl, rfl⟩

/-- The translation of a record's page changes no group and no lantern, and neither does the writing of a record. -/
theorem touchRecord_residents (s : State) (c core slot : Nat) :
    (touchRecord s c core slot).groups = s.groups ∧ (touchRecord s c core slot).lanterns = s.lanterns :=
  State.residents_of_housing (touchRecord_housing s s.groups s.lanterns c core slot)

theorem writeRecord_residents (h : writeRecord s c core slot off bs = some u) : u.groups = s.groups ∧ u.lanterns = s.lanterns := by
  have hsame := writeRecord_housing s s.groups s.lanterns c core slot off bs
  rw [show s.housing s.groups s.lanterns = s from rfl, h] at hsame
  exact State.residents_of_housing (Option.some.inj hsame)

theorem touchRecord_setGroup (s : State) (g : Group) (c core slot : Nat) :
    touchRecord (s.setGroup g) c core slot = (touchRecord s c core slot).setGroup g := by
  obtain ⟨hg, hl⟩ := touchRecord_residents s c core slot
  exact (touchRecord_housing s _ _ c core slot).trans (State.housing_setGroup hg hl g)

theorem touchRecord_setLantern (s : State) (l : Lantern) (c core slot : Nat) :
    touchRecord (s.setLantern l) c core slot = (touchRecord s c core slot).setLantern l := by
  obtain ⟨hg, hl⟩ := touchRecord_residents s c core slot
  exact (touchRecord_housing s _ _ c core slot).trans (State.housing_setLantern hg hl l)

theorem writeRecord_setGroup (h : writeRecord s c core slot off bs = some u) (g : Group) :
    writeRecord (s.setGroup g) c core slot off bs = some (u.setGroup g) := by
  obtain ⟨hg, hl⟩ := writeRecord_residents h
  exact (writeRecord_housing s _ _ c core slot off bs).trans ((congrArg _ h).trans (congrArg some (State.housing_setGroup hg hl g)))

theorem writeRecord_setLantern (h : writeRecord s c core slot off bs = some u) (l : Lantern) :
    writeRecord (s.setLantern l) c core slot off bs = some (u.setLantern l) := by
  obtain ⟨hg, hl⟩ := writeRecord_residents h
  exact (writeRecord_housing s _ _ c core slot off bs).trans ((congrArg _ h).trans (congrArg some (State.housing_setLantern hg hl l)))

end

/-! ### A split whose turn it is (R309, R310) -/

theorem landDue_pend (ps kept : List Pend) (h : ∀ p ∈ ps, p.left = 0) (hk : kept = []) (l : Lane) : (landDue ps kept l).pend = [] := by
  subst hk
  induction ps generalizing l with
  | nil => rfl
  | cons p ps ih =>
    rw [landDue, if_pos (h p (List.mem_cons_self ..))]
    exact ih (fun q hq => h q (List.mem_cons_of_mem _ hq)) _

/-- A settled lane has nothing to settle. -/
theorem Lane.settle_settle (l : Lane) : l.settle.settle = l.settle := by
  have hpend : l.settle.pend = [] := landDue_pend _ _ (by simp) rfl l
  exact (Lane.settle_of_idle hpend).trans rfl

theorem landLantern_keeps {α : Type} {f : Lantern → α} (hp : ∀ l ps, f { l with pend := ps } = f l) (hf : ∀ l fe, f { l with fe := fe } = f l)
    (ps kept : List Pend) (l : Lantern) : f (landLantern ps kept l) = f l := by
  induction ps generalizing kept l with
  | nil => exact hp l kept
  | cons p ps ih =>
    unfold landLantern
    split
    · exact (ih _ _).trans (hf _ _)
    · exact ih _ _

theorem landLantern_pend (ps : List Pend) (h : ∀ p ∈ ps, p.left = 0) (l : Lantern) : (landLantern ps [] l).pend = [] := by
  induction ps generalizing l with
  | nil => rfl
  | cons p ps ih =>
    rw [landLantern, if_pos (h p (List.mem_cons_self ..))]
    exact ih (fun q hq => h q (List.mem_cons_of_mem _ hq)) _

theorem Lantern.settle_settle (l : Lantern) : l.settle.settle = l.settle := by
  have hpend : l.settle.pend = [] := landLantern_pend _ (by simp) l
  rw [Lantern.settle, hpend]
  show { l.settle with pend := [] } = l.settle
  rw [← hpend]

theorem Front.putScalar_ops (f : Front) (d : Dest) (x : DWord) : (f.putScalar d x).ops = f.ops ∧ (f.putScalar d x).handler = f.handler := by
  unfold Front.putScalar
  repeat' split
  all_goals exact ⟨rfl, rfl⟩

/-- Writes that land in a lantern's scalars change neither its operations nor whether its handler runs. -/
theorem landLantern_front (ps kept : List Pend) (l : Lantern) :
    (landLantern ps kept l).fe.ops = l.fe.ops ∧ (landLantern ps kept l).fe.handler = l.fe.handler := by
  induction ps generalizing kept l with
  | nil => exact ⟨rfl, rfl⟩
  | cons p ps ih =>
    unfold landLantern
    split
    · obtain ⟨ho, hh⟩ := ih (kept.filter (fun k => k.dst ≠ p.dst)) { l with fe := l.fe.putScalar p.dst p.val }
      obtain ⟨ho1, hh1⟩ := l.fe.putScalar_ops p.dst p.val
      exact ⟨ho.trans ho1, hh.trans hh1⟩
    · exact ih _ _

theorem Lantern.settle_traps (l : Lantern) : l.settle.traps = l.traps := landLantern_keeps (fun _ _ => rfl) (fun _ _ => rfl) _ _ l

theorem Lantern.settle_team (l : Lantern) : l.settle.team = l.team := landLantern_keeps (fun _ _ => rfl) (fun _ _ => rfl) _ _ l

section
variable {core slot : Nat} {s s1 : State} {t : TrapSplit} {team : Team}

/-- The group as a split's lanes enter the handler: they have settled, and stand at the vector. -/
def Group.inHandler (g : Group) (t : TrapSplit) (pc : Addr) : Group :=
  { (g.upd t.lanes (fun _ l => { l.settle with
      park := .none, gather := .none, handler := true, waited := false, want := none, ticket := none, pc := pc })) with
    traps := g.traps.filter (fun x => x ≠ t), fe := { g.fe with handler := true, epc := t.epc, ecause := BitVec.ofNat 32 t.vec } }

/-- Lanes that have settled enter as those that settle now do. -/
theorem Group.inHandler_settled (g : Group) (t : TrapSplit) (pc : Addr) :
    (g.upd t.lanes (fun _ l => l.settle)).inHandler t pc = g.inHandler t pc := by
  unfold Group.inHandler
  rw [Group.upd_upd]
  simp only [Lane.settle_settle]
  rfl

theorem nextSplit_of_turn {g : Group} (hh : g.fe.handler = false) (hspec : g.spec = none)
    (hfirst : g.traps.find? (fun t => !g.stopped || t.stops) = some t) : g.nextSplit = some t := by
  simp only [Group.nextSplit, hh, hspec, Option.isSome_none, Bool.or_self, Bool.false_eq_true, if_false, hfirst]

theorem entering_of_turn {g : Group} (hturn : g.nextSplit = some t) (hops : ∀ o ∈ g.fe.ops, o.id ∉ t.ops) : g.entering = some t := by
  have hnone : g.fe.ops.any (fun o => t.ops.contains o.id) = false := List.any_eq_false.2 fun o ho => by simpa using hops o ho
  simp only [Group.entering, hturn, hnone, Bool.false_eq_true, if_false]

/-- A group whose split enters is the one that stands in its place, once the record is written. -/
theorem enterGroup_of_record {g g1 : Group} (hg : s.group? core slot = some g) (hc : g1.core = g.core) (hs : g1.slot = g.slot)
    (hmarks : t.marks = 0)
    (hrec : writeRecord (touchRecord s team.ctx core slot) team.ctx core slot 0 (recordBytes t (recordFlags false t.wide) t.epc g1.fe) = some s1) :
    enterGroup (s.setGroup g1) g1 t team = (s1.setGroup (g1.inHandler t (vectorAddr s team.ctx t.vec))).acquire core 4 := by
  obtain ⟨hcore, hslot⟩ := State.group?_core hg
  have hfound : ((touchRecord s team.ctx core slot).setGroup g1).group? core slot = some g1 :=
    State.group?_setGroup_of ((touchRecord_group? s team.ctx core slot core slot).trans hg) g1 hc hs
  simp only [enterGroup, hmarks, drainSq, hc, hs, hcore, hslot, touchRecord_setGroup, hfound, writeRecord_setGroup hrec]
  rw [State.setGroup_setGroup _ (by rfl) (by rfl)]
  rfl

theorem tryEntry_of_group {g : Group} (hslot : slot < 128) (hg : s.group? core slot = some g) (hteam : s.team? g.team = some team)
    (hturn : g.nextSplit = some t) (hmarks : t.marks = 0) (hops : ∀ o ∈ g.fe.ops, o.id ∉ t.ops)
    (hrec : writeRecord (touchRecord s team.ctx core slot) team.ctx core slot 0 (recordBytes t (recordFlags false t.wide) t.epc g.fe) = some s1) :
    tryEntry s core slot = (s1.setGroup (g.inHandler t (vectorAddr s team.ctx t.vec))).acquire core 4 := by
  have hnext : g.settleNext = g.upd t.lanes (fun _ l => l.settle) := by simp only [Group.settleNext, hturn]
  have henter : (g.upd t.lanes (fun _ l => l.settle)).entering = some t := entering_of_turn (g := g.upd _ _) hturn hops
  have hteam1 : s.team? (g.upd t.lanes (fun _ l => l.settle)).team = some team := hteam
  simp only [tryEntry, hslot, if_true, hg, hnext, henter, hteam1]
  rw [enterGroup_of_record (g1 := g.upd t.lanes (fun _ l => l.settle)) hg rfl rfl hmarks hrec, Group.inHandler_settled]

/-- The lantern as its split enters the handler: it has settled, and stands at the vector. -/
def Lantern.inHandler (l : Lantern) (t : TrapSplit) (rest : List TrapSplit) (pc : Addr) : Lantern :=
  { l.settle with
    park := .none, traps := rest, counted := false, pc := pc
    fe := { l.settle.fe with handler := true, epc := t.epc, ecause := BitVec.ofNat 32 t.vec } }

theorem enterLantern_of_record {l : Lantern} {rest : List TrapSplit} (hl : s.lantern? core slot = some l) (htraps : l.traps = t :: rest)
    (hmarks : t.marks = 0)
    (hrec : writeRecord (touchRecord s team.ctx core slot) team.ctx core slot 0
      (recordBytes t (recordFlags true t.wide) t.epc l.settle.fe) = some s1) :
    enterLantern (s.setLantern l.settle) l.settle t team =
      (s1.setLantern (l.inHandler t rest (vectorAddr s team.ctx t.vec))).acquire core 4 := by
  obtain ⟨hc, hs⟩ := l.settle_place
  obtain rfl : l.settle.core = core := hc.trans (State.lantern?_core hl).1
  obtain rfl : l.settle.slot = slot := hs.trans (State.lantern?_core hl).2
  have hlantern : (touchRecord s team.ctx l.settle.core l.settle.slot).lantern? l.settle.core l.settle.slot = some l :=
    (touchRecord_keeps (F := fun s => s.lantern? l.settle.core l.settle.slot) (fun _ _ _ _ => rfl) s team.ctx _ _).trans hl
  have hfound : ((touchRecord s team.ctx l.settle.core l.settle.slot).setLantern l.settle).lantern? l.settle.core l.settle.slot = some l.settle :=
    State.lantern?_setLantern_of hlantern l.settle hc hs
  have hrest : l.settle.traps.drop 1 = rest := by rw [l.settle_traps, htraps, List.drop_one, List.tail_cons]
  simp only [enterLantern, hmarks, drainSq, touchRecord_setLantern, hfound, l.settle_settle, writeRecord_setLantern hrec, hrest]
  rw [State.setLantern_setLantern _ (by rfl) (by rfl)]
  rfl

theorem tryEntry_of_lantern {l : Lantern} {rest : List TrapSplit} (hslot : ¬ slot < 128) (hl : s.lantern? core slot = some l)
    (hteam : s.team? l.team = some team) (hh : l.fe.handler = false) (htraps : l.traps = t :: rest) (hmarks : t.marks = 0)
    (hops : ∀ o ∈ l.fe.ops, o.id ∉ t.ops)
    (hrec : writeRecord (touchRecord s team.ctx core slot) team.ctx core slot 0
      (recordBytes t (recordFlags true t.wide) t.epc l.settle.fe) = some s1) :
    tryEntry s core slot = (s1.setLantern (l.inHandler t rest (vectorAddr s team.ctx t.vec))).acquire core 4 := by
  obtain ⟨hsame, hidle⟩ := landLantern_front (l.pend.map (fun p => { p with left := 0 })) [] l
  have hnone : l.settle.fe.ops.any (fun o => t.ops.contains o.id) = false := List.any_eq_false.2 fun o ho => by
    simpa using hops o (hsame ▸ ho)
  have henter : l.settle.entering = some t := by
    simp only [Lantern.entering, show l.settle.fe.handler = false from hidle.trans hh, l.settle_traps, htraps, hnone, Bool.false_eq_true, if_false]
  simp only [tryEntry, hslot, if_false, hl, hh, htraps, List.isEmpty_cons, Bool.or_self, Bool.false_eq_true, henter, l.settle_team, hteam]
  exact enterLantern_of_record hl htraps hmarks hrec

end

end Sys2Proof.Machine

open Sys2Proof Sys2Proof.Machine

namespace Sys2Proof.Claims

theorem handlersStart_hold : HandlersStart := by
  refine ⟨fun core slot s s1 g t team hslot hg hteam hh hspec hfirst hmarks hops hrec => ?group,
    fun core slot s s1 l t rest team hslot hl hteam hh htraps hmarks hops hrec => ?lantern⟩
  case group =>
    exact (exec_trapEntry core slot s).trans (congrArg Host.Outcome.next
      (tryEntry_of_group hslot hg hteam (nextSplit_of_turn hh hspec hfirst) hmarks hops hrec))
  case lantern =>
    exact (exec_trapEntry core slot s).trans (congrArg Host.Outcome.next
      (tryEntry_of_lantern hslot hl hteam hh htraps hmarks hops hrec))

end Sys2Proof.Claims

/-- Settles O47: the record is its fields one after another, and a split whose turn it is enters over the record that is written. -/
theorem trapEntry : Obligations.TrapEntry := by
  unfold Obligations.TrapEntry
  exact ⟨recordLayout_holds, Claims.handlersStart_hold⟩

end

section
/-! What the distributor decides with one grid task, and the events of a gang and of a blocked task (R286-R291). -/

namespace Sys2Proof.Machine

/-! ### What a step of the distributor leaves alone -/

section
variable {s : State} {t : Task}

theorem State.settled_of_none_done (h : ∀ t ∈ s.tasks, taskDone s t = false) : s.settled = s := by
  have hnone : s.tasks.find? (fun t => taskDone s t) = none := List.find?_eq_none.mpr fun t ht => by simp [h t ht]
  simp only [State.settled, settleTasks, hnone]

theorem expandAll_of_none_ragged (h : ∀ t ∈ s.tasks, recKind t.record ≠ 1) : expandAll s = s :=
  foldl_idle (fun _ t ht => if_neg (h t ht)) s

theorem replayAll_of_empty_journal (h : s.journal = []) : replayAll s = s := by simp [replayAll, h]

theorem settleRequests_of_none (hp : s.preempts = []) (ht : ∀ t ∈ s.tasks, t.state ≠ .preempting) : settleRequests s = s := by
  have hmap : s.tasks.map (fun t => if t.state = .preempting && taskQuiet s t && !s.saving t.ctx then { t with state := .parked } else t) = s.tasks :=
    (List.map_congr_left fun t hm => if_neg (by simp [ht t hm])).trans (List.map_id s.tasks)
  simp only [settleRequests, hmap, hp, List.takeWhile_nil, List.dropWhile_nil, List.foldl_nil]
  rw [← hp]

theorem taskDone_of_unplaced (hflt : t.flt = false) (hkind : recKind t.record ≠ 1) (hnext : t.next < recTeams t.record) :
    taskDone s t = false := by
  have hplaced : allPlaced s t = false := by simp [allPlaced, hkind, hnext]
  simp [taskDone, hflt, hplaced]

end

/-! ### A dispatch order of one task (R286, R288) -/

section
variable {s : State} {t : Task}

theorem dispatchOrder_singleton (ht : s.tasks = [t]) (ho : inOrder s t = true) : dispatchOrder s = [t] := by
  simp [dispatchOrder, ht, ho, insertTask]

theorem clearSkips_singleton (ht : s.tasks = [t]) : clearSkips s [t] = s := by
  simp only [clearSkips, ht, List.head?_cons, Option.map_some, Option.getD_some, List.map_cons, List.map_nil, List.any_cons, decide_true,
    Bool.true_or, if_true]
  rw [← ht]

end

/-! ### A grid task whose next team is due -/

/-- A grid task without faults that has a next team to place, none of them flushed. -/
structure Task.GridDue (t : Task) : Prop where
  sound : t.flt = false
  stands : t.state = .ready ∨ t.state = .active
  grid : recKind t.record = 0
  flushed : t.flushed = []
  due : t.next < recTeams t.record

/-- The team that a grid task places next. -/
def Task.gridTeam (t : Task) : NextTeam := { index := t.next, s10 := recTeams t.record }

section
variable {s : State} {t : Task}

theorem Task.GridDue.nextTeam_eq (h : t.GridDue) : nextTeam s t = some t.gridTeam := by
  simp [nextTeam, Task.gridTeam, h.sound, h.grid, h.flushed, h.due]

theorem Task.GridDue.inOrder (h : t.GridDue) : inOrder s t = true := by
  simp [Machine.inOrder, h.sound, h.grid, h.nextTeam_eq, h.stands]

theorem Task.GridDue.not_done (h : t.GridDue) : taskDone s t = false :=
  taskDone_of_unplaced h.sound (by simp [h.grid]) h.due

theorem Task.GridDue.not_preempting (h : t.GridDue) : t.state ≠ .preempting := by
  obtain hs | hs := h.stands <;> simp [hs]

/-- A task without regions needs no entries, so that every spot offered will do (R253, R288). -/
theorem placeOn_without_regions {d : NextTeam} {spots : List Spot} (hnreg : recNreg t.record = 0) (hj : s.journal = []) (hspots : spots ≠ []) :
    ∃ p ∈ spots, placeOn s t d spots = .took (placeTeam s.choose.2 t d p []) := by
  have hfits (p : Spot) : stagingFits s p.core (t.ticketAt p.core) [] = true := by simp [stagingFits, mayLock, regionLocks, hj]
  have hn : s.choose.1 % spots.length < spots.length := Nat.mod_lt _ (List.length_pos_iff.mpr hspots)
  refine ⟨spots[s.choose.1 % spots.length], List.getElem_mem hn, ?_⟩
  simp [placeOn, touchRegions, planRegions, hnreg, hfits, List.filter_true, List.getElem?_eq_getElem hn]

theorem Task.GridDue.takeTask_eq (h : t.GridDue) (hnreg : recNreg t.record = 0) (hj : s.journal = []) (hspots : spotsFor s t.record ≠ []) (first : Bool) :
    ∃ p ∈ spotsFor s t.record, takeTask s t first = .took (placeTeam s.choose.2 t t.gridTeam p []) := by
  obtain ⟨p, hp, hplace⟩ := placeOn_without_regions (d := t.gridTeam) hnreg hj hspots
  exact ⟨p, hp, by simp only [takeTask, h.grid, h.nextTeam_eq, if_neg hspots, hplace]⟩

/-- Nothing is expanded, completes, is replayed or is reported before the decision about a lone grid task. -/
theorem Task.GridDue.nothing_before (h : t.GridDue) (hj : s.journal = []) (hp : s.preempts = []) (ht : s.tasks = [t]) :
    settleRequests (replayAll (expandAll s).settled) = s := by
  rw [expandAll_of_none_ragged (by simp [ht, h.grid]), State.settled_of_none_done (by simp [ht, h.not_done]), replayAll_of_empty_journal hj,
    settleRequests_of_none hp (by simp [ht, h.not_preempting])]

theorem decide1_of_no_gang {s s0 : State} {dt : Nat} (h : settleRequests (replayAll (expandAll { s with now := s.now + dt }).settled) = s0)
    (hg : s0.gang = none) :
    decide1 s dt = (runOrder (clearSkips s0 (dispatchOrder s0)) (dispatchOrder (clearSkips s0 (dispatchOrder s0))) true).settled := by
  simp only [decide1, h, hg]

theorem Task.GridDue.decide1_eq (h : t.GridDue) {dt : Nat} (hg : s.gang = none) (hj : s.journal = []) (hp : s.preempts = []) (ht : s.tasks = [t]) :
    decide1 s dt = (runOrder { s with now := s.now + dt } [t] true).settled := by
  have horder : dispatchOrder { s with now := s.now + dt } = [t] := dispatchOrder_singleton ht h.inOrder
  have hskips : clearSkips { s with now := s.now + dt } [t] = { s with now := s.now + dt } := clearSkips_singleton ht
  rw [decide1_of_no_gang (h.nothing_before hj hp ht) hg, horder, hskips, horder]

end

/-! ### Gangs and blocked tasks (R288, R291) -/

theorem State.meetGang_of_higher {s : State} {g : Gang} {t x : Task} (hg : s.gang = some g) (ht : s.task? g.slot = some t)
    (hplacing : g.placing = false) (hprio : recPriority t.record < recPriority x.record) :
    s.meetGang x = { s with gang := some { g with broken := true } } := by
  simp [State.meetGang, hg, ht, hplacing, hprio]

theorem mustRelease_of_broken {s : State} {g : Gang} (hg : s.gang = some g) (hplacing : g.placing = false) (hbroken : g.broken = true) :
    mustRelease s = true := by
  simp [mustRelease, hg, hplacing, hbroken]

theorem execTaskBlocking_of_skipped {slot since : Nat} {s : State} {t : Task} (ht : s.task? slot = some t) (hskip : t.skipped = some since)
    (hhead : (dispatchOrder s).head?.map (·.slot) = some slot) (hlate : since + 2 ^ bcfgSkip s.plat.bcfg ≤ s.now) :
    execTaskBlocking slot s = .next (s.setTask { t with blocking := true }) := by
  simp only [execTaskBlocking, ht, hskip, hhead, hlate, decide_true, Bool.and_self, if_true]

end Sys2Proof.Machine

open Sys2Proof Sys2Proof.Machine

namespace Sys2Proof.Claims

theorem oneTeamPlaced_hold : OneTeamPlaced := by
  intro dt s t hg hj hp ht hsound hstands hgrid hnreg hflushed hdue s1 spots hspots
  have h : t.GridDue := ⟨hsound, hstands, hgrid, hflushed, hdue⟩
  obtain ⟨p, hmem, htake⟩ := h.takeTask_eq (s := s1) hnreg hj hspots true
  refine ⟨p, hmem, (exec_distributorDecision dt s).trans (congrArg Host.Outcome.next ?_)⟩
  calc decide1 s dt = (runOrder s1 [t] true).settled := h.decide1_eq hg hj hp ht
    _ = (placeTeam s1.choose.2 t t.gridTeam p []).settled := by simp only [runOrder, htake]

theorem distributorEvents_hold : DistributorEvents := by
  refine ⟨fun s g t x hg ht hplacing => ⟨State.meetGang_of_higher hg ht hplacing, fun hbroken => ?_⟩,
    fun slot s t since ht hskip hhead hlate => ?_⟩
  · exact (exec_gangReservationRelease s).trans (congrArg Host.Outcome.next (if_pos (mustRelease_of_broken hg hplacing hbroken)))
  · exact (exec_taskBlocking slot s).trans (execTaskBlocking_of_skipped ht hskip hhead hlate)

end Sys2Proof.Claims

/-- Settles O51: nothing comes before the decision about a lone grid task, and without regions every place that holds its team will do. -/
theorem distributorDecides : Obligations.DistributorDecides := by
  unfold Obligations.DistributorDecides
  exact ⟨Claims.oneTeamPlaced_hold, Claims.distributorEvents_hold⟩

end
